-- ==== Sys2Proof/Word.lean ====
section
/-! DEFINITION. The plain data words of the SZM-1604: bytes, 64-bit words, 256 B lines, keys, digests and vector registers. -/

namespace Sys2Proof

/-- One byte. -/
abbrev Byte := BitVec 8
/-- One 64-bit word: a scalar register, a memory word (08, Table 8.1; 06, R143). -/
abbrev Word := BitVec 64
/-- One 256 B line, chunk, payload or order body; byte 0 in bits [7:0] (00, R6). -/
abbrev Line := BitVec 2048
/-- An AES-256 key (13, Table 13.5), its first byte in the highest bits, as the standard writes it. -/
abbrev Key := BitVec 256
/-- A SHA-384 digest, its first byte in the highest bits. -/
abbrev Digest := BitVec 384
/-- A vector register (08, Table 8.1). -/
abbrev VReg := BitVec 512

/-- A table indexed by number: keys strictly rising, one entry each. -/
abbrev Tab (α : Type) := List (Nat × α)

end Sys2Proof
end

