-- ==== Sys2Proof/Types.lean ====
section
/-! DEFINITION. The operands of commands: packets, control records, order headers, thread references and instruction fields. -/

namespace Sys2Proof

/-- The path by which a packet or order reached the module. A port is named by its module port number, plane times 16 plus n (04, Table 4.15). -/
inductive Via where
  /-- over Genura, on this module port -/
  | genura (port : Nat)
  /-- over Darinlink, from the companion processor -/
  | darinlink
deriving DecidableEq, Repr

/-- A transaction packet (03, Table 3.1) or a Darinlink message (11, Table 11.12).
Of a Darinlink message, address holds OFFSET, and the fields of Table 3.1 that Table 11.12 does not have are not looked at. -/
structure Packet where
  opcode : Nat := 0
  encrypted : Bool := false
  keyEpoch : Nat := 0
  poison : Bool := false
  tag : Nat := 0
  source : Nat := 0
  dest : Nat := 0
  tenant : Nat := 0
  vc : Nat := 0
  hops : Nat := 0
  roleGen : Nat := 0
  sillage : Nat := 0
  status : Nat := 0
  length : Nat := 0
  aux : Nat := 0
  address : Nat := 0
  msgCounter : Nat := 0
  gcmTag : BitVec 96 := 0
  /-- header bits [15:11]; Darinlink: bits [15:8] -/
  rsvLow : Nat := 0
  /-- header bits [111:101]; Darinlink: bits [31:26] -/
  rsvMid : Nat := 0
  /-- header bits [223:180]; Darinlink: MASTER, bits [57:56] -/
  rsvHigh : Nat := 0
  payload : Option Line := none
deriving DecidableEq, Repr

/-- What an order's sender is known by once its protection has been taken off (11, R277, R278, R280). -/
structure OrderHdr where
  via : Via
  /-- SOURCE_ID of a Genura order -/
  source : Nat := 0
  /-- MASTER of a Darinlink order -/
  master : Nat := 0
  tag : Nat := 0
  seq : Nat := 0
  /-- KEY_EPOCH of a Genura order -/
  keyEpoch : Nat := 0
  encrypted : Bool := true
deriving DecidableEq, Repr

/-- What the saved state of a port holds of one physical lane: FIR coefficients of the transmitter, CTLE, FFE and DFE settings, CDR phase and polarity of the receiver (10, R266). -/
structure LaneSet where
  fir : List Int := []
  ctle : List Int := []
  ffe : List Int := []
  dfe : List Int := []
  cdrPhase : Int := 0
  inverted : Bool := false
deriving DecidableEq, Repr, Inhabited

/-- LINK_HELLO (10, Table 10.15). -/
structure HelloRec where
  serial : Nat := 0
  port : Nat := 0
  prevRecvPoint : Nat := 0
  prevPortGen : Nat := 0
  proposedGen : Nat := 0
  nodeKind : Nat := 0
  prevValid : Bool := false
  width : Nat := 0
  plane : Nat := 0
deriving DecidableEq, Repr

/-- LINK_ASSIGN (10, Table 10.7). -/
structure AssignRec where
  managerId : Nat := 0
  endpointId : Nat := 0
  switchPort : Nat := 0
  portGen : Nat := 0
  plane : Nat := 0
  switchSerial : Nat := 0
deriving DecidableEq, Repr

/-- RECOVER_QUERY and RECOVER_REPLY (10, Table 10.8). -/
structure RecoverRec where
  recvPoint : Nat := 0
  failedSwitchPort : Nat := 0
  failedPortGen : Nat := 0
  held : Bool := false
  queryId : Nat := 0
deriving DecidableEq, Repr

/-- A link control record (10, Table 10.6). -/
inductive CtrlRec where
  | hello (r : HelloRec)
  | assign (r : AssignRec)
  | ready (gen : Nat)
  | query (r : RecoverRec)
  | reply (r : RecoverRec)
  | stale (gen found : Nat)
  | reset (gen reason : Nat) (answer : Bool)
deriving DecidableEq, Repr

/-- A Darinlink control record (11, Table 11.16). -/
structure DlCtrlRec where
  /-- CREDITS_0 to CREDITS_5 -/
  credits : List Nat := []
  width : Nat := 0
  echo : Bool := false
  trainCount : Nat := 0
deriving DecidableEq, Repr

/-- One hardware thread of one logical engine (07, R170, R182). -/
structure ThreadRef where
  engine : Nat
  thread : Nat
deriving DecidableEq, Repr

/-- The fields below OP of an instruction word (08, Table 8.2). -/
structure Fields where
  d : BitVec 5 := 0
  a : BitVec 5 := 0
  b : BitVec 5 := 0
  fn : BitVec 11 := 0
deriving DecidableEq, Repr

/-- What the test logic found in one slice (14, R345): the MISR of each run, and the march test's rows. -/
structure SliceResult where
  firstMatch : Bool := true
  secondMatch : Bool := true
  /-- macro and row of a failing SRAM row -/
  failingRow : Option (Nat × Nat) := none
deriving DecidableEq, Repr

/-- Why an engine, stack or slice step was cut short: the causes of 14, Table 14.6, outcomes 3 to 7. -/
inductive AbandonCause where
  | spare | erasure | drain | other
deriving DecidableEq, Repr

end Sys2Proof
end

