-- ==== Sys2Proof/Syntax.lean ====
section
/-! DEFINITION. The commands of the block: one constructor per row of the table of operations and events, in its order.
Every docstring gives the row's rule. -/

namespace Sys2Proof

/-- A command (opcode_table.json; 95_what_each_step_holds). -/
inductive Instr where
  /-- READ (R66) -/
  | read (via : Via) (p : Packet)
  /-- WRITE (R66) -/
  | write (via : Via) (p : Packet)
  /-- READ_NOALLOC (R96) -/
  | readNoalloc (via : Via) (p : Packet)
  /-- WRITE_NOALLOC (R96) -/
  | writeNoalloc (via : Via) (p : Packet)
  /-- READ_SHARED (R99) -/
  | readShared (via : Via) (p : Packet)
  /-- READ_OWN (R99) -/
  | readOwn (via : Via) (p : Packet)
  /-- UPGRADE (R105) -/
  | upgrade (via : Via) (p : Packet)
  /-- ZERO_LINE (R66) -/
  | zeroLine (via : Via) (p : Packet)
  /-- ATOMIC_ADD (R59) -/
  | atomicAdd (via : Via) (p : Packet)
  /-- ATOMIC_SWAP (R59) -/
  | atomicSwap (via : Via) (p : Packet)
  /-- ATOMIC_CAS (R59) -/
  | atomicCas (via : Via) (p : Packet)
  /-- ATOMIC_AND (R59) -/
  | atomicAnd (via : Via) (p : Packet)
  /-- ATOMIC_OR (R59) -/
  | atomicOr (via : Via) (p : Packet)
  /-- ATOMIC_XOR (R59) -/
  | atomicXor (via : Via) (p : Packet)
  /-- ATOMIC_SMAX (R59) -/
  | atomicSmax (via : Via) (p : Packet)
  /-- ATOMIC_SMIN (R59) -/
  | atomicSmin (via : Via) (p : Packet)
  /-- WRITEBACK (R95) -/
  | writeback (via : Via) (p : Packet)
  /-- EVICT_CLEAN (R104) -/
  | evictClean (via : Via) (p : Packet)
  /-- SPRAY_LAUNCH (R173) -/
  | sprayLaunch (via : Via) (p : Packet)
  /-- POOL_OP_LAUNCH (R232) -/
  | poolOpLaunch (via : Via) (p : Packet)
  /-- SNOOP_RESP (R98) -/
  | snoopResp (via : Via) (p : Packet)
  /-- SNOOP_RESP_DATA (R100) -/
  | snoopRespData (via : Via) (p : Packet)
  /-- RESP (R191) -/
  | resp (via : Via) (p : Packet)
  /-- RESP_DATA (R191) -/
  | respData (via : Via) (p : Packet)
  /-- COMPLETION (R191) -/
  | completion (via : Via) (p : Packet)
  /-- ORDER (R283) -/
  | order (via : Via) (p : Packet)
  /-- STATUS_READ (R305) -/
  | statusRead (p : Packet)
  /-- WFQ_GRANT (R85) -/
  | wfqGrant (region : Nat)
  /-- HOME_AGENT_INPUT (R94) -/
  | homeAgentInput (region : Nat)
  /-- TRANSACTION_COMPLETE (R93) -/
  | transactionComplete (line : Nat)
  /-- SNOOP_TIMEOUT (R110) -/
  | snoopTimeout (line : Nat) (slot : Nat)
  /-- FAILURE_WALK_STEP (R112) -/
  | failureWalkStep (slot : Nat)
  /-- FAILURE_WALK_DONE (R113) -/
  | failureWalkDone (slot : Nat)
  /-- RELEASE_SWEEP_STEP (R107) -/
  | releaseSweepStep (slot : Nat)
  /-- RELEASE_SWEEP_DONE (R107) -/
  | releaseSweepDone (slot : Nat)
  /-- REFILL_TICK (R80) -/
  | refillTick
  /-- COMMIT_TICK (R43) -/
  | commitTick
  /-- REVOKE_DRAIN_DONE (R47) -/
  | revokeDrainDone (ext : Nat)
  /-- REVOKE_RECALL_DONE (R47) -/
  | revokeRecallDone (ext : Nat)
  /-- EXTENT_SCRUB_DONE (R47) -/
  | extentScrubDone (ext : Nat)
  /-- EXTENT_ZEROING_STEP (R49) -/
  | extentZeroingStep (ext : Nat)
  /-- CHANNEL_ISSUE (R125) -/
  | channelIssue (stack : Nat) (chan : Nat) (pc : Nat)
  /-- REFRESH_DUE (R129) -/
  | refreshDue (stack : Nat) (chan : Nat) (pc : Nat) (bank : Nat)
  /-- STACK_TEMP_READ (R129) -/
  | stackTempRead (stack : Nat) (reading : Option Nat)
  /-- RETRAIN_DUE (R131) -/
  | retrainDue (stack : Nat) (chan : Nat)
  /-- RETRAIN_PAUSE_DONE (R131) -/
  | retrainPauseDone (stack : Nat) (chan : Nat) (inMargin : Bool)
  /-- RETRAIN_RERUN_DUE (R132) -/
  | retrainRerunDue (stack : Nat) (chan : Nat)
  /-- CHANNEL_FULL_TRAIN_DONE (R164) -/
  | channelFullTrainDone (stack : Nat) (chan : Nat) (passed : Bool)
  /-- PARITY_ALERT (R133) -/
  | parityAlert (stack : Nat) (chan : Nat) (pc : Nat)
  /-- PARITY_REPLAY_DONE (R134) -/
  | parityReplayDone (stack : Nat) (chan : Nat) (pc : Nat)
  /-- SELF_REFRESH_ENTRY (R136) -/
  | selfRefreshEntry (stack : Nat) (chan : Nat)
  /-- SELF_REFRESH_EXIT (R136) -/
  | selfRefreshExit (stack : Nat) (chan : Nat)
  /-- RATE_CHANGE_START (R138) -/
  | rateChangeStart (stack : Nat)
  /-- RATE_CHANGE_DONE (R138) -/
  | rateChangeDone (stack : Nat)
  /-- CORRECTIVE_REWRITE (R147) -/
  | correctiveRewrite (lstack : Nat) (stripe : Nat) (pos : Nat) (errorAgain : Bool)
  /-- STRIPE_ENTRY_HOLD_EXPIRY (R152) -/
  | stripeEntryHoldExpiry (lstack : Nat) (stripe : Nat)
  /-- STRIPE_COMMIT (R153) -/
  | stripeCommit (lstack : Nat) (stripe : Nat)
  /-- STRIPE_LOCK_GRANT (R156) -/
  | stripeLockGrant (lstack : Nat) (stripe : Nat)
  /-- ROW_REPAIR (R158) -/
  | rowRepair (stack : Nat) (chan : Nat) (place : Nat)
  /-- SCRUB_STRIPE (R161) -/
  | scrubStripe (stack : Nat)
  /-- SCRUB_PERIOD_END (R162) -/
  | scrubPeriodEnd (stack : Nat)
  /-- CHANNEL_REJOIN_STEP (R164) -/
  | channelRejoinStep (stack : Nat) (chan : Nat)
  /-- CHANNEL_REJOINED (R164) -/
  | channelRejoined (stack : Nat) (chan : Nat)
  /-- EVACUATION_START (R165) -/
  | evacuationStart (region : Nat)
  /-- SPARE_TRAINED (R166) -/
  | spareTrained (region : Nat)
  /-- EVACUATION_COPY_STRIPE (R166) -/
  | evacuationCopyStripe (region : Nat)
  /-- EVACUATION_CUTOVER (R168) -/
  | evacuationCutover (region : Nat)
  /-- EVACUATION_ABANDON (R167) -/
  | evacuationAbandon (region : Nat)
  /-- THREAD_PLACEMENT (R175) -/
  | threadPlacement (spray : Nat) (index : Nat)
  /-- THREAD_START (R176) -/
  | threadStart (engine : Nat)
  /-- THREAD_END (R209) -/
  | threadEnd (t : ThreadRef)
  /-- WATCHDOG_EXPIRY (R177) -/
  | watchdogExpiry (t : ThreadRef)
  /-- SPRAY_COMPLETE (R178) -/
  | sprayComplete (spray : Nat)
  /-- ENGINE_LOCAL_ACCESS (R187) -/
  | engineLocalAccess (access : Nat)
  /-- ENGINE_QUEUE_ROOM (R188) -/
  | engineQueueRoom (region : Nat)
  /-- REMOTE_ACCESS_SEND (R189) -/
  | remoteAccessSend (access : Nat)
  /-- REMOTE_RETRY_BACKOFF (R189) -/
  | remoteRetryBackoff (access : Nat)
  /-- REMOTE_TIMEOUT (R189) -/
  | remoteTimeout (access : Nat)
  /-- FAULT_BATCH_CLOSE (R194) -/
  | faultBatchClose (region : Nat)
  /-- FAULT_BATCH_WRITE (R195) -/
  | faultBatchWrite (region : Nat)
  /-- FAULT_TIMEOUT (R199) -/
  | faultTimeout (tile : Nat)
  /-- INVALIDATE_ACK (R200) -/
  | invalidateAck (engine : Nat)
  /-- PLANNED_MOVE_START (R202) -/
  | plannedMoveStart (engine : Nat)
  /-- PLANNED_MOVE_DONE (R202) -/
  | plannedMoveDone (engine : Nat)
  /-- PLANNED_MOVE_ABANDON (R202) -/
  | plannedMoveAbandon (engine : Nat)
  /-- ENGINE_ABRUPT_FAIL (R203) -/
  | engineAbruptFail (region : Nat) (index : Nat)
  /-- POOL_ITEM_UNIT_COMMIT (R233) -/
  | poolItemUnitCommit (t : ThreadRef)
  /-- FILL (R239) -/
  | fill (t : ThreadRef)
  /-- ZERO (R240) -/
  | zero (t : ThreadRef)
  /-- COPY (R239) -/
  | copy (t : ThreadRef)
  /-- COMPARE (R239) -/
  | compare (t : ThreadRef)
  /-- REDUCE (R242) -/
  | reduce (t : ThreadRef)
  /-- GATHER (R239) -/
  | gather (t : ThreadRef)
  /-- SCATTER (R239) -/
  | scatter (t : ThreadRef)
  /-- SEARCH (R246) -/
  | search (t : ThreadRef)
  /-- ATTEND (R248) -/
  | attend (t : ThreadRef)
  /-- DIGEST (R243) -/
  | digest (t : ThreadRef)
  /-- ALU (R208) -/
  | alu (t : ThreadRef) (f : Fields)
  /-- ADDI (R208) -/
  | addi (t : ThreadRef) (f : Fields)
  /-- ANDI (R208) -/
  | andi (t : ThreadRef) (f : Fields)
  /-- ORI (R208) -/
  | ori (t : ThreadRef) (f : Fields)
  /-- XORI (R208) -/
  | xori (t : ThreadRef) (f : Fields)
  /-- SHLI (R208) -/
  | shli (t : ThreadRef) (f : Fields)
  /-- SHRI (R208) -/
  | shri (t : ThreadRef) (f : Fields)
  /-- SRAI (R208) -/
  | srai (t : ThreadRef) (f : Fields)
  /-- SLTI (R208) -/
  | slti (t : ThreadRef) (f : Fields)
  /-- LI (R207) -/
  | li (t : ThreadRef) (f : Fields)
  /-- LIS (R207) -/
  | lis (t : ThreadRef) (f : Fields)
  /-- POP (R207) -/
  | pop (t : ThreadRef) (f : Fields)
  /-- RDS (R207) -/
  | rds (t : ThreadRef) (f : Fields)
  /-- BEQ (R207) -/
  | beq (t : ThreadRef) (f : Fields)
  /-- BNE (R207) -/
  | bne (t : ThreadRef) (f : Fields)
  /-- BLT (R207) -/
  | blt (t : ThreadRef) (f : Fields)
  /-- BGE (R207) -/
  | bge (t : ThreadRef) (f : Fields)
  /-- BLTU (R207) -/
  | bltu (t : ThreadRef) (f : Fields)
  /-- BGEU (R207) -/
  | bgeu (t : ThreadRef) (f : Fields)
  /-- BP (R207) -/
  | bp (t : ThreadRef) (f : Fields)
  /-- JMP (R207) -/
  | jmp (t : ThreadRef) (f : Fields)
  /-- JAL (R207) -/
  | jal (t : ThreadRef) (f : Fields)
  /-- JR (R207) -/
  | jr (t : ThreadRef) (f : Fields)
  /-- END (R209) -/
  | endInstr (t : ThreadRef) (f : Fields)
  /-- TRAP (R209) -/
  | trap (t : ThreadRef) (f : Fields)
  /-- FENCE (R184) -/
  | fence (t : ThreadRef) (f : Fields)
  /-- NOP (R207) -/
  | nop (t : ThreadRef) (f : Fields)
  /-- LD (R210) -/
  | ld (t : ThreadRef) (f : Fields)
  /-- ST (R210) -/
  | st (t : ThreadRef) (f : Fields)
  /-- VLD (R210) -/
  | vld (t : ThreadRef) (f : Fields)
  /-- VST (R210) -/
  | vst (t : ThreadRef) (f : Fields)
  /-- VLDG (R212) -/
  | vldg (t : ThreadRef) (f : Fields)
  /-- VSTG (R212) -/
  | vstg (t : ThreadRef) (f : Fields)
  /-- ATOM (R213) -/
  | atom (t : ThreadRef) (f : Fields)
  /-- TLOAD (R214) -/
  | tload (t : ThreadRef) (f : Fields)
  /-- TSTORE (R214) -/
  | tstore (t : ThreadRef) (f : Fields)
  /-- TWAIT (R214) -/
  | twait (t : ThreadRef) (f : Fields)
  /-- TILE_PERFORMED (R214) -/
  | tilePerformed (tile : Nat)
  /-- VOP (R216) -/
  | vop (t : ThreadRef) (f : Fields)
  /-- VCMP (R216) -/
  | vcmp (t : ThreadRef) (f : Fields)
  /-- VSEL (R216) -/
  | vsel (t : ThreadRef) (f : Fields)
  /-- VBCAST (R216) -/
  | vbcast (t : ThreadRef) (f : Fields)
  /-- VMOVS (R216) -/
  | vmovs (t : ThreadRef) (f : Fields)
  /-- VSFU (R218) -/
  | vsfu (t : ThreadRef) (f : Fields)
  /-- VCVT (R220) -/
  | vcvt (t : ThreadRef) (f : Fields)
  /-- VMXQ (R222) -/
  | vmxq (t : ThreadRef) (f : Fields)
  /-- VMXD (R222) -/
  | vmxd (t : ThreadRef) (f : Fields)
  /-- VDOT (R225) -/
  | vdot (t : ThreadRef) (f : Fields)
  /-- VDOTB (R225) -/
  | vdotb (t : ThreadRef) (f : Fields)
  /-- AOP (R226) -/
  | aop (t : ThreadRef) (f : Fields)
  /-- AREAD (R227) -/
  | aread (t : ThreadRef) (f : Fields)
  /-- AMOVS (R228) -/
  | amovs (t : ThreadRef) (f : Fields)
  /-- OWNER_CLAIM (R291) -/
  | ownerClaim (h : OrderHdr) (priority : Nat)
  /-- OWNER_RENEW (R293) -/
  | ownerRenew (h : OrderHdr)
  /-- OWNER_HANDOVER (R294) -/
  | ownerHandover (h : OrderHdr) (master : Nat)
  /-- OWNER_ACCEPT (R294) -/
  | ownerAccept (h : OrderHdr)
  /-- OWNER_RELEASE (R295) -/
  | ownerRelease (h : OrderHdr)
  /-- ELECTION_WINDOW_CLOSE (R291) -/
  | electionWindowClose
  /-- LEASE_EXPIRY (R293) -/
  | leaseExpiry
  /-- HANDOVER_EXPIRY (R294) -/
  | handoverExpiry
  /-- STATUS_WINDOW_READ (R305) -/
  | statusWindowRead (h : OrderHdr) (offset : Nat) (length : Nat)
  /-- MGMT_KEY_AGREE (R336) -/
  | mgmtKeyAgree (h : OrderHdr) (key : List Byte)
  /-- GRANT (R43) -/
  | grant (h : OrderHdr) (ext : Nat) (base : Nat) (size : Nat) (kind : Nat) (target : Nat) (physBase : Nat) (tenant : Nat) (measured : Nat) (access : (List (BitVec 32)))
  /-- ACCESS_SET (R44) -/
  | accessSet (h : OrderHdr) (ext : Nat) (generation : Nat) (access : (List (BitVec 32))) (measured : Nat)
  /-- REVOKE (R47) -/
  | revoke (h : OrderHdr) (ext : Nat) (generation : Nat)
  /-- EXTENT_READ (R43) -/
  | extentRead (h : OrderHdr) (ext : Nat)
  /-- EXTENT_FIND (R43) -/
  | extentFind (h : OrderHdr) (offset : Nat)
  /-- VIOLATION_READ (R53) -/
  | violationRead (h : OrderHdr)
  /-- HOST_SHAPE (R78) -/
  | hostShape (h : OrderHdr) (host : Nat) (weight : Nat) (pbs : Nat) (cbs : Nat) (pir : Nat) (cir : Nat)
  /-- HOST_SHAPE_READ (R78) -/
  | hostShapeRead (h : OrderHdr) (host : Nat) (region : Nat)
  /-- TENANT_CREATE (R386) -/
  | tenantCreate (h : OrderHdr) (tenant : Nat) (wrapped : (BitVec 320))
  /-- TENANT_REMOVE (R339) -/
  | tenantRemove (h : OrderHdr) (tenant : Nat)
  /-- ROTATE_KEY (R386) -/
  | rotateKey (h : OrderHdr) (tenant : Nat) (wrapped : (BitVec 320))
  /-- RETIRE_KEY (R338) -/
  | retireKey (h : OrderHdr) (tenant : Nat) (epoch : Nat) (force : Nat)
  /-- ATTEST_REPORT (R343) -/
  | attestReport (h : OrderHdr) (nonce : BitVec 256)
  /-- FW_WRITE (R333) -/
  | fwWrite (h : OrderHdr) (image : Nat) (offset : Nat) (length : Nat)
  /-- FW_ACTIVATE (R334) -/
  | fwActivate (h : OrderHdr) (image : Nat)
  /-- SLOT_GRANT (R29) -/
  | slotGrant (h : OrderHdr) (slot : Nat) (host : Nat)
  /-- SLOT_RELEASE (R107) -/
  | slotRelease (h : OrderHdr) (slot : Nat) (roleGen : Nat)
  /-- SLOT_READ (R106) -/
  | slotRead (h : OrderHdr) (slot : Nat)
  /-- HOST_FAILED (R110) -/
  | hostFailed (h : OrderHdr) (host : Nat)
  /-- LOST_READ (R113) -/
  | lostRead (h : OrderHdr)
  /-- DIR_READ (R89) -/
  | dirRead (h : OrderHdr) (offset : Nat)
  /-- STACK_READ (R142) -/
  | stackRead (h : OrderHdr) (region : Nat) (position : Nat)
  /-- STACK_RATE_LIMIT (R137) -/
  | stackRateLimit (h : OrderHdr) (region : Nat) (position : Nat) (limit : Nat)
  /-- MEM_IDLE_POLICY (R136) -/
  | memIdlePolicy (h : OrderHdr) (ms : Nat)
  /-- INTEGRITY_READ (R169) -/
  | integrityRead (h : OrderHdr) (region : Nat) (position : Nat)
  /-- BLOTTER_READ (R169) -/
  | blotterRead (h : OrderHdr) (region : Nat) (first : Nat)
  /-- BLOTTER_CLEAR (R169) -/
  | blotterClear (h : OrderHdr) (region : Nat)
  /-- POISON_READ (R169) -/
  | poisonRead (h : OrderHdr)
  /-- SCRUB_POLICY (R162) -/
  | scrubPolicy (h : OrderHdr) (minutes : Nat)
  /-- EVACUATE (R165) -/
  | evacuate (h : OrderHdr) (region : Nat) (position : Nat)
  /-- ACCORD_LOAD (R341) -/
  | accordLoad (h : OrderHdr) (offset : Nat) (length : Nat) (tenant : Nat)
  /-- ACCORD_UNLOAD (R172) -/
  | accordUnload (h : OrderHdr) (accord : Nat)
  /-- ASID_CREATE (R204) -/
  | asidCreate (h : OrderHdr) (asid : Nat) (tenant : Nat)
  /-- ASID_DESTROY (R204) -/
  | asidDestroy (h : OrderHdr) (asid : Nat)
  /-- MAP_RANGE (R192) -/
  | mapRange (h : OrderHdr) (asid : Nat) (pva : Nat) (ppa : Nat) (pageSize : Nat) (count : Nat) (rights : Nat)
  /-- UNMAP_RANGE (R204) -/
  | unmapRange (h : OrderHdr) (asid : Nat) (pva : Nat) (size : Nat)
  /-- PROTECT_RANGE (R204) -/
  | protectRange (h : OrderHdr) (asid : Nat) (pva : Nat) (size : Nat) (rights : Nat)
  /-- INVALIDATE_RANGE (R200) -/
  | invalidateRange (h : OrderHdr) (asid : Nat) (pva : Nat) (size : Nat)
  /-- MAP_READ (R204) -/
  | mapRead (h : OrderHdr) (asid : Nat) (pva : Nat)
  /-- FAULT_RING_SET (R195) -/
  | faultRingSet (h : OrderHdr) (ppa : Nat) (slots : Nat)
  /-- FAULT_RESOLVE (R198) -/
  | faultResolve (h : OrderHdr) (batch : Nat) (verdict : BitVec 256)
  /-- FAULT_POLICY (R199) -/
  | faultPolicy (h : OrderHdr) (ms : Nat)
  /-- SPRAY_READ (R204) -/
  | sprayRead (h : OrderHdr) (spray : Nat)
  /-- SPRAY_CANCEL (R181) -/
  | sprayCancel (h : OrderHdr) (spray : Nat)
  /-- ENGINE_TAG_RELEASE (R190) -/
  | engineTagRelease (h : OrderHdr) (host : Nat)
  /-- PORT_READ (R275) -/
  | portRead (h : OrderHdr) (plane : Nat) (port : Nat)
  /-- PORT_SELECT (R273) -/
  | portSelect (h : OrderHdr) (pair : Nat) (plane : Nat)
  /-- PORT_RETRAIN (R274) -/
  | portRetrain (h : OrderHdr) (plane : Nat) (port : Nat)
  /-- FAULT_READ (R318) -/
  | faultRead (h : OrderHdr) (selector : Nat)
  /-- FAULT_ACK (R319) -/
  | faultAck (h : OrderHdr) (selector : Nat) (cls : Nat)
  /-- FAULT_READ_WAIT_EXPIRY (R318) -/
  | faultReadWaitExpiry (master : Nat)
  /-- CLOCK_SET (R359) -/
  | clockSet (h : OrderHdr) (calendar : Nat)
  /-- LIFETIME_READ (R360) -/
  | lifetimeRead (h : OrderHdr) (group : Nat)
  /-- BIST_READ (R355) -/
  | bistRead (h : OrderHdr) (region : Nat)
  /-- POWER_LIMIT (R365) -/
  | powerLimit (h : OrderHdr) (watts : Nat)
  /-- MODULE_RESET (R377) -/
  | moduleReset (h : OrderHdr)
  /-- FLIT_RECEIVE (R257) -/
  | flitReceive (port : Nat) (raw : BitVec 2560) (fecOk : Bool)
  /-- REPLAY_TIMER_EXPIRY (R258) -/
  | replayTimerExpiry (port : Nat)
  /-- NAK_REPEAT_TIMER (R258) -/
  | nakRepeatTimer (port : Nat)
  /-- LINK_HELLO (R263) -/
  | linkHello (port : Nat) (r : HelloRec)
  /-- LINK_ASSIGN (R263) -/
  | linkAssign (port : Nat) (r : AssignRec)
  /-- LINK_READY (R263) -/
  | linkReady (port : Nat) (gen : Nat)
  /-- RECOVER_QUERY (R270) -/
  | recoverQuery (port : Nat) (r : RecoverRec)
  /-- RECOVER_REPLY (R270) -/
  | recoverReply (port : Nat) (r : RecoverRec)
  /-- STALE_ROLE (R259) -/
  | staleRole (port : Nat) (gen : Nat) (found : Nat)
  /-- RESET_REQUEST (R263) -/
  | resetRequest (port : Nat) (gen : Nat) (reason : Nat) (answer : Bool)
  /-- CTRL_REPEAT_TIMER (R263) -/
  | ctrlRepeatTimer (port : Nat)
  /-- ORPHAN_RESOLVE_TIMEOUT (R271) -/
  | orphanResolveTimeout (pair : Nat)
  /-- PORT_TRAINING_DONE (R265) -/
  | portTrainingDone (port : Nat) (good : BitVec 9)
  /-- PORT_BRINGUP_DONE (R269) -/
  | portBringupDone (port : Nat) (ok : Bool)
  /-- PLANNED_CHANGE_DRAIN (R273) -/
  | plannedChangeDrain (pair : Nat)
  /-- PORT_RESYNC_DONE (R274) -/
  | portResyncDone (port : Nat)
  /-- SAVED_STATE_EXPIRY (R266) -/
  | savedStateExpiry (port : Nat)
  /-- LANE_DEGRADE (R252) -/
  | laneDegrade (port : Nat) (lane : Nat) (lockLost : Bool)
  /-- DL_FLIT_RECEIVE (R300) -/
  | dlFlitReceive (raw : BitVec 4096)
  /-- DL_REPLAY_TIMER_EXPIRY (R300) -/
  | dlReplayTimerExpiry
  /-- DL_RECOVERY_RETRAIN (R298) -/
  | dlRecoveryRetrain
  /-- DL_CREDIT_INIT (R302) -/
  | dlCreditInit (r : DlCtrlRec)
  /-- DL_WIDTH (R302) -/
  | dlWidth (r : DlCtrlRec)
  /-- DL_WIDTH_RETRY_TIMER (R302) -/
  | dlWidthRetryTimer
  /-- DL_FULL_TRAINING_DONE (R298) -/
  | dlFullTrainingDone (good : BitVec 16)
  /-- DARINLINK_DOWN (R304) -/
  | darinlinkDown
  /-- DL_TRAIN_RETRY_TIMER (R304) -/
  | dlTrainRetryTimer
  /-- ERROR_LINE (R309) -/
  | errorLine (hub : Bool) (region : Nat) (unit : Nat) (cause : Nat) (detail : Nat)
  /-- REPLACEMENT_DONE (R320) -/
  | replacementDone (hub : Bool) (region : Nat) (unit : Nat)
  /-- MGMT_PAIR_TAKEOVER (R322) -/
  | mgmtPairTakeover
  /-- SLICE_START (R347) -/
  | sliceStart (region : Nat) (unit : Nat) (segment : Nat)
  /-- SLICE_END (R345) -/
  | sliceEnd (region : Nat) (result : SliceResult)
  /-- SLICE_ABANDON (R349) -/
  | sliceAbandon (region : Nat) (cause : AbandonCause)
  /-- CATCHUP_WALK_DONE (R350) -/
  | catchupWalkDone (region : Nat)
  /-- UNIT_DUE (R346) -/
  | unitDue (region : Nat) (unit : Nat) (segment : Nat)
  /-- PORT_EXCHANGE (R352) -/
  | portExchange (pair : Nat)
  /-- MGMT_PAIR_EXCHANGE (R353) -/
  | mgmtPairExchange
  /-- SPARE_STACK_TEST (R354) -/
  | spareStackTest (region : Nat) (passed : Bool)
  /-- FUSE_BANK_CHECK (R346) -/
  | fuseBankCheck (bank : Nat) (ok : Bool)
  /-- CHECKPOINT (R358) -/
  | checkpoint
  /-- EVENT_RECORD_WRITE (R358) -/
  | eventRecordWrite (ok : Bool)
  /-- PWR_OK_FALL (R376) -/
  | pwrOkFall
  /-- RESET_N_RISE (R373) -/
  | resetNRise
  /-- RESET_N_LOW (R378) -/
  | resetNLow (nanoseconds : Nat)
  /-- HUB_RESET_RELEASE (R371) -/
  | hubResetRelease (scanPass : Bool)
  /-- ORDER_SERVICE_START (R375) -/
  | orderServiceStart
  /-- READY_ASSERT (R375) -/
  | readyAssert
  /-- STARTUP_TIMEOUT (R374) -/
  | startupTimeout
  /-- INPUT_MONITOR (R363) -/
  | inputMonitor (millivolts : Nat) (milliamps : Nat)
  /-- POWER_EVALUATION (R366) -/
  | powerEvaluation (average10ms : Nat) (average1ms : Nat)
  /-- DIE_TEMP_READ (R367) -/
  | dieTempRead (die : Nat) (sensors : List Nat)
  /-- REF_CLOCK_LOSS (R370) -/
  | refClockLoss
  /-- REF_CLOCK_RETURN (R370) -/
  | refClockReturn
  /-- REF_CLOCK_ABSENT_TIMEOUT (R370) -/
  | refClockAbsentTimeout
  /-- CONVERTERS_STOP (R376) -/
  | convertersStop
  /-- I3C_PRIVATE_WRITE (R383) -/
  | i3cPrivateWrite (bytes : List Byte)
  /-- I3C_PRIVATE_READ (R383) -/
  | i3cPrivateRead (count : Nat)
  /-- SETDASA (R383) -/
  | setdasa (address : Nat)
  /-- ENTDAA (R383) -/
  | entdaa (address : Nat)
  /-- RSTDAA (R383) -/
  | rstdaa
  /-- GETPID (R383) -/
  | getpid
  /-- GETBCR (R383) -/
  | getbcr
  /-- GETDCR (R383) -/
  | getdcr
  /-- GETSTATUS (R383) -/
  | getstatus
  /-- GETMXDS (R383) -/
  | getmxds
  /-- ENEC (R383) -/
  | enec
  /-- DISEC (R383) -/
  | disec
  /-- IDCODE (R385) -/
  | idcode
  /-- SAMPLE (R385) -/
  | sample (shift : List Bool)
  /-- EXTEST (R385) -/
  | extest (shift : List Bool)
  /-- EXTEST_PULSE (R385) -/
  | extestPulse (shift : List Bool)
  /-- EXTEST_TRAIN (R385) -/
  | extestTrain (shift : List Bool)
  /-- CLAMP (R385), with the bits shifted through the bypass register -/
  | clamp (shift : List Bool := [])
  /-- HIGHZ (R385), with the bits shifted through the bypass register -/
  | highz (shift : List Bool := [])
  /-- BOOT_STATUS (R385) -/
  | bootStatus
  /-- BYPASS (R385): the 8-bit code, 0xFF by itself, and the bits shifted through the bypass register -/
  | bypass (code : Nat := 0xFF) (shift : List Bool := [])
  /-- TRST_N_LOW (R385) -/
  | trstNLow
  /-- PWR_OK_RISE (R373) -/
  | pwrOkRise
  /-- STACK_TRAINING_DONE (R140) -/
  | stackTrainingDone (stack : Nat) (passed : Bool)
  /-- METADATA_WRITE_DONE (R141) -/
  | metadataWriteDone (lstack : Nat)
  /-- STARTUP_SELF_TEST_DONE (R374) -/
  | startupSelfTestDone (region : Nat) (failing : List Nat)
  /-- MGMT_KEY_PREVIOUS_EXPIRY (R278) -/
  | mgmtKeyPreviousExpiry (master : Nat)
  /-- RECEIVE_POINT_HOLD_EXPIRY (R270) -/
  | receivePointHoldExpiry (port : Nat)
  /-- FW_WRITE_DONE (R333) -/
  | fwWriteDone (flashOk : Bool)
  /-- FW_ACTIVATE_DONE (R334) -/
  | fwActivateDone (flashOk : Bool)
deriving DecidableEq, Repr

end Sys2Proof
end

