-- ==== Sys2Proof/Config.lean ====
section
/-! DEFINITION. What manufacture fixes, and the values the spec leaves open: constants with no body, so that no proof can see a value of them. -/

namespace Sys2Proof.Config

/-- Fuse DEVICE_SECRET (13, Table 13.1), written at manufacture. -/
opaque deviceSecret : BitVec 384
/-- Fuse SERIAL (13, Table 13.1). -/
opaque serial : BitVec 64
/-- Fuse DIK_ENDORSEMENT (13, Table 13.1), in the order of its standard. -/
opaque dikEndorsement : BitVec 768
/-- The public keys FW_KEY_0 to FW_KEY_3 of the boot ROM (13, Table 13.5): the point of key i. -/
opaque fwKey : Nat → Nat × Nat
/-- The bytes a slot (0 A, 1 B) or bundle copy (2 copy 0, 3 copy 1) of flash holds from manufacture (13, Table 13.2). -/
opaque flashImage : Nat → List Byte
/-- The boot select record's slot number from manufacture (13, Table 13.2). -/
opaque bootSlot : Nat
/-- A fresh ephemeral private key or nonce, number k of the run (13, R336, Table 13.5). -/
opaque freshScalar : Nat → Nat
/-- A value the spec leaves undefined, number k of the run, width w. -/
opaque freeBits : (w : Nat) → Nat → BitVec w
/-- How far a VSFU result lies from the nearest one, in units in the last place, within R218's bound: read modulo 5, minus 2. -/
opaque sfuSlip : Nat → BitVec 32 → Nat
/-- Where a lower translation table lies in the table area, in 256 B units (07, Table 7.7), by ASID, level and PVA prefix. -/
opaque tablePlace : Nat → Nat → Nat → Nat
/-- Training pattern that place 8,388,599 + i of every channel holds (05, R118). -/
opaque trainingPattern : Nat → BitVec 2048
/-- Where a record of a metadata structure lies in a logical stack's metadata stripes: its chunk, by kind of structure (0 thread-private memory) and number (05, R119; 01, Table 1.3 gives no order of the shares). -/
opaque metaChunk : Nat → Nat → Nat
/-- What training leaves in physical lane `lane` of a port, training number k of the run (10, R251, R266 cite IEEE 802.3dj for the settings). -/
opaque laneSettings : (k lane : Nat) → LaneSet
/-- Interval of per-bank refresh, 4 ns units, that JESD270-4 sets for at most 85 degrees (05, R129). -/
opaque refreshInterval : Nat
/-- Whether the stack asks for refresh management of bank b at time t, 4 ns units (05, R115; JESD270-4 says when). -/
opaque refreshManaged : (b t : Nat) → Bool
/-- Alert latency of JESD270-4 at rate code r (0, 1, 2), 4 ns units (05, R133). -/
opaque alertLatency : Nat → Nat
/-- Spare rows of one bank that JESD270-4 gives for soft repair, beyond the first (06, R159). -/
opaque moreSpareRows : Nat
/-- Spare rows of one bank: the standard gives some, since they can be used up (06, R159). DEDUCED, log entry 10. -/
def spareRows : Nat := moreSpareRows + 1
/-- The unit (12, Table 12.1) that holds SRAM macro m of region k, the hub's as region 4, as the region's repair map names it (12, Tables 12.1, 12.10). -/
opaque sramHolder : (k m : Nat) → Nat
/-- Whether a RESET_N pulse of 1 to 10 us number k resets the module (15, R378). -/
opaque shortResetTakes : Nat → Bool
/-- I3C provisioned ID, bus and device characteristics, status and speed bytes (15, R383 cites MIPI I3C Basic). -/
opaque i3cPid : BitVec 48
opaque i3cBcr : BitVec 8
opaque i3cDcr : BitVec 8
opaque i3cStatus : BitVec 16
opaque i3cMxds : BitVec 16
/-- The pin levels that JTAG SAMPLE and the test-pulse instructions capture, capture number k (15, R385 cites IEEE 1149.1 and 1149.6). -/
opaque boundaryPins : Nat → List Bool
/-- Fuse spare rows free in a bank from manufacture (13, R330; 12, Table 12.10 gives 16 spare rows per bank). -/
opaque fuseRowFails : Nat → Bool

/-- A read of flash in the boot chain meets an error, by free number (13, R332; log entry 8). -/
opaque flashReadFails : Nat → Bool

end Sys2Proof.Config
end

