-- ==== Sys2Proof/Machine/Bits.lean ====
section
/-! DEFINITION. Bytes, bit fields and tables: how records are laid out (00, R6) and how numbered things are looked up. -/

namespace Sys2Proof.Machine

/-! ### Tables by number -/

/-- The entry of a key, if there is one. -/
def tget? {α : Type} : Tab α → Nat → Option α
  | [], _ => none
  | (k, v) :: t, n => if k = n then some v else if n < k then none else tget? t n

/-- The entry of a key, or a default. -/
def tget {α : Type} (t : Tab α) (n : Nat) (d : α) : α := (tget? t n).getD d

/-- Insert or replace the entry of a key, keeping the keys rising. -/
def tset {α : Type} : Tab α → Nat → α → Tab α
  | [], n, v => [(n, v)]
  | (k, w) :: t, n, v => if k = n then (n, v) :: t else if n < k then (n, v) :: (k, w) :: t else (k, w) :: tset t n v

/-- Remove the entry of a key. -/
def tdel {α : Type} (t : Tab α) (n : Nat) : Tab α := t.filter (fun e => e.1 != n)

/-- Change the entry of a key, starting from a default. -/
def tmod {α : Type} (t : Tab α) (n : Nat) (d : α) (f : α → α) : Tab α := tset t n (f (tget t n d))

/-! ### Bit fields -/

/-- Bits [hi:lo] of a number. -/
def bits (n hi lo : Nat) : Nat := (n >>> lo) % 2 ^ (hi + 1 - lo)

/-- Bit i of a number. -/
def bit (n i : Nat) : Bool := n.testBit i

/-- 1 for true. -/
def b2n (b : Bool) : Nat := if b then 1 else 0

/-- A record laid out from high bits to low, each field with its width. -/
def packBits : List (Nat × Nat) → Nat
  | [] => 0
  | (w, v) :: t => ((v % 2 ^ w) <<< (t.map Prod.fst).sum) ||| packBits t

/-- A number as n bytes, little-endian (00, R6). -/
def leBytes : Nat → Nat → List Byte
  | 0, _ => []
  | n + 1, v => BitVec.ofNat 8 v :: leBytes n (v >>> 8)

/-- Bytes as a number, little-endian. -/
def ofLe : List Byte → Nat
  | [] => 0
  | b :: t => b.toNat + 256 * ofLe t

/-- A number as n bytes, first byte the highest: the order of the cited standards (00, R6). -/
def beBytes (n v : Nat) : List Byte := (leBytes n v).reverse

/-- Bytes as a number, first byte the highest. -/
def ofBe (l : List Byte) : Nat := ofLe l.reverse

/-- The 256 bytes of a line. -/
def lineBytes (l : Line) : List Byte := leBytes 256 l.toNat

/-- A line from its bytes; bytes not given are zero. -/
def bytesLine (l : List Byte) : Line := BitVec.ofNat 2048 (ofLe (l.take 256))

/-- n bytes of a list from a place on, zero where it ends. -/
def slice (l : List Byte) (start n : Nat) : List Byte :=
  let t := (l.drop start).take n
  t ++ List.replicate (n - t.length) 0

/-- The bytes of words [first, first + count) of a line, the others zero (03, R59). -/
def maskWords (l : Line) (first count : Nat) : Line :=
  (l >>> (64 * first) <<< (2048 - 64 * count)) >>> (2048 - 64 * count) <<< (64 * first)

/-- A line with words [first, first + count) taken from another. -/
def mergeWords (old new : Line) (first count : Nat) : Line :=
  old ^^^ maskWords (old ^^^ new) first count

/-- Word w of a line. -/
def lineWord (l : Line) (w : Nat) : Word := l.extractLsb' (64 * w) 64

/-- A line with one word replaced. -/
def setLineWord (l : Line) (w : Nat) (v : Word) : Line :=
  mergeWords l (v.zeroExtend 2048 <<< (64 * w)) w 1

/-- A line with bytes from a place on replaced. -/
def putBytes (l : Line) (start : Nat) (bs : List Byte) : Line :=
  let all := lineBytes l
  bytesLine (all.take start ++ bs ++ all.drop (start + bs.length))

/-- A counter of w bits that saturates (00, Table 11.13: counters saturate). -/
def satInc (w n : Nat) : Nat := if n + 1 < 2 ^ w then n + 1 else 2 ^ w - 1

/-- A sum that saturates at w bits. -/
def satAdd (w n k : Nat) : Nat := min (n + k) (2 ^ w - 1)

/-- A list with position i replaced, where it exists. -/
def lset {α : Type} (l : List α) (i : Nat) (v : α) : List α := l.set i v

/-- First requester that counting upward from the pointer finds, wrapping (04, R92). -/
def rotate (n ptr : Nat) (eligible : Nat → Bool) : Option Nat :=
  ((List.range n).map (fun i => (ptr + i) % n)).find? eligible

/-- Insert into an ordered list, before the first entry it does not come after. -/
def insertBy {α : Type} (le : α → α → Bool) (x : α) : List α → List α
  | [] => [x]
  | y :: t => if le x y then x :: y :: t else y :: insertBy le x t

/-- A list in order. -/
def sortBy {α : Type} (le : α → α → Bool) (l : List α) : List α := l.foldr (insertBy le) []

/-- Round up to a multiple. -/
def ceilDiv (a b : Nat) : Nat := (a + b - 1) / b

/-- The time, in 4 ns units, of some microseconds. -/
def us (n : Nat) : Nat := n * 250

/-- The time, in 4 ns units, of some milliseconds. -/
def ms (n : Nat) : Nat := n * 250000

end Sys2Proof.Machine
end

