-- ==== Sys2Proof/Machine/Operands.lean ====
section
/-! DEFINITION. Operands of engine instructions (08): register fields, element formats (Tables 8.9, 8.10), exact numbers, the one rounding of R217 and R220, MX blocks (R221, R222) and the special functions (R218). -/

namespace Sys2Proof.Machine

/-! ### Exact numbers -/

/-- An exact value: NaN, an infinity, or (−1)^neg × m × 2^e, the sign of zero kept. -/
inductive Num where
  | nan
  | inf (neg : Bool)
  | fin (neg : Bool) (m : Nat) (e : Int)
deriving DecidableEq, Repr

/-- m × 2^e rounded to a multiple of 2^q: the multiple, and whether non-zero bits were discarded; to nearest even, or toward zero. -/
def roundTo (m : Nat) (e q : Int) (rtz : Bool) : Nat × Bool :=
  if q ≤ e then (m <<< (e - q).toNat, false)
  else
    let d := (q - e).toNat
    let t := m >>> d
    let r := m - (t <<< d)
    let up := !rtz && (decide (2 ^ d < 2 * r) || (decide (2 * r = 2 ^ d) && t % 2 == 1))
    (if up then t + 1 else t, r != 0)

/-- Exponent of the highest set bit of m × 2^e. -/
def topExp (m : Nat) (e : Int) : Int := (Nat.log2 m : Int) + e

/-- The signed value of a finite number times 2^(-e0), for e0 at or below its exponent. -/
def scaledInt (neg : Bool) (m : Nat) (e e0 : Int) : Int :=
  let v : Int := (m <<< (e - e0).toNat : Nat)
  if neg then -v else v

/-- Exact sum of a list of numbers; a zero sum is +0 unless every term is −0; invalid where infinities of both signs meet. -/
def Num.sum (l : List Num) : Num :=
  if l.any (fun x => match x with | .nan => true | _ => false) then .nan
  else if l.contains (.inf false) && l.contains (.inf true) then .nan
  else if l.contains (.inf false) then .inf false
  else if l.contains (.inf true) then .inf true
  else
    let e0 := l.foldl (fun a x => match x with | .fin _ _ e => min a e | _ => a) (0 : Int)
    let t := l.foldl (fun a x => match x with | .fin n m e => a + scaledInt n m e e0 | _ => a) (0 : Int)
    if t = 0 then .fin (!l.isEmpty && l.all (fun x => match x with | .fin n m _ => n && m == 0 | _ => false)) 0 0
    else .fin (decide (t < 0)) t.natAbs e0

/-- Exact product; zero times infinity is NaN. -/
def Num.mul (x y : Num) : Num :=
  match x, y with
  | .nan, _ => .nan
  | _, .nan => .nan
  | .inf a, .inf b => .inf (a != b)
  | .inf a, .fin b m _ => if m = 0 then .nan else .inf (a != b)
  | .fin a m _, .inf b => if m = 0 then .nan else .inf (a != b)
  | .fin a m e, .fin b n f => .fin (a != b) (m * n) (e + f)

/-- The value with its sign changed. -/
def Num.neg (x : Num) : Num :=
  match x with
  | .nan => .nan
  | .inf a => .inf (!a)
  | .fin a m e => .fin (!a) m e

/-- The value times 2^k. -/
def Num.shift (x : Num) (k : Int) : Num :=
  match x with
  | .fin a m e => .fin a m (e + k)
  | y => y

/-- −1, 0 or 1 as x is below, equal to or above y; NaN compares as nothing. -/
def Num.cmp (x y : Num) : Option Int :=
  match x, y with
  | .nan, _ => none
  | _, .nan => none
  | .inf a, .inf b => some (if a = b then 0 else if a then -1 else 1)
  | .inf a, _ => some (if a then -1 else 1)
  | _, .inf b => some (if b then 1 else -1)
  | .fin a m e, .fin b n f =>
    let e0 := min e f
    let d := scaledInt a m e e0 - scaledInt b n f e0
    some (if d < 0 then -1 else if d = 0 then 0 else 1)

/-- The value is a zero with the sign given. -/
def Num.isZero (x : Num) (neg : Bool) : Bool :=
  match x with
  | .fin a 0 _ => a == neg
  | _ => false

/-- The lesser or greater of two numbers; the non-NaN operand where one is NaN (08, R217). −0 counts as below +0 (log entry 17). -/
def Num.pick (least : Bool) (x y : Num) : Num :=
  match x, y with
  | .nan, v => v
  | v, .nan => v
  | x, y =>
    match x.cmp y with
    | some 0 => if x.isZero true || x.isZero false then (if least then (if x.isZero true then x else y) else (if x.isZero false then x else y)) else x
    | some c => if decide (c < 0) == least then x else y
    | none => .nan

/-! ### Element formats (08, Tables 8.9 and 8.10) -/

/-- What a format is. -/
structure Fmt where
  width : Nat
  int : Bool := false
  mbits : Nat := 0
  bias : Int := 0
  /-- code of the largest finite magnitude -/
  top : Nat := 0
  /-- code of +infinity -/
  inf : Option Nat := none
  /-- the canonical NaN (R217, R220) -/
  nan : Option Nat := none
  /-- what an overflow converts to where neither RTZ nor SAT is set -/
  beyond : Nat := 0

def fmtOf : Nat → Option Fmt
  | 0 => some { width := 8, mbits := 3, bias := 7, top := 0x7E, nan := some 0x7F, beyond := 0x7F }
  | 1 => some { width := 8, mbits := 2, bias := 15, top := 0x7B, inf := some 0x7C, nan := some 0x7E, beyond := 0x7C }
  | 2 => some { width := 6, mbits := 3, bias := 1, top := 0x1F, beyond := 0x1F }
  | 3 => some { width := 6, mbits := 2, bias := 3, top := 0x1F, beyond := 0x1F }
  | 4 => some { width := 4, mbits := 1, bias := 1, top := 0x7, beyond := 0x7 }
  | 5 => some { width := 4, int := true }
  | 6 => some { width := 8, int := true }
  | 7 => some { width := 16, mbits := 7, bias := 127, top := 0x7F7F, inf := some 0x7F80, nan := some 0x7FC0, beyond := 0x7F80 }
  | 8 => some { width := 32, mbits := 23, bias := 127, top := 0x7F7FFFFF, inf := some 0x7F800000, nan := some 0x7FC00000, beyond := 0x7F800000 }
  | 9 => some { width := 32, int := true }
  | _ => none

/-- Elements per vector of a format (08, Table 8.9). -/
def elemCount (f : Fmt) : Nat := if f.width = 4 then 128 else if f.width = 16 then 32 else if f.width = 32 then 16 else 64

/-- Parts of 16 elements. -/
def partCount (f : Fmt) : Nat := elemCount f / 16

/-- The value of an element's bits (08, R219). -/
def decodeElem (f : Fmt) (b : Nat) : Num :=
  if f.int then
    let v : Int := if b.testBit (f.width - 1) then (b : Int) - (2 ^ f.width : Nat) else (b : Int)
    .fin (decide (v < 0)) v.natAbs 0
  else
    let neg := b.testBit (f.width - 1)
    let a := b % 2 ^ (f.width - 1)
    if some a = f.inf then .inf neg
    else if (match f.inf with | some i => decide (i < a) | none => some a == f.nan) then .nan
    else
      let x := a >>> f.mbits
      let m := a % 2 ^ f.mbits
      if x = 0 then .fin neg m (1 - f.bias - f.mbits) else .fin neg (m + 2 ^ f.mbits) ((x : Int) - f.bias - f.mbits)

/-- The bits of an integer format, saturated (08, R220). -/
def encodeInt (f : Fmt) (x : Num) (rtz : Bool) : Nat :=
  let hi : Int := (2 ^ (f.width - 1) : Nat) - 1
  let lo : Int := -((2 ^ (f.width - 1) : Nat) : Int)
  let v : Int := match x with
    | .nan => 0
    | .inf neg => if neg then lo else hi
    | .fin neg m e =>
      let r : Int := ((roundTo m e 0 rtz).1 : Nat)
      if neg then max lo (-r) else min hi r
  (BitVec.ofInt f.width v).toNat

/-- The bits of a float format, rounded once (08, R217, R220). -/
def encodeFloat (f : Fmt) (x : Num) (rtz sat : Bool) : Nat :=
  let sign := fun (neg : Bool) (a : Nat) => if neg then a + 2 ^ (f.width - 1) else a
  let beyond := fun (neg : Bool) =>
    if rtz || sat then sign neg f.top
    else if some f.beyond = f.nan && f.inf.isNone then f.beyond else sign neg f.beyond
  match x with
  | .nan => f.nan.getD 0
  | .inf neg => match f.inf with | some i => sign neg i | none => beyond neg
  | .fin neg m e =>
    if m = 0 then sign neg 0
    else
      let qmin : Int := 1 - f.bias - f.mbits
      let q := max (topExp m e - f.mbits) qmin
      let r := (roundTo m e q rtz).1
      let code := ((q - qmin).toNat <<< f.mbits) + r
      if f.top < code then beyond neg else sign neg code

/-- Conversion of a value into a format (08, R220). -/
def encodeElem (f : Fmt) (x : Num) (rtz sat : Bool) : Nat := if f.int then encodeInt f x rtz else encodeFloat f x rtz sat

/-- FP32 and BF16, the formats that the module's own algorithms use. -/
def fp32 : Fmt := { width := 32, mbits := 23, bias := 127, top := 0x7F7FFFFF, inf := some 0x7F800000, nan := some 0x7FC00000, beyond := 0x7F800000 }
def bf16 : Fmt := { width := 16, mbits := 7, bias := 127, top := 0x7F7F, inf := some 0x7F80, nan := some 0x7FC0, beyond := 0x7F80 }
def e4m3 : Fmt := { width := 8, mbits := 3, bias := 7, top := 0x7E, nan := some 0x7F, beyond := 0x7F }

/-! ### Vectors -/

/-- Element i of a vector (08, R216). -/
def elem (v : VReg) (w i : Nat) : Nat := (v >>> (w * i)).toNat % 2 ^ w

/-- A vector with element i replaced. -/
def setElem (v : VReg) (w i b : Nat) : VReg :=
  let m : VReg := BitVec.ofNat 512 (2 ^ w - 1) <<< (w * i)
  (v &&& ~~~m) ||| (BitVec.ofNat 512 (b % 2 ^ w) <<< (w * i))

/-- Replace the elements that a condition picks. -/
def mapElems (v : VReg) (w n : Nat) (pick : Nat → Bool) (f : Nat → Nat) : VReg :=
  (List.range n).foldl (fun v i => if pick i then setElem v w i (f i) else v) v

/-! ### Elementwise arithmetic (08, R216, R217) -/

/-- VOP on integers: modulo 2^w. -/
def intOp (op w a b : Nat) : Option Nat :=
  let x : Int := (BitVec.ofNat w a).toInt
  let y : Int := (BitVec.ofNat w b).toInt
  let ret := fun (v : Int) => some (BitVec.ofInt w v).toNat
  match op with
  | 0 => ret (x + y)
  | 1 => ret (x - y)
  | 2 => ret (x * y)
  | 3 => ret (min x y)
  | 4 => ret (max x y)
  | 5 => some (a &&& b)
  | 6 => some (a ||| b)
  | 7 => some (a ^^^ b)
  | 8 => ret (x.natAbs : Int)
  | 9 => ret (-x)
  | _ => none

/-- VOP on floats: exact, rounded once to nearest even, NaN canonical. -/
def floatOp (f : Fmt) (op a b : Nat) : Option Nat :=
  let x := decodeElem f a
  let y := decodeElem f b
  let ret := fun (v : Num) => some (encodeFloat f v false false)
  match op with
  | 0 => ret (Num.sum [x, y])
  | 1 => ret (Num.sum [x, y.neg])
  | 2 => ret (x.mul y)
  | 3 => ret (Num.pick true x y)
  | 4 => ret (Num.pick false x y)
  | 8 => ret (match x with | .fin _ m e => .fin false m e | .inf _ => .inf false | .nan => .nan)
  | 9 => ret x.neg
  | _ => none

/-- VCMP: 0 EQ, 1 NE, 2 LT, 3 LE, 4 GT, 5 GE; false on NaN but for NE. -/
def compareOp (cond : Nat) (c : Option Int) : Bool :=
  match c with
  | none => cond == 1
  | some v =>
    match cond with
    | 0 => decide (v = 0)
    | 1 => decide (v ≠ 0)
    | 2 => decide (v < 0)
    | 3 => decide (v ≤ 0)
    | 4 => decide (0 < v)
    | _ => decide (0 ≤ v)

/-! ### Special functions (08, R218) -/

/-- Integer square root, by bits: the largest r with r² ≤ n, found over k bits. -/
def isqrtAux : Nat → Nat → Nat → Nat
  | 0, _, r => r
  | k + 1, n, r => if (r + 2 ^ k) * (r + 2 ^ k) ≤ n then isqrtAux k n (r + 2 ^ k) else isqrtAux k n r

/-- The square root of m × 2^e to 100 bits and more, as a multiple of a power of two. -/
def sqrtNum (m : Nat) (e : Int) : Num :=
  let up : Nat := 260 - Nat.log2 m
  let k := if ((e - up) % 2 = 0) then up else up + 1
  .fin false (isqrtAux 140 (m <<< k) 0) ((e - k) / 2)

/-- The reciprocal of m × 2^e to 160 bits. -/
def rcpNum (neg : Bool) (m : Nat) (e : Int) : Num := .fin neg (2 ^ (160 + Nat.log2 m) / m) (-e - 160 - (Nat.log2 m : Int))

/-- The factors 2^(2^-1), 2^(2^-2), … in 128-bit fixed point. -/
def twoRoots : Nat → Nat → List Nat
  | 0, _ => []
  | n + 1, r => let r' := isqrtAux 130 (r <<< 128) 0; r' :: twoRoots n r'

/-- 2^f for a fraction f of 96 bits, in 128-bit fixed point. -/
def exp2Frac (f : Nat) : Nat :=
  ((List.range 96).zip (twoRoots 96 (2 ^ 129))).foldl (fun acc ir => if f.testBit (95 - ir.1) then (acc * ir.2) >>> 128 else acc) (2 ^ 128)

/-- 2^x for a finite x of magnitude below 2^12; an x other than zero stays on its side of zero. -/
def exp2Num (neg : Bool) (m : Nat) (e : Int) : Num :=
  let u := (roundTo m e (-96) true).1
  let v : Int := ((if u = 0 ∧ m ≠ 0 then 1 else u : Nat) : Int)
  let v := if neg then -v else v
  let i := v / (2 ^ 96 : Nat)
  let f := (v % (2 ^ 96 : Nat)).toNat
  .fin false (exp2Frac f) (i - 128)

/-- Bits of log2 of y/2^127, y in [2^127, 2^128), by squaring. -/
def log2Bits : Nat → Nat → Nat → Nat
  | 0, _, acc => acc
  | n + 1, y, acc =>
    let z := (y * y) >>> 127
    if 2 ^ 128 ≤ z then log2Bits n (z >>> 1) (2 * acc + 1) else log2Bits n z (2 * acc)

/-- log2 of m × 2^e, to 90 bits after the point. -/
def log2Num (m : Nat) (e : Int) : Num :=
  let y := if Nat.log2 m ≤ 127 then m <<< (127 - Nat.log2 m) else m >>> (Nat.log2 m - 127)
  let v : Int := topExp m e * (2 ^ 90 : Nat) + (log2Bits 90 y 0 : Nat)
  .fin (decide (v < 0)) v.natAbs (-90)

/-- The value a special function approximates, or none where the spec states no result (RSQRT of −0, log entry 8). -/
def sfuValue (op : Nat) (x : Num) : Option Num :=
  match op, x with
  | _, .nan => some .nan
  | 0, .inf neg => some (if neg then .fin false 0 0 else .inf false)
  | 0, .fin neg m e => if 12 < topExp (max m 1) e then some (if neg then .fin false 1 (-5000) else .fin false 1 5000) else some (exp2Num neg m e)
  | 1, .inf neg => some (if neg then .nan else .inf false)
  | 1, .fin neg m e => some (if m = 0 then .inf true else if neg then .nan else log2Num m e)
  | 2, .inf neg => some (.fin neg 0 0)
  | 2, .fin neg m e => some (if m = 0 then .inf neg else rcpNum neg m e)
  | 3, .inf neg => some (if neg then .nan else .fin false 0 0)
  | 3, .fin neg m e =>
    if m = 0 then (if neg then none else some (.inf false))
    else if neg then some .nan
    else match sqrtNum m e with | .fin _ r q => some (rcpNum false r q) | v => some v
  | 4, .inf neg => some (if neg then .nan else .inf false)
  | 4, .fin neg m e => some (if m = 0 then .fin neg 0 0 else if neg then .nan else sqrtNum m e)
  | _, _ => none

/-- Distance of two finite numbers is at most two units in the last place of the second's nearest FP32. -/
def withinTwoUlp (x exact : Num) : Bool :=
  match x, exact with
  | .fin _ _ _, .fin _ m e =>
    let q : Int := if m = 0 then -149 else max (topExp m e - 23) (-149)
    match Num.sum [x, exact.neg] with
    | .fin _ d f => (Num.cmp (.fin false d f) (.fin false 2 q)).getD 1 != 1
    | _ => false
  | _, _ => false

/-- The FP32 value some units in the last place away from a code, by magnitude. -/
def stepUlp (code : Nat) (k : Int) : Nat :=
  let a : Int := (code % 2 ^ 31 : Nat)
  let b := max 0 (min 0x7F7FFFFF (a + k))
  b.toNat + code / 2 ^ 31 * 2 ^ 31

/-- VSFU of one element: within 2 units in the last place of the exact value, how far within being open; the special results exact (08, R218). -/
def sfu (op : Nat) (x : BitVec 32) (no : Nat) : Nat :=
  match sfuValue op (decodeElem fp32 x.toNat) with
  | none => (Config.freeBits 32 no).toNat
  | some v =>
    let near := encodeFloat fp32 v false false
    match v with
    | .fin _ (_ + 1) _ =>
      let k : Int := (Config.sfuSlip no x % 5 : Nat) - 2
      let c := stepUlp near k
      if decide (near % 2 ^ 31 < 0x7F800000) && withinTwoUlp (decodeElem fp32 c) v then c else near
    | _ => near

/-! ### MX blocks (08, R221, R222) -/

/-- The factor of an E8M0 scale. -/
def scaleValue (x : Nat) : Num := if x % 256 = 255 then .nan else .fin false 1 ((x % 256 : Nat) - 127)

/-- Element format code of an MX code (08, Table 8.11), and emax of R222. -/
def mxFormat : Nat → Option (Nat × Int)
  | 0 => some (0, 8)
  | 1 => some (1, 15)
  | 2 => some (2, 2)
  | 3 => some (3, 4)
  | 4 => some (4, 2)
  | _ => none

/-- Blocks of an MX code in a vector. -/
def mxBlocks (code : Nat) : Nat := if code = 4 then 4 else 2

/-- Scale exponent X of a list of values, or none where one is NaN or infinite (08, R222). -/
def mxExponent (emax : Int) (l : List Num) : Option Int :=
  l.foldl (fun acc x =>
    match acc, x with
    | some a, .fin _ m e => some (if m = 0 then a else max a (max (-127) (min 127 (topExp m e - emax))))
    | _, _ => none) (some (-127))

/-- The MX quantization of values: elements and scale byte (08, R222). -/
def mxQuantize (f : Fmt) (emax : Int) (l : List Num) : List Nat × Nat :=
  match mxExponent emax l with
  | none => (l.map (fun _ => 0), 0xFF)
  | some x => (l.map (fun v => encodeFloat f (v.shift (-x)) false true), (x + 127).toNat)

/-- An element of an MX block as FP32, saturated to the largest finite value (08, R222). -/
def mxExpand (f : Fmt) (b scale : Nat) : Nat :=
  if scale % 256 = 255 then 0x7FC00000
  else match decodeElem f b with
    | .nan => 0x7FC00000
    | .inf neg => encodeFloat fp32 (.inf neg) false true
    | v => encodeFloat fp32 (v.mul (scaleValue scale)) false true

end Sys2Proof.Machine
end

