-- ==== Sys2Proof/Machine/Flags.lean ====
section
/-! DEFINITION. The W48 accumulator format and its flags NV, OF, NX, UF (08, R223, R224), the dot unit (R225), the accumulator operations (R226) and how a value leaves an accumulator (R227). -/

namespace Sys2Proof.Machine

/-! ### W48 containers (08, Table 8.12, R223) -/

/-- The value of a container; a malformed one is NaN. -/
def w48Value (c : Word) : Num :=
  let n := c.toNat
  let neg := bit n 63
  let ex := bits n 62 52
  let m := bits n 51 4
  if ex = 0 ∧ m = 0 then .fin neg 0 0
  else if 1 ≤ ex ∧ ex ≤ 0x7FE ∧ bit m 47 then .fin neg m ((ex : Int) - 1070)
  else if ex = 0x7FF ∧ m = 0x800000000000 then .inf neg
  else .nan

/-- The flags of a container: NV 8, OF 4, NX 2, UF 1. -/
def w48Flags (c : Word) : Nat := bits c.toNat 3 0

/-- A container from its fields. -/
def w48Pack (neg : Bool) (ex m flags : Nat) : Word := BitVec.ofNat 64 (packBits [(1, b2n neg), (11, ex), (48, m), (4, flags)])

/-- One rounding to 48 significand bits and the flags it raises; NaN raises NV (08, R224). -/
def round48 (x : Num) : Word :=
  match x with
  | .nan => w48Pack false 0x7FF 0xC00000000000 8
  | .inf neg => w48Pack neg 0x7FF 0x800000000000 0
  | .fin neg m e =>
    if m = 0 then w48Pack neg 0 0 0
    else
      let r := roundTo m e (topExp m e - 47) false
      let q := topExp m e - 47
      let carry := r.1 = 2 ^ 48
      let s := if carry then 2 ^ 47 else r.1
      let q := if carry then q + 1 else q
      let nx := if r.2 then 2 else 0
      let ex := q + 1070
      if 0x7FE < ex then w48Pack neg 0x7FF 0x800000000000 (4 + nx)
      else if ex < 1 then w48Pack neg 0 0 (1 + nx)
      else w48Pack neg ex.toNat s nx

/-- A container with more flags set. -/
def addFlags (c : Word) (flags : Nat) : Word := c ||| BitVec.ofNat 64 (flags % 16)

/-- A rounded result written to a lane: the lane's own flags and those read stay set (08, R224). -/
def w48Write (x : Num) (flags : Nat) : Word := addFlags (round48 x) flags

/-- The greater of two lanes: NaN if either is, +0 above −0 (08, Table 8.15). -/
def numMax (x y : Num) : Num :=
  match x, y with
  | .nan, _ => .nan
  | _, .nan => .nan
  | x, y => Num.pick false x y

/-- Sum by pairs in 4 levels, each rounded; the flags gather (08, AREDSUM). Neighbours pair first (log entry 17). -/
def pairSum : Nat → List Word → Word
  | 0, l => l.headD 0
  | n + 1, l =>
    pairSum n ((List.range (l.length / 2)).map (fun i =>
      let a := l.getD (2 * i) 0
      let b := l.getD (2 * i + 1) 0
      w48Write (Num.sum [w48Value a, w48Value b]) (w48Flags a ||| w48Flags b)))

/-! ### The dot unit (08, Table 8.13, R225) -/

/-- A dot format: products per lane, formats of the two sources, MX or not. -/
structure DotFmt where
  k : Nat
  x : Nat
  y : Nat
  mx : Bool := false

def dotFmt : Nat → Option DotFmt
  | 0x0 => some { k := 4, x := 0, y := 0 }
  | 0x1 => some { k := 4, x := 1, y := 1 }
  | 0x2 => some { k := 4, x := 0, y := 1 }
  | 0x3 => some { k := 4, x := 1, y := 0 }
  | 0x4 => some { k := 4, x := 0, y := 0, mx := true }
  | 0x5 => some { k := 4, x := 1, y := 1, mx := true }
  | 0x6 => some { k := 4, x := 2, y := 2, mx := true }
  | 0x7 => some { k := 4, x := 3, y := 3, mx := true }
  | 0x8 => some { k := 8, x := 4, y := 4, mx := true }
  | 0x9 => some { k := 4, x := 6, y := 6 }
  | 0xA => some { k := 8, x := 5, y := 5 }
  | 0xB => some { k := 2, x := 7, y := 7 }
  | 0xC => some { k := 1, x := 8, y := 8 }
  | _ => none

/-- Element i of a source as a value, scaled for MX: the scales of the first source in bytes 0 to 3, of the second in bytes 4 to 7 (08, R221). -/
def dotElem (d : DotFmt) (fmt : Nat) (v : VReg) (scales : Word) (second : Bool) (i : Nat) : Num :=
  match fmtOf fmt with
  | none => .nan
  | some f =>
    let x := decodeElem f (elem v f.width i)
    if d.mx then x.mul (scaleValue (bits scales.toNat (8 * (i / 32 + 4 * b2n second) + 7) (8 * (i / 32 + 4 * b2n second)))) else x

/-- A zero of an integer format has no sign: a product of integers is +0 where it is zero (08, R224, R225). -/
def intProduct (fmt : Nat) (x : Num) : Num :=
  match fmtOf fmt, x with
  | some f, .fin neg 0 e => .fin (neg && !f.int) 0 e
  | _, x => x

/-- One lane of VDOT or, with a segment, VDOTB. -/
def dotLane (d : DotFmt) (x y : VReg) (scales : Word) (acc : Word) (l : Nat) (segment : Option Nat) : Word :=
  let prods := (List.range d.k).map (fun i =>
    intProduct d.x ((dotElem d d.x x scales false (d.k * l + i)).mul (dotElem d d.y y scales true (d.k * segment.getD l + i))))
  w48Write (Num.sum (w48Value acc :: prods)) (w48Flags acc)

/-! ### Accumulators -/

/-- Lane l of an accumulator. -/
def lane (a : List Word) (l : Nat) : Word := a.getD l 0

/-- Replace the lanes a predicate picks. -/
def mapLanes (a : List Word) (p : Word) (f : Nat → Word) : List Word :=
  (List.range 16).map (fun l => if p.getLsbD l then f l else lane a l)

/-- AOP (08, Table 8.15): the accumulator after, from ad, ab, va and the predicate; nothing where the operation or format is not allowed. -/
def accOp (op : Nat) (ad ab : List Word) (va : VReg) (fmt : Nat) (p : Word) : Option (List Word) :=
  let el := fun (l : Nat) => match fmtOf fmt with | some f => decodeElem f (elem va f.width l) | none => .nan
  let own := fun (l : Nat) => w48Flags (lane ad l)
  let both := fun (l : Nat) (a : Word) => w48Flags (lane ad l) ||| w48Flags a
  match op with
  | 0x0 => some (mapLanes ad p (fun _ => 0))
  | 0x1 => if fmt = 8 ∨ fmt = 9 then some (mapLanes ad p (fun l => w48Write (Num.sum [w48Value (lane ad l), el l]) (own l))) else none
  | 0x2 => if fmt = 8 then some (mapLanes ad p (fun l => w48Write ((w48Value (lane ad l)).mul (el l)) (own l))) else none
  | 0x3 => if fmt = 8 ∨ fmt = 9 then some (mapLanes ad p (fun l => w48Write (numMax (w48Value (lane ad l)) (el l)) (own l))) else none
  | 0x4 => some (mapLanes ad p (fun l => addFlags (lane ab l) (own l)))
  | 0x5 => some (mapLanes ad p (fun l => w48Write (Num.sum [w48Value (lane ad l), w48Value (lane ab l)]) (both l (lane ab l))))
  | 0x6 =>
    let r := pairSum 4 ((List.range 16).map (fun l => if p.getLsbD l then lane ab l else 0))
    some (ad.set 0 (addFlags r (own 0)))
  | 0x7 =>
    let part := (List.range 16).filter (fun l => p.getLsbD l)
    let r := part.foldl (fun x l => numMax x (w48Value (lane ab l))) (.inf true)
    let fl := part.foldl (fun n l => n ||| w48Flags (lane ab l)) 0
    some (ad.set 0 (w48Write r (fl ||| own 0)))
  | 0x8 => some (mapLanes ad p (fun l => addFlags (lane ab 0) (own l)))
  | _ => none

/-- AREAD's value of a lane in a format: times 2^k, one rounding (08, R227). -/
def readLane (f : Fmt) (c : Word) (k : Int) (rtz sat : Bool) : Nat := encodeElem f ((w48Value c).shift k) rtz sat

/-- The bits an accumulator move of lane values stores (08, R228): the containers unaltered. -/
def laneSet (a : List Word) (l : Nat) (c : Word) : List Word := a.set l c

end Sys2Proof.Machine
end

