-- ==== Sys2Proof/Machine/Crypto.lean ====
section
/-! DEFINITION. The cryptography and check codes the spec names by their standards: SHA-384 (FIPS 180-4), HMAC and HKDF (RFC 2104, RFC 5869), AES-256 with GCM (SP 800-38D) and key wrap (SP 800-38F), ECDSA and ECDH on brainpoolP384r1 (RFC 5639), the frame check sequence of IEEE 802.3, and the RS(64,62) code of Darinlink (11, R299).
The algorithms are PRESUMED from those standards (log entry 11). -/

namespace Sys2Proof.Machine

/-! ### SHA-384 -/

/-- A number with no divisor but 1 and itself. -/
def isPrime (n : Nat) : Bool := decide (2 ≤ n) && (List.range 20).all (fun d => decide (d < 2) || n % d != 0 || n == d)

/-- The primes below 410, of which there are 80; none has a least divisor above 19. -/
def smallPrimes : List Nat := (List.range 410).filter isPrime

/-- The greatest x below 2^n whose k-th power is at most m, found from the highest bit down. -/
def rootBelow (k m : Nat) : Nat → Nat → Nat
  | 0, x => x
  | n + 1, x => rootBelow k m n (if (x + 2 ^ n) ^ k ≤ m then x + 2 ^ n else x)

/-- The first 64 bits of the fractional part of the k-th root of p: FIPS 180-4 defines the constants of SHA-384 so. -/
def rootBits (k p : Nat) : Nat := rootBelow k (p * 2 ^ (64 * k)) 70 0 % 2 ^ 64

/-- The round constants: cube roots of the first 80 primes. -/
def shaK : List Nat := smallPrimes.map (rootBits 3)

/-- The initial hash value of SHA-384: square roots of the ninth to the sixteenth prime. -/
def shaH0 : List Nat := ((smallPrimes.drop 8).take 8).map (rootBits 2)

/-- A 64-bit number turned right. -/
def rotr64 (x n : Nat) : Nat := (x >>> n ||| x <<< (64 - n)) % 2 ^ 64

/-- The message schedule, latest word first: extended by n words. -/
def shaSchedule : Nat → List Nat → List Nat
  | 0, w => w
  | n + 1, w =>
    let a := w.getD 1 0
    let b := w.getD 14 0
    let s1 := rotr64 a 19 ^^^ rotr64 a 61 ^^^ (a >>> 6)
    let s0 := rotr64 b 1 ^^^ rotr64 b 8 ^^^ (b >>> 7)
    shaSchedule n ((s1 + w.getD 6 0 + s0 + w.getD 15 0) % 2 ^ 64 :: w)

/-- One round. -/
def shaRound (st : List Nat) (kw : Nat) : List Nat :=
  match st with
  | [a, b, c, d, e, f, g, h] =>
    let s1 := rotr64 e 14 ^^^ rotr64 e 18 ^^^ rotr64 e 41
    let ch := (e &&& f) ^^^ ((2 ^ 64 - 1 - e) &&& g)
    let t1 := h + s1 + ch + kw
    let s0 := rotr64 a 28 ^^^ rotr64 a 34 ^^^ rotr64 a 39
    let maj := (a &&& b) ^^^ (a &&& c) ^^^ (b &&& c)
    [(t1 + s0 + maj) % 2 ^ 64, a, b, c, (d + t1) % 2 ^ 64, e, f, g]
  | other => other

/-- One 128-byte block. -/
def shaBlock (h : List Nat) (block : List Byte) : List Nat :=
  let w0 := (List.range 16).map (fun i => ofBe (slice block (8 * i) 8))
  let w := (shaSchedule 64 w0.reverse).reverse
  let out := ((shaK.zip w).map (fun p => p.1 + p.2)).foldl shaRound h
  List.zipWith (fun a b => (a + b) % 2 ^ 64) h out

/-- The blocks of a padded message. -/
def shaBlocks : Nat → List Byte → List Nat → List Nat
  | 0, _, h => h
  | n + 1, m, h => shaBlocks n (m.drop 128) (shaBlock h (m.take 128))

/-- SHA-384 of a byte string. -/
def sha384 (m : List Byte) : Digest :=
  let pad := (111 + 128 - m.length % 128) % 128
  let p := m ++ [0x80] ++ List.replicate pad 0 ++ beBytes 16 (8 * m.length)
  let h := shaBlocks (p.length / 128) p shaH0
  BitVec.ofNat 384 ((h.take 6).foldl (fun acc x => acc * 2 ^ 64 + x) 0)

/-- A digest as bytes, in its standard's order. -/
def digestBytes (d : Digest) : List Byte := beBytes 48 d.toNat

/-- HMAC-SHA-384. -/
def hmac (key msg : List Byte) : List Byte :=
  let k0 := if key.length > 128 then digestBytes (sha384 key) else key
  let k := k0 ++ List.replicate (128 - k0.length) 0
  let inner := sha384 (k.map (fun b => b ^^^ 0x36) ++ msg)
  digestBytes (sha384 (k.map (fun b => b ^^^ 0x5c) ++ digestBytes inner))

/-- HKDF expansion, block by block. -/
def hkdfExpand (prk info : List Byte) : Nat → Nat → List Byte → List Byte
  | 0, _, _ => []
  | n + 1, i, t =>
    let t' := hmac prk (t ++ info ++ [BitVec.ofNat 8 i])
    t' ++ hkdfExpand prk info n (i + 1) t'

/-- HKDF-SHA-384, RFC 5869. -/
def hkdf (salt ikm info : List Byte) (n : Nat) : List Byte :=
  (hkdfExpand (hmac salt ikm) info ((n + 47) / 48) 1 []).take n

/-- The bytes of a name. -/
def ascii (s : List Nat) : List Byte := s.map (BitVec.ofNat 8)

/-! ### AES-256 -/

/-- Doubling in the AES field. -/
def xtime (a : Nat) : Nat := if a &&& 0x80 = 0 then a <<< 1 else (a <<< 1 ^^^ 0x1b) &&& 0xff

/-- Product in the AES field. -/
def gmul : Nat → Nat → Nat → Nat
  | 0, _, _ => 0
  | n + 1, a, b => (if b % 2 = 1 then a else 0) ^^^ gmul n (xtime a) (b / 2)

/-- Inverse in the AES field, a to the 254th. -/
def ginv (a : Nat) : Nat :=
  let sq := fun x => gmul 8 x x
  let a2 := sq a
  let a3 := gmul 8 a2 a
  let a6 := sq a3
  let a7 := gmul 8 a6 a
  let a14 := sq a7
  let a15 := gmul 8 a14 a
  let a30 := sq a15
  let a31 := gmul 8 a30 a
  let a62 := sq a31
  let a63 := gmul 8 a62 a
  let a126 := sq a63
  let a127 := gmul 8 a126 a
  sq a127

/-- A byte turned left. -/
def rotl8 (x n : Nat) : Nat := (x <<< n ||| x >>> (8 - n)) &&& 0xff

/-- The AES S-box. -/
def sbox (a : Nat) : Nat :=
  let b := ginv a
  b ^^^ rotl8 b 1 ^^^ rotl8 b 2 ^^^ rotl8 b 3 ^^^ rotl8 b 4 ^^^ 0x63

/-- The inverse S-box. -/
def invSbox (a : Nat) : Nat := ginv (rotl8 a 1 ^^^ rotl8 a 3 ^^^ rotl8 a 6 ^^^ 0x05)

/-- Key schedule, latest word first. -/
def aesKeyWords : Nat → Nat → Nat → List (List Nat) → List (List Nat)
  | 0, _, _, w => w
  | n + 1, i, rc, w =>
    let t := w.getD 0 []
    let u := if i % 8 = 0 then ((t.drop 1 ++ t.take 1).map sbox).mapIdx (fun j x => if j = 0 then x ^^^ rc else x)
             else if i % 8 = 4 then t.map sbox else t
    aesKeyWords n (i + 1) (if i % 8 = 0 then xtime rc else rc) (List.zipWith (· ^^^ ·) (w.getD 7 []) u :: w)

/-- The 15 round keys of AES-256. -/
def aesRoundKeys (key : Key) : List (List Nat) :=
  let kb := (beBytes 32 key.toNat).map BitVec.toNat
  let w0 := (List.range 8).map (fun i => (kb.drop (4 * i)).take 4)
  let w := (aesKeyWords 52 8 1 w0.reverse).reverse
  (List.range 15).map (fun r => ((w.drop (4 * r)).take 4).flatten)

/-- Byte i of a state takes its row's shifted byte. -/
def shiftRows (s : List Nat) : List Nat := (List.range 16).map (fun i => s.getD ((i + 4 * (i % 4)) % 16) 0)

/-- Inverse of the row shift. -/
def invShiftRows (s : List Nat) : List Nat := (List.range 16).map (fun i => s.getD ((i + 16 - 4 * (i % 4)) % 16) 0)

/-- Mix one state by four coefficients. -/
def mixWith (c : List Nat) (s : List Nat) : List Nat :=
  (List.range 16).map (fun i =>
    (List.range 4).foldl (fun acc j => acc ^^^ gmul 8 (s.getD (4 * (i / 4) + j) 0) (c.getD ((j + 4 - i % 4) % 4) 0)) 0)

/-- One encryption of a 16-byte block. -/
def aesEncrypt (keys : List (List Nat)) (block : List Nat) : List Nat :=
  let add := List.zipWith (fun (a b : Nat) => a ^^^ b)
  let st := add block (keys.getD 0 [])
  let st := ((keys.drop 1).take 13).foldl (fun s k => add (mixWith [2, 3, 1, 1] (shiftRows (s.map sbox))) k) st
  add (shiftRows (st.map sbox)) (keys.getD 14 [])

/-- One decryption of a 16-byte block. -/
def aesDecrypt (keys : List (List Nat)) (block : List Nat) : List Nat :=
  let add := List.zipWith (fun (a b : Nat) => a ^^^ b)
  let st := (invShiftRows (add block (keys.getD 14 []))).map invSbox
  let st := (((keys.drop 1).take 13).reverse).foldl
    (fun s k => (invShiftRows (mixWith [14, 11, 13, 9] (add s k))).map invSbox) st
  add st (keys.getD 0 [])

/-- One encryption of a 128-bit block, first byte highest. -/
def aesBlock (keys : List (List Nat)) (x : Nat) : Nat :=
  ofBe ((aesEncrypt keys ((beBytes 16 x).map BitVec.toNat)).map (BitVec.ofNat 8))

/-! ### GCM -/

/-- Product in the GHASH field: bits of x from the first on. -/
def ghashMul (x y : Nat) : Nat :=
  ((List.range 128).foldl (fun (zv : Nat × Nat) i =>
    (if x.testBit (127 - i) then zv.1 ^^^ zv.2 else zv.1,
     if zv.2 % 2 = 1 then (zv.2 >>> 1) ^^^ (0xe1 <<< 120) else zv.2 >>> 1)) (0, y)).1

/-- A byte string cut into 16-byte blocks, the last filled with zeros. -/
def gcmBlocks : Nat → List Byte → List Nat
  | 0, _ => []
  | n + 1, l => ofBe (slice l 0 16) :: gcmBlocks n (l.drop 16)

/-- Key stream block i of an IV: counter 1 is the tag's, data starts at 2. -/
def gcmStream (keys : List (List Nat)) (iv i : Nat) : Nat := aesBlock keys (iv * 2 ^ 32 + i)

/-- The tag, first 96 bits, over additional data and ciphertext. -/
def gcmTag (key : Key) (iv : Nat) (aad ct : List Byte) : BitVec 96 :=
  let keys := aesRoundKeys key
  let h := aesBlock keys 0
  let bs := gcmBlocks ((aad.length + 15) / 16) aad ++ gcmBlocks ((ct.length + 15) / 16) ct ++
    [aad.length * 8 * 2 ^ 64 + ct.length * 8]
  let s := bs.foldl (fun acc b => ghashMul (acc ^^^ b) h) 0
  BitVec.ofNat 96 ((s ^^^ gcmStream keys iv 1) >>> 32)

/-- Encrypt or decrypt a byte string. -/
def gcmCrypt (key : Key) (iv : Nat) (data : List Byte) : List Byte :=
  let keys := aesRoundKeys key
  let ks := ((List.range ((data.length + 15) / 16)).map (fun i => beBytes 16 (gcmStream keys iv (2 + i)))).flatten
  List.zipWith (· ^^^ ·) data ks

/-! ### AES key wrap -/

/-- The inverse steps of key wrap: A and the four registers, step t counting down. -/
def kwUnwrap (keys : List (List Nat)) : Nat → Nat → List Nat → Nat × List Nat
  | 0, a, r => (a, r)
  | t + 1, a, r =>
    let i := t % 4
    let x := (a ^^^ (t + 1)) * 2 ^ 64 + r.getD i 0
    let b := ofBe ((aesDecrypt keys ((beBytes 16 x).map BitVec.toNat)).map (BitVec.ofNat 8))
    kwUnwrap keys t (b / 2 ^ 64) (r.set i (b % 2 ^ 64))

/-- The key a wrapped key holds, if its integrity check passes (13, R337). The first byte of the 40 is the lowest parameter byte. -/
def unwrapKey (kek : Key) (wrapped : BitVec 320) : Option Key :=
  let bs := leBytes 40 wrapped.toNat
  let w := (List.range 5).map (fun i => ofBe (slice bs (8 * i) 8))
  let (a, r) := kwUnwrap (aesRoundKeys kek) 24 (w.getD 0 0) (w.drop 1)
  if a = 0xA6A6A6A6A6A6A6A6 then some (BitVec.ofNat 256 (r.foldl (fun acc x => acc * 2 ^ 64 + x) 0)) else none

/-! ### brainpoolP384r1 -/

/-- The field prime. -/
def ecP : Nat := 0x8CB91E82A3386D280F5D6F7E50E641DF152F7109ED5456B412B1DA197FB71123ACD3A729901D1A71874700133107EC53
def ecA : Nat := 0x7BC382C63D8C150C3C72080ACE05AFA0C2BEA28E4FB22787139165EFBA91F90F8AA5814A503AD4EB04A8C7DD22CE2826
def ecB : Nat := 0x04A8C7DD22CE28268B39B55416F0447C2FB77DE107DCD2A62E880EA53EEB62D57CB4390295DBC9943AB78696FA504C11
/-- The base point. -/
def ecG : Nat × Nat :=
  (0x1D1C64F068CF45FFA2A63A81B7C13F6B8847A3E77EF14FE3DB7FCAFE0CBD10E8E826E03436D646AAEF87B2E247D4AF1E,
   0x8ABE1D7520F9C2A45CB1EB8E95CFD55262B70B29FEEC5864E19C054FF99129280E4646217791811142820341263C5315)
/-- The order of the base point. -/
def ecN : Nat := 0x8CB91E82A3386D280F5D6F7E50E641DF152F7109ED5456B31F166E6CAC0425A7CF3AB6AF6B7FC3103B883202E9046565

/-- Power modulo m, by the bits of the exponent. -/
def powMod (m : Nat) : Nat → Nat → Nat → Nat
  | 0, _, _ => 1 % m
  | n + 1, b, e => let r := powMod m n (b * b % m) (e / 2); if e % 2 = 1 then r * b % m else r

/-- Inverse modulo a prime. -/
def invMod (m a : Nat) : Nat := powMod m 384 a (m - 2)

/-- Difference modulo m. -/
def subMod (m a b : Nat) : Nat := (a % m + m - b % m) % m

/-- Sum of two points; none is the point at infinity. -/
def ecAdd (p q : Option (Nat × Nat)) : Option (Nat × Nat) :=
  match p, q with
  | none, r => r
  | r, none => r
  | some (x1, y1), some (x2, y2) =>
    if x1 = x2 ∧ (y1 + y2) % ecP = 0 then none else
    let l := if x1 = x2 then (3 * x1 * x1 + ecA) * invMod ecP (2 * y1 % ecP) % ecP
             else subMod ecP y2 y1 * invMod ecP (subMod ecP x2 x1) % ecP
    let x := subMod ecP (l * l) (x1 + x2)
    some (x, subMod ecP (l * subMod ecP x1 x) y1)

/-- Multiple of a point. -/
def ecMulAux : Nat → Nat → Option (Nat × Nat) → Option (Nat × Nat)
  | 0, _, _ => none
  | n + 1, k, p => let r := ecMulAux n (k / 2) (ecAdd p p); if k % 2 = 1 then ecAdd p r else r

/-- Multiple of a point. -/
def ecMul (k : Nat) (p : Nat × Nat) : Option (Nat × Nat) := ecMulAux 384 k (some p)

/-- Whether a point lies on the curve. -/
def onCurve (p : Nat × Nat) : Bool :=
  decide (p.1 < ecP) && decide (p.2 < ecP) && (p.2 * p.2 % ecP == (p.1 * p.1 * p.1 + ecA * p.1 + ecB) % ecP)

/-- The 97 B uncompressed form of a point (13, R330). -/
def pointBytes (p : Nat × Nat) : List Byte := [0x04] ++ beBytes 48 p.1 ++ beBytes 48 p.2

/-- The point 97 bytes carry, if they carry one on the curve. -/
def bytesPoint (b : List Byte) : Option (Nat × Nat) :=
  if b.length = 97 ∧ b.getD 0 0 = 0x04 then
    let p := (ofBe (slice b 1 48), ofBe (slice b 49 48))
    if onCurve p then some p else none
  else none

/-- ECDSA signature r, s of a digest under a private key and nonce, 96 bytes. -/
def ecSign (d k : Nat) (h : Digest) : List Byte :=
  let k := k % (ecN - 1) + 1
  let r := ((ecMul k ecG).getD (0, 0)).1 % ecN
  let s := invMod ecN k * (h.toNat + r * d) % ecN
  beBytes 48 r ++ beBytes 48 s

/-- Whether an ECDSA signature verifies. -/
def ecVerify (q : Nat × Nat) (h : Digest) (sig : List Byte) : Bool :=
  let r := ofBe (slice sig 0 48)
  let s := ofBe (slice sig 48 48)
  if r = 0 ∨ s = 0 ∨ r ≥ ecN ∨ s ≥ ecN ∨ !onCurve q then false else
  let w := invMod ecN s
  match ecAdd (ecMul (h.toNat * w % ecN) ecG) (ecMul (r * w % ecN) q) with
  | none => false
  | some (x, _) => x % ecN == r

/-! ### Check codes -/

/-- One bit of the frame check sequence, in reflected order. -/
def crcBit (c : Nat) : Nat := if c % 2 = 1 then (c >>> 1) ^^^ 0xEDB88320 else c >>> 1

/-- One byte of the frame check sequence. -/
def crcByte (c : Nat) (b : Byte) : Nat :=
  crcBit (crcBit (crcBit (crcBit (crcBit (crcBit (crcBit (crcBit (c ^^^ b.toNat))))))))

/-- CRC-32 of IEEE 802.3 (10, R254). -/
def crc32 (l : List Byte) : Nat := l.foldl crcByte 0xFFFFFFFF ^^^ 0xFFFFFFFF

/-- Product in GF(256) with the polynomial of 11, R299. -/
def rsMul : Nat → Nat → Nat → Nat
  | 0, _, _ => 0
  | n + 1, a, b =>
    (if b % 2 = 1 then a else 0) ^^^ rsMul n (if a ≥ 128 then (a * 2) ^^^ 0x11D else a * 2) (b / 2)

/-- Power of the primitive element. -/
def rsPow : Nat → Nat
  | 0 => 1
  | n + 1 => rsMul 8 (rsPow n) 2

/-- The two syndromes of a codeword of 64 symbols, first symbol the highest power. -/
def rsSyndromes (w : List Nat) : Nat × Nat :=
  w.foldl (fun (s : Nat × Nat) c => (s.1 ^^^ c, rsMul 8 s.2 2 ^^^ c)) (0, 0)

/-- A codeword after correction of at most one byte; none where it does not decode (11, R299). -/
def rsDecode (w : List Nat) : Option (List Nat) :=
  let (s0, s1) := rsSyndromes w
  if s0 = 0 ∧ s1 = 0 then some w
  else if s0 = 0 then none
  else match (List.range 64).find? (fun e => rsMul 8 s0 (rsPow e) == s1) with
    | some e => some (w.mapIdx (fun i c => if i = 63 - e then c ^^^ s0 else c))
    | none => none

/-- The two check bytes of 62 data symbols. -/
def rsCheck (d : List Nat) : List Nat :=
  let (s0, s1) := rsSyndromes (d ++ [0, 0])
  match (List.range 256).find? (fun a => rsMul 8 a 2 ^^^ (a ^^^ s0) == s1) with
  | some a => [a, a ^^^ s0]
  | none => [0, 0]

end Sys2Proof.Machine
end

