-- ==== Sys2Proof/Machine/Codes.lean ====
section
/-! DEFINITION. The codes of the spec: opcodes (03, Table 3.2), statuses (03, Table 3.4; 07, Tables 7.4, 7.6; 09, Tables 9.3, 9.5; 11, Table 11.6; 12, Table 12.9; 13, Table 13.11; 14, Table 14.12; 15, Table 15.11), unit kinds and causes (12, Tables 12.1, 12.3; 15, Table 15.2). -/

namespace Sys2Proof.Machine

namespace Op
abbrev read := 0x01
abbrev write := 0x02
abbrev readNoalloc := 0x03
abbrev writeNoalloc := 0x04
abbrev readShared := 0x05
abbrev readOwn := 0x06
abbrev upgrade := 0x07
abbrev zeroLine := 0x08
abbrev atomicAdd := 0x10
abbrev atomicSwap := 0x11
abbrev atomicCas := 0x12
abbrev atomicAnd := 0x13
abbrev atomicOr := 0x14
abbrev atomicXor := 0x15
abbrev atomicSmax := 0x16
abbrev atomicSmin := 0x17
abbrev writeback := 0x18
abbrev evictClean := 0x19
abbrev sprayLaunch := 0x20
abbrev poolOpLaunch := 0x21
abbrev snoopShared := 0x28
abbrev snoopInvalidate := 0x29
abbrev snoopResp := 0x2C
abbrev snoopRespData := 0x2D
abbrev resp := 0x30
abbrev respData := 0x31
abbrev completion := 0x32
abbrev order := 0x38
abbrev orderReply := 0x39
abbrev statusRead := 0x3A
abbrev statusData := 0x3B
end Op

namespace Sts
abbrev success := 0x00
abbrev retry := 0x01
abbrev notReady := 0x02
abbrev moduleHalted := 0x03
abbrev misrouted := 0x08
abbrev addressInvalid := 0x09
abbrev tenantUnknown := 0x0A
abbrev notEncrypted := 0x0B
abbrev authFailed := 0x0C
abbrev keyRetired := 0x0D
abbrev noExtent := 0x10
abbrev extentRevoked := 0x11
abbrev tenantMismatch := 0x12
abbrev accessDenied := 0x13
abbrev notCoherent := 0x14
abbrev noSlot := 0x15
abbrev badField := 0x16
abbrev staleRole := 0x17
abbrev dataError := 0x20
abbrev dataLost := 0x21
abbrev descInvalid := 0x40
abbrev accordUnknown := 0x41
abbrev accordDenied := 0x42
abbrev asidUnknown := 0x43
abbrev asidDenied := 0x44
abbrev shapeInvalid := 0x45
abbrev statusArrayInvalid := 0x46
abbrev launchLimit := 0x47
abbrev opShapeInvalid := 0x60
abbrev operandOverlap := 0x61
abbrev commitSpace := 0x62
abbrev notMeasured := 0x63
abbrev extentUnavailable := 0x64
abbrev engineLost := 0x80
abbrev tileUnmapped := 0x81
abbrev rightsFault := 0x82
abbrev nonCanonical := 0x83
abbrev faultTimeout := 0x84
abbrev memAddressInvalid := 0x85
abbrev memNoExtent := 0x86
abbrev memExtentRevoked := 0x87
abbrev memTenantMismatch := 0x88
abbrev memAccessDenied := 0x89
abbrev memDataError := 0x8A
abbrev memDataLost := 0x8B
abbrev memKeyRetired := 0x8C
abbrev remoteError := 0x8D
abbrev remoteTimeout := 0x8E
abbrev illegalInstruction := 0x8F
abbrev scratchRange := 0x90
abbrev threadTrap := 0x91
abbrev watchdog := 0x92
abbrev cancelled := 0x93
abbrev moduleHalt := 0x94
abbrev destRemote := 0xA0
abbrev indexRange := 0xA1
abbrev notMaster := 0xC0
abbrev notOwner := 0xC1
abbrev orderUnknown := 0xC2
abbrev orderReplayed := 0xC3
abbrev orderBusy := 0xC4
abbrev notPermitted := 0xC5
abbrev ownerPresent := 0xC6
abbrev claimPending := 0xC7
abbrev electionLost := 0xC8
abbrev noHandover := 0xC9
abbrev handoverExpired := 0xCA
abbrev extentState := 0xCB
abbrev staleGeneration := 0xCC
abbrev overlap := 0xCD
abbrev physOverlap := 0xCE
abbrev placementUnavailable := 0xCF
abbrev coherentWindowFull := 0xD0
abbrev coherentChange := 0xD1
abbrev slotState := 0xD2
abbrev slotHeld := 0xD3
abbrev slotSweeping := 0xD4
abbrev nothingHeld := 0xD5
abbrev noSpare := 0xD6
abbrev evacuationActive := 0xD7
abbrev stackState := 0xD8
abbrev signatureInvalid := 0xD9
abbrev accordStoreFull := 0xDA
abbrev accordInUse := 0xDB
abbrev asidExists := 0xDC
abbrev asidInUse := 0xDD
abbrev tableSpaceFull := 0xDE
abbrev mapped := 0xDF
abbrev ringInvalid := 0xE0
abbrev ringBusy := 0xE1
abbrev noSuchBatch := 0xE2
abbrev noSuchSpray := 0xE3
abbrev portFenced := 0xE4
abbrev failoverActive := 0xE5
abbrev portState := 0xE6
abbrev portHeld := 0xE7
abbrev imageInvalid := 0xE8
abbrev imageRollback := 0xE9
abbrev imageSlotActive := 0xEA
abbrev storeWriteFailed := 0xEB
abbrev keyUnwrapFailed := 0xEC
abbrev keyInFlight := 0xED
abbrev previousKeyHeld := 0xEE
abbrev tenantState := 0xEF
abbrev faultNotPending := 0xF0
abbrev faultWaitBusy := 0xF1
abbrev orderInterrupted := 0xF2
abbrev clockInvalid := 0xF8
abbrev logUnavailable := 0xF9
abbrev limitBelowFloor := 0xFC
abbrev flashBusy := 0xFD
end Sts

/-- Unit identifier: kind in [15:11], index in [10:0] (12, R310). -/
def unitId (kind index : Nat) : Nat := kind * 2048 + index

namespace Kind
abbrev none_ := 0x00
abbrev channel := 0x01
abbrev stack := 0x02
abbrev stackTemp := 0x03
abbrev engine := 0x04
abbrev cluster := 0x05
abbrev port := 0x06
abbrev portPair := 0x07
abbrev lane := 0x08
abbrev dirWay := 0x09
abbrev dirSlice := 0x0A
abbrev stripeBuffer := 0x0B
abbrev homeAgent := 0x0C
abbrev ingress := 0x0D
abbrev crossbar := 0x0E
abbrev ringLink := 0x0F
abbrev sramMacro := 0x10
abbrev phase := 0x11
abbrev regionDie := 0x12
abbrev mgmtPair := 0x18
abbrev securityCore := 0x19
abbrev rootPll := 0x1A
abbrev fuseBank := 0x1B
abbrev darinlink := 0x1C
abbrev flash := 0x1D
end Kind

namespace Cause
abbrev endpointIdMismatch := 0x01
abbrev planeMismatch := 0x02
abbrev managerMismatch := 0x03
abbrev violationLogFull := 0x04
abbrev authFail := 0x05
abbrev coherenceProtocol := 0x06
abbrev staleSnoop := 0x07
abbrev hostSnoopTimeout := 0x08
abbrev hostFailed := 0x09
abbrev darinlinkDown := 0x0A
abbrev tempReadFail := 0x0B
abbrev parityReplay := 0x0C
abbrev rateChange := 0x0D
abbrev dataPoisoned := 0x0E
abbrev blotterFull := 0x0F
abbrev rowRepairExhausted := 0x10
abbrev poisonLogFull := 0x11
abbrev stripeMismatch := 0x12
abbrev channelRejoined := 0x13
abbrev noSpare := 0x14
abbrev savedStateFail := 0x15
abbrev orphansUnknown := 0x16
abbrev ownerLapsed := 0x17
abbrev sramRowSpared := 0x18
abbrev fuseRowSpared := 0x19
abbrev replacementDone := 0x1A
abbrev faultRingLost := 0x1B
abbrev tempPathFail := 0x40
abbrev retrainFail := 0x41
abbrev parityPersistent := 0x42
abbrev spareFailed := 0x43
abbrev linkFailed := 0x44
abbrev trainFail := 0x45
abbrev pairLost := 0x46
abbrev engineFailed := 0x47
abbrev dirWayFail := 0x48
abbrev dirSliceFail := 0x49
abbrev sramFail := 0x4A
abbrev ringLinkFail := 0x4B
abbrev mgmtMismatch := 0x4C
abbrev pllFail := 0x4D
abbrev phaseFail := 0x4E
abbrev stackTrainFail := 0x4F
abbrev bistFail := 0x50
abbrev doubleFence := 0x80
abbrev stackLost := 0x81
abbrev regionLost := 0x82
abbrev secondRegionLost := 0xC0
abbrev hubFailed := 0xC1
abbrev clockLost := 0xC2
abbrev inputRange := 0xC8
abbrev overpower := 0xC9
abbrev clockRefLost := 0xCA
abbrev startupTimeout := 0xCB
abbrev railLost := 0xCC
end Cause

end Sys2Proof.Machine
end

