-- ==== Sys2Proof/Machine/State.lean ====
section
/-! DEFINITION. The state of the block as plain data, every piece of state the spec names, and the state after reset.
Numbers held in fields of the spec are Nat; contents of lines, registers and keys are bit vectors. -/

namespace Sys2Proof.Machine

/-! ### Extents (02) -/

/-- STATE of an extent (02, Table 2.3). -/
inductive ExtState where
  | free | granted | revoking | scrubbing
deriving DecidableEq, Repr

/-- Extent record (02, Table 2.1). -/
structure Extent where
  access : List (BitVec 32) := [0, 0, 0, 0, 0, 0, 0, 0]
  physBase : Nat := 0
  size : Nat := 0
  base : Nat := 0
  tenant : Nat := 0
  kind : Nat := 0
  target : Nat := 0
  measured : Bool := false
  st : ExtState := .free
  coherent : Bool := false
  generation : Nat := 0
  inFlight : Nat := 0
  scrubDone : Nat := 0
  grantStamp : Nat := 0
  dirBase : Nat := 0
deriving DecidableEq, Repr

/-- Who waits for the end of a running REVOKE (02, Table 2.10; 13, R339). -/
inductive RevokeFor where
  | order (h : OrderHdr)
  | removal (tenant : Nat)
deriving DecidableEq, Repr

/-- A running REVOKE: draining, then recalling (02, Table 2.10, steps 4 to 6). -/
structure Revoke where
  ext : Nat
  waits : RevokeFor
  recalling : Bool := false
deriving DecidableEq, Repr

/-- Violation log entry (02, Table 2.12). -/
structure Violation where
  timestamp : Nat := 0
  repeatCount : Nat := 0
  ext : Nat := 0
  status : Nat := 0
  opcode : Nat := 0
  tenant : Nat := 0
  source : Nat := 0
  viaDarinlink : Bool := false
  port : Nat := 0
  extValid : Bool := false
  region : Nat := 0
  offset : Nat := 0
  tag : Nat := 0
deriving DecidableEq, Repr

/-! ### Requests in the module (03, 04) -/

/-- Colour of an admitted request (03, R81). -/
inductive Colour where
  | green | yellow
deriving DecidableEq, Repr

/-- Whom a request inside the module is answered to. -/
inductive Origin where
  /-- a request of a host or of the companion processor, answered as R55 states -/
  | packet (via : Via) (p : Packet)
  /-- an access of a thread or item, by number (07, R187) -/
  | engine (access : Nat)
  /-- a recall of a REVOKING extent's line (02, Table 2.10, step 5) -/
  | recallFor (ext : Nat)
  /-- a line of a release sweep (04, R107) -/
  | sweep (slot : Nat)
  /-- a store of the module itself for a spray: record, status byte or result list (07, R178, R179; 09, R246) -/
  | sprayStore (spray : Nat) (what : Nat)
  /-- a commit unit of a pool-operation item: launch, unit, access (09, R233) -/
  | itemUnit (spray unit access : Nat)
deriving DecidableEq, Repr

/-- A request past the ingress checks (03, R69, R82, R85; 04, R93). -/
structure Req where
  origin : Origin
  op : Nat
  offset : Nat
  length : Nat := 31
  poison : Bool := false
  payload : Line := 0
  ext : Nat := 0
  source : Nat := 0
  tenant : Nat := 0
  epoch : Option Nat := none
  roleGen : Nat := 0
  arrival : Nat := 0
  path : Nat := 0
  colour : Colour := .green
  finish : Nat := 0
  /-- the extent check of steps 6 to 10 has been passed and IN_FLIGHT counts the request -/
  counted : Bool := true
  /-- a launch, which passes to the launch dispatcher -/
  launch : Bool := false
  /-- the extent was coherent at the check: ordered through the directory (04, R88, Table 4.14) -/
  dir : Bool := false
  /-- its answer has been sent: its epoch was retired by force (03, R74) -/
  answered : Bool := false
  /-- bytes of the line a store writes, where it does not write whole words (07, R179; 08, R210) -/
  bytes : Option (BitVec 256) := none
deriving DecidableEq, Repr

/-- How a snoop stands (04, R99, R103, R104). -/
inductive SnoopState where
  /-- every tag of its region toward the holder is outstanding: it is sent once one is free (03, R65) -/
  | unsent
  | waiting
  /-- EVICT_IN_FLIGHT received: the WRITEBACK is awaited -/
  | awaitWb
deriving DecidableEq, Repr

/-- One snoop of an active transaction. -/
structure Snoop where
  slot : Nat
  gen : Nat
  invalidate : Bool
  sentAt : Nat
  tag : Nat := 0
  tenant : Nat := 0
  epoch : Option Nat := none
  st : SnoopState := .waiting
deriving DecidableEq, Repr

/-- What the answers of a transaction's snoops have given so far (04, Table 4.6). -/
structure Trans where
  req : Req
  snoops : List Snoop := []
  data : Option Line := none
  dataPoison : Bool := false
  downgraded : Bool := false
  /-- WRITEBACK and EVICT_CLEAN requests folded in, to be answered (04, R103, R104) -/
  foldedReqs : List Req := []
  /-- the entry is being rebuilt first (12, R324) -/
  rebuilding : Bool := false
  /-- the slot its host holds, and the status that turns it away, as found when it became active (04, R106, R108, Table 4.14) -/
  slot : Option Nat := none
  refusal : Option Nat := none
deriving DecidableEq, Repr

/-- The active transaction of a line and its chain (04, R93). -/
structure LineSt where
  active : Option Trans := none
  chain : List Req := []
deriving DecidableEq, Repr

/-- A snoop answer waiting at a home agent's VC3 input (04, R94). -/
structure SnoopAns where
  slot : Nat
  line : Nat
  tag : Nat := 0
  answer : Nat
  stale : Bool := false
  data : Option Line := none
  poison : Bool := false
deriving DecidableEq, Repr

/-- Buckets and last tag of one source in one region (03, R80, R84); tokens in 1/16 packet. -/
structure Bucket where
  tc : Nat := 0
  tp : Nat := 0
  fh : Nat := 0
  /-- Tc as sampled at the last tick (03, Table 3.6) -/
  tcSample : Nat := 0
deriving DecidableEq, Repr

/-- Configured values of a host record (03, Table 3.8). -/
structure HostRec where
  weight : Nat := 0
  pbs : Nat := 0
  cbs : Nat := 0
  pir : Nat := 0
  cir : Nat := 0
deriving DecidableEq, Repr

/-- One region's ingress and home agent (03, 04), its engine queue (07, R188) and its fault batches (07, R194 to R196). -/
structure RegionSt where
  buckets : Tab Bucket := []
  ingressQ : List Req := []
  engineQ : List Req := []
  engineHeld : List Req := []
  darinQ : List Req := []
  vtag : Nat := 0
  sillageQ : Nat := 0
  arrivals : Nat := 0
  /-- pointer over the ingress paths (03, R69; 04, R92, Table 4.15) -/
  ingressPtr : Nat := 0
  granted : List Req := []
  vc1 : List Req := []
  vc3 : List SnoopAns := []
  wfqPtr : Nat := 0
  grantPtr : Nat := 0
  haPtr : Nat := 0
  replyPtr : Nat := 0
deriving DecidableEq, Repr

/-! ### Coherence (04) -/

/-- SLOT_STATE (04, Table 4.10). -/
inductive SlotState where
  | free | bound | sweeping | failed
deriving DecidableEq, Repr

/-- Slot record (04, Table 4.9); HELD_COUNT is counted from the directory. -/
structure Slot where
  st : SlotState := .free
  gen : Nat := 0
  host : Nat := 0
deriving DecidableEq, Repr

/-- Directory STATE (04, Table 4.2). -/
inductive DirState where
  | i | s | em | lost
deriving DecidableEq, Repr

/-- Directory entry (04, Table 4.1); the sharers in ascending order. -/
structure DirEntry where
  sharers : List Nat := []
  ownerSlot : Nat := 0
  ownerGen : Nat := 0
  st : DirState := .i
  reported : Bool := false
  lostSource : Nat := 0
deriving DecidableEq, Repr

/-- A LOST batch (04, Table 4.11). -/
structure LostBatch where
  entries : List Nat := []
  timestamp : Nat := 0
  seq : Nat := 0
  source : Nat := 0
  slot : Nat := 0
  gen : Nat := 0
  last : Bool := false
  cause : Nat := 0
deriving DecidableEq, Repr

/-- A release sweep or failure walk over the window units in use (04, R107, R112). -/
structure Walk where
  slot : Nat
  failure : Bool
  next : Nat := 0
  /-- the open batch of a failure walk (04, R113) -/
  openLines : List Nat := []
  openSince : Nat := 0
  cause : Nat := 0
  source : Nat := 0
  gen : Nat := 0
  /-- the orders answered at its end, with their codes -/
  waits : List (OrderHdr × Nat) := []
  /-- a sweep that became a failure walk: the slot is freed at its end -/
  thenFree : Bool := false
deriving DecidableEq, Repr

/-! ### Memory stacks (05) -/

/-- STACK_STATE (05, Table 5.12). -/
inductive StackState where
  | off | training | serving | outOfService | rateChange | fenced | evacuating
deriving DecidableEq, Repr

/-- EVAC_STATE (06, Table 6.4). -/
inductive EvacState where
  | none | trainingSpare | copying | done | abandoned
deriving DecidableEq, Repr

/-- Status and integrity records of one physical stack (05, Table 5.12; 06, Table 6.4), with what drives them. Rates are coded 0, 1, 2 as RATE. -/
structure Stack where
  parityReplays : Nat := 0
  retrains : Nat := 0
  fencedChans : List Nat := []
  temp : Nat := 0
  rate : Nat := 0
  refresh2x : Bool := false
  st : StackState := .off
  mapped : Bool := false
  logicalId : Nat := 0
  ownerLimit : Nat := 0
  thermalLimit : Nat := 0
  powerLimit : Nat := 0
  coolReadings : Nat := 0
  tempFails : Nat := 0
  tempFenced : Bool := false
  lastRateChange : Option Nat := none
  rateTarget : Nat := 0
  /-- STACK_RATE_LIMIT values waiting for a temperature reading, with the replies owed (05, Table 5.13) -/
  newLimit : Option Nat := none
  limitWaits : List OrderHdr := []
  lastHot : Bool := false
  ceWords : Nat := 0
  ueRebuilt : Nat := 0
  poisoned : Nat := 0
  mismatch : Nat := 0
  rowRepairs : Nat := 0
  scrubPasses : Nat := 0
  scrubPointer : Nat := 0
  evacPointer : Nat := 0
  evacState : EvacState := .none
  scrubLate : Bool := false
  scrubStart : Nat := 0
  repairExhausted : Bool := false
  ueStamps : List Nat := []
  /-- a row-repair trigger has fallen on the stack after REPAIR_EXHAUSTED (06, R159, R165) -/
  repairTrigger : Bool := false
  /-- chunks of the stripe under patrol that have been read (05, R127; 06, R161) -/
  scrubChunk : Nat := 0
  retired : Bool := false
deriving DecidableEq, Repr

/-- Mode registers of a channel, by the feature each controls: the values that use or disable it (05, R115, Table 5.1). -/
structure Modes where
  checkBits : Bool := true
  commandParity : Bool := true
  writeParity : Bool := true
  busInversionRead : Bool := true
  busInversionWrite : Bool := true
  /-- on-die ECC stays at its standard setting; its error reports are not used -/
  onDieReports : Bool := false
  internalScrub : Bool := false
  powerDown : Bool := false
deriving DecidableEq, Repr

/-- One channel and its controller (05, R127 to R136; 06, R164; 14, R350). -/
structure Chan where
  /-- next pause of the retraining, 0 to 3, and that it runs -/
  pauseNext : Nat := 0
  pausing : Bool := false
  lastPause : Option Nat := none
  rerun : Bool := false
  lastRetrain : Nat := 0
  retrainForced : Bool := false
  alerts : List Nat := []
  /-- end of a retraining forced by R134, and the alerts since -/
  forcedDone : Option Nat := none
  alertsSince : Nat := 0
  selfRefresh : Bool := false
  lastActivity : Nat := 0
  fullTraining : Bool := false
  /-- rejoin pointer (06, R164) -/
  rejoin : Option Nat := none
  rejoined : Bool := false
  /-- trained centres in force: read of pseudo-channels 0 and 1, write of pseudo-channels 0 and 1 (05, R131) -/
  centres : List Nat := [0, 0, 0, 0]
  /-- the three shadow timing sets, by rate: their last trained centres; and the rate whose set is loaded (05, R137 to R139) -/
  shadow : Tab (List Nat) := []
  timing : Nat := 0
  /-- lanes that training has replaced, as the stack codes them (05, R132, R139) -/
  laneRepair : Nat := 0
  modes : Modes := {}
  /-- pseudo-channels in a parity replay, in order of their alerts: the first holds the window, the others wait for it (05, R127, R133) -/
  replays : List Nat := []
  /-- deadline of the banks that a pseudo-channel does not list (05, R129) -/
  refreshBy : Nat := 0
deriving DecidableEq, Repr

/-- One burst of a pseudo-channel queue: chunk place, column of the row, and the 32 bytes it writes (05, R117, R123). -/
structure Burst where
  place : Nat
  column : Nat
  write : Bool
  since : Nat
  data : BitVec 256 := 0
deriving DecidableEq, Repr

/-- A command of a pseudo-channel's retry buffer (05, R133): a column command with its write data, a row command that opens or closes a bank, a refresh of a bank; the closing of all rows, the all-bank refresh, entry to self-refresh and exit from it (05, Tables 5.7, 5.9). -/
inductive ChanCmd where
  | column (b : Burst)
  | row (bank : Nat)
  | refresh (bank : Nat)
  | closeAll
  | refreshAll
  | sleep
  | wake
deriving DecidableEq, Repr

/-- One pseudo-channel (05, R123 to R126, R133). -/
structure PChan where
  reads : List Burst := []
  writes : List Burst := []
  writing : Bool := false
  sinceTurn : Nat := 16
  openRows : Tab Nat := []
  /-- commands issued, with the time of issue -/
  retry : List (ChanCmd × Nat) := []
  replaying : Bool := false
  /-- when each bank's next refresh falls due; where none is listed, the channel's own deadline -/
  refreshBy : Tab Nat := []
  bankPtr : Nat := 0
deriving DecidableEq, Repr

/-! ### Stored data (06) -/

/-- Marks of one chunk place: words that show syndrome 0xFF, words with one wrong bit (and which bit), words uncorrectable (06, R143, R145). -/
structure Ecc where
  marked : BitVec 32 := 0
  single : List (Nat × Nat) := []
  double : BitVec 32 := 0
deriving DecidableEq, Repr

/-- Stripe assembly buffer entry (06, R150). -/
structure SabEntry where
  region : Nat
  lstack : Nat
  stripe : Nat
  ext : Nat
  /-- module offset of the stripe's first chunk -/
  offset : Nat
  data : List Line
  mask : List (BitVec 32)
  oldValid : BitVec 16
  openedAt : Nat
  /-- words of each chunk whose buffer storage is uncorrectable (06, R154) -/
  bad : List (BitVec 32) := []
  /-- chunks written with POISON (03, R61) -/
  poison : BitVec 16 := 0
  due : Bool := false
  /-- the bank of the region's buffer that holds the entry (14, Table 14.1) -/
  bank : Nat := 0
deriving DecidableEq, Repr

/-- Who asks for or holds a stripe lock, numbered as 04, Table 4.15. -/
inductive LockKind where
  | scrub | copier | rejoin | rowRepair | rewrite | catchUp
deriving DecidableEq, Repr

/-- A stripe lock, held or asked for (06, R156). -/
structure StripeLock where
  lstack : Nat
  stripe : Nat
  kind : LockKind
  held : Bool := false
deriving DecidableEq, Repr

/-- A corrective rewrite scheduled by a read (06, R147). -/
structure Rewrite where
  lstack : Nat
  stripe : Nat
  pos : Nat
  data : Line
deriving DecidableEq, Repr

/-- Blotter entry (06, Table 6.1). -/
structure BlotEntry where
  timestamp : Nat
  count : Nat
  position : Nat
  chan : Nat
  place : Nat
  word : Nat
  bit : Nat
  source : Nat
deriving DecidableEq, Repr

/-- One region's blotter (06, R157). -/
structure Blotter where
  entries : List BlotEntry := []
  overflow : Nat := 0
  noted : Bool := false
deriving DecidableEq, Repr

/-- Poison log entry (06, Table 6.2). -/
structure PoisonEntry where
  timestamp : Nat
  offset : Nat := 0
  stripe : Nat := 0
  position : Nat := 0
  lstack : Nat := 0
  physPosition : Nat := 0
  cause : Nat := 0
  offsetValid : Bool := false
  ext : Nat := 0
deriving DecidableEq, Repr

/-- A row whose repair is due (06, R158). -/
structure RowRef where
  stack : Nat
  chan : Nat
  row : Nat
deriving DecidableEq, Repr

/-- A running evacuation of a region (06, R165 to R168). -/
structure Evac where
  old : Nat
  spare : Nat
  lstack : Nat
  pointer : Nat := 0
  copying : Bool := false
  waits : List OrderHdr := []
  cause : Nat := 0
deriving DecidableEq, Repr

/-! ### Engines (07, 08) -/

/-- A planned move of a logical engine (07, R202). -/
structure PlannedMove where
  spare : Nat
  since : Nat
deriving DecidableEq, Repr

/-- A logical engine (07, R170, R171): its physical engine in its region (cluster times 9 plus slot), its generation, the logical engine that adopted it. -/
structure LogEng where
  phys : Nat
  gen : Nat := 0
  adoptedBy : Option Nat := none
  move : Option PlannedMove := none
deriving DecidableEq, Repr

/-- A physical engine (07, R170, R171). -/
structure PhysEng where
  fenced : Bool := false
  underTest : Bool := false
  /-- serves a logical engine -/
  active : Bool := false
deriving DecidableEq, Repr

/-- How a running item will be reported (07, Table 7.6): status, detail, failing address. -/
structure Failure where
  status : Nat
  detail : Nat := 0
  pva : Nat := 0
deriving DecidableEq, Repr

/-- What a resident thread is doing. -/
inductive Phase where
  | running
  /-- END executed: waits for its accesses (08, R209) -/
  | ending
  /-- stopped by TRAP, a failure, a cancel or the watchdog: waits for its accesses (08, R215) -/
  | failing (f : Failure)
deriving DecidableEq, Repr

/-- Registers of one hardware thread (08, Table 8.1) and its residency (07, R176, R183). -/
structure Thread where
  spray : Nat
  item : Nat
  /-- the logical engine it was placed on, which another may have adopted (07, R171) -/
  placed : Nat := 0
  sregs : List Word
  vregs : List VReg
  accs : List (List Word)
  preds : List Word
  pc : Nat
  tiles : Nat := 0
  privValid : BitVec 4096 := 0
  scratchBytes : Nat := 0
  phase : Phase := .running
  startAt : Nat := 0
  /-- items it runs: 16 for a whole block of ZERO (09, R240) -/
  items : Nat := 1
  /-- lines a pool-operation item has read, by number of the line -/
  got : Tab Line := []
  /-- units an item has ready to commit: unit number, PVA or offset, data -/
  units : List (Nat × Nat × Line) := []
  computed : Bool := false
deriving DecidableEq, Repr

/-- What a tile does with the data it moves (08, R210 to R214; 09, R237). -/
inductive TileUse where
  | scalarLoad (d size : Nat) (signed : Bool)
  | vectorLoad (d bytes : Nat)
  | gather (d size : Nat)
  | store
  | atomic (d op : Nat)
  | tileLoad (scratch : Nat)
  | tileStore
  /-- a source line of a pool-operation item -/
  | itemRead
  /-- commit unit of a pool-operation item -/
  | itemUnit (unit : Nat)
  /-- the 16 lines of a whole block of ZERO, whose first unit is given -/
  | zeroBlock (unit : Nat)
deriving DecidableEq, Repr

/-- How a tile stands (07, R193 to R199). -/
inductive TileState where
  | issued
  /-- waits on a fault, with the batch and record it has, if any, and the time of its first fault -/
  | faulted (batch : Option (Nat × Nat)) (since : Nat) (rights : Bool) (pva : Nat)
  /-- its RESUME came during a planned move of its engine: it is translated again when the move is over (07, R198, R202) -/
  | resumed (since : Nat)
deriving DecidableEq, Repr

/-- A tile of a thread: rows, row bytes, stride (07, R193). Thread 64 stands for one that an engine's loss has ended (07, R203). -/
structure Tile where
  engine : Nat
  thread : Nat
  spray : Nat
  asid : Nat
  base : Nat
  rows : Nat
  rowBytes : Nat
  stride : Nat
  /-- opcode of its accesses (03, Table 3.2) -/
  op : Nat
  acquire : Bool := false
  /-- base is a module offset, not a PVA (09, R243) -/
  direct : Bool := false
  use : TileUse
  st : TileState := .issued
  /-- bytes gathered from answered lines, in tile order; for stores, the bytes to write -/
  bytes : List Byte := []
  /-- lines not yet answered -/
  left : Nat := 0
  failed : Bool := false
  /-- what each INVALIDATE_RANGE under way dropped of the translations it may have used: its number, the first 64 KiB unit, how many (07, R200) -/
  stale : List (Nat × Nat × Nat) := []
deriving DecidableEq, Repr

/-- How one line access of a tile stands (07, R187 to R191). -/
inductive AccState where
  | waiting | inModule
  /-- sent to another module: tag, first send, endpoint -/
  | remote (tag : Nat) (firstSend : Nat)
  /-- RETRY received: when it may be sent again -/
  | backoff (tag : Nat) (firstSend : Nat) (until_ : Nat)
deriving DecidableEq, Repr

/-- One line access (07, R187, R189): the PPA, the bytes of the tile it carries. -/
structure Access where
  tile : Nat
  ppa : Nat
  pva : Nat := 0
  op : Nat
  payload : Line := 0
  /-- index in the tile of its first byte, and count -/
  first : Nat := 0
  count : Nat := 0
  st : AccState := .waiting
  epoch : Option Nat := none
  gen : Nat := 0
deriving DecidableEq, Repr

/-- A leaf entry (07, Table 7.7): FRAME in 64 KiB units, level 1 to 3, rights. -/
structure Leaf where
  level : Nat
  frame : Nat
  read : Bool
  write : Bool
deriving DecidableEq, Repr

/-- An address space (07, R192): its tenant and its leaves by PVA in 64 KiB units. -/
structure AddrSpace where
  tenant : Nat
  leaves : Tab Leaf := []
  /-- lower tables written, by level and PVA prefix -/
  tables : List (Nat × Nat) := []
  destroying : Bool := false
deriving DecidableEq, Repr

/-- A cached translation (07, R192). -/
structure TlbEntry where
  asid : Nat
  page : Nat
  leaf : Leaf
deriving DecidableEq, Repr

/-- A fault record (07, Table 7.8), by the tile it stands for. -/
structure FaultRec where
  pva : Nat
  tile : Nat
  base : Nat
  stride : Nat
  rows : Nat
  rowBytes : Nat
  asid : Nat
  spray : Nat
  engine : Nat
  thread : Nat
  pages : Nat
  rights : Bool
  access : Nat
deriving DecidableEq, Repr

/-- A fault batch (07, Table 7.9, R194 to R197). -/
structure Batch where
  seq : Nat
  region : Nat
  firstStamp : Nat
  recs : List FaultRec
  /-- it has left its region for a ring -/
  written : Bool := false
  /-- its slot in the ring, none once its ring is withdrawn; and that it is written again -/
  slot : Option Nat := none
  reissued : Bool := false
deriving DecidableEq, Repr

/-- One region's fault collection (07, R194, R196). -/
structure FaultCol where
  openRecs : List FaultRec := []
  openSince : Nat := 0
  /-- records of the tiles that wait without a place in a batch -/
  waiting : List FaultRec := []
deriving DecidableEq, Repr

/-- The fault ring (07, R195, R197). -/
structure FaultRing where
  offset : Nat
  slots : Nat
  head : Nat := 0
deriving DecidableEq, Repr

/-- A running invalidation (07, R200): who is answered and which logical engines have acknowledged. -/
structure Inval where
  id : Nat
  asid : Nat
  pva : Nat
  size : Nat
  waits : Option OrderHdr
  /-- the address space goes with it (ASID_DESTROY, TENANT_REMOVE) -/
  destroy : Bool := false
  acked : List Nat := []
deriving DecidableEq, Repr

/-- A loaded user accord (07, R172; 13, R341). -/
structure Accord where
  id : Nat
  /-- bound tenant, 0xFFFF for all -/
  tenant : Nat
  code : List (BitVec 32)
  measurement : Digest
  signer : Digest
deriving DecidableEq, Repr

/-- How one item of a launch stands (07, R175 to R181; 09, R235). -/
inductive ItemState where
  | placed (engine : Nat)
  | started (engine thread : Nat)
  | ended (status : Nat)
deriving DecidableEq, Repr

/-- The work area of a pool operation (09, Table 9.4). -/
structure PoolWork where
  mismatches : List Nat := [0, 0, 0, 0]
  minIndex : List Nat := [0xFFFFFFFF, 0xFFFFFFFF, 0xFFFFFFFF, 0xFFFFFFFF]
  values : List Word := [0, 0, 0, 0]
  /-- a region has merged a value -/
  merged : List Bool := [false, false, false, false]
  /-- region lists by region times 16 plus query: score and row -/
  lists : Tab (List (BitVec 32 × Nat)) := []
  leaves : Tab Digest := []
  queryInvalid : BitVec 16 := 0
  nanRows : Nat := 0
  rowsScored : Nat := 0
  resultFailed : Bool := false
  resultsWritten : Bool := false
deriving DecidableEq, Repr

/-- An active launch (07, R174, R178 to R181; 09, R232 to R238): its number since module reset, and its ID, the number modulo 65,536. -/
structure Spray where
  id : Nat
  number : Nat := 0
  pool : Bool
  desc : Line
  via : Via
  pkt : Packet
  source : Nat
  tenant : Nat
  epoch : Option Nat
  region : Nat
  total : Nat
  items : Tab ItemState := []
  lost : Tab Nat := []
  completed : Nat := 0
  failedCount : Nat := 0
  firstFail : Option (Nat × Failure) := none
  /-- when the first failure was reported (07, R180) -/
  firstFailAt : Nat := 0
  /-- module offset of the extent of a DIGEST, as at acceptance (09, R243) -/
  base : Nat := 0
  startStamp : Nat := 0
  endStamp : Nat := 0
  cancelled : Bool := false
  statusFailed : Bool := false
  recordFailed : Bool := false
  recordWritten : Bool := false
  /-- the completion record, once it has been made -/
  record : Option Line := none
  /-- its COMPLETION has been replaced by KEY_RETIRED (03, R74) -/
  answered : Bool := false
  /-- stores of the module for this launch not yet answered -/
  stores : Nat := 0
  commits : List Nat := []
  work : PoolWork := {}
  pages : Nat := 0
  cancelWaits : List OrderHdr := []
  writeOpen : Bool := false
deriving DecidableEq, Repr

/-- A forwarding entry of a region's response router, by remote tag (07, R190, R191); held: the tag of a request that timed out. -/
structure Forward where
  region : Nat
  tag : Nat
  endpoint : Nat
  engine : Nat
  thread : Nat
  gen : Nat
  access : Nat
  held : Bool := false
deriving DecidableEq, Repr

/-! ### Links (10, 11) -/

/-- PORT_STATE (10, Table 10.11). -/
inductive PortState where
  | off | training | active | cold | bringup | fenced | held | resync
deriving DecidableEq, Repr

/-- A flit sent and not yet acknowledged: SEQ and packets (10, R256). -/
structure TxFlit where
  seq : Nat
  packets : List Packet
deriving DecidableEq, Repr

/-- A flit held for reordering (10, R257). -/
structure RxFlit where
  seq : Nat
  packets : List Packet
deriving DecidableEq, Repr

/-- A control record repeated every 1 us until answered, for at most 1 ms (10, R263): the record and its first and last send. -/
structure Repeated where
  rec_ : CtrlRec
  first : Nat
  last : Nat
deriving DecidableEq, Repr

/-- One fabric port: its record (10, Table 10.10) and its link (10, R252 to R267). -/
structure Port where
  retransmits : Nat := 0
  crcFails : Nat := 0
  fecUncorrectable : Nat := 0
  orphansResent : Nat := 0
  orphansUnknown : Nat := 0
  dupDiscarded : Nat := 0
  savedAt : Option Nat := none
  failovers : Nat := 0
  gen : Nat := 0
  spareFor : Nat := 0xF
  narrow : Bool := false
  st : PortState := .off
  switchPort : Nat := 0
  laneMap : List Nat := []
  badLanes : List Nat := []
  /-- transmit side -/
  nextSeq : Nat := 0
  replay : List TxFlit := []
  waiting : List Packet := []
  peerXoff : BitVec 8 := 0
  timerFrom : Nat := 0
  expiries : Nat := 0
  stopped : Bool := false
  /-- receive side -/
  expected : Nat := 0
  held : List RxFlit := []
  missing : List Nat := []
  naked : List (Nat × Nat) := []
  crcTimes : List Nat := []
  protoTimes : List Nat := []
  /-- training exchange -/
  helloRx : Bool := false
  assigned : Bool := false
  readyTx : Bool := false
  readyRx : Bool := false
  offeredHeld : Bool := false
  trainedLanes : Bool := false
  repeats : List Repeated := []
  prevRecvPoint : Option (Nat × Nat) := none
  savedSwitch : Option (Nat × Nat) := none
  retrainWaits : List OrderHdr := []
  /-- the lane map of the training or bring-up under way is formed and FEC is in lock: LINK_HELLO goes out from here on (10, R263, R265) -/
  fecLock : Bool := false
  /-- physical lanes that lost alignment lock since the lane map was formed (10, R260) -/
  lockLost : List Nat := []
  /-- the last flit overlapped an uncorrectable codeword (10, R254) -/
  fecBad : Bool := false
  /-- the spare lane serves since a training that has passed (12, Table 12.10) -/
  spareServes : Bool := false
  /-- saved state of each physical lane (10, R266) -/
  lanes : List LaneSet := []
  /-- the training under way is a refresh of a COLD port (10, R266) -/
  refresh : Bool := false
  since : Nat := 0
  tested : Option Nat := none
deriving DecidableEq, Repr

/-- VC buffer entries in use and own XOFF bits of one pair (10, Table 10.5, R261). -/
structure PairBuf where
  used : List Nat := [0, 0, 0, 0, 0, 0, 0, 0]
  xoff : BitVec 8 := 0x84
  /-- side set by PORT_SELECT since reset (14, R352) -/
  selected : Bool := false
deriving DecidableEq, Repr

/-- The orphans of one incarnation of a port's link (10, R270, R271). -/
structure OrphanSet where
  port : Nat
  gen : Nat := 0
  /-- when the link failed or was left -/
  since : Nat := 0
  queryId : Nat := 0
  /-- the exchange of LINK_HELLO resolves them (10, R263, R267) -/
  byHello : Bool := false
  /-- flits not seen acknowledged, by SEQ -/
  seqs : List (Nat × List Packet) := []
  /-- resolved: what is left is to be resent -/
  done : Bool := false
  left : List Packet := []
deriving DecidableEq, Repr

/-- A failover or change of side of a pair (10, R269 to R273). -/
structure Failover where
  from_ : Nat
  since : Nat
  planned : Option OrderHdr := none
  exchange : Bool := false
  /-- a full link reset in place of the active port (10, R267) -/
  inPlace : Bool := false
  draining : Bool := false
  /-- the orphans to account for, the earliest first -/
  sets : List OrphanSet := []
deriving DecidableEq, Repr

/-- A receive point held for a failed link (10, R270): port, switch port, generation, point, since. -/
structure HeldPoint where
  port : Nat
  switchPort : Nat
  gen : Nat
  point : Nat
  since : Nat
deriving DecidableEq, Repr

/-- Darinlink state (11, Table 11.14). -/
inductive DlState where
  | down | training | active
deriving DecidableEq, Repr

/-- Darinlink (11, R297 to R304). -/
structure Darinlink where
  st : DlState := .down
  /-- 0: 16 lanes; 1: lanes 0 to 7; 2: lanes 8 to 15 -/
  width : Nat := 0
  fullTrainings : Nat := 0
  /-- full trainings since reset, of which TRAIN_COUNT is the low 8 bits (11, R302) -/
  trainings : Nat := 0
  recoveries : Nat := 0
  dropped : Nat := 0
  nextSeq : Nat := 0
  /-- flits sent and not seen acknowledged, by SEQ, as they went out -/
  replay : List (Nat × BitVec 4096) := []
  waiting : List Packet := []
  expected : Nat := 0
  partial_ : List (BitVec 128) := []
  nak : Bool := false
  nakAt : Option Nat := none
  crcTimes : List Nat := []
  timerFrom : Nat := 0
  expiries : Nat := 0
  /-- credits this end may still spend, by class, and returns it owes -/
  credits : List Nat := [0, 0, 0, 0, 0, 0]
  returns : List Nat := [0, 0, 0, 0, 0, 0]
  peerInit : Bool := false
  echoSent : Bool := false
  widthAsked : Option (Nat × Nat × Nat) := none
  /-- the width of the retraining that an echoed DL_WIDTH has started (11, R298, R302) -/
  widthAgreed : Option Nat := none
  /-- flits sent since the last IDLE flit (11, R297) -/
  sinceIdle : Nat := 0
  /-- when the lane scramblers were last seeded (11, R297) -/
  seededAt : Nat := 0
  recovering : Bool := false
  /-- steps 1 to 4 of a full training are done: the credits are exchanged (11, Table 11.9) -/
  stepFive : Bool := false
  /-- lane groups out of service after a self-test: 0 lanes 0 to 7, 1 lanes 8 to 15 (14, Table 14.2) -/
  groupsOut : List Nat := []
  leftActiveAt : Option Nat := none
  lastTry : Nat := 0
  /-- the link has been down and slot 0 failed for it -/
  absent : Bool := true
deriving DecidableEq, Repr

/-- What the module has put on its outputs. -/
inductive WireRec where
  /-- a sequenced flit on a port: SEQ, whether it is resent, its packets, its 320 bytes -/
  | flit (port seq : Nat) (resent : Bool) (packets : List Packet) (raw : BitVec 2560)
  /-- an IDLE flit on a port whose trailer names a missing SEQ -/
  | nak (port seq : Nat) (raw : BitVec 2560)
  /-- a CTRL flit on a port: its record, its 320 bytes -/
  | ctrl (port : Nat) (r : CtrlRec) (raw : BitVec 2560)
  /-- a Darinlink MSG flit: its message, its 512 bytes -/
  | message (p : Packet) (raw : BitVec 4096)
  /-- Darinlink flits resent unchanged, from this SEQ on -/
  | dlResend (seq : Nat) (raws : List (BitVec 4096))
  /-- a Darinlink IDLE flit with NAK_VALID, and its ACK -/
  | dlNak (ack : Nat) (raw : BitVec 4096)
  /-- a Darinlink IDLE flit that returns credits, by class -/
  | dlCredits (returns : List Nat) (raw : BitVec 4096)
  /-- the Darinlink IDLE flit that every 1,024 flits hold (11, R297) -/
  | dlIdle (raw : BitVec 4096)
  /-- a Darinlink CTRL flit: kind 1 DL_CREDIT_INIT, 2 DL_WIDTH -/
  | dlCtrl (kind : Nat) (r : DlCtrlRec) (raw : BitVec 4096)
  /-- bytes an I3C read or CCC returned -/
  | i3c (bytes : List Byte)
  /-- bits a JTAG data register shows, bit 0 first -/
  | jtag (bits : List Bool)
deriving DecidableEq, Repr

/-! ### Faults (12) -/

/-- A fault record (12, Table 12.7). -/
structure FaultRecord where
  timestamp : Nat := 0
  detail : Nat := 0
  seq : Nat := 0
  unit : Nat := 0
  cause : Nat := 0
  count : Nat := 1
  region : Nat := 0
  cls : Nat := 0
  raised : Nat := 0
  escalated : Bool := false
  hub : Bool := false
  spareUsed : Option Nat := none
  withheld : Bool := false
  acked : Bool := false
deriving DecidableEq, Repr

/-- One region's collector (12, Table 12.4). -/
structure RegionFault where
  fence : Option FaultRecord := none
  escalation : Bool := false
  lastNote : Nat := 0
  noteCount : Nat := 0
  fenced : Bool := false
  spareStackFree : Bool := true
deriving DecidableEq, Repr

/-- A unit out of service with no replacement, or whose replacement is withheld (12, R315, R320). -/
structure OutUnit where
  hub : Bool
  region : Nat
  unit : Nat
  withheld : Bool
  /-- LOG_SEQ of the pending record whose acknowledgement starts the withheld replacement (12, R315, R319) -/
  record : Option Nat := none
  /-- the segment that failed, where a slice found the fault (14, R345) -/
  segment : Option Nat := none
deriving DecidableEq, Repr

/-! ### Hub (11, 13) -/

/-- One management master (11, R284, R285; 12, R318). -/
structure Master where
  highest : Option Nat := none
  marks : List Nat := []
  outstanding : Nat := 0
  wait : Option (OrderHdr × Nat) := none
deriving DecidableEq, Repr

/-- Management keys of master 1 or 2 (11, R278; 13, R336). -/
structure MgmtKey where
  epoch : Nat
  key : Key
  wrap : Key
  previous : Option (Nat × Key) := none
  agreedAt : Nat
deriving DecidableEq, Repr

/-- An open election window (11, R291). -/
structure Election where
  closes : Nat
  claims : List (Nat × Nat × OrderHdr)
deriving DecidableEq, Repr

/-- A pending handover (11, R294). -/
structure Handover where
  target : Nat
  expires : Nat
  order : OrderHdr
deriving DecidableEq, Repr

/-- A change waiting for its commit tick (02, R43; 13, R386). -/
inductive Prepared where
  | grant (h : OrderHdr) (ext : Nat) (r : Extent)
  | accessSet (h : OrderHdr) (ext generation : Nat) (access : List (BitVec 32)) (measured : Nat)
  | revoke (h : OrderHdr) (ext generation : Nat)
  | tenantCreate (h : OrderHdr) (tenant : Nat) (wrapped : BitVec 320) (kek : Key)
  | rotateKey (h : OrderHdr) (tenant : Nat) (wrapped : BitVec 320) (kek : Key)
  | retireKey (h : OrderHdr) (tenant epoch force : Nat)
  | tenantRemove (h : OrderHdr) (tenant : Nat)
  | mapRange (h : OrderHdr) (asid pva ppa pageSize count rights : Nat)
  | unmapRange (h : OrderHdr) (asid pva size : Nat)
  | protectRange (h : OrderHdr) (asid pva size rights : Nat)
  | asidCreate (h : OrderHdr) (asid tenant : Nat)
  | asidDestroy (h : OrderHdr) (asid : Nat)
  | invalidate (h : OrderHdr) (asid pva size : Nat)
  | hostShape (h : OrderHdr) (host : Nat) (r : HostRec)
  | idlePolicy (h : OrderHdr) (ms : Nat)
  | faultPolicy (h : OrderHdr) (ms : Nat)
deriving DecidableEq, Repr

/-- A tenant (13, Table 13.5, R337 to R339): its current epoch and key, its previous one, items in flight per epoch. -/
structure Tenant where
  epoch : Nat := 0
  key : Key := 0
  previous : Option Key := none
  /-- items in flight by epoch number -/
  inFlight : Tab Nat := []
  removing : Bool := false
  keysErased : Bool := false
deriving DecidableEq, Repr

/-- A running TENANT_REMOVE (13, R339). -/
structure Removal where
  tenant : Nat
  order : OrderHdr
  step : Nat
deriving DecidableEq, Repr

/-- Flash work of FW_WRITE or FW_ACTIVATE (13, R333, R334). -/
structure FwWork where
  order : OrderHdr
  image : Nat
  activate : Bool
  data : List Byte := []
  /-- copy 1 of the bundle is written and checked (13, R333) -/
  copied : Bool := false
deriving DecidableEq, Repr

/-- Measurement table entry (13, Table 13.9). -/
structure Measured where
  digest : Digest
  stamp : Nat
  tenant : Nat
  writeOpen : Bool
  valid : Bool
  generation : Nat
  ext : Nat
deriving DecidableEq, Repr

/-! ### Self-test and lifetime (14) -/

/-- Slice entry (14, Table 14.5). -/
structure SliceEntry where
  timestamp : Nat
  unit : Nat
  segment : Nat
  outcome : Nat
  duration : Nat
  catchUp : Nat
deriving DecidableEq, Repr

/-- BIST state of one region or the hub (14, Table 14.4, R346 to R351). -/
structure Bist where
  lastStamp : Nat := 0
  run : Nat := 0
  failed : Nat := 0
  abandoned : Nat := 0
  deferred : Nat := 0
  /-- unit and segment under test, since when, and its draw in tenths of a watt -/
  current : Option (Nat × Nat × Nat × Nat) := none
  /-- catch-up list of a controller slice: logical stack and stripe; and that its walk runs -/
  catchUp : List (Nat × Nat) := []
  walking : Option (Nat × Nat × Nat) := none
  /-- stripes listed when the slice ended -/
  listed : Nat := 0
  /-- next unit of the rotating pointer (14, R346) -/
  ptr : Nat := 0
  entries : List SliceEntry := []
  /-- last pass of a unit and segment, keyed unit times 256 plus segment -/
  lastPass : Tab Nat := []
  due : List (Nat × Nat) := []
  overdue : List (Nat × Nat) := []
  retryAt : Tab Nat := []
deriving DecidableEq, Repr

/-- A record of the flash log (14, Table 14.9). -/
structure LogRec where
  timebase : Nat
  calendarUs : Nat
  seq : Nat
  boot : Nat
  type : Nat
  timeSet : Bool
  body : List Byte
  /-- BLOCK_SEQ of the block it was written to (14, R357) -/
  block : Nat := 0
  /-- its place in the ring and its first 64 B unit in the block, of which unit 0 is the header (14, R357) -/
  place : Nat := 0
  unit : Nat := 0
deriving DecidableEq, Repr

/-- The header of a block of the flash log (14, R357): BLOCK_SEQ and the LOG_SEQ of its first record. -/
structure LogBlock where
  seq : Nat
  first : Nat
deriving DecidableEq, Repr

/-! ### Power (15) -/

/-- Stage of start-up and shutdown (15, Tables 15.9 and 15.10). -/
inductive Stage where
  /-- no input power, or PWR_OK low: nothing runs -/
  | unpowered
  /-- PWR_OK high, RESET_N low or held as if low (R373) -/
  | held
  /-- start-up begun, hub reset not released (steps 2 and 3) -/
  | securityTest
  /-- boot failed: the firmware never starts (13, R332) -/
  | bootFailed
  /-- firmware runs (step 4 on) -/
  | running
  /-- power-down sequence (Table 15.10) -/
  | poweringDown
deriving DecidableEq, Repr

/-- JTAG instruction in force (15, Table 15.18). -/
inductive JtagInstr where
  | idcode | sample | extest | extestPulse | extestTrain | clamp | highz | bootStatus | bypass
deriving DecidableEq, Repr

/-! ### The whole state -/

/-- Time and the model's own fields. -/
structure TimeSt where
  /-- 4 ns units since the model's start (the model's own) -/
  clock : Nat := 0
  timebase : Nat := 0
  timebaseOn : Bool := false
  /-- next free value (the model's own) -/
  free : Nat := 0
  /-- timebase count of the last refill tick and of the last commit tick carried out (the model's own) -/
  refilled : Option Nat := none
  committed : Option Nat := none
deriving DecidableEq, Repr

/-- Everything of 01 to 04 but the extents: identity, admission, home agents, slots, directory. -/
structure CohSt where
  hosts : Tab HostRec := []
  authFail : Tab Nat := []
  /-- hosts whose AUTH_FAIL NOTE has been raised since the count was last read -/
  authNoted : List Nat := []
  regions : Tab RegionSt := []
  lines : Tab LineSt := []
  slots : Tab Slot := [(0, { st := .bound })]
  dir : Tab DirEntry := []
  /-- window indices that each directory slice caches, by (region times 16 plus slice) times 4096 plus set, and whether the entry is modified (04, R89) -/
  dirCache : Tab (List (Nat × Bool)) := []
  rebuild : List Nat := []
  /-- timebase count at which an entry became LOST, for TIMESTAMP of its batch (04, Table 4.11) -/
  lostStamps : Tab Nat := []
  walks : List Walk := []
  lost : List LostBatch := []
  lostSeq : Nat := 0
  /-- snoops that a folded message has answered and whose own answer is still to come: slot, line, tag (04, R103, R104) -/
  closing : List (Nat × Nat × Nat) := []
  /-- last snoop tag of each region (03, R65) -/
  snoopTags : Tab Nat := []
deriving DecidableEq, Repr

/-- Memory stacks, stored data and its codes (05, 06). -/
structure MemSt where
  bytes : List Host.Cell := []
  ecc : Tab Ecc := []
  valid : Tab (BitVec 16) := []
  /-- the two copies of the valid map in the metadata, as last written back, keyed as valid (12, R323) -/
  validBack : Tab (BitVec 16) := []
  validBack2 : Tab (BitVec 16) := []
  /-- blocks of the valid map that each region's cache holds, and whether they are modified (05, R120) -/
  validCache : Tab (List (Nat × Bool)) := []
  /-- training patterns in the nine places of each channel that hold no stripe (05, R118) -/
  patterns : Tab (List Line) := []
  stackTab : Tab Stack := []
  chans : Tab Chan := []
  pchans : Tab PChan := []
  /-- bursts waiting in the stripe layer, by number of the pseudo-channel (05, R123) -/
  stripeWait : List (Nat × Burst) := []
  idleMs : Nat := 0
  sab : List SabEntry := []
  locks : List StripeLock := []
  lockPtrs : Tab Nat := []
  rewrites : List Rewrite := []
  rowsDue : List RowRef := []
  repairs : Tab Nat := []
  blotters : Tab Blotter := []
  poison : List PoisonEntry := []
  poisonOverflow : Nat := 0
  poisonNoted : Bool := false
  evacs : Tab Evac := []
  scrubMin : Nat := 480
  metadataDone : List Nat := []
deriving DecidableEq, Repr

/-- Engines, sprays, translation and fault batches (07 to 09). -/
structure EngSt where
  logEng : Tab LogEng := []
  phys : Tab PhysEng := []
  threads : Tab Thread := []
  threadPtr : Tab Nat := []
  scratch : List Host.Cell := []
  priv : List Host.Cell := []
  tiles : Tab Tile := []
  nextTile : Nat := 0
  accesses : Tab Access := []
  nextAccess : Nat := 0
  tlb : Tab (List TlbEntry) := []
  /-- upper-level entries that each table walker caches, by region times 32 plus walker: ASID, level, first 64 KiB unit of what the entry covers (07, R192) -/
  walkers : Tab (List (Nat × Nat × Nat)) := []
  asids : Tab AddrSpace := []
  collect : Tab FaultCol := []
  batches : List Batch := []
  batchSeq : Nat := 0
  ring : Option FaultRing := none
  ringWithdrawn : Bool := false
  /-- fault timeouts set by FAULT_POLICY, newest first: since when, ms; 100 ms before them (07, R199) -/
  timeouts : List (Nat × Nat) := []
  invals : List Inval := []
  nextInval : Nat := 0
  accords : Tab Accord := []
  sprays : Tab Spray := []
  launches : Nat := 0
  opPages : Nat := 0
  forwards : List Forward := []
  lateResponses : Nat := 0
deriving DecidableEq, Repr

/-- Fabric ports and Darinlink (10, 11). -/
structure LinkSt where
  ports : Tab Port := []
  pairs : Tab PairBuf := []
  failovers : Tab Failover := []
  /-- pairs lost that have had no ACTIVE port since (10, R274; 12, Table 12.8) -/
  pairsLost : List Nat := []
  points : List HeldPoint := []
  nextQuery : Nat := 0
  modPtr : Nat := 0
  dl : Darinlink := {}
  dups : Nat := 0
  dupSeen : List (Nat × Nat × Nat) := []
deriving DecidableEq, Repr

/-- Faults, spares and degraded service (12). -/
structure FaultSt where
  regions : Tab RegionFault := []
  hubFence : Option FaultRecord := none
  drydown : Option FaultRecord := none
  haltRec : Option FaultRecord := none
  halted : Bool := false
  out : List OutUnit := []
  /-- units whose replacement is under way: of the hub or a region, region, unit (12, R320) -/
  replacing : List (Bool × Nat × Nat) := []
  /-- units that failed a slice and stay out of service, their carriers in their place: of the hub or a region, region, unit, segment (14, R345) -/
  carriers : List (Bool × Nat × Nat × Nat) := []
  log : List FaultRecord := []
  nextSeq : Nat := 0
  noteTimes : List Nat := []
  linksFenced : List Nat := []
  slicesBypassed : List Nat := []
  /-- ways lost of a set, and of these those its spare way replaces, keyed (region times 16 plus slice) times 4096 plus set -/
  waysLost : Tab (Nat × Nat) := []
  sramRows : Tab Nat := []
  pairActive : Nat := 0
  pairSpareFree : Bool := true
  pllActive : Nat := 0
  pllSpareFree : Bool := true
  takeover : Bool := false
  /-- pointers over the error lines of each collector, the hub's as 4 (12, Table 12.14; 04, Table 4.15) -/
  linePtrs : Tab Nat := []
deriving DecidableEq, Repr

/-- Ownership, orders, keys, images (11, 13). -/
structure HubSt where
  endpointId : Option Nat := none
  mgrA : Option Nat := none
  mgrB : Option Nat := none
  orderService : Bool := false
  timeSet : Bool := false
  calendarUs : Nat := 0
  calendarTimebase : Nat := 0
  owner : Option Nat := none
  leaseEnd : Nat := 0
  election : Option Election := none
  everElected : Bool := false
  handover : Option Handover := none
  masters : Tab Master := []
  mgmtKeys : Tab MgmtKey := []
  prepared : List Prepared := []
  /-- accepted orders not yet answered: header, the master that sent each, code (11, R283, R285) -/
  accepted : List (OrderHdr × Nat × Nat) := []
  /-- orders that wait, in order of arrival: for the exchange of the management pairs, key orders for the slice of the security core (14, R353, Table 14.2) -/
  heldOrders : List Instr := []
  /-- since when the hub waits to exchange its management pairs (14, R353) -/
  exchangeSince : Option Nat := none
  ready : Bool := false
  readyOnce : Bool := false
  misrouted : Nat := 0
  discarded : Nat := 0
  staleSnoops : Nat := 0
  /-- MSG_COUNTER [60:0] of regions 0 to 3 and of the hub (4) -/
  counters : Tab Nat := []
  orderPtr : Nat := 0
  tenants : Tab Tenant := []
  removals : List Removal := []
  keyRevoked : BitVec 4 := 0
  svnFloor : Nat := 0
  /-- flash images: 0 slot A, 1 slot B, 2 bundle copy 0, 3 bundle copy 1, where written since manufacture -/
  flash : Tab (List Byte) := []
  /-- places of flash whose write a loss of power cut short, with a free number: they fail R331 (13, R344) -/
  torn : Tab Nat := []
  /-- boot select records, copies 0 and 1: SEQ and slot -/
  bootSelect : Tab (Nat × Nat) := []
  /-- images being written or activated, in order of receipt -/
  fwWork : List FwWork := []
  bootStatus : BitVec 16 := 0
  runSlot : Nat := 0
  fwMeasure : Digest := 0
  bundleMeasure : Digest := 0
  fwSvn : Nat := 0
  fwVersion : Nat := 0
  fwKeyIndex : Nat := 0
  measured : List (Option Measured) := [none, none, none, none, none, none]
  fuseRows : Tab Nat := []
  /-- the status window as of the last tick: its words that are not zero, by offset (11, R305) -/
  window : Tab Nat := []
deriving DecidableEq, Repr

/-- Self-test and lifetime records (14). -/
structure LifeSt where
  bist : Tab Bist := []
  lastSlice : Option Nat := none
  stackTest : Option Nat := none
  stackTested : Tab Nat := []
  fuseChecked : Tab Nat := []
  /-- counters of Table 14.7 by offset, and of Table 14.8 by group times 256 plus offset -/
  counters : Tab Nat := []
  log : List LogRec := []
  buffer : List LogRec := []
  logSeq : Nat := 0
  blockSeq : Nat := 0
  /-- headers of the blocks written, by place in the ring of 767 (14, R357) -/
  blocks : Tab LogBlock := []
  /-- place of the block written last; the first block of an empty ring takes place 0 (log entry 13) -/
  blockPlace : Nat := 766
  /-- 64 B units in use in the block being written, its header included -/
  blockUsed : Nat := 0
  /-- places of the blocks retired (14, R357) -/
  badPlaces : List Nat := []
  lastCheckpoint : Nat := 0
  /-- pointer over the regions whose slices fall due at once (14, Table 14.13) -/
  regionPtr : Nat := 0
deriving DecidableEq, Repr

/-- Power, clocks, reset and sideband (15). -/
structure PowerSt where
  pwrOk : Bool := true
  pwrOkSince : Nat := 0
  resetN : Bool := false
  stage : Stage := .held
  startAt : Nat := 0
  /-- when the power-down sequence or the shutdown of MODULE_RESET began (15, Table 15.10) -/
  downAt : Nat := 0
  resetCause : Nat := 0
  stacksTrained : List Nat := []
  portsDone : List Nat := []
  selfTested : List Nat := []
  inputMv : Nat := 0
  inputMa : Nat := 0
  inputW : Nat := 0
  inputPeak : List (Nat × Nat) := []
  rangeSince : Option Nat := none
  level : Nat := 0
  lastRaise : Option Nat := none
  below90Since : Option Nat := none
  overSince : Option Nat := none
  ownerLimit : Nat := 1900
  newLimits : List (Nat × OrderHdr) := []
  phasesFailed : Tab (List Nat) := []
  /-- spare phases switched in, by rail (15, R364) -/
  phasesUsed : Tab (List Nat) := []
  /-- causes of HALT whose condition has raised its fault and still holds (15, R363, R374) -/
  raisedCauses : List Nat := []
  dieTemp : Tab Nat := []
  dieHold : Bool := false
  thermalWarn : Bool := false
  coolSince : Option Nat := none
  thermtrip : Bool := false
  tripped : Bool := false
  /-- PWR_OK seen low since the trip, and since when -/
  lowSince : Option Nat := none
  refPresent : Bool := true
  refLostAt : Option Nat := none
  refLosses : Nat := 0
  i3cHigh : Bool := false
  i3cAddress : Option Nat := none
  i3cOffset : Nat := 0
  jtag : JtagInstr := .idcode
  boundary : List Bool := []
  pinsDriven : Bool := false
  /-- accesses of the TAP that wait for the end of its slice, in order of arrival: instruction, bits shifted in (14, Table 14.2) -/
  jtagHeld : List (JtagInstr × List Bool) := []
  /-- work has ended for a shutdown (15, Table 15.10) -/
  halting : Bool := false
  /-- the shutdown is MODULE_RESET's: a reset with power kept follows (15, R377) -/
  resetting : Bool := false
deriving DecidableEq, Repr

/-- The state of the module. -/
structure State where
  pending : List Instr := []
  time : TimeSt := {}
  extents : Tab Extent := []
  revokes : List Revoke := []
  violations : List Violation := []
  violationOverflow : Nat := 0
  violationNoted : Bool := false
  coh : CohSt := {}
  mem : MemSt := {}
  eng : EngSt := {}
  link : LinkSt := {}
  fault : FaultSt := {}
  hub : HubSt := {}
  life : LifeSt := {}
  power : PowerSt := {}
  wire : List WireRec := []
deriving DecidableEq, Repr

/-- The module after reset (15, R373): PWR_OK high, RESET_N low, every register at its reset value, no command waiting.
Registers the spec gives no reset value take the values of log entries 9 and 10. -/
def State.reset : State := {}

/-- Reasons the block stops with a fault: there is none, since every command has an effect or changes nothing. -/
inductive Fault where
deriving DecidableEq, Repr

/-- Reasons a command has no meaning here. -/
inductive Refusal where
  /-- Raised by the dispatch arm of a command that has not its meaning yet; safe. -/
  | notModelled (mnemonic : String)
deriving DecidableEq, Repr

end Sys2Proof.Machine
end

