-- ==== Sys2Proof/Machine/Ops.lean ====
section
/-! DEFINITION. The named operations over the state: where numbered things are kept, lifetime counters and event records, NOTE faults, extents and their mapping. -/

namespace Sys2Proof.Machine

/-- What a meaning answers. -/
abbrev Result := Host.Outcome State Fault Refusal

/-- The effect where the event's trigger holds, no change where it does not (log entry 3). -/
def when (c : Bool) (s t : State) : Result := .next (if c then t else s)

/-! ### Time -/

/-- The model's clock, 4 ns units; every interval is measured on it (log entry 2). -/
def now (s : State) : Nat := s.time.clock

/-- The timebase count that stamps carry (15, R371). -/
def stamp (s : State) : Nat := s.time.timebase

/-- Number of the next free value (log entry 8). -/
def freeNo (s : State) : Nat := s.time.free

/-- The free values just used are spent. -/
def useFreeN (s : State) (n : Nat) : State := { s with time := { s.time with free := s.time.free + n } }
def useFree (s : State) : State := useFreeN s 1

/-- A write-back cache of a number of places takes a key it has read or written; of a full one some key is evicted, one modified to its backing copy: which, the spec leaves open (04, R89; 05, R120; log entry 8). -/
def cachePut (s : State) (l : List (Nat × Bool)) (places key : Nat) (written : Bool) : List (Nat × Bool) × State :=
  if l.any (fun x => x.1 == key) then (l.map (fun x => if x.1 = key then (key, x.2 || written) else x), s)
  else if l.length < places then (l ++ [(key, written)], s)
  else (l.eraseIdx ((Config.freeBits 16 (freeNo s)).toNat % max 1 l.length) ++ [(key, written)], useFree s)

/-- A deadline has been reached: d units since t. -/
def passed (s : State) (t d : Nat) : Bool := decide (t + d ≤ now s)

/-! ### Numbered parts of the state -/

def regionOf (s : State) (k : Nat) : RegionSt := tget s.coh.regions k {}
def modRegion (s : State) (k : Nat) (f : RegionSt → RegionSt) : State :=
  { s with coh := { s.coh with regions := tmod s.coh.regions k {} f } }

def hostOf (s : State) (h : Nat) : HostRec := tget s.coh.hosts h {}
def bucketOf (r : RegionSt) (h : Nat) : Bucket := tget r.buckets h {}

def slotOf (s : State) (n : Nat) : Slot := tget s.coh.slots n {}
def setSlot (s : State) (n : Nat) (v : Slot) : State := { s with coh := { s.coh with slots := tset s.coh.slots n v } }

def dirOf (s : State) (w : Nat) : DirEntry := tget s.coh.dir w {}
/-- An entry in state I is all zero and is not listed. -/
def setDir (s : State) (w : Nat) (e : DirEntry) : State :=
  { s with coh := { s.coh with dir := if e = {} then tdel s.coh.dir w else tset s.coh.dir w e } }

def lineOf (s : State) (l : Nat) : LineSt := tget s.coh.lines l {}
def setLine (s : State) (l : Nat) (v : LineSt) : State :=
  { s with coh := { s.coh with lines := if v = {} then tdel s.coh.lines l else tset s.coh.lines l v } }

/-- Physical stack number: region times 5 plus position (05, R142). -/
def stackOf (s : State) (p : Nat) : Stack := tget s.mem.stackTab p {}
def modStack (s : State) (p : Nat) (f : Stack → Stack) : State :=
  { s with mem := { s.mem with stackTab := tmod s.mem.stackTab p {} f } }

def chanOf (s : State) (p c : Nat) : Chan := tget s.mem.chans (p * 32 + c) {}
def modChan (s : State) (p c : Nat) (f : Chan → Chan) : State :=
  { s with mem := { s.mem with chans := tmod s.mem.chans (p * 32 + c) {} f } }

def pchanOf (s : State) (p c pc : Nat) : PChan := tget s.mem.pchans ((p * 32 + c) * 2 + pc) {}
def modPchan (s : State) (p c pc : Nat) (f : PChan → PChan) : State :=
  { s with mem := { s.mem with pchans := tmod s.mem.pchans ((p * 32 + c) * 2 + pc) {} f } }

/-- The physical stack that serves a logical stack, if any (05, Table 5.12, MAPPED and LOGICAL_ID). -/
def servedBy (s : State) (l : Nat) : Option Nat :=
  (List.range 20).find? (fun p => (stackOf s p).mapped && (stackOf s p).logicalId == l)

def portOf (s : State) (n : Nat) : Port := tget s.link.ports n {}
def modPort (s : State) (n : Nat) (f : Port → Port) : State :=
  { s with link := { s.link with ports := tmod s.link.ports n {} f } }

def masterOf (s : State) (m : Nat) : Master := tget s.hub.masters m {}
def modMaster (s : State) (m : Nat) (f : Master → Master) : State :=
  { s with hub := { s.hub with masters := tmod s.hub.masters m {} f } }

def regFault (s : State) (k : Nat) : RegionFault := tget s.fault.regions k {}
def modRegFault (s : State) (k : Nat) (f : RegionFault → RegionFault) : State :=
  { s with fault := { s.fault with regions := tmod s.fault.regions k {} f } }

def sprayOf? (s : State) (n : Nat) : Option Spray := tget? s.eng.sprays n
def setSpray (s : State) (n : Nat) (v : Spray) : State := { s with eng := { s.eng with sprays := tset s.eng.sprays n v } }
def modSpray (s : State) (n : Nat) (f : Spray → Spray) : State :=
  match sprayOf? s n with
  | some v => setSpray s n (f v)
  | none => s

def tenantOf? (s : State) (t : Nat) : Option Tenant := tget? s.hub.tenants t
def modTenant (s : State) (t : Nat) (f : Tenant → Tenant) : State :=
  match tenantOf? s t with
  | some v => { s with hub := { s.hub with tenants := tset s.hub.tenants t (f v) } }
  | none => s

def bistOf (s : State) (k : Nat) : Bist := tget s.life.bist k {}
def modBist (s : State) (k : Nat) (f : Bist → Bist) : State :=
  { s with life := { s.life with bist := tmod s.life.bist k {} f } }

/-- The module's endpoint ID, zero until one is assigned (11, Table 11.14). -/
def selfId (s : State) : Nat := s.hub.endpointId.getD 0

/-- Region of a module port, plane times 16 plus n (00, Names). -/
def portRegion (n : Nat) : Nat := n % 16 / 4

/-- The partner port. -/
def partner (n : Nat) : Nat := (n + 16) % 32

/-- Port with requester number i at region k's port arbitration (04, Table 4.15). -/
def regionPort (k i : Nat) : Nat := if i < 4 then 4 * k + i else 16 + 4 * k + (i - 4)

/-! ### Counts of items in flight (02, Table 2.1; 13, R338) -/

def epochAdd (s : State) (tenant : Nat) (epoch : Option Nat) : State :=
  match epoch with
  | some e => modTenant s tenant (fun t => { t with inFlight := tmod t.inFlight e 0 (· + 1) })
  | none => s

def epochSub (s : State) (tenant : Nat) (epoch : Option Nat) : State :=
  match epoch with
  | some e => modTenant s tenant (fun t => { t with inFlight := tmod t.inFlight e 0 (· - 1) })
  | none => s

def epochCount (s : State) (tenant epoch : Nat) : Nat :=
  match tenantOf? s tenant with
  | some t => tget t.inFlight epoch 0
  | none => 0

/-! ### Extents (02) -/

def extentOf (s : State) (n : Nat) : Extent := tget s.extents n {}
/-- A record with all fields zero is not listed. -/
def setExtent (s : State) (n : Nat) (e : Extent) : State :=
  { s with extents := if e = {} then tdel s.extents n else tset s.extents n e }
def modExtent (s : State) (n : Nat) (f : Extent → Extent) : State := setExtent s n (f (extentOf s n))

/-- The limit of module offsets, 896 GiB (01, R23). -/
def offsetLimit : Nat := 0xE000000000

/-- The extent not FREE that holds a module offset (02, R36). -/
def extentAt (s : State) (offset : Nat) : Option Nat :=
  let g := offset >>> 21
  (s.extents.find? (fun e => e.2.st != .free && decide (e.2.base ≤ g) && decide (g < e.2.base + e.2.size))).map Prod.fst

/-- Units of 128 KiB an extent uses on each stack of its placement (02, R39). -/
def extentUnits (e : Extent) : Nat :=
  if e.kind = 0 then e.size else if e.kind = 1 then 4 * e.size else 16 * e.size

/-- Whether an extent's placement uses a logical stack (02, R39). -/
def placed (e : Extent) (l : Nat) : Bool :=
  if e.kind = 0 then decide (l < 16) else if e.kind = 1 then l / 4 == e.target else l == e.target

/-- Where a module offset lies: logical stack, stripe, data chunk index (02, R38). -/
structure Place where
  lstack : Nat
  stripe : Nat
  index : Nat
deriving DecidableEq, Repr

/-- The mapping of a module offset under an extent (02, R38). -/
def mapOffset (e : Extent) (offset : Nat) : Place :=
  let o := offset - e.base * 2 ^ 21
  let b := o >>> 12
  let q := (o >>> 8) % 16
  let region := if e.kind = 0 then b % 4 else if e.kind = 1 then e.target else e.target >>> 2
  let position := if e.kind = 0 then (b >>> 2) % 4 else if e.kind = 1 then b % 4 else e.target % 4
  let local_ := if e.kind = 0 then b >>> 4 else if e.kind = 1 then b >>> 2 else b
  let d := e.physBase * 512 + local_ * 16 + q
  { lstack := 4 * region + position, stripe := d >>> 4, index := d % 16 }

/-- The extent and the module offset of the first chunk of a data stripe, where a held unit contains it (02, R38 and R39 read backward). -/
def stripeOwner (s : State) (l stripe : Nat) : Option (Nat × Nat) :=
  let unit := stripe / 32
  match s.extents.find? (fun e => e.2.st != .free && placed e.2 l && decide (e.2.physBase ≤ unit) && decide (unit < e.2.physBase + extentUnits e.2)) with
  | none => none
  | some (n, e) =>
    let local_ := stripe - e.physBase * 32
    let b :=
      if e.kind = 0 then local_ * 16 + (l % 4) * 4 + l / 4
      else if e.kind = 1 then local_ * 4 + l % 4
      else local_
    some (n, e.base * 2 ^ 21 + b * 4096)

/-- First metadata stripe and number of stripes of a logical stack (05). -/
def metaStripe : Nat := 14680064
def stripeCount : Nat := 15790304

/-- The home region of a module offset: the region of its logical stack; without an extent, region 0 (04, R88). -/
def homeRegion (s : State) (offset : Nat) : Nat :=
  match extentAt s offset with
  | some n => (mapOffset (extentOf s n) offset).lstack / 4
  | none => 0

/-- Window index of a line of a coherent extent (04, R89). -/
def windowIndex (e : Extent) (offset : Nat) : Nat := e.dirBase * 8192 + (offset - e.base * 2 ^ 21) / 256

/-- The rights a source holds through enabled ranges that a condition picks: READ 1, WRITE 2, COHERENT 4 (02, R37). -/
def rightsOf (access : List (BitVec 32)) (pick : BitVec 32 → Bool) (source : Nat) : Nat :=
  access.foldl (fun acc a =>
    let n := a.toNat
    if bit n 31 && pick a && decide (bits n 11 0 ≤ source) && decide (source ≤ bits n 23 12)
    then acc ||| (b2n (bit n 28) + 2 * b2n (bit n 29) + 4 * b2n (bit n 30)) else acc) 0

/-- The slot of a source that is BOUND, or SWEEPING where that counts (04, R106). -/
def slotHeld (s : State) (source : Nat) (sweeping : Bool) : Option Nat :=
  (s.coh.slots.find? (fun e =>
    (e.2.st == .bound || (sweeping && e.2.st == .sweeping)) &&
    (if e.1 = 0 then selfId s else e.2.host) == source)).map Prod.fst

/-! ### Lifetime counters and event records (14) -/

def lifeAdd (s : State) (key n : Nat) : State :=
  { s with life := { s.life with counters := tmod s.life.counters key 0 (fun v => satAdd 64 v n) } }

/-- A stack counter of Table 14.8: group 1 + 5 × region + position. -/
def stackLife (s : State) (p off n : Nat) : State := lifeAdd s ((1 + p) * 256 + off) n

/-- Calendar time now, in µs (14, R359). -/
def calendarNow (s : State) : Nat :=
  if s.hub.timeSet then (s.hub.calendarUs + (stamp s - s.hub.calendarTimebase) / 250) % 2 ^ 64 else 0

/-- 64 B units of a log record: 32 B header, body, 4 B CRC (14, R357). -/
def recUnits (r : LogRec) : Nat := ceilDiv (36 + r.body.length) 64

/-- Drop the oldest waiting records while the 64 KiB buffer overflows (14, R358): at most one record is dropped per record added and per unit. -/
def trimBuffer : Nat → List LogRec → List LogRec × Nat
  | 0, l => (l, 0)
  | n + 1, l =>
    if (l.map recUnits).sum ≤ 1024 then (l, 0)
    else let r := trimBuffer n (l.drop 1); (r.1, r.2 + 1)

/-- A record joins the hub buffer, to be written to flash (14, R358); LOG_SEQ is given at the write. -/
def eventRec (s : State) (type : Nat) (body : List Byte) : State :=
  let r : LogRec := { timebase := stamp s, calendarUs := calendarNow s, seq := 0, boot := tget s.life.counters 0x008 0,
                      type := type, timeSet := s.hub.timeSet, body := body }
  let t := trimBuffer 64 (s.life.buffer ++ [r])
  lifeAdd { s with life := { s.life with buffer := t.1 } } 0x0B8 t.2

/-! ### The fault log and NOTE faults (12) -/

/-- A fault record as 32 bytes (12, Table 12.7). -/
def FaultRecord.bytes (r : FaultRecord) (valid : Bool) : List Byte :=
  leBytes 32 (packBits [(64, r.timestamp), (16, r.spareUsed.getD 0), (48, r.detail), (32, r.seq), (16, r.unit), (8, r.cause), (6, r.count),
    (2, r.region), (2, r.cls), (2, r.raised), (1, b2n r.escalated), (1, b2n r.hub), (1, b2n r.spareUsed.isSome), (1, b2n r.withheld),
    (1, b2n r.acked), (54, 0), (1, b2n valid)])

/-- A new entry of the fault log, copied to the lifetime record; the log keeps 512 (12, R317). -/
def logFault (s : State) (r : FaultRecord) : State × FaultRecord :=
  let r := { r with seq := s.fault.nextSeq, timestamp := stamp s }
  let log := s.fault.log ++ [r]
  let s := { s with fault := { s.fault with log := log.drop (log.length - 512), nextSeq := (s.fault.nextSeq + 1) % 2 ^ 32 } }
  (lifeAdd (eventRec s 0x05 (r.bytes true)) 0x0A8 1, r)

/-- One second, 4 ns units. -/
def second : Nat := 250000000

/-- A NOTE fault: logged, or merged into an equal entry of the last 1 s; the write is its acknowledgement (12, R311). -/
def note (s : State) (hub : Bool) (region unit cause detail : Nat) : State :=
  let s := { s with fault := { s.fault with noteTimes := ((s.fault.noteTimes.filter (fun t => decide (now s < t + second))) ++ [now s]) } }
  let s := if hub then s else modRegFault s region (fun r => { r with lastNote := cause, noteCount := (r.noteCount + 1) % 256 })
  let same := fun (r : FaultRecord) => r.cls == 0 && r.hub == hub && r.region == region && r.unit == unit && r.cause == cause
    && decide (stamp s < r.timestamp + second)
  if s.fault.log.any same then
    { s with fault := { s.fault with log := s.fault.log.map (fun r => if same r then { r with count := min 63 (r.count + 1) } else r) } }
  else (logFault s { detail := detail, unit := unit, cause := cause, region := region, hub := hub, acked := true }).1

/-- A NOTE of a region unit. -/
def noteR (s : State) (region unit cause : Nat) (detail : Nat := 0) : State := note s false region unit cause detail

/-- A NOTE of the hub, tied to no unit. -/
def noteHub (s : State) (cause : Nat) (detail : Nat := 0) : State := note s true 0 0 cause detail

/-! ### Saturating counters of the status window (11, Table 11.13) -/

def countDiscard (s : State) : State := { s with hub := { s.hub with discarded := satInc 64 s.hub.discarded } }
def countMisrouted (s : State) : State := { s with hub := { s.hub with misrouted := satInc 64 s.hub.misrouted } }

/-- A record of what leaves the module (log entry 7). -/
def emit (s : State) (r : WireRec) : State := { s with wire := s.wire ++ [r] }

end Sys2Proof.Machine
end

