-- ==== Sys2Proof/Machine/Idle.lean ====
section
/-! DEFINITION. What happens when no command waits: 4 ns pass (15, R371). -/

namespace Sys2Proof.Machine

/-- A stack's domain is on (15, Table 15.3). -/
def stackPowered (x : Stack) : Bool := x.st != .off && x.st != .fenced

/-- A whole second of the timebase has passed: the counters of seconds advance (14, Tables 14.7 and 14.8). -/
def secondTick (s : State) : State :=
  (List.range 20).foldl (fun s p =>
    let x := stackOf s p
    let s := if stackPowered x then stackLife s p 0x038 1 else s
    if stackPowered x && x.refresh2x then stackLife s p 0x018 1 else s) (lifeAdd s 0x000 1)

/-- 4 ns pass: the clock advances, and the timebase too once the hub reset is released (15, R371; log entry 2). -/
def idle (s : State) : State :=
  let s1 := { s with time := { s.time with
      clock := s.time.clock + 1
      timebase := if s.time.timebaseOn then (s.time.timebase + 1) % 2 ^ 64 else s.time.timebase } }
  if s.time.timebaseOn && s1.time.timebase % second == 0 then secondTick s1 else s1

end Sys2Proof.Machine
end

