-- ==== Sys2Proof/Machine/Records.lean ====
section
/-! DEFINITION. The records that orders and the status window show, laid out as their tables state. -/

namespace Sys2Proof.Machine

/-- A record of n bytes from its fields, high bits first. -/
def record (n : Nat) (fields : List (Nat × Nat)) : List Byte := leBytes n (packBits fields)

/-! ### 02, 03, 04 -/

def ExtState.code : ExtState → Nat
  | .free => 0 | .granted => 1 | .revoking => 2 | .scrubbing => 3

/-- Extent record (02, Table 2.1). -/
def Extent.bytes (e : Extent) : List Byte :=
  record 64 (((List.range 8).reverse.map (fun i => (32, (e.access.getD i 0).toNat))) ++
    [(19, e.physBase), (19, e.size), (19, e.base), (10, e.tenant), (2, e.kind), (4, e.target), (1, b2n e.measured), (2, e.st.code),
     (1, b2n e.coherent), (8, e.generation), (24, e.inFlight), (19, e.scrubDone), (64, e.grantStamp), (15, e.dirBase), (49, 0)])

/-- Violation log entry (02, Table 2.12). -/
def Violation.bytes (v : Violation) : List Byte :=
  record 32 [(64, v.timestamp), (16, v.repeatCount), (16, v.ext), (8, v.status), (8, v.opcode), (10, v.tenant), (12, v.source),
    (1, b2n v.viaDarinlink), (1, v.port / 16), (4, v.port), (1, b2n v.extValid), (2, v.region), (9, 0), (40, v.offset), (16, v.tag), (47, 0), (1, 1)]

/-- Host record in one region (03, Table 3.8). -/
def hostBytes (s : State) (h k : Nat) : List Byte :=
  let r := hostOf s h
  let b := bucketOf (regionOf s k) h
  record 16 [(24, b.tp), (24, b.tc), (8, r.weight), (20, r.pbs), (20, r.cbs), (16, r.pir), (16, r.cir)]

def DirState.code : DirState → Nat
  | .i => 0 | .s => 1 | .em => 2 | .lost => 3

/-- Directory entry (04, Table 4.1). -/
def DirEntry.bytes (e : DirEntry) : List Byte :=
  let sharers := e.sharers.foldl (fun n b => n ||| 2 ^ b) 0
  record 40 [(256, sharers), (8, e.ownerSlot), (8, e.ownerGen), (2, e.st.code), (1, b2n e.reported), (12, e.lostSource), (33, 0)]

def SlotState.code : SlotState → Nat
  | .free => 0 | .bound => 1 | .sweeping => 2 | .failed => 3

/-- HELD_COUNT: entries whose SHARERS bit for the slot is set (04, Table 4.9). -/
def heldCount (s : State) (n : Nat) : Nat := (s.coh.dir.filter (fun e => e.2.sharers.contains n)).length

/-- Slot record (04, Table 4.9). -/
def slotBytes (s : State) (n : Nat) : List Byte :=
  let r := slotOf s n
  record 8 [(2, r.st.code), (8, r.gen), (12, if n = 0 then selfId s else r.host), (29, heldCount s n), (13, 0)]

/-- LOST batch (04, Table 4.11). -/
def LostBatch.bytes (b : LostBatch) : List Byte :=
  record 256 (((List.range 56).reverse.map (fun i => (32, (b.entries.getD i 0) / 256))) ++
    [(64, b.timestamp), (32, b.seq), (12, b.source), (8, b.slot), (8, b.gen), (6, b.entries.length), (1, b2n b.last), (2, b.cause), (123, 0)])

/-! ### 05, 06 -/

def StackState.code : StackState → Nat
  | .off => 0 | .training => 1 | .serving => 2 | .outOfService => 3 | .rateChange => 4 | .fenced => 5 | .evacuating => 6

/-- The rate that the limits set: the lowest, so the highest code (05, R137). -/
def rateLimit (x : Stack) : Nat := max x.thermalLimit (max x.ownerLimit x.powerLimit)

/-- RATE_CAUSE: the limit that sets the rate, thermal first (05, Table 5.12, R130).
DESIGN CHOICE, log entry 27: owner before power where both hold the rate. -/
def rateCause (x : Stack) : Nat :=
  if x.rate = 0 then 0 else if x.thermalLimit = x.rate then 1 else if x.ownerLimit = x.rate then 2 else if x.powerLimit = x.rate then 3 else 0

/-- Stack status record (05, Table 5.12); a serving stack shows OUT_OF_SERVICE while it is outside normal service (05, R135). -/
def Stack.statusBytes (x : Stack) (normal : Bool) : List Byte :=
  record 16 [(32, x.parityReplays), (32, x.retrains), (32, x.fencedChans.foldl (fun n c => n ||| 2 ^ c) 0), (8, x.temp), (2, x.rate),
    (2, rateCause x), (1, b2n x.refresh2x), (3, if x.st = .serving ∧ !normal then 3 else x.st.code), (1, b2n x.mapped), (4, if x.mapped then x.logicalId else 0), (3, x.ownerLimit), (8, 0)]

def EvacState.code : EvacState → Nat
  | .none => 0 | .trainingSpare => 1 | .copying => 2 | .done => 3 | .abandoned => 4

/-- Integrity record (06, Table 6.4). -/
def Stack.integrityBytes (x : Stack) : List Byte :=
  record 32 [(32, x.ceWords), (32, x.ueRebuilt), (32, x.poisoned), (32, x.mismatch), (32, x.rowRepairs), (32, x.scrubPasses), (24, x.scrubPointer),
    (24, x.evacPointer), (4, x.evacState.code), (1, b2n x.scrubLate), (1, b2n x.repairExhausted), (10, 0)]

/-- Blotter entry of a region (06, Table 6.1). -/
def BlotEntry.bytes (e : BlotEntry) (k : Nat) : List Byte :=
  record 16 [(64, e.timestamp), (16, e.count), (2, k), (3, e.position), (5, e.chan), (23, e.place), (5, e.word), (7, e.bit), (2, e.source), (1, 1)]

/-- Poison log entry (06, Table 6.2). -/
def PoisonEntry.bytes (e : PoisonEntry) : List Byte :=
  record 32 [(64, e.timestamp), (32, e.offset / 256), (24, e.stripe), (5, e.position), (4, e.lstack), (3, e.physPosition), (3, e.cause),
    (1, b2n e.offsetValid), (16, e.ext), (103, 0), (1, 1)]

/-! ### 07 -/

/-- The physical engine that serves a logical one from manufacture: cluster i / 8, slot i mod 8 (07, R170). -/
def homeEngine (e : Nat) : Nat := e % 128 / 8 * 9 + e % 8

def logEngOf (s : State) (e : Nat) : LogEng := tget s.eng.logEng e { phys := homeEngine e }
def modLogEng (s : State) (e : Nat) (f : LogEng → LogEng) : State :=
  { s with eng := { s.eng with logEng := tmod s.eng.logEng e { phys := homeEngine e } f } }

/-- Physical engine of a region, cluster × 9 + slot; slots 0 to 7 serve, slot 8 is spare (07, R170). -/
def physOf (s : State) (k i : Nat) : PhysEng := tget s.eng.phys (k * 144 + i) { active := i % 9 != 8 }
def modPhys (s : State) (k i : Nat) (f : PhysEng → PhysEng) : State :=
  { s with eng := { s.eng with phys := tmod s.eng.phys (k * 144 + i) { active := i % 9 != 8 } f } }

/-- A spare engine is free: not fenced and serving none (07, R171). -/
def spareFree (s : State) (k i : Nat) : Bool := !(physOf s k i).fenced && !(physOf s k i).active

/-- Free spare engines of a region (12, Table 12.4). -/
def spareEngines (s : State) (k : Nat) : Nat := ((List.range 144).filter (spareFree s k)).length

/-! ### 10 -/

def PortState.code : PortState → Nat
  | .off => 0 | .training => 1 | .active => 2 | .cold => 3 | .bringup => 4 | .fenced => 5 | .held => 6 | .resync => 7

/-- Four hours, the life of saved state (10, R266), in 4 ns units. -/
def savedLife : Nat := 4 * 3600 * second

/-- Saved state is held and has not expired (10, R266). -/
def savedValid (s : State) (p : Port) : Bool :=
  match p.savedAt with
  | some t => decide (now s < t + savedLife)
  | none => false

/-- Port record (10, Table 10.10). -/
def portBytes (s : State) (n : Nat) : List Byte :=
  let p := portOf s n
  let age := match p.savedAt with | some t => min 0xFFFF ((now s - t) / (60 * second)) | none => 0
  record 32 [(32, p.retransmits), (32, p.crcFails), (32, p.fecUncorrectable), (32, p.orphansResent), (32, p.orphansUnknown), (32, p.dupDiscarded),
    (16, age), (8, p.failovers), (8, p.gen), (4, p.spareFor), (1, b2n p.narrow), (1, b2n (savedValid s p)), (3, p.st.code), (16, p.switchPort), (7, 0)]

/-- A pair with no working port (12, Table 12.8): neither port is in service or can be brought up, or it was lost and no port of it has become ACTIVE since (10, R274). -/
def pairLost (s : State) (n : Nat) : Bool :=
  let dead := fun (st : PortState) => st == .fenced || st == .held || st == .off
  let a := (portOf s n).st
  let b := (portOf s (n + 16)).st
  s.link.pairsLost.contains n || dead a && dead b && !(a == .off && b == .off)

/-! ### 12 -/

/-- A logical stack that a fault has left without a stack (12, Table 12.8): none serves it or trains for it, and its own, or the spare that took its place when its own was retired, is fenced (05, R140). -/
def stackLost (s : State) (l : Nat) : Bool :=
  let own := stackOf s (5 * (l / 4) + l % 4)
  let spare := stackOf s (5 * (l / 4) + 4)
  (servedBy s l).isNone && !(spare.st == .training && spare.logicalId == l) && (own.st == .fenced || (own.retired && spare.st == .fenced))

/-- The module is in drydown (12, R320). -/
def inDrydown (s : State) : Bool :=
  !s.fault.out.isEmpty || (List.range 16).any (stackLost s) || (List.range 4).any (fun k => (regFault s k).fenced)

/-- Region Fault Word (12, Table 12.4). -/
def regionWord (s : State) (k : Nat) : Nat :=
  let r := regFault s k
  let f : FaultRecord := r.fence.getD { count := 0 }
  packBits [(1, b2n r.fence.isSome), (1, b2n r.escalation), (6, f.count), (8, f.cause), (16, f.unit), (8, r.lastNote), (8, r.noteCount),
    (5, spareEngines s k), (1, b2n r.spareStackFree), (1, b2n (s.fault.out.any (fun o => !o.hub && o.region == k))), (1, b2n r.fenced), (8, 0)]

/-- One bit per number of a range for which a condition holds. -/
def mask (n : Nat) (f : Nat → Bool) : Nat := (List.range n).foldl (fun a i => if f i then a ||| 2 ^ i else a) 0

/-- Module Fault Word (12, Table 12.5). -/
def moduleWord (s : State) : Nat :=
  let d : FaultRecord := s.fault.drydown.getD { count := 0 }
  packBits [(1, b2n s.fault.halted), (8, (s.fault.haltRec.getD {}).cause), (1, b2n s.fault.drydown.isSome), (1, b2n d.escalated), (6, d.count), (8, d.cause),
    (2, d.region), (16, d.unit), (1, b2n s.fault.hubFence.isSome), (8, (s.fault.hubFence.getD {}).cause),
    (4, mask 4 (fun k => (regFault s k).fence.isSome)), (4, mask 4 (fun k => (regFault s k).fenced)), (1, b2n s.fault.pairSpareFree),
    (1, b2n s.fault.pllSpareFree), (1, b2n (inDrydown s)), (1, 0)]

/-- Tiles that wait on a fault in a region, in a batch or before one (07, R196; 11, FAULTS_WAITING). -/
def faultsWaiting (s : State) (k : Nat) : Nat := min 0xFFFF (tget s.eng.collect k {}).waiting.length

/-- ALERT_CAUSE (12, Table 12.6). -/
def alertCause (s : State) : Nat :=
  packBits [(52, 0), (1, b2n (decide (0 < s.power.level))), (1, b2n s.power.thermalWarn),
    (1, b2n (decide (64 ≤ (s.fault.noteTimes.filter (fun t => decide (now s < t + second))).length))),
    (1, b2n ((List.range 4).any (fun k => decide (0 < faultsWaiting s k)))), (1, b2n (decide (256 ≤ s.violations.length))),
    (1, b2n (!s.mem.poison.isEmpty)), (1, b2n (!s.coh.lost.isEmpty)), (1, b2n (s.hub.owner.isNone && s.hub.readyOnce)), (1, b2n (inDrydown s)),
    (1, b2n s.fault.halted), (1, b2n s.fault.drydown.isSome), (1, b2n (s.fault.hubFence.isSome || (List.range 4).any (fun k => (regFault s k).fence.isSome)))]

/-- The hub is out of reset; before that, and unpowered, every output is released (15, R373, R379; Table 15.9, step 3). -/
def outputsDriven (s : State) : Bool := s.power.stage == .running || s.power.stage == .poweringDown || s.power.stage == .bootFailed

/-- ALERT_N is asserted while any bit of ALERT_CAUSE is 1 (12, R316). -/
def alertAsserted (s : State) : Bool := outputsDriven s && alertCause s != 0
/-- FAULT_N is asserted while HALT or DRYDOWN_PENDING is 1 (12, R316). -/
def faultAsserted (s : State) : Bool := outputsDriven s && (s.fault.halted || s.fault.drydown.isSome)

/-- PRSNT_N is tied to the module's ground: a module that is there shows it low, powered or not (15, Table 15.13). -/
def presentLow (_s : State) : Bool := true

/-- Degraded summary (12, Table 12.8). -/
def degraded (s : State) : Nat :=
  packBits [(4, 0), (8, mask 8 (fun i => s.fault.linksFenced.contains i)), (6, min 63 s.fault.slicesBypassed.length),
    (10, (s.eng.logEng.filter (fun e => e.2.adoptedBy.isSome)).length), (16, mask 16 (pairLost s)), (4, mask 4 (fun k => (regFault s k).fenced)),
    (16, mask 16 (stackLost s))]

/-- A pending record, or an empty one with VALID 0. -/
def pendingBytes (r : Option FaultRecord) : List Byte :=
  match r with
  | some r => r.bytes true
  | none => List.replicate 32 0

/-- Chip result of FAULT_READ (12, R318). -/
def chipResult (s : State) : List Byte :=
  leBytes 8 (moduleWord s) ++ leBytes 8 (alertCause s) ++ pendingBytes s.fault.drydown ++ pendingBytes s.fault.haltRec ++ pendingBytes s.fault.hubFence
    ++ leBytes 8 (degraded s)

/-! ### 11 -/

/-- Lease left, 10 µs units (11, Table 11.2). -/
def leaseLeft (s : State) : Nat := if s.hub.owner.isSome then min 0xFFFF ((s.hub.leaseEnd - now s) / 2500) else 0

/-- MODULE_STATE (11, Table 11.14). -/
def moduleState (s : State) : Nat :=
  let dl := match s.link.dl.st with | .down => 0 | .training => 1 | .active => if s.link.dl.width = 0 then 2 else 3
  packBits [(12, selfId s), (1, b2n s.hub.endpointId.isSome), (16, leaseLeft s), (2, s.hub.owner.getD 0), (1, b2n s.hub.owner.isSome),
    (1, b2n s.hub.election.isSome), (1, b2n s.hub.handover.isSome), (2, (s.hub.handover.map (·.target)).getD 0), (1, b2n s.hub.orderService),
    (1, b2n s.hub.timeSet), (1, b2n s.hub.ready), (1, b2n s.fault.halted), (1, b2n (inDrydown s)), (1, s.hub.runSlot), (2, dl),
    (1, b2n (tget? s.hub.mgmtKeys 1).isSome), (1, b2n (tget? s.hub.mgmtKeys 2).isSome), (18, 0)]

/-! ### 15 -/

/-- Spare phases of a rail, and its least number of working phases and their number (15, Table 15.4). -/
def railPhases (r : Nat) : Nat × Nat × Nat :=
  if r < 4 then (20, 2, 18) else if r < 8 then (6, 0, 5) else if r < 12 then (8, 0, 6) else (10, 2, 8)

/-- A phase of a rail has failed. -/
def phaseFailed (s : State) (r n : Nat) : Bool := (tget s.power.phasesFailed r []).contains n

/-- A phase of a rail serves: a working one, or a spare that has been switched in, that has not failed (15, R364). -/
def phaseServes (s : State) (r n : Nat) : Bool :=
  !phaseFailed s r n && (decide (n < (railPhases r).1) || (tget s.power.phasesUsed r []).contains n)

/-- Phases on which a rail runs. -/
def phasesIn (s : State) (r : Nat) : Nat := ((List.range ((railPhases r).1 + (railPhases r).2.1)).filter (phaseServes s r)).length

/-- Spare phases of a rail that are neither switched in nor failed (12, Table 12.10). -/
def freePhases (s : State) (r : Nat) : List Nat :=
  ((List.range (railPhases r).2.1).map ((railPhases r).1 + ·)).filter (fun n => !phaseFailed s r n && !(tget s.power.phasesUsed r []).contains n)

/-- Phases lost without a spare, over all rails: those withheld among them (15, R364, R365). -/
def phasesLost (s : State) : Nat := ((List.range 13).map (fun r => (railPhases r).1 - phasesIn s r)).sum

/-- Spare phases free, over all rails (15, Table 15.17). -/
def phasesFree (s : State) : Nat := ((List.range 13).map (fun r => (freePhases s r).length)).sum

/-- The power ceiling, W (15, R365). -/
def powerCeiling (s : State) : Nat := min s.power.ownerLimit (1900 - 60 * phasesLost s)

/-- The most of a list of numbers. -/
def largest (l : List Nat) : Nat := l.foldl max 0

/-- Telemetry (15, Table 15.17), by offset in the status window. -/
def telemetry (s : State) : Tab Nat :=
  let temp := fun i => (stackOf s i).temp
  let dies := (List.range 5).map (fun k => tget s.power.dieTemp k 0)
  let peak := largest ((s.power.inputPeak.filter (fun e => decide (now s < e.1 + second))).map Prod.snd)
  [(0x100, packBits [(16, peak), (16, s.power.inputW), (16, s.power.inputMa / 10), (16, s.power.inputMv / 10)]),
   (0x108, packBits [(8, 0), (8, phasesFree s), (8, phasesLost s), (4, 0), (1, b2n (decide (0 < s.power.level))), (3, s.power.level), (16, s.power.ownerLimit),
      (16, powerCeiling s)]),
   (0x110, ofLe (dies.map (BitVec.ofNat 8))),
   (0x118, ofLe ((List.range 8).map (fun i => BitVec.ofNat 8 (temp i)))),
   (0x120, ofLe ((List.range 8).map (fun i => BitVec.ofNat 8 (temp (8 + i))))),
   (0x128, ofLe ((List.range 4).map (fun i => BitVec.ofNat 8 (temp (16 + i))))),
   (0x130, packBits [(40, 0), (8, largest ((List.range 20).map temp)), (8, largest dies), (6, 0), (1, b2n s.power.dieHold), (1, b2n s.power.thermalWarn)]),
   (0x138, packBits [(32, tget s.life.counters 0x008 0), (12, 0), (4, s.power.resetCause), (16, s.hub.bootStatus.toNat)]),
   (0x140, packBits [(32, 0), (16, s.power.refLosses), (13, 0), (1, b2n (!s.power.refPresent)), (1, s.fault.pllActive), (1, b2n s.power.refPresent)])]

/-- The status window, word by word (11, Table 11.13). -/
def statusWindow (s : State) : Tab Nat :=
  let m := fun (x : Option Nat) => packBits [(1, b2n x.isSome), (12, x.getD 0)]
  let ports := fun b => ((List.range 16).map (fun n => (portOf s (b + n)).st.code <<< (4 * n))).sum
  let counted := fun (st : ExtState) => (s.extents.filter (fun e => e.2.st == st)).length
  let auth := (s.coh.authFail.map (fun e => (0x1000 + e.1 / 4 * 8, e.2 <<< (16 * (e.1 % 4)))))
  let words :=
    [(0x00, moduleState s), (0x08, moduleWord s), (0x10, alertCause s), (0x18, stamp s), (0x20, s.hub.calendarUs), (0x28, s.hub.calendarTimebase),
     (0x30, m s.hub.mgrA ||| (m s.hub.mgrB <<< 16)), (0x38, ((List.range 4).map (fun i => (masterOf s i).outstanding <<< (8 * i))).sum)]
    ++ ((List.range 4).map (fun k => (0x40 + 8 * k, regionWord s k)))
    ++ [(0x60, ports 0), (0x68, ports 16),
     (0x70, packBits [(20, counted .scrubbing), (20, counted .revoking), (20, counted .granted)]),
     (0x78, packBits [(9, s.violations.length), (32, s.violationOverflow)]),
     (0x80, packBits [(9, s.mem.poison.length), (32, s.mem.poisonOverflow)]),
     (0x88, s.coh.lost.length),
     (0x90, packBits [(32, s.eng.batchSeq), (22, 0), (10, (s.eng.ring.map (·.head)).getD 0)]),
     (0x98, ((List.range 4).map (fun k => (faultsWaiting s k) <<< (16 * k))).sum),
     (0xA0, s.eng.sprays.length), (0xA8, s.eng.lateResponses), (0xB0, s.link.dups), (0xB8, s.hub.misrouted), (0xC0, s.hub.discarded),
     (0xC8, s.hub.staleSnoops),
     (0xD0, packBits [(32, s.link.dl.dropped), (16, s.link.dl.fullTrainings), (16, s.link.dl.recoveries)])]
    ++ telemetry s
  let base := words.filter (fun w => w.2 != 0)
  auth.foldl (fun t w => tmod t w.1 0 (· ||| w.2)) base

/-- Bytes of the window as of the last tick (11, R305). -/
def windowBytes (s : State) (offset n : Nat) : List Byte :=
  (List.range (n / 8)).flatMap (fun i => leBytes 8 (tget s.hub.window (offset + 8 * i) 0))

/-- A read of AUTH_FAIL_COUNT re-arms the AUTH_FAIL NOTE of the hosts it covers (11, R305). -/
def rearmAuth (s : State) (offset n : Nat) : State :=
  { s with coh := { s.coh with authNoted := s.coh.authNoted.filter (fun h => !(decide (offset ≤ 0x1000 + 2 * h) && decide (0x1000 + 2 * h < offset + n))) } }

/-! ### 13, 14 -/

/-- Measurement entry (13, Table 13.9). -/
def measuredBytes (m : Option Measured) : List Byte :=
  match m with
  | none => List.replicate 64 0
  | some m => record 16 [(64, m.stamp), (22, 0), (10, m.tenant), (6, 0), (1, b2n m.writeOpen), (1, b2n m.valid), (8, m.generation), (16, m.ext)]
      ++ beBytes 48 m.digest.toNat

/-- Slice entry (14, Table 14.5). -/
def SliceEntry.bytes (e : SliceEntry) : List Byte :=
  record 16 [(64, e.timestamp), (16, e.unit), (8, e.segment), (4, e.outcome), (16, e.duration), (13, e.catchUp), (6, 0), (1, 1)]

/-- A FENCE or DRYDOWN record is pending (14, R348). -/
def recordPending (s : State) : Bool :=
  s.fault.hubFence.isSome || s.fault.drydown.isSome || (List.range 4).any (fun k => (regFault s k).fence.isSome)

/-- Draw of the stack test, tenths of a watt (14, R354). -/
def stackDraw : Nat := 350

/-! ### Units under test (14, Tables 14.1, 14.2) -/

/-- Units and segments of one kind. -/
def unitsOf (kind n segs : Nat) : List (Nat × Nat) := (List.range n).flatMap (fun i => (List.range segs).map (fun g => (unitId kind i, g)))

/-- The units and segments of a region; the spare stack's channels count while it serves (14, Table 14.1). -/
def regionUnits (s : State) (k : Nat) : List (Nat × Nat) :=
  ((List.range 160).filter (fun i => stackPowered (stackOf s (5 * k + i / 32)))).map (fun i => (unitId Kind.channel i, 0)) ++ unitsOf Kind.engine 144 1 ++
  (List.range 8).flatMap (fun i => (List.range 4).map (fun g => (unitId Kind.port (regionPort k i), g))) ++ unitsOf Kind.dirSlice 16 1 ++ unitsOf Kind.stripeBuffer 1 16 ++
  unitsOf Kind.homeAgent 1 4 ++ unitsOf Kind.ingress 1 11 ++ unitsOf Kind.crossbar 1 9 ++ unitsOf Kind.ringLink 3 1

/-- The units and segments of the hub (14, Table 14.2). -/
def hubUnits : List (Nat × Nat) :=
  unitsOf Kind.mgmtPair 2 1 ++ unitsOf Kind.darinlink 1 2 ++ unitsOf Kind.flash 1 3 ++ unitsOf Kind.securityCore 1 1

/-- The units of a region, or, for 4, of the hub. -/
def testUnits (s : State) (k : Nat) : List (Nat × Nat) := if k < 4 then regionUnits s k else hubUnits

/-- BIST summary of a region or the hub (14, Table 14.4). -/
def bistBytes (s : State) (k : Nat) : List Byte :=
  let b := bistOf s k
  let ages := (testUnits s k).map (fun u => (stamp s - tget b.lastPass (u.1 * 256 + u.2) 0) / (60 * second))
  let draw := (b.current.map (·.2.2.2)).getD 0 + (if s.life.stackTest = some k then stackDraw else 0)
  record 32 [(64, b.lastStamp), (32, b.run), (16, b.failed), (16, b.abandoned), (16, min 0xFFFF (b.overdue.map (·.1)).eraseDups.length), (16, min 0xFFFF (largest ages)),
    (16, (b.current.map (·.1)).getD 0), (8, (b.current.map (·.2.1)).getD 0), (1, b2n b.current.isSome), (7, (draw + 9) / 10),
    (13, min 4096 b.catchUp.length), (19, b.deferred), (32, 0)]

/-- A checkpoint body: group 0x00, 200 B, then the 20 stack groups, 80 B each (14, Table 14.10). -/
def groupBytes (s : State) (g : Nat) : List Byte :=
  (List.range (if g = 0 then 25 else 10)).flatMap (fun i =>
    leBytes 8 (if g = 0 ∧ i = 24 then s.life.logSeq else tget s.life.counters (g * 256 + 8 * i) 0))

end Sys2Proof.Machine
end

