-- ==== Sys2Proof/Machine/Wire.lean ====
section
/-! DEFINITION. What leaves the module as bytes: packets (03), the flits of a fabric port (10) and of Darinlink (11), with trailer, CRC and FEC. -/

namespace Sys2Proof.Machine

/-! ### Packets as bytes (03) -/

/-- Header bits [287:0] (03, Table 3.1). -/
def headerLow (p : Packet) : Nat :=
  packBits [(64, p.msgCounter), (44, p.rsvHigh), (52, p.address), (16, p.aux), (11, p.rsvMid), (5, p.length), (8, p.status), (8, p.sillage),
    (8, p.roleGen), (3, p.hops), (3, p.vc), (10, p.tenant), (12, p.dest), (12, p.source), (16, p.tag), (5, p.rsvLow), (1, b2n p.poison),
    (1, p.keyEpoch), (1, b2n p.encrypted), (8, p.opcode)]

/-- The 48 B header; GCM_TAG in the byte order of its standard. -/
def headerBytes (p : Packet) : List Byte := leBytes 36 (headerLow p) ++ beBytes 12 p.gcmTag.toNat

/-- A packet's header read from its 48 bytes; the payload is given beside it. -/
def packetOf (h : List Byte) (payload : Option Line) : Packet :=
  let n := ofLe (h.take 36)
  { opcode := bits n 7 0, encrypted := bit n 8, keyEpoch := bits n 9 9, poison := bit n 10, rsvLow := bits n 15 11, tag := bits n 31 16,
    source := bits n 43 32, dest := bits n 55 44, tenant := bits n 65 56, vc := bits n 68 66, hops := bits n 71 69, roleGen := bits n 79 72,
    sillage := bits n 87 80, status := bits n 95 88, length := bits n 100 96, rsvMid := bits n 111 101, aux := bits n 127 112,
    address := bits n 179 128, rsvHigh := bits n 223 180, msgCounter := bits n 287 224, gcmTag := BitVec.ofNat 96 (ofBe ((h.drop 36).take 12)),
    payload := payload }

/-! ### Flits of a port (10, Tables 10.2, 10.3, R254, R255, R258) -/

/-- Receive point of a port: the SEQ of the last flit it delivered, 0xFFFF before the first (10, R270). -/
def recvPoint (p : Port) : Nat := (p.expected + 65535) % 65536

/-- The receive buffers of a port's pair (10, Table 10.5). -/
def pairBuf (s : State) (n : Nat) : PairBuf := tget s.link.pairs (n % 16) {}
def modPairBuf (s : State) (n : Nat) (f : PairBuf → PairBuf) : State := { s with link := { s.link with pairs := tmod s.link.pairs (n % 16) {} f } }

/-- Bytes filled with zeros up to a length. -/
def padTo (n : Nat) (l : List Byte) : List Byte := l ++ List.replicate (n - l.length) 0

/-- A request for a full link reset that waits for its answer. -/
def isResetAsk (r : CtrlRec) : Bool := match r with | .reset _ _ ans => !ans | _ => false
def awaitsReset (p : Port) : Bool := p.repeats.any (fun r => isResetAsk r.rec_)

/-- A flit of a port: its payload, the trailer with ACK, the NAK named last in this cycle, XOFF and generation in force, and CRC over bytes 0 to 315 (10, Table 10.3, R254, R258). -/
def flitRaw (s : State) (n type seq : Nat) (payload : List Byte) : BitVec 2560 :=
  let p := portOf s n
  let nak := (p.naked.filter (fun x => x.2 == now s)).getLast?
  let low := padTo 304 payload ++ leBytes 12 (packBits [(16, seq), (16, recvPoint p), (16, (nak.map Prod.fst).getD 0), (1, b2n nak.isSome),
    (8, (pairBuf s n).xoff.toNat), (8, p.gen), (3, type), (28, 0)])
  BitVec.ofNat 2560 (ofLe (low ++ leBytes 4 (crc32 low)))

/-- The type and the payload of a sequenced flit: DATA with its one packet, or the slots of HDR (10, Table 10.2, R255). -/
def seqPayload (packets : List Packet) : Nat × List Byte :=
  match packets with
  | [{ payload := some l, .. }] => (1, packets.flatMap headerBytes ++ lineBytes l)
  | _ => (2, packets.flatMap headerBytes)

/-- A sequenced flit as it leaves (10, R258: a resend differs in its trailer only). -/
def seqFlit (s : State) (n seq : Nat) (packets : List Packet) : BitVec 2560 :=
  let x := seqPayload packets
  flitRaw s n x.1 seq x.2

/-- An IDLE flit as it leaves. -/
def idleFlit (s : State) (n : Nat) : BitVec 2560 := flitRaw s n 0 (portOf s n).nextSeq []

/-- RECOVER_QUERY and RECOVER_REPLY (10, Table 10.8). -/
def recoverBytes (kind : Nat) (r : RecoverRec) : List Byte :=
  record 16 [(32, 0), (16, r.recvPoint), (16, r.failedSwitchPort), (8, r.failedPortGen), (7, 0), (1, b2n r.held), (32, 0), (8, r.queryId), (8, kind)]

/-- LINK_READY, STALE_ROLE and RESET_REQUEST (10, Table 10.16). -/
def shortBytes (kind gen answer reason found : Nat) : List Byte :=
  record 16 [(88, 0), (8, found), (8, reason), (1, answer), (7, 0), (8, gen), (8, kind)]

/-- A control record as bytes (10, Tables 10.6 to 10.8, 10.15, 10.16). -/
def ctrlBytes : CtrlRec → List Byte
  | .hello r => record 32 [(64, r.serial), (16, r.port), (16, r.prevRecvPoint), (8, r.prevPortGen), (8, r.proposedGen), (123, 0), (2, r.nodeKind),
      (1, b2n r.prevValid), (1, r.width), (1, r.plane), (8, 0), (8, 1)]
  | .assign r => record 16 [(16, 0), (12, r.managerId), (12, r.endpointId), (16, r.switchPort), (8, r.portGen), (7, 0), (1, r.plane), (48, r.switchSerial), (8, 2)]
  | .ready gen => shortBytes 3 gen 0 0 0
  | .query r => recoverBytes 4 r
  | .reply r => recoverBytes 5 r
  | .stale gen found => shortBytes 6 gen 0 0 found
  | .reset gen reason answer => shortBytes 7 gen (b2n answer) reason 0

/-- A CTRL flit as it leaves. -/
def ctrlFlit (s : State) (n : Nat) (r : CtrlRec) : BitVec 2560 := flitRaw s n 3 (portOf s n).nextSeq (ctrlBytes r)

/-! ### Flits of Darinlink (11, R297, R299, R302) -/

def modDl (s : State) (f : Darinlink → Darinlink) : State := { s with link := { s.link with dl := f s.link.dl } }

/-- The class of a message (11, Table 11.11). -/
def dlClass (op : Nat) : Nat :=
  if op = Op.order ∨ op = Op.orderReply ∨ op = Op.statusRead ∨ op = Op.statusData then 0
  else if op = Op.resp ∨ op = Op.respData ∨ op = Op.completion then 2
  else if op = Op.snoopShared ∨ op = Op.snoopInvalidate then 3
  else if op = Op.snoopResp ∨ op = Op.snoopRespData then 4
  else if op = Op.writeback ∨ op = Op.evictClean then 5
  else 1

/-- A message as slots of 16 B (11, Table 11.12). -/
def dlSlots (p : Packet) : List (BitVec 128) :=
  let head := packBits [(40, p.address), (16, p.tag), (8, p.status), (5, p.length), (1, b2n p.poison), (2, p.rsvHigh), (16, p.aux), (8, p.roleGen),
    (6, p.rsvMid), (10, p.tenant), (8, p.rsvLow), (8, p.opcode)]
  BitVec.ofNat 128 head :: (match p.payload with
    | some l => (List.range 16).map (fun i => l.extractLsb' (128 * i) 128)
    | none => [])

/-- A Darinlink flit: slots or record, trailer, CRC over bytes 0 to 491 and the check bytes of the eight codewords (11, R299, Table 11.10). -/
def dlFlitRaw (d : Darinlink) (type seq : Nat) (nak : Bool) (credits : List Nat) (payload : List Byte) : BitVec 4096 :=
  let low := padTo 480 payload ++ leBytes 12 (packBits ([(16, seq), (16, (d.expected + 65535) % 65536), (1, b2n nak), (3, type)] ++
    (List.range 6).reverse.map (fun c => (8, credits.getD c 0)) ++ [(12, 0)]))
  let b := low ++ leBytes 4 (crc32 low)
  let checks := (List.range 8).map (fun k => rsCheck ((List.range 62).map (fun i => (b.getD (8 * i + k) 0).toNat)))
  BitVec.ofNat 4096 (ofLe (b ++ (List.range 2).flatMap (fun j => checks.map (fun c => BitVec.ofNat 8 (c.getD j 0)))))

/-- A MSG flit that carries one message (log entry 14). -/
def dlMsgFlit (d : Darinlink) (m : Packet) : BitVec 4096 := dlFlitRaw d 1 d.nextSeq false [] ((dlSlots m).flatMap (fun x => leBytes 16 x.toNat))

/-- An IDLE flit: it may carry NAK_VALID and return credits. -/
def dlIdleFlit (d : Darinlink) (nak : Bool) (credits : List Nat) : BitVec 4096 := dlFlitRaw d 0 d.nextSeq nak credits []

/-- A CTRL flit (11, R302, Table 11.16). -/
def dlCtrlFlit (d : Darinlink) (kind : Nat) (r : DlCtrlRec) : BitVec 4096 :=
  dlFlitRaw d 2 d.nextSeq false [] (record 32 ([(128, 0)] ++ (List.range 6).reverse.map (fun c => (16, r.credits.getD c 0)) ++
    [(8, r.width), (7, 0), (1, b2n r.echo), (8, r.trainCount), (8, kind)]))

/-- Bytes of a flit that working lane i of w carries, in order: byte b is on lane b mod w (11, R299). -/
def dlLaneBytes (w i : Nat) (raw : BitVec 4096) : List Byte :=
  ((leBytes 512 raw.toNat).zipIdx.filter (fun x => x.2 % w == i)).map Prod.fst

/-- The additive scrambler of a lane moves on by one bit (11, R297): bit i - 1 of the register stands for x^i.
DESIGN CHOICE, log entry 7: the polynomial's taps feed the lowest stage back, and the highest stage is the key bit. -/
def scramblerStep (x : BitVec 23) : BitVec 23 :=
  let back := [22, 20, 15, 7, 4, 1].foldl (fun b i => b != x.getLsbD i) false
  (x <<< 1) ||| (if back then 1 else 0)

/-- The register of a lane's scrambler so many bits after training, from which the lane number seeds it (11, R297). -/
def scramblerAt (lane : Nat) : Nat → BitVec 23
  | 0 => BitVec.ofNat 23 lane
  | n + 1 => scramblerStep (scramblerAt lane n)

/-- A lane's scrambler now: 256 bits a lane go out every 4 ns (11, R297). -/
def scrambler (s : State) (lane : Nat) : BitVec 23 := scramblerAt lane (256 * (now s - s.link.dl.seededAt))

/-- The bits that a lane puts out for its bytes of a flit, scrambled from a register on (11, R297); bit 0 of a byte goes first. -/
def scrambled : BitVec 23 → List Bool → List Bool
  | _, [] => []
  | x, b :: t => (b != x.getLsbD 22) :: scrambled (scramblerStep x) t

/-- What physical lane `lane` carries of a flit that is sent now (11, R297, R299). -/
def dlLaneBits (s : State) (lane : Nat) (raw : BitVec 4096) : List Bool :=
  let w := if s.link.dl.width = 0 then 16 else 8
  scrambled (scrambler s lane) ((dlLaneBytes w (lane % w) raw).flatMap (fun b => (List.range 8).map (fun i => b.getLsbD i)))

/-- So many flits are about to be sent: an IDLE flit goes first where there would be none among 1,024 (11, R297). -/
def dlBefore (s : State) (n : Nat) : State :=
  if 1023 < s.link.dl.sinceIdle + n then emit (modDl s (fun d => { d with sinceIdle := n })) (.dlIdle (dlIdleFlit s.link.dl false []))
  else modDl s (fun d => { d with sinceIdle := d.sinceIdle + n })

/-- Send an IDLE flit with NAK_VALID (11, R300). -/
def sendDlNak (s : State) : State :=
  emit (modDl s (fun d => { d with sinceIdle := 0 })) (.dlNak ((s.link.dl.expected + 65535) % 65536) (dlIdleFlit s.link.dl true []))

/-- Send an IDLE flit that returns credits (11, R301). -/
def sendDlCredits (s : State) (give : List Nat) : State :=
  emit (modDl s (fun d => { d with sinceIdle := 0 })) (.dlCredits give (dlIdleFlit s.link.dl false give))

/-- Send a control record (11, R302). -/
def sendDlCtrl (s : State) (kind : Nat) (r : DlCtrlRec) : State := emit (dlBefore s 1) (.dlCtrl kind r (dlCtrlFlit s.link.dl kind r))

/-- The module's initial credits of the classes it receives (11, Table 11.11). -/
def dlCredits : List Nat := [32, 256, 0, 0, 64, 64]

/-- This end's DL_CREDIT_INIT (11, Table 11.16). -/
def creditInit (d : Darinlink) : DlCtrlRec := { credits := dlCredits, width := d.width, echo := d.peerInit, trainCount := d.trainings % 256 }

/-- Step 5 of a full training: DL_CREDIT_INIT goes out each 1 µs (11, R302). -/
def repeatCreditInit (s : State) : State := if s.link.dl.stepFive then sendDlCtrl s 1 (creditInit s.link.dl) else s

/-- A message, by opcode and body, that completes a response or a reply; the messages of one reply count once, at its last part (11, R281, R304, Table 11.2). -/
def completesAnswer (m : Nat × Line) : Bool :=
  (dlClass m.1 == 0 || dlClass m.1 == 2) && (m.1 != Op.orderReply || m.2.extractLsb' 38 2 == m.2.extractLsb' 36 2)

/-- Responses and replies among some messages (11, R304). -/
def answersIn (l : List (Nat × Line)) : Nat := (l.filter completesAnswer).length

/-- Opcode and body of a message, and of the message that a flit of this end carries. -/
def msgOf (m : Packet) : Nat × Line := (m.opcode, m.payload.getD 0)
def flitMsg (raw : BitVec 4096) : Nat × Line := ((raw.extractLsb' 0 8).toNat, raw.extractLsb' 128 2048)

end Sys2Proof.Machine
end

