-- ==== Sys2Proof/Machine/Send.lean ====
section
/-! DEFINITION. What leaves the module: protection of packets (03), choice of port (01, R17), sequenced flits (10), Darinlink messages (11), responses and order replies. -/

namespace Sys2Proof.Machine

/-! ### Protection of packets (03) -/

/-- Additional data: header bytes 0 to 35 with VC and HOPS read as zero (03, R71). -/
def packetAad (p : Packet) : List Byte := leBytes 36 (headerLow { p with vc := 0, hops := 0 })

/-- The 96-bit IV: SOURCE_ID, DEST_ID, 0x00, MSG_COUNTER (03, R71). -/
def packetIv (p : Packet) : Nat := packBits [(12, p.source), (12, p.dest), (8, 0), (64, p.msgCounter)]

/-- Encrypt the payload and fill GCM_TAG (03, R71). -/
def protect (key : Key) (p : Packet) : Packet :=
  let p := { p with encrypted := true }
  let ct := match p.payload with | some l => gcmCrypt key (packetIv p) (lineBytes l) | none => []
  { p with payload := p.payload.map (fun _ => bytesLine ct), gcmTag := gcmTag key (packetIv p) (packetAad p) ct }

/-- Verify and decrypt; nothing where the tag does not verify (03, R76). -/
def unprotect (key : Key) (p : Packet) : Option Packet :=
  let ct := match p.payload with | some l => lineBytes l | none => []
  if gcmTag key (packetIv p) (packetAad p) ct = p.gcmTag
  then some { p with payload := p.payload.map (fun _ => bytesLine (gcmCrypt key (packetIv p) ct)) }
  else none

/-- The tenant's key and epoch number whose parity a packet names (03, R71; 13, R337). -/
def tenantKey (s : State) (tenant parity : Nat) : Option (Nat × Key) :=
  match tenantOf? s tenant with
  | none => none
  | some t =>
    if t.keysErased then none
    else if t.epoch % 2 = parity then some (t.epoch, t.key)
    else match t.previous with
      | some k => some (t.epoch - 1, k)
      | none => none

/-- The management key whose parity an order names (11, R278). -/
def mgmtKey (s : State) (m parity : Nat) : Option Key :=
  match tget? s.hub.mgmtKeys m with
  | none => none
  | some k =>
    if k.epoch % 2 = parity then some k.key
    else match k.previous with
      | some (e, key) => if e % 2 = parity && decide (now s < k.agreedAt + second) then some key else none
      | none => none

/-- The next MSG_COUNTER of a sending unit: regions 0 to 3, hub 4 (03, R73). -/
def nextCounter (s : State) (unit_ : Nat) : Nat × State :=
  let c := tget s.hub.counters unit_ 0
  (unit_ * 2 ^ 61 + c, { s with hub := { s.hub with counters := tset s.hub.counters unit_ ((c + 1) % 2 ^ 61) } })

/-! ### Ports and flits (01, R17; 10) -/

def portActive (s : State) (n : Nat) : Bool := (portOf s n).st == .active

/-- The port a response to a request that arrived on port n leaves on (01, R17).
DESIGN CHOICE, log entry 27: where no port of the module is active, it waits on the port its request arrived on. -/
def replyPort (s : State) (n : Nat) : Nat × State :=
  if portActive s n then (n, s)
  else if portActive s (partner n) then (partner n, s)
  else
    let k := portRegion n
    match rotate 8 (regionOf s k).replyPtr (fun i => portActive s (regionPort k i)) with
    | some i => (regionPort k i, modRegion s k (fun r => { r with replyPtr := (i + 1) % 8 }))
    | none =>
      match rotate 32 s.link.modPtr (fun i => portActive s i) with
      | some i => (i, { s with link := { s.link with modPtr := (i + 1) % 32 } })
      | none => (n, s)

/-- A port starts a new sequenced flit: it is ACTIVE, not stopped, and fewer than 2,048 flits are unacknowledged (10, R256). -/
def mayStart (p : Port) : Bool := p.st == .active && !p.stopped && !awaitsReset p && decide (p.replay.length < 2048)

/-- The port that carries a pair's traffic once its failover has ended. -/
def Failover.to (f : Failover) : Nat := if f.inPlace then f.from_ else partner f.from_

/-- A port that a failover of its pair makes active sends no new packet before the orphans: they leave at the failover's end (10, Table 10.9, step 10). -/
def behindOrphans (s : State) (n : Nat) : Bool :=
  match tget? s.link.failovers (n % 16) with
  | some f => f.to == n
  | none => false

/-- Send what waits on a port, each packet in a flit of its own, passing over VCs that the peer holds off (10, R256, R262; log entry 14). -/
def pump (s : State) (n : Nat) : List Packet → List Packet → State
  | [], kept => modPort s n (fun p => { p with waiting := kept })
  | pk :: rest, kept =>
    let p := portOf s n
    if mayStart p && !p.peerXoff.getLsbD pk.vc && !behindOrphans s n then
      let s := modPort s n (fun p => { p with
        nextSeq := (p.nextSeq + 1) % 65536, replay := p.replay ++ [{ seq := p.nextSeq, packets := [pk] }],
        timerFrom := if p.replay.isEmpty then now s else p.timerFrom })
      pump (emit s (.flit n p.nextSeq false [pk] (seqFlit s n p.nextSeq [pk]))) n rest kept
    else pump s n rest (kept ++ [pk])

def flushPort (s : State) (n : Nat) : State := pump s n (portOf s n).waiting []

/-- Put a packet on a port. -/
def sendOn (s : State) (n : Nat) (pk : Packet) : State :=
  flushPort (modPort s n (fun p => { p with waiting := p.waiting ++ [pk] })) n

/-- Send a control record on a port (10, R263). -/
def sendCtrl (s : State) (n : Nat) (r : CtrlRec) : State := emit s (.ctrl n r (ctrlFlit s n r))

/-! ### Darinlink messages (11) -/

/-- Send what waits on Darinlink while the class has credits and the replay buffer has room (11, R300, R301). -/
def dlPump (s : State) : List Packet → List Packet → State
  | [], kept => { s with link := { s.link with dl := { s.link.dl with waiting := kept } } }
  | m :: rest, kept =>
    let d := s.link.dl
    let c := dlClass m.opcode
    if d.st == .active && decide (d.replay.length < 512) && decide (0 < d.credits.getD c 0) then
      let raw := dlMsgFlit d m
      let s := modDl (dlBefore s 1) (fun d => { d with
        nextSeq := (d.nextSeq + 1) % 65536, replay := d.replay ++ [(d.nextSeq, raw)], credits := lset d.credits c (d.credits.getD c 0 - 1),
        timerFrom := if d.replay.isEmpty then now s else d.timerFrom })
      dlPump (emit s (.message m raw)) rest kept
    else dlPump s rest (kept ++ [m])

def flushDl (s : State) : State := dlPump s s.link.dl.waiting []

/-- Send a message over Darinlink; while the link is down it is dropped, and counted where it is a response or a reply (11, R304). -/
def sendDl (s : State) (m : Packet) : State :=
  let d := s.link.dl
  if d.absent then { s with link := { s.link with dl := { d with dropped := satAdd 32 d.dropped (answersIn [msgOf m]) } } }
  else flushDl { s with link := { s.link with dl := { d with waiting := d.waiting ++ [m] } } }

/-! ### Responses (03) -/

/-- LOAD_LEVEL and BUDGET_USE as of the last tick (03, Table 3.6). -/
def sillageByte (s : State) (k source : Nat) : Nat :=
  let q := largest ((List.range 4).map (fun i => (regionOf s i).sillageQ))
  let load := min 15 (16 * q / 8192)
  let h := hostOf s source
  let b := bucketOf (regionOf s k) source
  let use_ := if h.weight = 0 then 15 else min 15 (16 * (h.cbs * 16 - b.tcSample) / (h.cbs * 16))
  load * 16 + use_

/-- The statuses that the tables of 03 (3.4), 07 (7.4, 7.6), 09 (9.3, 9.5), 11 (11.6), 12 (12.9), 14 (14.12) and 15 (15.11) reserve, as first and last. -/
def reservedStatuses : List (Nat × Nat) :=
  [(0x04, 0x07), (0x0E, 0x0F), (0x18, 0x1F), (0x22, 0x3F), (0x48, 0x5F), (0x65, 0x7F), (0x95, 0x9F), (0xA2, 0xBF), (0xF3, 0xF7), (0xFA, 0xFB), (0xFE, 0xFF)]

/-- Statuses that no table gives a meaning (00, R7). -/
def reservedStatus (st : Nat) : Bool := reservedStatuses.any (fun r => decide (r.1 ≤ st) && decide (st ≤ r.2)) || decide (0xFF < st)

/-- Statuses sent without protection (03, R75). -/
def unprotectedStatus (st : Nat) : Bool :=
  [Sts.notReady, Sts.moduleHalted, Sts.misrouted, Sts.addressInvalid, Sts.tenantUnknown, Sts.notEncrypted, Sts.authFailed, Sts.keyRetired].contains st

/-- What a response carries beside the echoes. -/
structure Answer where
  status : Nat := 0
  data : Option Line := none
  poison : Bool := false
  aux : Nat := 0
  /-- answered as COMPLETION (03, R62) -/
  launch : Bool := false
deriving DecidableEq, Repr

/-- The opcode of an answer (03, Table 3.2, R62). -/
def Answer.opcode (a : Answer) : Nat :=
  if a.launch then Op.completion else if a.data.isSome then Op.respData else Op.resp

/-- Answer a request on the path it came by: echoes, sillage, protection and port (03, R55, R62, R71 to R75, R77; 01, R17). Region k answers. -/
def respond (s : State) (k : Nat) (via : Via) (p : Packet) (a : Answer) : State :=
  let data := if a.launch && a.data.isNone then some 0 else a.data
  match via with
  | .darinlink =>
    sendDl s { opcode := a.opcode, tag := p.tag, tenant := p.tenant, address := p.address, length := p.length, roleGen := p.roleGen, status := a.status,
               aux := a.aux, poison := a.poison, payload := data }
  | .genura n =>
    let c := nextCounter s k
    let q : Packet := { opcode := a.opcode, tag := p.tag, tenant := p.tenant, address := p.address, length := p.length, keyEpoch := p.keyEpoch,
                        roleGen := p.roleGen, source := p.dest, dest := p.source, status := a.status, aux := a.aux, poison := a.poison, vc := 4,
                        sillage := sillageByte s k p.source, msgCounter := c.1, payload := data }
    let q := if unprotectedStatus a.status then q else
      match tenantKey s p.tenant p.keyEpoch with
      | some (_, key) => protect key q
      | none => q
    let r := replyPort c.2 n
    sendOn r.2 r.1 q

/-! ### Order replies (11) -/

namespace Ord
abbrev ownerClaim := 0x0001
abbrev ownerRenew := 0x0002
abbrev ownerHandover := 0x0003
abbrev ownerAccept := 0x0004
abbrev ownerRelease := 0x0005
abbrev statusWindowRead := 0x0006
abbrev mgmtKeyAgree := 0x0007
abbrev grant := 0x0100
abbrev accessSet := 0x0101
abbrev revoke := 0x0102
abbrev extentRead := 0x0103
abbrev extentFind := 0x0104
abbrev violationRead := 0x0105
abbrev hostShape := 0x0110
abbrev hostShapeRead := 0x0111
abbrev tenantCreate := 0x0120
abbrev tenantRemove := 0x0121
abbrev rotateKey := 0x0122
abbrev retireKey := 0x0123
abbrev attestReport := 0x0124
abbrev fwWrite := 0x0125
abbrev fwActivate := 0x0126
abbrev slotGrant := 0x0130
abbrev slotRelease := 0x0131
abbrev slotRead := 0x0132
abbrev hostFailed := 0x0133
abbrev lostRead := 0x0134
abbrev dirRead := 0x0135
abbrev stackRead := 0x0140
abbrev stackRateLimit := 0x0141
abbrev memIdlePolicy := 0x0142
abbrev integrityRead := 0x0150
abbrev blotterRead := 0x0151
abbrev blotterClear := 0x0152
abbrev poisonRead := 0x0153
abbrev scrubPolicy := 0x0154
abbrev evacuate := 0x0155
abbrev accordLoad := 0x0160
abbrev accordUnload := 0x0161
abbrev asidCreate := 0x0162
abbrev asidDestroy := 0x0163
abbrev mapRange := 0x0164
abbrev unmapRange := 0x0165
abbrev protectRange := 0x0166
abbrev invalidateRange := 0x0167
abbrev mapRead := 0x0168
abbrev faultRingSet := 0x0169
abbrev faultResolve := 0x016A
abbrev faultPolicy := 0x016B
abbrev sprayRead := 0x016C
abbrev sprayCancel := 0x016D
abbrev engineTagRelease := 0x016E
abbrev portRead := 0x0170
abbrev portSelect := 0x0171
abbrev portRetrain := 0x0172
abbrev faultRead := 0x0180
abbrev faultAck := 0x0181
abbrev clockSet := 0x0190
abbrev lifetimeRead := 0x0191
abbrev bistRead := 0x0192
abbrev powerLimit := 0x01A0
abbrev moduleReset := 0x01A1
end Ord

/-- The master an order comes from: by the link on Darinlink, by source and plane on Genura (11, R277, R280; 01, Table 1.6). -/
def senderMaster (s : State) (h : OrderHdr) : Option Nat :=
  match h.via with
  | .darinlink => if h.master = 0 ∨ h.master = 3 then some h.master else none
  | .genura n =>
    if n / 16 = 0 then (if s.hub.mgrA = some h.source then some 1 else none)
    else (if s.hub.mgrB = some h.source then some 2 else none)

/-- One part of a reply body (11, Table 11.2). -/
def replyPart (s : State) (h : OrderHdr) (code status : Nat) (res : List Byte) (part parts : Nat) : Line :=
  let low := leBytes 16 (packBits [(32, h.seq), (16, leaseLeft s), (8, 0), (1, b2n s.hub.owner.isSome), (2, s.hub.owner.getD 0), (5, 0), (8, status),
    (16, res.length), (2, part), (2, parts - 1), (2, 0), (2, h.master), (16, 0), (16, code)])
  bytesLine (low ++ slice res (240 * part) 240)

/-- Statuses of a Genura reply sent without protection (11, R279). -/
def unprotectedReply (code status : Nat) : Bool :=
  code == Ord.mgmtKeyAgree || [Sts.notMaster, Sts.notEncrypted, Sts.authFailed, Sts.keyRetired, Sts.notReady].contains status

/-- Send the parts of a reply in order (11, R277 to R281). -/
def replyParts (s : State) (h : OrderHdr) (code status : Nat) (res : List Byte) (parts : Nat) : List Nat → State
  | [] => s
  | i :: rest =>
    let body := replyPart s h code status res i parts
    let s := match h.via with
      | .darinlink => sendDl s { opcode := Op.orderReply, tag := h.tag, status := status, length := 31, payload := some body }
      | .genura n =>
        let c := nextCounter s 4
        let q : Packet := { opcode := Op.orderReply, tag := h.tag, source := selfId s, dest := h.source, vc := 6, status := status, length := 31, keyEpoch := h.keyEpoch, msgCounter := c.1, payload := some body }
        let m := if n / 16 = 0 then 1 else 2
        let q := if unprotectedReply code status then q else
          match mgmtKey s m h.keyEpoch with
          | some key => protect key q
          | none => match tget? s.hub.mgmtKeys m with
            | some k => protect k.key { q with keyEpoch := k.epoch % 2 }
            | none => q
        let r := replyPort c.2 n
        sendOn r.2 r.1 q
    replyParts s h code status res parts rest

/-- The single reply of an order (11, R281): a refused order has one part and no result. -/
def reply (s : State) (h : OrderHdr) (code status : Nat) (res : List Byte := []) : State :=
  let parts := max 1 (ceilDiv res.length 240)
  replyParts s h code status res parts (List.range parts)

/-- An accepted order is outstanding no longer: of the master that it was accepted from, whoever has the manager's ID now (11, Table 11.5, step 4). -/
def settleOrder (s : State) (h : OrderHdr) : State :=
  match s.hub.accepted.find? (fun a => a.1 == h) with
  | some a => modMaster { s with hub := { s.hub with accepted := s.hub.accepted.erase a } } a.2.1 (fun x => { x with outstanding := x.outstanding - 1 })
  | none => s

/-- The reply of an accepted order (11, R285). -/
def finish (s : State) (h : OrderHdr) (code status : Nat) (res : List Byte := []) : State := reply (settleOrder s h) h code status res

/-- Answer every held wait of FAULT_READ with the chip result (12, R318). -/
def answerWaits (s : State) : State :=
  (List.range 4).foldl (fun s m =>
    match (masterOf s m).wait with
    | some (h, _) => finish (modMaster s m (fun x => { x with wait := none })) h Ord.faultRead Sts.success (chipResult s)
    | none => s) s

/-! ### Latching of faults (12) -/

/-- A fault at its collector (12, R309). -/
structure FaultIn where
  hub : Bool := false
  region : Nat := 0
  unit : Nat
  cause : Nat
  detail : Nat := 0
deriving DecidableEq, Repr

/-- Class of a cause (12, Table 12.3). -/
def causeClass (c : Nat) : Nat := if c < 0x40 then 0 else if c < 0x80 then 1 else if c < 0xC0 then 2 else 3

/-- What two unit identifiers share where faults of them are in the same unit (12, R313): stack, port pair, engine cluster or directory slice. -/
def unitGroup (u : Nat) : Option (Nat × Nat) :=
  let i := u % 2048
  let k := u / 2048
  if k = Kind.channel then some (2, i / 32) else if k = Kind.stack ∨ k = Kind.stackTemp then some (2, i)
  else if k = Kind.port ∨ k = Kind.portPair then some (7, i % 16) else if k = Kind.lane then some (7, i / 16 % 16)
  else if k = Kind.engine then some (5, i / 9) else if k = Kind.cluster then some (5, i)
  else if k = Kind.dirWay then some (10, i / 17) else if k = Kind.dirSlice then some (10, i) else none

/-- A fault is in the unit of a pending record, or consequential to it (12, R313). -/
def sameUnit (r : FaultRecord) (f : FaultIn) : Bool :=
  r.hub == f.hub && (f.hub || r.region == f.region) &&
  (r.unit == f.unit || (unitGroup r.unit).isSome && unitGroup r.unit == unitGroup f.unit ||
    (match r.spareUsed with
     | some u => u == f.unit || (match unitGroup u with | some (2, i) => unitGroup f.unit == some (2, i) | _ => false)
     | none => false))

/-- The record pending for a class (12, R312). -/
def pendingOf (s : State) (cls : Nat) (hub : Bool) (region : Nat) : Option FaultRecord :=
  if cls = 1 then (if hub then s.fault.hubFence else (regFault s region).fence) else if cls = 2 then s.fault.drydown else s.fault.haltRec

def setPending (s : State) (cls : Nat) (hub : Bool) (region : Nat) (r : Option FaultRecord) : State :=
  if cls = 1 then
    if hub then { s with fault := { s.fault with hubFence := r } } else modRegFault s region (fun x => { x with fence := r })
  else if cls = 2 then { s with fault := { s.fault with drydown := r } } else { s with fault := { s.fault with haltRec := r } }

/-- Change the log entry of a number. -/
def modLog (s : State) (seq : Nat) (f : FaultRecord → FaultRecord) : State :=
  { s with fault := { s.fault with log := s.fault.log.map (fun r => if r.seq = seq then f r else r) } }

/-- What latching did: the state, the entry written, whether it was escalated, whether HALT was latched anew. -/
structure Latched where
  st : State
  seq : Nat
  /-- LOG_SEQ of the record that is pending for the fault -/
  record : Nat
  escalated : Bool
  halt : Bool

/-- Latch a fault at a class: pending, merged or escalated by one level (12, R314); fuel is the number of classes above. -/
def latchAt : Nat → State → FaultIn → Nat → FaultRecord → Latched
  | fuel, s, f, cls, r =>
    match pendingOf s cls f.hub f.region with
    | none =>
      let l := logFault s { r with cls := cls }
      { st := setPending l.1 cls f.hub f.region (some l.2), seq := l.2.seq, record := l.2.seq, escalated := r.escalated, halt := cls == 3 }
    | some q =>
      if sameUnit q f || cls == 3 then
        let l := logFault s { r with cls := cls }
        let q' := { q with count := min 63 (q.count + 1) }
        { st := modLog (setPending l.1 cls f.hub f.region (some q')) q.seq (fun e => { e with count := q'.count }),
          seq := l.2.seq, record := q.seq, escalated := r.escalated, halt := false }
      else
        let s := if cls == 1 && !f.hub then modRegFault s f.region (fun x => { x with escalation := true }) else s
        match fuel with
        | 0 => { st := s, seq := 0, record := 0, escalated := true, halt := false }
        | n + 1 => latchAt n s f (cls + 1) { r with escalated := true }

/-- Kinds whose replacement is never withheld (12, R315). -/
def neverWithheld (u : Nat) : Bool := u / 2048 == Kind.mgmtPair || u / 2048 == Kind.rootPll

/-- Complete a record that has just been written, in every copy of it: the log entry, the pending record and the copy that goes to the lifetime record (12, R317). -/
def amend (s : State) (f : FaultIn) (seq : Nat) (g : FaultRecord → FaultRecord) : State :=
  let put := fun (e : FaultRecord) => if e.seq = seq then g e else e
  let copy := fun (x : LogRec) =>
    match s.fault.log.find? (fun e => e.seq == seq) with
    | some e => if x.type = 0x05 ∧ x.body = e.bytes true then { x with body := (g e).bytes true } else x
    | none => x
  let s := { s with life := { s.life with buffer := s.life.buffer.map copy } }
  [1, 2, 3].foldl (fun s c => setPending s c f.hub f.region ((pendingOf s c f.hub f.region).map put)) (modLog s seq g)

/-- Latch a fault of class FENCE or above; the replacement of an escalated FENCE is withheld (12, R314, R315). -/
def latch (s : State) (f : FaultIn) : Latched :=
  let cls := causeClass f.cause
  let r : FaultRecord := { detail := f.detail, unit := f.unit, cause := f.cause, region := if f.hub then 0 else f.region, raised := cls, hub := f.hub }
  let l := latchAt 2 s f cls r
  let held := cls == 1 && l.escalated && !neverWithheld f.unit
  { l with st := if held then amend l.st f l.seq (fun e => { e with withheld := true }) else l.st, escalated := held }

/-- The reaction took a spare or partner: its identifier joins the record (12, Table 12.7). -/
def tookSpare (s : State) (f : FaultIn) (seq spare : Nat) : State := amend s f seq (fun e => { e with spareUsed := some spare })

/-- A unit leaves service with no replacement, or with its replacement withheld (12, R320). -/
def unitOut (s : State) (f : FaultIn) (withheld : Bool) : State :=
  let o : OutUnit := { hub := f.hub, region := f.region, unit := f.unit, withheld := withheld, segment := if f.cause = Cause.bistFail then some (f.detail % 256) else none }
  { s with fault := { s.fault with out := s.fault.out.filter (fun x => !(x.hub == o.hub && x.region == o.region && x.unit == o.unit)) ++ [o] } }

/-- Withheld replacements that a reaction has listed wait for the acknowledgement of the record pending for it (12, R315). -/
def tagWithheld (s : State) (record : Nat) : State :=
  { s with fault := { s.fault with out := s.fault.out.map (fun o => if o.withheld && o.record.isNone then { o with record := some record } else o) } }

/-- A unit is replaced, or back in service. -/
def unitBack (s : State) (hub : Bool) (region unit_ : Nat) : State :=
  { s with fault := { s.fault with out := s.fault.out.filter (fun x => !(x.hub == hub && x.region == region && x.unit == unit_)) } }

/-- A replacement has completed (12, R320). -/
def replaced (s : State) (hub : Bool) (region unit_ : Nat) : State :=
  note (unitBack s hub region unit_) hub region unit_ Cause.replacementDone unit_

/-- A unit that failed a slice stays out of service, and what carried its work in the slice keeps it, as its replacement (14, R345; 12, R320). -/
def carryOn (s : State) (hub : Bool) (region unit_ segment : Nat) : State :=
  replaced { s with fault := { s.fault with carriers := s.fault.carriers ++ [(hub, region, unit_, segment)] } } hub region unit_

end Sys2Proof.Machine
end

