-- ==== Sys2Proof/Machine/Slices.lean ====
section
/-! DEFINITION. How a self-test slice closes (14, R345, R349, R350, Tables 14.4 to 14.6): shared by the test controller and by reads that abandon a slice. -/

namespace Sys2Proof.Machine

namespace Outcome
abbrev pass := 0
abbrev passOnRerun := 1
abbrev fail := 2
abbrev abandonedSpare := 3
abbrev abandonedErasure := 4
abbrev abandonedDrain := 5
abbrev endedEarly := 6
abbrev abandonedOther := 7
end Outcome

/-- A slice entry joins the list of the region or hub, newest first, 16 kept; one that is not PASS is recorded (14, R355, Table 14.10). -/
def sliceEntry (s : State) (k : Nat) (e : SliceEntry) : State :=
  let s := modBist s k (fun b => { b with entries := (e :: b.entries).take 16 })
  if e.outcome = Outcome.pass then s else eventRec s 0x08 e.bytes

/-- A unit's segment has passed (14, R346). -/
def slicePassed (b : Bist) (t unit_ segment : Nat) : Bist :=
  { b with lastPass := tset b.lastPass (unit_ * 256 + segment) t, due := b.due.filter (· != (unit_, segment)),
           overdue := b.overdue.filter (· != (unit_, segment)) }

/-- The refresh interval in force (05, R129). -/
def refreshEvery (x : Stack) : Nat := if x.refresh2x then Config.refreshInterval / 2 else Config.refreshInterval

/-- Every bank of a channel has just been refreshed: each falls due an interval from now (05, R129). -/
def refreshAll (s : State) (p c : Nat) : State :=
  let clear := fun (q : PChan) => { q with refreshBy := [], openRows := [] }
  modChan (modPchan (modPchan s p c 0 clear) p c 1 clear) p c (fun x => { x with refreshBy := now s + refreshEvery (stackOf s p) })

/-- The timing set and the trained centres of the stack's rate are loaded from the channel's shadow set (05, R137, R138; 14, R350). -/
def loadTiming (s : State) (p c : Nat) : State :=
  let r := (stackOf s p).rate
  modChan s p c (fun x => { x with timing := r, centres := tget x.shadow r x.centres })

/-- Commands still in the retry buffer: those issued within the alert latency of the rate (05, R133). -/
def retryLive (s : State) (p : Nat) (q : PChan) : List (ChanCmd × Nat) := q.retry.filter (fun e => decide (now s < e.2 + Config.alertLatency (stackOf s p).rate))

/-- A pseudo-channel issues some commands (05, R133). -/
def issueCmds (s : State) (p c pc : Nat) (l : List ChanCmd) : State :=
  modPchan s p c pc (fun q => { q with retry := retryLive s p q ++ l.map (fun x => (x, now s)) })

/-- The retry buffer of a pseudo-channel has room for n commands (05, R133). -/
def retryRoom (s : State) (p c pc n : Nat) : Bool := decide ((retryLive s p (pchanOf s p c pc)).length + n ≤ 64)

/-- A channel leaves self-refresh (05, Table 5.9). -/
def wakeChan (s : State) (p c : Nat) : State :=
  modChan (refreshAll (issueCmds (issueCmds s p c 0 [.wake]) p c 1 [.wake]) p c) p c (fun x => { x with selfRefresh := false, lastActivity := now s })

/-- A channel controller unit of a region: its position and channel (12, Table 12.1). -/
def channelUnit (u : Nat) : Option (Nat × Nat) :=
  if u / 2048 = Kind.channel then some (u % 2048 / 32, u % 32) else none

/-- Ask for a width (11, R302). -/
def askWidth (s : State) (w : Nat) : State :=
  if s.link.dl.st = .active then
    sendDlCtrl (modDl s (fun d => { d with widthAsked := some (w, now s, 0) })) 2 { width := w, trainCount := s.link.dl.trainings % 256 }
  else s

/-- The slice of a region or the hub ends with an outcome: counters, the unit's pass, its return to service (Darinlink asks for its 16 lanes), the slice entry, and, for a controller slice with listed stripes, the catch-up walk before the entry (14, R345, R349, R350). -/
def sliceOver (s : State) (k outcome : Nat) : State :=
  let b := bistOf s k
  match b.current with
  | none => s
  | some (u, seg, since, _) =>
    let s := modBist s k (fun b =>
      let b := { b with current := none, lastStamp := stamp s, run := satInc 32 b.run,
                        failed := if outcome = Outcome.fail then satInc 16 b.failed else b.failed,
                        abandoned := if 3 ≤ outcome ∧ outcome ≤ 7 then satInc 16 b.abandoned else b.abandoned }
      if outcome ≤ 1 then slicePassed b (stamp s) u seg else b)
    let s := if outcome ≤ 1 then lifeAdd s 0x090 1 else if outcome = 2 then lifeAdd s 0x098 1 else s
    let s := if u / 2048 = Kind.engine then modPhys s k (u % 2048) (fun p => { p with underTest := false }) else s
    let s := match channelUnit u with
      | some (q, c) => wakeChan (loadTiming s (5 * k + q) c) (5 * k + q) c
      | none => s
    let s := if u / 2048 = Kind.darinlink ∧ outcome ≠ Outcome.fail then askWidth s 0 else s
    if (channelUnit u).isSome && !b.catchUp.isEmpty then
      modBist s k (fun b => { b with walking := some (u, outcome, since), listed := b.catchUp.length })
    else sliceEntry s k { timestamp := since, unit := u, segment := seg, outcome := outcome,
                          duration := min 0xFFFF ((stamp s - since) / 250), catchUp := 0 }

/-- A channel is under a controller slice (14, R350). -/
def chanTested (s : State) (p c : Nat) : Bool :=
  match (bistOf s (p / 5)).current with
  | some (u, _, _, _) => channelUnit u == some (p % 5, c)
  | none => false

/-! ### The maintenance window (05, R127) -/

/-- The stack is powered, trained and not stopped for a change of rate. -/
def stackRuns (x : Stack) : Bool := x.st == .serving || x.st == .evacuating

/-- When a bank's refresh falls due (05, R129). -/
def refreshAt (s : State) (p c pc bank : Nat) : Nat := tget (pchanOf s p c pc).refreshBy bank (chanOf s p c).refreshBy

/-- A refresh of some bank of a channel is due. -/
def refreshWaits (s : State) (p c : Nat) : Bool := (List.range 2).any (fun pc => (List.range 64).any (fun b => decide (refreshAt s p c pc b ≤ now s)))

/-- A parity replay holds the maintenance window of a channel, or waits for it (05, R133). -/
def replays (s : State) (p c : Nat) : Bool := (pchanOf s p c 0).replaying || (pchanOf s p c 1).replaying

/-- A channel's retraining is due or under way (05, R131, R134). -/
def retrainDue (s : State) (p c : Nat) : Bool :=
  let x := chanOf s p c
  x.rerun || x.pauseNext != 0 || x.retrainForced || passed s x.lastRetrain (ms 50)

/-- The scrub claimant may work on a channel: no claimant of a higher rank holds its window or waits for it; a fenced channel has no work, one in self-refresh no other claimant (05, Table 5.6, R127, R128). -/
def windowOpen (s : State) (p c : Nat) : Bool :=
  (stackOf s p).fencedChans.contains c ||
  (!chanTested s p c && ((chanOf s p c).selfRefresh || (!(chanOf s p c).pausing && !replays s p c && !refreshWaits s p c && !retrainDue s p c)))

/-- A stripe is listed for catch-up of a channel under test or in its walk (14, R350). -/
def chanListed (s : State) (p c l stripe : Nat) : Bool :=
  let b := bistOf s (p / 5)
  let u := match b.current with | some (u, _, _, _) => some u | none => b.walking.map (·.1)
  (match u with | some u => channelUnit u == some (p % 5, c) | none => false) && b.catchUp.contains (l, stripe)

/-- The channel is unusable for the stripe because of a slice or its walk (14, R350). -/
def chanAside (s : State) (p c l stripe : Nat) : Bool := chanTested s p c || chanListed s p c l stripe

/-- A fault needs a spare that a slice holds: the slice is abandoned, and the unit serves as the spare (12, Table 12.14; 14, R349). -/
def yieldSlice (s : State) (k unit_ : Nat) : State :=
  match (bistOf s k).current with
  | some (u, _, _, _) => if u = unit_ then sliceOver s k Outcome.abandonedSpare else s
  | none => s

end Sys2Proof.Machine
end

