-- ==== Sys2Proof/Machine/Memory.lean ====
section
/-! DEFINITION. Stored data: the bytes of chunk places, the light code and the stripe code (06), the valid map (05, R121), the stripe assembly buffer (06, R150 to R154) and what logs a loss. -/

namespace Sys2Proof.Machine

/-! ### Bytes in one canonical form -/

/-- Addresses strictly rising, no zero listed: an unlisted address reads as zero (log entry 5). -/
abbrev Memory.wf (m : List Host.Cell) : Prop := m.Pairwise (fun a b => a.1 < b.1) ∧ ∀ c ∈ m, c.2 ≠ 0

/-- What an address reads as. -/
def readByte (m : List Host.Cell) (a : Nat) : Byte :=
  match m.find? (fun c => c.1 == a) with
  | some c => c.2
  | none => 0

/-- The cells from an address on. -/
def dropBelow (a : Nat) : List Host.Cell → List Host.Cell
  | [] => []
  | c :: t => if c.1 < a then dropBelow a t else c :: t

/-- n bytes from an address, of cells none of which lies below it. -/
def takeCells : Nat → Nat → List Host.Cell → List Byte
  | 0, _, _ => []
  | n + 1, a, [] => 0 :: takeCells n (a + 1) []
  | n + 1, a, c :: t => if c.1 = a then c.2 :: takeCells n (a + 1) t else 0 :: takeCells n (a + 1) (c :: t)

def readRange (m : List Host.Cell) (a n : Nat) : List Byte := takeCells n a (dropBelow a m)

/-- The cells that bytes from an address on make; zeros are not listed. -/
def newCells (a : Nat) : List Byte → List Host.Cell
  | [] => []
  | b :: t => if b = 0 then newCells (a + 1) t else (a, b) :: newCells (a + 1) t

/-- Write bytes from an address on. -/
def writeRange (m : List Host.Cell) (a : Nat) (bs : List Byte) : List Host.Cell :=
  m.filter (fun c => decide (c.1 < a)) ++ newCells a bs ++ m.filter (fun c => decide (a + bs.length ≤ c.1))

/-! ### Chunk places (05, R116 to R118) -/

/-- The channel of a chunk position of a stripe (05, R116). -/
def chanOfPos (stripe pos : Nat) : Nat := (stripe % 32 + pos) % 32
/-- The channel-local chunk number (05, R116). -/
def placeOf (stripe pos : Nat) : Nat := stripe / 32 * 17 + pos
/-- DRAM row, bank and pseudo-channel of a place (05, Table 5.4); the bank is SID × 16 + BG × 4 + BA (04, Table 4.15). -/
def placeRow (l : Nat) : Nat := bits l 22 9
def placeBank (l : Nat) : Nat := bits l 8 7 * 16 + bits l 4 3 * 4 + bits l 6 5
def placePc (l : Nat) : Nat := bits l 2 2
/-- Column of the burst that holds byte b of the chunk at a place: CHUNK_IN_ROW, times 8, and the burst (05, R117). -/
def placeColumn (l b : Nat) : Nat := bits l 1 0 * 8 + b / 32

/-- Number of a chunk of a physical stack, and the address of its first byte. -/
def chunkNo (p stripe pos : Nat) : Nat := (p * stripeCount + stripe) * 17 + pos
def chunkAddr (p stripe pos : Nat) : Nat := chunkNo p stripe pos * 256

def storedLine (s : State) (p stripe pos : Nat) : Line := bytesLine (readRange s.mem.bytes (chunkAddr p stripe pos) 256)

/-- The eight bursts of a chunk arrive at the stripe layer for its pseudo-channel: reads, or writes of a line (05, R117, R123). -/
def burstsTo (s : State) (p stripe pos : Nat) (write : Option Line) : State :=
  let c := chanOfPos stripe pos
  let l := placeOf stripe pos
  let bs := (List.range 8).map (fun i => ((p * 32 + c) * 2 + placePc l,
    ({ place := l, column := placeColumn l (32 * i), write := write.isSome, since := now s, data := (write.getD 0).extractLsb' (256 * i) 256 } : Burst)))
  let s := modChan s p c (fun x => { x with lastActivity := now s })
  { s with mem := { s.mem with stripeWait := s.mem.stripeWait ++ bs } }

/-- Store a chunk with fresh check bits (06, R143). -/
def storeChunk (s : State) (p stripe pos : Nat) (d : Line) : State :=
  let s := burstsTo s p stripe pos (some d)
  { s with mem := { s.mem with bytes := writeRange s.mem.bytes (chunkAddr p stripe pos) (lineBytes d), ecc := tdel s.mem.ecc (chunkNo p stripe pos) } }

/-- Store the poison mark: data zero, check byte 0xFF in each of the 32 words (06, R145). -/
def storeMark (s : State) (p stripe pos : Nat) : State :=
  let s := storeChunk s p stripe pos 0
  { s with mem := { s.mem with ecc := tset s.mem.ecc (chunkNo p stripe pos) { marked := BitVec.allOnes 32 } } }

/-- Number of set bits among the low n. -/
def popCount (n v : Nat) : Nat := ((List.range n).filter (fun i => v.testBit i)).length

/-- What the light code makes of a stored chunk (06, R143, R145, R147). -/
structure Light where
  data : Line
  poisoned : Bool
  bad : Bool
  /-- corrected words and bits -/
  fixed : List (Nat × Nat)

def light (s : State) (p stripe pos : Nat) : Light :=
  let e := tget s.mem.ecc (chunkNo p stripe pos) {}
  let d := storedLine s p stripe pos
  let d := e.single.foldl (fun d wb => if wb.2 < 64 then d ^^^ (1#2048 <<< (64 * wb.1 + wb.2)) else d) d
  let marks := popCount 32 e.marked.toNat
  { data := d, poisoned := decide (24 ≤ marks), bad := decide (marks < 24) && (e.marked != 0 || e.double != 0), fixed := e.single }

/-! ### Which stack holds a stripe (06, R167) -/

def evacOf (s : State) (l : Nat) : Option Evac :=
  match tget? s.mem.evacs (l / 4) with
  | some e => if e.lstack = l && e.copying then some e else none
  | none => none

/-- Reads below the copy pointer are served from the spare. -/
def readStack (s : State) (l stripe : Nat) : Option Nat :=
  match servedBy s l with
  | none => none
  | some p => match evacOf s l with
    | some e => if stripe < e.pointer then some e.spare else some p
    | none => some p

/-- Writes below the copy pointer go to both stacks. -/
def writeStacks (s : State) (l stripe : Nat) : List Nat :=
  match servedBy s l with
  | none => []
  | some p => match evacOf s l with
    | some e => if stripe < e.pointer then [p, e.spare] else [p]
    | none => [p]

/-- A channel is fenced for a stripe: behind a rejoin's walk it is read directly (06, R164). -/
def chanFenced (s : State) (p c stripe : Nat) : Bool :=
  (stackOf s p).fencedChans.contains c &&
    (match (chanOf s p c).rejoin with | some ptr => decide (ptr ≤ stripe) | none => true)

/-- The chunk's channel cannot be read: fenced, or aside for a slice (06, R147; 14, R350). -/
def posGone (s : State) (l p stripe pos : Nat) : Bool :=
  let c := chanOfPos stripe pos
  chanFenced s p c stripe || chanAside s p c l stripe

/-- Two or more of the stripe's 17 channels are fenced (06, R149). -/
def doubleFenced (s : State) (p stripe : Nat) : Bool :=
  decide (2 ≤ ((List.range 17).filter (fun j => chanFenced s p (chanOfPos stripe j) stripe)).length)

/-! ### The valid map (05, R120, R121) -/

/-- The 16 valid bits of the block that holds a module offset. -/
def validBlock (s : State) (offset : Nat) : BitVec 16 := tget s.mem.valid (offset >>> 12) 0
def validAt (s : State) (offset : Nat) : Bool := (validBlock s offset).getLsbD ((offset >>> 8) % 16)

/-- Where a chunk's valid bit lies: logical stack and position of its 512 B block, byte and bit of the block (05, R120). -/
def validPlace (offset : Nat) : Nat × Nat × Nat × Nat :=
  let m := offset >>> 20
  let c := (offset >>> 8) % 4096
  (m % 16, m >>> 4, c >>> 3, c % 8)

/-- The logical stacks whose metadata hold the two copies of valid-map block m, or, for m = 0, of the extent table (12, R323). -/
def copyStacks (m : Nat) : Nat × Nat := (m % 16, (m + 4) % 16)

/-- A logical stack's metadata can be reached: a stack serves it and its region die is in service (12, R323, Table 12.11). -/
def metaReached (s : State) (l : Nat) : Bool := !stackLost s l && !(regFault s (l / 4)).fenced

/-- The logical stack from which a valid-map block, or the extent table, is read: the second only where the first is unreachable (12, R323, Table 12.11). -/
def copyServing (s : State) (m : Nat) : Option Nat :=
  if metaReached s (copyStacks m).1 then some (copyStacks m).1 else if metaReached s (copyStacks m).2 then some (copyStacks m).2 else none

/-- A table of valid bits with block m taken from another (05, R120). -/
def withBlock (t u : Tab (BitVec 16)) (m : Nat) : Tab (BitVec 16) := t.filter (fun v => v.1 / 256 != m) ++ u.filter (fun v => v.1 / 256 == m)

/-- A block of the valid map is written back to both copies, where they can be reached (05, R120; 12, R323). -/
def writeBackValid (s : State) (m : Nat) : State :=
  let c := copyStacks m
  { s with mem := { s.mem with
      validBack := if metaReached s c.1 then withBlock s.mem.validBack s.mem.valid m else s.mem.validBack
      validBack2 := if metaReached s c.2 then withBlock s.mem.validBack2 s.mem.valid m else s.mem.validBack2 } }

/-- A region's 1 MiB cache holds a block that its home agent has read or written; a modified block that it evicts is written back (05, R120). -/
def cacheValid (s : State) (k offset : Nat) (written : Bool) : State :=
  let old := tget s.mem.validCache k []
  let x := cachePut s old 2048 (offset >>> 20) written
  let out := (old.filter (fun b => b.2 && !x.1.any (fun c => c.1 == b.1))).map Prod.fst
  out.foldl writeBackValid { x.2 with mem := { x.2.mem with validCache := tset x.2.mem.validCache k x.1 } }

def setValidBlock (s : State) (offset : Nat) (v : BitVec 16) : State :=
  { s with mem := { s.mem with valid := if v = 0 then tdel s.mem.valid (offset >>> 12) else tset s.mem.valid (offset >>> 12) v } }
def setValid (s : State) (offset : Nat) : State :=
  setValidBlock s offset (validBlock s offset ||| (1#16 <<< ((offset >>> 8) % 16)))

/-- The chunks of a stripe whose bits of the valid map are listed at v lie in an extent (02, Table 2.10). -/
def inExtent (e : Extent) (v : Nat) : Bool := decide (e.base * 512 ≤ v) && decide (v < (e.base + e.size) * 512)

/-- Clear every valid bit of an extent (02, Table 2.10, step 6): the caches of the home regions hold the blocks changed (05, R120). -/
def clearValid (s : State) (e : Extent) : State :=
  let held := s.mem.valid.filter (fun v => inExtent e v.1)
  let s := { s with mem := { s.mem with valid := s.mem.valid.filter (fun v => !inExtent e v.1) } }
  held.foldl (fun s v => cacheValid s (homeRegion s (v.1 * 4096)) (v.1 * 4096) true) s

/-- Every block that no region's cache holds is as the copy that serves it has it (05, R120; 12, R323).
DESIGN CHOICE, log entry 29: where neither copy can be reached the bits stay. -/
def reloadValid (s : State) : State :=
  let cached := fun (m : Nat) => s.mem.validCache.any (fun c => c.2.any (fun b => b.1 == m))
  let ms := ((s.mem.valid ++ s.mem.validBack ++ s.mem.validBack2).map (fun v => v.1 / 256)).eraseDups.filter (fun m => !cached m)
  ms.foldl (fun s m => match copyServing s m with
    | none => s
    | some l => { s with mem := { s.mem with valid := withBlock s.mem.valid (if l = (copyStacks m).1 then s.mem.validBack else s.mem.validBack2) m } }) s

/-- Valid bits of a stripe's stored chunks, which the stored parity covers: all for metadata (06, R144), those of its entry's opening while one is buffered (06, R150), else the valid map's. -/
def stripeValid (s : State) (l stripe : Nat) : BitVec 16 :=
  if metaStripe ≤ stripe then BitVec.allOnes 16
  else match s.mem.sab.find? (fun e => e.lstack == l && e.stripe == stripe) with
    | some e => e.oldValid
    | none => match stripeOwner s l stripe with
      | some (_, o) => validBlock s o
      | none => 0

/-! ### Records of errors (06, R157 to R160) -/

/-- A trigger of row repair falls on the row of a place (06, R158); once some bank of the stack has had a trigger it could not serve, it asks for evacuation too (06, R159, R165). -/
def rowTrigger (s : State) (p c place : Nat) : State :=
  let r : RowRef := { stack := p, chan := c, row := place >>> 2 }
  let s := if (stackOf s p).repairExhausted then modStack s p (fun x => { x with repairTrigger := true }) else s
  if s.mem.rowsDue.contains r then s else { s with mem := { s.mem with rowsDue := s.mem.rowsDue ++ [r] } }

/-- One corrected word in the region's blotter (06, R157), and the row-repair trigger of R158. -/
def blot (s : State) (p c place word bit_ source : Nat) : State :=
  let k := p / 5
  let pos := p % 5
  let s := stackLife (modStack s p (fun x => { x with ceWords := satInc 32 x.ceWords })) p 0x000 1
  let b := tget s.mem.blotters k {}
  let same := fun (e : BlotEntry) => e.position == pos && e.chan == c && e.place == place && e.word == word && e.bit == bit_
  let fresh : BlotEntry := { timestamp := stamp s, count := 1, position := pos, chan := c, place := place, word := word, bit := bit_, source := source }
  let put := fun (s : State) (b : Blotter) => { s with mem := { s.mem with blotters := tset s.mem.blotters k b } }
  let s :=
    if b.entries.any same then put s { b with entries := b.entries.map (fun e => if same e then { e with count := satInc 16 e.count } else e) }
    else if b.entries.length < 64 then put s { b with entries := b.entries ++ [fresh] }
    else
      let least := b.entries.foldl (fun m e => min m e.count) 0xFFFF
      let old := b.entries.filter (fun e => e.count == least)
      let oldest := old.foldl (fun m e => min m e.timestamp) (2 ^ 64)
      let i := b.entries.findIdx (fun e => e.count == least && e.timestamp == oldest)
      let s := put s { b with entries := b.entries.set i fresh, overflow := satInc 32 b.overflow, noted := true }
      if b.noted then s else noteR s k (unitId Kind.stack pos) Cause.blotterFull
  let b := tget s.mem.blotters k {}
  if 3 ≤ (b.entries.filter (fun e => e.position == pos && e.chan == c && e.place >>> 2 == place >>> 2)).length then rowTrigger s p c place else s

def blotAll (s : State) (p stripe pos source : Nat) (fixed : List (Nat × Nat)) : State :=
  fixed.foldl (fun s wb => blot s p (chanOfPos stripe pos) (placeOf stripe pos) wb.1 wb.2 source) s

/-- A loss enters the poison log, or overflows it (06, R160). -/
def logPoison (s : State) (e : PoisonEntry) : State :=
  if s.mem.poison.length < 256 then { s with mem := { s.mem with poison := s.mem.poison ++ [{ e with timestamp := stamp s }], poisonNoted := false } }
  else
    let s1 := { s with mem := { s.mem with poisonOverflow := satInc 32 s.mem.poisonOverflow, poisonNoted := true } }
    if s.mem.poisonNoted then s1 else noteHub s1 Cause.poisonLogFull

/-- A chunk is lost: poison log, counters, NOTE (06, R148). -/
def loseChunk (s : State) (l p stripe pos cause : Nat) : State :=
  let own := if stripe < metaStripe then stripeOwner s l stripe else none
  let e : PoisonEntry := { timestamp := 0, offset := (own.map (fun o => o.2 + 256 * pos)).getD 0, stripe := stripe, position := pos, lstack := l,
                           physPosition := p % 5, cause := cause, offsetValid := own.isSome, ext := (own.map Prod.fst).getD 0 }
  let s := logPoison s e
  let s := stackLife (modStack s p (fun x => { x with poisoned := satInc 32 x.poisoned })) p 0x010 1
  noteR s (p / 5) (unitId Kind.stack (p % 5)) Cause.dataPoisoned

/-- Entries of the reserved part of a region's stripe buffer in use: one for each corrective rewrite scheduled and each stripe lock held by another holder; the part has 1,024 (06, R147, R150). -/
def reservedSab (s : State) (k : Nat) : Nat :=
  (s.mem.rewrites.filter (fun r => r.lstack / 4 == k)).length + (s.mem.locks.filter (fun x => x.lstack / 4 == k && x.held && x.kind != .rewrite)).length

/-- A bank of a region's stripe buffer is under test, or failed its slice (14, R345, Table 14.1). -/
def bankOut (s : State) (k bank : Nat) : Bool :=
  (match (bistOf s k).current with | some (u, seg, _, _) => u == unitId Kind.stripeBuffer 0 && seg == bank | none => false) ||
  s.fault.carriers.contains (false, k, unitId Kind.stripeBuffer 0, bank)

/-- The banks of a region's stripe buffer that serve, of 16. -/
def banksIn (s : State) (k : Nat) : List Nat := (List.range 16).filter (fun b => !bankOut s k b)

/-- The reserved part, 64 entries of each bank, has room for some more (06, R150; 14, Table 14.1). -/
def reservedRoom (s : State) (k n : Nat) : Bool := decide (reservedSab s k + n ≤ 64 * (banksIn s k).length)

/-- A corrective rewrite is scheduled and asks for the stripe's lock, which makes a buffered entry of the stripe commit first (06, R147, R152, R156).
DESIGN CHOICE, log entry 27: with no reserved entry free it is not scheduled, and the next read that finds the error schedules it. -/
def schedule (s : State) (l stripe pos : Nat) (d : Line) : State :=
  if !reservedRoom s (l / 4) 1 && !s.mem.rewrites.any (fun r => r.lstack == l && r.stripe == stripe && r.pos == pos) then s else
  let kept := s.mem.rewrites.filter (fun r => !(r.lstack == l && r.stripe == stripe && r.pos == pos))
  let sab := s.mem.sab.map (fun e => if e.lstack == l && e.stripe == stripe then { e with due := true } else e)
  let s := { s with mem := { s.mem with rewrites := kept ++ [({ lstack := l, stripe := stripe, pos := pos, data := d } : Rewrite)], sab := sab } }
  if s.mem.locks.any (fun (k : StripeLock) => k.lstack == l && k.stripe == stripe && k.kind == LockKind.rewrite) then s
  else { s with mem := { s.mem with locks := s.mem.locks ++ [({ lstack := l, stripe := stripe, kind := .rewrite } : StripeLock)] } }

/-! ### Reading (06, R147, R148) -/

/-- Store a chunk, or its mark, on every stack that takes writes of the stripe, but for a stack whose channel is fenced or aside for a slice (06, R153, R167). -/
def putChunk (s : State) (l stripe pos : Nat) (d : Option Line) : State :=
  (writeStacks s l stripe).foldl (fun s p =>
    if posGone s l p stripe pos then s
    else match d with
      | some d => storeChunk s p stripe pos d
      | none => storeMark s p stripe pos) s

/-- Write a stripe's parity on every stack that takes its writes and can: the mark where the stack holds a chunk that it could give through parity alone and that has no value (06, R146, R148, R153, R167). -/
def putParity (s : State) (l stripe : Nat) (d : Line) (noValue : Nat → Bool) : State :=
  (writeStacks s l stripe).foldl (fun s p =>
    if posGone s l p stripe 16 then s
    else if !doubleFenced s p stripe && (List.range 16).any (fun k => posGone s l p stripe k && noValue k) then storeMark s p stripe 16
    else storeChunk s p stripe 16 d) s

/-- Whether the stripe code can give a chunk: parity and every other valid chunk can be read (06, R147). -/
def rebuildable (s : State) (l p stripe pos : Nat) : Bool :=
  let v := stripeValid s l stripe
  let par := light s p stripe 16
  !posGone s l p stripe 16 && !par.poisoned && !par.bad &&
  (List.range 16).all (fun k => k == pos || !v.getLsbD k || (!posGone s l p stripe k && !(light s p stripe k).bad))

/-- The XOR of parity and the other data chunks, each read by the light code, its corrections recorded; nothing where a second chunk is missing (06, R147, R157). -/
def rebuild (s : State) (l p stripe pos source : Nat) : Option Line × State :=
  let v := stripeValid s l stripe
  let par := light s p stripe 16
  if posGone s l p stripe 16 || par.poisoned then (none, s)
  else
    let s := blotAll (burstsTo s p stripe 16 none) p stripe 16 source par.fixed
    let x := (List.range 16).foldl (fun (acc : Option Line × State) k =>
      match acc with
      | (none, s) => (none, s)
      | (some x, s) =>
        if k = pos || !v.getLsbD k then (some x, s)
        else if posGone s l p stripe k then (none, s)
        else
          let r := light s p stripe k
          let s := burstsTo s p stripe k none
          if r.poisoned then (some x, s)
          else
            let s := blotAll s p stripe k source r.fixed
            if r.bad then (none, s) else (some (x ^^^ r.data), s)) (some par.data, s)
    (if par.bad then none else x.1, x.2)

/-- Logical value of a data chunk after losses have been marked: zero where clear, poisoned or unreadable (06, R144). -/
def logical (s : State) (l p stripe k : Nat) : Line :=
  if !(stripeValid s l stripe).getLsbD k then 0
  else if posGone s l p stripe k then 0
  else
    let r := light s p stripe k
    if r.poisoned || r.bad then 0 else r.data

/-- The XOR of the logical values of the 16 data chunks. -/
def parityOf (s : State) (l p stripe : Nat) : Line := (List.range 16).foldl (fun x k => x ^^^ logical s l p stripe k) 0

/-- Valid data chunks of a stripe that are erased: unreadable, or with an uncorrectable word (06, R143). -/
def erasedChunks (s : State) (l p stripe : Nat) : List Nat :=
  (List.range 16).filter (fun k => (stripeValid s l stripe).getLsbD k && (posGone s l p stripe k || (light s p stripe k).bad))

/-- A data chunk of the stripe is erased. -/
def anyErased (s : State) (l p stripe : Nat) : Bool := !(erasedChunks s l p stripe).isEmpty

/-- The parity of a stripe is lost: its chunk can be read and carries the mark (06, R146). -/
def parityLost (s : State) (l p stripe : Nat) : Bool := !posGone s l p stripe 16 && (light s p stripe 16).poisoned

/-- A valid data chunk has no value: it is lost, or the stack that is read gives it as poisoned (06, R145, R146). -/
def valueLost (s : State) (l p stripe k : Nat) : Bool :=
  (stripeValid s l stripe).getLsbD k && (if posGone s l p stripe k then parityLost s l p stripe else (light s p stripe k).poisoned)

/-- Two erasures: the lost chunks are marked on every stack that can take the mark, parity marked or rewritten, each new loss logged (06, R148, R167).
A chunk on a fenced channel has been lost before where parity was lost, or where two channels are fenced (06, R146, R149). -/
def stripeLoss (s : State) (l p stripe : Nat) : State :=
  let lost := erasedChunks s l p stripe
  let old := doubleFenced s p stripe || parityLost s l p stripe
  let s := lost.foldl (fun s k => putChunk s l stripe k none) s
  let s := putParity s l stripe (parityOf s l p stripe) (fun k => lost.contains k || valueLost s l p stripe k)
  (if old then lost.filter (fun k => !posGone s l p stripe k) else lost).foldl (fun s k => loseChunk s l p stripe k 0) s

/-- A chunk with an uncorrectable word, or on a channel that cannot be read, is rebuilt; where it cannot be, the stripe's losses are handled, and nothing is answered (06, R147, R148). -/
def rebuildOrLose (s : State) (l p stripe pos source : Nat) : Option Line × State :=
  let x := rebuild s l p stripe pos source
  match x.1 with
  | some d => (some d, x.2)
  | none => (none, stripeLoss x.2 l p stripe)

/-- Read a chunk's own 32 words (06, R147; 14, R351): corrected, or rebuilt and a rewrite scheduled; a slice that keeps a needed channel away is abandoned first. -/
def readDirect (s : State) (l p stripe pos source : Nat) : Option Line × State :=
  let s := burstsTo s p stripe pos none
  let r := light s p stripe pos
  if r.poisoned then (none, s)
  else
    let s := blotAll s p stripe pos source r.fixed
    if r.bad then
      let kept := (List.range 17).any (fun j => chanTested s p (chanOfPos stripe j) && !chanListed s p (chanOfPos stripe j) l stripe)
      let s := if kept && !rebuildable s l p stripe pos then sliceOver s (p / 5) Outcome.abandonedErasure else s
      let x := rebuildOrLose s l p stripe pos source
      match x.1 with
      | some d =>
        let stamps := ((stackOf x.2 p).ueStamps.filter (fun t => decide (now s < t + 86400 * second))) ++ [now s]
        (some d, schedule (stackLife (modStack x.2 p (fun x => { x with ueRebuilt := satInc 32 x.ueRebuilt, ueStamps := stamps })) p 0x008 1) l stripe pos d)
      | none => (none, x.2)
    else if r.fixed.isEmpty then (some r.data, s)
    else (some r.data, schedule s l stripe pos r.data)

/-- Read a data chunk (06, R147 to R149; 14, R351): its data, or nothing where it is poisoned or lost, answered DATA_ERROR. -/
def readChunk (s : State) (l stripe pos source : Nat) : Option Line × State :=
  if !(stripeValid s l stripe).getLsbD pos then (some 0, s)
  else match readStack s l stripe with
  | none => (none, s)
  | some p =>
    if !posGone s l p stripe pos then readDirect s l p stripe pos source
    else if doubleFenced s p stripe && chanFenced s p (chanOfPos stripe pos) stripe then (none, s)
    else if (!rebuildable s l p stripe pos || parityLost s l p stripe) && chanTested s p (chanOfPos stripe pos) && !chanListed s p (chanOfPos stripe pos) l stripe
    then readDirect (sliceOver s (p / 5) Outcome.abandonedErasure) l p stripe pos source
    else if parityLost s l p stripe then (none, s)
    else rebuildOrLose s l p stripe pos source

/-- Parity of a stripe whose parity chunk cannot be used, from its data chunks, each read in full; nothing where one of them is erased too, and the stripe's losses are handled (06, R393, R148). -/
def rebuildParity (s : State) (l p stripe source : Nat) : Option Line × State :=
  if anyErased s l p stripe then (none, stripeLoss s l p stripe)
  else
    let x := (List.range 16).foldl (fun (acc : Line × State) k =>
      let r := readChunk acc.2 l stripe k source
      (acc.1 ^^^ r.1.getD 0, r.2)) (0, s)
    (some x.1, x.2)

/-! ### The stripe assembly buffer (06, R150 to R154) -/

def sabAt (s : State) (l stripe : Nat) : Option SabEntry := s.mem.sab.find? (fun e => e.lstack == l && e.stripe == stripe)
def sabDrop (s : State) (l stripe : Nat) : State :=
  { s with mem := { s.mem with sab := s.mem.sab.filter (fun e => !(e.lstack == l && e.stripe == stripe)) } }
/-- An entry is kept in its place; a new one stands behind those opened before it. -/
def sabPut (s : State) (e : SabEntry) : State :=
  { s with mem := { s.mem with sab :=
      if (sabAt s e.lstack e.stripe).isSome then s.mem.sab.map (fun x => if x.lstack == e.lstack && x.stripe == e.stripe then e else x)
      else s.mem.sab ++ [e] } }

/-- A chunk of an entry: touched, and fully written (06, R153). -/
def SabEntry.touched (e : SabEntry) (k : Nat) : Bool := e.mask.getD k 0 != 0 || e.poison.getLsbD k
def SabEntry.full (e : SabEntry) (k : Nat) : Bool := e.mask.getD k 0 == BitVec.allOnes 32 || e.poison.getLsbD k

/-- Merge an entry's words of a chunk over older data. -/
def SabEntry.beyond (e : SabEntry) (k : Nat) (old : Line) : Line :=
  let m := (e.mask.getD k 0).toNat
  (List.range 32).foldl (fun d w => if m.testBit w then mergeWords d (e.data.getD k 0) w 1 else d) old

/-- A commit of a stripe whose channel is aside for a slice lists the stripe; at 3,584 entries the slice ends early (14, R350). -/
def listCatchUp (s : State) (l stripe : Nat) : State :=
  (writeStacks s l stripe).foldl (fun s p =>
    let k := p / 5
    if (List.range 17).any (fun j => chanTested s p (chanOfPos stripe j)) && !(bistOf s k).catchUp.contains (l, stripe) then
      let s := modBist s k (fun b => { b with catchUp := b.catchUp ++ [(l, stripe)] })
      if 3584 ≤ (bistOf s k).catchUp.length then sliceOver s k Outcome.endedEarly else s
    else s) s

/-- A touched chunk of a commit: its new value, nothing for a mark, and its old one where it was read. -/
structure NewChunk where
  pos : Nat
  new : Option Line
  old : Option Line := none

/-- The touched chunks of a commit, the old values of those partly written read (06, R146, R149, R153, R154). -/
def newChunks (s : State) (e : SabEntry) (p : Nat) : List NewChunk × State :=
  (List.range 16).foldl (fun acc k =>
    let s := acc.2
    let hopeless := doubleFenced s p e.stripe && chanFenced s p (chanOfPos e.stripe k) e.stripe
    if !e.touched k then acc
    else if e.poison.getLsbD k then (acc.1 ++ [{ pos := k, new := none }], s)
    else if e.bad.getD k 0 != 0 then (acc.1 ++ [{ pos := k, new := none }], loseChunk s e.lstack p e.stripe k 1)
    else if hopeless then (acc.1 ++ [{ pos := k, new := none }], loseChunk s e.lstack p e.stripe k 0)
    else if e.full k || !e.oldValid.getLsbD k then (acc.1 ++ [{ pos := k, new := some (e.beyond k 0) }], s)
    else match readChunk s e.lstack e.stripe k 2 with
      | (some old, s) => (acc.1 ++ [{ pos := k, new := some (e.beyond k old), old := some old }], s)
      | (none, s) => (acc.1 ++ [{ pos := k, new := none, old := some 0 }], s)) ([], s)

/-- How a commit makes the stripe's parity (06, R153): not at all, fresh from the new chunks, DELTA, RECONSTRUCT. -/
inductive Method where
  | leave | fresh | delta | reconstruct
deriving DecidableEq, Repr

/-- The data chunks of a stripe whose channels cannot be used. -/
def fencedData (s : State) (l p stripe : Nat) : List Nat := (List.range 16).filter (fun k => posGone s l p stripe k)

/-- A full write of the fenced chunk restores a parity that was lost, while the other data chunks can be read (06, R146). -/
def restores (s : State) (e : SabEntry) (p : Nat) : Bool :=
  match fencedData s e.lstack p e.stripe with
  | k :: _ => e.full k && !e.poison.getLsbD k && (List.range 16).all (fun j => j == k || e.touched j || !e.oldValid.getLsbD j || !(light s p e.stripe j).bad)
  | [] => false

/-- The method of a commit (06, R146, R149, R153). -/
def methodOf (s : State) (e : SabEntry) (p : Nat) : Method :=
  let l := e.lstack
  let st := e.stripe
  let a := ((List.range 16).filter (fun k => e.touched k && e.oldValid.getLsbD k)).length + 1
  let b := ((List.range 16).filter (fun k => e.oldValid.getLsbD k && (!e.touched k || !e.full k))).length
  if (List.range 16).all e.full || e.oldValid == 0 then .fresh
  else if posGone s l p st 16 then .leave
  else if parityLost s l p st then (if restores s e p then .reconstruct else .leave)
  else match fencedData s l p st with
    | [] => if a < b then .delta else .reconstruct
    | f => if f.any e.touched then .reconstruct else .delta

/-- The old values a commit reads and their XOR: of the chunks a condition picks that have an old value, but for those read before (06, R153). -/
def oldSum (s : State) (e : SabEntry) (new : List NewChunk) (pick : Nat → Bool) : Line × State :=
  (List.range 16).foldl (fun (acc : Line × State) k =>
    if e.oldValid.getLsbD k && pick k then
      match (new.find? (fun c => c.pos == k)).bind (·.old) with
      | some d => (acc.1 ^^^ d, acc.2)
      | none => let r := readChunk acc.2 e.lstack e.stripe k 2; (acc.1 ^^^ r.1.getD 0, r.2)
    else acc) (0, s)

/-- Every touched chunk of a commit is written, and parity where it is given, as the mark where it cannot hold a fenced chunk, be it written without a value or lost before (06, R146, R148, R153, R167). -/
def commitWrite (s : State) (e : SabEntry) (p : Nat) (new : List NewChunk) (par : Option Line) : State :=
  let l := e.lstack
  let st := e.stripe
  let write := fun (s : State) => new.foldl (fun s c => putChunk s l st c.pos c.new) s
  match par with
  | none => write s
  | some x => putParity (write s) l st x (fun k => match new.find? (fun c => c.pos == k) with
    | some c => c.new.isNone
    | none => e.oldValid.getLsbD k && valueLost s l p st k)

/-- Commit an entry (06, R146, R153, R154, R393; 14, R350). -/
def commitEntry (s : State) (e : SabEntry) : State :=
  let l := e.lstack
  let st := e.stripe
  match readStack s l st with
  | none => sabDrop s l st
  | some p =>
    let method := methodOf s e p
    let nc := newChunks s e p
    let new := nc.1
    let sum := new.foldl (fun x c => x ^^^ c.new.getD 0) 0
    let reconstruct := fun (s : State) => let x := oldSum s e new (fun k => !e.touched k); commitWrite x.2 e p new (some (x.1 ^^^ sum))
    let s := nc.2
    let s := match method with
      | .fresh => commitWrite s e p new (some sum)
      | .leave => commitWrite s e p new none
      | .reconstruct => reconstruct s
      | .delta =>
        let par := light s p st 16
        let s := blotAll (burstsTo s p st 16 none) p st 16 2 par.fixed
        if par.bad then reconstruct s
        else
          let x := oldSum s e new e.touched
          commitWrite x.2 e p new (some ((light x.2 p st 16).data ^^^ x.1 ^^^ sum))
    listCatchUp (sabDrop s l st) l st

/-- Room of the general part of a region's buffer, 192 entries of each bank that serves (06, R150; 14, Table 14.1). -/
def sabRoom (s : State) (k : Nat) : Nat := 192 * (banksIn s k).length

/-- The bank in which a new entry opens: the lowest serving one whose general part has room.
DESIGN CHOICE, log entry 27: the spec does not say which bank holds an entry (14, Table 14.1). -/
def bankFor (s : State) (k : Nat) : Nat :=
  ((banksIn s k).find? (fun b => decide ((s.mem.sab.filter (fun e => e.region == k && e.bank == b)).length < 192))).getD 0

/-- Open an entry; a full part first commits the entry that opened first (06, R152). -/
def sabOpen (s : State) (k l stripe ext base : Nat) (old : BitVec 16) : SabEntry × State :=
  match sabAt s l stripe with
  | some e => (e, s)
  | none =>
    let mine := s.mem.sab.filter (fun e => e.region == k)
    let s := if mine.length < sabRoom s k then s
      else match mine.head? with
        | some e => commitEntry s e
        | none => s
    ({ region := k, lstack := l, stripe := stripe, ext := ext, offset := base, data := List.replicate 16 0, mask := List.replicate 16 0,
       oldValid := old, openedAt := now s, bad := List.replicate 16 0, bank := bankFor s k }, s)

/-- A chunk that reads as poisoned or whose value no code can hold, so that a partial write to it is answered DATA_ERROR (06, R146, R149). -/
def chunkPoisoned (s : State) (l stripe pos : Nat) : Bool :=
  match sabAt s l stripe with
  | some e => e.poison.getLsbD pos || e.bad.getD pos 0 != 0 || (!e.full pos && stored s l stripe pos)
  | none => stored s l stripe pos
where
  stored (s : State) (l stripe pos : Nat) : Bool :=
    (stripeValid s l stripe).getLsbD pos &&
    match readStack s l stripe with
    | none => true
    | some p =>
      if posGone s l p stripe pos then parityLost s l p stripe
      else (light s p stripe pos).poisoned

/-- No code can hold the data of a chunk: it lies on a fenced channel of a stripe with two (06, R149), or its stack is gone. -/
def chunkHopeless (s : State) (l stripe pos : Nat) : Bool :=
  match readStack s l stripe with
  | none => true
  | some p => doubleFenced s p stripe && chanFenced s p (chanOfPos stripe pos) stripe

/-- Write words of a line through the buffer (06, R151; 05, R121; 03, R61): nothing where the write is answered DATA_ERROR. -/
def writeLine (s : State) (ext offset : Nat) (d : Line) (first count : Nat) (poison : Bool) : Option State :=
  let e := extentOf s ext
  let pl := mapOffset e offset
  let whole := first = 0 ∧ count = 32
  if chunkHopeless s pl.lstack pl.stripe pl.index || (!decide whole && chunkPoisoned s pl.lstack pl.stripe pl.index) then none
  else
    let base := offset / 4096 * 4096
    let o := sabOpen s (pl.lstack / 4) pl.lstack pl.stripe ext (offset - pl.index * 256) (validBlock s base)
    let en := o.1
    let i := pl.index
    let bit_ := 1#16 <<< i
    let en := { en with
      data := en.data.set i (mergeWords (en.data.getD i 0) d first count)
      mask := en.mask.set i (en.mask.getD i 0 ||| ((BitVec.allOnes 32 >>> (32 - count)) <<< first))
      bad := en.bad.set i (en.bad.getD i 0 &&& ~~~((BitVec.allOnes 32 >>> (32 - count)) <<< first))
      poison := if poison then en.poison ||| bit_ else if whole then en.poison &&& ~~~bit_ else en.poison }
    let en := { en with due := en.due || (List.range 16).all (fun k => en.mask.getD k 0 == BitVec.allOnes 32) }
    some (setValid (sabPut o.2 en) offset)

/-- Read a line through the valid map, the buffer and the codes (05, R121; 06, R147, R151): nothing for DATA_ERROR. -/
def readLine (s : State) (ext offset : Nat) : Option Line × State :=
  if !validAt s offset then (some 0, s)
  else
    let pl := mapOffset (extentOf s ext) offset
    match sabAt s pl.lstack pl.stripe with
    | some e =>
      if e.poison.getLsbD pl.index || e.bad.getD pl.index 0 != 0 then (none, s)
      else if e.full pl.index then (some (e.data.getD pl.index 0), s)
      else if !e.oldValid.getLsbD pl.index then (some (e.beyond pl.index 0), s)
      else match readChunk s pl.lstack pl.stripe pl.index 0 with
        | (some d, s) => (some (e.beyond pl.index d), s)
        | (none, s) => (none, s)
    | none => readChunk s pl.lstack pl.stripe pl.index 0

/-- A stripe lock is held (06, R156). -/
def stripeLocked (s : State) (l stripe : Nat) : Bool := s.mem.locks.any (fun k => k.lstack == l && k.stripe == stripe && k.held)

/-- The stripe of a line of an extent is locked, so that bursts for it wait. -/
def lineLocked (s : State) (ext offset : Nat) : Bool :=
  let pl := mapOffset (extentOf s ext) offset
  stripeLocked s pl.lstack pl.stripe

end Sys2Proof.Machine
end

