-- ==== Sys2Proof/Machine/Home.lean ====
section
/-! DEFINITION. The home agent (04): activation of transactions, snoops and their answers, crossings, directory transitions, host failure, completion. -/

namespace Sys2Proof.Machine

/-! ### Classes of requests (03, Table 3.2; 04, Table 4.6) -/

def isAtomic (op : Nat) : Bool := decide (Op.atomicAdd ≤ op) && decide (op ≤ Op.atomicSmin)
def isPlainRead (op : Nat) : Bool := op == Op.read || op == Op.readNoalloc
def isAlloc (op : Nat) : Bool := op == Op.readShared || op == Op.readOwn || op == Op.upgrade
def isPlainWrite (op : Nat) : Bool := op == Op.write || op == Op.writeNoalloc || op == Op.zeroLine
def isVc1 (op : Nat) : Bool := op == Op.writeback || op == Op.evictClean
def isLaunch (op : Nat) : Bool := op == Op.sprayLaunch || op == Op.poolOpLaunch

/-- A full-line write (04, R99): every byte of the line is written. -/
def fullLineWrite (r : Req) : Bool :=
  r.op == Op.zeroLine ||
  ((r.op == Op.write || r.op == Op.writeNoalloc) && r.offset % 256 == 0 && r.length == 31 && (r.bytes.isNone || r.bytes == some (BitVec.allOnes 256)))

/-- The line of a request. -/
def Req.line (r : Req) : Nat := r.offset / 256

/-! ### Snoops -/

/-- A port of the region for a packet of the module's own, by the rotating pointer (01, R26; 04, R92).
DESIGN CHOICE, log entry 27: where the region has no active port, any active port of the module, by the module's pointer; where there is none, it waits on the region's port 0. -/
def outPort (s : State) (k : Nat) : Nat × State :=
  match rotate 8 (regionOf s k).replyPtr (fun i => portActive s (regionPort k i)) with
  | some i => (regionPort k i, modRegion s k (fun r => { r with replyPtr := (i + 1) % 8 }))
  | none => match rotate 32 s.link.modPtr (fun i => portActive s i) with
    | some i => (i, { s with link := { s.link with modPtr := (i + 1) % 32 } })
    | none => (regionPort k 0, s)

/-- Tags of snoops to a slot that have had no answer: of the active transactions, and of snoops that a folded message closed before their own answer (03, R65; 04, R103, R104). -/
def snoopTagsOut (s : State) (slot : Nat) : List Nat :=
  (s.coh.lines.flatMap (fun l => (l.2.active.map (·.snoops)).getD [])).filterMap (fun x => if x.slot == slot && x.st != .unsent then some x.tag else none) ++
  (s.coh.closing.filter (fun c => c.1 == slot)).map (fun c => c.2.2)

/-- The tag of a region's next snoop to a slot: the first after the last one that is not outstanding toward it, if any of the 16,384 is free (03, R65). -/
def snoopTag (s : State) (k slot : Nat) : Option Nat :=
  let out := snoopTagsOut s slot
  let last := tget s.coh.snoopTags k 0
  (((List.range (min 16384 (out.length + 1))).map (fun i => (last + 1 + i) % 2 ^ 14)).find? (fun t => !out.contains (k * 2 ^ 14 + t)))

/-- Send a snoop and say how it stands; it waits where no tag is free (03, R56, R65, R74; 04, R99; 11, R303). -/
def sendSnoop (s : State) (k line slot : Nat) (invalidate : Bool) : Snoop × State :=
  let offset := line * 256
  let tenant := match extentAt s offset with | some n => (extentOf s n).tenant | none => 0
  let sl := slotOf s slot
  match snoopTag s k slot with
  | none => ({ slot := slot, gen := sl.gen, invalidate := invalidate, sentAt := now s, tag := k * 2 ^ 14, tenant := tenant, st := .unsent }, s)
  | some t =>
  let tag := k * 2 ^ 14 + t
  let s := { s with coh := { s.coh with snoopTags := tset s.coh.snoopTags k t } }
  let op := if invalidate then Op.snoopInvalidate else Op.snoopShared
  if slot = 0 then
    ({ slot := 0, gen := 0, invalidate := invalidate, sentAt := now s, tag := tag, tenant := tenant },
     sendDl s { opcode := op, tag := tag, tenant := tenant, address := offset, length := 31 })
  else
    let epoch := (tenantOf? s tenant).map (·.epoch)
    let c := nextCounter (epochAdd s tenant epoch) k
    let q : Packet := { opcode := op, tag := tag, tenant := tenant, keyEpoch := (epoch.getD 0) % 2, source := selfId s, dest := sl.host, vc := 2,
                        roleGen := sl.gen, length := 31, address := selfId s * 2 ^ 40 + offset, msgCounter := c.1 }
    let q := match tenantOf? s tenant with | some t => protect t.key q | none => q
    let r := outPort c.2 k
    ({ slot := slot, gen := sl.gen, invalidate := invalidate, sentAt := now s, tag := tag, tenant := tenant, epoch := epoch }, sendOn r.2 r.1 q)

/-- The failure rule applied to an entry that names failed slots (04, R111). -/
def failEntry (s : State) (e : DirEntry) : DirEntry :=
  let failed := fun n => (slotOf s n).st == SlotState.failed
  match e.st with
  | .em => if failed e.ownerSlot then { st := .lost, ownerSlot := e.ownerSlot, ownerGen := e.ownerGen,
                                        lostSource := if e.ownerSlot = 0 then selfId s else (slotOf s e.ownerSlot).host } else e
  | .s =>
    let left := e.sharers.filter (fun n => !failed n)
    if left.isEmpty then {} else { e with sharers := left }
  | _ => e

/-- An entry as the home agent finds it when it touches it. -/
def touchDir (s : State) (w : Nat) : DirEntry × State :=
  let e := failEntry s (dirOf s w)
  let s := if e.st = .lost ∧ (dirOf s w).st ≠ .lost then { s with coh := { s.coh with lostStamps := tset s.coh.lostStamps w (stamp s) } } else s
  (e, setDir s w e)

/-- An entry is written, as the home agent then finds it (04, R111): a slot that has failed since the transaction began leaves it. -/
def writeEntry (s : State) (w : Nat) (e : DirEntry) : State := (touchDir (setDir s w e) w).2

/-- A slice of a region's directory caches nothing: it is in bypass, or under its own slice (12, R324; 14, Table 14.1). -/
def sliceBypassed (s : State) (k slice : Nat) : Bool :=
  s.fault.slicesBypassed.contains (k * 16 + slice) ||
  (match (bistOf s k).current with | some (u, _, _, _) => u == unitId Kind.dirSlice slice | none => false)

/-- Number of a set of a directory slice (04, R89). -/
def cacheSet (k w : Nat) : Nat := (k * 16 + w % 16) * 4096 + w / 16 % 3072

/-- Working ways of a set: 16, less those lost and not replaced by its spare (04, R89; 12, Table 12.10). -/
def setWays (s : State) (set : Nat) : Nat := let e := tget s.fault.waysLost set (0, 0); 16 - (e.1 - e.2)

/-- A home agent's slice caches an entry that it has read or written (04, R89). -/
def cacheEntry (s : State) (k w : Nat) (written : Bool) : State :=
  if sliceBypassed s k (w % 16) then s
  else
    let set := cacheSet k w
    let x := cachePut s (tget s.coh.dirCache set []) (setWays s set) w written
    { x.2 with coh := { x.2.coh with dirCache := tset x.2.coh.dirCache set x.1 } }

/-- Where an entry's backing copy lies: its logical stack, and its position in that stack's share of the directory area (04, R89). -/
def entryPlace (w : Nat) : Nat × Nat := (w % 16, w / 16)

/-- Window index of a line, where its extent is coherent (04, R88, R89). -/
def lineWindow (s : State) (line : Nat) : Option Nat :=
  match extentAt s (line * 256) with
  | some n => if (extentOf s n).coherent then some (windowIndex (extentOf s n) (line * 256)) else none
  | none => none

/-- Snoops a request's row names: slot and whether to invalidate; r is the requesting slot of an allocating request (04, Table 4.6, R390). -/
def rowSnoops (op : Nat) (e : DirEntry) (r : Option Nat) : List (Nat × Bool) :=
  let others := fun (l : List Nat) => l.filter (fun n => some n != r)
  if isPlainRead op then (if e.st = .em then [(e.ownerSlot, false)] else [])
  else if op = Op.readShared then (if e.st = .em ∧ some e.ownerSlot ≠ r then [(e.ownerSlot, false)] else [])
  else if op = Op.readOwn ∨ op = Op.upgrade then
    (if e.st = .s then (others e.sharers).map (fun n => (n, true)) else if e.st = .em ∧ some e.ownerSlot ≠ r then [(e.ownerSlot, true)] else [])
  else if isPlainWrite op || isAtomic op then
    (if e.st = .s then e.sharers.map (fun n => (n, true)) else if e.st = .em then [(e.ownerSlot, true)] else [])
  else []

/-- The slot that a host request or message is judged by (04, R106). -/
def requestSlot (s : State) (r : Req) : Option Nat := slotHeld s r.source (isVc1 r.op)

/-- The status that turns a coherent request away at the home agent: NO_SLOT where its slot is gone, STALE_ROLE where its generation is not the slot's (03, R57; 04, R106, R108). -/
def roleRefusal (s : State) (r : Req) : Option Nat :=
  if !(isAlloc r.op || isVc1 r.op) then none
  else match r.origin with
  | .packet _ _ =>
    (match requestSlot s r with
     | none => some Sts.noSlot
     | some n => if (slotOf s n).gen != r.roleGen then some Sts.staleRole else none)
  | _ => none

/-- Send a list of snoops. -/
def sendSnoops (s : State) (k line : Nat) : List (Nat × Bool) → List Snoop → List Snoop × State
  | [], acc => (acc, s)
  | (n, inv) :: t, acc =>
    let x := sendSnoop s k line n inv
    sendSnoops x.2 k line t (acc ++ [x.1])

/-- BOUND slots whose host lies in a COHERENT range of an extent (12, R324). -/
def rebuildSlots (s : State) (e : Extent) : List Nat :=
  (s.coh.slots.filter (fun x => x.2.st == SlotState.bound &&
    rightsOf e.access (fun a => bit a.toNat 30) (if x.1 = 0 then selfId s else x.2.host) != 0)).map Prod.fst

/-- A transaction begins: its snoops are sent, and it is the line's active one (04, R93, R99). -/
def beginTrans (s : State) (k line : Nat) (t : Trans) (l : List (Nat × Bool)) : State :=
  let x := sendSnoops s k line l []
  setLine x.2 line { lineOf x.2 line with active := some { t with snoops := x.1 } }

/-- The snoops that the row of a request, a recall or a release sweep asks of an entry (04, Table 4.6, R107; 02, Table 2.10). -/
def entrySnoops (r : Req) (e : DirEntry) (slot : Option Nat) : List (Nat × Bool) :=
  match r.origin with
  | .recallFor _ => (match e.st with | .em => [(e.ownerSlot, true)] | .s => e.sharers.map (fun n => (n, true)) | _ => [])
  | .sweep n => if e.st = .em ∧ e.ownerSlot = n then [(n, true)] else []
  | _ => if !r.dir || isVc1 r.op then [] else rowSnoops r.op e (if isAlloc r.op then slot else none)

/-- A transaction consults the directory (04, R88, Table 4.14). -/
def usesDir (r : Req) : Bool :=
  match r.origin with
  | .recallFor _ => true
  | .sweep _ => true
  | _ => isVc1 r.op || r.dir

/-- A transaction becomes active: its slot and generation are judged, its entry is consulted and the snoops of its row are sent (04, R93, R99, R107, R108; 02, Table 2.10).
A marked entry is rebuilt first: every BOUND slot of a COHERENT range is snooped (12, R324). DEDUCED, log entry 28: a WRITEBACK or EVICT_CLEAN that finds it marked is part of the rebuild, as if folded in, and its own slot is not snooped. -/
def activate (s : State) (k line : Nat) (r : Req) : State :=
  let slot := requestSlot s r
  let refusal := roleRefusal s r
  let t : Trans := { req := r, slot := slot, refusal := refusal }
  match lineWindow s line with
  | none => beginTrans s k line t []
  | some w =>
    let x := touchDir s w
    let s := if usesDir r && refusal.isNone then cacheEntry x.2 k w false else x.2
    if refusal.isSome || !usesDir r then beginTrans s k line t []
    else if s.coh.rebuild.contains w then
      let all := (rebuildSlots s (extentOf s r.ext)).map (fun n => (n, true))
      match r.origin with
      | .recallFor _ => beginTrans s k line t all
      | _ =>
        if isVc1 r.op then
          beginTrans s k line { t with rebuilding := true, foldedReqs := [r], data := if r.op = Op.writeback then some r.payload else none, dataPoison := r.poison }
            (all.filter (fun n => some n.1 != slot))
        else beginTrans s k line { t with rebuilding := true } all
    else beginTrans s k line t (entrySnoops r x.1 slot)

/-- The row of a transaction whose entry has been rebuilt (12, R324): the entry is I. -/
def rowAfterRebuild (s : State) (k line : Nat) (t : Trans) : State :=
  beginTrans s k line { req := t.req, slot := t.slot, refusal := t.refusal } (entrySnoops t.req {} t.slot)

/-- A chain with a message of VC1 in its place: before the requests from ingress, behind the messages of VC1 that wait (03, R70; 04, R95). -/
def chainVc1 (chain : List Req) (r : Req) : List Req := chain.takeWhile (fun q => isVc1 q.op) ++ r :: chain.dropWhile (fun q => isVc1 q.op)

/-- A request reaches the home agent: active, or behind the line's chain; WRITEBACK and EVICT_CLEAN before what waits from ingress (04, R93, R95). -/
def homeEnter (s : State) (k : Nat) (r : Req) (front : Bool) : State :=
  let l := lineOf s r.line
  match l.active with
  | none => activate s k r.line r
  | some _ => setLine s r.line { l with chain := if front then chainVc1 l.chain r else l.chain ++ [r] }

/-- The first of the chain becomes active when the active transaction has completed (04, R93). -/
def nextInChain (s : State) (k line : Nat) : State :=
  match (lineOf s line).chain with
  | [] => setLine s line { active := none, chain := [] }
  | r :: rest => activate (setLine s line { active := none, chain := rest }) k line r

/-- A snoop is closed: it counts in its epoch no longer (03, R74). -/
def closeSnoop (s : State) (x : Snoop) : State := epochSub s x.tenant x.epoch

/-- The first snoop to a slot that waits for a tag of a region is sent, once one is free (03, R65). -/
def sendWaiting (s : State) (k slot : Nat) : State :=
  let waits := fun (x : Snoop) => x.slot == slot && x.st == .unsent && x.tag / 2 ^ 14 == k
  match s.coh.lines.find? (fun l => ((l.2.active.map (·.snoops)).getD []).any waits) with
  | none => s
  | some (line, l) =>
    match l.active, (snoopTag s k slot).isSome with
    | some t, true =>
      (match t.snoops.find? waits with
       | none => s
       | some x =>
         let y := sendSnoop s k line slot x.invalidate
         setLine y.2 line { lineOf y.2 line with active := some { t with snoops := t.snoops.map (fun z => if z.slot == slot then y.1 else z) } })
    | _, _ => s

/-- A WRITEBACK or EVICT_CLEAN folded into the active transaction that snoops its slot (04, R95, R103, R104): the request to answer now, if any.
DESIGN CHOICE, log entry 27: the transaction does not wait for the own answer of a snoop so closed, and that answer is under no time limit. -/
def fold? (s : State) (r : Req) : Option (State × Option Req) :=
  match (lineOf s r.line).active, requestSlot s r with
  | some t, some n =>
    if (slotOf s n).gen != r.roleGen then none else
    match t.snoops.find? (fun x => x.slot == n) with
    | none => none
    | some x =>
      let rest := t.snoops.filter (fun y => y.slot != n)
      let l := lineOf s r.line
      let s := closeSnoop s x
      let late := fun (s : State) => if x.st = .waiting then { s with coh := { s.coh with closing := s.coh.closing ++ [(n, r.line, x.tag)] } } else s
      if r.op = Op.writeback then
        some (late (setLine s r.line { l with active := some { t with snoops := rest, data := some r.payload, dataPoison := r.poison, foldedReqs := t.foldedReqs ++ [r] } }), none)
      else if x.st ≠ .awaitWb then some (late (setLine s r.line { l with active := some { t with snoops := rest } }), some r)
      else none
  | _, _ => none

/-- A snoop answer reaches the transaction that sent its snoop (04, R95, R98 to R100, R103, R108): a stale one counts as NOT_PRESENT with its NOTE, one that only closes a folded snoop changes nothing else.
DESIGN CHOICE, log entry 27: DOWNGRADED to a SNOOP_INVALIDATE closes the snoop, its data taken, and does not count as a shared copy. -/
def snoopAnswer (s : State) (k : Nat) (a : SnoopAns) : State :=
  if s.coh.closing.contains (a.slot, a.line, a.tag) then
    sendWaiting { s with coh := { s.coh with closing := s.coh.closing.filter (· != (a.slot, a.line, a.tag)) } } k a.slot
  else
  let l := lineOf s a.line
  match l.active with
  | none => countDiscard s
  | some t =>
    match t.snoops.find? (fun x => x.slot == a.slot && x.tag == a.tag && x.st == .waiting) with
    | none => countDiscard s
    | some x =>
      let s := if a.stale then
          noteR { s with hub := { s.hub with staleSnoops := satInc 64 s.hub.staleSnoops } } k (unitId Kind.homeAgent 0) Cause.staleSnoop
        else s
      let ans := if a.stale then 0 else a.answer
      if ans = 3 then
        setLine s a.line { l with active := some { t with snoops := t.snoops.map (fun y => if y.tag = x.tag ∧ y.slot = x.slot then { y with st := .awaitWb } else y) } }
      else
        let s := closeSnoop s x
        let s := setLine s a.line { l with active := some { t with
          snoops := t.snoops.filter (fun y => y.slot != a.slot)
          data := if a.data.isSome then a.data else t.data
          dataPoison := if a.data.isSome then a.poison else t.dataPoison
          downgraded := t.downgraded || (ans == 2 && !x.invalidate) } }
        sendWaiting s k a.slot

/-! ### Host failure (04, R110, R111) -/

/-- A slot's bit leaves an entry, which becomes I where it held the line alone (04, Table 4.6, R107). -/
def dropHolder (e : DirEntry) (n : Nat) : DirEntry :=
  match e.st with
  | .s => let left := e.sharers.filter (· != n); if left.isEmpty then {} else { e with sharers := left }
  | .em => if e.ownerSlot = n then {} else e
  | _ => e

/-- Window indices of an extent whose entries are not I or are to be rebuilt. -/
def extentEntries (s : State) (e : Extent) : List Nat :=
  let mine := fun (w : Nat) => decide (e.dirBase ≤ w / 8192) && decide (w / 8192 < e.dirBase + e.size)
  let dir := (s.coh.dir.map Prod.fst).filter mine
  dir ++ s.coh.rebuild.filter (fun w => mine w && !dir.contains w)

/-- A host fails during the recall of an extent: the lines of the extent that its slot holds are dropped and not reported (02, R47; 04, R114). -/
def dropRecalled (s : State) (slot : Nat) : State :=
  (s.revokes.filter (·.recalling)).foldl (fun s r =>
    (extentEntries s (extentOf s r.ext)).foldl (fun s w => if (dirOf s w).st = .em ∨ (dirOf s w).st = .s then setDir s w (dropHolder (dirOf s w) slot) else s) s) s

/-- The snoops outstanding to a failed slot count as answered at once; an EM line it holds goes LOST, but not one under recall (04, R111; 02, R47). -/
def dropSnoops (s : State) (slot : Nat) : State :=
  let s := { s with coh := { s.coh with closing := s.coh.closing.filter (fun c => c.1 != slot) } }
  s.coh.lines.foldl (fun s e =>
    match e.2.active with
    | none => s
    | some t =>
      match t.snoops.find? (fun x => x.slot == slot) with
      | none => s
      | some x =>
        let s := closeSnoop s x
        let s := setLine s e.1 { e.2 with active := some { t with snoops := t.snoops.filter (fun y => y.slot != slot) } }
        match lineWindow s e.1, t.req.origin with
        | some w, .recallFor _ => let d := dirOf s w
                               if d.st = .em ∧ d.ownerSlot = slot then setDir s w {} else s
        | some w, _ => (touchDir s w).2
        | none, _ => s) s

/-- A slot is declared failed: FAILED, its snoops answered, its walk begun; a running release sweep goes on as the failure walk (04, R107, R110 to R112). -/
def declareFailed (s : State) (slot cause causeCode region : Nat) (waits : List (OrderHdr × Nat)) : State :=
  let sl := slotOf s slot
  let old := s.coh.walks.find? (fun w => w.slot == slot && !w.failure)
  let w : Walk := { slot := slot, failure := true, cause := causeCode, source := if slot = 0 then selfId s else sl.host, gen := sl.gen,
                    waits := waits ++ (old.map (·.waits)).getD [], thenFree := old.isSome }
  let s := setSlot s slot { sl with st := .failed }
  let s := { s with coh := { s.coh with walks := s.coh.walks.filter (fun w => w.slot != slot) ++ [w] } }
  dropSnoops (dropRecalled (noteR s region (unitId Kind.homeAgent 0) cause) slot) slot

/-! ### Completion -/

/-- What an atomic stores (03, Table 3.2, R59). -/
def atomicResult (op : Nat) (old x cmp : Word) : Word :=
  if op = Op.atomicAdd then old + x
  else if op = Op.atomicSwap then x
  else if op = Op.atomicCas then (if old = cmp then x else old)
  else if op = Op.atomicAnd then old &&& x
  else if op = Op.atomicOr then old ||| x
  else if op = Op.atomicXor then old ^^^ x
  else if op = Op.atomicSmax then (if x.slt old then old else x)
  else (if old.slt x then old else x)

/-- First word and number of words a request addresses (03, R58). -/
def reqFirst (r : Req) : Nat := r.offset % 256 / 8
def reqCount (r : Req) : Nat := r.length + 1

/-- A line with the bytes a mask names taken from another. -/
def mergeBytes (old new : Line) (m : BitVec 256) : Line :=
  let full : Line := BitVec.ofNat 2048 (ofLe ((List.range 256).map (fun i => if m.getLsbD i then 255 else 0)))
  (old &&& ~~~full) ||| (new &&& full)

/-- The commit bit of a unit (09, R233). -/
def unitApplied (s : State) (spray u : Nat) : Bool :=
  match sprayOf? s spray with
  | some p => p.commits.contains u
  | none => true

def markUnit (s : State) (spray u : Nat) : State := modSpray s spray (fun p => { p with commits := u :: p.commits })

/-- A store reaches memory; of part of a word, the old bytes are read first: nothing for DATA_ERROR. -/
def storeReq (s : State) (r : Req) (d : Line) (poison : Bool) : Option State :=
  let line := r.offset / 256 * 256
  match r.bytes with
  | none => writeLine s r.ext line d (reqFirst r) (reqCount r) poison
  | some m =>
    match readLine s r.ext line with
    | (some old, s) => writeLine s r.ext line (mergeBytes old d m) (reqFirst r) (reqCount r) poison
    | (none, _) => none

/-- The memory's part of a request to a line: its answer, and the state after (05, R121; 03, R59, R61, R66). Returned data takes the place of memory's. -/
def perform (s : State) (r : Req) (returned : Option Line) (returnedPoison : Bool) : Answer × State :=
  let dataError : Answer := { status := Sts.dataError, poison := true }
  let line := r.offset / 256 * 256
  let got : Option Line × State := match returned with
    | some d => (if returnedPoison then none else some d, s)
    | none => readLine s r.ext line
  if isPlainRead r.op || isAlloc r.op then
    match got with
    | (some d, s) => ({ data := some (maskWords d (reqFirst r) (reqCount r)) }, s)
    | (none, s) => (dataError, s)
  else if isAtomic r.op then
    match got with
    | (none, s) => (dataError, s)
    | (some d, s1) =>
      let w := reqFirst r
      let old := lineWord d w
      let new := atomicResult r.op old (lineWord r.payload 0) (lineWord r.payload 1)
      match writeLine s1 r.ext line (setLineWord d w new) w 1 false with
      | some s2 => ({ data := some (old.zeroExtend 2048) }, s2)
      | none => (dataError, s1)
  else
    let d := if r.op = Op.zeroLine then 0 else r.payload
    let poison := r.poison && r.op != Op.zeroLine
    match r.origin with
    | .itemUnit sp u _ =>
      if unitApplied s sp u then ({}, s)
      else (match storeReq s r d poison with
        | some s2 => ({}, markUnit s2 sp u)
        | none => (dataError, s))
    | _ =>
      match storeReq s r d poison with
      | some s2 => ({}, s2)
      | none => (dataError, s)

/-- Directory entry after a request of slot r (04, Table 4.6, R390): failed says the response carries DATA_ERROR, down that the owner kept a shared copy. -/
def rowAfter (op : Nat) (e : DirEntry) (r : Option Nat) (gen : Nat) (failed down : Bool) : DirEntry :=
  let add := fun (l : List Nat) (n : Nat) => if l.contains n then l else sortBy (fun a b => decide (a ≤ b)) (l ++ [n])
  let shared := fun (l : List Nat) => if l.isEmpty then ({} : DirEntry) else { st := .s, sharers := l }
  let own := fun (n : Nat) => ({ st := .em, sharers := [n], ownerSlot := n, ownerGen := gen } : DirEntry)
  if isPlainRead op then
    (if e.st = .em then (if down then shared [e.ownerSlot] else {}) else e)
  else if isPlainWrite op || isAtomic op then {}
  else match r with
  | none => e
  | some n =>
    if op = Op.readShared then
      let kept := match e.st with
        | .s => e.sharers
        | .em => if e.ownerSlot ≠ n ∧ down then [e.ownerSlot] else []
        | _ => []
      if failed then shared (kept.filter (· != n)) else shared (add kept n)
    else if failed then {} else own n

/-- One finished request and its answer. -/
structure Done where
  req : Req
  ans : Answer

/-- What the snoops and folded messages of a transaction returned is stored, where anything was and a code can hold it (04, R100; 06, R149). -/
def storeReturned (s : State) (line : Nat) (t : Trans) : State :=
  match t.data, extentAt s (line * 256) with
  | some d, some n => (writeLine s n (line * 256) d 0 32 t.dataPoison).getD s
  | _, _ => s

/-- The status of a WRITEBACK or EVICT_CLEAN that the home agent has used: SUCCESS, also where no code can hold its data (04, Table 4.6, R103; 06, R149); EXTENT_REVOKED for one that only the exception of step 7 let in (02, Table 2.6). -/
def usedStatus (r : Req) : Nat := if r.counted then Sts.success else Sts.extentRevoked

/-- The answers of the WRITEBACK and EVICT_CLEAN messages folded into a transaction (04, R103, R104). -/
def foldedDone (t : Trans) : List Done := t.foldedReqs.map (fun q => { req := q, ans := { status := usedStatus q } })

/-- A running REVOKE of an extent has begun its recall, which discards the modified data it meets (02, Table 2.10, step 5; 04, R100). -/
def recalling (s : State) (ext : Nat) : Bool := s.revokes.any (fun v => v.ext == ext && v.recalling)

/-- A WRITEBACK or EVICT_CLEAN that no row of Table 4.6 takes: BAD_FIELD and its NOTE (04, R102); one let in by the exception of step 7 has lost its ground and is answered EXTENT_REVOKED (02, Table 2.6; DESIGN CHOICE, log entry 27). -/
def vc1Astray (s : State) (k : Nat) (r : Req) : Nat × State :=
  if r.counted then (Sts.badField, noteR s k (unitId Kind.homeAgent 0) Cause.coherenceProtocol) else (Sts.extentRevoked, s)

/-- WRITEBACK and EVICT_CLEAN of their own (04, Table 4.6, R100, R102, R106; 02, Table 2.10): the recall alone discards data. -/
def completeVc1 (s : State) (k line w n : Nat) (r : Req) : Nat × State :=
  let x := touchDir s w
  let e := x.1
  let s := x.2
  if r.op = Op.evictClean then (Sts.success, setDir s w (dropHolder e n))
  else if (slotOf s n).st = .failed then (Sts.noSlot, s)
  else if e.st = .em ∧ e.ownerSlot = n then
    if !r.counted && recalling s r.ext then (usedStatus r, setDir s w {})
    else match writeLine s r.ext (line * 256) r.payload 0 32 r.poison with
      | some s => (usedStatus r, setDir s w {})
      | none => (usedStatus r, setDir s w {})
  else vc1Astray s k r

/-- A request that the directory orders (04, Table 4.6, R99 to R101, R105, R390): what its snoops returned is stored, its row is carried out, its entry written. A line whose data came before its owner failed is not lost. -/
def completeRow (s : State) (line w : Nat) (t : Trans) : List Done × State :=
  let r := t.req
  let x := touchDir s w
  let s := storeReturned x.2 line t
  let folded := foldedDone t
  let e := if t.data.isSome ∧ x.1.st = .lost then {} else x.1
  if e.st = .lost then
    if fullLineWrite r then
      let y := perform s r none false
      (folded ++ [{ req := r, ans := y.1 }], setDir y.2 w {})
    else (folded ++ [{ req := r, ans := { status := Sts.dataLost, poison := true } }], s)
  else
    let y := perform s r (if isPlainRead r.op || isAlloc r.op then t.data else none) t.dataPoison
    let failed := y.1.status != 0
    let quiet := r.op == Op.upgrade && ((e.st == .s && (t.slot.map (e.sharers.contains ·)).getD false) || (e.st == .em && some e.ownerSlot == t.slot))
    let after := rowAfter r.op e t.slot ((t.slot.map (fun n => (slotOf s n).gen)).getD 0) (failed && !quiet) t.downgraded
    (folded ++ [{ req := r, ans := if quiet then {} else y.1 }], writeEntry (if quiet then s else y.2) w after)

/-- The transaction of a line completes: data returned is stored, the row is carried out, the entry written, and the requests answered are listed (04, R93, R99 to R105; 02, Table 2.10).
Whose slot and generation turn it away was judged when it became active (04, Table 4.14). -/
def completeTrans (s : State) (k line : Nat) (t : Trans) : List Done × State :=
  let r := t.req
  let write := fun (s : State) (w : Nat) => if usesDir r then cacheEntry s k w true else s
  match r.origin, lineWindow s line with
  | .recallFor _, some w => (foldedDone t, setDir { s with coh := { s.coh with rebuild := s.coh.rebuild.filter (· != w) } } w {})
  | .recallFor _, none => (foldedDone t, s)
  | .sweep n, some w =>
    let y := touchDir (storeReturned s line t) w
    (foldedDone t, write (setDir y.2 w (dropHolder y.1 n)) w)
  | .sweep _, none => (foldedDone t, storeReturned s line t)
  | _, win =>
    match t.refusal with
    | some st => ([{ req := r, ans := { status := st } }], s)
    | none =>
      if isVc1 r.op then
        match win, t.slot with
        | some w, some n =>
          let x := completeVc1 s k line w n r
          ([{ req := r, ans := { status := x.1 } }], write x.2 w)
        | _, _ =>
          let x := vc1Astray s k r
          ([{ req := r, ans := { status := x.1 } }], x.2)
      else if !r.dir then
        let x := perform s r none false
        ([{ req := r, ans := x.1 }], x.2)
      else match win with
      | none =>
        let x := perform s r none false
        ([{ req := r, ans := x.1 }], x.2)
      | some w =>
        let x := completeRow s line w t
        (x.1, write x.2 w)

/-- A transaction whose snoops are all answered, and whose stripe is not locked, may complete. -/
def transReady (s : State) (line : Nat) : Bool :=
  match (lineOf s line).active with
  | none => false
  | some t => t.snoops.isEmpty &&
    (match extentAt s (line * 256) with | some n => !lineLocked s n (line * 256) | none => true)

/-- A rebuild ends: what it returned is stored and the entry is I (12, R324). -/
def completeRebuild (s : State) (k line : Nat) (t : Trans) : List Done × State :=
  let s := storeReturned s line t
  (foldedDone t, match lineWindow s line with
    | some w => cacheEntry (setDir { s with coh := { s.coh with rebuild := s.coh.rebuild.filter (· != w) } } w {}) k w true
    | none => s)

/-- The active transaction completes, or the rebuild of its entry does (04, R93; 12, R324): the requests answered, and the state in which they are. -/
def completeLine (s : State) (line : Nat) : List Done × State :=
  match (lineOf s line).active with
  | none => ([], s)
  | some t =>
    let k := homeRegion s (line * 256)
    if t.rebuilding then completeRebuild s k line t else completeTrans s k line t

/-- A request that may set the valid bit of its chunk (03, Table 3.2). -/
def writesLine (op : Nat) : Bool := isPlainWrite op || isAtomic op || op == Op.writeback

/-- What follows the answers of a completed transaction: the home agent has used the valid map's block; after a rebuild the transaction's own row comes, unless its message was part of the rebuild; else the next of the chain becomes active (04, R93; 05, R120; 12, R324). -/
def advanceLine (s : State) (k line : Nat) (t : Trans) : State :=
  let s := cacheValid s k (line * 256) (writesLine t.req.op || t.data.isSome)
  if t.rebuilding && !isVc1 t.req.op then rowAfterRebuild s k line t else nextInChain s k line

/-- A request has been answered: IN_FLIGHT of its extent and the count of its epoch fall (02, Table 2.1; 03, R74). -/
def settle (s : State) (r : Req) : State :=
  let s := if r.counted then modExtent s r.ext (fun e => { e with inFlight := e.inFlight - 1 }) else s
  epochSub s r.tenant r.epoch

/-- Answer a request that came as a packet (03, R55). -/
def answerPacket (s : State) (k : Nat) (r : Req) (a : Answer) : State :=
  match r.origin with
  | .packet via p => settle (if r.answered then s else respond s k via p { a with launch := r.launch }) r
  | _ => settle s r

end Sys2Proof.Machine
end

