-- ==== Sys2Proof/Machine/Ingress.lean ====
section
/-! DEFINITION. Region ingress: the checks of 02, Table 2.6 and R391, the violation log, colouring and queues (03), grants (R85, R94, R188), and the intake of snoop answers (R389). -/

namespace Sys2Proof.Machine

/-! ### What an opcode asks for (03, Table 3.2, R58, R59; 02, Table 2.7) -/

/-- VC and payload presence of an opcode that a host may send as a request. -/
def requestForm (op : Nat) : Option (Nat × Bool) :=
  if op = Op.write ∨ op = Op.writeNoalloc then some (0, true)
  else if isAtomic op then some (0, true)
  else if Op.read ≤ op ∧ op ≤ Op.zeroLine then some (0, false)
  else if op = Op.writeback then some (1, true)
  else if op = Op.evictClean then some (1, false)
  else if isLaunch op then some (5, true)
  else none

/-- Opcodes whose ADDRESS [7:0] is zero and LENGTH 31 (03, R58). -/
def wholeLineOp (op : Nat) : Bool := (decide (Op.readShared ≤ op) && decide (op ≤ Op.zeroLine)) || (decide (Op.writeback ≤ op) && decide (op ≤ Op.poolOpLaunch))

/-- Bytes of an atomic's payload that may be other than zero (03, R59). -/
def atomicBytes (op : Nat) : Nat := if op = Op.atomicCas then 16 else 8

/-- The format checks of R391. -/
def formatOk (darinlink : Bool) (p : Packet) (offset : Nat) : Bool :=
  match requestForm p.opcode with
  | none => false
  | some (vc, data) =>
    (darinlink || p.vc == vc) && p.payload.isSome == data && offset % 8 == 0 && decide (offset % 256 / 8 + p.length ≤ 31) &&
    (!wholeLineOp p.opcode || (offset % 256 == 0 && p.length == 31)) &&
    (!isAtomic p.opcode || (p.length == 0 && (p.payload.getD 0) >>> (8 * atomicBytes p.opcode) == 0))

/-- Rights a request class needs: READ 1, WRITE 2, COHERENT 4 (02, Table 2.7). -/
def rightsNeeded (op : Nat) : Nat :=
  if isPlainRead op then 1 else if op = Op.readShared then 5 else if isAlloc op then 7 else if isVc1 op then 4 else if isAtomic op then 3 else 2

/-! ### The extent check (02, Table 2.6, steps 6 to 10) -/

/-- The status that refuses an access of a source and tenant, or none where it passes. -/
def extentRefusal (s : State) (op offset source tenant : Nat) : Option Nat :=
  match extentAt s offset with
  | none => some Sts.noExtent
  | some n =>
    let e := extentOf s n
    let need := rightsNeeded op
    if e.st != .granted then some Sts.extentRevoked
    else if e.tenant != tenant then some Sts.tenantMismatch
    else if (rightsOf e.access (fun _ => true) source) &&& need != need then some Sts.accessDenied
    else if isAlloc op && !e.coherent then some Sts.notCoherent
    else if (isAlloc op || isVc1 op) && (slotHeld s source (isVc1 op)).isNone then some Sts.noSlot
    else none

/-- A WRITEBACK to a REVOKING extent from the slot that the directory records as owner: it completes the recall (02, Table 2.6, step 7). -/
def recallWriteback (s : State) (op offset source : Nat) : Bool :=
  op == Op.writeback &&
  match extentAt s offset, slotHeld s source true with
  | some n, some slot =>
    let e := extentOf s n
    let d := dirOf s (windowIndex e offset)
    e.st == .revoking && e.coherent && d.st == .em && d.ownerSlot == slot
  | _, _ => false

/-- A refusal enters the violation log, merges, or overflows it (02, R51, R52). -/
def logViolation (s : State) (v : Violation) : State :=
  let same := fun (e : Violation) => e.source == v.source && e.status == v.status && e.extValid == v.extValid && e.ext == v.ext
  if s.violations.any same then
    { s with violations := s.violations.map (fun e => if same e then { e with repeatCount := satInc 16 e.repeatCount } else e) }
  else if s.violations.length < 256 then
    { s with violations := s.violations ++ [{ v with timestamp := stamp s }], violationNoted := false }
  else
    let s1 := { s with violationOverflow := satInc 32 s.violationOverflow, violationNoted := true }
    if s.violationNoted then s1 else noteR s1 v.region (unitId Kind.ingress 0) Cause.violationLogFull

/-- The entry of a refused access. -/
def violationOf (s : State) (via : Option Via) (k op offset source tenant tag status : Nat) : Violation :=
  let e := extentAt s offset
  { ext := e.getD 0, status := status, opcode := op, tenant := tenant, source := source, viaDarinlink := via == some .darinlink,
    port := (match via with | some (.genura n) => n | _ => 0), extValid := e.isSome, region := k, offset := offset / 256 * 256, tag := tag }

/-! ### Protection of arriving packets (03, R71, R76) -/

/-- What step 5 makes of a packet: the plain packet and its epoch number, or the status that refuses it. -/
inductive Opened where
  | plain (p : Packet) (epoch : Nat)
  | refused (status : Nat)

def openPacket (s : State) (p : Packet) : Opened :=
  if !p.encrypted then .refused Sts.notEncrypted
  else match tenantKey s p.tenant p.keyEpoch with
    | none => .refused Sts.keyRetired
    | some (e, key) =>
      match unprotect key p with
      | some q => .plain q e
      | none => .refused Sts.authFailed

/-- AUTH_FAIL_COUNT of a host, and the NOTE of its first AUTH_FAILED since the count was last read (03, R76). -/
def countAuthFail (s : State) (k source status : Nat) : State :=
  if status = Sts.keyRetired ∨ status = Sts.authFailed then
    let s := { s with coh := { s.coh with authFail := tmod s.coh.authFail source 0 (satInc 16) } }
    if status = Sts.authFailed ∧ !s.coh.authNoted.contains source then
      noteR { s with coh := { s.coh with authNoted := s.coh.authNoted ++ [source] } } k (unitId Kind.ingress 0) Cause.authFail
    else s
  else s

/-! ### Queues (03, R81, R82, R84; 07, R188; 11, R392) -/

/-- The region that checks a Darinlink request: g mod 4, or the next not fenced (11, R392). -/
def darinRegion (s : State) (offset : Nat) : Nat :=
  let g := (offset >>> 21) % 4
  (((List.range 4).map (fun i => (g + i) % 4)).find? (fun k => !(regFault s k).fenced)).getD g

/-- A ring link of a region is under test (14, Table 14.1). -/
def linkTested (s : State) (k i : Nat) : Bool :=
  match (bistOf s k).current with | some (u, _, _, _) => u == unitId Kind.ringLink i | none => false

/-- The ring link between a region and the next one upward carries nothing: an end of it is fenced or under test (12, Table 12.8; 14, Table 14.1). -/
def ringCut (s : State) (k : Nat) : Bool :=
  s.fault.linksFenced.contains (2 * k) || s.fault.linksFenced.contains (2 * ((k + 1) % 4) + 1) || linkTested s k 0 || linkTested s ((k + 1) % 4) 1

/-- The ring path by which a transfer from region a arrives in region k: 8 from k + 1, 9 from k − 1; a way through a fenced link or a fenced die is not taken (03, R69, R388; 12, R321). -/
def ringPath (s : State) (a k : Nat) : Nat :=
  let d := (k + 4 - a) % 4
  let up := (List.range d).all (fun i => !ringCut s ((a + i) % 4)) && (List.range (d - 1)).all (fun i => !(regFault s ((a + 1 + i) % 4)).fenced)
  let down := (List.range (4 - d)).all (fun i => !ringCut s ((k + i) % 4)) && (List.range (3 - d)).all (fun i => !(regFault s ((k + 1 + i) % 4)).fenced)
  if d ≤ 2 then (if up || !down then 9 else 8) else (if down || !up then 8 else 9)

/-- The later of two 48-bit tags (03, R84). -/
def laterTag (a b : Nat) : Nat := if (a + 2 ^ 48 - b) % 2 ^ 48 < 2 ^ 47 then a else b

/-- A request takes its place in order of arrival at its region, and the pointer over the ingress paths moves past its path (03, R69; 04, R92, Table 4.15).
Arrivals of one cycle stand in the queue of commands in the order that the pointer gives: `ingressTurn` (log entry 15). -/
def arrive (s : State) (k : Nat) (r : Req) : Req × State :=
  ({ r with arrival := (regionOf s k).arrivals }, modRegion s k (fun x => { x with arrivals := x.arrivals + 1, ingressPtr := (r.path + 1) % 12 }))

/-- Which of the paths on which a request arrives in one cycle is taken first (03, R69; 04, Table 4.15). -/
def ingressTurn (s : State) (k : Nat) (paths : List Nat) : Option Nat := rotate 12 (regionOf s k).ingressPtr (fun i => paths.contains i)

/-- A region's own queue of Darinlink requests (11, R392). -/
def enqueueDarin (s : State) (k : Nat) (r : Req) : State :=
  let a := arrive s k r
  modRegion a.2 k (fun x => { x with darinQ := x.darinQ ++ [a.1] })

/-- Colour, tokens, queue room and finish tag of a fabric request (03, R79, R81, R82, R84). -/
def admitReq (s : State) (k : Nat) (r : Req) : State :=
  let h := hostOf s r.source
  let x := regionOf s k
  let b := bucketOf x r.source
  let occ := x.ingressQ.length
  let conf := h.weight != 0
  if conf && decide (b.tp < 16) then
    let back := if h.pir = 0 then 4095 else min 4095 (max 1 (ceilDiv (16 - b.tp) h.pir))
    answerPacket s k r { status := Sts.retry, aux := back }
  else
    let green := conf && decide (16 ≤ b.tc)
    if occ ≥ (if green then 8192 else 7168) then
      answerPacket s k r { status := Sts.retry, aux := 0x1000 + (1 + occ / 1024) }
    else
      let c := ceilDiv 65280 (max 1 h.weight)
      let f := (laterTag x.vtag b.fh + (if green then c else 4 * c)) % 2 ^ 48
      let b := { b with fh := f, tp := if conf then b.tp - 16 else b.tp, tc := if green then b.tc - 16 else b.tc }
      let a := arrive s k { r with colour := if green then .green else .yellow, finish := f }
      modRegion a.2 k (fun x => { x with ingressQ := x.ingressQ ++ [a.1], buckets := tset x.buckets r.source b })

/-! ### Requests (02, R41; 03, R63; 12, R325) -/

/-- The status that answers every request while the module does not serve: NOT_READY before READY_OD, MODULE_HALTED under HALT, where writebacks and eviction notices are still carried out (03, R63; 12, R325; 15, R376).
DESIGN CHOICE, log entry 27: where HALT was latched before READY_OD was ever asserted, R325 goes before R63. -/
def gate (s : State) (op : Nat) : Option Nat :=
  if s.power.halting then some Sts.notReady
  else if s.fault.halted then (if isVc1 op then none else some Sts.moduleHalted)
  else if s.hub.ready then none else some Sts.notReady

/-- The hub runs, so that a packet can arrive (15, R373, R376). -/
def hubRuns (s : State) : Bool :=
  match s.power.stage with
  | .running | .poweringDown => true
  | _ => false

/-- Steps 6 to 10 and what follows: the request is refused and logged, or counted and queued (02, R41; 03, Table 3.7; 04, R94; 11, R392). Region k checks.
DESIGN CHOICE, log entry 27: a WRITEBACK that step 7 lets complete a recall enters no violation log, though it is answered EXTENT_REVOKED. -/
def checkedRequest (s : State) (via : Via) (k : Nat) (p : Packet) (offset source : Nat) (epoch : Option Nat) : State :=
  let refusal := extentRefusal s p.opcode offset source p.tenant
  let recallFor := refusal == some Sts.extentRevoked && recallWriteback s p.opcode offset source
  match (if recallFor then none else refusal) with
  | some st =>
    respond (logViolation s (violationOf s (some via) k p.opcode offset source p.tenant p.tag st)) k via p { status := st, launch := isLaunch p.opcode }
  | none =>
    let n := (extentAt s offset).getD 0
    let home := if isLaunch p.opcode then k else homeRegion s offset
    let path := if home = k then (match via with | .genura m => m / 16 * 4 + m % 4 | .darinlink => 10) else ringPath s k home
    let r : Req := { origin := .packet via p, op := p.opcode, offset := offset, length := p.length, poison := p.poison, payload := p.payload.getD 0, ext := n,
                     source := source, tenant := p.tenant, epoch := epoch, roleGen := p.roleGen, path := path, counted := !recallFor,
                     launch := isLaunch p.opcode, dir := (extentOf s n).coherent }
    let s := epochAdd s p.tenant epoch
    let s := if recallFor then s else modExtent s n (fun e => { e with inFlight := e.inFlight + 1 })
    if isVc1 p.opcode then modRegion s home (fun x => { x with vc1 := x.vc1 ++ [r] })
    else match via with
      | .darinlink => enqueueDarin s home r
      | .genura _ => admitReq s home r

/-- Step 5 and the format checks (02, Table 2.6, R391). -/
def openedRequest (s : State) (via : Via) (k : Nat) (p : Packet) (offset source : Nat) : State :=
  match via with
  | .darinlink =>
    if formatOk true p offset then checkedRequest s via k p offset source none
    else respond s k via p { status := Sts.badField, launch := isLaunch p.opcode }
  | .genura _ =>
    match openPacket s p with
    | .refused st => respond (countAuthFail s k p.source st) k via p { status := st, launch := isLaunch p.opcode }
    | .plain q e =>
      if formatOk false q offset then checkedRequest s via k q offset source (some e)
      else respond s k via q { status := Sts.badField, launch := isLaunch p.opcode }

/-- A request or launch arrives: the gate, then the checks of Table 2.6 in order (02, R41; 03, R63). -/
def packetRequest (s : State) (via : Via) (p : Packet) : State :=
  if !hubRuns s then s else
  let offset := p.address % 2 ^ 40
  let k := match via with | .genura n => portRegion n | .darinlink => darinRegion s offset
  let refuse := fun (s : State) (st : Nat) => respond s k via p { status := st, launch := isLaunch p.opcode }
  if via != .darinlink && (p.vc == 2 || p.vc == 7) then countDiscard s else
  match gate s p.opcode with
  | some st => refuse s st
  | none =>
    let fabric := via != .darinlink
    if fabric && p.dest != selfId s then refuse (countMisrouted s) Sts.misrouted
    else if fabric && p.address / 2 ^ 40 != p.dest then refuse s Sts.addressInvalid
    else if offset ≥ offsetLimit then refuse s Sts.addressInvalid
    else if (tenantOf? s p.tenant).isNone then refuse s Sts.tenantUnknown
    else openedRequest s via k p offset (if fabric then p.source else selfId s)

/-! ### Snoop answers and duplicates (04, R389; 10, R272) -/

/-- Whether an answer of a source with this counter has been accepted in the last 4 ms, and the state that remembers it (10, R272). -/
def duplicate (s : State) (source counter : Nat) : Bool × State :=
  let seen := s.link.dupSeen.filter (fun e => decide (now s < e.2.2 + ms 4))
  if seen.any (fun e => e.1 == source && e.2.1 == counter) then
    (true, { s with link := { s.link with dupSeen := seen, dups := satInc 64 s.link.dups } })
  else (false, { s with link := { s.link with dupSeen := seen ++ [(source, counter, now s)] } })

/-- An answer whose protection holds: acted on, or discarded and counted (04, R389).
DESIGN CHOICE, log entry 27: data that a NOT_PRESENT or EVICT_IN_FLIGHT carries is dropped. -/
def openedAnswer (s : State) (k source : Nat) (p : Packet) : State :=
  let data := p.opcode == Op.snoopRespData
  let ans := p.aux % 16
  if p.payload.isSome != data || reservedStatus p.status then countDiscard s
  else if ans > 3 then noteR (countDiscard s) k (unitId Kind.homeAgent 0) Cause.coherenceProtocol
  else match slotHeld s source true with
    | none => countDiscard s
    | some n =>
      if (slotOf s n).gen != p.roleGen then countDiscard s
      else
        let offset := p.address % 2 ^ 40
        let a : SnoopAns := { slot := n, line := offset / 256, tag := p.tag, answer := ans, stale := p.status == Sts.staleRole,
                              data := if ans = 1 ∨ ans = 2 then p.payload else none, poison := p.poison }
        modRegion s (homeRegion s offset) (fun x => { x with vc3 := x.vc3 ++ [a] })

/-- A snoop answer arrives (04, R389; 11, R303). -/
def packetAnswer (s : State) (via : Via) (p : Packet) : State :=
  if !hubRuns s then s else
  match via with
  | .darinlink =>
    if (tenantOf? s p.tenant).isNone then countDiscard s else openedAnswer s (darinRegion s (p.address % 2 ^ 40)) (selfId s) p
  | .genura n =>
    let k := portRegion n
    if p.dest != selfId s then s
    else if p.vc != 3 || (tenantOf? s p.tenant).isNone then countDiscard s
    else match openPacket s p with
      | .refused st => if st = Sts.notEncrypted then countDiscard s else countAuthFail s k p.source st
      | .plain q _ =>
        let d := duplicate s q.source q.msgCounter
        if d.1 then d.2 else openedAnswer d.2 k q.source q

/-! ### Grants (03, R69, R85; 04, R94; 07, R188) -/

/-- Everything queued for grant in a region. -/
def queued (x : RegionSt) : List Req := x.engineQ ++ x.darinQ ++ x.ingressQ

/-- Transaction entries in use in a region: granted requests and those active or chained, but for WRITEBACK, EVICT_CLEAN and the module's own recalls (04, R94). -/
def entriesUsed (s : State) (k : Nat) : Nat :=
  let mine := fun (r : Req) => !isVc1 r.op && (match r.origin with | .recallFor _ => false | .sweep _ => false | _ => true)
  let lines := s.coh.lines.filter (fun l => homeRegion s (l.1 * 256) == k)
  ((regionOf s k).granted.filter mine).length +
  (lines.map (fun l => (l.2.chain.filter mine).length + (match l.2.active with | some t => b2n (mine t.req) | none => 0))).sum

/-- Reserved transaction entries in use in a region: its WRITEBACK and EVICT_CLEAN transactions, active or chained. DEDUCED, log entry 28: a snoop answer holds one for its own step alone (04, R94). -/
def reservedUsed (s : State) (k : Nat) : Nat :=
  let lines := s.coh.lines.filter (fun l => homeRegion s (l.1 * 256) == k)
  (lines.map (fun l => (l.2.chain.filter (fun r => isVc1 r.op)).length + (match l.2.active with | some t => b2n (isVc1 t.req.op) | none => 0))).sum

/-- Transaction entries of a home agent; a slice of the home agent holds a quarter (04, R94; 14, Table 14.1). -/
def entriesOf (s : State) (k : Nat) : Nat :=
  match (bistOf s k).current with
  | some (u, _, _, _) => if u / 2048 = Kind.homeAgent || failed then 1536 else 2048
  | none => if failed then 1536 else 2048
where failed : Bool := s.fault.carriers.any (fun c => !c.1 && c.2.1 == k && c.2.2.1 == unitId Kind.homeAgent 0)

/-- A queued request may be granted: no earlier arrival to its line is queued, and the home agent has an entry (03, R69; 04, R94). -/
def eligible (s : State) (k : Nat) (r : Req) : Bool :=
  (r.launch || decide (entriesUsed s k < entriesOf s k)) &&
  (queued (regionOf s k)).all (fun q => q.line != r.line || decide (r.arrival ≤ q.arrival))

/-- The head of a queue, where it may be granted. -/
def eligibleHead (s : State) (k : Nat) (l : List Req) : Option Req :=
  match l with
  | [] => none
  | r :: _ => if eligible s k r then some r else none

/-- The eligible heads of the per-source queues (03, R85). -/
def wfqHeads (s : State) (k : Nat) : List Req :=
  let q := (regionOf s k).ingressQ
  q.filter (fun r => eligible s k r && q.all (fun x => x.source != r.source || decide (r.arrival ≤ x.arrival)))

/-- The head that WFQ grants: least tag, ties by the pointer over host records (03, R84, R85). -/
def wfqPick (ptr : Nat) (heads : List Req) : Option Req :=
  heads.foldl (fun best r =>
    match best with
    | none => some r
    | some b =>
      if b.finish = r.finish then (if (r.source + 4096 - ptr) % 4096 < (b.source + 4096 - ptr) % 4096 then some r else best)
      else if laterTag b.finish r.finish = b.finish then some r else best) none

/-- Take a request out of a queue by its arrival number. -/
def without (l : List Req) (r : Req) : List Req := l.filter (fun q => q.arrival != r.arrival)

/-- Which request the grant slot of a region takes, and the region after; nothing where none is eligible (03, R85; 07, R188). -/
def pickGrant (s : State) (k : Nat) : Option (Req × RegionSt) :=
  let x := regionOf s k
  let eng := eligibleHead s k x.engineQ
  let dar := eligibleHead s k x.darinQ
  let wfq := wfqPick x.wfqPtr (wfqHeads s k)
  let has := fun i => if i = 0 then eng.isSome else if i = 1 then dar.isSome else wfq.isSome
  match rotate 3 x.grantPtr has with
  | some 0 => eng.map (fun r => (r, { x with engineQ := without x.engineQ r, grantPtr := 1 }))
  | some 1 => dar.map (fun r => (r, { x with darinQ := without x.darinQ r, grantPtr := 2 }))
  | some _ => wfq.map (fun r => (r, { x with ingressQ := without x.ingressQ r, grantPtr := 0, vtag := r.finish, wfqPtr := (r.source + 1) % 4096 }))
  | none => none

/-- Requests in the Darinlink queues, whose credits are still held (11, R392). -/
def dlQueued (s : State) : Nat := ((List.range 4).map (fun k => (regionOf s k).darinQ.length)).sum

/-- Credits owed go back, each class at most 255 at a time; those of requests in the Darinlink queues stay (11, R301, R392). -/
def dlReturn (s : State) : State :=
  let d := s.link.dl
  let give := (List.range 6).map (fun c => min 255 (if c = 1 then d.returns.getD 1 0 - dlQueued s else d.returns.getD c 0))
  if give.all (· == 0) then s
  else sendDlCredits { s with link := { s.link with dl := { d with returns := (List.range 6).map (fun c => d.returns.getD c 0 - give.getD c 0) } } } give

/-- A request of the companion processor leaves its queue: its credit goes back. -/
def grantReturn (s : State) (r : Req) : State := match r.origin with | .packet .darinlink _ => dlReturn s | _ => s

end Sys2Proof.Machine
end

