-- ==== Sys2Proof/Machine/Orders.lean ====
section
/-! DEFINITION. How the hub checks and answers orders (11, R277 to R288): rights, the checks of Table 11.5, the sequence window, and the layout of parameters. -/

namespace Sys2Proof.Machine

/-- Rights of Table 11.7 (11, R288); `named` is OWNER_ACCEPT, which passes from any master. -/
inductive Right where
  | any | owner | masters12 | named
deriving DecidableEq, Repr

/-- Orders whose right is "any master". -/
def anyMasterOrders : List Nat :=
  [Ord.ownerClaim, Ord.statusWindowRead, Ord.extentRead, Ord.extentFind, Ord.hostShapeRead, Ord.attestReport, Ord.slotRead, Ord.dirRead, Ord.stackRead,
   Ord.integrityRead, Ord.blotterRead, Ord.mapRead, Ord.sprayRead, Ord.portRead, Ord.faultRead, Ord.lifetimeRead, Ord.bistRead]

/-- Orders whose right is "owner". -/
def ownerOrders : List Nat :=
  [Ord.ownerRenew, Ord.ownerHandover, Ord.ownerRelease, Ord.grant, Ord.accessSet, Ord.revoke, Ord.violationRead, Ord.hostShape, Ord.tenantCreate,
   Ord.tenantRemove, Ord.rotateKey, Ord.retireKey, Ord.fwWrite, Ord.fwActivate, Ord.slotGrant, Ord.slotRelease, Ord.hostFailed, Ord.lostRead,
   Ord.stackRateLimit, Ord.memIdlePolicy, Ord.blotterClear, Ord.poisonRead, Ord.scrubPolicy, Ord.evacuate, Ord.accordLoad, Ord.accordUnload,
   Ord.asidCreate, Ord.asidDestroy, Ord.mapRange, Ord.unmapRange, Ord.protectRange, Ord.invalidateRange, Ord.faultRingSet, Ord.faultResolve,
   Ord.faultPolicy, Ord.sprayCancel, Ord.engineTagRelease, Ord.portSelect, Ord.portRetrain, Ord.faultAck, Ord.clockSet, Ord.powerLimit, Ord.moduleReset]

/-- The right of an order code, if the code is defined (11, Table 11.7). -/
def orderRight (code : Nat) : Option Right :=
  if anyMasterOrders.contains code then some .any
  else if ownerOrders.contains code then some .owner
  else if code = Ord.ownerAccept then some .named
  else if code = Ord.mgmtKeyAgree then some .masters12
  else none

/-- Owner orders served in HALT; "any master" and ownership orders and MGMT_KEY_AGREE are too (11, R287). -/
def haltOrders : List Nat :=
  [Ord.ownerRenew, Ord.ownerHandover, Ord.ownerRelease, Ord.clockSet, Ord.faultAck, Ord.lostRead, Ord.violationRead, Ord.poisonRead, Ord.fwWrite,
   Ord.fwActivate, Ord.moduleReset]

def servedInHalt (code : Nat) : Bool := anyMasterOrders.contains code || haltOrders.contains code || code == Ord.ownerAccept || code == Ord.mgmtKeyAgree

/-- The sequence window after a value passes step 5, or nothing where it does not pass (11, R284). -/
def takeSeq (m : Master) (v : Nat) : Option Master :=
  match m.highest with
  | none => some { m with highest := some v, marks := [] }
  | some h =>
    let d := (v + 2 ^ 32 - h) % 2 ^ 32
    let below := (h + 2 ^ 32 - v) % 2 ^ 32
    if 1 ≤ d ∧ d ≤ 2 ^ 31 - 1 then
      some { m with highest := some v, marks := (h :: m.marks).filter (fun x => decide ((v + 2 ^ 32 - x) % 2 ^ 32 ≤ 64)) }
    else if 1 ≤ below ∧ below ≤ 64 ∧ !m.marks.contains v then some { m with marks := v :: m.marks }
    else none

/-- Empty a master's sequence window (11, R284). -/
def emptyWindow (s : State) (m : Nat) : State := modMaster s m (fun x => { x with highest := none, marks := [] })

/-- Step 3 for an order whose protection has been taken off: only its header is known (11, R278, R279). -/
def headerRefusal (s : State) (h : OrderHdr) (code m : Nat) : Option Nat :=
  match h.via with
  | .darinlink => none
  | .genura _ =>
    if code = Ord.mgmtKeyAgree && !h.encrypted then none
    else if !h.encrypted then some Sts.notEncrypted
    else if (mgmtKey s m h.keyEpoch).isNone then some Sts.keyRetired
    else none

/-- Steps 6 to 9 of Table 11.5 for a master (11, R283, R287, R288). -/
def rightRefusal (s : State) (code m : Nat) (fieldsOk : Bool) : Option Nat :=
  match orderRight code with
  | none => some Sts.orderUnknown
  | some r =>
    if !fieldsOk then some Sts.badField
    else if r == .owner && s.hub.owner != some m then some Sts.notOwner
    else if r == .masters12 && !(m == 1 || m == 2) then some Sts.notPermitted
    else if s.fault.halted && !servedInHalt code then some Sts.moduleHalted
    else none

/-- The order input by which an order reaches the hub: Darinlink 0, the link of region k 1 + k (11, R283; 04, Table 4.15). -/
def orderInput (v : Via) : Nat :=
  match v with
  | .darinlink => 0
  | .genura n => 1 + portRegion n

/-- Which of the order inputs on which an order arrives in one cycle is taken first: orders of one cycle stand in the queue of commands in the order that this gives (11, R283, R308; 04, R92; log entry 15). -/
def orderTurn (s : State) (inputs : List Nat) : Option Nat := rotate 5 s.hub.orderPtr (fun i => inputs.contains i)

/-- The pointer over the order inputs moves past the input of an order that is taken (04, R92). -/
def orderTaken (s : State) (h : OrderHdr) : State := { s with hub := { s.hub with orderPtr := (orderInput h.via + 1) % 5 } }

/-- Steps 1 to 9 of Table 11.5: the status that refuses the order, or none, and the state with the number marked from step 5 on. -/
def orderRefusal (s : State) (h : OrderHdr) (code : Nat) (prot : Nat → Option Nat) (fieldsOk : Bool) : Option Nat × State :=
  if !s.hub.orderService then (some Sts.notReady, s)
  else match senderMaster s h with
  | none => (some Sts.notMaster, s)
  | some m =>
    match prot m with
    | some st => (some st, s)
    | none =>
      if 16 ≤ (masterOf s m).outstanding then (some Sts.orderBusy, s)
      else match takeSeq (masterOf s m) h.seq with
      | none => (some Sts.orderReplayed, s)
      | some x => (rightRefusal s code m fieldsOk, modMaster s m (fun _ => x))

/-- Orders that are key operations of the security core (13, R329, R336 to R339). -/
def keyOrders : List Nat := [Ord.mgmtKeyAgree, Ord.tenantCreate, Ord.tenantRemove, Ord.rotateKey, Ord.retireKey, Ord.attestReport]

/-- An order waits: every one in the 10 ms for which the hub waits to exchange its management pairs, a key order while the security core is under test (14, R353, Table 14.2). -/
def orderWaits (s : State) (code : Nat) : Bool :=
  (match s.hub.exchangeSince with | some t => !passed s t (ms 10) | none => false) ||
  (keyOrders.contains code && (match (bistOf s 4).current with | some (u, _, _, _) => u == unitId Kind.securityCore 0 | none => false))

/-- Run an order's own step 10 where steps 1 to 9 pass, else send the refusal (11, R281, R283); an order that has to wait is held as the command it came by. -/
def checkedOrder (s : State) (h : OrderHdr) (code : Nat) (prot : Nat → Option Nat) (fieldsOk : Bool) (cmd : Instr) (body : State → State) : State :=
  if !hubRuns s then s else
  if orderWaits s code then { s with hub := { s.hub with heldOrders := s.hub.heldOrders ++ [cmd] } } else
  match orderRefusal (orderTaken s h) h code prot fieldsOk with
  | (some st, s) => reply s h code st
  | (none, s) => body s

/-- An order whose protection has been taken off and whose reserved fields are zero. -/
def withOrder (s : State) (h : OrderHdr) (code : Nat) (cmd : Instr) (body : State → State) : State :=
  checkedOrder s h code (headerRefusal s h code) true cmd body

/-- An accepted order whose reply comes later is outstanding, of the master that sent it (11, R285). -/
def accept (s : State) (h : OrderHdr) (code : Nat) : State :=
  match senderMaster s h with
  | some m => modMaster { s with hub := { s.hub with accepted := s.hub.accepted ++ [(h, m, code)] } } m (fun x => { x with outstanding := x.outstanding + 1 })
  | none => s

/-- The first status of a list of judged refusals that applies (11, R283). -/
def firstRefusal : List (Bool × Nat) → Option Nat
  | [] => none
  | (b, st) :: t => if b then some st else firstRefusal t

/-- Answer with the first refusal that applies, or act. -/
def judged (s : State) (h : OrderHdr) (code : Nat) (refusals : List (Bool × Nat)) (act : State) : State :=
  match firstRefusal refusals with
  | some st => reply s h code st
  | none => act

/-- The code of an order that waits for a tick (11, Table 11.7). -/
def Prepared.code : Prepared → Nat
  | .grant .. => Ord.grant
  | .accessSet .. => Ord.accessSet
  | .revoke .. => Ord.revoke
  | .tenantCreate .. => Ord.tenantCreate
  | .rotateKey .. => Ord.rotateKey
  | .retireKey .. => Ord.retireKey
  | .tenantRemove .. => Ord.tenantRemove
  | .mapRange .. => Ord.mapRange
  | .unmapRange .. => Ord.unmapRange
  | .protectRange .. => Ord.protectRange
  | .asidCreate .. => Ord.asidCreate
  | .asidDestroy .. => Ord.asidDestroy
  | .invalidate .. => Ord.invalidateRange
  | .hostShape .. => Ord.hostShape
  | .idlePolicy .. => Ord.memIdlePolicy
  | .faultPolicy .. => Ord.faultPolicy

/-- An order accepted to take effect at the next commit tick; the reply follows it (02, R43; 13, R386). -/
def prepare (s : State) (h : OrderHdr) (p : Prepared) : State :=
  let s := accept s h p.code
  { s with hub := { s.hub with prepared := s.hub.prepared ++ [p] } }

/-! ### Layout of parameters (11, R282, Table 11.3) -/

/-- Round up to a multiple. -/
def alignUp (n a : Nat) : Nat := (n + a - 1) / a * a

/-- Where a parameter of a size starts: values at a multiple of their size, byte strings (more than 8 B) at a multiple of 8. -/
def paramStart (at_ size : Nat) : Nat := alignUp at_ (if size ≤ 8 then size else 8)

/-- Start and size of each parameter. -/
def paramPlaces : Nat → List Nat → List (Nat × Nat)
  | _, [] => []
  | at_, size :: t => (paramStart at_ size, size) :: paramPlaces (paramStart at_ size + size) t

/-- The bytes of each parameter. -/
def paramBytes (params : List Byte) (sizes : List Nat) : List (List Byte) := (paramPlaces 0 sizes).map (fun p => slice params p.1 p.2)

/-- Every byte of PARAMS outside the parameters is zero (11, Table 11.1). -/
def unusedZero (params : List Byte) (sizes : List Nat) : Bool :=
  let places := paramPlaces 0 sizes
  (List.range 240).all (fun i => places.any (fun p => decide (p.1 ≤ i) && decide (i < p.1 + p.2)) || params.getD i 0 == 0)

end Sys2Proof.Machine
end

