-- ==== Sys2Proof/Machine/Engines.lean ====
section
/-! DEFINITION. Threads, their memory accesses and translation (07): tiles (R193), accesses of this module and of others (R187 to R191), fault records and batches (R194 to R199), the module's own stores (R178, R179). -/

namespace Sys2Proof.Machine

/-! ### Threads, tiles and accesses by number -/

/-- Region of a logical engine (07, R170). -/
def engRegion (e : Nat) : Nat := e / 128

/-- The thread resident on a hardware thread, 0 to 63; 64 names none (07, R203). -/
def threadOf? (s : State) (e h : Nat) : Option Thread := if h < 64 then tget? s.eng.threads (e * 64 + h) else none
def setThread (s : State) (e h : Nat) (v : Thread) : State := { s with eng := { s.eng with threads := tset s.eng.threads (e * 64 + h) v } }
def dropThread (s : State) (e h : Nat) : State := { s with eng := { s.eng with threads := tdel s.eng.threads (e * 64 + h) } }
def modThread (s : State) (e h : Nat) (f : Thread → Thread) : State :=
  match threadOf? s e h with
  | some v => setThread s e h (f v)
  | none => s

def tileOf? (s : State) (i : Nat) : Option Tile := tget? s.eng.tiles i
def setTile (s : State) (i : Nat) (v : Tile) : State := { s with eng := { s.eng with tiles := tset s.eng.tiles i v } }
def delTile (s : State) (i : Nat) : State := { s with eng := { s.eng with tiles := tdel s.eng.tiles i } }

def accessOf? (s : State) (i : Nat) : Option Access := tget? s.eng.accesses i
def setAccess (s : State) (i : Nat) (v : Access) : State := { s with eng := { s.eng with accesses := tset s.eng.accesses i v } }
def delAccess (s : State) (i : Nat) : State := { s with eng := { s.eng with accesses := tdel s.eng.accesses i } }

/-- The tiles of a hardware thread. -/
def threadTiles (s : State) (e h : Nat) : List (Nat × Tile) := s.eng.tiles.filter (fun t => t.2.engine == e && t.2.thread == h)

/-- Bits of a launch's descriptor (07, Table 7.2; 09, Table 9.1). -/
def Spray.field (p : Spray) (hi lo : Nat) : Nat := bits p.desc.toNat hi lo

/-- Address space of a launch. -/
def Spray.asid (p : Spray) : Nat := p.field 39 24

def collectOf (s : State) (k : Nat) : FaultCol := tget s.eng.collect k {}
def modCollect (s : State) (k : Nat) (f : FaultCol → FaultCol) : State :=
  { s with eng := { s.eng with collect := tmod s.eng.collect k {} f } }

/-! ### Failures of a thread (07, R181, R187; 08, R215) -/

/-- A tile waits on a fault, or, its verdict given, for the end of a move. -/
def Tile.waitsOnFault (t : Tile) : Bool := match t.st with | .faulted _ _ _ _ => true | .resumed _ => true | .issued => false

/-- The tiles of a thread that wait on a fault are given up; a verdict for them is ignored (07, R198). -/
def dropFaulted (s : State) (e h : Nat) : State :=
  ((threadTiles s e h).filter (fun t => t.2.waitsOnFault)).foldl (fun s t =>
    modCollect (delTile s t.1) (engRegion e) (fun c => { c with waiting := c.waiting.filter (fun r => r.tile != t.1) })) s

/-- The first failure of a thread stops its issue (08, R215); later ones change nothing. -/
def failThread (s : State) (e h : Nat) (f : Failure) : State :=
  match threadOf? s e h with
  | none => s
  | some th =>
    match th.phase with
    | .failing _ => s
    | _ => dropFaulted (setThread s e h { th with phase := .failing f }) e h

/-- Item status of an access's answer (07, Table 7.6). -/
def accessFailure (remote : Bool) (st : Nat) : Nat :=
  if st = Sts.addressInvalid then Sts.memAddressInvalid
  else if st = Sts.noExtent then Sts.memNoExtent
  else if st = Sts.extentRevoked then Sts.memExtentRevoked
  else if st = Sts.tenantMismatch then Sts.memTenantMismatch
  else if st = Sts.accessDenied then Sts.memAccessDenied
  else if st = Sts.dataError then Sts.memDataError
  else if st = Sts.dataLost then Sts.memDataLost
  else if remote && st = Sts.keyRetired then Sts.memKeyRetired
  else Sts.remoteError

/-! ### Footprints (07, R193; 08, R211) -/

/-- A part of a footprint in one 256 B line: its PVA, the index of its first byte in the tile, its bytes. -/
structure Piece where
  pva : Nat
  first : Nat
  count : Nat
deriving DecidableEq, Repr

/-- A row cut at line boundaries. -/
def rowPieces : Nat → Nat → Nat → Nat → List Piece
  | 0, _, _, _ => []
  | fuel + 1, a, first, n =>
    if n = 0 then []
    else
      let c := min n (256 - a % 256)
      { pva := a, first := first, count := c } :: rowPieces fuel (a + c) (first + c) (n - c)

/-- The pieces of a tile, in row order; a row of up to 4,096 B (09, R240) is up to 17 pieces. -/
def Tile.pieces (t : Tile) : List Piece := (List.range t.rows).flatMap (fun r => rowPieces 17 (t.base + r * t.stride) (r * t.rowBytes) t.rowBytes)

/-- The tile stores. -/
def Tile.stores (t : Tile) : Bool := isPlainWrite t.op
/-- Rights a tile needs of its leaves (07, Table 7.7). -/
def Tile.permitted (t : Tile) (l : Leaf) : Bool := if isAtomic t.op then l.read && l.write else if t.stores then l.write else l.read
/-- ACCESS of a fault record (07, Table 7.8). -/
def Tile.access (t : Tile) : Nat := if isAtomic t.op then 2 else if t.stores then 1 else 0

/-! ### Translation (07, R192, R193) -/

/-- Size of a leaf of a level, 64 KiB units (01, Table 1.3). -/
def levelUnits (level : Nat) : Nat := if level ≤ 1 then 1 else if level = 2 then 32 else 16384

/-- The leaf that maps a 64 KiB unit, and its first unit. -/
def leafAt (a : AddrSpace) (u : Nat) : Option (Nat × Leaf) :=
  [1, 2, 3].findSome? (fun lv =>
    let first := u / levelUnits lv * levelUnits lv
    match tget? a.leaves first with
    | some l => if l.level = lv then some (first, l) else none
    | none => none)

/-- The walk of the tables. -/
def walk (s : State) (asid u : Nat) : Option (Nat × Leaf) :=
  match tget? s.eng.asids asid with
  | some a => leafAt a u
  | none => none

def TlbEntry.covers (t : TlbEntry) (asid u : Nat) : Bool := t.asid == asid && decide (t.page ≤ u) && decide (u < t.page + levelUnits t.leaf.level)

/-- 64 KiB units that an entry of an upper level covers: 2 MiB, 1 GiB, and 512 GiB for one of the root (01, Table 1.3). -/
def upperUnits (level : Nat) : Nat := if level = 2 then 32 else if level = 3 then 16384 else 8388608

/-- The walk's entries above the leaf join the cache of the walker that walked; which of the 32 walks, and what an entry replaces there, is open (07, R192; log entry 8). -/
def fillWalker (s : State) (k asid : Nat) (x : Nat × Leaf) : State :=
  let w := k * 32 + (Config.freeBits 5 (freeNo s)).toNat
  let l := tget s.eng.walkers w []
  let new := ([4, 3, 2].filter (fun v => decide (x.2.level < v))).map (fun v => (asid, v, x.1 / upperUnits v * upperUnits v))
  useFree { s with eng := { s.eng with walkers := tset s.eng.walkers w (l ++ new.filter (fun n => !l.contains n)) } }

/-- A translation joins an engine's cache of 128; which one it replaces is open (07, R192; log entry 8). -/
def fillTlb (s : State) (e asid : Nat) (x : Nat × Leaf) : State :=
  let s := fillWalker s (engRegion e) asid x
  let l := tget s.eng.tlb e []
  let n : TlbEntry := { asid := asid, page := x.1, leaf := x.2 }
  let put := fun (s : State) (l : List TlbEntry) => { s with eng := { s.eng with tlb := tset s.eng.tlb e l } }
  if l.length < 128 then put s (l ++ [n])
  else put (useFree s) (l.set (Config.freeBits 7 (freeNo s)).toNat n)

/-- Translate a 64 KiB unit for an engine: a cached translation that the tables no longer hold may stay in use or be dropped (07, R192; log entry 8). -/
def translate (s : State) (e asid u : Nat) : Option (Nat × Leaf) × State :=
  let l := tget s.eng.tlb e []
  let t := walk s asid u
  let miss := fun (s : State) => match t with | some x => (some x, fillTlb s e asid x) | none => (none, s)
  match l.find? (fun c => c.covers asid u) with
  | none => miss s
  | some c =>
    if t = some (c.page, c.leaf) then (t, s)
    else if Config.freeBits 1 (freeNo s) = 1 then (some (c.page, c.leaf), useFree s)
    else miss (useFree { s with eng := { s.eng with tlb := tset s.eng.tlb e (l.filter (fun x => !x.covers asid u)) } })

/-- PPA of a PVA under a leaf that starts at a unit (07, Table 7.7). -/
def leafPpa (x : Nat × Leaf) (pva : Nat) : Nat := x.2.frame * 65536 + (pva - x.1 * 65536)

/-- What translating a footprint gives: the leaves by unit, and the faults: first faulting address and whether the fault is of rights. -/
structure Translated where
  leaves : Tab (Nat × Leaf) := []
  faults : List (Nat × Bool) := []
  units : List Nat := []

/-- Translate the pieces of a tile, each unit once, in row order. -/
def translateTile (s : State) (t : Tile) : Translated × State :=
  t.pieces.foldl (fun (acc : Translated × State) p =>
    let u := p.pva / 65536
    if acc.1.units.contains u then acc
    else
      let x := translate acc.2 t.engine t.asid u
      let r := { acc.1 with units := u :: acc.1.units }
      match x.1 with
      | none => ({ r with faults := r.faults ++ [(p.pva, false)] }, x.2)
      | some l => if t.permitted l.2 then ({ r with leaves := tset r.leaves u l }, x.2) else ({ r with faults := r.faults ++ [(p.pva, true)] }, x.2)) ({}, s)

/-! ### Fault records (07, R194, R196) -/

/-- The record of a tile that faults.
DESIGN CHOICE, log entry 27: of a thread that an adopting engine runs, the record names the adopting engine. -/
def faultRec (i : Nat) (t : Tile) (pva pages : Nat) (rights : Bool) : FaultRec :=
  { pva := pva, tile := i, base := t.base, stride := t.stride, rows := t.rows, rowBytes := t.rowBytes, asid := t.asid, spray := t.spray, engine := t.engine,
    thread := t.thread, pages := min 255 pages, rights := rights, access := t.access }

/-- A record joins its region's open batch, or, where it is full, its tile waits without one. -/
def addFault (s : State) (k : Nat) (r : FaultRec) : State :=
  modCollect s k (fun c =>
    if c.openRecs.length < 256 then { c with openRecs := c.openRecs ++ [r], openSince := if c.openRecs.isEmpty then now s else c.openSince }
    else { c with waiting := c.waiting ++ [r] })

/-- The tile's pieces become accesses, in order; those of pool memory take their leaf's PPA. -/
def makeAccesses (s : State) (i : Nat) (t : Tile) (leaves : Tab (Nat × Leaf)) : State :=
  let ps : List Piece := match t.use with | .zeroBlock _ => [{ pva := t.base, first := 0, count := 4096 }] | _ => t.pieces
  let s := ps.foldl (fun (s : State) p =>
    let ppa := if t.direct then selfId s * 2 ^ 40 + p.pva else match tget? leaves (p.pva / 65536) with | some x => leafPpa x p.pva | none => 0
    let bs := slice t.bytes p.first p.count
    let payload := if isAtomic t.op then bytesLine t.bytes else if t.stores then bytesLine (List.replicate (p.pva % 256) 0 ++ bs) else 0
    let a : Access := { tile := i, ppa := ppa, pva := p.pva, op := t.op, payload := payload, first := p.first, count := p.count }
    { s with eng := { s.eng with accesses := tset s.eng.accesses s.eng.nextAccess a, nextAccess := s.eng.nextAccess + 1 } }) s
  setTile s i { t with st := .issued, left := ps.length }

/-- A tile's footprint is translated whole: its accesses are made, or it waits as one fault; since is the time of its first fault (07, R193, R199). -/
def translateOrFault (s : State) (i : Nat) (t : Tile) (since : Nat) : State :=
  if t.direct then makeAccesses s i t []
  else
    let x := translateTile s t
    match x.1.faults with
    | [] => makeAccesses x.2 i t x.1.leaves
    | (pva, rights) :: more =>
      addFault (setTile x.2 i { t with st := .faulted none since rights pva }) (engRegion t.engine) (faultRec i t pva (more.length + 1) rights)

/-- A new tile. -/
def newTile (s : State) (t : Tile) : State :=
  let i := s.eng.nextTile
  translateOrFault { s with eng := { s.eng with nextTile := i + 1 } } i t (now s)

/-- Every address of a footprint is canonical (01, R25). -/
def Tile.canonical (t : Tile) : Bool := t.pieces.all (fun p => decide (p.pva + p.count ≤ 2 ^ 57))
/-- The first address that is not. -/
def Tile.badPva (t : Tile) : Nat := ((t.pieces.find? (fun p => !decide (p.pva + p.count ≤ 2 ^ 57))).map (·.pva)).getD 0 % 2 ^ 57

/-! ### Scratch and private memory (07, R182, R183) -/

/-- Address of a byte of a hardware thread's scratch window; which pages of its engine's 512 KiB hold the window is not seen by any thread. -/
def scratchAddr (e h at_ : Nat) : Nat := (e * 64 + h) * 2 ^ 19 + at_
/-- Address of a byte of a hardware thread's 1 MiB of private memory. -/
def privAddr (e h at_ : Nat) : Nat := (e * 64 + h) * 2 ^ 20 + at_

def readScratch (s : State) (e h at_ n : Nat) : List Byte := readRange s.eng.scratch (scratchAddr e h at_) n
def writeScratch (s : State) (e h at_ : Nat) (bs : List Byte) : State :=
  { s with eng := { s.eng with scratch := writeRange s.eng.scratch (scratchAddr e h at_) bs } }

/-- The chunk place that holds a 256 B chunk of a hardware thread's private memory: stripe and position in the metadata of the logical stack its engine serves (05, R119; 07, R182). -/
def privPlace (e h chunk : Nat) : Nat × Nat :=
  let n := Config.metaChunk 0 ((e % 32 * 64 + h) * 4096 + chunk) % ((stripeCount - metaStripe) * 16)
  (metaStripe + n / 16, n % 16)

/-- A chunk of private memory whose stored place gives no data (06, R143, R147 to R149; 07, Table 7.6). -/
def privBad (s : State) (e h chunk : Nat) : Bool :=
  let l := e / 32
  let x := privPlace e h chunk
  match readStack s l x.1 with
  | none => true
  | some p =>
    if posGone s l p x.1 x.2 then doubleFenced s p x.1 || !rebuildable s l p x.1 x.2
    else (light s p x.1 x.2).poisoned || ((light s p x.1 x.2).bad && !rebuildable s l p x.1 x.2)

/-- An access of n bytes of private memory draws DATA_ERROR: it needs the stored data of a valid chunk that gives none, or writes a chunk that no code can hold (06, R149; 07, Table 7.6). -/
def privFails (s : State) (e h : Nat) (valid : BitVec 4096) (at_ n : Nat) (write : Bool) : Bool :=
  (List.range ((at_ + n - 1) / 256 + 1)).any (fun c =>
    decide (at_ / 256 ≤ c) &&
    ((write && chunkHopeless s (e / 32) (privPlace e h c).1 (privPlace e h c).2) ||
     (valid.getLsbD c && (!write || !(decide (at_ ≤ 256 * c) && decide (256 * c + 256 ≤ at_ + n))) && privBad s e h c)))

/-- A chunk whose valid bit is clear reads as zero. -/
def readPriv (s : State) (e h : Nat) (valid : BitVec 4096) (at_ n : Nat) : List Byte :=
  (List.range n).map (fun i => if valid.getLsbD ((at_ + i) / 256) then readByte s.eng.priv (privAddr e h (at_ + i)) else 0)

/-- A write sets the valid bits of its chunks and treats the rest of a chunk that was not valid as zero. -/
def writePriv (s : State) (e h : Nat) (th : Thread) (at_ : Nat) (bs : List Byte) : State × Thread :=
  let chunks := (List.range ((at_ + bs.length - 1) / 256 + 1)).filter (fun c => decide (at_ / 256 ≤ c) && !bs.isEmpty)
  let x := chunks.foldl (fun (x : List Host.Cell × BitVec 4096) c =>
    if x.2.getLsbD c then x
    else (writeRange x.1 (privAddr e h (256 * c)) (List.replicate 256 0), x.2 ||| (1#4096 <<< c))) (s.eng.priv, th.privValid)
  ({ s with eng := { s.eng with priv := writeRange x.1 (privAddr e h at_) bs } }, { th with privValid := x.2 })

/-! ### Results of accesses -/

/-- The value of a narrow load (08, R210). -/
def extend (size : Nat) (signed : Bool) (v : Nat) : Word :=
  let b := v % 2 ^ (8 * size)
  if signed && bit b (8 * size - 1) then BitVec.ofInt 64 ((b : Int) - 2 ^ (8 * size)) else BitVec.ofNat 64 b

/-- What a tile whose lines are all answered does to its thread (08, R210 to R213; 09, R237). -/
def applyUse (th : Thread) (t : Tile) : Thread :=
  let v := ofLe t.bytes
  match t.use with
  | .scalarLoad d size signed => { th with sregs := th.sregs.set d (extend size signed v) }
  | .vectorLoad d _ => { th with vregs := th.vregs.set d (BitVec.ofNat 512 v) }
  | .gather d _ => { th with vregs := th.vregs.set d (BitVec.ofNat 512 v) }
  | .atomic d _ => { th with sregs := th.sregs.set d (BitVec.ofNat 64 v) }
  | .itemRead => { th with got := t.pieces.foldl (fun g p => tset g (p.pva / 256) (bytesLine (slice t.bytes p.first p.count))) th.got }
  | _ => th

/-- A tile of which every line has been answered leaves, but for a transfer, which TILE_PERFORMED ends (08, R214). -/
def tileDone (s : State) (i : Nat) (t : Tile) : State :=
  if t.left ≠ 0 then setTile s i t
  else if t.thread = 64 then delTile s i
  else match t.use with
    | .tileLoad _ => if t.failed then modThread (delTile s i) t.engine t.thread (fun th => { th with tiles := th.tiles - 1 }) else setTile s i t
    | .tileStore => if t.failed then modThread (delTile s i) t.engine t.thread (fun th => { th with tiles := th.tiles - 1 }) else setTile s i t
    | _ => if t.failed then delTile s i else modThread (delTile s i) t.engine t.thread (fun th => applyUse th t)

/-- The bytes an answer gives a tile (08, R213: the old value of an atomic). -/
def takeData (t : Tile) (x : Access) (d : Line) : Tile :=
  if isAtomic t.op then { t with bytes := (lineBytes d).take 8 }
  else if t.stores then t
  else { t with bytes := t.bytes.take x.first ++ slice (lineBytes d) (x.ppa % 256) x.count ++ t.bytes.drop (x.first + x.count) }

/-- An access is answered (07, R187, R189; 08, R215). -/
def deliver (s : State) (id : Nat) (a : Answer) : State :=
  match accessOf? s id with
  | none => s
  | some x =>
    let s := delAccess s id
    match tileOf? s x.tile with
    | none => s
    | some t =>
      let t := { t with left := t.left - 1 }
      let remote := x.ppa / 2 ^ 40 != selfId s
      if a.status != 0 then
        let f : Failure := { status := accessFailure remote a.status, detail := a.status, pva := if t.direct then x.ppa else x.pva }
        failThread (tileDone s x.tile { t with failed := true }) t.engine t.thread f
      else tileDone s x.tile (takeData t x (a.data.getD 0))

/-- An access that gets no answer fails its thread (07, R189; 10, R271). -/
def failAccess (s : State) (id : Nat) (f : Failure) : State :=
  match accessOf? s id with
  | none => s
  | some x =>
    let s := delAccess s id
    match tileOf? s x.tile with
    | none => s
    | some t => failThread (tileDone s x.tile { t with left := t.left - 1, failed := true }) t.engine t.thread f

/-! ### Accesses of this module's memory (07, R187, R188) -/

/-- Another access of the thread to the line comes first: one of an earlier tile, or earlier in the tile, not yet issued, or, of a remote line, not yet answered; or an earlier tile that waits on a fault covers the line (07, R184, R185). -/
def mustFollow (s : State) (id : Nat) (x : Access) (t : Tile) (remote : Bool) : Bool :=
  let mine := threadTiles s t.engine t.thread
  s.eng.accesses.any (fun y => (decide (y.2.tile < x.tile) || (y.2.tile == x.tile && decide (y.1 < id))) && y.2.ppa / 256 == x.ppa / 256 && mine.any (fun m => m.1 == y.2.tile) &&
    (remote || y.2.st == AccState.waiting)) ||
  mine.any (fun m => decide (m.1 < x.tile) && m.2.waitsOnFault && m.2.pieces.any (fun p => p.pva / 256 == x.pva / 256))

/-- The request an access makes (07, R187; 04, R96): the words it touches, and the bytes it stores where they are not whole words. -/
def accessReq (s : State) (id : Nat) (x : Access) (t : Tile) (p : Spray) : Req :=
  let b := x.ppa % 256
  let o := x.ppa % 2 ^ 40
  let origin : Origin := match t.use with | .itemUnit u => .itemUnit t.spray (u + x.first / 256) id | _ => .engine id
  let whole := x.op == Op.zeroLine
  let partly := isPlainWrite x.op && !whole && (b % 8 != 0 || x.count % 8 != 0)
  { origin := origin, op := x.op, offset := if whole then o / 256 * 256 else o / 8 * 8, length := if whole then 31 else (b + x.count - 1) / 8 - b / 8,
    payload := x.payload, ext := (extentAt s o).getD 0, source := p.source, tenant := p.tenant,
    bytes := if partly then some (((BitVec.allOnes 256) >>> (256 - x.count)) <<< b) else none }

/-- Source and tenant whose rights an access is checked with: the launch context (07, R174). -/
def enterIngress (s : State) (id : Nat) (r : Req) (path : Nat) : State :=
  match extentRefusal s r.op r.offset r.source r.tenant with
  | some st => deliver (logViolation s (violationOf s none (homeRegion s r.offset) r.op r.offset r.source r.tenant 0 st)) id { status := st }
  | none =>
    let n := (extentAt s r.offset).getD 0
    let k := homeRegion s r.offset
    let s := modExtent s n (fun e => { e with inFlight := e.inFlight + 1 })
    let a := arrive s k { r with ext := n, path := path, dir := (extentOf s n).coherent, counted := true }
    modRegion a.2 k (fun y => { y with engineQ := y.engineQ ++ [a.1] })

/-- Nothing stands between a store and memory: no transaction, chain or queued request of the line, no directory holder, no stripe lock. -/
def quietLine (s : State) (offset : Nat) : Bool :=
  let line := offset / 256
  let l := lineOf s line
  let k := homeRegion s offset
  let x := regionOf s k
  l.active.isNone && l.chain.isEmpty && (queued x ++ x.engineHeld ++ x.granted ++ x.vc1).all (fun r => r.line != line) &&
  (match lineWindow s line with | some w => dirOf s w == {} && !s.coh.rebuild.contains w | none => true) &&
  (match extentAt s offset with | some n => !lineLocked s n offset | none => true)

/-- A whole block of ZERO at the home agent (09, R240), answered DATA_ERROR where its data must enter an open entry and no code can hold a chunk of it (06, R149): in a coherent extent its lines become 16 ZERO_LINE; elsewhere, once none of its lines is busy, one transaction clears the valid bits, or fills an open buffer entry, which commits at once, and sets the 16 commit bits. -/
def zeroBlock (s : State) (id : Nat) (x : Access) (t : Tile) (p : Spray) (u : Nat) (busy : Nat → Bool) : State :=
  let o := x.ppa % 2 ^ 40
  match (if offsetLimit ≤ o then some Sts.addressInvalid else extentRefusal s Op.zeroLine o p.source p.tenant) with
  | some st =>
    let s := if offsetLimit ≤ o then s else logViolation s (violationOf s none (homeRegion s o) Op.zeroLine o p.source p.tenant 0 st)
    deliver s id { status := st }
  | none =>
    let n := (extentAt s o).getD 0
    let e := extentOf s n
    if e.coherent then
      let s := (List.range 16).foldl (fun (s : State) i =>
        let a : Access := { x with ppa := x.ppa + 256 * i, pva := x.pva + 256 * i, first := 256 * i, count := 256 }
        { s with eng := { s.eng with accesses := tset s.eng.accesses s.eng.nextAccess a, nextAccess := s.eng.nextAccess + 1 } }) (delAccess s id)
      setTile s x.tile { t with use := .itemUnit u, left := 16 }
    else if (List.range 16).any (fun i => busy (o + 256 * i)) then s
    else
      let pl := mapOffset e o
      if (sabAt s pl.lstack pl.stripe).isSome && (List.range 16).any (fun i => chunkHopeless s pl.lstack pl.stripe i) then deliver s id { status := Sts.dataError } else
      let s := match sabAt s pl.lstack pl.stripe with
        | none => setValidBlock s o 0
        | some _ =>
          let s := (List.range 16).foldl (fun s i => (writeLine s n (o + 256 * i) 0 0 32 false).getD s) s
          match sabAt s pl.lstack pl.stripe with
          | some en => commitEntry s en
          | none => s
      let s := cacheValid s (homeRegion s o) o true
      deliver ((List.range 16).foldl (fun s i => markUnit s t.spray (u + i)) s) id {}

/-- An access enters the ingress of the line's region, or is held where the engine queue is full (07, R187, R188; 01, R26). -/
def issueLocal (s : State) (id : Nat) (x : Access) (t : Tile) (p : Spray) : State :=
  let o := x.ppa % 2 ^ 40
  match t.use with
  | .zeroBlock u => zeroBlock s id x t p u (fun o => !quietLine s o)
  | _ =>
  let s := setAccess s id { x with st := .inModule }
  if offsetLimit ≤ o then deliver s id { status := Sts.addressInvalid }
  else
    let k := homeRegion s o
    let e := engRegion t.engine
    let r := { accessReq s id x t p with path := if k = e then 11 else ringPath s e k, counted := false }
    if (regionOf s k).engineQ.length < 1024 && (regionOf s k).engineHeld.isEmpty then enterIngress s id r r.path
    else modRegion s k (fun y => { y with engineHeld := y.engineHeld ++ [r] })

/-- The access a request of the engines stands for. -/
def Req.access (r : Req) : Option Nat :=
  match r.origin with
  | .engine id => some id
  | .itemUnit _ _ id => some id
  | _ => none

/-- An access of a tile is held at an engine queue that is full (07, R188). -/
def heldTile (s : State) (i : Nat) : Bool :=
  (List.range 4).any (fun k => (regionOf s k).engineHeld.any (fun r => match r.access with
    | some id => (match accessOf? s id with | some x => x.tile == i | none => false)
    | none => false))

/-- The held accesses that a condition picks are never issued: their engine is lost (07, R203). -/
def dropHeld (s : State) (pick : Nat → Bool) : State :=
  (List.range 4).foldl (fun s k => modRegion s k (fun y => { y with engineHeld := y.engineHeld.filter (fun r => match r.access with
    | some id => !pick id
    | none => true) })) s

/-! ### Accesses of other modules (07, R189 to R191; 03, R65, R72, R73) -/

/-- The least number from n on that a condition picks, within fuel. -/
def firstFree : Nat → Nat → (Nat → Bool) → Option Nat
  | 0, _, _ => none
  | fuel + 1, n, ok => if ok n then some n else firstFree fuel (n + 1) ok

/-- A tag of a region free toward an endpoint (03, R65; 07, R190). -/
def freeTag (s : State) (k endpoint : Nat) : Option Nat :=
  (firstFree 16384 0 (fun n => !(s.eng.forwards.any (fun f => f.region == k && f.endpoint == endpoint && f.tag == k * 2 ^ 14 + n)))).map (k * 2 ^ 14 + ·)

/-- Send a remote access with a tag, under the tenant's current key (07, R189); bytes of words it stores only in part are open (log entry 8). -/
def sendRemote (s : State) (id : Nat) (x : Access) (t : Tile) (p : Spray) (tag : Nat) : State :=
  match tenantOf? s p.tenant with
  | none => s
  | some ten =>
    let k := engRegion t.engine
    let r := accessReq s id x t p
    let mixed := r.bytes.isSome
    let payload := match r.bytes with
      | some m => mergeBytes (maskWords (Config.freeBits 2048 (freeNo s)) (reqFirst r) (reqCount r)) x.payload m
      | none => x.payload
    let s := if mixed then useFree s else s
    let gen := (logEngOf s t.engine).gen
    let c := nextCounter s k
    let dest := x.ppa / 2 ^ 40
    let q : Packet := { opcode := x.op, tag := tag, tenant := p.tenant, keyEpoch := ten.epoch % 2, source := selfId s, dest := dest, roleGen := gen, length := r.length,
                        address := dest * 2 ^ 40 + r.offset, msgCounter := c.1,
                        payload := if isAtomic x.op || (isPlainWrite x.op && x.op != Op.zeroLine) then some payload else none }
    let o := outPort c.2 k
    setAccess (sendOn o.2 o.1 (protect ten.key q)) id { x with epoch := some ten.epoch, gen := gen }

/-- Close the forwarding entries of some accesses: the tags stay out of use until their responses arrive (07, R190, R191). -/
def closeForwards (s : State) (pick : Forward → Bool) : State :=
  { s with eng := { s.eng with forwards := s.eng.forwards.map (fun f => if pick f then { f with held := true } else f) } }

/-- Drop a forwarding entry: its tag is free. -/
def dropForward (s : State) (f : Forward) : State := { s with eng := { s.eng with forwards := s.eng.forwards.filter (· != f) } }

def countLate (s : State) : State := { s with eng := { s.eng with lateResponses := satInc 64 s.eng.lateResponses } }

/-- A response to an open entry, its protection taken off: sent again, awaited longer, or delivered (07, R189). -/
def takeResponse (s : State) (f : Forward) (p : Packet) : State :=
  match accessOf? s f.access with
  | none => dropForward s f
  | some x =>
    let firstSend := match x.st with | .remote _ t => t | .backoff _ t _ => t | _ => now s
    if reservedStatus p.status || (p.status == Sts.retry && decide (2 ≤ p.aux / 4096)) then countDiscard s
    else if p.status = Sts.retry then setAccess s f.access { x with st := .backoff f.tag firstSend (now s + us (p.aux % 4096)) }
    else if p.status = Sts.staleRole then setAccess s f.access { x with st := .backoff f.tag firstSend (now s) }
    else if p.status = 0 && (isAtomic x.op || !isPlainWrite x.op) && p.payload.isNone then countDiscard s
    else deliver (dropForward s f) f.access { status := p.status, data := p.payload }

/-- A response from another module reaches its region's response router (07, R191; 03, R67, R75; 10, R272). One that finds its entry closed is dropped and counted; the access of a lost thread that it answers is over (07, R178, R203). -/
def packetResponse (s : State) (via : Via) (p : Packet) : State :=
  if !hubRuns s then s else
  match via with
  | .darinlink => countDiscard s
  | .genura _ =>
    if p.dest != selfId s then s
    else if p.vc != 4 then countDiscard s
    else
      let d := duplicate s p.source p.msgCounter
      if d.1 then d.2
      else match s.eng.forwards.find? (fun f => f.tag == p.tag && f.endpoint == p.source) with
        | none => countLate d.2
        | some f =>
          if f.held then countLate (failAccess (dropForward d.2 f) f.access { status := Sts.remoteError })
          else if p.roleGen != (logEngOf s f.engine).gen then countLate d.2
          else if !p.encrypted then (if unprotectedStatus p.status then takeResponse d.2 f p else countDiscard s)
          else match openPacket s p with
            | .plain q _ => takeResponse d.2 f q
            | .refused _ => countDiscard s

/-! ### The module's own stores (07, R178, R179; 09, R246) -/

/-- A store of whole words, or of the bytes a mask picks, by the module under a source and tenant: its status where it is done at once; where the line is busy it is queued as an engine access, nothing (07, R178, R179).
DESIGN CHOICE, log entry 27: a refused one is logged under region k of its launch or batch. -/
def moduleStore (s : State) (origin : Origin) (k offset length : Nat) (payload : Line) (mask : Option (BitVec 256)) (source tenant : Nat) : Option Nat × State :=
  match extentRefusal s Op.write offset source tenant with
  | some st => (some st, logViolation s (violationOf s none k Op.write offset source tenant 0 st))
  | none =>
    let n := (extentAt s offset).getD 0
    let r : Req := { origin := origin, op := Op.write, offset := offset, length := length, payload := payload, ext := n, source := source, tenant := tenant,
                     path := if homeRegion s offset = k then 11 else ringPath s k (homeRegion s offset), dir := (extentOf s n).coherent, bytes := mask, counted := false }
    if quietLine s offset then
      let x := perform s { r with dir := false } none false
      (some x.1.status, cacheValid x.2 (homeRegion s offset) offset true)
    else
      let h := homeRegion s offset
      let s := modExtent s n (fun e => { e with inFlight := e.inFlight + 1 })
      if (regionOf s h).engineQ.length < 1024 && (regionOf s h).engineHeld.isEmpty then
        let a := arrive s h { r with counted := true }
        (none, modRegion a.2 h (fun y => { y with engineQ := y.engineQ ++ [a.1] }))
      else (none, modRegion s h (fun y => { y with engineHeld := y.engineHeld ++ [{ r with counted := true }] }))

namespace StoreOf
abbrev status := 0
abbrev record := 1
abbrev result := 2
end StoreOf

/-- A store for a launch has been answered (07, R179; 09, R246). -/
def noteStore (p : Spray) (what status : Nat) : Spray :=
  if what = StoreOf.status then { p with statusFailed := p.statusFailed || status != 0 }
  else if what = StoreOf.record then { p with recordFailed := p.recordFailed || status != 0, recordWritten := true }
  else { p with work := { p.work with resultFailed := p.work.resultFailed || status != 0 } }

/-- A store of the module for a launch. -/
def sprayStore (s : State) (n what offset length : Nat) (payload : Line) (mask : Option (BitVec 256)) : State :=
  match sprayOf? s n with
  | none => s
  | some p =>
    match moduleStore s (.sprayStore n what) p.region offset length payload mask p.source p.tenant with
    | (some st, s) => modSpray s n (fun p => noteStore p what st)
    | (none, s) => modSpray s n (fun p => { p with stores := p.stores + 1 })

/-- A request that completed is answered: a packet by its response, an access to its thread, a store to its launch (03, R55; 07, R187). -/
def answerDone (s : State) (k : Nat) (d : Done) : State :=
  match d.req.origin with
  | .packet _ _ => answerPacket s k d.req d.ans
  | .engine id => deliver (settle s d.req) id d.ans
  | .itemUnit _ _ id => deliver (settle s d.req) id d.ans
  | .sprayStore n what => modSpray (settle s d.req) n (fun p => noteStore { p with stores := p.stores - 1 } what d.ans.status)
  | .recallFor _ => s
  | .sweep _ => s

/-! ### Fault batches (07, R194 to R198) -/

/-- A fault record as 32 bytes (07, Table 7.8); one whose tile has ended is written with VALID 0. -/
def FaultRec.bytes (r : FaultRec) (valid : Bool) : List Byte :=
  leBytes 32 (packBits [(57, r.pva), (57, r.base), (32, r.stride), (7, r.rows - 1), (10, r.rowBytes - 1), (16, r.asid), (16, r.spray), (9, r.engine), (6, r.thread),
    (8, r.pages), (2, b2n r.rights), (2, r.access), (33, 0), (1, b2n valid)])

/-- A batch header as 64 bytes (07, Table 7.9). -/
def Batch.header (b : Batch) : List Byte :=
  leBytes 64 (packBits [(64, b.firstStamp), (32, b.seq), (9, b.recs.length), (2, b.region), (19, 0), (1, b2n b.reissued), (1, 1)])

/-- The tile of a record still waits on it. -/
def recWaits (s : State) (b : Batch) (i : Nat) (r : FaultRec) : Bool :=
  match tileOf? s r.tile with
  | some t => (match t.st with | .faulted (some (q, j)) _ _ _ => q == b.seq && j == i | _ => false)
  | none => false

/-- Waiting tiles take records as room appears (07, R196). -/
def fillWaiting (s : State) (k : Nat) : State :=
  modCollect s k (fun c =>
    let room := 256 - c.openRecs.length
    { c with openRecs := c.openRecs ++ c.waiting.take room, waiting := c.waiting.drop room,
             openSince := if c.openRecs.isEmpty then now s else c.openSince })

/-- A region's open batch closes with the next BATCH_SEQ (07, R194, R195). -/
def closeBatch (s : State) (k : Nat) : State :=
  let c := collectOf s k
  let q := s.eng.batchSeq
  let b : Batch := { seq := q, region := k, firstStamp := stamp s - (now s - c.openSince), recs := c.openRecs }
  let s := { s with eng := { s.eng with batches := s.eng.batches ++ [b], batchSeq := (q + 1) % 2 ^ 32 } }
  let s := (List.range c.openRecs.length).foldl (fun s i =>
    match c.openRecs[i]? with
    | none => s
    | some r => match tileOf? s r.tile with
      | some t => (match t.st with
        | .faulted _ since rights pva => setTile s r.tile { t with st := .faulted (some (q, i)) since rights pva }
        | _ => s)
      | none => s) s
  fillWaiting (modCollect s k (fun c => { c with openRecs := [] })) k

/-- The region holds a closed batch that is not in the ring (07, R196). -/
def holdsBatch (s : State) (k : Nat) : Bool := s.eng.batches.any (fun b => b.region == k && !b.written)

/-- The threads of a hardware thread's engine, or of the one it was placed on, are being moved (07, R202). -/
def moving (s : State) (e h : Nat) : Bool :=
  (logEngOf s e).move.isSome || (match threadOf? s e h with | some th => (logEngOf s th.placed).move.isSome | none => false)

/-- Once a move is over, the tiles resumed during it are translated again (07, R198, R202). -/
def wakeResumed (s : State) : State :=
  s.eng.tiles.foldl (fun s x => match x.2.st with
    | .resumed since => if moving s x.2.engine x.2.thread then s else translateOrFault s x.1 x.2 since
    | _ => s) s

/-- A verdict for one tile: translated again, once no move holds its thread's accesses, or its item ends (07, R198, R202). -/
def resolveTile (s : State) (i : Nat) (resume : Bool) : State :=
  match tileOf? s i with
  | none => s
  | some t =>
    match t.st with
    | .issued => s
    | .resumed _ => s
    | .faulted _ since rights pva =>
      if resume then (if moving s t.engine t.thread then setTile s i { t with st := .resumed since } else translateOrFault s i t since)
      else failThread (delTile s i) t.engine t.thread { status := if rights then Sts.rightsFault else Sts.tileUnmapped, pva := pva }

end Sys2Proof.Machine
end

