-- ==== Sys2Proof/Machine/Pool.lean ====
section
/-! DEFINITION. The built-in pool operations as functions of their descriptor and of the lines an item has read (09): what a descriptor must hold, how its work is cut into items, what an item reads, what its units are, how results combine. -/

namespace Sys2Proof.Machine

namespace PoolKind
abbrev fill := 0x10
abbrev zero := 0x11
abbrev copy := 0x12
abbrev compare := 0x13
abbrev reduce := 0x14
abbrev gather := 0x15
abbrev scatter := 0x16
abbrev search := 0x17
abbrev attend := 0x18
abbrev digest := 0x19
end PoolKind

/-! ### Descriptor fields (09, Tables 9.1, 9.6, 9.8, 9.10, 9.12) -/

/-- Bits of a descriptor. -/
def fld (d : Line) (hi lo : Nat) : Nat := bits d.toNat hi lo

def dKind (d : Line) : Nat := fld d 7 0
def dStatusEn (d : Line) : Bool := bit d.toNat 40
def dStatusArray (d : Line) : Nat := fld d 179 128
def dDst (d : Line) : Nat := fld d 248 192
def dSrc (d : Line) : Nat := fld d 312 256
def dSrc2 (d : Line) : Nat := fld d 376 320
def dIndex (d : Line) : Nat := fld d 440 384
def dCount (d : Line) : Nat := fld d 471 448 + 1
def dRow (d : Line) : Nat := fld d 475 472 + 1
def dFormat (d : Line) : Nat := fld d 479 476
def dOp (d : Line) : Nat := fld d 481 480
def dTotal (d : Line) : Bool := bit d.toNat 482
def dPattern (d : Line) : Nat := fld d 575 512
def dExt (d : Line) : Nat := fld d 207 192
def dGen (d : Line) : Nat := fld d 215 208

/-- SEARCH. -/
def sK (d : Line) : Nat := fld d 478 469 + 1
def sNq (d : Line) : Nat := fld d 468 465 + 1
def sL2 (d : Line) : Bool := bit d.toNat 464
def sFmt (d : Line) : Nat := fld d 463 460
def sDim (d : Line) : Nat := fld d 459 448 + 1
def sRows (d : Line) : Nat := fld d 447 416 + 1
def sStride (d : Line) : Nat := fld d 415 384
def sResult (d : Line) : Nat := fld d 376 320
def sQueries (d : Line) : Nat := fld d 312 256
def sTable (d : Line) : Nat := fld d 248 192

/-- ATTEND. -/
def aP (d : Line) : Nat := 16 * 2 ^ fld d 723 721
def aE (d : Line) : Nat := if bit d.toNat 720 then 2 else 4
def aFmt (d : Line) : Nat := fld d 719 716
def aDim (d : Line) : Nat := 64 * (fld d 715 714 + 1)
def aG (d : Line) : Nat := fld d 713 710 + 1
def aH (d : Line) : Nat := fld d 709 704 + 1
def aMs (d : Line) : Nat := fld d 703 688 + 1
def aSeqs (d : Line) : Nat := fld d 687 672 + 1
def aVScale (d : Line) : Nat := fld d 671 640
def aKScale (d : Line) : Nat := fld d 639 608
def aScale (d : Line) : Nat := fld d 607 576
def aStats (d : Line) : Nat := fld d 568 512
def aOut (d : Line) : Nat := fld d 504 448
def aSeqLen (d : Line) : Nat := fld d 440 384
def aPageTable (d : Line) : Nat := fld d 376 320
def aKv (d : Line) : Nat := fld d 312 256
def aQ (d : Line) : Nat := fld d 248 192

/-- Bytes of a row of D elements in a format: one or two bytes each, or MXFP4 elements and their scales (09). -/
def rowBytesOf (fmt dim : Nat) : Nat := if fmt = 4 then dim / 2 + dim / 32 else if fmt = 7 then 2 * dim else dim

/-! ### Checks (09, R232, R239, R241, R247, Table 9.3) -/

/-- Bits [hi:lo] set. -/
def span (hi lo : Nat) : Nat := (2 ^ (hi + 1 - lo) - 1) <<< lo

/-- The fields a kind uses beside the common header. -/
def usedFields (d : Line) : List (Nat × Nat) :=
  let k := dKind d
  let dst := (248, 192)
  let src := (312, 256)
  let src2 := (376, 320)
  let count := (471, 448)
  if k = PoolKind.fill then [dst, count, (575, 512)]
  else if k = PoolKind.zero then [dst, count]
  else if k = PoolKind.copy then [dst, src, count]
  else if k = PoolKind.compare then [src, src2, count]
  else if k = PoolKind.reduce then (if dTotal d then [src, count, (482, 476)] else [dst, src, src2, count, (482, 476)])
  else if k = PoolKind.gather ∨ k = PoolKind.scatter then [dst, src, (440, 384), count, (475, 472)]
  else if k = PoolKind.search then [(478, 384), src2, src, dst]
  else if k = PoolKind.attend then [(723, 576), (568, 512), (504, 448), (440, 384), src2, src, dst]
  else [(215, 192)]

/-- No reserved field and no field the kind does not use is other than zero; DESC_KIND is one of Table 9.2 (row 0x40). -/
def descOk (d : Line) : Bool :=
  let k := dKind d
  let head := [(7, 0), (40, 40)] ++ (if k = PoolKind.digest then [] else [(39, 24)]) ++ (if dStatusEn d then [(179, 128)] else [])
  let used := (head ++ usedFields d).foldl (fun m x => m ||| span x.1 x.2) 0
  decide (PoolKind.fill ≤ k) && decide (k ≤ PoolKind.digest) && d.toNat &&& (2 ^ 2048 - 1 - used) == 0

/-- An FP32 code is finite and greater than zero. -/
def positiveFinite (c : Nat) : Bool := decide (0 < c) && decide (c < 0x7F800000)

/-- Items of a launch; its units per item; its work area in bytes (09, Table 9.4). -/
def poolItems (d : Line) (size : Nat) : Nat :=
  let k := dKind d
  if k = PoolKind.gather ∨ k = PoolKind.scatter then dCount d * dRow d
  else if k = PoolKind.search then ceilDiv (sRows d) 256
  else if k = PoolKind.attend then aSeqs d * aH d
  else if k = PoolKind.digest then size
  else dCount d

def poolUnits (d : Line) : Nat := if dKind d = PoolKind.attend then ceilDiv (aG d * aDim d * aE d) 256 + 1 else 1

def poolWork (d : Line) (size : Nat) : Nat :=
  let k := dKind d
  if k = PoolKind.compare then 64
  else if k = PoolKind.reduce then (if dTotal d then 64 else 0)
  else if k = PoolKind.search then 5 * sNq d * sK d * 8
  else if k = PoolKind.digest then size * 48
  else 0

/-- Bytes of the commit map (09, R234). -/
def mapBytes (d : Line) (size : Nat) : Nat := ceilDiv (poolItems d size * poolUnits d) 8

/-- Pages of the operation space a launch takes (09, R234). -/
def poolPages (d : Line) (size : Nat) : Nat := ceilDiv (mapBytes d size) 4096 + ceilDiv (poolWork d size) 4096

/-- Row 0x60: counts, dimensions, formats, modes, alignment and scales are in range, and the commit map is at most 8 MiB. -/
def shapeOk (d : Line) (size : Nat) : Bool :=
  let k := dKind d
  let al := fun (a : Nat) => a % 256 == 0
  (if k = PoolKind.search then
      [0, 1, 4, 7].contains (sFmt d) && decide (32 ≤ sDim d) && sDim d % 32 == 0 && decide (rowBytesOf (sFmt d) (sDim d) ≤ sStride d) && al (sResult d)
    else if k = PoolKind.attend then
      decide (fld d 723 721 ≤ 4) && [0, 1, 4].contains (aFmt d) && positiveFinite (aScale d) && positiveFinite (aKScale d) && positiveFinite (aVScale d) &&
      al (aOut d) && al (aStats d)
    else if k = PoolKind.digest then true
    else
      al (dDst d) && al (dSrc d) && al (dSrc2 d) &&
      (!(k == PoolKind.reduce) || (decide (dOp d < 3) && [6, 7, 8, 9].contains (dFormat d))) &&
      (!(k == PoolKind.gather || k == PoolKind.scatter) || (dIndex d % 4 == 0 && decide (dCount d * dRow d ≤ 16777216)))) &&
  decide (mapBytes d size ≤ 8388608)

/-- Two ranges of bytes meet. -/
def meets (a n b m : Nat) : Bool := decide (a < b + m) && decide (b < a + n)

/-- Row 0x61: the destination's range meets a source's, but for a REDUCE in place (09, R241). Rows that indices pick are not known at the launch and not compared (log entry 18). -/
def overlaps (d : Line) : Bool :=
  let k := dKind d
  let n := 256 * dCount d
  if k = PoolKind.copy then meets (dDst d) n (dSrc d) n
  else if k = PoolKind.reduce then
    !dTotal d && ((dDst d != dSrc d && meets (dDst d) n (dSrc d) n) || (dDst d != dSrc2 d && meets (dDst d) n (dSrc2 d) n))
  else if k = PoolKind.gather then meets (dDst d) (n * dRow d) (dIndex d) (4 * dCount d)
  else if k = PoolKind.search then
    let m := sNq d * sK d * 8
    meets (sResult d) m (sTable d) ((sRows d - 1) * sStride d + rowBytesOf (sFmt d) (sDim d)) || meets (sResult d) m (sQueries d) (4 * sNq d * sDim d)
  else if k = PoolKind.attend then
    let items := aSeqs d * aH d
    let srcs := [(aQ d, 4 * items * aG d * aDim d), (aPageTable d, 4 * aSeqs d * aMs d), (aSeqLen d, 4 * aSeqs d)]
    srcs.any (fun x => meets (aOut d) (256 * (poolUnits d - 1) * items) x.1 x.2 || meets (aStats d) (256 * items) x.1 x.2)
  else false

/-! ### What an item reads -/

/-- n bytes at an address, from the lines read so far. -/
def gotBytes (g : Tab Line) (a n : Nat) : List Byte :=
  (List.range ((a + n - 1) / 256 + 1 - a / 256)).flatMap (fun i =>
    let l := a / 256 + i
    let from_ := if i = 0 then a % 256 else 0
    let to_ := min 256 (a + n - 256 * l)
    slice (lineBytes (tget g l 0)) from_ (to_ - from_))

/-- Lines of a range not yet read. -/
def lacking (g : Tab Line) (a n : Nat) : List Nat :=
  if n = 0 then [] else ((List.range ((a + n - 1) / 256 + 1 - a / 256)).map (a / 256 + ·)).filter (fun l => (tget? g l).isNone)

/-- A 32-bit word, once it has been read. -/
def gotWord (g : Tab Line) (a : Nat) : Option Nat := if (lacking g a 4).isEmpty then some (ofLe (gotBytes g a 4)) else none

/-- The query vectors of SEARCH. -/
def queryAddr (d : Line) (q : Nat) : Nat := sQueries d + 4 * q * sDim d

/-- First row of a SEARCH item and its rows. -/
def searchRows (d : Line) (i : Nat) : List Nat := (List.range (min 256 (sRows d - 256 * i))).map (256 * i + ·)

/-- Bytes of one KV row, and the address of the key (0) or value (1) row of a token on a page (09, R247). -/
def kvAddr (d : Line) (page head t value : Nat) : Nat :=
  let rb := rowBytesOf (aFmt d) (aDim d)
  aKv d + page * (aH d * 2 * aP d * rb) + ((2 * head + value) * aP d + t % aP d) * rb

/-- Page-table entry of a token of a sequence. -/
def pageEntry (d : Line) (sq t : Nat) : Nat := aPageTable d + 4 * (sq * aMs d + t / aP d)

/-- The ranges an item is known to read, given the lines it has (09, R239, R242, R243, R246, R248); base is the byte offset of a DIGEST's extent. -/
def itemReads (d : Line) (base i : Nat) (g : Tab Line) : List (Nat × Nat) :=
  let k := dKind d
  if k = PoolKind.copy then [(dSrc d + 256 * i, 256)]
  else if k = PoolKind.compare then [(dSrc d + 256 * i, 256), (dSrc2 d + 256 * i, 256)]
  else if k = PoolKind.reduce then (dSrc d + 256 * i, 256) :: (if dTotal d then [] else [(dSrc2 d + 256 * i, 256)])
  else if k = PoolKind.gather then
    let a := dIndex d + 4 * (i / dRow d)
    (a, 4) :: (match gotWord g a with | some r => [(dSrc d + 256 * (r * dRow d + i % dRow d), 256)] | none => [])
  else if k = PoolKind.scatter then [(dIndex d + 4 * (i / dRow d), 4), (dSrc d + 256 * i, 256)]
  else if k = PoolKind.search then
    (sQueries d, 4 * sNq d * sDim d) :: (searchRows d i).map (fun r => (sTable d + r * sStride d, rowBytesOf (sFmt d) (sDim d)))
  else if k = PoolKind.attend then
    let sq := i / aH d
    let h := i % aH d
    let rb := rowBytesOf (aFmt d) (aDim d)
    [(aSeqLen d + 4 * sq, 4), (aQ d + 4 * ((sq * aH d + h) * aG d) * aDim d, 4 * aG d * aDim d)] ++
    (match gotWord g (aSeqLen d + 4 * sq) with
     | none => []
     | some l =>
       if aMs d * aP d < l then []
       else (pageEntry d sq 0, 4 * ceilDiv l (aP d)) :: (List.range l).flatMap (fun t =>
         match gotWord g (pageEntry d sq t) with
         | some pg => [(kvAddr d pg h t 0, rb), (kvAddr d pg h t 1, rb)]
         | none => []))
  else if k = PoolKind.digest then [(base + 2097152 * i, 2097152)]
  else []

/-- Lines an item still needs. -/
def itemLacks (d : Line) (base i : Nat) (g : Tab Line) : List Nat := ((itemReads d base i g).flatMap (fun r => lacking g r.1 r.2)).eraseDups

/-- The item ends INDEX_RANGE (09, R247). -/
def itemOutOfRange (d : Line) (i : Nat) (g : Tab Line) : Bool :=
  dKind d == PoolKind.attend && (match gotWord g (aSeqLen d + 4 * (i / aH d)) with | some l => decide (aMs d * aP d < l) | none => false)

/-! ### Values of rows and queries (09, R245) -/

/-- FP32 values at an address. -/
def gotFloats (g : Tab Line) (a n : Nat) : List Num :=
  let bs := gotBytes g a (4 * n)
  (List.range n).map (fun i => decodeElem fp32 (ofLe (slice bs (4 * i) 4)))

/-- Elements of a row as exact values, MXFP4 scales applied. -/
def rowValues (fmt dim : Nat) (bs : List Byte) : List Num :=
  match fmtOf fmt with
  | none => []
  | some f =>
    (List.range dim).map (fun i =>
      let b := if fmt = 4 then (ofLe (slice bs (i / 2) 1)) >>> (4 * (i % 2)) % 16 else ofLe (slice bs (i * (f.width / 8)) (f.width / 8))
      let x := decodeElem f b
      if fmt = 4 then x.mul (scaleValue (ofLe (slice bs (dim / 2 + i / 32) 1))) else x)

/-- A query quantized once: its elements and X, or nothing where an element is NaN or infinite (09, R245). -/
def quantizeQuery (fmt : Nat) (l : List Num) : Option (List Num × Int) :=
  if l.any (fun x => match x with | .fin _ _ _ => false | _ => true) then none
  else if fmt = 7 then some (l.map (fun x => decodeElem bf16 (encodeFloat bf16 x false false)), 0)
  else
    let q := mxQuantize e4m3 8 l
    some (q.1.map (decodeElem e4m3), (q.2 : Int) - 127)

/-- Rotate a list. -/
def rotateList {α : Type} (l : List α) (n : Nat) : List α := let k := n % max 1 l.length; l.drop k ++ l.take k

/-- Cut a list into groups of k, from fuel groups. -/
def groups {α : Type} : Nat → Nat → List α → List (List α)
  | 0, _, _ => []
  | n + 1, k, l => if l.isEmpty then [] else l.take k :: groups n k (l.drop k)

/-- A sum of products formed in W48 by dot updates of K products each; the order of the updates is open (08, R225, R229; log entry 8), number no of the run's free values. -/
def dotSum (k no : Nat) (prods : List Num) : Word :=
  (rotateList (groups prods.length k prods) (Config.freeBits 16 no).toNat).foldl (fun a g => w48Write (Num.sum (w48Value a :: g)) (w48Flags a)) 0

/-- Products of two vectors. -/
def products (x y : List Num) : List Num := List.zipWith Num.mul x y

/-! ### SEARCH (09, R245, R246) -/

/-- Products per lane of the dot code of a row format. -/
def dotWidth (fmt : Nat) : Nat := if fmt = 7 then 2 else 4

/-- FP32 score of a row for a query (09, R245). -/
def searchScore (d : Line) (no : Nat) (q : List Num × Int) (x : List Num) : Nat :=
  let k := dotWidth (sFmt d)
  let qx := w48Value (dotSum k no (products q.1 x))
  if sL2 d then
    let qq := (w48Value (dotSum k no (products q.1 q.1))).shift (2 * q.2)
    let xx := w48Value (dotSum k no (products x x))
    encodeFloat fp32 (w48Value (round48 (Num.sum [qq, (qx.shift (q.2 + 1)).neg, xx]))) false false
  else encodeFloat fp32 (qx.shift q.2) false false

/-- One ranked row ranks before another: the better score by the metric, then the lower row (09, R246). -/
def ranksBefore (l2 : Bool) (a b : BitVec 32 × Nat) : Bool :=
  match (decodeElem fp32 a.1.toNat).cmp (decodeElem fp32 b.1.toNat) with
  | some c => if c = 0 then decide (a.2 ≤ b.2) else if l2 then decide (c < 0) else decide (0 < c)
  | none => true

/-- The best k of some ranked rows. -/
def bestRows (l2 : Bool) (k : Nat) (l : List (BitVec 32 × Nat)) : List (BitVec 32 × Nat) := (sortBy (ranksBefore l2) l).take k

/-- What a SEARCH item merges: each query's scored rows, invalid queries, rows with a NaN score, rows ranked. -/
structure SearchPart where
  lists : List (List (BitVec 32 × Nat))
  invalid : BitVec 16
  nans : Nat
  ranked : Nat

def searchItem (d : Line) (no i : Nat) (g : Tab Line) : SearchPart :=
  let qs := (List.range (sNq d)).map (fun q => quantizeQuery (sFmt d) (gotFloats g (queryAddr d q) (sDim d)))
  let rows := (searchRows d i).map (fun r => (r, rowValues (sFmt d) (sDim d) (gotBytes g (sTable d + r * sStride d) (rowBytesOf (sFmt d) (sDim d)))))
  let score : Option (List Num × Int) → List (BitVec 32 × Nat) := fun q => match q with
    | none => []
    | some q => rows.map (fun (r : Nat × List Num) => (BitVec.ofNat 32 (searchScore d no q r.2), r.1))
  let isNan := fun (x : BitVec 32 × Nat) => decodeElem fp32 x.1.toNat == Num.nan
  let all := qs.map score
  let good := all.map (fun l => l.filter (fun x => !isNan x))
  { lists := good.map (bestRows (sL2 d) (sK d))
    invalid := (List.range (sNq d)).foldl (fun m q => if (qs.getD q none).isNone then m ||| (1#16 <<< q) else m) 0
    nans := (rows.filter (fun r => all.any (fun l => l.any (fun x => x.2 == r.1 && isNan x)))).length
    ranked := (rows.filter (fun r => good.any (fun l => l.any (fun x => x.2 == r.1)))).length }

/-- A result list as bytes: k entries, the rest empty entries (09, R246). -/
def listBytes (k : Nat) (l : List (BitVec 32 × Nat)) : List Byte :=
  (List.range k).flatMap (fun i => match l[i]? with
    | some x => leBytes 4 x.1.toNat ++ leBytes 4 x.2
    | none => leBytes 4 0x7FC00000 ++ leBytes 4 0xFFFFFFFF)

/-! ### REDUCE (09, R242) -/

/-- Bytes of an element of a format. -/
def elemBytes (fmt : Nat) : Nat := match fmtOf fmt with | some f => f.width / 8 | none => 1

/-- Elements of a line as values. -/
def lineElems (fmt : Nat) (l : Line) : List Num :=
  match fmtOf fmt with
  | none => []
  | some f => (List.range (2048 / f.width)).map (fun i => decodeElem f (bits l.toNat (f.width * i + f.width - 1) (f.width * i)))

/-- REDUCE_OP on exact values. -/
def reduceOp (op : Nat) (x y : Num) : Num := if op = 0 then Num.sum [x, y] else Num.pick (op == 1) x y

/-- Elementwise REDUCE: converted once, to nearest even, without SAT. -/
def reduceLines (d : Line) (x y : Line) : Line :=
  match fmtOf (dFormat d) with
  | none => 0
  | some f =>
    let z := List.zipWith (reduceOp (dOp d)) (lineElems (dFormat d) x) (lineElems (dFormat d) y)
    bytesLine (z.flatMap (fun v => leBytes (f.width / 8) (encodeElem f v false false)))

/-- Combine two W48 values of a total REDUCE; flags of both stay. -/
def totalOp (op : Nat) (a b : Word) : Word := w48Write (reduceOp op (w48Value a) (w48Value b)) (w48Flags a ||| w48Flags b)

/-- An item's part of a total REDUCE; the order of combination is open (09, R242; log entry 8). -/
def totalItem (d : Line) (no : Nat) (x : Line) : Word :=
  match (rotateList (lineElems (dFormat d) x) (Config.freeBits 16 no).toNat).map round48 with
  | [] => 0
  | a :: t => t.foldl (totalOp (dOp d)) a

/-! ### ATTEND (09, R247 to R249) -/

/-- log2(e) times 2^120, cut to an integer. -/
def log2e : Nat := 1917670637729674084946755258930051709

/-- The nearest FP32 value of a number. -/
def toFp32 (x : Num) : Num := decodeElem fp32 (encodeFloat fp32 x false false)

/-- EXP2 of R218, number no of the run's free values. -/
def exp2Of (no : Nat) (x : Num) : Num := decodeElem fp32 (sfu 0 (BitVec.ofNat 32 (encodeFloat fp32 x false false)) no)
def rcpOf (no : Nat) (x : Num) : Num := decodeElem fp32 (sfu 2 (BitVec.ofNat 32 (encodeFloat fp32 x false false)) no)

/-- The running values of one query head: m, l and o in W48. -/
structure Head where
  m : Num
  l : Word
  o : List Word

/-- One block of tokens for one query head (09, R248): scores s, their values. -/
def attendBlock (no : Nat) (vScale : Num) (hd : Head) (scores : List Num) (vals : List (List Num)) : Head :=
  let mn := scores.foldl (Num.pick false) hd.m
  let alpha := match hd.m with | .inf true => .fin false 0 0 | m => exp2Of no (toFp32 (Num.sum [m, mn.neg]))
  let p := scores.map (fun s => decodeElem bf16 (encodeFloat bf16 (exp2Of no (toFp32 (Num.sum [s, mn.neg]))) false false))
  let scaled := fun (w : Word) => round48 ((w48Value w).mul alpha)
  let add := fun (w : Word) (terms : List Num) => let a := scaled w; w48Write (Num.sum (w48Value a :: terms)) (w48Flags a ||| w48Flags w)
  { m := mn, l := add hd.l p,
    o := hd.o.mapIdx (fun i w => add w (List.zipWith (fun pt v => (pt.mul (v.getD i (.fin false 0 0))).mul vScale) p vals)) }

/-- The outputs and statistics of one query head, as codes of OUT_FORMAT and FP32. -/
structure HeadOut where
  out : List Nat
  m : Nat
  l : Nat

/-- A value is NaN. -/
def Num.isNan (x : Num) : Bool := match x with | .nan => true | _ => false

/-- One query head of an item (09, R248, R249). -/
def attendHead (d : Line) (no : Nat) (query : List Num) (keys vals : List (List Num)) : HeadOut :=
  let outFmt := if aE d = 2 then bf16 else fp32
  let nan : HeadOut := { out := List.replicate (aDim d) (outFmt.nan.getD 0), m := 0x7FC00000, l := 0x7FC00000 }
  match quantizeQuery 0 query with
  | none => nan
  | some (q, x) =>
  if (keys ++ vals).any (fun r => r.any Num.isNan) then nan
  else
    let num := fun (c : Nat) => decodeElem fp32 c
    let c := toFp32 ((num (aScale d)).mul (.fin false log2e (-120)))
    let score := fun (k : List Num) => toFp32 ((((w48Value (dotSum 4 no (products q k))).shift x).mul (num (aKScale d))).mul c)
    let start : Head := { m := .inf true, l := 0, o := List.replicate (aDim d) 0 }
    let blocks := groups keys.length 32 (keys.zip vals)
    let hd := blocks.foldl (fun hd b => attendBlock no (num (aVScale d)) hd (b.map (fun kv => score kv.1)) (b.map Prod.snd)) start
    let l32 := toFp32 (w48Value hd.l)
    let r := rcpOf no l32
    if keys.isEmpty then { out := List.replicate (aDim d) 0, m := 0xFF800000, l := 0 }
    else { out := hd.o.map (fun w => encodeFloat outFmt ((w48Value w).mul r) false false)
           m := encodeFloat fp32 hd.m false false
           l := encodeFloat fp32 l32 false false }

/-- The output and statistics lines of an ATTEND item (09, R247, R248). -/
def attendItem (d : Line) (no i : Nat) (g : Tab Line) : List (Nat × Line) :=
  let sq := i / aH d
  let h := i % aH d
  let rb := rowBytesOf (aFmt d) (aDim d)
  let l := (gotWord g (aSeqLen d + 4 * sq)).getD 0
  let row := fun (value t : Nat) =>
    let pg := (gotWord g (pageEntry d sq t)).getD 0
    rowValues (aFmt d) (aDim d) (gotBytes g (kvAddr d pg h t value) rb)
  let keys := (List.range l).map (row 0)
  let vals := (List.range l).map (row 1)
  let heads := (List.range (aG d)).map (fun q =>
    attendHead d no (gotFloats g (aQ d + 4 * ((sq * aH d + h) * aG d + q) * aDim d) (aDim d)) keys vals)
  let bs := heads.flatMap (fun x => x.out.flatMap (leBytes (aE d)))
  let stats := heads.flatMap (fun x => leBytes 4 x.m ++ leBytes 4 x.l)
  let c := poolUnits d - 1
  (List.range c).map (fun u => (aOut d + 256 * (c * i + u), bytesLine (slice bs (256 * u) 256))) ++ [(aStats d + 256 * i, bytesLine stats)]

/-! ### Units and digests -/

/-- The destination lines of an item's units: unit, address, data (09, R239, R242, R248); none for a kind that merges. -/
def itemUnits (d : Line) (no i : Nat) (g : Tab Line) : List (Nat × Nat × Line) :=
  let k := dKind d
  let at_ := fun (a : Nat) => bytesLine (gotBytes g a 256)
  if k = PoolKind.fill then [(0, dDst d + 256 * i, bytesLine ((List.replicate 32 (leBytes 8 (dPattern d))).flatten))]
  else if k = PoolKind.zero then [(0, dDst d + 256 * i, 0)]
  else if k = PoolKind.copy then [(0, dDst d + 256 * i, at_ (dSrc d + 256 * i))]
  else if k = PoolKind.reduce then
    (if dTotal d then [] else [(0, dDst d + 256 * i, reduceLines d (at_ (dSrc d + 256 * i)) (at_ (dSrc2 d + 256 * i)))])
  else if k = PoolKind.gather then
    let r := (gotWord g (dIndex d + 4 * (i / dRow d))).getD 0
    [(0, dDst d + 256 * i, at_ (dSrc d + 256 * (r * dRow d + i % dRow d)))]
  else if k = PoolKind.scatter then
    let r := (gotWord g (dIndex d + 4 * (i / dRow d))).getD 0
    [(0, dDst d + 256 * (r * dRow d + i % dRow d), at_ (dSrc d + 256 * i))]
  else if k = PoolKind.attend then (attendItem d no i g).mapIdx (fun u x => (u, x.1, x.2))
  else []

/-- The kind merges its items into a work area (09, Table 9.4). -/
def mergesItems (d : Line) : Bool :=
  let k := dKind d
  k == PoolKind.compare || (k == PoolKind.reduce && dTotal d) || k == PoolKind.search || k == PoolKind.digest

/-- The header H of a DIGEST (09, R243). -/
def digestHeader (base size ext gen : Nat) : List Byte := leBytes 8 (base * 2 ^ 21) ++ leBytes 4 size ++ leBytes 2 ext ++ leBytes 1 gen ++ [0]

/-- An item's merge into the work area of region k (09, R239, R242, R243, R246). -/
def mergeItem (d : Line) (no base i k : Nat) (g : Tab Line) (w : PoolWork) : PoolWork :=
  let kind := dKind d
  if kind = PoolKind.compare then
    if gotBytes g (dSrc d + 256 * i) 256 = gotBytes g (dSrc2 d + 256 * i) 256 then w
    else { w with mismatches := w.mismatches.set k (w.mismatches.getD k 0 + 1), minIndex := w.minIndex.set k (min i (w.minIndex.getD k 0xFFFFFFFF)) }
  else if kind = PoolKind.reduce then
    let x := totalItem d no (bytesLine (gotBytes g (dSrc d + 256 * i) 256))
    { w with values := w.values.set k (if w.merged.getD k false then totalOp (dOp d) (w.values.getD k 0) x else x), merged := w.merged.set k true }
  else if kind = PoolKind.search then
    let p := searchItem d no i g
    { w with
      lists := (List.range (sNq d)).foldl (fun t q => tmod t (k * 16 + q) [] (fun l => bestRows (sL2 d) (sK d) (l ++ p.lists.getD q []))) w.lists
      queryInvalid := w.queryInvalid ||| p.invalid
      nanRows := satAdd 32 w.nanRows p.nans
      rowsScored := satAdd 32 w.rowsScored p.ranked }
  else if kind = PoolKind.digest then
    { w with leaves := tset w.leaves i (sha384 (gotBytes g (base + 2097152 * i) 2097152)) }
  else w

/-- The four region values combined, in an order that is open (09, R242; log entry 8). -/
def totalValue (d : Line) (no : Nat) (w : PoolWork) : Word :=
  let vs := (List.range 4).filterMap (fun k => if w.merged.getD k false then some (w.values.getD k 0) else none)
  match rotateList vs (Config.freeBits 2 no).toNat with
  | [] => 0
  | a :: t => t.foldl (totalOp (dOp d)) a

/-- The merged list of a query. -/
def mergedList (d : Line) (w : PoolWork) (q : Nat) : List (BitVec 32 × Nat) :=
  bestRows (sL2 d) (sK d) ((List.range 4).flatMap (fun k => tget w.lists (k * 16 + q) []))

/-- Completion record bits [2047:512] of a pool operation (09, Tables 9.7, 9.9, 9.11); all says that every item completed. -/
def poolResults (d : Line) (no base size gen : Nat) (all : Bool) (w : PoolWork) : Nat :=
  let k := dKind d
  if k = PoolKind.compare then packBits [(32, w.minIndex.foldl min 0xFFFFFFFF), (32, w.mismatches.sum)]
  else if k = PoolKind.reduce then
    if dTotal d then
      let v := totalValue d no w
      let f := if ((fmtOf (dFormat d)).getD fp32).int then (fmtOf 9).getD fp32 else fp32
      packBits [(32, encodeElem f (w48Value v) false false), (64, v.toNat), (64, 0)]
    else 0
  else if k = PoolKind.search then
    packBits [(16, w.queryInvalid.toNat), (32, w.nanRows), (31, 0), (1, b2n w.resultFailed), (32, w.rowsScored)]
  else if k = PoolKind.digest then
    if all then packBits [(1, 1), (384, ofLe (digestBytes (poolDigest d base size gen w)))] else 0
  else 0
where
  poolDigest (d : Line) (base size gen : Nat) (w : PoolWork) : Digest :=
    sha384 (digestHeader (base / 2 ^ 21) size (dExt d) gen ++ (List.range size).flatMap (fun i => digestBytes (tget w.leaves i 0)))

end Sys2Proof.Machine
end

