-- ==== Sys2Proof/Machine/Sprays.lean ====
section
/-! DEFINITION. Launches (07, R173 to R181; 09, R232 to R238): their checks, placement, the start and end of items, the completion record. -/

namespace Sys2Proof.Machine

/-! ### Checks of a launch (07, Table 7.4; 09, R232) -/

/-- Row 0x46: the status array of n items lies on this module, on an 8 B boundary, wholly in one extent the source may write. -/
def arrayOk (s : State) (source tenant ppa n : Nat) : Bool :=
  let o := ppa % 2 ^ 40
  let len := ceilDiv n 8 * 8
  o % 8 == 0 && ppa / 2 ^ 40 == selfId s && decide (o + len ≤ offsetLimit) && (extentRefusal s Op.write o source tenant).isNone &&
  extentAt s (o + len - 1) == extentAt s o

/-- Reserved bits of a spray descriptor are zero (07, Table 7.2). -/
def sprayDescOk (d : Line) : Bool :=
  dKind d == 1 && fld d 2047 1024 == 0 && fld d 511 288 == 0 && fld d 255 249 == 0 && fld d 191 180 == 0 && fld d 127 125 == 0

/-- Row 0x45 (07, Table 7.4). -/
def sprayShapeOk (d : Line) (code : List (BitVec 32)) : Bool :=
  let res := fld d 120 114
  let kib := fld d 113 104
  decide (fld d 87 64 < code.length) && decide (1 ≤ res) && decide (res ≤ 64) && decide (kib ≤ 512) && decide (res * kib ≤ 512) &&
  (fld d 122 121 == 3 || fld d 124 123 == 0)

/-- The address space check of rows 0x43 and 0x44. -/
def asidRefusal (s : State) (asid tenant : Nat) : Option Nat :=
  match tget? s.eng.asids asid with
  | none => some Sts.asidUnknown
  | some a => if a.destroying then some Sts.asidUnknown else if a.tenant != tenant then some Sts.asidDenied else none

/-- An active launch already has the ID the next one would take (07, R174; log entry 19), or 1,024 are active. -/
def launchLimit (s : State) : Bool := decide (1024 ≤ s.eng.sprays.length) || (sprayOf? s (s.eng.launches % 65536)).isSome

/-- The refusal of a SPRAY_LAUNCH (07, Table 7.4); for a built-in accord, which of rows 0x41 and 0x42 is open (log entry 8). -/
def sprayRefusal (s : State) (source tenant : Nat) (d : Line) : Option Nat :=
  let id := fld d 23 8
  if !sprayDescOk d then some Sts.descInvalid
  else if id < 256 then some (if Config.freeBits 1 (freeNo s) = 0 then Sts.accordUnknown else Sts.accordDenied)
  else match tget? s.eng.accords id with
  | none => some Sts.accordUnknown
  | some a =>
    if a.tenant != 0xFFFF && a.tenant != tenant then some Sts.accordDenied
    else match asidRefusal s (fld d 39 24) tenant with
    | some st => some st
    | none =>
      if !sprayShapeOk d a.code then some Sts.shapeInvalid
      else if !arrayOk s source tenant (dStatusArray d) (fld d 63 40 + 1) then some Sts.statusArrayInvalid
      else if launchLimit s then some Sts.launchLimit
      else none

/-- Size of the extent a DIGEST names, in granules. -/
def digestSize (s : State) (d : Line) : Nat := if dKind d = PoolKind.digest then (extentOf s (dExt d)).size else 0

/-- The refusal of a POOL_OP_LAUNCH, in the order of R232. -/
def poolRefusal (s : State) (source tenant : Nat) (d : Line) : Option Nat :=
  let size := digestSize s d
  let dig := dKind d == PoolKind.digest
  let e := extentOf s (dExt d)
  if !descOk d then some Sts.descInvalid
  else match (if dig then none else asidRefusal s (fld d 39 24) tenant) with
  | some st => some st
  | none =>
    if !shapeOk d size then some Sts.opShapeInvalid
    else if overlaps d then some Sts.operandOverlap
    else if dig && !e.measured then some Sts.notMeasured
    else if dig && (e.st != .granted || e.generation != dGen d || e.tenant != tenant || rightsOf e.access (fun _ => true) source % 2 == 0)
      then some Sts.extentUnavailable
    else if dStatusEn d && !arrayOk s source tenant (dStatusArray d) (poolItems d size) then some Sts.statusArrayInvalid
    else if launchLimit s then some Sts.launchLimit
    else if 262144 < s.eng.opPages + poolPages d size then some Sts.commitSpace
    else none

/-- A granted launch reaches the dispatcher of its region: refused by its COMPLETION, or accepted with a spray ID (07, R173, R174; 09, R232). -/
def launch (s : State) (k : Nat) (r : Req) : State :=
  match r.origin with
  | .packet via p =>
    let d := r.payload
    let pool := r.op == Op.poolOpLaunch
    let refusal := if pool then poolRefusal s r.source r.tenant d else sprayRefusal s r.source r.tenant d
    let s := if !pool && sprayDescOk d && decide (fld d 23 8 < 256) then useFree s else s
    match refusal with
    | some st => answerPacket s k r { status := st }
    | none =>
      let size := digestSize s d
      let id := s.eng.launches % 65536
      let e := extentOf s (dExt d)
      let pages := if pool then poolPages d size else 0
      let x : Spray := { id := id, number := s.eng.launches, pool := pool, desc := d, via := via, pkt := p, source := r.source, tenant := r.tenant, epoch := r.epoch, answered := r.answered,
                         region := k, total := if pool then poolItems d size else fld d 63 40 + 1, startStamp := stamp s, pages := pages,
                         base := e.base * 2 ^ 21, writeOpen := pool && dKind d == PoolKind.digest && e.access.any (fun a => a.getLsbD 31 && a.getLsbD 29) }
      setSpray { s with eng := { s.eng with launches := s.eng.launches + 1, opPages := s.eng.opPages + pages } } id x
  | _ => s

/-! ### Placement (07, R175; 09, Table 9.4) -/

/-- The logical engine that serves the channel of the chunk at a module offset (07, R170, R175; 05, R116). -/
def engineAt (s : State) (offset : Nat) : Option Nat :=
  match extentAt s offset with
  | none => none
  | some n =>
    let pl := mapOffset (extentOf s n) offset
    some (pl.lstack * 32 + chanOfPos pl.stripe pl.index)

/-- The PPA of a PVA by the tables alone. -/
def ppaOf (s : State) (asid pva : Nat) : Option Nat := (walk s asid (pva / 65536)).map (fun x => leafPpa x pva)

/-- The module offset of a PVA, where it lies on this module. -/
def localOffset (s : State) (asid pva : Nat) : Option Nat :=
  match ppaOf s asid pva with
  | some a => if a / 2 ^ 40 == selfId s then some (a % 2 ^ 40) else none
  | none => none

/-- Bytes of one line of memory at a PVA on this module. -/
def peekLine (s : State) (asid pva n : Nat) : Option (List Byte) :=
  match localOffset s asid pva with
  | none => none
  | some o => match extentAt s o with
    | none => none
    | some e => (readLine s e (o / 256 * 256)).1.map (fun l => slice (lineBytes l) (o % 256) n)

/-- n bytes of memory at a PVA on this module, as placement reads them: each line through its own translation (log entry 19). -/
def peek (s : State) (asid pva n : Nat) : Option Nat :=
  let parts := (rowPieces 3 pva 0 n).map (fun x => peekLine s asid x.pva x.count)
  if parts.all Option.isSome then some (ofLe (parts.flatMap (fun b => b.getD []))) else none

/-- Affinity address of an item: a PVA, or, for DIGEST, a module offset (07, Table 7.3; 09, Table 9.4). -/
def affinity (s : State) (p : Spray) (i : Nat) : Option Nat :=
  let d := p.desc
  let k := dKind d
  if !p.pool then
    if p.field 122 121 = 0 then some ((p.field 248 192 + i * p.field 287 256) % 2 ^ 64)
    else if p.field 122 121 = 1 then peek s p.asid (p.field 248 192 + 8 * i) 8
    else none
  else if k = PoolKind.fill then some (dDst d + 256 * i)
  else if k = PoolKind.zero then some ((dDst d + 256 * i) / 4096 * 4096)
  else if k = PoolKind.gather then (peek s p.asid (dIndex d + 4 * (i / dRow d)) 4).map (fun r => dSrc d + 256 * (r * dRow d + i % dRow d))
  else if k = PoolKind.search then some (sTable d + 256 * i * sStride d)
  else if k = PoolKind.attend then
    (peek s p.asid (pageEntry d (i / aH d) 0) 4).map (fun pg => kvAddr d pg (i % aH d) 0 0)
  else some (dSrc d + 256 * i)

/-- First item of the whole 4 KiB block of a ZERO that an item lies in, where the block lies wholly in DST (09, R240). -/
def zeroBlockOf (p : Spray) (i : Nat) : Option Nat :=
  if p.pool && dKind p.desc == PoolKind.zero then
    let a := (dDst p.desc + 256 * i) / 4096 * 4096
    if dDst p.desc ≤ a ∧ a + 4096 ≤ dDst p.desc + 256 * p.total then some ((a - dDst p.desc) / 256) else none
  else none

/-- The block's extent is coherent, so that its items run singly. -/
def blockCoherent (s : State) (p : Spray) (i : Nat) : Bool :=
  match localOffset s p.asid (dDst p.desc + 256 * i) with
  | some o => match extentAt s o with | some n => (extentOf s n).coherent | none => false
  | none => false

/-- Items of one whole block of ZERO, which run together: the first and how many; an item that runs singly, and 1 (09, R240). -/
def blockItems (s : State) (p : Spray) (i : Nat) : Nat × Nat :=
  match zeroBlockOf p i with
  | some b => if blockCoherent s p b then (i, 1) else (b, 16)
  | none => (i, 1)

/-- The logical engine an item goes to (07, R175); a whole block of ZERO goes with its first item (09, R240). -/
def placeEngine (s : State) (p : Spray) (i : Nat) : Nat :=
  if !p.pool && p.field 122 121 = 3 then p.field 124 123 * 128 + i % 128
  else
    let at_ := if p.pool && dKind p.desc = PoolKind.digest then some (p.base + 2097152 * i)
      else (affinity s p i).bind (fun a => if a < 2 ^ 57 then localOffset s p.asid a else none)
    (at_.bind (engineAt s)).getD ((blockItems s p i).1 % 512)

/-- The logical engine that runs the work of one that others may have adopted (07, R171). -/
def runnerFrom : Nat → State → Nat → Nat
  | 0, _, e => e
  | n + 1, s, e => match (logEngOf s e).adoptedBy with
    | some a => runnerFrom n s a
    | none => e

def runner (s : State) (e : Nat) : Nat := runnerFrom 32 s e

/-! ### Starting (07, R176, R177, R183; 09, R237, R240) -/

/-- An engine runs threads: it works, it has not been adopted, and it is not being moved. -/
def engineRuns (s : State) (e : Nat) : Bool :=
  let l := logEngOf s e
  let ph := physOf s (engRegion e) l.phys
  !ph.fenced && !ph.underTest && l.adoptedBy.isNone && l.move.isNone && !s.fault.halted && !(regFault s (engRegion e)).fenced

def freeThread (s : State) (e : Nat) : Option Nat := (List.range 64).find? (fun h => (threadOf? s e h).isNone)

/-- Threads of an engine, by number. -/
def engineThreads (s : State) (e : Nat) : List (Nat × Thread) :=
  (List.range 64).filterMap (fun h => (threadOf? s e h).map (fun t => (h, t)))

def scratchUsed (s : State) (e : Nat) : Nat := ((engineThreads s e).map (fun t => t.2.scratchBytes)).sum

/-- MAX_RESIDENT; 64 for a pool operation. -/
def maxResident (p : Spray) : Nat := if p.pool then 64 else p.field 120 114
def scratchNeed (p : Spray) : Nat := if p.pool then 0 else p.field 113 104 * 1024

/-- The next item of a launch that an engine may start: the lowest placed on it (07, R176). -/
def nextItem (s : State) (p : Spray) (e : Nat) : Option Nat :=
  (p.items.find? (fun x => match x.2 with | .placed l => runner s l == e | _ => false)).map Prod.fst

/-- Launches in order of acceptance. -/
def launchOrder (s : State) : List (Nat × Spray) := sortBy (fun a b => decide (a.2.number ≤ b.2.number)) s.eng.sprays

/-- An engine has as many threads of a launch as its MAX_RESIDENT lets it have. -/
def atMaxResident (s : State) (e : Nat) (x : Nat × Spray) : Bool :=
  decide (maxResident x.2 ≤ ((engineThreads s e).filter (fun t => t.2.spray == x.1)).length)

/-- An engine has room for the scratch of a thread of a launch. -/
def scratchRoom (s : State) (e : Nat) (p : Spray) : Bool := decide (scratchUsed s e + scratchNeed p ≤ 524288)

/-- The thread an engine starts next: the first item in order of launch, passing over launches that only their own MAX_RESIDENT holds (07, R176). -/
def nextStart (s : State) (e : Nat) : Option (Nat × Spray × Nat) :=
  match ((launchOrder s).filter (fun x => (nextItem s x.2 e).isSome)).find? (fun x => !(atMaxResident s e x && scratchRoom s e x.2)) with
  | none => none
  | some x => if atMaxResident s e x then none else (nextItem s x.2 e).map (fun i => (x.1, x.2, i))

/-- Items that start together with an item that is next: the 16 of a whole block of ZERO, where all stand on its engine (09, R240). -/
def itemGroup (s : State) (p : Spray) (i : Nat) : Nat :=
  let g := blockItems s p i
  if g.1 = i ∧ (List.range g.2).all (fun j => tget? p.items (i + j) == tget? p.items i) then g.2 else 1

/-- The logical engine an item was placed on. -/
def placedOn (p : Spray) (i : Nat) : Nat := match tget? p.items i with | some (.placed l) => l | _ => 0

/-- A thread at its start (07, R177). -/
def startThread (s : State) (p : Spray) (n i items : Nat) : Thread :=
  { spray := n, item := i, placed := placedOn p i, items := items,
    sregs := BitVec.ofNat 64 i :: ((List.range 8).map (fun a => BitVec.ofNat 64 (p.field (575 + 64 * a) (512 + 64 * a))) ++ List.replicate 23 0),
    vregs := List.replicate 16 0, accs := List.replicate 4 (List.replicate 16 0), preds := List.replicate 8 0, pc := if p.pool then 0 else p.field 87 64,
    scratchBytes := scratchNeed p, startAt := now s }

/-- The window of a hardware thread is zeroed before a thread starts (07, R183). -/
def clearScratch (s : State) (e h : Nat) : State :=
  let lo := scratchAddr e h 0
  { s with eng := { s.eng with scratch := s.eng.scratch.filter (fun c => decide (c.1 < lo) || decide (lo + 2 ^ 19 ≤ c.1)) } }

/-- Start an item, and those that run with it, on a free hardware thread. -/
def startItem (s : State) (e h n : Nat) (p : Spray) (i : Nat) : State :=
  let g := itemGroup s p i
  let items := (List.range g).foldl (fun t j => tset t (i + j) (ItemState.started e h)) p.items
  clearScratch (setThread (setSpray s n { p with items := items }) e h (startThread s p n i g)) e h

/-! ### Ending (07, R178 to R181) -/

/-- The launch writes a status array, and where (07, Table 7.2; 09, Table 9.1). -/
def statusArray (p : Spray) : Option Nat := if p.pool && !dStatusEn p.desc then none else some (dStatusArray p.desc % 2 ^ 40)

/-- One byte of the status array, and, with the last item's, the bytes of its word beyond it (07, R179). -/
def writeStatus (s : State) (n : Nat) (p : Spray) (i st : Nat) : State :=
  match statusArray p with
  | none => s
  | some base =>
    let o := base + i
    let count := if i + 1 = p.total then 8 - o % 8 else 1
    sprayStore s n StoreOf.status (o / 8 * 8) 0 (BitVec.ofNat 2048 st <<< (8 * (o % 256))) (some (((BitVec.allOnes 256) >>> (256 - count)) <<< (o % 256)))

/-- An item ends and is reported once: completed, or failed with a status; of failures reported at one time the lowest index is the first (07, R178 to R180). -/
def endItem (s : State) (n i : Nat) (f : Option Failure) : State :=
  match sprayOf? s n with
  | none => s
  | some p =>
    match tget? p.items i with
    | some (.ended _) => s
    | _ =>
      let st := (f.map (·.status)).getD 0
      let sooner := match p.firstFail with | none => true | some x => p.firstFailAt == now s && decide (i < x.1)
      let p := { p with items := tset p.items i (.ended st), completed := p.completed + b2n f.isNone, failedCount := p.failedCount + b2n f.isSome,
                        firstFail := if sooner && f.isSome then f.map (fun x => (i, x)) else p.firstFail,
                        firstFailAt := if sooner && f.isSome then now s else p.firstFailAt, endStamp := stamp s }
      writeStatus (setSpray s n p) n p i st

/-- Units of an item all applied (09, R233). -/
def unitsDone (p : Spray) (i : Nat) : Bool := (List.range (poolUnits p.desc)).all (fun u => p.commits.contains (i * poolUnits p.desc + u))

/-- The items of a thread end as it does. -/
def endThread (s : State) (e h : Nat) (th : Thread) (f : Option Failure) : State :=
  (List.range th.items).foldl (fun s j => endItem s th.spray (th.item + j) f) (dropThread s e h)

/-- How a thread of which nothing is outstanding ends, if it does: END, a failure, or, of an item, all its units applied (07, R181; 08, R209; 09, R233). -/
def threadOutcome (p : Spray) (th : Thread) : Option (Option Failure) :=
  let done := p.pool && (List.range th.items).all (fun j => unitsDone p (th.item + j))
  if done then some none
  else match th.phase with
    | .ending => some none
    | .failing f => some (some f)
    | .running => none

/-- A running thread stops at its next instruction boundary (07, R181); END that has been reached stands. -/
def stopThread (s : State) (e h : Nat) (f : Failure) : State :=
  match threadOf? s e h with
  | some th => if th.phase = .running then failThread s e h f else s
  | none => s

/-- A launch is stopped: items not started end at once, running ones stop (07, R181). -/
def stopSpray (s : State) (n st : Nat) : State :=
  match sprayOf? s n with
  | none => s
  | some p =>
    let idle := (List.range p.total).filter (fun i => match tget? p.items i with | none => true | some (.placed _) => true | _ => false)
    let s := idle.foldl (fun s i => endItem s n i (some { status := st })) s
    (s.eng.threads.filter (fun t => t.2.spray == n)).foldl (fun s t => stopThread s (t.1 / 64) (t.1 % 64) { status := st }) s

/-- SPRAY_CANCEL's part on the launch (07, R181). -/
def cancelSpray (s : State) (n : Nat) : State := stopSpray (modSpray s n (fun p => { p with cancelled := true })) n Sts.cancelled

/-- A launch reaches the dispatcher; one of a tenant under removal is cancelled at once (13, R339, step 2). -/
def admitLaunch (s : State) (k : Nat) (r : Req) : State :=
  let n := s.eng.launches % 65536
  let t := launch s k r
  if t.eng.launches != s.eng.launches && ((tenantOf? t r.tenant).map (·.removing)) == some true then cancelSpray t n else t

/-! ### The completion record (07, R178 to R180, Table 7.5) -/

/-- The record as it stands. -/
def recordOf (s : State) (p : Spray) : Line :=
  let f := p.firstFail.getD (0, { status := 0 })
  let res := if p.pool then poolResults p.desc (freeNo s) p.base p.total (dGen p.desc) (p.completed == p.total) p.work else 0
  BitVec.ofNat 2048 (packBits [(1536, res), (135, 0), (57, f.2.pva), (16, 0), (8, f.2.detail), (8, f.2.status), (32, f.1), (64, p.endStamp), (64, p.startStamp),
    (32, p.failedCount), (32, p.completed), (32, p.total), (16, p.id), (4, 0), (1, b2n p.cancelled), (1, b2n p.recordFailed), (1, b2n p.statusFailed),
    (1, b2n (decide (0 < p.failedCount))), (8, dKind p.desc)])

/-- The module offset of a PVA that a launch may store to: mapped with WRITE, on this module (07, Table 7.7; 09, R236). -/
def writableOffset (s : State) (asid pva : Nat) : Option Nat :=
  match walk s asid (pva / 65536) with
  | some x => if x.2.write then localOffset s asid pva else none
  | none => none

/-- Store bytes at a PVA for a launch, line by line; a part that cannot be reached on this module, or that its leaf does not let it write, fails (09, R236, R246). -/
def storeAt (s : State) (n : Nat) (p : Spray) (pva : Nat) (bs : List Byte) : State :=
  (rowPieces 34 pva 0 bs.length).foldl (fun s x =>
    match writableOffset s p.asid x.pva with
    | none => modSpray s n (fun p => noteStore p StoreOf.result Sts.addressInvalid)
    | some o =>
      let b := o % 256
      sprayStore s n StoreOf.result (o / 8 * 8) ((b + x.count - 1) / 8 - b / 8) (bytesLine (List.replicate b 0 ++ slice bs x.first x.count))
        (some (((BitVec.allOnes 256) >>> (256 - x.count)) <<< b))) s

/-- The result lists of SEARCH are written once every item has ended (09, R246). -/
def writeResults (s : State) (n : Nat) (p : Spray) : State :=
  let s := modSpray s n (fun p => { p with work := { p.work with resultsWritten := true } })
  if p.pool && dKind p.desc == PoolKind.search then
    (List.range (sNq p.desc)).foldl (fun s q =>
      if p.work.queryInvalid.getLsbD q then s
      else storeAt s n p (sResult p.desc + q * sK p.desc * 8) (listBytes (sK p.desc) (mergedList p.desc p.work q))) s
  else s

/-- The record is made and written as a full line under the launch context (07, R178). -/
def writeRecord (s : State) (n : Nat) (p : Spray) : State :=
  let r := recordOf s p
  sprayStore (useFree (setSpray s n { p with record := some r })) n StoreOf.record (p.pkt.address % 2 ^ 40) 31 r none

/-- A valid DIGEST enters the measurement table: the entry of its extent, a free one, or the oldest (13, R342). -/
def measure (s : State) (p : Spray) (d : Digest) : State :=
  let n := dExt p.desc
  let e := extentOf s n
  let valid := e.st == .granted && e.measured && e.generation == dGen p.desc
  let m : Measured := { digest := d, stamp := stamp s, tenant := e.tenant, writeOpen := p.writeOpen, valid := valid, generation := dGen p.desc, ext := n }
  let l := s.hub.measured
  let same := l.findIdx? (fun x => match x with | some y => y.ext == n | none => false)
  let free_ := l.findIdx? Option.isNone
  let oldest := (l.filterMap id).foldl (fun a y => min a y.stamp) (2 ^ 64)
  let old := (l.findIdx? (fun x => match x with | some y => y.stamp == oldest | none => false)).getD 0
  { s with hub := { s.hub with measured := l.set (same.getD (free_.getD old)) (some m) } }

/-- The COMPLETION is sent and the launch leaves: pages freed, waiting SPRAY_CANCEL orders answered (07, R178, Table 7.13; 09, R234, R244). -/
def sendCompletion (s : State) (n : Nat) (p : Spray) : State :=
  let r := p.record.getD 0 ||| (if p.recordFailed then 1#2048 <<< 10 else 0)
  let s := if p.pool && dKind p.desc == PoolKind.digest && p.completed == p.total then measure s p (BitVec.ofNat 384 (ofBe (slice (lineBytes r) 64 48))) else s
  let s := if p.answered then s else respond s p.region p.via p.pkt { data := some r, launch := true }
  let s := modExtent s ((extentAt s (p.pkt.address % 2 ^ 40)).getD 0) (fun e => { e with inFlight := e.inFlight - 1 })
  let s := epochSub s p.tenant p.epoch
  let s := { s with eng := { s.eng with sprays := tdel s.eng.sprays n, opPages := s.eng.opPages - p.pages } }
  p.cancelWaits.foldl (fun s h => finish s h Ord.sprayCancel Sts.success) s

/-- Every item has ended and every request of the launch has been answered or has timed out, those of lost threads too (07, R178). -/
def sprayEnded (s : State) (n : Nat) (p : Spray) : Bool :=
  p.completed + p.failedCount == p.total && p.stores == 0 && s.eng.tiles.all (fun t => t.2.spray != n)

/-- The launch completes as far as its stores let it: results, record, COMPLETION. -/
def completeSpray (s : State) (n : Nat) : State :=
  match sprayOf? s n with
  | none => s
  | some p =>
    let s := if p.work.resultsWritten then s else writeResults s n p
    match sprayOf? s n with
    | none => s
    | some p =>
      if p.stores != 0 then s
      else
        let s := if p.record.isNone then writeRecord s n p else s
        match sprayOf? s n with
        | none => s
        | some p => if p.recordWritten then sendCompletion s n p else s

end Sys2Proof.Machine
end

