-- ==== Sys2Proof/Machine/Evac.lean ====
section
/-! DEFINITION. Work on stored data under stripe locks (06, R156), fenced channels and evacuation to the spare stack (06, R161 to R168). -/

namespace Sys2Proof.Machine

/-- Position of a spare stack in a region, as a physical stack (05). -/
def spareOf (k : Nat) : Nat := 5 * k + 4
def stackUnit (p : Nat) : Nat := unitId Kind.stack (p % 5)
def chanUnit (p c : Nat) : Nat := unitId Kind.channel (p % 5 * 32 + c)

/-! ### Stripe locks (06, R156) -/

/-- A holder has the stripe's lock itself. -/
def holdsLock (s : State) (l stripe : Nat) (kind : LockKind) : Bool :=
  s.mem.locks.any (fun k => k.lstack == l && k.stripe == stripe && k.held && k.kind == kind)

/-- Another holder has the stripe's lock or asks for it. -/
def lockContended (s : State) (l stripe : Nat) (kind : LockKind) : Bool :=
  s.mem.locks.any (fun k => k.lstack == l && k.stripe == stripe && k.kind != kind)

/-- A holder may work on the stripe: the lock is granted to it, or nobody else wants it (06, R156). -/
def lockFree (s : State) (l stripe : Nat) (kind : LockKind) : Bool := holdsLock s l stripe kind || !lockContended s l stripe kind

def dropLock (s : State) (l stripe : Nat) (kind : LockKind) : State :=
  { s with mem := { s.mem with locks := s.mem.locks.filter (fun k => !(k.lstack == l && k.stripe == stripe && k.kind == kind)) } }

/-- A request for a stripe's lock; one that writes the stripe makes its open buffer entry commit first (06, R152, R156). -/
def askLock (s : State) (l stripe : Nat) (kind : LockKind) : State :=
  { dropLock s l stripe kind with mem := { (dropLock s l stripe kind).mem with
      locks := (dropLock s l stripe kind).mem.locks ++ [{ lstack := l, stripe := stripe, kind := kind, held := s.mem.locks.any (fun k =>
        k.lstack == l && k.stripe == stripe && k.kind == kind && k.held) }]
      sab := s.mem.sab.map (fun e => if e.lstack == l && e.stripe == stripe then { e with due := true } else e) } }

/-- An open entry of a stripe commits. -/
def commitOpen (s : State) (l stripe : Nat) : State :=
  match sabAt s l stripe with
  | some e => commitEntry s e
  | none => s

/-- Work on a stripe under its lock: at once where it has the lock or no other asks, after an open entry has committed; else it asks and waits (06, R156). -/
def underLock (s : State) (l stripe : Nat) (kind : LockKind) (act : State → State) : State :=
  if lockFree s l stripe kind then dropLock (act (commitOpen s l stripe)) l stripe kind else askLock s l stripe kind

/-! ### Which stripes are in use (06, R161) -/

/-- The least stripe from a number on that the walks visit: a data stripe with a valid bit set, or a metadata stripe; the number of stripes where there is none. -/
def nextUsed (s : State) (l start : Nat) : Nat :=
  let data := s.mem.valid.filterMap (fun v =>
    let o := v.1 * 4096
    match extentAt s o with
    | none => none
    | some n =>
      let pl := mapOffset (extentOf s n) o
      if pl.lstack = l ∧ start ≤ pl.stripe then some pl.stripe else none)
  data.foldl min (max start metaStripe)

/-! ### A stack out of service (05, R137; 12, R327) -/

/-- A STACK_RATE_LIMIT waits on no stack any more. -/
def limitDone (s : State) (h : OrderHdr) : Bool := (List.range 20).all (fun p => !(stackOf s p).limitWaits.contains h)

/-- The reply of STACK_RATE_LIMIT, once every stack it names runs at or below the limit. -/
def answerLimit (s : State) (h : OrderHdr) : State := if limitDone s h then finish s h Ord.stackRateLimit Sts.success else s

/-- A stack goes out of service: no rate change of it is to come, and the orders that waited for one wait on the other stacks only (11, R11; 12, R327). -/
def stackOff (s : State) (p : Nat) : State :=
  (stackOf s p).limitWaits.foldl answerLimit (modStack s p (fun x => { x with limitWaits := [], newLimit := none }))

/-! ### Evacuation (06, R165 to R168) -/

/-- The region's spare is unused and not failed. -/
def spareUsable (s : State) (k : Nat) : Bool := (regFault s k).spareStackFree && !(regFault s k).fenced

/-- A stack that may be evacuated: it serves, it is not under evacuation, nor fenced as a whole. -/
def evacuable (s : State) (p : Nat) : Bool :=
  let x := stackOf s p
  x.mapped && (x.st == .serving || x.st == .rateChange) && (tget? s.mem.evacs (p / 5)).isNone

/-- The spare is taken for a stack; the evacuation begins with EVACUATION_START (06, R165). -/
def takeSpareStack (s : State) (p cause : Nat) (waits : List OrderHdr) : State :=
  let k := p / 5
  let e : Evac := { old := p, spare := spareOf k, lstack := (stackOf s p).logicalId, waits := waits, cause := cause }
  let s := { s with life := { s.life with stackTest := if s.life.stackTest = some k then none else s.life.stackTest } }
  lifeAdd { modRegFault s k (fun r => { r with spareStackFree := false }) with mem := { s.mem with evacs := tset s.mem.evacs k e } } 0x050 1

/-- A trigger of evacuation falls on a stack: true where the spare is taken; else it is noted that there is none (06, R165). -/
def triggerEvac (s : State) (p cause : Nat) : Bool × State :=
  if evacuable s p && spareUsable s (p / 5) then (true, takeSpareStack s p cause [])
  else if !(tget? s.mem.evacs (p / 5)).isNone && ((tget? s.mem.evacs (p / 5)).map (·.old)) == some p then (true, s)
  else (false, noteR s (p / 5) (stackUnit p) Cause.noSpare)

/-- An evacuation has begun: its spare trains or copies. -/
def evacBegun (s : State) (e : Evac) : Bool := (stackOf s e.spare).evacState != .none

def setEvac (s : State) (k : Nat) (e : Evac) : State := { s with mem := { s.mem with evacs := tset s.mem.evacs k e } }
def delEvac (s : State) (k : Nat) : State := { s with mem := { s.mem with evacs := tdel s.mem.evacs k } }

/-- The spare is powered and trains; both stacks are EVACUATING; a spare that its weekly test has trained goes straight to the copy (06, R166; 14, R354). -/
def beginEvac (s : State) (k : Nat) (e : Evac) : State :=
  let tested := (stackOf s e.spare).st == .serving
  let st := if tested then EvacState.copying else EvacState.trainingSpare
  let s := modStack s e.old (fun x => { x with st := if x.st = .rateChange then x.st else .evacuating, evacState := st, evacPointer := 0 })
  let s := modStack s e.spare (fun x => { x with st := .evacuating, evacState := st, evacPointer := 0, rate := (stackOf s e.old).rate })
  let s := if tested then (List.range 32).foldl (fun s c => loadTiming s e.spare c) s else s
  setEvac s k { e with copying := tested }

/-- Store a whole stripe on one stack, but for its channels that are fenced: data, zero for clear chunks, marks for lost ones, fresh parity, or its mark where a fenced channel holds a lost chunk (06, R146, R166). -/
def storeStripe (s : State) (p stripe : Nat) (chunks : List (Option Line)) : State :=
  let par := chunks.foldl (fun x d => x ^^^ d.getD 0) 0
  let gone := fun (i : Nat) => chanFenced s p (chanOfPos stripe i) stripe
  let s := (List.range 16).foldl (fun s i =>
    if gone i then s else match chunks.getD i (some 0) with
    | some d => storeChunk s p stripe i d
    | none => storeMark s p stripe i) s
  if gone 16 then s
  else if !doubleFenced s p stripe && (List.range 16).any (fun i => gone i && (chunks.getD i (some 0)).isNone) then storeMark s p stripe 16
  else storeChunk s p stripe 16 par

/-- Read the 16 data chunks of a stripe through the codes. -/
def readStripe (s : State) (l stripe source : Nat) : List (Option Line) × State :=
  (List.range 16).foldl (fun acc i => let r := readChunk acc.2 l stripe i source; (acc.1 ++ [r.1], r.2)) ([], s)

/-- The copier copies a stripe to the spare and the copy pointer passes it (06, R166). -/
def copyStripe (s : State) (k stripe : Nat) (e : Evac) : State :=
  underLock s e.lstack stripe .copier (fun s =>
    let r := readStripe s e.lstack stripe 3
    let s := storeStripe r.2 e.spare stripe r.1
    let s := modStack s e.old (fun x => { x with evacPointer := stripe + 1 })
    setEvac (modStack s e.spare (fun x => { x with evacPointer := stripe + 1 })) k { e with pointer := stripe + 1 })

/-- STACK_FLAGS of the lifetime record: retired, and serving an active position (14, Table 14.8). -/
def stackFlags (s : State) (p : Nat) (retired serves : Bool) : State :=
  { s with life := { s.life with counters := tset s.life.counters ((1 + p) * 256 + 0x048) (b2n retired + 2 * b2n serves) } }

/-- A stack's retirement is recorded (14, Table 14.10). -/
def recordRetired (s : State) (p l cause : Nat) : State :=
  eventRec (stackFlags (modStack s p (fun x => { x with retired := true })) p true false) 0x07
    (leBytes 1 (p / 5) ++ leBytes 1 (p % 5) ++ leBytes 1 l ++ leBytes 1 cause)

/-- The units of a stack that were out of service are replaced (12, R320). -/
def stackReplaced (s : State) (p : Nat) : State :=
  let mine := s.fault.out.filter (fun o => !o.hub && o.region == p / 5 && unitGroup o.unit == some (2, p % 5))
  let u := match (stackOf s p).fencedChans with | c :: _ => chanUnit p c | [] => stackUnit p
  if mine.isEmpty then replaced s false (p / 5) u else mine.foldl (fun s o => replaced s false o.region o.unit) s

/-- Cutover: the spare takes the logical name, the old stack is fenced and powered off (06, R168). -/
def cutover (s : State) (k : Nat) (e : Evac) : State :=
  let s := stackOff (stackReplaced s e.old) e.old
  let s := modStack s e.old (fun x => { x with mapped := false, st := .fenced, evacState := .done })
  let s := modStack s e.spare (fun x => { x with mapped := true, logicalId := e.lstack, st := .serving, evacState := .done, scrubPointer := 0, scrubStart := now s })
  let s := stackFlags (recordRetired s e.old e.lstack e.cause) e.spare false true
  let s := { s with mem := { s.mem with rowsDue := s.mem.rowsDue.filter (fun r => r.stack != e.old) } }
  e.waits.foldl (fun s h => finish s h Ord.evacuate Sts.success [BitVec.ofNat 8 EvacState.done.code]) (delEvac s k)

/-- The spare fails before cutover: reads return to the old stack, whose fenced channels stay out with no replacement; the spare is fenced and powered off (06, R167; 12, R320). -/
def abandonEvac (s : State) (k : Nat) (e : Evac) : State :=
  let s := (stackOf s e.old).fencedChans.foldl (fun s c => unitOut s { region := k, unit := chanUnit e.old c, cause := e.cause } false) (stackOff s e.spare)
  let s := modStack s e.old (fun x => { x with st := if x.st = .evacuating then .serving else x.st, evacState := .abandoned })
  let s := stackFlags (modStack s e.spare (fun x => { x with st := .fenced, evacState := .abandoned })) e.spare true false
  let s := modRegFault s k (fun r => { r with spareStackFree := false })
  e.waits.foldl (fun s h => finish s h Ord.evacuate Sts.success [BitVec.ofNat 8 EvacState.abandoned.code]) (delEvac s k)

/-! ### Rejoin (06, R164) -/

/-- A fenced channel whose full training passed rejoins: the walk begins (06, R164). -/
def beginRejoin (s : State) (p c : Nat) : State := modChan s p c (fun x => { x with rejoin := some 0 })

/-- Position of a channel's chunk in a stripe, if the stripe uses the channel (05, R116). -/
def posOfChan (c stripe : Nat) : Option Nat := (List.range 17).find? (fun j => chanOfPos stripe j == c)

/-- The rejoin writes the channel's chunk of a stripe: rebuilt value, mark, or parity (06, R164).
In a stripe with another fenced channel the chunk is lost (06, R149), and parity, which held it, is made anew: marked where one valid data chunk remains on a fenced channel, else the XOR of what can be read (06, R146).
DESIGN CHOICE, log entry 27: a parity mark stays on the stripe after its last fenced channel has rejoined, until a full-stripe write. -/
def rejoinStripe (s : State) (p c l stripe : Nat) : State :=
  match posOfChan c stripe with
  | none => s
  | some i =>
    let others := (List.range 17).filter (fun j => j != i && chanFenced s p (chanOfPos stripe j) stripe)
    let orphan := match others with | [f] => decide (f < 16) && (stripeValid s l stripe).getLsbD f | _ => false
    if i = 16 then
      let x := rebuildParity s l p stripe 1
      if orphan then storeMark x.2 p stripe 16 else storeChunk x.2 p stripe 16 (x.1.getD (parityOf x.2 l p stripe))
    else
      let s :=
        if !(stripeValid s l stripe).getLsbD i then s
        else
          let r := readChunk s l stripe i 1
          match r.1 with
          | some d => storeChunk r.2 p stripe i d
          | none => storeMark r.2 p stripe i
      if others.isEmpty || posGone s l p stripe 16 then s
      else if orphan then storeMark s p stripe 16
      else storeChunk s p stripe 16 (parityOf s l p stripe)

/-- The channel leaves CHANNELS_FENCED (06, R164; 12, R320). -/
def rejoinDone (s : State) (p c : Nat) : State :=
  let s := modChan (refreshAll s p c) p c (fun x => { x with rejoin := none, rejoined := true, selfRefresh := false, lastActivity := now s })
  let s := modStack s p (fun x => { x with fencedChans := x.fencedChans.filter (· != c) })
  unitBack (noteR s (p / 5) (chanUnit p c) Cause.channelRejoined) false (p / 5) (chanUnit p c)

/-! ### Fencing a channel (05, R132; 06, R149, R164) -/

/-- Bursts queued or waiting for a channel are dropped: its chunks are served through the stripe code. -/
def dropBursts (s : State) (p c : Nat) : State :=
  let s := modPchan (modPchan s p c 0 (fun _ => {})) p c 1 (fun _ => {})
  { s with mem := { s.mem with stripeWait := s.mem.stripeWait.filter (fun b => b.1 / 2 != p * 32 + c) } }

/-- A channel is fenced: its chunks are read through rebuild, and its full training begins. -/
def fenceChan (s : State) (p c : Nat) : State :=
  let s := modStack s p (fun x => { x with fencedChans := sortBy (fun a b => decide (a ≤ b)) (c :: x.fencedChans.filter (· != c)) })
  modChan (dropBursts s p c) p c (fun x => { x with fullTraining := true, rejoin := none, rerun := false, pausing := false, pauseNext := 0, retrainForced := false,
                                                    replays := [], alerts := [], alertsSince := 0, forcedDone := none })

/-- The one poison-log entry of a stack whose data are lost by fences; the position is the second channel's (06, R149). -/
def doubleFenceEntry (s : State) (p position : Nat) : State :=
  logPoison s { timestamp := 0, position := position, lstack := (stackOf s p).logicalId, physPosition := p % 5, cause := 2 }

end Sys2Proof.Machine
end

