-- ==== Sys2Proof/Machine/Links.lean ====
section
/-! DEFINITION. Links of the fabric (10): the training exchange (R263), orphans (R270, R271), failover and changes of side (R269, R273), lane maps (R252, R253), a pair's settlement at start-up (R268). -/

namespace Sys2Proof.Machine

def portUnit (n : Nat) : Nat := unitId Kind.port n
def pairUnit (n : Nat) : Nat := unitId Kind.portPair (n % 16)

def failoverOf (s : State) (pair : Nat) : Option Failover := tget? s.link.failovers pair
def setFailover (s : State) (pair : Nat) (f : Failover) : State := { s with link := { s.link with failovers := tset s.link.failovers pair f } }
def delFailover (s : State) (pair : Nat) : State := { s with link := { s.link with failovers := tdel s.link.failovers pair } }

/-! ### Receive buffers of a pair (10, Table 10.5, R261) -/

/-- VC buffer entries of a pair (10, Table 10.5). -/
def vcEntries : List Nat := [2048, 1536, 0, 1536, 2048, 1536, 1536, 0]

/-- VCs of which a flit takes an entry (10, R261). -/
def flitVcs (l : List Packet) : List Nat := (List.range 8).filter (fun v => v != 2 && v != 7 && l.any (fun p => p.vc == v))

/-- XOFF bits after a change of the entries in use: set at 960 free or fewer, cleared at 1,024 or more (10, R261). -/
def xoffOf (b : PairBuf) : BitVec 8 :=
  (List.range 8).foldl (fun x v =>
    let free := vcEntries.getD v 0 - b.used.getD v 0
    let m := BitVec.ofNat 8 (2 ^ v)
    if v = 2 ∨ v = 7 ∨ free ≤ 960 then x ||| m else if 1024 ≤ free then x &&& ~~~m else x) b.xoff

/-- Take or give back one entry of each VC of a flit. -/
def useEntries (s : State) (n : Nat) (vcs : List Nat) (take : Bool) : State :=
  modPairBuf s n (fun b =>
    let b := { b with used := vcs.foldl (fun u v => lset u v (if take then u.getD v 0 + 1 else u.getD v 0 - 1)) b.used }
    { b with xoff := xoffOf b })

/-- Flits held beyond a gap are discarded, and give their entries back (10, R261, R270). -/
def dropHeldFlits (s : State) (n : Nat) : State :=
  let s' := (portOf s n).held.foldl (fun s f => useEntries s n (flitVcs f.packets) false) s
  modPort s' n (fun p => { p with held := [], missing := [], naked := [] })

/-! ### The training exchange (10, R263, R265; log entry 17) -/

/-- A port trains or is brought up: a new incarnation of its link, from SEQ 0; prev is its receive point on the previous incarnation and that one's generation. Its lanes are not yet in lock. -/
def beginExchange (s : State) (n : Nat) (st : PortState) (prev : Option (Nat × Nat)) : State :=
  modPort (dropHeldFlits s n) n (fun p => { p with
    st := st, since := now s, refresh := false, helloRx := false, assigned := false, readyTx := false, readyRx := false, offeredHeld := false, trainedLanes := false, fecLock := false,
    repeats := [], prevRecvPoint := prev, nextSeq := 0, replay := [], expected := 0, crcTimes := [], protoTimes := [], expiries := 0, stopped := false })

/-- This end's LINK_HELLO (10, Table 10.15). -/
def helloOf (n : Nat) (p : Port) : CtrlRec :=
  .hello { serial := Config.serial.toNat, port := n % 16, prevRecvPoint := (p.prevRecvPoint.map Prod.fst).getD 0xFFFF, prevPortGen := (p.prevRecvPoint.map Prod.snd).getD 0,
           proposedGen := (p.gen + 1) % 256, nodeKind := 0, prevValid := p.prevRecvPoint.isSome, width := b2n p.narrow, plane := n / 16 }

/-- Send a control record and repeat it until it is answered. -/
def sendRepeated (s : State) (n : Nat) (r : CtrlRec) : State :=
  sendCtrl (modPort s n (fun p => { p with repeats := p.repeats ++ [{ rec_ := r, first := now s, last := now s }] })) n r

/-- The lanes of a map are in FEC lock: the exchange begins with LINK_HELLO (10, R263, R265, steps 4 and 5). -/
def lockFec (s : State) (n : Nat) : State := sendRepeated (modPort s n (fun p => { p with fecLock := true })) n (helloOf n (portOf s n))

/-- The port is in a training or bring-up. -/
def inTraining (p : Port) : Bool :=
  match p.st with
  | .training | .bringup => true
  | .resync => p.refresh && !p.trainedLanes
  | _ => false

/-- The port is in the exchange of a training or bring-up. -/
def inExchange (p : Port) : Bool := p.fecLock && inTraining p

/-! ### Orphans (10, R270, R271) -/

/-- Another active port of a port's plane, of its region first. -/
def planePort (s : State) (n : Nat) : Option Nat :=
  let pl := n / 16
  ((List.range 4).map (fun i => 16 * pl + 4 * portRegion n + i) ++ (List.range 16).map (fun i => 16 * pl + i)).find? (fun m => m != n && portActive s m)

/-- The module's receive point on a failed link, as it is held, with the generation and the far port of that link; once the hold is over, as its LINK_HELLO tells it (10, R263, R270). -/
def pointOf (s : State) (n : Nat) : Nat × Nat × Nat :=
  let p := portOf s n
  match s.link.points.find? (fun x => x.port == n) with
  | some x => (x.point, x.gen, x.switchPort)
  | none => match p.prevRecvPoint with
    | some x => (x.1, x.2, p.switchPort)
    | none => (recvPoint p, p.gen, p.switchPort)

/-- RECOVER_QUERY goes out on another active port of the plane of a failed link, and is repeated until its orphans are resolved (10, R263, R269, R270). -/
def sendQuery (s : State) (n id : Nat) : State :=
  let x := pointOf s n
  match planePort s n with
  | some m => sendRepeated s m (.query { recvPoint := x.1, failedSwitchPort := x.2.2, failedPortGen := x.2.1, held := true, queryId := id })
  | none => s

/-- A query whose orphans are resolved is repeated no more (10, R263). -/
def dropQuery (s : State) (o : OrphanSet) : State :=
  let mine := fun (r : Repeated) => match r.rec_ with | .query q => q.queryId == o.queryId | _ => false
  (List.range 32).foldl (fun s m => if (portOf s m).repeats.any mine then modPort s m (fun p => { p with repeats := p.repeats.filter (fun r => !mine r) }) else s) s

/-- The flits a port has not seen acknowledged become orphans of its pair's failover, and its receive point is held for 10 ms; the far end is asked for its receive point, or tells it in LINK_HELLO (10, R263, R269, R270). -/
def holdOrphans (s : State) (n : Nat) (f : Failover) (byHello : Bool) : State :=
  let p := portOf s n
  let id := s.link.nextQuery
  let pt : HeldPoint := { port := n, switchPort := p.switchPort, gen := p.gen, point := recvPoint p, since := now s }
  let o : OrphanSet := { port := n, gen := p.gen, since := now s, queryId := id, byHello := byHello, seqs := p.replay.map (fun x => (x.seq, x.packets)), done := p.replay.isEmpty }
  let s := { s with link := { s.link with
    points := s.link.points.filter (fun x => x.port != n) ++ [pt], failovers := tset s.link.failovers (n % 16) { f with sets := f.sets ++ [o] }, nextQuery := (id + 1) % 256 } }
  if byHello then s else sendQuery s n id

/-- Every orphan of a failover is accounted for. -/
def Failover.resolved (f : Failover) : Bool := f.sets.all (·.done)

/-- The packets to be resent, in their original order. -/
def Failover.orphans (f : Failover) : List Packet := f.sets.flatMap (·.left)

/-- Packets leave by other ports in place of one that carries nothing (01, R17). -/
def sendElsewhere (s : State) (n : Nat) (l : List Packet) : State := l.foldl (fun s pk => let r := replyPort s n; sendOn r.2 r.1 pk) s

/-- The failover of a pair ends once its new port is active and its orphans are resolved: the packets to be resent go first, in order (10, Table 10.9, steps 10 and 11). Where the pair has no port to come, they leave by other ports. -/
def endFailover (s : State) (pair : Nat) : State :=
  match failoverOf s pair with
  | none => s
  | some f =>
    if f.resolved && portActive s f.to && !f.draining then
      let old := (portOf s f.from_).waiting
      let s := if f.inPlace then s else modPort s f.from_ (fun p => { p with waiting := [], failovers := satInc 8 p.failovers })
      let s := f.sets.foldl (fun s o => modPort s o.port (fun p => { p with orphansResent := satAdd 32 p.orphansResent o.left.length })) s
      let s := modPort s f.to (fun p => { p with waiting := f.orphans ++ (if f.inPlace then p.waiting else old ++ p.waiting) })
      let s := if f.inPlace then s else lifeAdd s 0x048 1
      flushPort (delFailover s pair) f.to
    else if f.resolved && !f.draining && !portActive s f.from_ && !inTraining (portOf s f.to) && (portOf s f.to).st != .resync then
      sendElsewhere (delFailover s pair) f.from_ f.orphans
    else s

/-- The orphans of a set, resolved by the far end's receive point: flits up to it were accepted, later ones are to be resent (10, R270). -/
def OrphanSet.known (o : OrphanSet) (point : Nat) : OrphanSet :=
  let oldest := ((o.seqs.head?).map Prod.fst).getD 0
  let n := (point + 1 + 65536 - oldest) % 65536
  { o with left := (o.seqs.drop (if n ≤ o.seqs.length then n else 0)).flatMap Prod.snd, seqs := [], done := true }

/-- Resolve the orphans of one set of a pair by a receive point (10, R270). -/
def resolveKnown (s : State) (pair : Nat) (pick : OrphanSet → Bool) (point : Nat) : State :=
  match failoverOf s pair with
  | none => s
  | some f =>
    let s := (f.sets.filter pick).foldl dropQuery s
    endFailover (setFailover s pair { f with sets := f.sets.map (fun o => if pick o && !o.done then o.known point else o) }) pair

/-- An engine's request whose fate is unknown: its item fails, its tag stays held (10, R271). -/
def failRequest (s : State) (p : Packet) : State :=
  match s.eng.forwards.find? (fun f => f.tag == p.tag && f.endpoint == p.dest && !f.held) with
  | none => s
  | some f =>
    let pva := ((accessOf? s f.access).map (·.pva)).getD 0
    failAccess (closeForwards s (· == f)) f.access { status := Sts.remoteTimeout, pva := pva }

/-- Orphans of which nothing is known: engine requests fail, the others are to be resent, all are counted (10, R271). -/
def unknownSet (s : State) (o : OrphanSet) : State :=
  let all := o.seqs.flatMap Prod.snd
  let s := (all.filter (fun p => p.vc == 0)).foldl failRequest s
  let s := modPort s o.port (fun p => { p with orphansUnknown := satAdd 32 p.orphansUnknown all.length })
  if all.isEmpty then s else noteR s (portRegion o.port) (portUnit o.port) Cause.orphansUnknown

/-- Resolve sets of a pair as unknown (10, R271). -/
def resolveUnknown (s : State) (pair : Nat) (pick : OrphanSet → Bool) : State :=
  match failoverOf s pair with
  | none => s
  | some f =>
    let due := fun (o : OrphanSet) => pick o && !o.done
    let s := (f.sets.filter due).foldl unknownSet ((f.sets.filter due).foldl dropQuery s)
    endFailover (setFailover s pair { f with
      sets := f.sets.map (fun o => if due o then { o with left := (o.seqs.flatMap Prod.snd).filter (fun p => p.vc != 0), seqs := [], done := true } else o) }) pair

/-! ### Bring-up of a port (10, R269, R274) -/

/-- Answer the orders that wait for a port's retraining (10, Table 10.12). -/
def answerRetrain (s : State) (n st : Nat) : State :=
  let w := (portOf s n).retrainWaits
  w.foldl (fun s h => finish s h Ord.portRetrain st) (modPort s n (fun p => { p with retrainWaits := [] }))

/-- A port begins to carry traffic; a PORT_SELECT and PORT_RETRAINs that wait for it are answered (10, R273, Table 10.12). -/
def activatePort (s : State) (n : Nat) : State :=
  let s := modPort s n (fun p => { p with st := .active, stopped := awaitsReset p, timerFrom := now s, since := now s, refresh := false })
  let s := { s with link := { s.link with pairsLost := s.link.pairsLost.filter (· != n % 16) } }
  let s := match failoverOf s (n % 16) with
    | some f => if f.to = n then (match f.planned with
        | some h => finish (setFailover s (n % 16) { f with planned := none, draining := false }) h Ord.portSelect Sts.success
        | none => setFailover s (n % 16) { f with draining := false }) else s
    | none => s
  endFailover (flushPort (answerRetrain s n Sts.success) n) (n % 16)

/-- The partner of a port is brought up: from valid saved state, else by full training with its NOTE; one that resynchronises becomes active at once, one in training goes on (10, R269, Table 10.14). False where the partner can't be brought up. -/
def bringUpPartner (s : State) (n : Nat) : Bool × State :=
  let m := partner n
  let s := yieldSlice s (portRegion m) (portUnit m)
  let p := portOf s m
  match p.st with
  | .cold =>
    if savedValid s p then (true, beginExchange s m .bringup none)
    else (true, beginExchange (noteR s (portRegion m) (portUnit m) Cause.savedStateFail) m .training none)
  | .resync => if p.refresh && !p.trainedLanes then (true, s) else (true, activatePort s m)
  | .training => (true, s)
  | .bringup => (true, s)
  | _ => (false, s)

/-- Packets not yet sent leave on other ports while a pair has no active port (01, R17; 10, R269). -/
def reroute (s : State) (n : Nat) : State :=
  let l := (portOf s n).waiting
  l.foldl (fun s pk => let r := replyPort s n; if r.1 = n then modPort r.2 n (fun p => { p with waiting := p.waiting ++ [pk] }) else sendOn r.2 r.1 pk)
    (modPort s n (fun p => { p with waiting := [] }))

/-- The active port of a pair stops carrying traffic and takes a state; its orphans are held, with those of an earlier failover, and its packets take other ports (10, R269, R270). -/
def dropActive (s : State) (n : Nat) (st : PortState) : State :=
  let old := failoverOf s (n % 16)
  let s := holdOrphans s n { from_ := n, since := now s, planned := old.bind (·.planned), exchange := (old.map (·.exchange)).getD false, sets := (old.map (·.sets)).getD [] } false
  reroute (modPort (dropHeldFlits s n) n (fun p => { p with st := st, since := now s, stopped := true, replay := [], repeats := [] })) n

/-- The flits in a port's replay buffer are orphans of a planned change that found them unacknowledged after 20 µs: they are not resent on this link while the change runs (10, R273). -/
def suspended (s : State) (n : Nat) : Bool :=
  match failoverOf s (n % 16) with
  | some f => f.from_ == n && f.sets.any (fun o => o.port == n && o.gen == (portOf s n).gen)
  | none => false

/-- A planned change is undone: the old port goes on as before, its flits with it, but while it waits for a reset (10, R259, R273). -/
def undoChange (s : State) (pair st : Nat) : State :=
  match failoverOf s pair with
  | none => s
  | some f =>
    let s := flushPort (modPort (f.sets.foldl dropQuery (delFailover s pair)) f.from_ (fun p => { p with stopped := awaitsReset p, timerFrom := now s })) f.from_
    match f.planned with
    | some h => finish s h Ord.portSelect st
    | none => s

/-- The change of side of a pair is done: the old port captures its saved state and powers off (10, R273). -/
def endChange (s : State) (f : Failover) : State :=
  activatePort (modPort (dropHeldFlits s f.from_) f.from_ (fun p => { p with st := .cold, savedAt := some (now s), since := now s, stopped := false, replay := [],
                                                                             repeats := [] })) (partner f.from_)

/-- A planned change of side runs on a pair (10, R273). -/
def changing (f : Failover) : Bool := f.planned.isSome || f.exchange

/-- The exchange that was to resolve orphans of a port's earlier incarnation has failed: the far end is asked for its receive point instead (10, R270, R271). -/
def helloLost (s : State) (n : Nat) : State :=
  match failoverOf s (n % 16) with
  | none => s
  | some f =>
    let mine := fun (o : OrphanSet) => o.port == n && o.byHello && !o.done
    let s' := setFailover s (n % 16) { f with sets := f.sets.map (fun o => if mine o then { o with byHello := false, since := now s } else o) }
    (f.sets.filter mine).foldl (fun s o => sendQuery s n o.queryId) s'

/-- A full link reset in place has failed: the pair fails over (10, R269). -/
def failInPlace (s : State) (n : Nat) (f : Failover) : State := helloLost (setFailover s (n % 16) { f with inPlace := false, since := now s }) n

/-- The side that a failover was to bring up can't serve (10, R268, R273, Table 10.14). A planned change whose old port still runs is undone; an old port in its own reset comes back in place; after a reset in place the partner is brought up; else the pair is lost, which the first part of the answer says. -/
def sideFailed (s : State) (n st : Nat) : Bool × State :=
  match failoverOf s (n % 16) with
  | none => (false, s)
  | some f =>
    if f.to ≠ n then (false, s)
    else if changing f && portActive s f.from_ then (false, undoChange s (n % 16) st)
    else if f.inPlace then
      let t := bringUpPartner (failInPlace s n f) n
      (!t.1, t.2)
    else
      let s := match f.planned with
        | some h => finish s h Ord.portSelect st
        | none => s
      let back := setFailover s (n % 16) { f with planned := none, exchange := false, inPlace := true }
      if inTraining (portOf s f.from_) then (false, back)
      else if (portOf s f.from_).st = .resync then (false, activatePort back f.from_)
      else (true, setFailover s (n % 16) { f with planned := none, exchange := false })

/-! ### Lane maps and training (10, R252, R253, R265, R266) -/

/-- The lane map a training forms from the lanes found good: the eight lowest, else the four lowest, else none. -/
def laneMapOf (good : BitVec 9) (bad : List Nat) : Option (List Nat) :=
  let l := (List.range 9).filter (fun i => good.getLsbD i && !bad.contains i)
  if 8 ≤ l.length then some (l.take 8) else if 4 ≤ l.length then some (l.take 4) else none

/-- A training has formed its lane map (10, R252, R253, R265, step 3). -/
def formMap (s : State) (n : Nat) (map : List Nat) : State :=
  let spare := if map.contains 8 then (((List.range 8).find? (fun i => !map.contains i)).getD 0xF) else 0xF
  modPort s n (fun p => { p with laneMap := map, narrow := decide (map.length = 4), spareFor := spare, lockLost := [] })

/-- A full training has passed: the port saves its state, of each physical lane too; a lane that the spare has newly replaced is counted, and the replacement is done (10, R265, R266; 12, R320, Table 12.10). -/
def trained (s : State) (n : Nat) : State :=
  let p := portOf s n
  let s := if p.laneMap.contains 8 && !p.spareServes then replaced (lifeAdd s 0x040 1) false (portRegion n) (unitId Kind.lane (16 * n + p.spareFor)) else s
  modPort (useFree s) n (fun p => { p with
    spareServes := p.laneMap.contains 8, trainedLanes := true, savedAt := some (now s), lanes := (List.range 9).map (Config.laneSettings (freeNo s)), repeats := [] })

/-- Eight lanes of a port are not known to be bad: it can train with 8 (10, R252, R253). -/
def canWide (p : Port) : Bool := decide (((List.range 9).filter (fun i => !p.badLanes.contains i)).length ≥ 8)

/-- A port of 4 lanes is not to be made active: its partner serves, trains or can be brought up with 8 (10, R253). -/
def narrowBarred (s : State) (n : Nat) : Bool :=
  let o := portOf s (partner n)
  (portOf s n).narrow && canWide o && (o.st == .training || (!o.narrow && (o.st == .active || o.st == .cold || inTraining o || (o.st == .resync && o.trainedLanes))))

/-- Both ports of a pair have ended their start-up training: the port of R14, or its partner, becomes active, the other powers off (01, R14; 10, R253, R268). True where the pair is lost. -/
def settlePair (s : State) (pair : Nat) : Bool × State :=
  let named := if pair % 4 < 2 then pair else pair + 16
  let other := partner named
  let good := fun n => (portOf s n).st == PortState.training && (portOf s n).trainedLanes
  let wide := fun n => good n && !(portOf s n).narrow
  let cold := fun (s : State) n => if good n then modPort s n (fun p => { p with st := .cold, since := now s }) else s
  if good named && (wide named || !wide other) then (false, activatePort (cold s other) named)
  else if good other then (false, activatePort (cold s named) other)
  else (true, s)

/-- A pair's start-up training may have ended: it is settled once both ports have ended theirs. True where the pair is lost (10, R268). -/
def settleBoth (s : State) (pair : Nat) : Bool × State :=
  if s.power.portsDone.contains pair && s.power.portsDone.contains (pair + 16) then settlePair s pair else (false, s)

/-- Record that a port has ended its start-up training. -/
def portDone (s : State) (n : Nat) : State :=
  { s with power := { s.power with portsDone := s.power.portsDone.filter (· != n) ++ [n] } }

/-- The port is in its start-up training. -/
def startupTraining (s : State) (n : Nat) : Bool := !s.power.portsDone.contains n

/-- The port's saved state is captured and it powers off as the pair's standby, or, where the pair has no active port, becomes active (10, R274). -/
def standBy (s : State) (n : Nat) : State :=
  if portActive s (partner n) then modPort s n (fun p => { p with st := .cold, savedAt := some (now s), since := now s, refresh := false })
  else activatePort s n

/-- A full link reset in place of an active port: its orphans are resolved by the exchange of LINK_HELLO (10, R263, R267). -/
def resetInPlace (s : State) (n : Nat) : State :=
  let p := portOf s n
  let sets := ((failoverOf s (n % 16)).map (·.sets)).getD []
  let s := holdOrphans s n { from_ := n, since := now s, inPlace := true, sets := sets } true
  reroute (beginExchange s n .training (some (recvPoint p, p.gen))) n

end Sys2Proof.Machine
end

