-- ==== Sys2Proof/Machine/Faults.lean ====
section
/-! DEFINITION. Reactions to faults (12): the loss of an engine (07, R171, R203; 09, R235), of a region die (R321, Table 12.11), HALT (R325), spares and withheld replacements (R315, R320), and the one operation by which a fault is raised. -/

namespace Sys2Proof.Machine

/-! ### Engines (07, R171, R203; 09, R235) -/

/-- Every unit of an item, or of the whole block that a thread runs, has been applied. -/
def threadDone (p : Spray) (th : Thread) : Bool := p.pool && (List.range th.items).all (fun j => unitsDone p (th.item + j))

/-- A pool item that was resident on a lost engine is placed again on its logical engine; lost for the third time it ends ENGINE_LOST (09, R235). -/
def redoItem (s : State) (n i e : Nat) : State :=
  match sprayOf? s n with
  | none => s
  | some p =>
    let lost := tget p.lost i 0 + 1
    if 3 ≤ lost then endItem s n i (some { status := Sts.engineLost })
    else setSpray s n { p with lost := tset p.lost i lost, items := tset p.items i (.placed e) }

/-- An access has been issued and is not answered: ordered in the module's memory, or sent to another module. -/
def underWay (s : State) (a : Nat × Access) : Bool :=
  match a.2.st with
  | .inModule => !(List.range 4).any (fun k => (regionOf s k).engineHeld.any (fun r => r.access == some a.1))
  | .remote _ _ => true
  | _ => false

/-- The accesses and tiles of a lost thread: those not issued go, also where they were held for want of queue room or were to be sent again; those issued complete at their destinations, remote ones with their forwarding entries closed, and their launch ends after them (07, R178, R203). -/
def orphanTiles (s : State) (e h : Nat) : State :=
  (threadTiles s e h).foldl (fun s t =>
    let mine := s.eng.accesses.filter (fun a => a.2.tile == t.1)
    let gone := (mine.filter (fun a => !underWay s a)).map Prod.fst
    let s := closeForwards (gone.foldl delAccess (dropHeld s gone.contains)) (fun f => mine.any (fun a => a.1 == f.access))
    let s := { s with eng := { s.eng with forwards := s.eng.forwards.filter (fun f => !gone.contains f.access) } }
    if t.2.waitsOnFault then modCollect (delTile s t.1) (engRegion e) (fun c => { c with waiting := c.waiting.filter (fun r => r.tile != t.1) })
    else if gone.length = mine.length then delTile s t.1
    else setTile s t.1 { t.2 with thread := 64, left := mine.length - gone.length }) s

/-- A thread resident on a lost engine: of a spray, it ends ENGINE_LOST; of a pool operation, its items are done, end as they were failing, or start again (07, R203; 09, R235). -/
def loseThread (s : State) (e h : Nat) (th : Thread) : State :=
  let s := orphanTiles s e h
  match sprayOf? s th.spray with
  | none => dropThread s e h
  | some p =>
    if !p.pool then endThread s e h th (some { status := Sts.engineLost })
    else if threadDone p th then endThread s e h th none
    else match th.phase with
      | .failing f => endThread s e h th (some f)
      | _ => (List.range th.items).foldl (fun s j => redoItem s th.spray (th.item + j) th.placed) (dropThread s e h)

/-- The logical engine that a physical engine serves, if any. -/
def servedLogical (s : State) (k i : Nat) : Option Nat :=
  ((List.range 128).map (k * 128 + ·)).find? (fun e => (logEngOf s e).phys == i && (logEngOf s e).adoptedBy.isNone)

/-- The free spare that R171 chooses for an engine of a region: of its cluster, else of the lowest cluster. -/
def spareFor (s : State) (k i : Nat) : Option Nat :=
  match ((List.range 9).map (i / 9 * 9 + ·)).find? (spareFree s k) with
  | some j => some j
  | none => (List.range 144).find? (spareFree s k)

/-- The next serving logical engine of the stack, that adopts a lost one (07, R171). -/
def adopterOf (s : State) (e : Nat) : Option Nat :=
  ((List.range 31).map (fun j => e / 32 * 32 + (e % 32 + 1 + j) % 32)).find? (fun a =>
    (logEngOf s a).adoptedBy.isNone && !(physOf s (engRegion a) (logEngOf s a).phys).fenced)

/-- A spare is held: a slice on it is abandoned (12, R328). -/
def holdSpare (s : State) (k j : Nat) : State :=
  modPhys (yieldSlice s k (unitId Kind.engine j)) k j (fun p => { p with active := true, underTest := false })

/-- A spare replaces an engine that failed (14, Table 14.7). -/
def takeSpareEngine (s : State) (k j : Nat) : State := lifeAdd (holdSpare s k j) 0x058 1

/-- A planned move of a logical engine begins, where its region has a free spare (07, R202). -/
def beginMove (s : State) (e : Nat) : Bool × State :=
  let k := engRegion e
  match spareFor s k (logEngOf s e).phys with
  | none => (false, s)
  | some j => (true, modLogEng (holdSpare s k j) e (fun l => { l with move := some { spare := j, since := now s } }))

/-- The spare that a planned move has taken is fenced: the move begins again toward the spare that R171 now chooses; with none free it is given up, to be tried again.
DESIGN CHOICE, log entry 27. -/
def moveElsewhere (s : State) (k i : Nat) : State :=
  match ((List.range 128).map (k * 128 + ·)).find? (fun e => match (logEngOf s e).move with | some m => m.spare == i | none => false) with
  | none => s
  | some e =>
    let t := beginMove (modLogEng s e (fun l => { l with move := none })) e
    if t.1 then t.2 else wakeResumed (modBist t.2 k (fun b => { b with retryAt := tset b.retryAt e (now s + ms 10) }))

/-- A physical engine is fenced: its threads are lost, and its logical engine moves to a spare, which is answered, or is adopted (07, R171, R203; 12, R315). -/
def loseEngine (s : State) (k i : Nat) (withheld : Bool) : Option Nat × State :=
  let e? := servedLogical s k i
  let s := modPhys s k i (fun p => { p with fenced := true, active := false, underTest := false })
  match e? with
  | none => (none, moveElsewhere s k i)
  | some e =>
    let s := match (logEngOf s e).move with
      | some m => modLogEng (modPhys s k m.spare (fun p => { p with active := false })) e (fun l => { l with move := none })
      | none => s
    let spare := if withheld then none else spareFor s k i
    let s := match spare with
      | some j => modLogEng (takeSpareEngine s k j) e (fun l => { l with phys := j, gen := (l.gen + 1) % 256 })
      | none => match adopterOf s e with
        | some a => modLogEng s e (fun l => { l with adoptedBy := some a })
        | none => s
    (spare, (engineThreads s e).foldl (fun s t => loseThread s e t.1 t.2) { s with eng := { s.eng with tlb := tdel s.eng.tlb e } })

/-! ### HALT (12, R325; 15, R376) -/

/-- Requests held in a region and not yet ordered are answered with a status; the module's own stores stay, and, but where power goes down (15, R376), writebacks and eviction notices. -/
def answerHeld (s : State) (k st : Nat) : State :=
  let x := regionOf s k
  let own := fun (r : Req) => match r.origin with | .sprayStore _ _ => true | _ => false
  let answer := fun (s : State) (r : Req) => answerDone s k { req := r, ans := { status := st } }
  let down := if st = Sts.notReady then x.vc1 else []
  let s := modRegion s k (fun y => { y with ingressQ := [], darinQ := [], engineQ := y.engineQ.filter own, engineHeld := y.engineHeld.filter own, granted := x.granted.filter own,
                                            vc1 := if st = Sts.notReady then [] else y.vc1 })
  (x.ingressQ ++ x.darinQ ++ x.granted.filter (fun r => !own r) ++ (x.engineQ ++ x.engineHeld).filter (fun r => !own r) ++ down).foldl answer s

/-- Work stops: threads and items end MODULE_HALT, held requests are answered, slices are abandoned (12, R325; 14, R349; 15, R376). Threads stop first: an access that this answers ends no item. -/
def stopWork (s : State) (st : Nat) : State :=
  let s := { s with hub := { s.hub with ready := false } }
  let s := s.eng.sprays.foldl (fun s x => stopSpray s x.1 Sts.moduleHalt) s
  let s := (List.range 4).foldl (fun s k => answerHeld s k st) s
  (List.range 5).foldl (fun s k => sliceOver s k Outcome.abandonedOther) s

/-- The HALT reaction. -/
def halt (s : State) : State :=
  stopWork (lifeAdd { s with fault := { s.fault with halted := true } } 0x0B0 1) Sts.moduleHalted

/-! ### Directory (04; 12, R324) -/

/-- Entries are marked for rebuild, and what they held is gone (12, R324; log entry 28). -/
def markEntries (s : State) (ws : List Nat) : State :=
  { s with coh := { s.coh with dir := s.coh.dir.filter (fun e => !ws.contains e.1), rebuild := s.coh.rebuild ++ ws.filter (fun w => !s.coh.rebuild.contains w) } }

/-- The sets of a directory slice's cache. -/
def sliceSets (s : State) (k slice : Nat) : Tab (List (Nat × Bool)) := s.coh.dirCache.filter (fun c => c.1 / 4096 == k * 16 + slice)

/-- A slice's cache is lost: entries that it held modified, and that its backing store therefore lacks, are marked (04, R89; 12, R324; log entry 28). -/
def loseSlice (s : State) (k slice : Nat) : State :=
  let ws := (sliceSets s k slice).flatMap (fun c => (c.2.filter (·.2)).map Prod.fst)
  markEntries { s with coh := { s.coh with dirCache := s.coh.dirCache.filter (fun c => c.1 / 4096 != k * 16 + slice) } } ws

/-- A slice of a region's directory goes into bypass (12, R324). -/
def bypassSlice (s : State) (k slice : Nat) : State :=
  if s.fault.slicesBypassed.contains (k * 16 + slice) then s
  else loseSlice { s with fault := { s.fault with slicesBypassed := s.fault.slicesBypassed ++ [k * 16 + slice] } } k slice

/-- A surviving directory cache holds an entry. -/
def heldInCache (s : State) (w : Nat) : Bool := s.coh.dirCache.any (fun c => c.2.any (fun x => x.1 == w))

/-- The directory share of a lost region is re-homed, empty: entries of its logical stacks that no surviving directory cache holds are marked, and so are those that its own caches held (12, Table 12.11, R324). -/
def rehomeDir (s : State) (k : Nat) : State :=
  let s := (List.range 16).foldl (fun s i => loseSlice s k i) s
  markEntries s ((s.extents.filter (fun e => e.2.coherent && e.2.st != .free)).flatMap (fun e =>
    (List.range (e.2.size * 8192)).filterMap (fun i =>
      let w := windowIndex e.2 (e.2.base * 2 ^ 21 + 256 * i)
      if (entryPlace w).1 / 4 = k ∧ !heldInCache s w then some w else none)))

/-- A set that has lost a way holds no more entries than it has ways: the entry of the lost way is written back; which it was is open (12, Table 12.10; log entry 8). -/
def trimSet (s : State) (set : Nat) : State :=
  let l := tget s.coh.dirCache set []
  if setWays s set < l.length then
    useFree { s with coh := { s.coh with dirCache := tset s.coh.dirCache set (l.eraseIdx ((Config.freeBits 16 (freeNo s)).toNat % l.length)) } }
  else s

/-- A way of a set fails: true where the set's spare way takes its place; a second unreplaced way of a slice puts it in bypass (12, Table 12.10). -/
def loseWay (s : State) (k slice set : Nat) (withheld : Bool) : Bool × State :=
  let key := (k * 16 + slice) * 4096 + set % 4096
  let e := tget s.fault.waysLost key (0, 0)
  let spare := !withheld && e.2 == 0
  let s := { s with fault := { s.fault with waysLost := tset s.fault.waysLost key (e.1 + 1, e.2 + b2n spare) } }
  let s := if spare then lifeAdd s 0x060 1 else s
  let s := trimSet s key
  let gone : Nat := ((s.fault.waysLost.filter (fun x => x.1 / 4096 == k * 16 + slice)).map (fun (x : Nat × Nat × Nat) => x.2.1 - x.2.2)).sum
  (spare, if 2 ≤ gone then bypassSlice s k slice else s)

/-! ### Loss of a region die (12, R321, Table 12.11) -/

/-- The four stacks of a region are fenced; for each its poison-log entry, whose position is open (log entry 8). -/
def loseStacks (s : State) (k : Nat) : State :=
  (List.range 5).foldl (fun s i =>
    let p := 5 * k + i
    let x := stackOf s p
    let s := stackFlags s p true false
    let s := if x.mapped then doubleFenceEntry (useFree s) p (Config.freeBits 5 (freeNo s)).toNat else s
    modStack (stackOff s p) p (fun x => { x with mapped := false, st := .fenced })) s

/-- A port leaves service with its region: its packets take other ports. -/
def losePort (s : State) (n : Nat) : State :=
  let s := if portActive s n then dropActive s n .fenced else modPort (helloLost s n) n (fun p => { p with st := .fenced, refresh := false, repeats := [] })
  answerRetrain s n Sts.portFenced

/-- Stripe buffers, stripe locks and repairs due of a region's die are lost. -/
def loseBuffers (s : State) (k : Nat) : State :=
  { s with mem := { s.mem with
    sab := s.mem.sab.filter (fun e => e.region != k)
    locks := s.mem.locks.filter (fun x => x.lstack / 4 != k)
    rewrites := s.mem.rewrites.filter (fun r => r.lstack / 4 != k)
    rowsDue := s.mem.rowsDue.filter (fun r => r.stack / 5 != k) } }

/-- Every engine of a region is fenced, and its threads are lost. -/
def loseEngines (s : State) (k : Nat) : State :=
  let s := (List.range 144).foldl (fun s i => modPhys s k i (fun p => { p with fenced := true, active := false, underTest := false })) s
  let s := (List.range 128).foldl (fun s e => modLogEng s (k * 128 + e) (fun l => { l with move := none })) s
  (s.eng.threads.filter (fun t => engRegion (t.1 / 64) == k)).foldl (fun s t => loseThread s (t.1 / 64) (t.1 % 64) t.2) s

/-- Translations, the accord store and the tables of every address space are emptied. -/
def loseTables (s : State) : State :=
  { s with eng := { s.eng with tlb := [], walkers := [], accords := [], asids := s.eng.asids.map (fun a => (a.1, { a.2 with leaves := [], tables := [] })) } }

/-- A region die is fenced: stacks, engines and ports leave service, buffers and queues of the die are lost, every launch ends its items ENGINE_LOST, address spaces and the accord store are emptied, the directory share is marked for rebuild. -/
def loseRegion (s : State) (k : Nat) : State :=
  let s := modRegFault s k (fun r => { r with fenced := true, spareStackFree := false })
  let s := sliceOver s k Outcome.abandonedOther
  let s := match tget? s.mem.evacs k with | some e => abandonEvac s k e | none => s
  let s := ((tget s.mem.validCache k []).filter (·.2)).foldl (fun s b => writeBackValid s b.1) s
  let s := loseBuffers (loseStacks { s with mem := { s.mem with validCache := tdel s.mem.validCache k } } k) k
  let s := s.eng.sprays.foldl (fun s x => stopSpray s x.1 Sts.engineLost) s
  let s := loseTables (loseEngines s k)
  let s := (List.range 8).foldl (fun s i => losePort s (regionPort k i)) s
  rehomeDir (reloadValid s) k

/-! ### Converter phases (15, R364) -/

/-- The lowest free spare phase of a rail is switched in (15, R364; 12, Table 12.10). -/
def switchPhase (s : State) (rail : Nat) : Option Nat × State :=
  match (freePhases s rail).head? with
  | some q => (some q, lifeAdd { s with power := { s.power with phasesUsed := tset s.power.phasesUsed rail (tget s.power.phasesUsed rail [] ++ [q]) } } 0x078 1)
  | none => (none, s)

/-- A phase of a rail has failed: where it served, a spare takes its place unless that is withheld. -/
def losePhase (s : State) (rail phase : Nat) (withheld : Bool) : Option Nat × State :=
  let served := phaseServes s rail phase
  let l := tget s.power.phasesFailed rail []
  let s := { s with power := { s.power with phasesFailed := tset s.power.phasesFailed rail (if l.contains phase then l else l ++ [phase]) } }
  if served && !withheld then switchPhase s rail else (none, s)

/-- A rail runs on fewer phases than it needs (15, R364). -/
def railShort (s : State) (rail : Nat) : Bool := decide (phasesIn s rail < (railPhases rail).2.2)

/-! ### Raising a fault (12, R309 to R315, R320) -/

/-- The replacement of a unit is under way; its completion is noted by REPLACEMENT_DONE. -/
def replacing (s : State) (f : FaultIn) : State :=
  { s with fault := { s.fault with replacing := s.fault.replacing.filter (· != (f.hub, f.region, f.unit)) ++ [(f.hub, f.region, f.unit)] } }

/-- A unit is out, replaced by a spare that joins the record, or not replaced. -/
def outOrSpare (s : State) (f : FaultIn) (seq : Nat) (held : Bool) (spare : Option Nat) : State :=
  match spare with
  | some u => replacing (tookSpare s f seq u) f
  | none => unitOut s f held

/-- The reaction to a channel's fence (05, R132; 06, R149, R164, R165; 12, Table 12.10). -/
def channelReaction (again : State → FaultIn → State) (s : State) (f : FaultIn) (seq : Nat) (held : Bool) : State :=
  let i := f.unit % 2048
  let p := 5 * f.region + i / 32
  let c := i % 32
  let already := (stackOf s p).fencedChans
  if already.contains c then s
  else
    let s := fenceChan s p c
    let s := if already.length = 1 ∧ (stackOf s p).mapped then
        again (doubleFenceEntry s p c) { region := f.region, unit := stackUnit p, cause := Cause.doubleFence }
      else s
    if (match tget? s.mem.evacs f.region with | some e => e.spare == p | none => false) then
      again s { region := f.region, unit := stackUnit p, cause := Cause.spareFailed }
    else if held || !(stackOf s p).mapped then unitOut s f held
    else
      let t := triggerEvac s p f.cause
      if t.1 then tookSpare t.2 f seq (stackUnit (spareOf f.region)) else unitOut t.2 f false

/-- The reaction to the failure of a port or its link (10, R260, R265, R269; 12, Table 12.10): of an active port, or of one in a reset in place, the pair fails over; in start-up the pair is settled without the port (10, R268). -/
def portReaction (again : State → FaultIn → State) (s : State) (f : FaultIn) (seq : Nat) (held : Bool) : State :=
  let n := f.unit % 2048 % 32
  let lost := { f with unit := pairUnit n, cause := Cause.pairLost, detail := 0 }
  let fence := fun (s : State) => answerRetrain (modPort s n (fun p => { p with st := .fenced, since := now s, refresh := false, repeats := [] })) n Sts.portFenced
  let swap := fun (s : State) =>
    if held then unitOut s f true
    else
      let t := bringUpPartner s n
      if t.1 then replacing (tookSpare t.2 f seq (portUnit (partner n))) f else again t.2 lost
  if portActive s n then swap (dropActive s n .fenced)
  else if startupTraining s n then
    let t := settleBoth (portDone (fence s) n) (n % 16)
    if t.1 then again t.2 lost else t.2
  else match failoverOf s (n % 16) with
    | some x =>
      if x.inPlace && x.from_ == n then swap (failInPlace (fence s) n x)
      else
        let t := sideFailed (helloLost (fence s) n) n Sts.portFenced
        if t.1 then again t.2 lost else t.2
    | none => fence s

/-- The reaction to an engine's failure (07, R171; 12, Table 12.10). -/
def engineReaction (s : State) (f : FaultIn) (seq : Nat) (held : Bool) : State :=
  let i := f.unit % 2048
  if (physOf s f.region i).fenced then s
  else
    let serves := (servedLogical s f.region i).isSome
    let t := loseEngine s f.region i held
    if serves then outOrSpare t.2 f seq held (t.1.map (unitId Kind.engine)) else t.2

/-- The reaction to a failed directory slice. -/
def sliceReaction (s : State) (f : FaultIn) : State :=
  let s := bypassSlice s f.region (f.unit % 2048)
  if f.cause = Cause.bistFail then carryOn s false f.region f.unit (f.detail % 256) else unitOut s f false

/-- The reaction to a lockstep mismatch: takeover by the spare pair, else HALT (12, R322, Table 12.14). -/
def pairReaction (again : State → FaultIn → State) (s : State) (f : FaultIn) (seq : Nat) : State :=
  let i := f.unit % 2048
  let free_ := s.fault.pairSpareFree
  let s := yieldSlice { s with fault := { s.fault with pairSpareFree := false } } 4 (unitId Kind.mgmtPair (1 - i))
  if i ≠ s.fault.pairActive then
    if s.fault.takeover then again s { f with cause := Cause.hubFailed }
    else if f.cause = Cause.bistFail then carryOn s true 0 f.unit f.detail
    else unitOut s f false
  else if free_ then
    tookSpare (lifeAdd { s with fault := { s.fault with takeover := true }, hub := { s.hub with exchangeSince := none } } 0x080 1) f seq (unitId Kind.mgmtPair (1 - i))
  else again s { f with cause := Cause.hubFailed }

/-- A ring link is fenced, and the routes avoid it (12, Table 12.8, R321); the hub link, 2, lies on no ring route. -/
def fenceLink (s : State) (k i : Nat) : State :=
  if i < 2 ∧ !s.fault.linksFenced.contains (2 * k + i) then { s with fault := { s.fault with linksFenced := s.fault.linksFenced ++ [2 * k + i] } } else s

/-- What goes out of service with a unit that a self-test or its storage has failed, by the unit's kind (12, Table 12.1; 14, R345; 15, R374). -/
def unitReaction (again : State → FaultIn → State) (s : State) (f : FaultIn) (seq : Nat) (held : Bool) : State :=
  let kind := f.unit / 2048
  if f.hub then
    if kind = Kind.securityCore then again s { f with cause := Cause.hubFailed }
    else if kind = Kind.mgmtPair then pairReaction again s f seq
    else if kind = Kind.darinlink then
      (if f.cause = Cause.bistFail && !held then fun s => carryOn s true 0 f.unit (f.detail % 256) else fun s => unitOut s f held) { s with link := { s.link with dl := { s.link.dl with width := if f.detail % 256 = 0 then 2 else 1, groupsOut := s.link.dl.groupsOut ++ [f.detail % 256] } } }
    else unitOut s f held
  else if kind = Kind.channel then channelReaction again s f seq held
  else if kind = Kind.engine then engineReaction s f seq held
  else if kind = Kind.port then portReaction again s f seq held
  else if kind = Kind.dirSlice then sliceReaction s f
  else if kind = Kind.stack then modRegFault s f.region (fun r => { r with spareStackFree := false })
  else if f.cause = Cause.sramFail && (kind == Kind.homeAgent || kind == Kind.ingress || kind == Kind.crossbar) then
    again s { f with cause := Cause.regionLost }
  else if f.cause = Cause.bistFail then
    let s := if kind = Kind.ringLink then fenceLink s f.region (f.unit % 2048) else s
    if held then unitOut s f true else carryOn s false f.region f.unit (f.detail % 256)
  else unitOut s f held

/-- The reaction to a stack that fails its start-up training: the spare trains in its place, or is withheld; with none left the logical stack is lost (05, R140; 12, R315, Table 12.10). -/
def stackTrainReaction (again : State → FaultIn → State) (s : State) (f : FaultIn) (seq : Nat) (held : Bool) : State :=
  let k := f.region
  let p := 5 * k + f.unit % 2048
  let x := stackOf s p
  let l := x.logicalId
  let s := modStack (stackOff s p) p (fun x => { x with st := .fenced, mapped := false })
  let s := recordRetired s p l f.cause
  let spare := p ≠ spareOf k && spareUsable s k
  if held && spare then unitOut s f true
  else if spare then
    let s := modRegFault s k (fun r => { r with spareStackFree := false })
    let s := modStack s (spareOf k) (fun y => { y with st := .training, logicalId := l })
    replacing (tookSpare (lifeAdd s 0x050 1) f seq (stackUnit (spareOf k))) f
  else again s { region := k, unit := stackUnit p, cause := Cause.stackLost }

/-- The reaction to a failed phase (15, R364). -/
def phaseReaction (again : State → FaultIn → State) (s : State) (f : FaultIn) (seq : Nat) (held : Bool) : State :=
  let i := f.unit % 2048
  let rail := i / 32
  let t := losePhase s rail (i % 32) held
  let s := if phaseServes s rail (i % 32) then outOrSpare t.2 f seq held (t.1.map (fun q => unitId Kind.phase (32 * rail + q))) else t.2
  if !railShort s rail then s
  else if rail < 12 then again s { region := rail % 4, unit := unitId Kind.regionDie 0, cause := Cause.regionLost }
  else again s { hub := true, unit := f.unit, cause := Cause.railLost }

/-- The reaction to a root PLL that lost lock: a switch to the spare, else HALT (12, Table 12.10). -/
def pllReaction (again : State → FaultIn → State) (s : State) (f : FaultIn) (seq : Nat) : State :=
  let i := f.unit % 2048
  let free_ := s.fault.pllSpareFree
  let s := { s with fault := { s.fault with pllSpareFree := false } }
  if i ≠ s.fault.pllActive then unitOut s f false
  else if free_ then
    replacing (tookSpare (lifeAdd { s with fault := { s.fault with pllActive := 1 - i } } 0x088 1) f seq (unitId Kind.rootPll (1 - i))) f
  else again s { f with cause := Cause.clockLost }

/-- The reaction that a cause starts; again raises what follows from it. -/
def reaction (again : State → FaultIn → State) (s : State) (f : FaultIn) (seq : Nat) (held : Bool) : State :=
  let i := f.unit % 2048
  if f.cause = Cause.tempPathFail then
    unitOut (modStack s (5 * f.region + i) (fun x => { x with tempFenced := true, thermalLimit := 2, refresh2x := true })) f held
  else if f.cause = Cause.retrainFail ∨ f.cause = Cause.parityPersistent then channelReaction again s f seq held
  else if f.cause = Cause.spareFailed then
    (match tget? s.mem.evacs f.region with | some e => abandonEvac s f.region e | none => s)
  else if f.cause = Cause.linkFailed ∨ f.cause = Cause.trainFail then portReaction again s f seq held
  else if f.cause = Cause.pairLost then
    let s := { s with link := { s.link with pairsLost := s.link.pairsLost.filter (· != i % 16) ++ [i % 16] } }
    unitOut (endFailover s (i % 16)) f held
  else if f.cause = Cause.engineFailed then engineReaction s f seq held
  else if f.cause = Cause.dirWayFail then
    let t := loseWay s f.region (i / 17) (f.detail % 4096) held
    outOrSpare t.2 f seq held (if t.1 then some (unitId Kind.dirWay (i / 17 * 17 + 16)) else none)
  else if f.cause = Cause.dirSliceFail then sliceReaction s f
  else if f.cause = Cause.ringLinkFail then
    unitOut (fenceLink s f.region i) f held
  else if f.cause = Cause.mgmtMismatch then pairReaction again s f seq
  else if f.cause = Cause.pllFail then pllReaction again s f seq
  else if f.cause = Cause.phaseFail then phaseReaction again s f seq held
  else if f.cause = Cause.stackTrainFail then stackTrainReaction again s f seq held
  else if f.cause = Cause.sramFail ∨ f.cause = Cause.bistFail then unitReaction again s f seq held
  else if f.cause = Cause.regionLost then
    if (regFault s f.region).fenced then s
    else
      let second_ := (List.range 4).any (fun k => (regFault s k).fenced)
      let s := loseRegion s f.region
      if second_ then again s { f with cause := Cause.secondRegionLost } else s
  else s

/-- Raise a fault of class FENCE or above: latch it, run the HALT reaction where HALT is latched, then its own (12, R314); fuel bounds how far faults follow from faults. -/
def raiseN : Nat → State → FaultIn → State
  | 0, s, _ => s
  | n + 1, s, f =>
    let l := latch s f
    tagWithheld (reaction (raiseN n) (if l.halt && !s.fault.halted then halt l.st else l.st) f l.seq l.escalated) l.record

/-- Raise a fault; held waits of FAULT_READ are answered with what the latching and its reaction, which starts in the same cycle, leave (12, R309, R318, R325). -/
def raise (s : State) (f : FaultIn) : State := answerWaits (raiseN 5 s f)

/-- A fault of a region's unit. -/
def raiseR (s : State) (k unit_ cause : Nat) (detail : Nat := 0) : State := raise s { region := k, unit := unit_, cause := cause, detail := detail }

/-! ### Withheld replacements (12, R315, R319) -/

/-- The fault under which a unit out of service is counted as replaced. -/
def outFault (o : OutUnit) : FaultIn := { hub := o.hub, region := o.region, unit := o.unit, cause := 0 }

/-- A withheld engine's logical engine, if an adopter holds it, moves to the spare (07, R171; 12, R315). -/
def startEngine (s : State) (o : OutUnit) : Bool × State :=
  match ((List.range 128).map (o.region * 128 + ·)).find? (fun e => (logEngOf s e).adoptedBy.isSome && (logEngOf s e).phys == o.unit % 2048) with
  | some e => let t := beginMove s e; (t.1, if t.1 then lifeAdd t.2 0x058 1 else t.2)
  | none => (false, s)

/-- The partner of a withheld port, or of a withheld lane's, is brought up (10; 12, R315). -/
def startPartner (s : State) (o : OutUnit) (n : Nat) : Bool × State :=
  let t := bringUpPartner s n
  (t.1, if t.1 then replacing t.2 (outFault o) else t.2)

/-- A spare way takes the place of a withheld one (12, Table 12.12, R315). -/
def startWay (s : State) (o : OutUnit) : Bool × State :=
  match s.fault.waysLost.find? (fun w => w.1 / 4096 == o.region * 16 + o.unit % 2048 / 17 && w.2.2 == 0) with
  | some (key, n, _) => (true, replacing (unitBack (lifeAdd { s with fault := { s.fault with waysLost := tset s.fault.waysLost key (n, 1) } } 0x060 1) o.hub o.region o.unit) (outFault o))
  | none => (false, s)

/-- A spare phase takes the place of a withheld one (15, R364; 12, R315). -/
def startPhase (s : State) (o : OutUnit) : Bool × State :=
  let t := switchPhase s (o.unit % 2048 / 32)
  (t.1.isSome, if t.1.isSome then replacing (unitBack t.2 o.hub o.region o.unit) (outFault o) else s)

/-- The region's spare stack trains in the place of a withheld one (12, R315). -/
def startStack (s : State) (o : OutUnit) : Bool × State :=
  if spareUsable s o.region then
    let s := modRegFault s o.region (fun r => { r with spareStackFree := false })
    (true, replacing (modStack (lifeAdd s 0x050 1) (spareOf o.region) (fun y => { y with st := .training, logicalId := (stackOf s (5 * o.region + o.unit % 2048)).logicalId })) (outFault o))
  else (false, s)

/-- The replacement of a withheld unit starts: true where its spare is still free. -/
def startReplacement (s : State) (o : OutUnit) : Bool × State :=
  let i := o.unit % 2048
  let kind := o.unit / 2048
  let carried_ := kind = Kind.darinlink ∨ kind = Kind.stripeBuffer ∨ kind = Kind.homeAgent ∨ kind = Kind.ingress ∨ kind = Kind.crossbar ∨ kind = Kind.ringLink
  if carried_ ∧ o.segment.isSome then (true, carryOn s o.hub o.region o.unit (o.segment.getD 0))
  else if o.hub && kind != Kind.phase then (false, s)
  else if kind = Kind.channel then
    let p := 5 * o.region + i / 32
    if (stackOf s p).fencedChans.contains (i % 32) then triggerEvac s p Cause.retrainFail else (true, unitBack s o.hub o.region o.unit)
  else if kind = Kind.engine then startEngine s o
  else if kind = Kind.port then startPartner s o i
  else if kind = Kind.lane then startPartner s o (i / 16)
  else if kind = Kind.dirWay then startWay s o
  else if kind = Kind.phase then startPhase s o
  else if kind = Kind.stack then startStack s o
  else (false, s)

/-- The acknowledgement of a record starts the replacements it held back; where a spare is gone the unit stays out (12, R315, Table 12.14). -/
def startWithheld (s : State) (pick : OutUnit → Bool) : State :=
  (s.fault.out.filter (fun o => o.withheld && pick o)).foldl (fun s o =>
    let t := startReplacement s o
    { t.2 with fault := { t.2.fault with out := t.2.fault.out.map (fun x => if x = o then { x with withheld := false } else x) } }) s

end Sys2Proof.Machine
end

