-- ==== Sys2Proof/Machine/Requests.lean ====
section
/-! DEFINITION. Packets that reach the module: memory requests and launches (02, R41; 03, R63), snoop answers (04, R98, R389), responses of other modules (07, R191). -/

namespace Sys2Proof.Machine

/-- A request of an opcode arrives (02, Table 2.6). -/
def typedRequest (op : Nat) (via : Via) (p : Packet) (s : State) : Result := when (p.opcode == op) s (packetRequest s via p)

/-- A snoop answer of an opcode arrives (04, R389). -/
def typedAnswer (op : Nat) (via : Via) (p : Packet) (s : State) : Result := when (p.opcode == op) s (packetAnswer s via p)

/-- A response of an opcode arrives (07, R191). -/
def typedResponse (op : Nat) (via : Via) (p : Packet) (s : State) : Result := when (p.opcode == op) s (packetResponse s via p)

/-- READ (03, R66): its checks, and its place in a queue. -/
def execRead (via : Via) (p : Packet) (s : State) : Result := typedRequest Op.read via p s

/-- WRITE (03, R66): its checks, and its place in a queue. -/
def execWrite (via : Via) (p : Packet) (s : State) : Result := typedRequest Op.write via p s

/-- READ_NOALLOC (04, R96): its checks, and its place in a queue. -/
def execReadNoalloc (via : Via) (p : Packet) (s : State) : Result := typedRequest Op.readNoalloc via p s

/-- WRITE_NOALLOC (04, R96): its checks, and its place in a queue. -/
def execWriteNoalloc (via : Via) (p : Packet) (s : State) : Result := typedRequest Op.writeNoalloc via p s

/-- READ_SHARED (04, R99): its checks, and its place in a queue. -/
def execReadShared (via : Via) (p : Packet) (s : State) : Result := typedRequest Op.readShared via p s

/-- READ_OWN (04, R99): its checks, and its place in a queue. -/
def execReadOwn (via : Via) (p : Packet) (s : State) : Result := typedRequest Op.readOwn via p s

/-- UPGRADE (04, R105): its checks, and its place in a queue. -/
def execUpgrade (via : Via) (p : Packet) (s : State) : Result := typedRequest Op.upgrade via p s

/-- ZERO_LINE (03, R66): its checks, and its place in a queue. -/
def execZeroLine (via : Via) (p : Packet) (s : State) : Result := typedRequest Op.zeroLine via p s

/-- ATOMIC_ADD (03, R59): its checks, and its place in a queue. -/
def execAtomicAdd (via : Via) (p : Packet) (s : State) : Result := typedRequest Op.atomicAdd via p s

/-- ATOMIC_SWAP (03, R59): its checks, and its place in a queue. -/
def execAtomicSwap (via : Via) (p : Packet) (s : State) : Result := typedRequest Op.atomicSwap via p s

/-- ATOMIC_CAS (03, R59): its checks, and its place in a queue. -/
def execAtomicCas (via : Via) (p : Packet) (s : State) : Result := typedRequest Op.atomicCas via p s

/-- ATOMIC_AND (03, R59): its checks, and its place in a queue. -/
def execAtomicAnd (via : Via) (p : Packet) (s : State) : Result := typedRequest Op.atomicAnd via p s

/-- ATOMIC_OR (03, R59): its checks, and its place in a queue. -/
def execAtomicOr (via : Via) (p : Packet) (s : State) : Result := typedRequest Op.atomicOr via p s

/-- ATOMIC_XOR (03, R59): its checks, and its place in a queue. -/
def execAtomicXor (via : Via) (p : Packet) (s : State) : Result := typedRequest Op.atomicXor via p s

/-- ATOMIC_SMAX (03, R59): its checks, and its place in a queue. -/
def execAtomicSmax (via : Via) (p : Packet) (s : State) : Result := typedRequest Op.atomicSmax via p s

/-- ATOMIC_SMIN (03, R59): its checks, and its place in a queue. -/
def execAtomicSmin (via : Via) (p : Packet) (s : State) : Result := typedRequest Op.atomicSmin via p s

/-- WRITEBACK (04, R95): its checks, and its place in a queue. -/
def execWriteback (via : Via) (p : Packet) (s : State) : Result := typedRequest Op.writeback via p s

/-- EVICT_CLEAN (04, R104): its checks, and its place in a queue. -/
def execEvictClean (via : Via) (p : Packet) (s : State) : Result := typedRequest Op.evictClean via p s

/-- SPRAY_LAUNCH (07, R173): its checks, and its place in a queue. -/
def execSprayLaunch (via : Via) (p : Packet) (s : State) : Result := typedRequest Op.sprayLaunch via p s

/-- POOL_OP_LAUNCH (09, R232): its checks, and its place in a queue. -/
def execPoolOpLaunch (via : Via) (p : Packet) (s : State) : Result := typedRequest Op.poolOpLaunch via p s

/-- SNOOP_RESP (04, R98). -/
def execSnoopResp (via : Via) (p : Packet) (s : State) : Result := typedAnswer Op.snoopResp via p s

/-- SNOOP_RESP_DATA (04, R100). -/
def execSnoopRespData (via : Via) (p : Packet) (s : State) : Result := typedAnswer Op.snoopRespData via p s

/-- RESP (07, R191). -/
def execResp (via : Via) (p : Packet) (s : State) : Result := typedResponse Op.resp via p s

/-- RESP_DATA (07, R191). -/
def execRespData (via : Via) (p : Packet) (s : State) : Result := typedResponse Op.respData via p s

/-- COMPLETION (07, R191). -/
def execCompletion (via : Via) (p : Packet) (s : State) : Result := typedResponse Op.completion via p s

end Sys2Proof.Machine
end

