-- ==== Sys2Proof/Machine/HomeEvents.lean ====
section
/-! DEFINITION. What the home agents do by themselves (03, R85; 04, R93, R94, R107, R110 to R114): grants, inputs, completions, snoop timeouts, failure walks and release sweeps. -/

namespace Sys2Proof.Machine

/-! ### Grants, inputs, completions -/

/-- WFQ_GRANT (03, R85; 07, R188): the grant slot of a region takes one request; a launch passes to the dispatcher (04, R94). -/
def execWfqGrant (k : Nat) (s : State) : Result :=
  match pickGrant s k with
  | none => .next s
  | some (r, x) =>
    let s := grantReturn (modRegion s k (fun _ => x)) r
    if r.launch then .next (admitLaunch s k r) else .next (modRegion s k (fun y => { y with granted := y.granted ++ [r] }))

/-- A VC1 message enters the home agent: folded into the transaction it crosses, or at the head of its line's chain (04, R95, R103, R104). -/
def homeVc1 (s : State) (k : Nat) (r : Req) : State :=
  match fold? s r with
  | some (s, some q) => answerDone s k { req := q, ans := {} }
  | some (s, none) => s
  | none => homeEnter s k r true

/-- HOME_AGENT_INPUT (04, R94): one message from ingress grants, VC1 and VC3 by the rotating pointer; a message of VC1 waits while the 256 reserved entries are in use. -/
def execHomeAgentInput (k : Nat) (s : State) : Result :=
  let x := regionOf s k
  let has := fun i => if i = 0 then !x.granted.isEmpty else if i = 1 then !x.vc1.isEmpty && decide (reservedUsed s k < 256) else !x.vc3.isEmpty
  let turn := fun (i : Nat) (y : RegionSt) => { y with haPtr := (i + 1) % 3 }
  match rotate 3 x.haPtr has with
  | none => .next s
  | some 0 => (match x.granted with
    | r :: l => .next (homeEnter (modRegion s k (fun y => turn 0 { y with granted := l })) k r false)
    | [] => .next s)
  | some 1 => (match x.vc1 with
    | r :: l => .next (homeVc1 (modRegion s k (fun y => turn 1 { y with vc1 := l })) k r)
    | [] => .next s)
  | some _ => (match x.vc3 with
    | a :: l => .next (snoopAnswer (modRegion s k (fun y => turn 2 { y with vc3 := l })) k a)
    | [] => .next s)

/-- TRANSACTION_COMPLETE (04, R93): the active transaction of a line, all its snoops answered, completes; what it answers is answered, and the next of the chain becomes active. -/
def execTransactionComplete (line : Nat) (s : State) : Result :=
  match (lineOf s line).active with
  | none => .next s
  | some t =>
    let k := homeRegion s (line * 256)
    let x := completeLine s line
    when (transReady s line) s (advanceLine (x.1.foldl (fun s d => answerDone s k d) x.2) k line t)

/-- The snoop of a line's transaction to a slot. -/
def snoopTo (s : State) (line slot : Nat) : Option Snoop := (lineOf s line).active.bind (fun t => t.snoops.find? (fun x => x.slot == slot))

/-- SNOOP_TIMEOUT (04, R110): a snoop, or the WRITEBACK awaited for it, is still missing after the cycle in which its 2 ms expire. -/
def execSnoopTimeout (line slot : Nat) (s : State) : Result :=
  match snoopTo s line slot with
  | none => .next s
  | some x => when (x.st != .unsent && decide (x.sentAt + ms 2 < now s)) s (declareFailed s slot Cause.hostSnoopTimeout 1 (homeRegion s (line * 256)) [])

/-! ### Walks over the coherent window (04, R107, R112 to R114) -/

/-- The extent is coherent and holds window units (02, R42). -/
def Extent.holdsWindow (e : Extent) : Bool := e.coherent && (e.st == .granted || e.st == .revoking)

/-- Module offset of a window index (04, R89 read backward). -/
def windowOffset (s : State) (w : Nat) : Option (Nat × Nat) :=
  (s.extents.find? (fun e => e.2.holdsWindow && decide (e.2.dirBase ≤ w / 8192) && decide (w / 8192 < e.2.dirBase + e.2.size))).map
    (fun e => (e.1, e.2.base * 2 ^ 21 + (w - e.2.dirBase * 8192) * 256))

/-- The least window unit in use from one on. -/
def nextUnit (s : State) (u : Nat) : Option Nat :=
  s.extents.foldl (fun best e =>
    if e.2.holdsWindow && decide (u < e.2.dirBase + e.2.size) then
      let c := max u e.2.dirBase
      match best with | some b => some (min b c) | none => some c
    else best) none

/-- Entries of a window unit that name a slot. -/
def unitEntries (s : State) (u slot : Nat) : List (Nat × DirEntry) :=
  s.coh.dir.filter (fun e => e.1 / 8192 == u && (e.2.sharers.contains slot || (e.2.st == .lost && e.2.ownerSlot == slot)))

def walkOf (s : State) (slot : Nat) : Option Walk := s.coh.walks.find? (fun w => w.slot == slot)
def setWalk (s : State) (w : Walk) : State := { s with coh := { s.coh with walks := s.coh.walks.filter (fun x => x.slot != w.slot) ++ [w] } }
def delWalk (s : State) (slot : Nat) : State := { s with coh := { s.coh with walks := s.coh.walks.filter (fun x => x.slot != slot) } }

/-- The LOST buffer has room (04, R113). -/
def lostRoom (s : State) : Bool := decide (s.coh.lost.length < 1024)

/-- The open batch of a walk closes and joins the LOST buffer with the next number (04, R113).
DESIGN CHOICE, log entry 27: the TIMESTAMP of a last batch that holds no line is the timebase count at the closing. -/
def closeLost (s : State) (w : Walk) (last : Bool) : State :=
  let b : LostBatch := { entries := w.openLines, timestamp := if w.openLines.isEmpty then stamp s else w.openSince, seq := s.coh.lostSeq, source := w.source, slot := w.slot,
                         gen := w.gen, last := last, cause := w.cause }
  setWalk { s with coh := { s.coh with lost := s.coh.lost ++ [b], lostSeq := (s.coh.lostSeq + 1) % 2 ^ 32 } } { w with openLines := [] }

/-- A lost line joins a walk's open batch and is marked REPORTED; a full batch closes; false where the buffer has no room, and the line waits (04, R112, R113). -/
def reportLine (s : State) (w : Walk) (i offset : Nat) : Bool × State :=
  if w.openLines.length = 56 ∧ !lostRoom s then (false, s)
  else
    let s := if w.openLines.length = 56 then closeLost s w false else s
    let w := (walkOf s w.slot).getD w
    let w := { w with openSince := if w.openLines.isEmpty then tget s.coh.lostStamps i (stamp s) else w.openSince, openLines := w.openLines ++ [offset] }
    let s := setWalk (setDir s i { dirOf s i with reported := true }) w
    (true, if w.openLines.length = 56 ∧ lostRoom s then closeLost s w false else s)

/-- One entry under a failure walk: R111, and the report of a line lost. -/
def walkEntry (s : State) (slot i : Nat) : Bool × State :=
  let t := touchDir s i
  if t.1.st = .lost ∧ t.1.ownerSlot = slot ∧ !t.1.reported then
    match walkOf t.2 slot, windowOffset t.2 i with
    | some w, some (_, o) => reportLine t.2 w i o
    | _, _ => (true, t.2)
  else (true, t.2)

/-- FAILURE_WALK_STEP (04, R112): the walk of a failed slot takes the next window unit in use; it stalls while the LOST buffer is full. -/
def execFailureWalkStep (slot : Nat) (s : State) : Result :=
  match walkOf s slot with
  | none => .next s
  | some w =>
    if !w.failure then .next s
    else match nextUnit s w.next with
    | none => .next s
    | some u =>
      let x := (unitEntries s u slot).foldl (fun (acc : Bool × State) e => if acc.1 then walkEntry acc.2 slot e.1 else acc) (true, s)
      if x.1 then
        match walkOf x.2 slot with
        | some w => .next (setWalk x.2 { w with next := u + 1 })
        | none => .next x.2
      else .next x.2

/-- Answer the orders that waited for a walk. -/
def answerWalk (s : State) (w : Walk) : State := w.waits.foldl (fun s h => finish s h.1 h.2 Sts.success) s

/-- FAILURE_WALK_DONE (04, R112, R113): no unit is left; the last batch closes with LAST, and the orders are answered. A slot under release is freed; slot 0 is BOUND again where Darinlink has trained (R109).
DESIGN CHOICE, log entry 27: slot 0 failed by a snoop timeout while Darinlink stayed up is BOUND again as soon as the walk ends, without a new training. -/
def execFailureWalkDone (slot : Nat) (s : State) : Result :=
  match walkOf s slot with
  | none => .next s
  | some w =>
    let s1 := delWalk (closeLost s w true) slot
    let s1 := if w.thenFree then setSlot s1 slot { slotOf s1 slot with st := .free } else s1
    let s1 := if slot = 0 ∧ s1.link.dl.st = .active then setSlot s1 0 { slotOf s1 0 with st := .bound } else s1
    when (w.failure && (nextUnit s w.next).isNone && lostRoom s) s (answerWalk s1 w)

/-- The sweep's turn on a line: ordered through the home agent as other work on the line is (04, R107). -/
def sweepReq (s : State) (slot offset ext : Nat) : Req :=
  { origin := .sweep slot, op := 0, offset := offset, ext := ext, tenant := (extentOf s ext).tenant, counted := false }

/-- One entry under a release sweep: a shared bit goes, a line held as owner is recalled (04, R107). -/
def sweepEntry (s : State) (slot i : Nat) : State :=
  match windowOffset s i with
  | none => s
  | some (n, o) =>
    let x := touchDir s i
    let s := x.2
    if x.1.st = .s ∧ (lineOf s (o / 256)).active.isNone then setDir s i (dropHolder x.1 slot)
    else homeEnter s (homeRegion s o) (sweepReq s slot o n) false

/-- RELEASE_SWEEP_STEP (04, R107): the sweep of a releasing slot takes the next window unit in use. -/
def execReleaseSweepStep (slot : Nat) (s : State) : Result :=
  match walkOf s slot with
  | none => .next s
  | some w =>
    if w.failure then .next s
    else match nextUnit s w.next with
    | none => .next s
    | some u =>
      .next ((unitEntries s u slot).foldl (fun s e => if (dirOf s e.1).sharers.contains slot then sweepEntry s slot e.1 else s) (setWalk s { w with next := u + 1 }))

/-- A recall of the sweep is still under way. -/
def sweepRuns (s : State) (slot : Nat) : Bool :=
  s.coh.lines.any (fun l => (l.2.chain ++ (l.2.active.map (·.req)).toList).any (fun r => r.origin == Origin.sweep slot))

/-- RELEASE_SWEEP_DONE (04, R107): HELD_COUNT is zero or the walk is complete; the slot is FREE and the reply is sent. -/
def execReleaseSweepDone (slot : Nat) (s : State) : Result :=
  match walkOf s slot with
  | none => .next s
  | some w =>
    when (!w.failure && (heldCount s slot == 0 || ((nextUnit s w.next).isNone && !sweepRuns s slot))) s
      (answerWalk (setSlot (delWalk s slot) slot { slotOf s slot with st := .free }) w)

end Sys2Proof.Machine
end

