-- ==== Sys2Proof/Machine/Commit.lean ====
section
/-! DEFINITION. Orders that take effect at a tick (02, R43; 03, R86; 07, R192, R200; 13, R338, R339, R386): their refusals and their effects. -/

namespace Sys2Proof.Machine

/-! ### Extents (02, Table 2.8) -/

/-- The limit of offsets and units, 458,752 (02, R36, R39). -/
def granules : Nat := 458752

/-- An access range entry an order may write (02, Table 2.2, R37). -/
def rangeOk (a : BitVec 32) : Bool :=
  let n := a.toNat
  if bit n 31 then decide (bits n 11 0 ≤ bits n 23 12) && !(bit n 30 && !bit n 28) && bits n 27 24 == 0 else n == 0

/-- Some enabled range carries COHERENT, so that COHERENT_EXT is 1 (02, Table 2.1). -/
def accessCoherent (l : List (BitVec 32)) : Bool := l.any (fun a => bit a.toNat 31 && bit a.toNat 30)
def accessWrites (l : List (BitVec 32)) : Bool := l.any (fun a => bit a.toNat 31 && bit a.toNat 29)

/-- The fields of a GRANT are encodings of Tables 2.1, 2.2 and 2.4. -/
def grantFieldsOk (r : Extent) (measured : Nat) : Bool :=
  decide (r.kind ≤ 2) && decide (1 ≤ r.size) && decide (r.size ≤ granules) && decide (r.base + r.size ≤ granules) &&
  decide (r.physBase + extentUnits r ≤ granules) && decide (r.target < (if r.kind = 0 then 1 else if r.kind = 1 then 4 else 16)) && r.access.all rangeOk &&
  r.access.length == 8 && decide (measured ≤ 1)

/-- Two ranges of units meet. -/
def runsMeet (a n b m : Nat) : Bool := decide (a < b + m) && decide (b < a + n)

/-- A held extent shares offsets with a record (02, R36), or units of a logical stack (02, R39). -/
def offsetsHeld (s : State) (r : Extent) : Bool := s.extents.any (fun e => e.2.st != .free && runsMeet e.2.base e.2.size r.base r.size)
def unitsHeld (s : State) (r : Extent) : Bool :=
  s.extents.any (fun e => e.2.st != .free && (List.range 16).any (fun l => placed e.2 l && placed r l) &&
    runsMeet e.2.physBase (extentUnits e.2) r.physBase (extentUnits r))

/-- The lowest window unit at which a run of a size fits (02, R42). -/
def findWindow (s : State) (size : Nat) : Option Nat :=
  let held := s.extents.filter (fun e => e.2.holdsWindow)
  let ok := fun b => decide (b + size ≤ 32768) && held.all (fun e => !runsMeet e.2.dirBase e.2.size b size)
  ((0 :: held.map (fun e => e.2.dirBase + e.2.size)).filter ok).foldl (fun best b => match best with | some c => some (min b c) | none => some b) none

/-- A tenant that orders may name: it exists and is not under removal (13, R339). -/
def tenantLive (s : State) (t : Nat) : Bool := match tenantOf? s t with | some x => !x.removing | none => false

/-- Refusals of GRANT (02, Table 2.8). -/
def grantRefusals (s : State) (ext : Nat) (r : Extent) : List (Bool × Nat) :=
  [((extentOf s ext).st != .free, Sts.extentState), (!tenantLive s r.tenant, Sts.tenantUnknown), (offsetsHeld s r, Sts.overlap),
   (unitsHeld s r, Sts.physOverlap), ((List.range 16).any (fun l => placed r l && stackLost s l), Sts.placementUnavailable),
   (accessCoherent r.access && (findWindow s r.size).isNone, Sts.coherentWindowFull)]

/-- Rights that sources hold through COHERENT ranges (02, R44). -/
def coherentRights (l : List (BitVec 32)) (source : Nat) : Nat := rightsOf l (fun a => bit a.toNat 30) source

/-- Some source would lose a right held through COHERENT ranges (02, R44). -/
def losesCoherent (old new : List (BitVec 32)) : Bool :=
  (List.range 4096).any (fun h => coherentRights old h &&& coherentRights new h != coherentRights old h)

/-- Refusals of ACCESS_SET (02, Table 2.8). -/
def accessSetRefusals (s : State) (ext generation : Nat) (access : List (BitVec 32)) (measured : Nat) : List (Bool × Nat) :=
  let e := extentOf s ext
  [(!(access.all rangeOk && access.length == 8 && decide (measured ≤ 1)), Sts.badField), (e.st != .granted, Sts.extentState),
   (e.generation != generation, Sts.staleGeneration), (e.coherent && losesCoherent e.access access, Sts.coherentChange),
   (!e.coherent && accessCoherent access && (findWindow s e.size).isNone, Sts.coherentWindowFull)]

/-- Refusals of REVOKE (02, Table 2.8). -/
def revokeRefusals (s : State) (ext generation : Nat) : List (Bool × Nat) :=
  [((extentOf s ext).st != .granted, Sts.extentState), ((extentOf s ext).generation != generation, Sts.staleGeneration)]

/-- The measurement entries of an extent change (13, R342). -/
def modMeasured (s : State) (ext : Nat) (f : Measured → Measured) : State :=
  { s with hub := { s.hub with measured := s.hub.measured.map (fun m => m.map (fun x => if x.ext = ext then f x else x)) } }

/-- GRANT takes effect: FREE to GRANTED under the next generation (02, R35, Table 2.9). -/
def applyGrant (s : State) (h : OrderHdr) (ext : Nat) (r : Extent) : State :=
  let gen := ((extentOf s ext).generation + 1) % 256
  let coh := accessCoherent r.access
  let e := { r with st := .granted, generation := gen, grantStamp := stamp s, coherent := coh, dirBase := if coh then (findWindow s r.size).getD 0 else 0 }
  finish (setExtent s ext e) h Ord.grant Sts.success [BitVec.ofNat 8 gen]

/-- ACCESS_SET takes effect (02, R44; 13, R342). -/
def applyAccessSet (s : State) (h : OrderHdr) (ext : Nat) (access : List (BitVec 32)) (measured : Nat) : State :=
  let e := extentOf s ext
  let coh := e.coherent || accessCoherent access
  let base := if e.coherent then e.dirBase else if coh then (findWindow s e.size).getD 0 else 0
  let s := setExtent s ext { e with access := access, measured := measured == 1, coherent := coh, dirBase := base }
  let opens := accessWrites access
  let s := modMeasured s ext (fun x => { x with writeOpen := x.writeOpen || opens, valid := x.valid && measured == 1 })
  let s := { s with eng := { s.eng with sprays := s.eng.sprays.map (fun p =>
    (p.1, if p.2.pool && dKind p.2.desc == PoolKind.digest && dExt p.2.desc == ext then { p.2 with writeOpen := p.2.writeOpen || opens } else p.2)) } }
  finish s h Ord.accessSet Sts.success

/-- An extent leaves GRANTED for REVOKING (02, Table 2.10, step 3; 13, R342). -/
def beginRevoke (s : State) (ext : Nat) (waits : RevokeFor) : State :=
  let s := modMeasured (modExtent s ext (fun e => { e with st := .revoking })) ext (fun x => { x with valid := false })
  { s with revokes := s.revokes ++ [{ ext := ext, waits := waits }] }

/-! ### Host records (03, R86) -/

/-- Buckets of a record at the tick of its HOST_SHAPE or at any other (03, R80, R86, R87). -/
def refillBucket (old new : HostRec) (b : Bucket) : Bucket :=
  if new.weight = 0 then { b with tc := 0, tp := 0, tcSample := 0 }
  else if old.weight = 0 then { b with tc := new.cbs * 16, tp := new.pbs * 16, tcSample := new.cbs * 16 }
  else
    let tc := min (new.cbs * 16) (b.tc + new.cir)
    { b with tc := tc, tp := min (new.pbs * 16) (b.tp + new.pir), tcSample := tc }

/-- Buckets of a record whose HOST_SHAPE orders, in order of arrival, take effect at one tick: one refill, under the last; a record that one of them leaves unconfigured and a later one configures starts full (03, R86, R87). -/
def shapeBucket (old : HostRec) (news : List HostRec) (b : Bucket) : Bucket :=
  let new := news.getLast?.getD old
  refillBucket (if news.any (fun r => r.weight == 0) then {} else old) new b

/-! ### Tenants and keys (13, R337 to R339) -/

/-- The key-wrap key of the master that sent an order, as it stands when the order comes (13, Table 13.5, R344). -/
def wrapKey (s : State) (h : OrderHdr) : Key :=
  match senderMaster s h with
  | some m => ((tget? s.hub.mgmtKeys m).map (·.wrap)).getD 0
  | none => 0

/-- The module's own remote requests under an epoch of a tenant that are not yet answered (13, R338). -/
def remoteCount (s : State) (t epoch : Nat) : Nat :=
  (s.eng.accesses.filter (fun a => a.2.epoch == some epoch && (match a.2.st with | .remote _ _ => true | _ => false) &&
    (match tileOf? s a.2.tile with | some ti => (sprayOf? s ti.spray).map (·.tenant) == some t | none => false))).length

/-- Refusals of TENANT_CREATE, ROTATE_KEY, RETIRE_KEY and TENANT_REMOVE (13, Table 13.6). -/
def tenantCreateRefusals (s : State) (kek : Key) (t : Nat) (w : BitVec 320) : List (Bool × Nat) :=
  [((tenantOf? s t).isSome, Sts.tenantState), ((unwrapKey kek w).isNone, Sts.keyUnwrapFailed), (decide (0x3FF < t), Sts.badField)]
def tenantState (s : State) (t : Nat) : List (Bool × Nat) :=
  [((tenantOf? s t).isNone, Sts.tenantUnknown), (!tenantLive s t, Sts.tenantState)]
def previousHeld (s : State) (t : Nat) : Bool := match tenantOf? s t with | some x => x.previous.isSome | none => false
def rotateRefusals (s : State) (kek : Key) (t : Nat) (w : BitVec 320) : List (Bool × Nat) :=
  tenantState s t ++ [(previousHeld s t, Sts.previousKeyHeld), ((unwrapKey kek w).isNone, Sts.keyUnwrapFailed)]
def retireRefusals (s : State) (t epoch force : Nat) : List (Bool × Nat) :=
  tenantState s t ++ [(!(previousHeld s t && epoch + 1 == ((tenantOf? s t).map (·.epoch)).getD 0) || decide (1 < force), Sts.badField),
    (force == 0 && epochCount s t epoch + remoteCount s t epoch != 0, Sts.keyInFlight)]

/-- Every request held in the module, changed. -/
def mapReqs (s : State) (f : Req → Req) : State :=
  { s with coh := { s.coh with
      regions := s.coh.regions.map (fun x => (x.1, { x.2 with
        ingressQ := x.2.ingressQ.map f
        engineQ := x.2.engineQ.map f
        engineHeld := x.2.engineHeld.map f
        darinQ := x.2.darinQ.map f
        granted := x.2.granted.map f
        vc1 := x.2.vc1.map f }))
      lines := s.coh.lines.map (fun l => (l.1, { l.2 with
        chain := l.2.chain.map f
        active := l.2.active.map (fun t => { t with req := f t.req, foldedReqs := t.foldedReqs.map f }) })) } }

/-- Every request held in the module, with the region that holds it. -/
def heldReqs (s : State) : List (Nat × Req) :=
  s.coh.regions.flatMap (fun x => (queued x.2 ++ x.2.engineHeld ++ x.2.granted ++ x.2.vc1).map (fun r => (x.1, r))) ++
  s.coh.lines.flatMap (fun l => (l.2.chain ++ (match l.2.active with | some t => t.req :: t.foldedReqs | none => [])).map (fun r => (homeRegion s (l.1 * 256), r)))

/-- A forced retirement: what is in flight under an epoch is answered KEY_RETIRED at once, the module's own remote requests fail (03, R74; 13, R338).
DESIGN CHOICE, log entry 27: the module's own snoops under the epoch stay outstanding and counted, as they are. -/
def forceRetire (s : State) (t epoch : Nat) : State :=
  let hit := fun (r : Req) => r.tenant == t && r.epoch == some epoch
  let s := (heldReqs s).foldl (fun s x =>
    if hit x.2 then
      match x.2.origin with
      | .packet via p => epochSub (if x.2.answered then s else respond s x.1 via p { status := Sts.keyRetired, launch := x.2.launch }) t (some epoch)
      | _ => s
    else s) s
  let s := mapReqs s (fun r => if hit r then { r with answered := true, epoch := none } else r)
  let s := s.eng.sprays.foldl (fun s x =>
    if x.2.tenant == t && x.2.epoch == some epoch then
      epochSub (modSpray (if x.2.answered then s else respond s x.2.region x.2.via x.2.pkt { status := Sts.keyRetired, launch := true }) x.1
        (fun p => { p with answered := true, epoch := none })) t (some epoch)
    else s) s
  s.eng.accesses.foldl (fun s x =>
    let mine := match tileOf? s x.2.tile with | some ti => ((sprayOf? s ti.spray).map (·.tenant)) == some t | none => false
    if x.2.epoch == some epoch && mine then
      failAccess (closeForwards s (fun f => f.access == x.1)) x.1 { status := Sts.memKeyRetired, detail := Sts.keyRetired, pva := x.2.pva }
    else s) s

/-- TENANT_REMOVE takes effect: its granted extents leave GRANTED, its launches are cancelled (13, R339, steps 1 and 2). -/
def applyRemove (s : State) (h : OrderHdr) (t : Nat) : State :=
  let s := modTenant s t (fun x => { x with removing := true })
  let s := (s.extents.filter (fun e => e.2.st == .granted && e.2.tenant == t)).foldl (fun s e => beginRevoke s e.1 (.removal t)) s
  let s := (s.eng.sprays.filter (fun p => p.2.tenant == t)).foldl (fun s p => cancelSpray s p.1) s
  { s with hub := { s.hub with removals := s.hub.removals ++ [{ tenant := t, order := h, step := 2 }] } }

/-! ### Address spaces (07, R192, R200, R204, Table 7.13) -/

def asidLive (s : State) (a : Nat) : Bool := match tget? s.eng.asids a with | some x => !x.destroying | none => false

/-- Bytes of a table: the root, levels 3 and 2, level 1 (01, Table 1.3). -/
def tableBytes (level : Nat) : Nat := if level = 4 then 2097152 else if level = 1 then 256 else 4096

/-- Bytes of the table area in use, of 16 GiB (07, R192). -/
def tableSpace (s : State) : Nat := (s.eng.asids.map (fun a => tableBytes 4 + (a.2.tables.map (fun t => tableBytes t.1)).sum)).sum

/-- Tables a leaf of a level at a unit needs below the root: level and the PVA bits above it. -/
def tablesFor (level u : Nat) : List (Nat × Nat) :=
  [(3, u / 8388608)] ++ (if level ≤ 2 then [(2, u / 16384)] else []) ++ (if level = 1 then [(1, u / 32)] else [])

/-- Units of a MAP_RANGE's leaves. -/
def mapUnits (pva pageSize count : Nat) : List Nat := (List.range count).map (fun i => pva / 65536 + i * levelUnits (pageSize + 1))

/-- Tables a MAP_RANGE adds. -/
def newTables (a : AddrSpace) (pva pageSize count : Nat) : List (Nat × Nat) :=
  (((mapUnits pva pageSize count).flatMap (tablesFor (pageSize + 1))).eraseDups).filter (fun t => !a.tables.contains t)

/-- The entry a leaf of a level would take at a unit is valid: a leaf above or below covers it, or a lower table hangs there. -/
def entryTaken (a : AddrSpace) (level u : Nat) : Bool :=
  (leafAt a u).isSome || (decide (2 ≤ level) && a.tables.contains (level - 1, u / levelUnits level))

/-- Fields of MAP_RANGE (07, Table 7.13). -/
def mapFieldsOk (pva ppa pageSize count rights : Nat) : Bool :=
  let b := levelUnits (pageSize + 1) * 65536
  decide (pageSize ≤ 2) && pva % b == 0 && ppa % b == 0 && decide (1 ≤ count) && decide (count ≤ 4096) && decide (rights ≤ 3) &&
  decide (pva + count * b ≤ 2 ^ 57) && decide (ppa + count * b ≤ 2 ^ 52)

def spaceOf (s : State) (a : Nat) : AddrSpace := tget s.eng.asids a { tenant := 0 }
def setSpace (s : State) (a : Nat) (x : AddrSpace) : State := { s with eng := { s.eng with asids := tset s.eng.asids a x } }

def mapRefusals (s : State) (a pva ppa pageSize count rights : Nat) : List (Bool × Nat) :=
  let x := spaceOf s a
  [(!asidLive s a, Sts.asidUnknown), (!mapFieldsOk pva ppa pageSize count rights, Sts.badField),
   (decide (count ≤ 4096) && (mapUnits pva pageSize count).any (entryTaken x (pageSize + 1)), Sts.mapped),
   (decide (2 ^ 34 < tableSpace s + ((newTables x pva pageSize (min 4096 count)).map (fun t => tableBytes t.1)).sum), Sts.tableSpaceFull)]

/-- A range of 64 KiB units of the PVA space. -/
def rangeFieldsOk (pva size : Nat) : Bool := pva % 65536 == 0 && decide (1 ≤ size) && decide (pva + size * 65536 ≤ 2 ^ 57)

/-- Leaves that meet a range of units. -/
def leafMeets (first size : Nat) (e : Nat × Leaf) : Bool := runsMeet e.1 (levelUnits e.2.level) first size
/-- A range covers only part of a leaf of 2 MiB or 1 GiB (07, R204). -/
def leafCut (a : AddrSpace) (first size : Nat) : Bool :=
  a.leaves.any (fun e => leafMeets first size e && !(decide (first ≤ e.1) && decide (e.1 + levelUnits e.2.level ≤ first + size)))

/-- Refusals of UNMAP_RANGE and PROTECT_RANGE. -/
def rangeRefusals (s : State) (a pva size : Nat) (fieldsOk : Bool) : List (Bool × Nat) :=
  [(!asidLive s a, Sts.asidUnknown), (!(fieldsOk && rangeFieldsOk pva size) || leafCut (spaceOf s a) (pva / 65536) size, Sts.badField)]

/-- Refusals of INVALIDATE_RANGE. -/
def invalidateRefusals (s : State) (a pva size : Nat) : List (Bool × Nat) :=
  [(a != 0 && !asidLive s a, Sts.asidUnknown), (!rangeFieldsOk pva size, Sts.badField)]

def asidCreateRefusals (s : State) (a tenant : Nat) : List (Bool × Nat) :=
  [((tget? s.eng.asids a).isSome, Sts.asidExists), (!tenantLive s tenant, Sts.tenantUnknown),
   (decide (4096 ≤ s.eng.asids.length) || decide (2 ^ 34 < tableSpace s + tableBytes 4), Sts.tableSpaceFull)]

/-- An active launch names the address space. -/
def asidUsed (s : State) (a : Nat) : Bool :=
  s.eng.sprays.any (fun p => p.2.asid == a && !(p.2.pool && dKind p.2.desc == PoolKind.digest))

def asidDestroyRefusals (s : State) (a : Nat) : List (Bool × Nat) := [(!asidLive s a, Sts.asidUnknown), (asidUsed s a, Sts.asidInUse)]

/-- An invalidation begins: cached translations are dropped, and tiles translated before and not yet answered hold it up (07, R200). -/
def beginInval (s : State) (a pva size : Nat) (waits : Option OrderHdr) (destroy : Bool) : State :=
  let id := s.eng.nextInval
  let first := pva / 65536
  let hit := fun (x : Nat) => a == 0 || x == a
  let tlb := s.eng.tlb.map (fun e => (e.1, e.2.filter (fun c => !(hit c.asid && runsMeet c.page (levelUnits c.leaf.level) first size))))
  let dropped := fun (e : Nat) => ((tget s.eng.tlb e []).filter (fun c => hit c.asid && runsMeet c.page (levelUnits c.leaf.level) first size)).map
    (fun c => (c.asid, c.page, levelUnits c.leaf.level))
  let tiles := s.eng.tiles.map (fun t =>
    if !t.2.direct && !t.2.waitsOnFault && hit t.2.asid then
      (t.1, { t.2 with stale := t.2.stale ++ (id, first, size) :: ((dropped t.2.engine).filter (fun c => c.1 == t.2.asid)).map (fun c => (id, c.2)) })
    else t)
  let walkers := s.eng.walkers.map (fun w => (w.1, w.2.filter (fun c => !(hit c.1 && runsMeet c.2.2 (upperUnits c.2.1) first size))))
  { s with eng := { s.eng with
      tlb := tlb
      walkers := walkers
      tiles := tiles
      nextInval := id + 1
      invals := s.eng.invals ++ [{ id := id, asid := a, pva := pva, size := size, waits := waits, destroy := destroy }] } }

/-- MAP_RANGE writes its leaves. -/
def applyMap (s : State) (a pva ppa pageSize count rights : Nat) : State :=
  let x := spaceOf s a
  let lv := pageSize + 1
  let leaves := (List.range count).foldl (fun t i =>
    tset t (pva / 65536 + i * levelUnits lv)
      { level := lv, frame := ppa / 65536 + i * levelUnits lv, read := bit rights 0, write := bit rights 1 }) x.leaves
  setSpace s a { x with leaves := leaves, tables := x.tables ++ newTables x pva pageSize count }

/-- UNMAP_RANGE clears the leaves of a range; PROTECT_RANGE rewrites their rights. -/
def applyUnmap (s : State) (a pva size : Nat) : State :=
  let x := spaceOf s a
  setSpace s a { x with leaves := x.leaves.filter (fun e => !leafMeets (pva / 65536) size e) }
def applyProtect (s : State) (a pva size rights : Nat) : State :=
  let x := spaceOf s a
  setSpace s a { x with leaves := x.leaves.map (fun e =>
    if leafMeets (pva / 65536) size e then (e.1, { e.2 with read := bit rights 0, write := bit rights 1 }) else e) }

/-- ASID_DESTROY frees the tables and invalidates the space (07, Table 7.13). -/
def applyDestroy (s : State) (a : Nat) (waits : Option OrderHdr) : State :=
  beginInval (setSpace s a { spaceOf s a with leaves := [], tables := [], destroying := true }) a 0 (2 ^ 41) waits true

/-! ### One prepared order at its tick -/

/-- Refuse an accepted order at its commit tick, or let it take effect. -/
def atTick (s : State) (h : OrderHdr) (code : Nat) (refusals : List (Bool × Nat)) (act : State) : State :=
  match firstRefusal refusals with
  | some st => finish s h code st
  | none => act

/-- An order takes effect at its tick (02, R43; 13, R386); those of the refill tick are applied there. -/
def applyPrepared (s : State) (p : Prepared) : State :=
  match p with
  | .grant h ext r => atTick s h Ord.grant (grantRefusals s ext r) (applyGrant s h ext r)
  | .accessSet h ext g access m => atTick s h Ord.accessSet (accessSetRefusals s ext g access m) (applyAccessSet s h ext access m)
  | .revoke h ext g => atTick s h Ord.revoke (revokeRefusals s ext g) (beginRevoke s ext (.order h))
  | .tenantCreate h t w kek => atTick s h Ord.tenantCreate (tenantCreateRefusals s kek t w)
      (finish { s with hub := { s.hub with tenants := tset s.hub.tenants t { key := (unwrapKey kek w).getD 0 } } } h Ord.tenantCreate Sts.success)
  | .rotateKey h t w kek => atTick s h Ord.rotateKey (rotateRefusals s kek t w)
      (let e := (((tenantOf? s t).map (·.epoch)).getD 0 + 1) % 2 ^ 32
       finish (modTenant s t (fun x => { x with epoch := e, previous := some x.key, key := (unwrapKey kek w).getD 0 })) h Ord.rotateKey Sts.success (leBytes 4 e))
  | .retireKey h t e f => atTick s h Ord.retireKey (retireRefusals s t e f)
      (finish (modTenant (if f = 1 then forceRetire s t e else s) t (fun x => { x with previous := none })) h Ord.retireKey Sts.success)
  | .tenantRemove h t => atTick s h Ord.tenantRemove (tenantState s t) (applyRemove s h t)
  | .mapRange h a pva ppa ps c r => atTick s h Ord.mapRange (mapRefusals s a pva ppa ps c r) (finish (applyMap s a pva ppa ps c r) h Ord.mapRange Sts.success)
  | .unmapRange h a pva n => atTick s h Ord.unmapRange (rangeRefusals s a pva n true) (finish (applyUnmap s a pva n) h Ord.unmapRange Sts.success)
  | .protectRange h a pva n r => atTick s h Ord.protectRange (rangeRefusals s a pva n (decide (r ≤ 3))) (finish (applyProtect s a pva n r) h Ord.protectRange Sts.success)
  | .asidCreate h a t => atTick s h Ord.asidCreate (asidCreateRefusals s a t) (finish (setSpace s a { tenant := t }) h Ord.asidCreate Sts.success)
  | .asidDestroy h a => atTick s h Ord.asidDestroy (asidDestroyRefusals s a) (applyDestroy s a (some h))
  | .invalidate h a pva n => atTick s h Ord.invalidateRange (invalidateRefusals s a pva n) (beginInval s a pva n (some h) false)
  | .hostShape h n r => finish { s with coh := { s.coh with hosts := tset s.coh.hosts n r } } h Ord.hostShape Sts.success
  | .idlePolicy h v => finish { s with mem := { s.mem with idleMs := v } } h Ord.memIdlePolicy Sts.success
  | .faultPolicy h v => finish { s with eng := { s.eng with timeouts := (now s, v) :: s.eng.timeouts } } h Ord.faultPolicy Sts.success

/-- The orders that take effect at the refill tick itself (03, R86; 05, R136; 07, R199). -/
def Prepared.atRefill : Prepared → Bool
  | .hostShape _ _ _ => true
  | .idlePolicy _ _ => true
  | .faultPolicy _ _ => true
  | _ => false

/-! ### Removal of a tenant (13, R339, steps 4 to 7) -/

/-- The drain and recall of every extent of a tenant under removal are done. -/
def recalled (s : State) (ext : Nat) : Bool :=
  let e := extentOf s ext
  let mine := fun (r : Req) => r.origin == Origin.recallFor ext
  e.inFlight == 0 && s.revokes.any (fun r => r.ext == ext && r.recalling) &&
  s.coh.lines.all (fun l => !((l.2.chain ++ (l.2.active.map (·.req)).toList).any mine))

/-- Nothing of a tenant is in flight any longer: no launch, no request under an epoch, every extent under its removal recalled. -/
def tenantQuiet (s : State) (t : Nat) : Bool :=
  s.eng.sprays.all (fun p => p.2.tenant != t) && (match tenantOf? s t with | some x => x.inFlight.all (fun e => e.2 == 0) | none => true) &&
  s.revokes.all (fun r => (extentOf s r.ext).tenant != t || recalled s r.ext)

/-- Both keys of a tenant under removal are erased once nothing is in flight (13, R339, step 4). -/
def eraseKeys (s : State) (t : Nat) : State := modTenant s t (fun x => { x with keysErased := true, key := 0, previous := none })

/-- The removal goes on as far as it can (13, R339, steps 4, 6 and 7). -/
def advanceRemoval (s : State) (r : Removal) : State :=
  let t := r.tenant
  let s := if tenantQuiet s t then eraseKeys s t else s
  let erased := match tenantOf? s t with | some x => x.keysErased | none => true
  if !erased || s.extents.any (fun e => e.2.st == .revoking && e.2.tenant == t) then s
  else
    let mine := s.eng.asids.filter (fun a => a.2.tenant == t)
    let s := (mine.filter (fun a => !a.2.destroying)).foldl (fun s a => applyDestroy s a.1 none) s
    if !mine.isEmpty then s
    else
      let s := { s with eng := { s.eng with accords := s.eng.accords.filter (fun a => a.2.tenant != t) } }
      let s := { s with hub := { s.hub with tenants := tdel s.hub.tenants t, removals := s.hub.removals.filter (fun x => x.tenant != t) } }
      finish s r.order Ord.tenantRemove Sts.success

def advanceRemovals (s : State) : State := s.hub.removals.foldl advanceRemoval s

end Sys2Proof.Machine
end

