-- ==== Sys2Proof/Machine/Ticks.lean ====
section
/-! DEFINITION. The 1 µs ticks (02, R43; 03, R80, R86; 11, R305) and the end of an extent (02, Table 2.10). -/

namespace Sys2Proof.Machine

/-- A 1 µs tick of the timebase that has not been carried out (03, R80). -/
def tickDue (s : State) (last : Option Nat) : Bool := s.time.timebaseOn && stamp s % 250 == 0 && last != some (stamp s)

/-- Refill the records of a region, each under the values that this tick's HOST_SHAPE orders give it, and sample the sillage inputs (03, R77, R80, R86, R87). -/
def refillRegion (s : State) (shapes : List (Nat × HostRec)) (k : Nat) : State :=
  let hosts := shapes.foldl (fun t x => tset t x.1 (tget s.coh.hosts x.1 {})) s.coh.hosts
  modRegion s k (fun x => { x with
    buckets := hosts.foldl (fun t h => tmod t h.1 {} (shapeBucket h.2 ((shapes.filter (fun y => y.1 == h.1)).map Prod.snd))) x.buckets
    sillageQ := x.ingressQ.length })

/-- The prepared orders that a tick may let take effect: none while the spare management pair takes over, which answers them (12, R322). -/
def preparedFor (s : State) (pick : Prepared → Bool) : List Prepared := if s.fault.takeover then [] else s.hub.prepared.filter pick

/-- What a refill tick does (03, R80, R86; 05, R136; 07, R199; 11, R302, R305): buckets refill, orders of this tick take effect, DL_CREDIT_INIT is sent again in step 5 of a Darinlink training, the status window is sampled. -/
def refillTick (s : State) : State :=
  let now_ := preparedFor s Prepared.atRefill
  let shapes := now_.filterMap (fun p => match p with | .hostShape _ h r => some (h, r) | _ => none)
  let s1 := [0, 1, 2, 3].foldl (fun s k => refillRegion s shapes k) s
  let s1 := { s1 with hub := { s1.hub with prepared := s1.hub.prepared.filter (fun p => s.fault.takeover || !p.atRefill) }, time := { s1.time with refilled := some (stamp s) } }
  let s1 := now_.foldl applyPrepared s1
  let s1 := repeatCreditInit s1
  { s1 with hub := { s1.hub with window := statusWindow s1 } }

/-- COMMIT_TICK (02, R43; 13, R386): the prepared orders take effect in order of arrival; removals of tenants go on. -/
def execCommitTick (s : State) : Result :=
  let now_ := preparedFor s (fun p => !p.atRefill)
  let s1 := { s with hub := { s.hub with prepared := s.hub.prepared.filter (fun p => s.fault.takeover || p.atRefill) }, time := { s.time with committed := some (stamp s) } }
  when (tickDue s s.time.committed) s (advanceRemovals (now_.foldl applyPrepared s1))

/-! ### REVOKE (02, Table 2.10) -/

/-- A lost line of an extent under recall is first reported to the owner; false where the LOST buffer has no room (04, R114). -/
def reportRecalled (s : State) (w : Nat) : Bool × State :=
  let t := touchDir s w
  if t.1.st = .lost ∧ !t.1.reported then
    match walkOf t.2 t.1.ownerSlot, windowOffset t.2 w with
    | some x, some (_, o) => reportLine t.2 x w o
    | _, _ => (true, t.2)
  else (true, t.2)

/-- The recall of one entry: a lost line becomes I, a line that a slot holds is recalled through its home agent (02, Table 2.10, step 5; 04, R114). -/
def recallEntry (s : State) (ext w : Nat) : State :=
  if (dirOf s w).st = .lost then setDir s w {}
  else match windowOffset s w with
    | some (_, o) =>
      homeEnter s (homeRegion s o) { origin := .recallFor ext, op := 0, offset := o, ext := ext, tenant := (extentOf s ext).tenant, counted := false } false
    | none => s

/-- REVOKE_DRAIN_DONE (02, R47, Table 2.10, steps 4 and 5): IN_FLIGHT is 0; buffered writes commit, and the recall of a coherent extent begins. -/
def execRevokeDrainDone (ext : Nat) (s : State) : Result :=
  let e := extentOf s ext
  let s1 := (s.mem.sab.filter (fun x => x.ext == ext)).foldl commitEntry s
  let ws := if e.coherent then extentEntries s1 e else []
  let x := ws.foldl (fun (acc : Bool × State) w => if acc.1 then reportRecalled acc.2 w else acc) (true, s1)
  let s2 := { ws.foldl (fun s w => recallEntry s ext w) x.2 with
    revokes := s.revokes.map (fun r => if r.ext = ext then { r with recalling := true } else r) }
  when (s.revokes.any (fun r => r.ext == ext && !r.recalling) && e.inFlight == 0) s (if x.1 then s2 else x.2)

/-- Step 6: what the recall has left buffered commits, valid bits clear, the extent is SCRUBBING and its window units are free (02, R42, Table 2.10). -/
def beginScrub (s : State) (ext : Nat) : State :=
  let s := (s.mem.sab.filter (fun x => x.ext == ext)).foldl commitEntry s
  let e := extentOf s ext
  let ws := if e.coherent then extentEntries s e else []
  let s := { s with coh := { s.coh with dir := s.coh.dir.filter (fun d => !ws.contains d.1), rebuild := s.coh.rebuild.filter (fun w => !ws.contains w) } }
  let s := setExtent (clearValid s e) ext { e with st := .scrubbing, scrubDone := 0 }
  { s with revokes := s.revokes.filter (fun r => r.ext != ext) }

/-- REVOKE_RECALL_DONE (02, Table 2.10, step 6; 13, R339, steps 4 and 5): the reply is sent to the sender of the REVOKE; under a removal the keys are erased first. -/
def execRevokeRecallDone (ext : Nat) (s : State) : Result :=
  match s.revokes.find? (fun r => r.ext == ext) with
  | none => .next s
  | some r =>
    if !recalled s ext then .next s
    else match r.waits with
    | .order h => .next (advanceRemovals (finish (beginScrub s ext) h Ord.revoke Sts.success))
    | .removal t =>
      let s1 := if tenantQuiet s t then eraseKeys s t else s
      let erased := match tenantOf? s1 t with | some x => x.keysErased | none => true
      .next (if erased then advanceRemovals (beginScrub s1 ext) else s)

/-- A full-stripe write of zeros to the stripe of a block, on every stack that takes its writes (02, R49). -/
def zeroStripe (s : State) (e : Extent) (offset : Nat) : State :=
  let p := mapOffset e offset
  listCatchUp ((List.range 17).foldl (fun s j => putChunk s p.lstack p.stripe j (some 0)) s) p.lstack p.stripe

/-- Zeroing of an extent may go on: the stacks that serve it run, the windows of their channels are open to the scrub claimant, and the reserved parts of their regions have room (02, R49; 05, R127, R138; 06, R150, R163). -/
def zeroOpen (s : State) (e : Extent) : Bool :=
  (List.range 16).all (fun l => !placed e l || (match servedBy s l with
    | some p => stackRuns (stackOf s p) && (List.range 32).all (windowOpen s p) && reservedRoom s (l / 4) 1
    | none => true))

/-- EXTENT_ZEROING_STEP (02, R49, Table 2.10, step 7): the scrubber zeroes the next granule, once the channels' windows are open to it. -/
def execExtentZeroingStep (ext : Nat) (s : State) : Result :=
  let e := extentOf s ext
  let lo := (e.base + e.scrubDone) * 2 ^ 21
  let s1 := (List.range 512).foldl (fun s i => zeroStripe s e (lo + 4096 * i)) s
  when (e.st == .scrubbing && decide (e.scrubDone < e.size) && zeroOpen s e) s (modExtent s1 ext (fun x => { x with scrubDone := x.scrubDone + 1 }))

/-- EXTENT_SCRUB_DONE (02, Table 2.10, step 8): FREE; only GENERATION keeps its value. -/
def execExtentScrubDone (ext : Nat) (s : State) : Result :=
  let e := extentOf s ext
  when (e.st == .scrubbing && e.scrubDone == e.size) s (setExtent s ext { generation := e.generation })

end Sys2Proof.Machine
end

