-- ==== Sys2Proof/Machine/ExtentOrders.lean ====
section
/-! DEFINITION. Orders on extents (02, Table 2.8), host records (03, R78), tenants (13, Table 13.6), slots and the directory (04, Table 4.13). The part named do… is step 10 of Table 11.5. -/

namespace Sys2Proof.Machine

/-! ### Extents -/

/-- GRANT, accepted for its commit tick. -/
def doGrant (h : OrderHdr) (ext base size kind target physBase tenant measured : Nat) (access : List (BitVec 32)) (s : State) : State :=
  let r : Extent := { access := access, physBase := physBase, size := size, base := base, tenant := tenant, kind := kind, target := target, measured := measured == 1 }
  judged s h Ord.grant ((!grantFieldsOk r measured, Sts.badField) :: grantRefusals s ext r) (prepare s h (.grant h ext r))

/-- GRANT (02, R43, Table 2.8). -/
def execGrant (h : OrderHdr) (ext base size kind target physBase tenant measured : Nat) (access : List (BitVec 32)) (s : State) : Result :=
  .next (withOrder s h Ord.grant (.grant h ext base size kind target physBase tenant measured access) (doGrant h ext base size kind target physBase tenant measured access))

def doAccessSet (h : OrderHdr) (ext generation : Nat) (access : List (BitVec 32)) (measured : Nat) (s : State) : State :=
  judged s h Ord.accessSet (accessSetRefusals s ext generation access measured) (prepare s h (.accessSet h ext generation access measured))

/-- ACCESS_SET (02, R43, R44, Table 2.8). -/
def execAccessSet (h : OrderHdr) (ext generation : Nat) (access : List (BitVec 32)) (measured : Nat) (s : State) : Result :=
  .next (withOrder s h Ord.accessSet (.accessSet h ext generation access measured) (doAccessSet h ext generation access measured))

def doRevoke (h : OrderHdr) (ext generation : Nat) (s : State) : State :=
  judged s h Ord.revoke (revokeRefusals s ext generation) (prepare s h (.revoke h ext generation))

/-- REVOKE (02, R47, Table 2.10). -/
def execRevoke (h : OrderHdr) (ext generation : Nat) (s : State) : Result := .next (withOrder s h Ord.revoke (.revoke h ext generation) (doRevoke h ext generation))

def doExtentRead (h : OrderHdr) (ext : Nat) (s : State) : State := reply s h Ord.extentRead Sts.success (extentOf s ext).bytes

/-- EXTENT_READ (02, Table 2.8). -/
def execExtentRead (h : OrderHdr) (ext : Nat) (s : State) : Result := .next (withOrder s h Ord.extentRead (.extentRead h ext) (doExtentRead h ext))

def doExtentFind (h : OrderHdr) (offset : Nat) (s : State) : State :=
  judged s h Ord.extentFind [(decide (offsetLimit ≤ offset), Sts.addressInvalid), ((extentAt s offset).isNone, Sts.noExtent)]
    (reply s h Ord.extentFind Sts.success (leBytes 2 ((extentAt s offset).getD 0)))

/-- EXTENT_FIND (02, Table 2.8). -/
def execExtentFind (h : OrderHdr) (offset : Nat) (s : State) : Result := .next (withOrder s h Ord.extentFind (.extentFind h offset) (doExtentFind h offset))

/-- A count and its entries as a result (11, R282). -/
def countedResult (l : List (List Byte)) : List Byte := BitVec.ofNat 8 l.length :: List.replicate 7 0 ++ l.flatten

def doViolationRead (h : OrderHdr) (s : State) : State :=
  reply { s with violations := s.violations.drop 16 } h Ord.violationRead Sts.success (countedResult ((s.violations.take 16).map Violation.bytes))

/-- VIOLATION_READ (02, R53): the oldest entries, up to 16, and they are freed. -/
def execViolationRead (h : OrderHdr) (s : State) : Result := .next (withOrder s h Ord.violationRead (.violationRead h) (doViolationRead h))

/-! ### Host records -/

/-- Fields that HOST_SHAPE may write (03, R78, Table 3.8). -/
def shapeFieldsOk (host : Nat) (r : HostRec) : Bool :=
  decide (host < 4096) && decide (r.pbs < 2 ^ 20) && decide (r.cbs < 2 ^ 20) &&
  (if r.weight = 0 then r.pbs == 0 && r.cbs == 0 && r.pir == 0 && r.cir == 0 else decide (r.cir ≤ r.pir) && decide (r.cbs ≤ r.pbs) && r.cbs != 0)

def doHostShape (h : OrderHdr) (host weight pbs cbs pir cir : Nat) (s : State) : State :=
  let r : HostRec := { weight := weight, pbs := pbs, cbs := cbs, pir := pir, cir := cir }
  judged s h Ord.hostShape [(!shapeFieldsOk host r, Sts.badField)] (prepare s h (.hostShape h host r))

/-- HOST_SHAPE (03, R78, R86). -/
def execHostShape (h : OrderHdr) (host weight pbs cbs pir cir : Nat) (s : State) : Result :=
  .next (withOrder s h Ord.hostShape (.hostShape h host weight pbs cbs pir cir) (doHostShape h host weight pbs cbs pir cir))

def doHostShapeRead (h : OrderHdr) (host region : Nat) (s : State) : State :=
  judged s h Ord.hostShapeRead [(decide (4096 ≤ host) || decide (4 ≤ region), Sts.badField)] (reply s h Ord.hostShapeRead Sts.success (hostBytes s host region))

/-- HOST_SHAPE_READ (03, R78). -/
def execHostShapeRead (h : OrderHdr) (host region : Nat) (s : State) : Result := .next (withOrder s h Ord.hostShapeRead (.hostShapeRead h host region) (doHostShapeRead h host region))

/-! ### Tenants and keys: refusals of their own are judged at the commit tick (13, R386) -/

def doTenantCreate (h : OrderHdr) (tenant : Nat) (wrapped : BitVec 320) (s : State) : State := prepare s h (.tenantCreate h tenant wrapped (wrapKey s h))
/-- TENANT_CREATE (13, R386). -/
def execTenantCreate (h : OrderHdr) (tenant : Nat) (wrapped : BitVec 320) (s : State) : Result :=
  .next (withOrder s h Ord.tenantCreate (.tenantCreate h tenant wrapped) (doTenantCreate h tenant wrapped))

def doTenantRemove (h : OrderHdr) (tenant : Nat) (s : State) : State := prepare s h (.tenantRemove h tenant)
/-- TENANT_REMOVE (13, R339). -/
def execTenantRemove (h : OrderHdr) (tenant : Nat) (s : State) : Result := .next (withOrder s h Ord.tenantRemove (.tenantRemove h tenant) (doTenantRemove h tenant))

def doRotateKey (h : OrderHdr) (tenant : Nat) (wrapped : BitVec 320) (s : State) : State := prepare s h (.rotateKey h tenant wrapped (wrapKey s h))
/-- ROTATE_KEY (13, R386). -/
def execRotateKey (h : OrderHdr) (tenant : Nat) (wrapped : BitVec 320) (s : State) : Result :=
  .next (withOrder s h Ord.rotateKey (.rotateKey h tenant wrapped) (doRotateKey h tenant wrapped))

def doRetireKey (h : OrderHdr) (tenant epoch force : Nat) (s : State) : State := prepare s h (.retireKey h tenant epoch force)
/-- RETIRE_KEY (13, R338). -/
def execRetireKey (h : OrderHdr) (tenant epoch force : Nat) (s : State) : Result := .next (withOrder s h Ord.retireKey (.retireKey h tenant epoch force) (doRetireKey h tenant epoch force))

/-! ### Slots and the directory -/

/-- A host holds a slot for SLOT_GRANT (01, R29). -/
def hostHolds (s : State) (host : Nat) : Bool := s.coh.slots.any (fun x => x.2.st != .free && (if x.1 = 0 then selfId s else x.2.host) == host)

def doSlotGrant (h : OrderHdr) (slot host : Nat) (s : State) : State :=
  let x := slotOf s slot
  let gen := (x.gen + 1) % 256
  judged s h Ord.slotGrant [(slot == 0 || x.st == .bound || x.st == .failed, Sts.slotState), (x.st == .sweeping, Sts.slotSweeping),
      (hostHolds s host, Sts.slotHeld), (decide (4096 ≤ host), Sts.badField)]
    (reply (setSlot s slot { st := .bound, gen := gen, host := host }) h Ord.slotGrant Sts.success [BitVec.ofNat 8 gen])

/-- SLOT_GRANT (01, R29, R30; 04, Table 4.13). -/
def execSlotGrant (h : OrderHdr) (slot host : Nat) (s : State) : Result := .next (withOrder s h Ord.slotGrant (.slotGrant h slot host) (doSlotGrant h slot host))

/-- The release itself: a BOUND slot is swept, a FAILED one freed when its walk is done. -/
def releaseSlot (h : OrderHdr) (slot : Nat) (s : State) : State :=
  let x := slotOf s slot
  if x.st = .bound then setWalk (setSlot (accept s h Ord.slotRelease) slot { x with st := .sweeping }) { slot := slot, failure := false, gen := x.gen, waits := [(h, Ord.slotRelease)] }
  else match walkOf s slot with
    | some w => setWalk (accept s h Ord.slotRelease) { w with waits := w.waits ++ [(h, Ord.slotRelease)], thenFree := true }
    | none => reply (setSlot s slot { x with st := .free }) h Ord.slotRelease Sts.success

def doSlotRelease (h : OrderHdr) (slot roleGen : Nat) (s : State) : State :=
  let x := slotOf s slot
  judged s h Ord.slotRelease [(slot == 0 || x.st == .free || x.st == .sweeping, Sts.slotState), (x.gen != roleGen, Sts.staleGeneration)] (releaseSlot h slot s)

/-- SLOT_RELEASE (04, R107, Table 4.13). -/
def execSlotRelease (h : OrderHdr) (slot roleGen : Nat) (s : State) : Result := .next (withOrder s h Ord.slotRelease (.slotRelease h slot roleGen) (doSlotRelease h slot roleGen))

def doSlotRead (h : OrderHdr) (slot : Nat) (s : State) : State := reply s h Ord.slotRead Sts.success (slotBytes s slot)
/-- SLOT_READ (04, Table 4.13). -/
def execSlotRead (h : OrderHdr) (slot : Nat) (s : State) : Result := .next (withOrder s h Ord.slotRead (.slotRead h slot) (doSlotRead h slot))

/-- The slot, BOUND or SWEEPING and not slot 0, that a host holds. -/
def failableSlot (s : State) (host : Nat) : Option Nat :=
  (s.coh.slots.find? (fun x => x.1 != 0 && (x.2.st == .bound || x.2.st == .sweeping) && x.2.host == host)).map Prod.fst

def doHostFailed (h : OrderHdr) (host : Nat) (s : State) : State :=
  match failableSlot s host with
  | none => reply s h Ord.hostFailed Sts.slotState
  | some n => declareFailed (accept s h Ord.hostFailed) n Cause.hostFailed 0 0 [(h, Ord.hostFailed)]

/-- HOST_FAILED (04, R110, Table 4.13). -/
def execHostFailed (h : OrderHdr) (host : Nat) (s : State) : Result := .next (withOrder s h Ord.hostFailed (.hostFailed h host) (doHostFailed h host))

def doLostRead (h : OrderHdr) (s : State) : State :=
  match s.coh.lost with
  | [] => reply s h Ord.lostRead Sts.nothingHeld
  | b :: rest => reply { s with coh := { s.coh with lost := rest } } h Ord.lostRead Sts.success b.bytes

/-- LOST_READ (04, R113, Table 4.13). -/
def execLostRead (h : OrderHdr) (s : State) : Result := .next (withOrder s h Ord.lostRead (.lostRead h) (doLostRead h))

def doDirRead (h : OrderHdr) (offset : Nat) (s : State) : State :=
  let n := (extentAt s offset).getD 0
  judged s h Ord.dirRead [(decide (offsetLimit ≤ offset), Sts.addressInvalid), ((extentAt s offset).isNone, Sts.noExtent), (!(extentOf s n).coherent, Sts.notCoherent)]
    (reply s h Ord.dirRead Sts.success (dirOf s (windowIndex (extentOf s n) offset)).bytes)

/-- DIR_READ (04, Table 4.13). -/
def execDirRead (h : OrderHdr) (offset : Nat) (s : State) : Result := .next (withOrder s h Ord.dirRead (.dirRead h offset) (doDirRead h offset))

end Sys2Proof.Machine
end

