-- ==== Sys2Proof/Machine/MemOrders.lean ====
section
/-! DEFINITION. Orders on memory control (05, Table 5.13) and on stored data (06, Table 6.5). -/

namespace Sys2Proof.Machine

/-- Normal service: from READY_OD to HALT or power-down (05, R135). -/
def normalService (s : State) : Bool := s.hub.ready && !s.fault.halted

/-- The stack is outside normal service (05, R135). -/
def outOfService (s : State) (p : Nat) : Bool :=
  !normalService s || s.life.stackTest == some (p / 5) && p % 5 == 4 || ((stackOf s p).st == .serving && !(stackOf s p).mapped)

/-- Physical stack named by region and position. -/
def stackNo (region position : Nat) : Nat := 5 * region + position
def stackNamed (region position : Nat) : Bool := decide (region < 4) && decide (position < 5)

def doStackRead (h : OrderHdr) (region position : Nat) (s : State) : State :=
  judged s h Ord.stackRead [(!stackNamed region position, Sts.badField)]
    (reply s h Ord.stackRead Sts.success ((stackOf s (stackNo region position)).statusBytes (!outOfService s (stackNo region position))))

/-- STACK_READ (05, R142). -/
def execStackRead (h : OrderHdr) (region position : Nat) (s : State) : Result := .next (withOrder s h Ord.stackRead (.stackRead h region position) (doStackRead h region position))

/-- The stacks a STACK_RATE_LIMIT names: position 7 names all (05, R142). -/
def limitStacks (region position : Nat) : List Nat := if position = 7 then List.range 20 else [stackNo region position]

/-- A new owner limit: on a powered stack it waits for the next temperature reading, on another it applies when the stack is brought up (05, Table 5.13). -/
def newLimit (h : OrderHdr) (limit : Nat) (s : State) (p : Nat) : State :=
  if stackPowered (stackOf s p) then modStack s p (fun x => { x with newLimit := some limit, limitWaits := x.limitWaits ++ [h] })
  else modStack s p (fun x => { x with ownerLimit := limit })

def doStackRateLimit (h : OrderHdr) (region position limit : Nat) (s : State) : State :=
  judged s h Ord.stackRateLimit [(!(decide (region < 4) && (decide (position < 5) || position == 7) && decide (limit < 3)), Sts.badField)]
    (answerLimit ((limitStacks region position).foldl (newLimit h limit) (accept s h Ord.stackRateLimit)) h)

/-- STACK_RATE_LIMIT (05, R137, Table 5.13). -/
def execStackRateLimit (h : OrderHdr) (region position limit : Nat) (s : State) : Result :=
  .next (withOrder s h Ord.stackRateLimit (.stackRateLimit h region position limit) (doStackRateLimit h region position limit))

def doMemIdlePolicy (h : OrderHdr) (v : Nat) (s : State) : State :=
  judged s h Ord.memIdlePolicy [(decide (1000 < v), Sts.badField)] (prepare s h (.idlePolicy h v))

/-- MEM_IDLE_POLICY (05, R136). -/
def execMemIdlePolicy (h : OrderHdr) (v : Nat) (s : State) : Result := .next (withOrder s h Ord.memIdlePolicy (.memIdlePolicy h v) (doMemIdlePolicy h v))

def doIntegrityRead (h : OrderHdr) (region position : Nat) (s : State) : State :=
  judged s h Ord.integrityRead [(!stackNamed region position, Sts.badField)]
    (reply s h Ord.integrityRead Sts.success (stackOf s (stackNo region position)).integrityBytes)

/-- INTEGRITY_READ (06, R169). -/
def execIntegrityRead (h : OrderHdr) (region position : Nat) (s : State) : Result := .next (withOrder s h Ord.integrityRead (.integrityRead h region position) (doIntegrityRead h region position))

def blotterOf (s : State) (k : Nat) : Blotter := tget s.mem.blotters k {}

/-- Eight entries from one on, those not held all zero, and BLOTTER_OVERFLOW. -/
def blotterResult (b : Blotter) (k first : Nat) : List Byte :=
  (List.range 8).flatMap (fun i => match b.entries[first + i]? with | some e => e.bytes k | none => List.replicate 16 0) ++ leBytes 4 b.overflow

def doBlotterRead (h : OrderHdr) (region first : Nat) (s : State) : State :=
  judged s h Ord.blotterRead [(!(decide (region < 4) && decide (first ≤ 56) && first % 8 == 0), Sts.badField)]
    (reply s h Ord.blotterRead Sts.success (blotterResult (blotterOf s region) region first))

/-- BLOTTER_READ (06, R169). -/
def execBlotterRead (h : OrderHdr) (region first : Nat) (s : State) : Result := .next (withOrder s h Ord.blotterRead (.blotterRead h region first) (doBlotterRead h region first))

def doBlotterClear (h : OrderHdr) (region : Nat) (s : State) : State :=
  judged s h Ord.blotterClear [(decide (4 ≤ region), Sts.badField)]
    (reply { s with mem := { s.mem with blotters := tset s.mem.blotters region {} } } h Ord.blotterClear Sts.success)

/-- BLOTTER_CLEAR (06, R157, R169). -/
def execBlotterClear (h : OrderHdr) (region : Nat) (s : State) : Result := .next (withOrder s h Ord.blotterClear (.blotterClear h region) (doBlotterClear h region))

def doPoisonRead (h : OrderHdr) (s : State) : State :=
  judged s h Ord.poisonRead [(s.mem.poison.isEmpty, Sts.nothingHeld)]
    (reply { s with mem := { s.mem with poison := s.mem.poison.drop 8 } } h Ord.poisonRead Sts.success (countedResult ((s.mem.poison.take 8).map PoisonEntry.bytes)))

/-- POISON_READ (06, R169): up to 8 of the oldest entries, which are freed. -/
def execPoisonRead (h : OrderHdr) (s : State) : Result := .next (withOrder s h Ord.poisonRead (.poisonRead h) (doPoisonRead h))

def doScrubPolicy (h : OrderHdr) (minutes : Nat) (s : State) : State :=
  judged s h Ord.scrubPolicy [(!(decide (30 ≤ minutes) && decide (minutes ≤ 10080)), Sts.badField)]
    (reply { s with mem := { s.mem with scrubMin := minutes } } h Ord.scrubPolicy Sts.success)

/-- SCRUB_POLICY (06, R162). -/
def execScrubPolicy (h : OrderHdr) (minutes : Nat) (s : State) : Result := .next (withOrder s h Ord.scrubPolicy (.scrubPolicy h minutes) (doScrubPolicy h minutes))

/-- The stack that serves a logical position reads SERVING (05, Table 5.12; 06, Table 6.5). -/
def servingStack (s : State) (l : Nat) : Option Nat :=
  match servedBy s l with
  | some p => if (stackOf s p).st = .serving ∧ !outOfService s p then some p else none
  | none => none

def doEvacuate (h : OrderHdr) (region position : Nat) (s : State) : State :=
  let p := servingStack s (4 * region + position)
  judged s h Ord.evacuate [(!(decide (region < 4) && decide (position < 4)), Sts.badField), (p.isNone, Sts.stackState),
      ((tget? s.mem.evacs region).isSome, Sts.evacuationActive), (!spareUsable s region, Sts.noSpare)]
    (takeSpareStack (accept s h Ord.evacuate) (p.getD 0) 0 [h])

/-- EVACUATE (06, R165, Table 6.5): the spare is taken; the reply follows cutover or abandonment. -/
def execEvacuate (h : OrderHdr) (region position : Nat) (s : State) : Result := .next (withOrder s h Ord.evacuate (.evacuate h region position) (doEvacuate h region position))

end Sys2Proof.Machine
end

