-- ==== Sys2Proof/Machine/Images.lean ====
section
/-! DEFINITION. Images and their checks (13, Table 13.3, R331, R341), reads of pool memory by the module itself (13, R333), the device identity key (13, R330) and the attestation report (13, Table 13.10). -/

namespace Sys2Proof.Machine

/-! ### Images -/

/-- Bits of an image's header. -/
def hdrBits (img : List Byte) (hi lo : Nat) : Nat := bits (ofLe (img.take 256)) hi lo

def imgMagic (i : List Byte) : Nat := hdrBits i 63 0
def imgFormat (i : List Byte) : Nat := hdrBits i 95 64
def imgKind (i : List Byte) : Nat := hdrBits i 111 96
def imgKeyIndex (i : List Byte) : Nat := hdrBits i 119 112
def imgRevoke (i : List Byte) : Nat := hdrBits i 127 120
def imgFloorSet (i : List Byte) : Nat := hdrBits i 143 128
def imgSvn (i : List Byte) : Nat := hdrBits i 159 144
def imgBodyBytes (i : List Byte) : Nat := hdrBits i 191 160
def imgVersion (i : List Byte) : Nat := hdrBits i 255 192
def imgBody (i : List Byte) : List Byte := (i.drop 256).take (imgBodyBytes i)

/-- The measurement of an image: SHA-384 of header bytes 0 to 159 (13). -/
def imgMeasure (i : List Byte) : Digest := sha384 (i.take 160)

/-- Step 1 of R331: MAGIC, HEADER_FORMAT and IMAGE_KIND, and the image fits in n bytes. -/
def imgHeaderOk (i : List Byte) (kind n : Nat) : Bool :=
  decide (256 ≤ i.length) && imgMagic i == 0x474D4957464D5A53 && imgFormat i == 1 && imgKind i == kind && decide (256 + imgBodyBytes i ≤ min n i.length)

/-- Step 4: BODY_DIGEST. -/
def imgDigestOk (i : List Byte) : Bool := sha384 (imgBody i) == BitVec.ofNat 384 (ofBe ((i.drop 112).take 48))

/-- SIGNATURE verifies under a key. -/
def imgSigned (i : List Byte) (key : Nat × Nat) : Bool := ecVerify key (imgMeasure i) ((i.drop 160).take 96)

namespace Boot
abbrev notTried := 0
abbrev accepted := 1
abbrev headerInvalid := 2
abbrev keyRevoked := 3
abbrev rollback := 4
abbrev digestMismatch := 5
abbrev signatureInvalid := 6
abbrev readError := 7
end Boot

/-- The checks of R331 in order, as a nibble of the boot status (13, R332). -/
def imgCheck (s : State) (i : List Byte) (kind n : Nat) : Nat :=
  if !imgHeaderOk i kind n then Boot.headerInvalid
  else if !decide (imgKeyIndex i < 4) || s.hub.keyRevoked.getLsbD (imgKeyIndex i) then Boot.keyRevoked
  else if !(decide (s.hub.svnFloor ≤ imgSvn i) && decide (imgFloorSet i ≤ imgSvn i) && !bit (imgRevoke i) (imgKeyIndex i)) then Boot.rollback
  else if !imgDigestOk i then Boot.digestMismatch
  else if !imgSigned i (Config.fwKey (imgKeyIndex i)) then Boot.signatureInvalid
  else Boot.accepted

/-- The reply status of a check that failed (13, Table 13.11). -/
def imgStatus (code : Nat) : Nat := if code = Boot.rollback then Sts.imageRollback else Sts.imageInvalid

/-- Size of a slot (0, 1) or of a bundle copy (2, 3) (13, Table 13.2). -/
def imgRoom (place : Nat) : Nat := if place < 2 then 33554432 else 8388608
/-- Kind of image a place holds. -/
def placeKind (place : Nat) : Nat := if place < 2 then 1 else 2

/-- What flash holds at a slot or bundle copy. -/
def flashOf (s : State) (place : Nat) : List Byte := (tget? s.hub.flash place).getD (Config.flashImage place)

/-- The check of a place. A write that a loss of power cut short leaves an image that fails R331 (13, R344; 15, Table 15.12); at which of the checks is open (log entry 8). -/
def checkPlace (s : State) (place : Nat) : Nat :=
  match tget? s.hub.torn place with
  | some n => 2 + (Config.freeBits 16 n).toNat % 5
  | none => imgCheck s (flashOf s place) (placeKind place) (imgRoom place)

/-! ### Reads of pool memory by the module (13, R333; 01, R32) -/

/-- The range lies in one granted extent that grants the module's own endpoint ID READ. -/
def ownReadable (s : State) (offset n : Nat) : Bool :=
  match extentAt s offset with
  | none => false
  | some e =>
    let x := extentOf s e
    x.st == .granted && decide (1 ≤ n) && extentAt s (offset + n - 1) == some e && rightsOf x.access (fun _ => true) (selfId s) % 2 == 1

/-- Bytes of pool memory that the module reads for itself; nothing where a line is lost (log entry 17). -/
def ownRead (s : State) (offset n : Nat) : Option (List Byte) × State :=
  let first := offset / 256
  let lines := (offset + n + 255) / 256 - first
  let e := (extentAt s offset).getD 0
  let x := (List.range lines).foldl (fun (acc : Option (List Byte) × State) i =>
    let r := readLine acc.2 e ((first + i) * 256)
    (match acc.1, r.1 with | some l, some d => some (l ++ lineBytes d) | _, _ => none, r.2)) (some [], s)
  (x.1.map (fun l => slice l (offset % 256) n), x.2)

/-! ### User accords (13, R341) -/

/-- The signer's public key in the body. -/
def accordKey (i : List Byte) : Option (Nat × Nat) := bytesPoint ((imgBody i).take 97)

/-- The checks of R341. -/
def accordOk (i : List Byte) : Bool :=
  imgHeaderOk i 3 (256 + 104 + 16777216) && imgKeyIndex i == 0xFF && imgSvn i == 0 && imgFloorSet i == 0 && imgRevoke i == 0 &&
  decide (104 ≤ imgBodyBytes i) && ((imgBody i).drop 97 |>.take 7).all (· == 0) && imgDigestOk i &&
  (match accordKey i with | some q => imgSigned i q | none => false)

/-- The code of an accord as words. -/
def accordCode (i : List Byte) : List (BitVec 32) :=
  let c := (imgBody i).drop 104
  (List.range (c.length / 4)).map (fun j => BitVec.ofNat 32 (ofLe (slice c (4 * j) 4)))

/-! ### The device identity key (13, R330) -/

/-- "SZM DIK" and "SZM-1604 mgmt". -/
def dikInfo : List Byte := ascii [0x53, 0x5A, 0x4D, 0x20, 0x44, 0x49, 0x4B]
def mgmtInfo : List Byte := ascii [0x53, 0x5A, 0x4D, 0x2D, 0x31, 0x36, 0x30, 0x34, 0x20, 0x6D, 0x67, 0x6D, 0x74]

/-- The DIK's private key. -/
def dikPrivate : Nat := ofBe (hkdf [] (beBytes 48 Config.deviceSecret.toNat) dikInfo 48) % (ecN - 1) + 1
/-- Its public point, as 97 bytes. -/
def dikPublic : List Byte := match ecMul dikPrivate ecG with | some q => pointBytes q | none => List.replicate 97 0
/-- A DIK signature over a message, with nonce number k of the run. -/
def dikSign (k : Nat) (m : List Byte) : List Byte := ecSign dikPrivate (Config.freshScalar k) (sha384 m)

/-! ### The report (13, Table 13.10) -/

/-- USER_ACCORDS: the hash over the loaded user accords. -/
def accordsHash (s : State) : Digest :=
  sha384 (s.eng.accords.flatMap (fun a => leBytes 2 a.1 ++ leBytes 2 a.2.tenant ++ digestBytes a.2.measurement ++ digestBytes a.2.signer))

/-- Bytes 0x000 to 0x327 of the report; DEBUG_DISABLE is set at manufacture. -/
def reportBody (s : State) (nonce : BitVec 256) : List Byte :=
  leBytes 2 1 ++ leBytes 2 (1 + 2 * b2n s.hub.timeSet + 4 * b2n (inDrydown s) + 8 * b2n s.fault.halted) ++ leBytes 4 904 ++ leBytes 8 Config.serial.toNat ++
  leBytes 2 (selfId s) ++ leBytes 1 s.hub.runSlot ++ leBytes 1 s.hub.fwKeyIndex ++ leBytes 2 s.hub.fwSvn ++ leBytes 2 s.hub.svnFloor ++ leBytes 8 s.hub.fwVersion ++
  leBytes 8 (stamp s) ++ leBytes 32 nonce.toNat ++ digestBytes s.hub.fwMeasure ++ digestBytes s.hub.bundleMeasure ++ digestBytes (accordsHash s) ++
  leBytes 2 s.eng.accords.length ++ leBytes 2 (s.hub.measured.filter (fun m => match m with | some x => x.valid | none => false)).length ++ leBytes 4 0 ++
  s.hub.measured.flatMap measuredBytes ++ dikPublic ++ List.replicate 7 0 ++ beBytes 96 Config.dikEndorsement.toNat

def report (s : State) (nonce : BitVec 256) : List Byte := reportBody s nonce ++ dikSign (freeNo s) (reportBody s nonce)

end Sys2Proof.Machine
end

