-- ==== Sys2Proof/Machine/EngineOrders.lean ====
section
/-! DEFINITION. Orders on accords, address spaces, faults and sprays (07, Table 7.13). -/

namespace Sys2Proof.Machine

/-! ### Accords (07, R172; 13, R341) -/

/-- The ID that a load gets: which free one is open (07, R172; log entry 8). -/
def accordIdFor (s : State) : Nat :=
  let start := (Config.freeBits 16 (freeNo s)).toNat
  let id := fun i => 256 + (start + i) % 65280
  id ((firstFree 257 0 (fun i => (tget? s.eng.accords (id i)).isNone)).getD 0)

def doAccordLoad (h : OrderHdr) (offset length tenant : Nat) (s : State) : State :=
  let r := if ownReadable s offset length then ownRead s offset length else (none, s)
  let img := r.1.getD []
  let key := (imgBody img).take 97
  let id := accordIdFor r.2
  let a : Accord := { id := id, tenant := tenant, code := accordCode img, measurement := imgMeasure img, signer := sha384 key }
  judged r.2 h Ord.accordLoad [(!accordOk img, Sts.signatureInvalid), (decide (256 ≤ r.2.eng.accords.length), Sts.accordStoreFull),
      (!(tenant == 0xFFFF || decide (tenant < 1024)), Sts.badField), (tenant != 0xFFFF && !tenantLive s tenant, Sts.tenantUnknown)]
    (reply (useFree { r.2 with eng := { r.2.eng with accords := tset r.2.eng.accords id a } }) h Ord.accordLoad Sts.success (leBytes 2 id))

/-- ACCORD_LOAD (07, R172; 13, R341). -/
def execAccordLoad (h : OrderHdr) (offset length tenant : Nat) (s : State) : Result :=
  .next (withOrder s h Ord.accordLoad (.accordLoad h offset length tenant) (doAccordLoad h offset length tenant))

/-- An active spray names the accord. -/
def accordUsed (s : State) (id : Nat) : Bool := s.eng.sprays.any (fun p => !p.2.pool && p.2.field 23 8 == id)

def doAccordUnload (h : OrderHdr) (id : Nat) (s : State) : State :=
  judged s h Ord.accordUnload [(decide (id < 256), Sts.badField), ((tget? s.eng.accords id).isNone, Sts.accordUnknown), (accordUsed s id, Sts.accordInUse)]
    (reply { s with eng := { s.eng with accords := tdel s.eng.accords id } } h Ord.accordUnload Sts.success)

/-- ACCORD_UNLOAD (07, R172, Table 7.13). -/
def execAccordUnload (h : OrderHdr) (id : Nat) (s : State) : Result := .next (withOrder s h Ord.accordUnload (.accordUnload h id) (doAccordUnload h id))

/-! ### Address spaces (07, R192, R200, R204), each at its commit tick -/

def doAsidCreate (h : OrderHdr) (a tenant : Nat) (s : State) : State :=
  judged s h Ord.asidCreate ((a == 0, Sts.badField) :: asidCreateRefusals s a tenant) (prepare s h (.asidCreate h a tenant))
/-- ASID_CREATE (07, R204). -/
def execAsidCreate (h : OrderHdr) (a tenant : Nat) (s : State) : Result := .next (withOrder s h Ord.asidCreate (.asidCreate h a tenant) (doAsidCreate h a tenant))

def doAsidDestroy (h : OrderHdr) (a : Nat) (s : State) : State :=
  judged s h Ord.asidDestroy (asidDestroyRefusals s a) (prepare s h (.asidDestroy h a))
/-- ASID_DESTROY (07, R204). -/
def execAsidDestroy (h : OrderHdr) (a : Nat) (s : State) : Result := .next (withOrder s h Ord.asidDestroy (.asidDestroy h a) (doAsidDestroy h a))

def doMapRange (h : OrderHdr) (a pva ppa pageSize count rights : Nat) (s : State) : State :=
  judged s h Ord.mapRange (mapRefusals s a pva ppa pageSize count rights) (prepare s h (.mapRange h a pva ppa pageSize count rights))
/-- MAP_RANGE (07, R192, Table 7.13). -/
def execMapRange (h : OrderHdr) (a pva ppa pageSize count rights : Nat) (s : State) : Result :=
  .next (withOrder s h Ord.mapRange (.mapRange h a pva ppa pageSize count rights) (doMapRange h a pva ppa pageSize count rights))

def doUnmapRange (h : OrderHdr) (a pva size : Nat) (s : State) : State :=
  judged s h Ord.unmapRange (rangeRefusals s a pva size true) (prepare s h (.unmapRange h a pva size))
/-- UNMAP_RANGE (07, R204). -/
def execUnmapRange (h : OrderHdr) (a pva size : Nat) (s : State) : Result := .next (withOrder s h Ord.unmapRange (.unmapRange h a pva size) (doUnmapRange h a pva size))

def doProtectRange (h : OrderHdr) (a pva size rights : Nat) (s : State) : State :=
  judged s h Ord.protectRange (rangeRefusals s a pva size (decide (rights ≤ 3))) (prepare s h (.protectRange h a pva size rights))
/-- PROTECT_RANGE (07, R204). -/
def execProtectRange (h : OrderHdr) (a pva size rights : Nat) (s : State) : Result :=
  .next (withOrder s h Ord.protectRange (.protectRange h a pva size rights) (doProtectRange h a pva size rights))

def doInvalidateRange (h : OrderHdr) (a pva size : Nat) (s : State) : State :=
  judged s h Ord.invalidateRange (invalidateRefusals s a pva size) (prepare s h (.invalidate h a pva size))
/-- INVALIDATE_RANGE (07, R200). -/
def execInvalidateRange (h : OrderHdr) (a pva size : Nat) (s : State) : Result :=
  .next (withOrder s h Ord.invalidateRange (.invalidateRange h a pva size) (doInvalidateRange h a pva size))

/-- The deepest valid entry on a walk and its level: 8 B and 1 B (07, Table 7.7). -/
def mapEntry (s : State) (a pva : Nat) : List Byte :=
  let x := spaceOf s a
  let u := pva / 65536
  match leafAt x u with
  | some (_, l) => leBytes 8 (packBits [(36, l.frame), (12, 0), (1, b2n l.write), (1, b2n l.read), (1, 1), (1, 1)]) ++ leBytes 1 l.level
  | none =>
    match [(1, u / 32), (2, u / 16384), (3, u / 8388608)].find? (fun t => x.tables.contains t) with
    | some (lv, i) => leBytes 8 (Config.tablePlace a lv i % 2 ^ 26 * 65536 + 1) ++ leBytes 1 (lv + 1)
    | none => leBytes 8 0 ++ leBytes 1 4

def doMapRead (h : OrderHdr) (a pva : Nat) (s : State) : State :=
  judged s h Ord.mapRead [(!asidLive s a, Sts.asidUnknown)] (reply s h Ord.mapRead Sts.success (mapEntry s a pva))
/-- MAP_READ (07, Table 7.13). -/
def execMapRead (h : OrderHdr) (a pva : Nat) (s : State) : Result := .next (withOrder s h Ord.mapRead (.mapRead h a pva) (doMapRead h a pva))

/-! ### Faults (07, R195 to R199) -/

/-- The ring lies on this module, aligned, in one extent that grants the module's own ID READ and WRITE (07, R195). -/
def ringAllowed (s : State) (offset slots : Nat) : Bool :=
  match extentAt s offset with
  | none => false
  | some n =>
    let e := extentOf s n
    e.st == .granted && extentAt s (offset + slots * 16384 - 1) == some n && rightsOf e.access (fun _ => true) (selfId s) &&& 3 == 3

def ringOk (s : State) (ppa slots : Nat) : Bool :=
  decide (16 ≤ slots) && decide (slots ≤ 1024) && ppa % 16384 == 0 && ppa / 2 ^ 40 == selfId s && ringAllowed s (ppa % 2 ^ 40) slots

def doFaultRingSet (h : OrderHdr) (ppa slots : Nat) (s : State) : State :=
  judged s h Ord.faultRingSet [(!ringOk s ppa slots, Sts.ringInvalid), (s.eng.ring.isSome && !s.eng.batches.isEmpty, Sts.ringBusy)]
    (reply { s with eng := { s.eng with ring := some { offset := ppa % 2 ^ 40, slots := slots }, ringWithdrawn := false } } h Ord.faultRingSet Sts.success)
/-- FAULT_RING_SET (07, R195, R197). -/
def execFaultRingSet (h : OrderHdr) (ppa slots : Nat) (s : State) : Result := .next (withOrder s h Ord.faultRingSet (.faultRingSet h ppa slots) (doFaultRingSet h ppa slots))

/-- The verdicts of a batch, record by record, and its end (07, R198). -/
def resolveBatch (s : State) (b : Batch) (verdict : BitVec 256) : State :=
  let s := (List.range b.recs.length).foldl (fun s i =>
    match b.recs[i]? with
    | some r => if recWaits s b i r then resolveTile s r.tile (verdict.getLsbD i) else s
    | none => s) s
  { s with eng := { s.eng with batches := s.eng.batches.filter (fun x => x.seq != b.seq) } }

def doFaultResolve (h : OrderHdr) (batch : Nat) (verdict : BitVec 256) (s : State) : State :=
  match s.eng.batches.find? (fun b => b.seq == batch) with
  | none => reply s h Ord.faultResolve Sts.noSuchBatch
  | some b => reply (resolveBatch s b verdict) h Ord.faultResolve Sts.success
/-- FAULT_RESOLVE (07, R198). -/
def execFaultResolve (h : OrderHdr) (batch : Nat) (verdict : BitVec 256) (s : State) : Result :=
  .next (withOrder s h Ord.faultResolve (.faultResolve h batch verdict) (doFaultResolve h batch verdict))

def doFaultPolicy (h : OrderHdr) (v : Nat) (s : State) : State :=
  judged s h Ord.faultPolicy [(!(decide (1 ≤ v) && decide (v ≤ 10000)), Sts.badField)] (prepare s h (.faultPolicy h v))
/-- FAULT_POLICY (07, R199): for faults from the next tick. -/
def execFaultPolicy (h : OrderHdr) (v : Nat) (s : State) : Result := .next (withOrder s h Ord.faultPolicy (.faultPolicy h v) (doFaultPolicy h v))

/-! ### Sprays -/

def doSprayRead (h : OrderHdr) (n : Nat) (s : State) : State :=
  match sprayOf? s n with
  | none => reply s h Ord.sprayRead Sts.noSuchSpray
  | some p => reply s h Ord.sprayRead Sts.success (lineBytes (p.record.getD (recordOf s p)))
/-- SPRAY_READ (07, Table 7.13). -/
def execSprayRead (h : OrderHdr) (n : Nat) (s : State) : Result := .next (withOrder s h Ord.sprayRead (.sprayRead h n) (doSprayRead h n))

def doSprayCancel (h : OrderHdr) (n : Nat) (s : State) : State :=
  match sprayOf? s n with
  | none => reply s h Ord.sprayCancel Sts.noSuchSpray
  | some _ => cancelSpray (modSpray (accept s h Ord.sprayCancel) n (fun p => { p with cancelWaits := p.cancelWaits ++ [h] })) n
/-- SPRAY_CANCEL (07, R181): the reply follows the COMPLETION. -/
def execSprayCancel (h : OrderHdr) (n : Nat) (s : State) : Result := .next (withOrder s h Ord.sprayCancel (.sprayCancel h n) (doSprayCancel h n))

def doEngineTagRelease (h : OrderHdr) (host : Nat) (s : State) : State :=
  judged s h Ord.engineTagRelease [(decide (4096 ≤ host), Sts.badField)]
    (reply { s with eng := { s.eng with forwards := s.eng.forwards.filter (fun f => !(f.held && f.endpoint == host)) } } h Ord.engineTagRelease Sts.success)
/-- ENGINE_TAG_RELEASE (07, R190). -/
def execEngineTagRelease (h : OrderHdr) (host : Nat) (s : State) : Result := .next (withOrder s h Ord.engineTagRelease (.engineTagRelease h host) (doEngineTagRelease h host))

end Sys2Proof.Machine
end

