-- ==== Sys2Proof/Machine/Ownership.lean ====
section
/-! DEFINITION. Ownership (11, R291 to R296) and reads of the status window (11, R305). -/

namespace Sys2Proof.Machine

/-- The lease: 100 ms (11, R293). -/
def leaseTime : Nat := ms 100

/-- Master of an order that has passed step 2 (11, Table 11.5). -/
def masterNo (s : State) (h : OrderHdr) : Nat := (senderMaster s h).getD 0

/-- A pending handover ends without acceptance (11, R294). -/
def dropHandover (s : State) : State :=
  match s.hub.handover with
  | some x => finish { s with hub := { s.hub with handover := none } } x.order Ord.ownerHandover Sts.handoverExpired
  | none => s

/-- A claim joins the election window, which the first claim opens: 500 ms, or 10 ms after the first election (11, R291). -/
def joinElection (s : State) (h : OrderHdr) (priority : Nat) : State :=
  let e := s.hub.election.getD { closes := now s + (if s.hub.everElected then ms 10 else ms 500), claims := [] }
  accept { s with hub := { s.hub with election := some { e with claims := e.claims ++ [(masterNo s h, priority, h)] } } } h Ord.ownerClaim

def doOwnerClaim (h : OrderHdr) (priority : Nat) (s : State) : State :=
  let standing := match s.hub.election with | some e => e.claims.any (fun c => c.1 == masterNo s h) | none => false
  judged s h Ord.ownerClaim [(s.hub.owner.isSome, Sts.ownerPresent), (standing, Sts.claimPending)] (joinElection s h priority)
/-- OWNER_CLAIM (11, R291, R292). -/
def execOwnerClaim (h : OrderHdr) (priority : Nat) (s : State) : Result := .next (withOrder s h Ord.ownerClaim (.ownerClaim h priority) (doOwnerClaim h priority))

def doOwnerRenew (h : OrderHdr) (s : State) : State := reply { s with hub := { s.hub with leaseEnd := now s + leaseTime } } h Ord.ownerRenew Sts.success
/-- OWNER_RENEW (11, R293). -/
def execOwnerRenew (h : OrderHdr) (s : State) : Result := .next (withOrder s h Ord.ownerRenew (.ownerRenew h) (doOwnerRenew h))

/-- A master has a path: its ID is recorded, or Darinlink is not down (11, R294). -/
def hasPath (s : State) (m : Nat) : Bool :=
  if m = 1 then s.hub.mgrA.isSome else if m = 2 then s.hub.mgrB.isSome else decide (m < 4) && !s.link.dl.absent

def doOwnerHandover (h : OrderHdr) (m : Nat) (s : State) : State :=
  judged s h Ord.ownerHandover [(s.hub.owner == some m || !hasPath s m, Sts.badField), (s.hub.handover.isSome, Sts.claimPending)]
    (accept { s with hub := { s.hub with handover := some { target := m, expires := now s + ms 10, order := h } } } h Ord.ownerHandover)
/-- OWNER_HANDOVER (11, R294). -/
def execOwnerHandover (h : OrderHdr) (m : Nat) (s : State) : Result := .next (withOrder s h Ord.ownerHandover (.ownerHandover h m) (doOwnerHandover h m))

def doOwnerAccept (h : OrderHdr) (s : State) : State :=
  match s.hub.handover with
  | some x =>
    if x.target = masterNo s h then
      let s := { s with hub := { s.hub with handover := none, owner := some x.target, leaseEnd := now s + leaseTime } }
      reply (finish s x.order Ord.ownerHandover Sts.success) h Ord.ownerAccept Sts.success
    else reply s h Ord.ownerAccept Sts.noHandover
  | none => reply s h Ord.ownerAccept Sts.noHandover
/-- OWNER_ACCEPT (11, R294). -/
def execOwnerAccept (h : OrderHdr) (s : State) : Result := .next (withOrder s h Ord.ownerAccept (.ownerAccept h) (doOwnerAccept h))

def doOwnerRelease (h : OrderHdr) (s : State) : State :=
  reply (dropHandover { s with hub := { s.hub with owner := none } }) h Ord.ownerRelease Sts.success
/-- OWNER_RELEASE (11, R295). -/
def execOwnerRelease (h : OrderHdr) (s : State) : Result := .next (withOrder s h Ord.ownerRelease (.ownerRelease h) (doOwnerRelease h))

/-- The claim that wins: highest priority, then lowest master (11, R291). -/
def winner (l : List (Nat × Nat × OrderHdr)) : Option (Nat × Nat × OrderHdr) :=
  l.foldl (fun best c => match best with
    | none => some c
    | some b => if b.2.1 < c.2.1 ∨ (b.2.1 = c.2.1 ∧ c.1 < b.1) then some c else best) none

/-- ELECTION_WINDOW_CLOSE (11, R291, R292): the winner is owner from now, every claim is answered. -/
def execElectionWindowClose (s : State) : Result :=
  match s.hub.election with
  | none => .next s
  | some e =>
    let w := (winner e.claims).map Prod.fst
    let s1 := { s with hub := { s.hub with election := none, everElected := true, owner := w, leaseEnd := now s + leaseTime } }
    when (decide (e.closes ≤ now s)) s
      (e.claims.foldl (fun s c => finish s c.2.2 Ord.ownerClaim (if some c.1 = w then Sts.success else Sts.electionLost)) s1)

/-- LEASE_EXPIRY (11, R293, R294): ownership is vacant, with its NOTE. -/
def execLeaseExpiry (s : State) : Result :=
  when (s.hub.owner.isSome && decide (s.hub.leaseEnd ≤ now s)) s
    (dropHandover (noteHub { s with hub := { s.hub with owner := none } } Cause.ownerLapsed))

/-- HANDOVER_EXPIRY (11, R294): no acceptance within 10 ms. -/
def execHandoverExpiry (s : State) : Result :=
  when (match s.hub.handover with | some x => decide (x.expires ≤ now s) | none => false) s (dropHandover s)

/-! ### The status window (11, R305) -/

def doStatusWindowRead (h : OrderHdr) (offset length : Nat) (s : State) : State :=
  judged s h Ord.statusWindowRead [(!(offset % 8 == 0 && length % 8 == 0 && decide (8 ≤ length) && decide (length ≤ 960) && decide (offset + length ≤ 65536)), Sts.badField)]
    (reply (rearmAuth s offset length) h Ord.statusWindowRead Sts.success (windowBytes s offset length))
/-- STATUS_WINDOW_READ (11, R305, Table 11.7). -/
def execStatusWindowRead (h : OrderHdr) (offset length : Nat) (s : State) : Result :=
  .next (withOrder s h Ord.statusWindowRead (.statusWindowRead h offset length) (doStatusWindowRead h offset length))

/-- Answer a STATUS_READ message. -/
def statusRead (s : State) (p : Packet) : State :=
  let n := 8 * (p.length + 1)
  let o := p.address
  let answer : Packet := { opcode := Op.statusData, tag := p.tag, length := p.length }
  if o % 8 = 0 ∧ o % 256 + n ≤ 256 ∧ o + n ≤ 65536 then
    sendDl (rearmAuth s o n) { answer with payload := some (bytesLine (List.replicate (o % 256) 0 ++ windowBytes s o n)) }
  else sendDl s { answer with status := Sts.badField }

/-- STATUS_READ (11, R303, R305): served without order checks. -/
def execStatusRead (p : Packet) (s : State) : Result := when (hubRuns s && p.opcode == Op.statusRead) s (statusRead s p)

end Sys2Proof.Machine
end

