-- ==== Sys2Proof/Machine/SystemOrders.lean ====
section
/-! DEFINITION. Orders on keys and images (13, Table 13.6), ports (10, Table 10.12), faults (12, R318, R319), lifetime records (14, Table 14.11) and power (15, R365). -/

namespace Sys2Proof.Machine

/-! ### Keys, report, images -/

/-- A management key is agreed (13, R336): ephemeral key number k of the run. -/
def agreeKey (s : State) (h : OrderHdr) (m : Nat) (q : Nat × Nat) (qBytes : List Byte) : State :=
  let d := Config.freshScalar (freeNo s) % (ecN - 1) + 1
  let qe := pointBytes ((ecMul d ecG).getD (0, 0))
  let z := ((ecMul d q).getD (0, 0)).1
  let serial := leBytes 8 Config.serial.toNat
  let okm := hkdf (serial ++ leBytes 2 (selfId s) ++ leBytes 1 m) (beBytes 48 z) mgmtInfo 64
  let old := tget? s.hub.mgmtKeys m
  let k : MgmtKey := { epoch := match old with | some o => o.epoch + 1 | none => 0, key := BitVec.ofNat 256 (ofBe (okm.take 32)),
                       wrap := BitVec.ofNat 256 (ofBe ((okm.drop 32).take 32)), previous := old.map (fun o => (o.epoch, o.key)), agreedAt := now s }
  let sig := dikSign (freeNo s + 1) (qBytes ++ qe ++ serial ++ leBytes 1 m)
  let s := useFreeN { s with hub := { s.hub with mgmtKeys := tset s.hub.mgmtKeys m k } } 2
  reply (emptyWindow s m) h Ord.mgmtKeyAgree Sts.success (qe ++ List.replicate 7 0 ++ sig)

def doMgmtKeyAgree (h : OrderHdr) (key : List Byte) (s : State) : State :=
  match bytesPoint key with
  | none => reply s h Ord.mgmtKeyAgree Sts.badField
  | some q => agreeKey s h (masterNo s h) q key
/-- MGMT_KEY_AGREE (13, R336). -/
def execMgmtKeyAgree (h : OrderHdr) (key : List Byte) (s : State) : Result := .next (withOrder s h Ord.mgmtKeyAgree (.mgmtKeyAgree h key) (doMgmtKeyAgree h key))

/-- MGMT_KEY_PREVIOUS_EXPIRY (11, R278): 1 s after an agreement the previous key is gone. -/
def execMgmtKeyPreviousExpiry (m : Nat) (s : State) : Result :=
  match tget? s.hub.mgmtKeys m with
  | none => .next s
  | some k => when (k.previous.isSome && passed s k.agreedAt second) s { s with hub := { s.hub with mgmtKeys := tset s.hub.mgmtKeys m { k with previous := none } } }

def doAttestReport (h : OrderHdr) (nonce : BitVec 256) (s : State) : State := reply (useFree s) h Ord.attestReport Sts.success (report s nonce)
/-- ATTEST_REPORT (13, R343). -/
def execAttestReport (h : OrderHdr) (nonce : BitVec 256) (s : State) : Result := .next (withOrder s h Ord.attestReport (.attestReport h nonce) (doAttestReport h nonce))

/-- A write is in progress on a slot or on the bundle (13, Table 13.11). -/
def imageBusy (s : State) (image : Nat) : Bool := s.hub.fwWork.any (fun w => w.image == image && !w.activate)

/-- The refusals of FW_WRITE and what it accepts. DESIGN CHOICE, log entry 27: a source in which a line is lost is refused IMAGE_INVALID, and the flash keeps what it holds; the spec does not name that case. -/
def doFwWrite (h : OrderHdr) (image offset length : Nat) (s : State) : State :=
  let r := ownRead s offset length
  judged s h Ord.fwWrite [(decide (2 < image), Sts.badField), (!ownReadable s offset length, Sts.noExtent),
      (!(decide (256 ≤ length) && decide (length ≤ imgRoom image)), Sts.badField), (decide (image < 2) && s.hub.runSlot == image, Sts.imageSlotActive),
      (imageBusy s image || r.1.isNone, Sts.imageInvalid)]
    (accept { r.2 with hub := { r.2.hub with fwWork := r.2.hub.fwWork ++ [{ order := h, image := image, activate := false, data := r.1.getD [] }] } } h Ord.fwWrite)
/-- FW_WRITE (13, R333): the reply follows the write. -/
def execFwWrite (h : OrderHdr) (image offset length : Nat) (s : State) : Result := .next (withOrder s h Ord.fwWrite (.fwWrite h image offset length) (doFwWrite h image offset length))

/-- Rows of fuses that an activation burns: one for the floor, one for the revoked keys (13, R330; log entry 12). -/
def burnRows (s : State) (i : List Byte) : Nat :=
  b2n (decide (s.hub.svnFloor < imgFloorSet i)) + b2n (BitVec.ofNat 4 (imgRevoke i) &&& ~~~s.hub.keyRevoked != 0)

/-- Spare fuse rows left in the bank of the security fuses (13, R330; 12, Table 12.10). -/
def spareFuseRows (s : State) : Nat := 16 - tget s.hub.fuseRows 0 0

def doFwActivate (h : OrderHdr) (image : Nat) (s : State) : State :=
  let i := flashOf s image
  let c := checkPlace s image
  judged s h Ord.fwActivate [(decide (1 < image), Sts.badField), (imageBusy s image, Sts.imageInvalid), (c != Boot.accepted && c != Boot.rollback, Sts.imageInvalid),
      (c == Boot.rollback, Sts.imageRollback), (decide (spareFuseRows s < burnRows s i), Sts.storeWriteFailed)]
    (accept { s with hub := { s.hub with fwWork := s.hub.fwWork ++ [{ order := h, image := image, activate := true }] } } h Ord.fwActivate)
/-- FW_ACTIVATE (13, R334). -/
def execFwActivate (h : OrderHdr) (image : Nat) (s : State) : Result := .next (withOrder s h Ord.fwActivate (.fwActivate h image) (doFwActivate h image))

/-- An image is written to flash, 256 B pages into erased 64 KiB blocks (14, Table 14.7); what stands there after a write that met a flash error is open (log entry 8). -/
def putFlash (s : State) (place : Nat) (ok : Bool) (d : List Byte) : State :=
  let d' := if ok then d else leBytes d.length (Config.freeBits (8 * d.length) (freeNo s)).toNat
  let s1 := lifeAdd (lifeAdd (if ok then s else useFree s) 0x018 (ceilDiv d.length 256)) 0x020 (ceilDiv d.length 65536)
  { s1 with hub := { s1.hub with flash := tset s.hub.flash place (d' ++ (flashOf s place).drop d.length), torn := tdel s.hub.torn place } }

/-- The place that a work on images writes: its slot, or of the bundle copy 1 before copy 0 (13, R333). -/
def workPlace (w : FwWork) : Nat := if w.image = 2 then (if w.copied then 2 else 3) else w.image

/-- Power is lost while an image is written: the place fails R331 from then on (13, R344). -/
def tearPlace (s : State) (w : FwWork) : State :=
  let s1 := putFlash s (workPlace w) false w.data
  useFree { s1 with hub := { s1.hub with torn := tset s1.hub.torn (workPlace w) (freeNo s1) } }

/-- A place has been written, read back and checked; copy 0 of the bundle follows copy 1 (13, R333). -/
def writeDone (s : State) (w : FwWork) (ok : Bool) : State :=
  let s := putFlash s (workPlace w) ok w.data
  let c := checkPlace s (workPlace w)
  if !ok then finish s w.order Ord.fwWrite Sts.storeWriteFailed
  else if c != Boot.accepted then finish s w.order Ord.fwWrite (imgStatus c)
  else if workPlace w = 3 then { s with hub := { s.hub with fwWork := { w with copied := true } :: s.hub.fwWork } }
  else finish s w.order Ord.fwWrite Sts.success

/-- FW_WRITE_DONE (13, R333): a slot, or one copy of the bundle, is in flash; works on images are done one after the other, in order of receipt (log entry 17). -/
def execFwWriteDone (flashOk : Bool) (s : State) : Result :=
  match s.hub.fwWork with
  | [] => .next s
  | w :: rest => when (!w.activate) s (writeDone { s with hub := { s.hub with fwWork := rest } } w flashOk)

/-- Burn a row: one that fails to program goes into a spare row, with its NOTE (13, R330). -/
def burnRow (s : State) : State :=
  let fails := Config.fuseRowFails (freeNo s)
  let s := useFree s
  if fails then
    note (lifeAdd { s with hub := { s.hub with fuseRows := tset s.hub.fuseRows 0 (tget s.hub.fuseRows 0 0 + 1) } } 0x070 1) true 0 (unitId Kind.fuseBank 0) Cause.fuseRowSpared 0
  else s

/-- The fuses of an activation (13, R334). -/
def burn (s : State) (i : List Byte) : State :=
  let n := burnRows s i
  let s := { s with hub := { s.hub with svnFloor := max s.hub.svnFloor (imgFloorSet i), keyRevoked := s.hub.keyRevoked ||| BitVec.ofNat 4 (imgRevoke i) } }
  (List.range n).foldl (fun s _ => burnRow s) s

/-- The boot select record that governs: its copy, SEQ and slot (13, Table 13.2). -/
def bootRecord (s : State) : Nat × Nat × Nat :=
  match tget? s.hub.bootSelect 0, tget? s.hub.bootSelect 1 with
  | some a, some b => if b.1 ≤ a.1 then (0, a) else (1, b)
  | some a, none => (0, a)
  | none, some b => (1, b)
  | none, none => (0, (0, Config.bootSlot))

/-- The fuses of an activation are burnt, then the boot select record is written, but for the slot already selected (13, R334). -/
def activateImage (s : State) (w : FwWork) (ok : Bool) : State :=
  let s := burn s (flashOf s w.image)
  let b := bootRecord s
  if w.image = s.hub.runSlot then finish s w.order Ord.fwActivate Sts.success
  else if ok then
    finish { s with hub := { s.hub with bootSelect := tset s.hub.bootSelect (1 - b.1) ((b.2.1 + 1) % 2 ^ 32, w.image) } } w.order Ord.fwActivate Sts.success
  else finish s w.order Ord.fwActivate Sts.storeWriteFailed

/-- An activation whose turn has come: the image is checked again, and the spare rows are counted, as they stand now (13, R330, R334). -/
def activateDone (s : State) (w : FwWork) (ok : Bool) : State :=
  let c := checkPlace s w.image
  if c != Boot.accepted then finish s w.order Ord.fwActivate (imgStatus c)
  else if spareFuseRows s < burnRows s (flashOf s w.image) then finish s w.order Ord.fwActivate Sts.storeWriteFailed
  else activateImage s w ok

/-- FW_ACTIVATE_DONE (13, R334). -/
def execFwActivateDone (flashOk : Bool) (s : State) : Result :=
  match s.hub.fwWork with
  | [] => .next s
  | w :: rest => when w.activate s (activateDone { s with hub := { s.hub with fwWork := rest } } w flashOk)

/-! ### Ports (10, Table 10.12) -/

def portNamed (plane port : Nat) : Bool := decide (plane < 2) && decide (port < 16)

def doPortRead (h : OrderHdr) (plane port : Nat) (s : State) : State :=
  judged s h Ord.portRead [(!portNamed plane port, Sts.badField)] (reply s h Ord.portRead Sts.success (portBytes s (16 * plane + port)))
/-- PORT_READ (10, R275). -/
def execPortRead (h : OrderHdr) (plane port : Nat) (s : State) : Result := .next (withOrder s h Ord.portRead (.portRead h plane port) (doPortRead h plane port))

/-- A planned change of side begins: the active port starts no new flits; where there is none, the target is brought up at once, and takes the place of a reset in place (10, R273). -/
def beginChange (s : State) (pair n : Nat) (h : OrderHdr) : State :=
  let old := partner n
  let s := { s with link := { s.link with pairs := tset s.link.pairs pair { tget s.link.pairs pair {} with selected := true } } }
  if portActive s old then
    setFailover (modPort (accept s h Ord.portSelect) old (fun p => { p with stopped := true })) pair { from_ := old, since := now s, planned := some h, draining := true }
  else
    let sets := ((failoverOf s pair).map (·.sets)).getD []
    (bringUpPartner (setFailover (accept s h Ord.portSelect) pair { from_ := old, since := now s, planned := some h, sets := sets }) old).2

/-- The refusals and the change of PORT_SELECT. A reset in place is no failover (10, R267, R274). DESIGN CHOICE, log entry 27: a COLD target of 4 lanes whose partner serves with 8 is refused PORT_STATE, since R253 does not let it be made active. -/
def doPortSelect (h : OrderHdr) (pair plane : Nat) (s : State) : State :=
  let n := 16 * plane + pair
  let st := (portOf s n).st
  judged s h Ord.portSelect [(!portNamed plane pair, Sts.badField), ((match failoverOf s pair with | some f => !f.inPlace | none => false), Sts.failoverActive),
      (st == .fenced, Sts.portFenced), ((st != .active && st != .cold) || (st == .cold && narrowBarred s n), Sts.portState)]
    (if st = .active then reply s h Ord.portSelect Sts.success else beginChange s pair n h)
/-- PORT_SELECT (01, R15; 10, R273). -/
def execPortSelect (h : OrderHdr) (pair plane : Nat) (s : State) : Result := .next (withOrder s h Ord.portSelect (.portSelect h pair plane) (doPortSelect h pair plane))

def doPortRetrain (h : OrderHdr) (plane port : Nat) (s : State) : State :=
  let n := 16 * plane + port
  let st := (portOf s n).st
  judged s h Ord.portRetrain [(!portNamed plane port, Sts.badField), (st == .active || st == .training || st == .bringup || st == .resync, Sts.portState)]
    (beginExchange (modPort (accept s h Ord.portRetrain) n (fun p => { p with badLanes := [], retrainWaits := p.retrainWaits ++ [h] })) n .training none)
/-- PORT_RETRAIN (10, R274). -/
def execPortRetrain (h : OrderHdr) (plane port : Nat) (s : State) : Result := .next (withOrder s h Ord.portRetrain (.portRetrain h plane port) (doPortRetrain h plane port))

/-! ### Faults (12, R318, R319) -/

/-- A page of the fault log: the held entries at positions 16p to 16p + 15, where LOG_SEQ s stands at s mod 512 (12, R317, R318). -/
def faultPage (s : State) (p : Nat) : List Byte :=
  countedResult ((sortBy (fun (a b : FaultRecord) => decide (a.seq % 512 ≤ b.seq % 512)) (s.fault.log.filter (fun r => r.seq % 512 / 16 == p))).map (fun r => r.bytes true))

def doFaultRead (h : OrderHdr) (sel : Nat) (s : State) : State :=
  if sel < 4 then reply s h Ord.faultRead Sts.success (leBytes 8 (regionWord s sel) ++ pendingBytes (regFault s sel).fence)
  else if sel = 4 then reply s h Ord.faultRead Sts.success (chipResult s)
  else if 0x10 ≤ sel ∧ sel ≤ 0x2F then reply s h Ord.faultRead Sts.success (faultPage s (sel - 0x10))
  else if sel = 0x40 then
    let m := masterNo s h
    if (masterOf s m).wait.isSome then reply s h Ord.faultRead Sts.faultWaitBusy
    else modMaster (accept s h Ord.faultRead) m (fun x => { x with wait := some (h, now s) })
  else reply s h Ord.faultRead Sts.badField
/-- FAULT_READ (12, R318). -/
def execFaultRead (h : OrderHdr) (sel : Nat) (s : State) : Result := .next (withOrder s h Ord.faultRead (.faultRead h sel) (doFaultRead h sel))

/-- FAULT_READ_WAIT_EXPIRY (12, R318): 1 s after its receipt a held wait returns the chip result. -/
def execFaultReadWaitExpiry (m : Nat) (s : State) : Result :=
  match (masterOf s m).wait with
  | none => .next s
  | some (h, t) => when (passed s t second) s (finish (modMaster s m (fun x => { x with wait := none })) h Ord.faultRead Sts.success (chipResult s))

/-- A pending record is acknowledged, and the replacements that wait for it start (12, R315, R319). -/
def ackRecord (s : State) (cls : Nat) (hub : Bool) (region : Nat) (r : FaultRecord) : State :=
  let s := modLog (setPending s cls hub region none) r.seq (fun e => { e with acked := true })
  let s := if cls = 1 ∧ !hub then modRegFault s region (fun x => { x with escalation := false }) else s
  startWithheld s (fun o => o.record == some r.seq)

def doFaultAck (h : OrderHdr) (sel cls : Nat) (s : State) : State :=
  let hub := sel == 4
  let p := pendingOf s cls hub sel
  judged s h Ord.faultAck [(decide (4 < sel) || cls == 0 || decide (3 < cls) || (decide (sel < 4) && cls != 1), Sts.badField), (p.isNone, Sts.faultNotPending)]
    (reply (match p with | some r => ackRecord s cls hub sel r | none => s) h Ord.faultAck Sts.success)
/-- FAULT_ACK (12, R319). -/
def execFaultAck (h : OrderHdr) (sel cls : Nat) (s : State) : Result := .next (withOrder s h Ord.faultAck (.faultAck h sel cls) (doFaultAck h sel cls))

/-! ### Lifetime records (14, R355, R359, R360) -/

def doClockSet (h : OrderHdr) (calendar : Nat) (s : State) : State :=
  let s1 := eventRec s 0x03 (leBytes 8 (calendarNow s) ++ leBytes 8 calendar)
  judged s h Ord.clockSet [(decide (calendar < 1704067200000000), Sts.clockInvalid)]
    (reply { s1 with hub := { s1.hub with timeSet := true, calendarUs := calendar, calendarTimebase := stamp s } } h Ord.clockSet Sts.success)
/-- CLOCK_SET (14, R359). -/
def execClockSet (h : OrderHdr) (calendar : Nat) (s : State) : Result := .next (withOrder s h Ord.clockSet (.clockSet h calendar) (doClockSet h calendar))

/-- A log record as it stands in flash, cut to its first n bytes (14, Table 14.9). -/
def LogRec.bytes (r : LogRec) : List Byte :=
  let n := 64 * recUnits r
  let head := leBytes 32 (packBits [(64, r.timebase), (64, r.calendarUs), (64, r.seq), (32, r.boot), (8, r.type), (8, recUnits r), (15, 0), (1, b2n r.timeSet)])
  let all := slice (head ++ r.body) 0 (n - 4)
  all ++ leBytes 4 (crc32 all)

/-- Page p of the event records, newest first (14, R360). -/
def eventPage (s : State) (p : Nat) : List Byte :=
  let l := (s.life.log.filter (fun r => r.type != 0x01)).reverse
  countedResult (((l.drop (14 * p)).take 14).map (fun r => r.bytes.take 64))

/-- The flash is out of service (14, Table 14.11). -/
def flashOut (s : State) : Bool := s.fault.out.any (fun o => o.hub && o.unit / 2048 == Kind.flash)

def doLifetimeRead (h : OrderHdr) (g : Nat) (s : State) : State :=
  let events := decide (0x40 ≤ g) && decide (g ≤ 0x7F)
  judged s h Ord.lifetimeRead [(!(events || decide (g ≤ 0x14)), Sts.badField), (events && flashOut s, Sts.logUnavailable)]
    (reply s h Ord.lifetimeRead Sts.success (if events then eventPage s (g - 0x40) else groupBytes s g))
/-- LIFETIME_READ (14, R360). -/
def execLifetimeRead (h : OrderHdr) (g : Nat) (s : State) : Result := .next (withOrder s h Ord.lifetimeRead (.lifetimeRead h g) (doLifetimeRead h g))

def doBistRead (h : OrderHdr) (k : Nat) (s : State) : State :=
  judged s h Ord.bistRead [(decide (4 < k), Sts.badField)]
    (reply s h Ord.bistRead Sts.success (bistBytes s k ++ countedResult ((bistOf s k).entries.map SliceEntry.bytes)))
/-- BIST_READ (14, R355). -/
def execBistRead (h : OrderHdr) (k : Nat) (s : State) : Result := .next (withOrder s h Ord.bistRead (.bistRead h k) (doBistRead h k))

/-! ### Power (15, R365) -/

def doPowerLimit (h : OrderHdr) (watts : Nat) (s : State) : State :=
  judged s h Ord.powerLimit [(decide (watts < 800), Sts.limitBelowFloor), (decide (1900 < watts), Sts.badField)]
    (accept { s with power := { s.power with newLimits := s.power.newLimits ++ [(watts, h)] } } h Ord.powerLimit)
/-- POWER_LIMIT (15, R365): it applies from the next evaluation, which the reply follows. -/
def execPowerLimit (h : OrderHdr) (watts : Nat) (s : State) : Result := .next (withOrder s h Ord.powerLimit (.powerLimit h watts) (doPowerLimit h watts))

end Sys2Proof.Machine
end

