-- ==== Sys2Proof/Machine/Shutdown.lean ====
section
/-! DEFINITION. What several families of power and self-test share: the flash log (14, R357, R358), the begin of the power-down sequence (15, R376), what a reset keeps (15, R372), thermal warnings and trips (15, R367, R368). -/

namespace Sys2Proof.Machine

/-! ### The flash log (14, R357, R358) -/

/-- The first of the n places of the ring from p on that is not retired (14, R357). -/
def placeFrom (bad : List Nat) (p : Nat) : Nat → Option Nat
  | 0 => none
  | n + 1 => if bad.contains (p % 767) then placeFrom bad (p + 1) n else some (p % 767)

/-- The place that the next block takes; none where every block is retired. -/
def nextPlace (s : State) : Option Nat := placeFrom s.life.badPlaces (s.life.blockPlace + 1) 767

/-- The record needs a new block: records never span blocks (14, R357). -/
def needsBlock (s : State) (r : LogRec) : Bool := s.life.blockUsed == 0 || decide (1024 < s.life.blockUsed + recUnits r)

/-- A block is erased: the records that stood in it are gone. -/
def eraseBlock (s : State) (place : Nat) : State :=
  { s with life := { s.life with log := s.life.log.filter (fun r => r.place != place), blocks := tdel s.life.blocks place } }

/-- A new block at a place of the ring: erased, its header programmed with the next BLOCK_SEQ and the LOG_SEQ of its first record (14, R357). -/
def newBlock (s : State) (place : Nat) : State :=
  let s := eraseBlock s place
  let seq := s.life.blockSeq + 1
  lifeAdd (lifeAdd { s with life := { s.life with blockSeq := seq, blockPlace := place, blockUsed := 1,
                                                  blocks := tset s.life.blocks place { seq := seq, first := s.life.logSeq } } } 0x020 1) 0x018 1

/-- A record is programmed into the block being written and takes its LOG_SEQ. -/
def putRecord (s : State) (r : LogRec) : State :=
  lifeAdd { s with life := { s.life with log := s.life.log ++ [{ r with seq := s.life.logSeq, block := s.life.blockSeq, place := s.life.blockPlace, unit := s.life.blockUsed }],
                                         logSeq := s.life.logSeq + 1, blockUsed := s.life.blockUsed + recUnits r } } 0x018 (ceilDiv (recUnits r) 4)

/-- A record is written to flash, in a new block where it needs one; with every block retired it goes on waiting. -/
def writeLog (s : State) (r : LogRec) : State :=
  if needsBlock s r then
    match nextPlace s with
    | some p => putRecord (newBlock s p) r
    | none => { s with life := { s.life with buffer := s.life.buffer ++ [r] } }
  else putRecord s r

/-- The block that the record was to go to fails to erase or program: it is retired, counted and skipped (14, R357).
A block that fails to erase loses the records it held; one that fails to program keeps those programmed before (DESIGN CHOICE, log entry 13). -/
def retireBlock (s : State) (r : LogRec) : State :=
  let bad := fun (s : State) (p : Nat) => lifeAdd { s with life := { s.life with badPlaces := s.life.badPlaces ++ [p], blockPlace := p, blockUsed := 0 } } 0x028 1
  if needsBlock s r then
    match nextPlace s with
    | some p => bad (eraseBlock s p) p
    | none => s
  else bad s s.life.blockPlace

/-- Flash address of 64 B unit u of the block at a place: 767 blocks of 64 KiB from 0x0501_0000 (14, R357). -/
def logAddress (place u : Nat) : Nat := 0x05010000 + 65536 * place + 64 * u

/-- The 64 B header of a block: BLOCK_SEQ, the LOG_SEQ of its first record, zeros, the CRC-32 over bytes 0 to 59 (14, R357). -/
def LogBlock.bytes (b : LogBlock) : List Byte :=
  let low := leBytes 8 b.seq ++ leBytes 8 b.first ++ List.replicate 44 0
  low ++ leBytes 4 (crc32 low)

/-- The lifetime log as it stands in flash: the blocks' headers and the records, each with its address (14, R357). -/
def logImage (s : State) : List (Nat × List Byte) :=
  s.life.blocks.map (fun b => (logAddress b.1 0, b.2.bytes)) ++ s.life.log.map (fun r => (logAddress r.place r.unit, r.bytes))

/-- Write what waits in the hub buffer, in order. -/
def writeBuffer (s : State) : State := s.life.buffer.foldl writeLog { s with life := { s.life with buffer := [] } }

/-- A checkpoint of all counter groups joins the hub buffer (14, Table 14.10). -/
def checkpointRec (s : State) : State := eventRec s 0x01 ((List.range 21).flatMap (groupBytes s))

/-! ### Power-down (15, R376) -/

/-- Works on images stop: the write in progress leaves its place failing R331 (13, R344; 15, Table 15.12). Each order gets its reply (00, R11).
DESIGN CHOICE, log entry 27: no rule names the status of that reply; it is STORE_WRITE_FAILED. -/
def stopImages (s : State) : State :=
  let s1 := match s.hub.fwWork with
    | w :: _ => if w.activate then s else tearPlace s w
    | [] => s
  s.hub.fwWork.foldl (fun s w => finish s w.order (if w.activate then Ord.fwActivate else Ord.fwWrite) Sts.storeWriteFailed) { s1 with hub := { s1.hub with fwWork := [] } }

/-- Steps 1 and 2 of Table 15.10: READY_OD is released and work ends as under HALT, with NOT_READY; SHUTDOWN and the checkpoint join the buffer (14, R358). -/
def beginPowerDown (s : State) (cause : Nat) : State :=
  let s := { s with power := { s.power with halting := true, stage := .poweringDown, downAt := now s }, hub := { s.hub with exchangeSince := none } }
  let s := answerWaits (stopImages (stopWork s Sts.notReady))
  checkpointRec (eventRec (lifeAdd s 0x010 1) 0x04 (leBytes 1 cause))

/-- Flash and fuses, which every reset and loss of power leave (15, R372); commands that wait and the model's own fields go on.
The lifetime log keeps which stacks are retired (06, R168) and which rows have been repaired: the start-up training makes the soft repairs hard (06, R159). -/
def keptByReset (s : State) : State :=
  { pending := s.pending
    wire := s.wire
    mem := { repairs := s.mem.repairs, stackTab := (s.mem.stackTab.filter (fun x => x.2.retired)).map (fun x => (x.1, { retired := true })) }
    time := { clock := s.time.clock, free := s.time.free }
    hub := { flash := s.hub.flash, torn := s.hub.torn, bootSelect := s.hub.bootSelect, keyRevoked := s.hub.keyRevoked, svnFloor := s.hub.svnFloor, fuseRows := s.hub.fuseRows }
    life := { log := s.life.log, logSeq := s.life.logSeq, blockSeq := s.life.blockSeq, blocks := s.life.blocks, blockPlace := s.life.blockPlace,
              blockUsed := s.life.blockUsed, badPlaces := s.life.badPlaces } }

/-- A module reset with power kept: the power-on-only block, telemetry and pins stay (15, R372, R373, R384; log entry 17). -/
def resetModule (s : State) (cause : Nat) (resetN : Bool) (stage : Stage) : State :=
  let p := s.power
  { keptByReset s with power := { stage := stage, resetN := resetN, resetCause := cause, startAt := now s, pwrOk := p.pwrOk, pwrOkSince := p.pwrOkSince,
                                  inputMv := p.inputMv, inputMa := p.inputMa, inputW := p.inputW, inputPeak := p.inputPeak, dieTemp := p.dieTemp,
                                  tripped := p.tripped, lowSince := p.lowSince, refPresent := p.refPresent, refLostAt := p.refLostAt, refLosses := p.refLosses,
                                  i3cHigh := p.i3cHigh, i3cAddress := p.i3cAddress, i3cOffset := p.i3cOffset, jtag := p.jtag, jtagHeld := p.jtagHeld,
                                  boundary := p.boundary, pinsDriven := p.pinsDriven } }

/-- Every converter has stopped: nothing but flash and fuses is left, and the levels the board drives (15, R363, R372, R376). -/
def powerOff (s : State) (cause : Nat) (stage : Stage) : State :=
  let p := s.power
  { keptByReset s with power := { stage := stage, resetN := p.resetN, resetCause := cause, pwrOk := p.pwrOk, pwrOkSince := p.pwrOkSince, tripped := p.tripped,
                                  lowSince := p.lowSince, refPresent := p.refPresent, refLostAt := p.refLostAt, i3cHigh := p.i3cHigh } }

/-- The firmware runs (15, Table 15.9, step 4). -/
def firmwareRuns (s : State) : Bool := s.power.stage == .running

/-- Power-down where the firmware runs; before that, converters stop at once with no record (15, R376, Table 15.12). -/
def powerDown (s : State) : State :=
  match s.power.stage with
  | .running => beginPowerDown s 1
  | .poweringDown => s
  | _ => powerOff s 0 .unpowered

/-! ### HALT for power and clocks (15, Table 15.2) -/

/-- A HALT of this chapter, latched by the hub (15, Table 15.2). -/
def haltWith (s : State) (cause : Nat) : State := raise s { hub := true, unit := 0, cause := cause }

/-- A condition raises its HALT once, while it holds; a HALT in force merges it or latches it anew (15, R363; 12, R314). -/
def haltOnce (s : State) (cause : Nat) : State :=
  if s.power.raisedCauses.contains cause then s
  else haltWith { s with power := { s.power with raisedCauses := s.power.raisedCauses ++ [cause] } } cause

/-- The condition has ended: its next begin raises its HALT again. -/
def raiseAgain (s : State) (cause : Nat) : State := { s with power := { s.power with raisedCauses := s.power.raisedCauses.filter (· != cause) } }

/-! ### Thermal warnings and trips (15, R367, R368) -/

def dieTempOf (s : State) (k : Nat) : Nat := tget s.power.dieTemp k 0

/-- Some reading has reached its warning value. -/
def warm (s : State) : Bool := (List.range 20).any (fun p => decide (95 ≤ (stackOf s p).temp)) || (List.range 5).any (fun k => decide (100 ≤ dieTempOf s k))
/-- Every reading lies at least 5 °C below its warning value. -/
def cool (s : State) : Bool := (List.range 20).all (fun p => decide ((stackOf s p).temp ≤ 90)) && (List.range 5).all (fun k => decide (dieTempOf s k ≤ 95))

/-- THERMAL_WARN after a reading (15, R367). -/
def warn (s : State) : State :=
  if warm s then
    (if s.power.thermalWarn then { s with power := { s.power with coolSince := none } }
     else lifeAdd { s with power := { s.power with thermalWarn := true, coolSince := none } } 0x030 1)
  else if !cool s then { s with power := { s.power with coolSince := none } }
  else match s.power.coolSince with
    | none => { s with power := { s.power with coolSince := some (now s) } }
    | some t => if passed s t second then { s with power := { s.power with thermalWarn := false } } else s

/-- A trip reading: THERMTRIP_N is asserted and counted, and power goes down as if PWR_OK had fallen, so that a reset that MODULE_RESET has begun is not repeated (15, R368, Table 15.12). -/
def trip (s : State) : State :=
  if s.power.thermtrip then s
  else powerDown (lifeAdd { s with power := { s.power with thermtrip := true, tripped := true, resetting := false } } 0x038 1)

end Sys2Proof.Machine
end

