-- ==== Sys2Proof/Machine/Channels.lean ====
section
/-! DEFINITION. Channels and stacks (05, R123 to R141): issue of bursts, refresh, temperature, retraining, parity replay, self-refresh, rate changes, start-up of the stacks. Data move when a request is performed; the queues here hold the commands that follow (log entry 10). -/

namespace Sys2Proof.Machine

/-! ### The state of a channel -/

/-- The channel's controller runs: not fenced, not in self-refresh, not under test. -/
def chanRuns (s : State) (p c : Nat) : Bool :=
  let x := chanOf s p c
  stackRuns (stackOf s p) && !(stackOf s p).fencedChans.contains c && !x.selfRefresh && !chanTested s p c
/-- Pseudo-channel of the retraining pause that is next or running (05, R131). -/
def pausePc (x : Chan) : Nat := x.pauseNext % 2
/-- The pseudo-channel may issue commands (05, R131, R133). -/
def pcIssues (s : State) (p c pc : Nat) : Bool :=
  chanRuns s p c && !(pchanOf s p c pc).replaying && !((chanOf s p c).pausing && pausePc (chanOf s p c) == pc)

/-! ### Issue (05, R123 to R126) -/

/-- Two bursts touch the same place. -/
def sameBurst (a b : Burst) : Bool := a.place == b.place && a.column == b.column

/-- The waiting bursts of a pseudo-channel enter its queues in order while there is room: a read of a queued write is answered by it, a second write replaces the first, a write waits behind a queued read of the same burst. Answers the queues and what goes on waiting. -/
def admitBursts : List Burst → PChan → List Burst → PChan × List Burst
  | [], q, kept => (q, kept)
  | b :: rest, q, kept =>
    if kept.any (sameBurst b) then admitBursts rest q (kept ++ [b])
    else if q.writes.any (sameBurst b) then
      admitBursts rest (if b.write then { q with writes := q.writes.map (fun w => if sameBurst b w then { w with data := b.data } else w) } else q) kept
    else if b.write then
      (if q.writes.length < 64 && !q.reads.any (sameBurst b) then admitBursts rest { q with writes := q.writes ++ [b] } kept else admitBursts rest q (kept ++ [b]))
    else if q.reads.length < 64 then admitBursts rest { q with reads := q.reads ++ [b] } kept
    else admitBursts rest q (kept ++ [b])

/-- The direction in which a pseudo-channel goes on (05, R124).
DESIGN CHOICE, log entry 27: a queue that ran empty earlier in the turn and has filled again does not lift the 16 bursts; what counts is whether it is empty when the direction would change. -/
def turn (q : PChan) : PChan :=
  let w := q.writes.length
  let r := q.reads.length
  if q.writing then
    (if (16 ≤ q.sinceTurn ∨ w = 0) ∧ ((w ≤ 16 ∧ 0 < r) ∨ w = 0) then { q with writing := false, sinceTurn := 0 } else q)
  else if (16 ≤ q.sinceTurn ∨ r = 0) ∧ (48 ≤ w ∨ (r = 0 ∧ 0 < w)) then { q with writing := true, sinceTurn := 0 }
  else q

/-- The row of a burst's bank is open. -/
def rowHit (q : PChan) (b : Burst) : Bool := tget? q.openRows (placeBank b.place) == some (placeRow b.place)

/-- The oldest of some bursts; ties by the rotating pointer over banks (05, R125; 04, R92). -/
def oldest (q : PChan) (l : List Burst) : Option Burst :=
  let t := l.foldl (fun m b => min m b.since) ((l.head?.map (·.since)).getD 0)
  let l := l.filter (fun b => b.since == t)
  (rotate 64 q.bankPtr (fun i => l.any (fun b => placeBank b.place == i))).bind (fun i => l.find? (fun b => placeBank b.place == i))

/-- The burst that a pseudo-channel takes next (05, R125). -/
def pickBurst (t : Nat) (q : PChan) : Option Burst :=
  let l := if q.writing then q.writes else q.reads
  let late := l.filter (fun b => decide (b.since + us 2 ≤ t))
  let hits := l.filter (rowHit q)
  if !late.isEmpty then oldest q late else if !hits.isEmpty then oldest q hits else oldest q l

/-- One controller cycle with a burst chosen: its column command on an open row, else the row command that closes or opens its bank (05, R123, R126). -/
def issueBurst (s : State) (q : PChan) (b : Burst) : PChan :=
  let bank := placeBank b.place
  let q := { q with bankPtr := (bank + 1) % 64 }
  match tget? q.openRows bank with
  | none => { q with openRows := tset q.openRows bank (placeRow b.place), retry := q.retry ++ [(.row bank, now s)] }
  | some r =>
    if r = placeRow b.place then
      { q with reads := q.reads.filter (· != b), writes := q.writes.filter (· != b), sinceTurn := q.sinceTurn + 1, retry := q.retry ++ [(.column b, now s)] }
    else { q with openRows := tdel q.openRows bank, retry := q.retry ++ [(.row bank, now s)] }

/-- One cycle of a pseudo-channel. -/
def channelCycle (s : State) (p c pc : Nat) : State :=
  let key := (p * 32 + c) * 2 + pc
  let a := admitBursts ((s.mem.stripeWait.filter (fun b => b.1 == key)).map Prod.snd) { pchanOf s p c pc with retry := retryLive s p (pchanOf s p c pc) } []
  let q := turn a.1
  let q := if 64 ≤ q.retry.length then q else match pickBurst (now s) q with
    | some b => issueBurst s q b
    | none => q
  let s := modChan s p c (fun x => { x with lastActivity := now s })
  let s := { s with mem := { s.mem with stripeWait := s.mem.stripeWait.filter (fun b => b.1 != key) ++ a.2.map (fun b => (key, b)) } }
  modPchan s p c pc (fun _ => q)

/-- Bursts wait for a pseudo-channel. -/
def hasBursts (s : State) (p c pc : Nat) : Bool :=
  let q := pchanOf s p c pc
  !q.reads.isEmpty || !q.writes.isEmpty || s.mem.stripeWait.any (fun b => b.1 == (p * 32 + c) * 2 + pc)

/-- CHANNEL_ISSUE (05, R125). -/
def execChannelIssue (p c pc : Nat) (s : State) : Result := when (pcIssues s p c pc && hasBursts s p c pc) s (channelCycle s p c pc)

/-! ### Refresh and temperature (05, R129, R130, R137) -/

/-- A bank is refreshed: its row closes, its next refresh falls due at the interval now in force, and the command enters the retry buffer. -/
def refreshBank (s : State) (p c pc bank : Nat) : State :=
  modPchan (modChan s p c (fun x => { x with lastActivity := now s })) p c pc (fun q =>
    { q with refreshBy := tset q.refreshBy bank (now s + refreshEvery (stackOf s p)), openRows := tdel q.openRows bank, retry := retryLive s p q ++ [(.refresh bank, now s)] })

/-- A refresh of a bank falls due, or the stack asks for refresh management of it (05, R115, R129; log entry 8). -/
def refreshFalls (s : State) (p c pc bank : Nat) : Bool :=
  decide (refreshAt s p c pc bank ≤ now s) || Config.refreshManaged (((p * 32 + c) * 2 + pc) * 64 + bank) (now s)

/-- REFRESH_DUE (05, R126 to R129, R133): it waits for a parity replay that holds the channel's window, for a pause of its own pseudo-channel, and for room in the retry buffer. -/
def execRefreshDue (p c pc bank : Nat) (s : State) : Result :=
  when (chanRuns s p c && !replays s p c && !((chanOf s p c).pausing && pausePc (chanOf s p c) == pc) && retryRoom s p c pc 1 && refreshFalls s p c pc bank) s (refreshBank s p c pc bank)

/-- The thermal limit after a good reading, and readings of 90 °C or below in a row (05, Table 5.10, R130).
DESIGN CHOICE, log entry 27: after a step up the count of readings starts again at 0. -/
def thermalAfter (x : Stack) (t : Nat) : Nat × Nat :=
  let run := if t ≤ 90 then x.coolReadings + 1 else 0
  if x.tempFenced then (2, run)
  else if 100 ≤ t then (2, 0)
  else if 95 ≤ t then (max 1 x.thermalLimit, 0)
  else if 100 ≤ run then (x.thermalLimit - 1, 0)
  else (x.thermalLimit, run)

/-- A good reading of a stack's temperature (05, R129, R130, R137; 14, HOT_READINGS). -/
def goodReading (s : State) (p t : Nat) : State :=
  let x := stackOf s p
  let s := if 95 ≤ t ∧ !x.lastHot then stackLife s p 0x040 1 else s
  modStack s p (fun x => { x with temp := t, tempFails := 0, refresh2x := x.tempFenced || decide (85 < t), thermalLimit := (thermalAfter x t).1,
                                  coolReadings := (thermalAfter x t).2, lastHot := decide (95 ≤ t) })

/-- A failed reading: the halved interval, a NOTE, and, the tenth in a row, the loss of the temperature path (05, R130).
DESIGN CHOICE, log entry 27: it neither breaks nor advances the run of cool readings. -/
def failedReading (s : State) (p : Nat) : State :=
  let s := noteR (modStack s p (fun x => { x with refresh2x := true, tempFails := x.tempFails + 1 })) (p / 5) (unitId Kind.stackTemp (p % 5)) Cause.tempReadFail
  if (stackOf s p).tempFails = 10 ∧ !(stackOf s p).tempFenced then raiseR s (p / 5) (unitId Kind.stackTemp (p % 5)) Cause.tempPathFail else s

/-- Owner limits that came since the last reading outside a change of rate apply; orders whose stacks need no change down are answered (05, Table 5.13). -/
def applyLimit (s : State) (p : Nat) : State :=
  let x := stackOf s p
  if x.st = .rateChange then s
  else
    let s := modStack s p (fun x => { x with ownerLimit := x.newLimit.getD x.ownerLimit, newLimit := none })
    if (stackOf s p).rate < rateLimit (stackOf s p) then s
    else x.limitWaits.foldl answerLimit (modStack s p (fun x => { x with limitWaits := [] }))

/-- STACK_TEMP_READ (05, R129, R130, R137; 15, R367, R368).
DESIGN CHOICE, log entry 27: a failed read applies a waiting owner limit too. -/
def execStackTempRead (p : Nat) (reading : Option Nat) (s : State) : Result :=
  let s1 := match reading with | some t => goodReading s p t | none => failedReading s p
  let s2 := warn (applyLimit s1 p)
  when (stackPowered (stackOf s p)) s (if 105 ≤ reading.getD 0 then trip s2 else s2)

/-! ### Retraining (05, R131, R132) -/

/-- The pattern bursts of a pause: each of the places of its pseudo-channel that hold no stripe is written and read, its row opened first and closed after (05, R118, Table 5.7).
DESIGN CHOICE, log entry 10: one burst of each place, once; the spec does not say how many. -/
def patternCmds (s : State) (pc : Nat) : List ChanCmd :=
  (List.range 9).flatMap (fun i =>
    let l := 8388599 + i
    let b : Burst := { place := l, column := placeColumn l 0, write := false, since := now s }
    if placePc l = pc then [.row (placeBank l), .column { b with write := true, data := (Config.trainingPattern i).extractLsb' 0 256 }, .column b, .row (placeBank l)] else [])

/-- The commands of a pause (05, Table 5.7). -/
def pauseCmds (s : State) (pc : Nat) : List ChanCmd := .closeAll :: patternCmds s pc

/-- A pause may start now: no other pause of the stack, no replay, 10 µs since the last, no refresh of the channel due, none of its pseudo-channel due before it ends, and room for its commands (05, R127, R128, R131, R133). -/
def pauseFits (s : State) (p c : Nat) : Bool :=
  let x := chanOf s p c
  chanRuns s p c && !replays s p c && !refreshWaits s p c && retryRoom s p c (pausePc x) (pauseCmds s (pausePc x)).length && (List.range 32).all (fun d => !(chanOf s p d).pausing) && (match x.lastPause with | some t => passed s t (us 10) | none => true)
  && (List.range 64).all (fun b => decide (now s + 375 ≤ refreshAt s p c (pausePc x) b))

/-- The training patterns are written to the nine places of a channel that hold no stripe (05, R118). -/
def writePatterns (s : State) (p c : Nat) : State :=
  { s with mem := { s.mem with patterns := tset s.mem.patterns (p * 32 + c) ((List.range 9).map Config.trainingPattern) } }

/-- The pause starts: its pseudo-channel's rows close, and its pattern bursts are written and read (05, Table 5.7). -/
def startPause (s : State) (p c : Nat) : State :=
  let x := chanOf s p c
  let s := issueCmds (writePatterns s p c) p c (pausePc x) (pauseCmds s (pausePc x))
  modPchan (modChan s p c (fun x => { x with pausing := true, lastPause := some (now s), lastActivity := now s })) p c (pausePc x) (fun q => { q with openRows := [] })

/-- RETRAIN_DUE (05, R131): the next of the four pauses starts. -/
def execRetrainDue (p c : Nat) (s : State) : Result := when (retrainDue s p c && !(chanOf s p c).rerun && pauseFits s p c) s (startPause s p c)

/-- RETRAIN_RERUN_DUE (05, R132): a pause whose result lay outside the margin runs again. -/
def execRetrainRerunDue (p c : Nat) (s : State) : Result := when ((chanOf s p c).rerun && pauseFits s p c) s (startPause s p c)

/-- A pause has ended within its margin: the new centre, whose value is the link's own, is applied; the fourth ends the retraining (05, R131; log entry 8).
DESIGN CHOICE, log entry 27: the 50 ms to the next retraining run from the end of this one, forced or not; one that R134 forces while a periodic one is under way ends with that one's remaining pauses. -/
def pauseGood (s : State) (p c : Nat) : State :=
  let x := chanOf s p c
  let centre := (Config.freeBits 16 (freeNo s)).toNat
  let s := modChan (useFree s) p c (fun x => { x with
    pausing := false
    rerun := false
    centres := x.centres.set x.pauseNext centre
    shadow := tset x.shadow x.timing (x.centres.set x.pauseNext centre)
    pauseNext := (x.pauseNext + 1) % 4 })
  if x.pauseNext = 3 then
    let s := modChan s p c (fun x => { x with lastRetrain := now s, retrainForced := false, forcedDone := if x.retrainForced then some (now s) else x.forcedDone,
                                              alertsSince := if x.retrainForced then 0 else x.alertsSince })
    stackLife (modStack s p (fun x => { x with retrains := satInc 32 x.retrains })) p 0x020 1
  else s

/-- RETRAIN_PAUSE_DONE (05, R131, R132): outside the margin for the second time, the channel is fenced. -/
def execRetrainPauseDone (p c : Nat) (inMargin : Bool) (s : State) : Result :=
  let x := chanOf s p c
  let stopped := modChan s p c (fun x => { x with pausing := false, rerun := true })
  when x.pausing s (if inMargin then pauseGood s p c else if x.rerun then raiseR stopped (p / 5) (chanUnit p c) Cause.retrainFail else stopped)

/-- A channel is trained: the centres at each of the three rates, and the lanes replaced, are the link's own; the set of the stack's rate is loaded (05, R115, R118, R132, R139; log entry 8). -/
def trainChan (s : State) (p c : Nat) : State :=
  let f := fun (i : Nat) => (Config.freeBits 16 (freeNo s + i)).toNat
  let sets := (List.range 3).map (fun r => (r, (List.range 4).map (fun i => f (4 * r + i))))
  let s1 := modChan s p c (fun x => { x with shadow := sets, laneRepair := f 12, modes := {}, lastRetrain := now s, lastActivity := now s })
  writePatterns (refreshAll (loadTiming (useFreeN s1 13) p c) p c) p c

/-- CHANNEL_FULL_TRAIN_DONE (05, R132; 06, R164): a fenced channel that passed rejoins, once, where its stack is not replaced. -/
def execChannelFullTrainDone (p c : Nat) (passed_ : Bool) (s : State) : Result :=
  let s1 := modChan s p c (fun x => { x with fullTraining := false })
  let leaves := match tget? s.mem.evacs (p / 5) with | some e => e.old == p || e.spare == p | none => false
  let joins := passed_ && (stackOf s p).mapped && !spareUsable s (p / 5) && !leaves && !(chanOf s p c).rejoined
  when (chanOf s p c).fullTraining s (if joins then beginRejoin (trainChan s1 p c) p c else if passed_ then trainChan s1 p c else s1)

/-! ### Parity alerts (05, R133, R134) -/

/-- PARITY_ALERT (05, R127, Table 5.8): issue stops, the commands in the retry buffer are suspect, a retraining pause of the channel is abandoned, to run again in full; behind a replay of the other pseudo-channel it waits for the window. -/
def execParityAlert (p c pc : Nat) (s : State) : Result :=
  let since := match (chanOf s p c).forcedDone with | some t => decide (now s ≤ t + ms 1) | none => false
  when (chanRuns s p c && !(pchanOf s p c pc).replaying) s
    (modPchan (modChan s p c (fun x => { x with pausing := false, alerts := x.alerts.filter (fun t => decide (now s ≤ t + us 10)) ++ [now s],
                                                alertsSince := x.alertsSince + b2n since, lastActivity := now s,
                                                replays := x.replays ++ [pc] })) p c pc (fun q => { q with replaying := true, retry := retryLive s p q }))

/-- The suspect commands, those that the alert found in the retry buffer, are issued again in order, with the rows they need (05, Table 5.8). -/
def reissue (s : State) (p : Nat) (q : PChan) : PChan :=
  let l := q.retry
  { q with replaying := false, retry := l.map (fun e => (e.1, now s))
           openRows := l.foldl (fun t e => match e.1 with
             | .column b => tset t (placeBank b.place) (placeRow b.place)
             | .refresh b => tdel t b
             | .closeAll | .refreshAll => []
             | .row _ | .sleep | .wake => t) []
           refreshBy := l.foldl (fun t e => match e.1 with
             | .refresh b => tset t b (now s + refreshEvery (stackOf s p))
             | .refreshAll => (List.range 64).map (fun b => (b, now s + refreshEvery (stackOf s p)))
             | _ => t) q.refreshBy }

/-- PARITY_REPLAY_DONE (05, R127, R133, R134): the replay that holds the window ends: the NOTE of the replay, the retraining that three alerts within 10 µs force, the fence that three more within 1 ms after it draw. -/
def execParityReplayDone (p c pc : Nat) (s : State) : Result :=
  let s1 := modChan (modPchan s p c pc (reissue s p)) p c (fun x => { x with replays := x.replays.drop 1 })
  let s2 := stackLife (modStack s1 p (fun x => { x with parityReplays := satInc 32 x.parityReplays })) p 0x028 1
  let s3 := noteR s2 (p / 5) (chanUnit p c) Cause.parityReplay
  let x := chanOf s p c
  when ((pchanOf s p c pc).replaying && x.replays.head? == some pc) s
    (if 3 ≤ x.alertsSince then raiseR s3 (p / 5) (chanUnit p c) Cause.parityPersistent
     else if 3 ≤ x.alerts.length then modChan s3 p c (fun x => { x with retrainForced := true }) else s3)

/-! ### Self-refresh (05, R135, R136) -/

/-- The idle time after which a channel enters self-refresh, if it ever does. -/
def idleLimit (s : State) (p : Nat) : Option Nat := if outOfService s p then some (us 100) else if s.mem.idleMs = 0 then none else some (ms s.mem.idleMs)

/-- No burst waits, and no claimant other than a retraining that may be deferred needs the channel (05, R135, R136). -/
def chanIdle (s : State) (p c : Nat) : Bool :=
  s.mem.rowsDue.all (fun r => r.stack != p || r.chan != c) && !hasBursts s p c 0 && !hasBursts s p c 1 && !(chanOf s p c).pausing && !replays s p c && !(chanOf s p c).rerun && !(chanOf s p c).retrainForced

/-- A channel enters self-refresh: rows closed, all-bank refresh, the entry command (05, Table 5.9). -/
def sleepChan (s : State) (p c : Nat) : State :=
  let l := [ChanCmd.closeAll, .refreshAll, .sleep]
  modChan (refreshAll (issueCmds (issueCmds s p c 0 l) p c 1 l) p c) p c (fun x => { x with selfRefresh := true })

/-- SELF_REFRESH_ENTRY (05, R133, R135, R136): no burst, no claimant of the window, a retraining or a refresh due among them, and room for its commands. -/
def execSelfRefreshEntry (p c : Nat) (s : State) : Result :=
  let long := match idleLimit s p with | some d => passed s (chanOf s p c).lastActivity d | none => false
  when (chanRuns s p c && chanIdle s p c && !retrainDue s p c && !refreshWaits s p c && retryRoom s p c 0 3 && retryRoom s p c 1 3 && long) s (sleepChan s p c)

/-- SELF_REFRESH_EXIT (05, R136, Table 5.9): a burst or a claimant has arrived; what was due goes on from here. -/
def execSelfRefreshExit (p c : Nat) (s : State) : Result :=
  when ((chanOf s p c).selfRefresh && !chanIdle s p c && !chanTested s p c) s (wakeChan s p c)

/-! ### Changes of rate (05, R137, R138) -/

/-- The stack has a controller slice, or its catch-up walk, running (14, R349, Table 14.13). -/
def stackSliced (s : State) (p : Nat) : Option Bool :=
  let b := bistOf s (p / 5)
  let mine := fun (u : Nat) => match channelUnit u with | some (q, _) => q == p % 5 | none => false
  match b.current, b.walking with
  | some (u, _, _, _), _ => if mine u then some true else none
  | none, some (u, _, _) => if mine u then some false else none
  | none, none => none

/-- The change starts: issue stops on every channel. -/
def startRate (s : State) (p : Nat) : State := modStack s p (fun x => { x with st := .rateChange, rateTarget := rateLimit x })

/-- The channels let the stack stop: pauses and replays in progress finish first (05, Table 5.11). -/
def stackQuiet (s : State) (p : Nat) : Bool := (List.range 32).all (fun c => !(chanOf s p c).pausing && !replays s p c)

/-- RATE_CHANGE_START (05, R138; 14, R349): down at once, giving up a slice on the stack, whose catch-up comes first; up 100 ms after the last change. -/
def execRateChangeStart (p : Nat) (s : State) : Result :=
  let x := stackOf s p
  let down := decide (x.rate < rateLimit x)
  let upOk := match x.lastRateChange with | some t => passed s t (ms 100) | none => true
  when (stackRuns x && rateLimit x != x.rate && stackQuiet s p && (down || upOk)) s
    (match stackSliced s p with
     | none => startRate s p
     | some false => s
     | some true =>
       if !down then s
       else
         let s := sliceOver s (p / 5) Outcome.abandonedOther
         if (stackSliced s p).isNone then startRate s p else s)

/-- The new rate is in force, its timing set and centres loaded; every channel has left self-refresh, its banks refreshed as a whole (05, R138, Table 5.11).
DESIGN CHOICE, log entry 27: the 100 ms to a change upward run from the end of this one. -/
def newRate (s : State) (p : Nat) : State :=
  let ev := match tget? s.mem.evacs (p / 5) with | some e => (e.old == p || e.spare == p) && evacBegun s e | none => false
  let s := modStack s p (fun x => { x with rate := x.rateTarget, st := if ev then .evacuating else .serving, lastRateChange := some (now s) })
  let s := (List.range 32).foldl (fun s c => if chanTested s p c then s else wakeChan (loadTiming s p c) p c) s
  noteR s (p / 5) (stackUnit p) Cause.rateChange

/-- RATE_CHANGE_DONE (05, R138): orders that waited for a change down are answered. -/
def execRateChangeDone (p : Nat) (s : State) : Result :=
  let s1 := newRate s p
  let w := (stackOf s p).limitWaits
  let served := decide (rateLimit (stackOf s1 p) ≤ (stackOf s1 p).rate) && (stackOf s1 p).newLimit.isNone
  when ((stackOf s p).st == .rateChange) s (if served then w.foldl answerLimit (modStack s1 p (fun x => { x with limitWaits := [] })) else s1)

/-! ### Start-up of the stacks (05, R139 to R141) -/

/-- A stack's training has ended (05, R139, R140). -/
def stackTrained (s : State) (p : Nat) : State := { s with power := { s.power with stacksTrained := s.power.stacksTrained.filter (· != p) ++ [p] } }

/-- The channels of a spare stack that is powered count as just passed.
DESIGN CHOICE, log entry 27: the spec does not say from when the 20 h of a spare stack's channels are counted (14, R346). -/
def firstPasses (s : State) (p : Nat) : State :=
  if p % 5 = 4 then modBist s (p / 5) (fun b => (List.range 32).foldl (fun b c => slicePassed b (stamp s) (chanUnit p c) 0) b) else s

/-- A stack is trained at its three rates and brought to service at 8.0 Gb/s under its logical name (05, R139). -/
def serveStack (s : State) (p l : Nat) : State :=
  let s := modStack s p (fun x => { x with st := .serving, mapped := true, logicalId := l, rate := 0, scrubStart := now s, scrubPointer := 0 })
  let s := (List.range 32).foldl (fun s c => trainChan s p c) s
  stackTrained (firstPasses (stackFlags s p (stackOf s p).retired true) p) p

/-- STACK_TRAINING_DONE (05, R139, R140): a stack that fails is fenced, and its spare trains in its place or its logical stack is lost. -/
def execStackTrainingDone (p : Nat) (passed_ : Bool) (s : State) : Result :=
  when ((stackOf s p).st == .training) s
    (if passed_ then serveStack s p (stackOf s p).logicalId
     else raiseR (stackTrained s p) (p / 5) (stackUnit p) Cause.stackTrainFail)

/-- METADATA_WRITE_DONE (05, R141): every metadata stripe of a serving logical stack holds zero data, check bits and parity. -/
def execMetadataWriteDone (l : Nat) (s : State) : Result :=
  let zero := fun (s : State) (p : Nat) =>
    let lo := chunkAddr p metaStripe 0
    let hi := chunkAddr p stripeCount 0
    { s with mem := { s.mem with bytes := s.mem.bytes.filter (fun c => decide (c.1 < lo) || decide (hi ≤ c.1))
                                 ecc := s.mem.ecc.filter (fun e => decide (e.1 * 256 < lo) || decide (hi ≤ e.1 * 256)) } }
  match servedBy s l with
  | none => .next s
  | some p => when (!s.hub.ready && !s.mem.metadataDone.contains l) s
      (zero { s with mem := { s.mem with metadataDone := s.mem.metadataDone ++ [l] } } p)

end Sys2Proof.Machine
end

