-- ==== Sys2Proof/Machine/LinkEvents.lean ====
section
/-! DEFINITION. Events of the fabric links (10): control records, timers, training, bring-up, failover and change of side, lanes. -/

namespace Sys2Proof.Machine

/-- A module port. -/
def isPort (n : Nat) : Bool := decide (n < 32)

/-- The link carries sequenced flits: both ends have sent and received LINK_READY (10, R263). -/
def linkUp (p : Port) : Bool :=
  p.st == .active || (p.readyTx && p.readyRx && (p.st == .training || p.st == .bringup || p.st == .resync))

/-- A link failure is declared (10, R260). -/
def linkFailed (s : State) (n : Nat) (lanes : Nat := 0) : State := raiseR s (portRegion n) (portUnit n) Cause.linkFailed lanes

/-- A link that carries traffic or resynchronises can fail (10, R260; log entry 17). -/
def canFail (p : Port) : Bool := p.st == .active || (p.st == .resync && p.trainedLanes)

/-- The times of the last 1 ms, and now. -/
def lastMs (s : State) (l : List Nat) : List Nat := l.filter (fun t => decide (now s < t + ms 1)) ++ [now s]

/-- A protocol error is counted; the sixteenth in 1 ms fails the link (10, R257, R260). -/
def protocolError (s : State) (n : Nat) : State :=
  let l := lastMs s (portOf s n).protoTimes
  let s := modPort s n (fun p => { p with protoTimes := l })
  if 16 ≤ l.length && canFail (portOf s n) then linkFailed s n else s

/-! ### Control records (10, R263) -/

def isHello (r : CtrlRec) : Bool := match r with | .hello _ => true | _ => false
/-- The link is reset in full: of the active port in place, or, where a change or failover of its pair runs, apart from it; a port that resynchronises trains again (10, R263, R267). -/
def resetLink (s : State) (n : Nat) : State :=
  let p := portOf s n
  if p.st = .active then
    match failoverOf s (n % 16) with
    | some f =>
      if f.from_ = n && !f.inPlace then
        let s := beginExchange (dropActive s n .training) n .training (some (recvPoint p, p.gen))
        if f.draining then (bringUpPartner s n).2 else s
      else resetInPlace s n
    | none => resetInPlace s n
  else if p.st = .resync then beginExchange s n .training (some (recvPoint p, p.gen))
  else s

/-- A full link reset is asked for; no sequenced flit is sent until it completes (10, R259, R263). -/
def requestReset (s : State) (n reason : Nat) : State :=
  let p := portOf s n
  if awaitsReset p then s
  else sendRepeated (modPort s n (fun p => { p with stopped := true })) n (.reset p.gen reason false)

/-- LINK_HELLO: in a reset in place the peer's receive point resolves the orphans; without it they are unknown (10, R263). -/
def onHello (s : State) (n : Nat) (r : HelloRec) : State :=
  let p := portOf s n
  if !inExchange p then s
  else
    let s := modPort s n (fun p => { p with helloRx := true, repeats := p.repeats.filter (fun x => !isHello x.rec_) })
    let mine := fun (o : OrphanSet) => o.port == n && o.byHello
    if r.prevValid && p.prevRecvPoint.map Prod.snd == some r.prevPortGen then resolveKnown s (n % 16) mine r.prevRecvPoint else resolveUnknown s (n % 16) mine

/-- LINK_HELLO (10, R263). -/
def execLinkHello (n : Nat) (r : HelloRec) (s : State) : Result := when (isPort n && hubRuns s) s (onHello s n r)

/-- The manager recorded for a plane. -/
def mgrOf (s : State) (plane : Nat) : Option Nat := if plane = 0 then s.hub.mgrA else s.hub.mgrB
def setMgr (s : State) (plane id : Nat) : State :=
  { s with hub := if plane = 0 then { s.hub with mgrA := some id } else { s.hub with mgrB := some id } }

/-- A manager's ID may change: every active port of the plane is being reset in place, this one among them (01, R22; 10, R264). -/
def mgrMayChange (s : State) (n : Nat) : Bool :=
  (match failoverOf s (n % 16) with | some f => f.inPlace && f.from_ == n | none => false) &&
  (List.range 16).all (fun i => !portActive s (16 * (n / 16) + i))

/-- What a LINK_ASSIGN offers is recorded or judged: true where the port is to be held (01, R19, R22; 10, R264).
DESIGN CHOICE, log entry 27: of a port held for ENDPOINT_ID_MISMATCH the manager's ID is not recorded. -/
def judgeAssign (s : State) (n : Nat) (r : AssignRec) : Bool × State :=
  let k := portRegion n
  let u := portUnit n
  let idBad := match s.hub.endpointId with | some i => i != r.endpointId | none => false
  let s := if idBad then noteR s k u Cause.endpointIdMismatch
    else { s with hub := { s.hub with endpointId := some r.endpointId } }
  if r.plane ≠ n / 16 then (true, noteR s k u Cause.planeMismatch)
  else
    let mgrBad := (match mgrOf s (n / 16) with | some m => m != r.managerId | none => false) && !mgrMayChange s n
    if mgrBad then (true, noteR s k u Cause.managerMismatch)
    else (idBad, if idBad then s else setMgr s (n / 16) r.managerId)

/-- LINK_ASSIGN: accepted with the generation proposed, and answered with LINK_READY; another generation is a protocol error, and LINK_HELLO goes on (10, R259, R263). -/
def onAssign (s : State) (n : Nat) (r : AssignRec) : State :=
  let p := portOf s n
  if !inExchange p then s
  else if p.assigned then (if r.portGen = p.gen then s else protocolError s n)
  else if r.portGen ≠ (p.gen + 1) % 256 then
    let s := protocolError s n
    if p.repeats.any (fun x => isHello x.rec_) then s else sendRepeated s n (helloOf n p)
  else
    let j := judgeAssign s n r
    sendRepeated (modPort j.2 n (fun p => { p with assigned := true, offeredHeld := j.1, gen := r.portGen, switchPort := r.switchPort,
                                                   savedSwitch := some (r.switchSerial, r.switchPort), readyTx := true })) n (.ready r.portGen)

/-- LINK_ASSIGN (10, R263, R264). -/
def execLinkAssign (n : Nat) (r : AssignRec) (s : State) : Result := when (isPort n && hubRuns s) s (onAssign s n r)

/-- LINK_READY with the agreed generation: sequenced traffic may begin (10, R263). -/
def onReady (s : State) (n gen : Nat) : State :=
  let p := portOf s n
  if inExchange p && p.assigned && gen == p.gen then modPort s n (fun p => { p with readyRx := true, repeats := [] }) else s

/-- LINK_READY (10, R263). -/
def execLinkReady (n gen : Nat) (s : State) : Result := when (isPort n && hubRuns s) s (onReady s n gen)

/-- The receive point held for a failed link that a query on port n names: of the port's plane, else of any, since each is answered on any active port (10, R270). -/
def heldPoint (s : State) (n : Nat) (r : RecoverRec) : Option HeldPoint :=
  let named := s.link.points.filter (fun x => x.switchPort == r.failedSwitchPort && x.gen == r.failedPortGen && !passed s x.since (ms 10))
  match named.find? (fun x => x.port / 16 == n / 16) with
  | some x => some x
  | none => named.head?

/-- RECOVER_QUERY is answered, and the point it carries resolves the module's own orphans of that link (10, R270). -/
def onQuery (s : State) (n : Nat) (r : RecoverRec) : State :=
  if !portActive s n then s
  else match heldPoint s n r with
    | none => sendCtrl s n (.reply { failedSwitchPort := r.failedSwitchPort, failedPortGen := r.failedPortGen, queryId := r.queryId })
    | some x =>
      let s := sendCtrl s n (.reply { recvPoint := x.point, failedSwitchPort := r.failedSwitchPort, failedPortGen := r.failedPortGen, held := true, queryId := r.queryId })
      if r.held then resolveKnown s (x.port % 16) (fun o => o.port == x.port && o.gen == x.gen && !o.byHello) r.recvPoint else s

/-- RECOVER_QUERY (10, R270). -/
def execRecoverQuery (n : Nat) (r : RecoverRec) (s : State) : Result := when (isPort n && hubRuns s) s (onQuery s n r)

/-- RECOVER_REPLY with HELD 1 within 150 µs resolves the orphans it was asked for (10, R270, Table 10.14). -/
def onReply (s : State) (n : Nat) (r : RecoverRec) : State :=
  let asked := fun (o : OrphanSet) => o.queryId == r.queryId && !o.byHello && o.port / 16 == n / 16 && !passed s o.since (us 150)
  if r.held && portActive s n then
    (match s.link.failovers.find? (fun x => x.2.sets.any (fun o => asked o && !o.done)) with
     | some (pair, _) => resolveKnown s pair asked r.recvPoint
     | none => s)
  else s

/-- RECOVER_REPLY (10, R270). -/
def execRecoverReply (n : Nat) (r : RecoverRec) (s : State) : Result := when (isPort n && hubRuns s) s (onReply s n r)

/-- STALE_ROLE: the link is to be reset in full (10, R259). -/
def onStale (s : State) (n : Nat) : State := if canFail (portOf s n) then requestReset s n 0 else s

/-- STALE_ROLE (10, R259). -/
def execStaleRole (n _gen _found : Nat) (s : State) : Result := when (isPort n && hubRuns s) s (onStale s n)

/-- RESET_REQUEST is answered, or answers this module's own; the reset follows (10, R263). -/
def onResetRequest (s : State) (n : Nat) (answer : Bool) : State :=
  let p := portOf s n
  if !canFail p then s
  else if answer then (if awaitsReset p then resetLink s n else s)
  else resetLink (sendCtrl s n (.reset p.gen 0 true)) n

/-- RESET_REQUEST (10, R263). -/
def execResetRequest (n _gen _reason : Nat) (answer : Bool) (s : State) : Result := when (isPort n && hubRuns s) s (onResetRequest s n answer)

/-- Control records repeated once more: 1 µs after the last send, for at most 1 ms; a request for a reset unanswered by then takes the link down (10, R263). -/
def repeatCtrl (s : State) (n : Nat) : State :=
  let p := portOf s n
  let live := p.repeats.filter (fun r => !passed s r.first (ms 1))
  let dead := p.repeats.any (fun r => passed s r.first (ms 1) && isResetAsk r.rec_)
  let due := live.filter (fun r => passed s r.last (us 1))
  let s := modPort s n (fun p => { p with repeats := live.map (fun r => if passed s r.last (us 1) then { r with last := now s } else r) })
  let s := due.foldl (fun s r => sendCtrl s n r.rec_) s
  if dead then resetLink s n else s

/-- CTRL_REPEAT_TIMER (10, R263). -/
def execCtrlRepeatTimer (n : Nat) (s : State) : Result := when (isPort n && hubRuns s) s (repeatCtrl s n)

/-! ### Timers of retransmission (10, R258, R260) -/

/-- Resend a flit of the replay buffer; the timer restarts where it is the oldest (10, R258). -/
def resend (s : State) (n : Nat) (f : TxFlit) : State :=
  let oldest := ((portOf s n).replay.head?.map (·.seq)) == some f.seq
  emit (modPort s n (fun p => { p with retransmits := satInc 32 p.retransmits, timerFrom := if oldest then now s else p.timerFrom })) (.flit n f.seq true f.packets (seqFlit s n f.seq f.packets))

/-- The replay timer expires: the oldest flit is resent; the eighth expiry in a row fails the link (10, R258, R260). -/
def replayExpiry (s : State) (n : Nat) (f : TxFlit) : State :=
  let s := modPort (resend s n f) n (fun p => { p with expiries := p.expiries + 1 })
  if 8 ≤ (portOf s n).expiries && canFail (portOf s n) then linkFailed s n else s

/-- REPLAY_TIMER_EXPIRY (10, R258): 4 µs after the oldest flit was last sent or ACK last advanced. -/
def execReplayTimerExpiry (n : Nat) (s : State) : Result :=
  match (portOf s n).replay with
  | [] => .next s
  | f :: _ => when (linkUp (portOf s n) && !awaitsReset (portOf s n) && !suspended s n && passed s (portOf s n).timerFrom (us 4)) s (replayExpiry s n f)

/-- Name the lowest missing SEQ not named in the last 2 µs (10, R257). -/
def nameMissing (s : State) (n : Nat) : State :=
  let p := portOf s n
  let recent := p.naked.filter (fun x => !passed s x.2 (us 2))
  match p.missing.find? (fun q => !recent.any (fun x => x.1 == q)) with
  | some q =>
    let s := modPort s n (fun p => { p with naked := recent.filter (fun x => x.1 != q) ++ [(q, now s)] })
    emit s (.nak n q (idleFlit s n))
  | none => modPort s n (fun p => { p with naked := recent })

/-- NAK_REPEAT_TIMER (10, R258): a flit still missing 2 µs after it was named is named again. -/
def execNakRepeatTimer (n : Nat) (s : State) : Result := when (linkUp (portOf s n) && !(portOf s n).missing.isEmpty) s (nameMissing s n)

/-- Orphans that a query was to resolve, 150 µs after the trigger (10, R271). -/
def overdueSet (s : State) (o : OrphanSet) : Bool := !o.byHello && passed s o.since (us 150)

/-- ORPHAN_RESOLVE_TIMEOUT (10, R271): 150 µs after the trigger. -/
def execOrphanResolveTimeout (pair : Nat) (s : State) : Result :=
  match failoverOf s pair with
  | none => .next s
  | some f => when (f.sets.any (fun o => !o.done && overdueSet s o)) s (resolveUnknown s pair (overdueSet s))

/-- RECEIVE_POINT_HOLD_EXPIRY (10, R270): 10 ms after the failure. -/
def execReceivePointHoldExpiry (n : Nat) (s : State) : Result :=
  .next { s with link := { s.link with points := s.link.points.filter (fun x => !(x.port == n && passed s x.since (ms 10))) } }

/-! ### Training (10, R265 to R268, R274) -/

/-- A pair whose loss the first part says raises PAIR_LOST (10, R268). -/
def orLost (n : Nat) (t : Bool × State) : State := if t.1 then raiseR t.2 (portRegion n) (pairUnit n) Cause.pairLost else t.2

/-- A port ends its training without a lane map or a far end (10, R265). -/
def trainFailed (s : State) (n : Nat) : State := raiseR s (portRegion n) (portUnit n) Cause.trainFail

/-- A trained port is held out of service (01, R19; 10, R264, R268, R274). -/
def holdPort (s : State) (n : Nat) : State :=
  let s := modPort s n (fun p => { p with st := .held, since := now s, refresh := false, repeats := [] })
  let s := answerRetrain s n Sts.portHeld
  orLost n (sideFailed s n Sts.portHeld)

/-- A trained port resynchronises (10, R274). -/
def toResync (s : State) (n : Nat) : State := modPort s n (fun p => { p with st := .resync, since := now s, refresh := false })

/-- A port becomes active for a failover or change of side of its pair (10, R269, R273). One of 4 lanes stands by where its partner can serve with 8: a planned change is undone, after a reset in place the partner is brought up, after a failover the old port comes back (10, R253; log entry 27). -/
def takeOver (s : State) (n : Nat) (f : Failover) : State :=
  if narrowBarred s n then orLost n (sideFailed (toResync s n) n Sts.portState)
  else if changing f && portActive s f.from_ && !f.inPlace then endChange s f else activatePort s n

/-- Orphans that LINK_HELLO was to resolve are unknown where the exchange ended without it (10, R263, R271). -/
def helloOver (s : State) (n : Nat) : State := resolveUnknown s (n % 16) (fun o => o.port == n && o.byHello)

/-- What follows a training that has passed: start-up waits for the partner, a failover takes the port, a refreshed port powers off, a retrained port resynchronises (10, R266 to R269, R273, R274). -/
def afterTraining (s : State) (n : Nat) : State :=
  let p := portOf s n
  if startupTraining s n then
    orLost n (settleBoth (portDone (if p.offeredHeld then modPort s n (fun p => { p with st := .held, since := now s }) else s) n) (n % 16))
  else
    let s := helloOver s n
    if p.offeredHeld then holdPort s n
    else match failoverOf s (n % 16) with
    | some f => if f.to = n then takeOver s n f else toResync s n
    | none => if p.refresh then standBy s n else toResync s n

/-- The exchange has ended, or the port is held (10, R263, R264). -/
def exchanged (p : Port) : Bool := (p.assigned && p.offeredHeld) || (p.readyTx && p.readyRx)

/-- A full training: its lane map is formed and FEC locks, or it fails; then, once the exchange is over, it ends and the port saves its state; not over in 50 ms, it has failed (10, R252, R253, R265). -/
def trainingDone (s : State) (n : Nat) (good : BitVec 9) : State :=
  let p := portOf s n
  if p.fecLock then
    if exchanged p then afterTraining (trained s n) n
    else if passed s p.since (ms 50) then trainFailed s n
    else s
  else match laneMapOf good p.badLanes with
    | none => trainFailed s n
    | some map => lockFec (formMap s n map) n

/-- PORT_TRAINING_DONE (10, R265; log entry 17): steps 1 to 4 of the training are done, or, after the exchange, all of it. -/
def execPortTrainingDone (n : Nat) (good : BitVec 9) (s : State) : Result :=
  when (isPort n && hubRuns s && inTraining (portOf s n) && (portOf s n).st != .bringup) s (trainingDone s n good)

/-- A saved-state bring-up: its lanes are in lock; then, once the exchange is over, the port is active or held; or it fails, and the port trains fully with its NOTE (10, R269, R273). -/
def bringupDone (s : State) (n : Nat) (ok : Bool) : State :=
  let p := portOf s n
  if !ok then beginExchange (noteR s (portRegion n) (portUnit n) Cause.savedStateFail) n .training none
  else if !p.fecLock then lockFec s n
  else if !exchanged p then s
  else if p.offeredHeld then holdPort s n
  else match failoverOf s (n % 16) with
    | some f => takeOver s n f
    | none => activatePort s n

/-- PORT_BRINGUP_DONE (10, R269; log entry 17): the lanes are in lock (Table 10.9, step 7), or, after the exchange, the bring-up is done (step 9), or it has failed. -/
def execPortBringupDone (n : Nat) (ok : Bool) (s : State) : Result := when (isPort n && (portOf s n).st == .bringup) s (bringupDone s n ok)

/-- The wait of a planned change ends: the partner is brought up; after 20 µs the flits not yet acknowledged are orphans (10, R273). -/
def changeDrained (s : State) (pair : Nat) (f : Failover) : State :=
  let p := portOf s f.from_
  let g := { f with draining := false }
  let s1 := if p.replay.isEmpty then setFailover s pair g else holdOrphans s f.from_ { g with since := now s } false
  let t := bringUpPartner s1 f.from_
  if t.1 then t.2 else undoChange t.2 pair (if (portOf s (partner f.from_)).st = .held then Sts.portHeld else Sts.portFenced)

/-- PLANNED_CHANGE_DRAIN (10, R273). -/
def execPlannedChangeDrain (pair : Nat) (s : State) : Result :=
  match failoverOf s pair with
  | none => .next s
  | some f => when (f.draining && portActive s f.from_ && ((portOf s f.from_).replay.isEmpty || passed s f.since (us 20))) s (changeDrained s pair f)

/-- PORT_RESYNC_DONE (10, R274): 1 ms of IDLE without error; while a failover of the pair runs the port waits. -/
def execPortResyncDone (n : Nat) (s : State) : Result :=
  let p := portOf s n
  when (p.st == .resync && p.trainedLanes && !awaitsReset p && passed s p.since (ms 1) && (p.crcTimes ++ p.protoTimes).all (fun t => passed s t (ms 1)) && (failoverOf s (n % 16)).isNone) s
    (answerRetrain (standBy s n) n Sts.success)

/-- A port of the region refreshes its saved state (10, R266). -/
def refreshing (s : State) (k : Nat) : Bool := (List.range 8).any (fun i => let p := portOf s (regionPort k i); p.st == .resync && p.refresh)

/-- A COLD port begins the refresh of its saved state: a full training (10, R266). -/
def beginRefresh (s : State) (n : Nat) : State := modPort (beginExchange s n .resync none) n (fun p => { p with refresh := true })

/-- SAVED_STATE_EXPIRY (10, R266, Table 10.14): at most one port of a region refreshes at a time. -/
def execSavedStateExpiry (n : Nat) (s : State) : Result :=
  when (isPort n && hubRuns s && (portOf s n).st == .cold && !refreshing s (portRegion n)) s (beginRefresh s n)

/-! ### Lanes (10, R252, R260, R274) -/

/-- The spare lane can take the place of a working lane. -/
def spareLane (p : Port) : Bool := !p.laneMap.contains 8 && !p.badLanes.contains 8

/-- Lanes of the map that have lost lock since the map was formed (10, R260). -/
def unlocked (p : Port) : List Nat := p.lockLost.filter (fun x => p.laneMap.contains x)

/-- The partner can take the place of a port whose lanes degrade: it is COLD with valid state, and has not 4 lanes where the port can train with 8 (10, R253, R274). -/
def partnerFit (s : State) (n : Nat) : Bool :=
  let m := portOf s (partner n)
  m.st == .cold && savedValid s m && (failoverOf s (n % 16)).isNone && !(m.narrow && canWide (portOf s n))

/-- A lane of an active port must leave its map: more lanes without lock than the spare replaces fail the link, also where the first of them has already led to a reset; else the pair fails over and the port asks for its reset, or asks for one in place (10, R260, R263, R274). -/
def laneOut (s : State) (n lane : Nat) (lockLost : Bool) : State :=
  let p := portOf s n
  let underway := (p.st == .training && !(unlocked p).isEmpty && !p.fecLock) || (p.st == .resync && awaitsReset p)
  let s1 := modPort s n (fun p => { p with badLanes := p.badLanes ++ [lane], lockLost := if lockLost then p.lockLost ++ [lane] else p.lockLost })
  let lost := unlocked (portOf s1 n)
  if !((p.st == .active || underway) && p.laneMap.contains lane) then s1
  else if lockLost && decide (b2n (spareLane p) < lost.length) then linkFailed s1 n (lost.map (2 ^ ·)).sum
  else if p.st != .active then s1
  else if partnerFit s1 n then (bringUpPartner (requestReset (dropActive s1 n .resync) n 1) n).2
  else requestReset s1 n 1

/-- LANE_DEGRADE (10, R252): a lane loses lock or shows more than 2^20 corrected symbols in 1 s. -/
def execLaneDegrade (n lane : Nat) (lockLost : Bool) (s : State) : Result :=
  when (isPort n && decide (lane < 9) && hubRuns s && !(portOf s n).badLanes.contains lane) s (laneOut s n lane lockLost)

end Sys2Proof.Machine
end

