-- ==== Sys2Proof/Machine/DlEvents.lean ====
section
/-! DEFINITION. Events of Darinlink (11, R298 to R304): full training and the exchange of credits, recovery retraining and width, the replay timer, the link down. -/

namespace Sys2Proof.Machine

/-- The link leaves ACTIVE for a recovery retraining, which keeps sequence numbers, replay buffers and credits (11, R298). -/
def startRecovery (s : State) : State :=
  modDl s (fun d => { d with st := .training, recovering := true, leftActiveAt := some (now s) })

/-! ### Full training (11, R298, R302, R304) -/

/-- The lanes a training leaves: 16, or the group that trained whole; nothing where neither did (11, R298). -/
def dlWidthOf (good : BitVec 16) (out : List Nat) : Option Nat :=
  let low := (good.extractLsb' 0 8 == 0xFF) && !out.contains 0
  let high := (good.extractLsb' 8 8 == 0xFF) && !out.contains 1
  if low && high then some 0 else if low then some 1 else if high then some 2 else none

/-- Steps 1 to 4 of a full training are done: sequence numbers from 0, empty replay buffers, empty order windows of masters 0 and 3, and this end's DL_CREDIT_INIT (11, R284, R298, R302). -/
def dlTrained (s : State) (w : Nat) : State :=
  let s := modDl s (fun d => { d with
    seededAt := now s, sinceIdle := 0, widthAgreed := none, width := w, fullTrainings := satInc 16 d.fullTrainings, trainings := d.trainings + 1, nextSeq := 0, replay := [], expected := 0, partial_ := [], nak := false, nakAt := none,
    crcTimes := [], expiries := 0, credits := [0, 0, 0, 0, 0, 0], returns := [0, 0, 0, 0, 0, 0], peerInit := false, echoSent := false, widthAsked := none,
    recovering := false, stepFive := true })
  repeatCreditInit (emptyWindow (emptyWindow s 0) 3)

/-- DL_FULL_TRAINING_DONE (11, R298): the training ends with a width, or fails. -/
def execDlFullTrainingDone (good : BitVec 16) (s : State) : Result :=
  let d := s.link.dl
  when (hubRuns s && d.st == .training && !d.recovering && !d.stepFive) s
    (match dlWidthOf good d.groupsOut with
     | some w => dlTrained s w
     | none => modDl s (fun d => { d with st := .down }))

/-- Slot 0 returns to BOUND where its failure walk has completed (04, R109). -/
def rebindSlot0 (s : State) : State :=
  if (slotOf s 0).st = .failed ∧ (walkOf s 0).isNone then setSlot s 0 { slotOf s 0 with st := .bound } else s

/-- The link is ACTIVE: what waits is sent. -/
def dlActivate (s : State) : State :=
  flushDl (rebindSlot0 (modDl s (fun d => { d with st := .active, stepFive := false, absent := false, leftActiveAt := none, timerFrom := now s, expiries := 0 })))

/-- The peer's initial credits: taken, and echoed; with ECHO set they make the link ACTIVE (11, R302). -/
def onCreditInit (s : State) (r : DlCtrlRec) : State :=
  let d := s.link.dl
  if 2 < r.width then countDiscard s
  else if !(d.stepFive && r.trainCount == d.trainings % 256) then s
  else
    let s := modDl s (fun d => { d with credits := if d.peerInit then d.credits else (List.range 6).map (fun c => r.credits.getD c 0), peerInit := true, echoSent := true })
    let s := repeatCreditInit s
    if r.echo then dlActivate s else s

/-- DL_CREDIT_INIT (11, R302). -/
def execDlCreditInit (r : DlCtrlRec) (s : State) : Result := when (hubRuns s) s (onCreditInit s r)

/-! ### Recovery and width (11, R298, R300, R302) -/

/-- DL_RECOVERY_RETRAIN (11, R298): the retraining runs, at the width that an echoed DL_WIDTH has agreed; a request not yet answered stands. -/
def execDlRecoveryRetrain (s : State) : Result :=
  let d := s.link.dl
  when (hubRuns s && (d.recovering || d.st == .active)) s
    (flushDl (modDl s (fun d => { d with
      st := .active, recovering := false, leftActiveAt := none, recoveries := satInc 16 d.recoveries, expiries := 0, timerFrom := now s, crcTimes := [],
      width := d.widthAgreed.getD d.width, widthAgreed := none, seededAt := now s })))

/-- DL_WIDTH: a request is echoed, and both ends start the retraining; an echo starts the one this end asked for (11, R302). -/
def onWidth (s : State) (r : DlCtrlRec) : State :=
  let d := s.link.dl
  if 2 < r.width then countDiscard s
  else if d.st ≠ .active then s
  else if r.echo then
    (match d.widthAsked with
     | some (w, _, _) => if w = r.width then startRecovery (modDl s (fun d => { d with widthAsked := none, widthAgreed := some w })) else s
     | none => s)
  else startRecovery (sendDlCtrl (modDl s (fun d => { d with widthAgreed := some r.width })) 2
    { width := r.width, echo := true, trainCount := d.trainings % 256 })

/-- DL_WIDTH (11, R302). -/
def execDlWidth (r : DlCtrlRec) (s : State) : Result := when (hubRuns s) s (onWidth s r)

/-- DL_WIDTH_RETRY_TIMER (11, R302): unanswered for 100 µs, the request is sent again, at most 10 times; then the width stays. -/
def execDlWidthRetryTimer (s : State) : Result :=
  let d := s.link.dl
  match d.widthAsked with
  | none => .next s
  | some (w, t, n) => when (hubRuns s && d.st == .active && passed s t (us 100)) s
    (if n < 10 then sendDlCtrl (modDl s (fun d => { d with widthAsked := some (w, now s, n + 1) })) 2 { width := w, trainCount := d.trainings % 256 }
     else modDl s (fun d => { d with widthAsked := none }))

/-- Every held flit is resent unchanged, from the oldest (11, R300). -/
def dlResendAll (s : State) : State :=
  match s.link.dl.replay with
  | [] => s
  | f :: _ => emit (dlBefore (modDl s (fun d => { d with timerFrom := now s })) s.link.dl.replay.length) (.dlResend f.1 (s.link.dl.replay.map Prod.snd))

/-- DL_REPLAY_TIMER_EXPIRY (11, R300): after 2 µs; the eighth in a row starts a recovery retraining. -/
def execDlReplayTimerExpiry (s : State) : Result :=
  let d := s.link.dl
  let s1 := modDl (dlResendAll s) (fun d => { d with expiries := d.expiries + 1 })
  when (hubRuns s && d.st == .active && !d.replay.isEmpty && passed s d.timerFrom (us 2)) s (if 7 ≤ d.expiries then startRecovery s1 else s1)

/-! ### The link down (11, R304) -/

/-- Darinlink is down: slot 0 fails, masters 0 and 3 are absent; of what waits to be sent, or was sent and not seen acknowledged, the responses and replies are dropped and counted (11, R304).
DESIGN CHOICE, log entry 27: R110 names no region for the NOTE DARINLINK_DOWN; region 0 raises it. -/
def dlDown (s : State) : State :=
  let lost := answersIn (s.link.dl.waiting.map msgOf ++ s.link.dl.replay.map (fun x => flitMsg x.2))
  let s := modDl s (fun d => { d with
    st := .down, absent := true, recovering := false, stepFive := false, widthAsked := none, widthAgreed := none, lastTry := now s, leftActiveAt := none,
    dropped := satAdd 32 d.dropped lost, waiting := [], replay := [], partial_ := [] })
  if (slotOf s 0).st = .bound then declareFailed s 0 Cause.darinlinkDown 2 0 [] else s

/-- DARINLINK_DOWN (11, R304): not ACTIVE again within 1 ms. -/
def execDarinlinkDown (s : State) : Result :=
  let d := s.link.dl
  match d.leftActiveAt with
  | none => .next s
  | some t => when (hubRuns s && d.st != .active && passed s t (ms 1)) s (dlDown s)

/-- DL_TRAIN_RETRY_TIMER (11, R304): every 100 ms a full training is tried. -/
def execDlTrainRetryTimer (s : State) : Result :=
  let d := s.link.dl
  when (hubRuns s && d.st != .active && !d.recovering && passed s d.lastTry (ms 100)) s (modDl s (fun d => { d with st := .training, stepFive := false, lastTry := now s }))

end Sys2Proof.Machine
end

