-- ==== Sys2Proof/Machine/Issue.lean ====
section
/-! DEFINITION. How an instruction issues (08, R205 to R207, R230): fetch, illegal words, interlocks, and reading and writing the registers of a thread. -/

namespace Sys2Proof.Machine

/-! ### Registers (08, Table 8.1, R205) -/

def sreg (th : Thread) (n : Nat) : Word := th.sregs.getD n 0
def setSreg (th : Thread) (n : Nat) (v : Word) : Thread := { th with sregs := th.sregs.set n v }
def vreg (th : Thread) (n : Nat) : VReg := th.vregs.getD n 0
def setVreg (th : Thread) (n : Nat) (v : VReg) : Thread := { th with vregs := th.vregs.set n v }
def acc (th : Thread) (n : Nat) : List Word := th.accs.getD n []
def setAcc (th : Thread) (n : Nat) (v : List Word) : Thread := { th with accs := th.accs.set n v }
/-- p0 reads as all ones, and writes to it are ignored. -/
def pred (th : Thread) (n : Nat) : Word := if n = 0 then BitVec.allOnes 64 else th.preds.getD n 0
def setPred (th : Thread) (n : Nat) (v : Word) : Thread := if n = 0 then th else { th with preds := th.preds.set n v }

/-! ### Fields (08, Table 8.2, R206, R207) -/

/-- The 21 low bits of a word, signed. -/
def imm21 (f : Fields) : BitVec 21 := f.a ++ f.b ++ f.fn
/-- The immediate imm11. -/
def imm11 (f : Fields) : Word := f.fn.signExtend 64
/-- The instruction word of an opcode and fields. -/
def wordOf (op : Nat) (f : Fields) : BitVec 32 := BitVec.ofNat 6 op ++ f.d ++ (f.a ++ (f.b ++ f.fn))

/-- The values of OP that Table 8.3 lists. -/
def listedOps : List Nat :=
  [0x01, 0x02, 0x03, 0x04, 0x05, 0x06, 0x07, 0x08, 0x09, 0x0A, 0x0B, 0x0C, 0x0D, 0x10, 0x11, 0x12, 0x13, 0x14, 0x15, 0x16, 0x17, 0x18, 0x19, 0x1A, 0x1B, 0x1C,
   0x1D, 0x20, 0x21, 0x22, 0x23, 0x24, 0x25, 0x26, 0x27, 0x28, 0x29] ++
  [0x30, 0x31, 0x32, 0x33, 0x34, 0x35, 0x36, 0x37, 0x38, 0x39, 0x3A, 0x3B, 0x3C, 0x3D]

/-- The field names a vector, an accumulator or a predicate (08, R206). -/
def isV (x : BitVec 5) : Bool := decide (x.toNat < 16)
def isA (x : BitVec 5) : Bool := decide (x.toNat < 4)
def isP (x : BitVec 5) : Bool := decide (x.toNat < 8)

/-! ### Issue (08, R206, R230) -/

/-- The word at a thread's PC, where the accord's code reaches that far. -/
def fetchWord (s : State) (p : Spray) (th : Thread) : Option (BitVec 32) :=
  match tget? s.eng.accords (p.field 23 8) with
  | some a => a.code[th.pc]?
  | none => none

/-- Registers that loads under way will write: scalars by number, vectors from 32 on. -/
def pendingRegs (l : List (Nat × Tile)) : List Nat :=
  l.filterMap (fun t => match t.2.use with
    | .scalarLoad d _ _ => some d
    | .vectorLoad d _ => some (32 + d)
    | .gather d _ => some (32 + d)
    | .atomic d _ => some d
    | _ => none)

def rS (x : BitVec 5) : Nat := x.toNat
def rV (x : BitVec 5) : Nat := 32 + x.toNat

/-- An access of the thread stands held for want of room in an engine queue (07, R188). -/
def queueHolds (s : State) (t : ThreadRef) : Bool :=
  (threadTiles s t.engine t.thread).any (fun x => heldTile s x.1)

/-- A thread may issue: it runs, no access of it is held for want of queue room, and neither its engine nor the one it was placed on is being moved (07, R171, R188, R202). -/
def mayIssue (s : State) (t : ThreadRef) (th : Thread) : Bool :=
  th.phase == Phase.running && !queueHolds s t && (logEngOf s t.engine).move.isNone && (logEngOf s th.placed).move.isNone

/-- The issue pointer of an engine passes a thread (08, R230; 04, R92). -/
def passPointer (s : State) (t : ThreadRef) : State :=
  { s with eng := { s.eng with threadPtr := tset s.eng.threadPtr t.engine ((t.thread + 1) % 64) } }

/-- A thread that reaches an illegal word ends; no part of the word takes effect (08, R206). -/
def illegal (s : State) (t : ThreadRef) : State := failThread (passPointer s t) t.engine t.thread { status := Sts.illegalInstruction }

/-- What an instruction asks of its thread: to wait, to end as illegal, or its effect. -/
inductive Act where
  | wait
  | illegal
  | go (s : State)

/-- Issue of the word at a thread's PC, where that word is this instruction: illegal words end the thread, registers awaited from memory hold it (08, R206, R230).
An index beyond the code and a word of no listed opcode end the thread whichever instruction is asked for. -/
def issue (s : State) (t : ThreadRef) (op : Nat) (f : Fields) (legal : Bool) (regs : List Nat) (act : Spray → Thread → Act) : Result :=
  match threadOf? s t.engine t.thread with
  | none => .next s
  | some th =>
    match sprayOf? s th.spray with
    | none => .next s
    | some p =>
      if p.pool || !mayIssue s t th then .next s
      else match fetchWord s p th with
        | none => .next (illegal s t)
        | some w =>
          if w = wordOf op f then
            if !legal then .next (illegal s t)
            else if regs.any (fun r => (pendingRegs (threadTiles s t.engine t.thread)).contains r) then .next s
            else match act p th with
              | .wait => .next s
              | .illegal => .next (illegal s t)
              | .go s' => .next (passPointer s' t)
          else if listedOps.contains (w.toNat / 2 ^ 26) then .next s
          else .next (illegal s t)

/-- The thread goes on at the next instruction. -/
def retire (s : State) (t : ThreadRef) (th : Thread) : State := setThread s t.engine t.thread { th with pc := (th.pc + 1) % 2 ^ 24 }

/-- The thread goes on at a distance from the branch itself. -/
def branch (s : State) (t : ThreadRef) (th : Thread) (off : Int) : State :=
  setThread s t.engine t.thread { th with pc := (((th.pc : Int) + off) % (2 ^ 24 : Nat)).toNat }

/-- An instruction that only writes registers of its own thread. -/
def regOp (s : State) (t : ThreadRef) (op : Nat) (f : Fields) (legal : Bool) (regs : List Nat) (g : Spray → Thread → Thread) : Result :=
  issue s t op f legal regs (fun p th => .go (retire s t (g p th)))

end Sys2Proof.Machine
end

