-- ==== Sys2Proof/Machine/Stripes.lean ====
section
/-! DEFINITION. Work on stripes (06): corrective rewrites, commits, locks, row repair, scrub, rejoin and evacuation. -/

namespace Sys2Proof.Machine

/-! ### The stripe assembly buffer and locks (06, R152 to R156) -/

/-- STRIPE_ENTRY_HOLD_EXPIRY (06, R152): 100 µs after an entry opened it commits. -/
def execStripeEntryHoldExpiry (l stripe : Nat) (s : State) : Result :=
  match sabAt s l stripe with
  | none => .next s
  | some e => when (passed s e.openedAt (us 100)) s (sabPut s { e with due := true })

/-- STRIPE_COMMIT (06, R153): an entry that is due commits; a stripe's lock keeps it off. -/
def execStripeCommit (l stripe : Nat) (s : State) : Result :=
  match sabAt s l stripe with
  | none => .next s
  | some e => when (e.due && !stripeLocked s l stripe) s (commitEntry s e)

/-- Lock requesters by number (04, Table 4.15). -/
def lockKinds : List LockKind := [.scrub, .copier, .rejoin, .rowRepair, .rewrite, .catchUp]

/-- STRIPE_LOCK_GRANT (06, R156): the rotating pointer takes one request for a stripe whose lock is free; its open entry commits first. -/
def execStripeLockGrant (l stripe : Nat) (s : State) : Result :=
  let key := l * 2 ^ 24 + stripe
  let asks := fun i => s.mem.locks.any (fun k => k.lstack == l && k.stripe == stripe && k.kind == lockKinds.getD i .scrub)
  match rotate 6 (tget s.mem.lockPtrs key 0) asks with
  | none => .next s
  | some i =>
    let s1 := commitOpen s l stripe
    when (!stripeLocked s l stripe) s
      { s1 with mem := { s1.mem with
          lockPtrs := tset s1.mem.lockPtrs key ((i + 1) % 6)
          locks := s1.mem.locks.map (fun k => if k.lstack == l && k.stripe == stripe && k.kind == lockKinds.getD i .scrub then { k with held := true } else k) } }

/-- Zeroing of a SCRUBBING extent is under way on a logical stack, which goes before other scrub work (06, R163). -/
def zeroingOn (s : State) (l : Nat) : Bool := s.extents.any (fun e => e.2.st == .scrubbing && placed e.2 l && decide (e.2.scrubDone < e.2.size))

/-- A stored chunk shows wrong bits. -/
def showsError (s : State) (p stripe pos : Nat) : Bool :=
  let r := light s p stripe pos
  r.bad || !r.fixed.isEmpty

/-- CORRECTIVE_REWRITE (05, R127; 06, R147, R158, R163): the rewrite that a read scheduled, where the chunk has not been written since, and its verify read. -/
def execCorrectiveRewrite (l stripe pos : Nat) (errorAgain : Bool) (s : State) : Result :=
  match s.mem.rewrites.find? (fun r => r.lstack == l && r.stripe == stripe && r.pos == pos), readStack s l stripe with
  | some r, some p =>
    let write := fun (s : State) =>
      let s := { s with mem := { s.mem with rewrites := s.mem.rewrites.filter (· != r) } }
      let s := if showsError s p stripe pos then putChunk s l stripe pos (some r.data) else s
      if errorAgain then rowTrigger s p (chanOfPos stripe pos) (placeOf stripe pos) else s
    when (!zeroingOn s l && stackRuns (stackOf s p) && windowOpen s p (chanOfPos stripe pos)) s (underLock s l stripe .rewrite write)
  | _, _ => .next s

/-! ### Row repair (06, R158, R159) -/

/-- The stripe and position of a channel's place (05, R116 read backward). -/
def stripeAt (c place : Nat) : Nat × Nat := (place / 17 * 32 + (c + 32 - place % 17) % 32, place % 17)

/-- The chunks of a DRAM row that hold stripes. -/
def rowChunks (c row : Nat) : List (Nat × Nat) := ((List.range 4).map (fun i => stripeAt c (4 * row + i))).filter (fun x => decide (x.1 < stripeCount))

/-- One chunk of a row under repair: read through the codes and written back, its stripe's parity unchanged; a parity chunk that the light code cannot correct is rebuilt (06, R158, R393). -/
def rewriteChunk (l p : Nat) (s : State) (x : Nat × Nat) : State :=
  let s := commitOpen s l x.1
  let s :=
    if x.2 = 16 then
      let par := light s p x.1 16
      if par.poisoned then storeMark s p x.1 16
      else if par.bad then (let y := rebuildParity s l p x.1 1; match y.1 with | some d => storeChunk y.2 p x.1 16 d | none => y.2)
      else storeChunk (blotAll s p x.1 16 1 par.fixed) p x.1 16 par.data
    else if !(stripeValid s l x.1).getLsbD x.2 then s
    else
      let r := readChunk s l x.1 x.2 1
      match r.1 with
      | some d => storeChunk r.2 p x.1 x.2 d
      | none => storeMark r.2 p x.1 x.2
  dropLock s l x.1 .rowRepair

/-- Number of a bank of the module, for its count of soft repairs. -/
def bankNo (p c place : Nat) : Nat := ((p * 32 + c) * 2 + placePc place) * 64 + placeBank place

/-- The logical stack that holds data on a physical stack: the one it serves, or, of the spare of a running copy, the one that is copied (06, R167). -/
def stackServes (s : State) (p : Nat) : Option Nat :=
  if (stackOf s p).mapped then some (stackOf s p).logicalId
  else match tget? s.mem.evacs (p / 5) with
    | some e => if e.spare = p && e.copying then some e.lstack else none
    | none => none

/-- The chunks of a row that hold data: of the spare of a running copy, those below the copy pointer (06, R158, R167). -/
def heldChunks (s : State) (p c row : Nat) : List (Nat × Nat) :=
  match stackServes s p with
  | none => []
  | some l => (rowChunks c row).filter (fun x => (writeStacks s l x.1).contains p)

/-- The soft repair of a row: its chunks, blotter entries, counters and record (06, R158, R159; 14, Table 14.10). -/
def repairRow (s : State) (p c place : Nat) : State :=
  let row := place >>> 2
  let s := match stackServes s p with
    | some l => (heldChunks s p c row).foldl (rewriteChunk l p) s
    | none => s
  let b := tget s.mem.blotters (p / 5) {}
  let b := { b with entries := b.entries.filter (fun e => !(e.position == p % 5 && e.chan == c && e.place >>> 2 == row)) }
  let s := { s with mem := { s.mem with blotters := tset s.mem.blotters (p / 5) b, repairs := tmod s.mem.repairs (bankNo p c place) 0 (· + 1) } }
  let s := stackLife (modStack s p (fun x => { x with rowRepairs := satInc 32 x.rowRepairs })) p 0x030 1
  eventRec s 0x06 (leBytes 1 (p / 5) ++ leBytes 1 (p % 5) ++ leBytes 1 c ++ leBytes 1 (placePc place) ++ leBytes 1 (placeBank place) ++ leBytes 2 (placeRow place))

/-- The maintenance window of a channel is open to a claimant of rank 5, for d units before the next refresh of a pseudo-channel (05, Table 5.6; 06, R158). -/
def windowFor (s : State) (p c pc d : Nat) : Bool :=
  chanRuns s p c && windowOpen s p c && (List.range 64).all (fun b => decide (now s + d ≤ refreshAt s p c pc b))

/-- The row's trigger has been answered. -/
def rowDone (s : State) (r : RowRef) : State := { s with mem := { s.mem with rowsDue := s.mem.rowsDue.filter (· != r) } }

/-- ROW_REPAIR (06, R150, R158, R159, R163): a due row of a bank with spare rows left is repaired under its stripes' locks; else the stack's repairs are exhausted. -/
def execRowRepair (p c place : Nat) (s : State) : Result :=
  let r : RowRef := { stack := p, chan := c, row := place >>> 2 }
  let l := (stackServes s p).getD 16
  let blocked := (heldChunks s p c (place >>> 2)).filter (fun x => !lockFree s l x.1 .rowRepair)
  if !s.mem.rowsDue.contains r then .next s
  else if Config.spareRows ≤ tget s.mem.repairs (bankNo p c place) 0 then
    .next (noteR (modStack (rowDone s r) p (fun x => { x with repairExhausted := true })) (p / 5) (stackUnit p) Cause.rowRepairExhausted)
  else when (windowFor s p c (placePc place) (us 4) && !zeroingOn s l && reservedRoom s (p / 5) 4) s
    (if blocked.isEmpty then repairRow (rowDone s r) p c place else blocked.foldl (fun s x => askLock s l x.1 .rowRepair) s)

/-! ### Scrub (06, R161 to R163) -/

/-- A data chunk under scrub: read through the codes; an incomplete mark is made whole (06, R145, R161). -/
def scrubChunk (l p stripe : Nat) (s : State) (k : Nat) : State :=
  if !(stripeValid s l stripe).getLsbD k then s
  else
    let e := tget s.mem.ecc (chunkNo p stripe k) {}
    let s := if (light s p stripe k).poisoned && e.marked != BitVec.allOnes 32 && !posGone s l p stripe k then storeMark s p stripe k else s
    (readChunk s l stripe k 1).2

/-- Parity under scrub: an incomplete mark made whole, rebuilt where uncorrectable, corrected, compared with the data (06, R145, R161, R393). -/
def scrubParity (s : State) (l p stripe : Nat) : State :=
  let par := light s p stripe 16
  if posGone s l p stripe 16 then s
  else if par.poisoned then (if (tget s.mem.ecc (chunkNo p stripe 16) {}).marked != BitVec.allOnes 32 then storeMark s p stripe 16 else s)
  else
    let s := blotAll s p stripe 16 1 par.fixed
    if par.bad then (let x := rebuildParity s l p stripe 1; match x.1 with | some d => putChunk x.2 l stripe 16 (some d) | none => x.2)
    else if !anyErased s l p stripe && par.data != parityOf s l p stripe then
      noteR (modStack (putChunk s l stripe 16 (some (parityOf s l p stripe))) p (fun x => { x with mismatch := satInc 32 x.mismatch })) (p / 5) (stackUnit p) Cause.stripeMismatch
    else if par.fixed.isEmpty then s
    else schedule s l stripe 16 par.data

/-- The patrol holds a stripe's lock. -/
def patrolHolds (s : State) (l stripe : Nat) : Bool := s.mem.locks.any (fun k => k.lstack == l && k.stripe == stripe && k.kind == LockKind.scrub && k.held)

/-- Scrub work on the channel of a stripe's chunk goes before patrol: zeroing, then row repairs and corrective rewrites (06, R163). A row repair of a fenced channel cannot run; work on the stripe itself comes before patrol takes its lock, or after. -/
def patrolWaits (s : State) (p l stripe i : Nat) : Bool :=
  let c := chanOfPos stripe i
  let mine := patrolHolds s l stripe
  zeroingOn s l ||
  s.mem.rewrites.any (fun r => r.lstack == l && (if r.stripe = stripe then !mine else chanOfPos r.stripe r.pos == c)) ||
  s.mem.rowsDue.any (fun r => r.stack == p && !(stackOf s p).fencedChans.contains r.chan &&
    (if (rowChunks r.chan r.row).any (fun x => x.1 == stripe) then !mine else r.chan == c))

/-- Chunks of a stripe under patrol, from the next one on, each while the window of its channel is open and no other scrub work waits there: it yields to any other claimant after the chunk in progress (05, R127, Table 5.6; 06, R161, R163). -/
def scrubChunks (l p stripe : Nat) : Nat → State → State
  | 0, s => s
  | n + 1, s =>
    let i := (stackOf s p).scrubChunk
    if 17 ≤ i || !windowOpen s p (chanOfPos stripe i) || patrolWaits s p l stripe i then s
    else scrubChunks l p stripe n (modStack (if i < 16 then scrubChunk l p stripe s i else scrubParity s l p stripe) p (fun x => { x with scrubChunk := i + 1 }))

/-- A holder keeps a stripe's lock for the rest of its work. -/
def keepLock (s : State) (l stripe : Nat) (kind : LockKind) : State :=
  let t := dropLock s l stripe kind
  { t with mem := { t.mem with locks := t.mem.locks ++ [{ lstack := l, stripe := stripe, kind := kind, held := true }] } }

/-- A stripe under patrol, under its lock: what its channels' windows allow; once its last chunk has been read the patrol passes it. -/
def scrubStripe (l p stripe : Nat) (s : State) : State :=
  let mine := patrolHolds s l stripe
  if !mine && patrolWaits s p l stripe 0 then s
  else if !lockFree s l stripe .scrub then askLock s l stripe .scrub
  else
    let s := if mine then s else modStack (commitOpen s l stripe) p (fun x => { x with scrubChunk := 0 })
    let s := scrubChunks l p stripe 17 (keepLock s l stripe .scrub)
    if (stackOf s p).scrubChunk < 17 then s
    else modStack (dropLock s l stripe .scrub) p (fun x => { x with scrubPointer := stripe + 1, scrubChunk := 0 })

/-- The stripe under patrol of a logical stack: the one whose lock the patrol holds, while the stripe is in use, else the next one in use; any other lock of the patrol falls. -/
def patrolStripe (s : State) (l ptr : Nat) : Nat × State :=
  let mine := fun (k : StripeLock) => k.lstack == l && k.kind == LockKind.scrub && k.held
  let st := match s.mem.locks.find? mine with
    | some k => if nextUsed s l k.stripe = k.stripe then k.stripe else nextUsed s l ptr
    | none => nextUsed s l ptr
  (st, { s with mem := { s.mem with locks := s.mem.locks.filter (fun k => !(mine k && k.stripe != st)) } })

/-- A patrol pass has visited every stripe; the next one starts (06, R162). -/
def passDone (s : State) (p : Nat) : State :=
  modStack s p (fun x => { x with scrubPasses := (x.scrubPasses + 1) % 2 ^ 32, scrubPointer := 0, scrubLate := false, scrubStart := now s })

/-- SCRUB_STRIPE (05, R127; 06, R150, R161 to R163): the next stripe in use of a serving stack, or the rest of one on which the scrubber has yielded. -/
def execScrubStripe (p : Nat) (s : State) : Result :=
  let x := stackOf s p
  let t := patrolStripe s x.logicalId x.scrubPointer
  when (x.mapped && stackRuns x && (reservedRoom s (p / 5) 1 || patrolHolds s x.logicalId t.1)) s
    (if t.1 < stripeCount then scrubStripe x.logicalId p t.1 t.2 else passDone t.2 p)

/-- SCRUB_PERIOD_END (06, R162): the pass in progress overran its period. -/
def execScrubPeriodEnd (p : Nat) (s : State) : Result :=
  when ((stackOf s p).mapped && passed s (stackOf s p).scrubStart (s.mem.scrubMin * 60 * second)) s (modStack s p (fun x => { x with scrubLate := true }))

/-! ### Rejoin (06, R164) -/

/-- CHANNEL_REJOIN_STEP (06, R164): the next stripe in use, written where it uses the channel. -/
def execChannelRejoinStep (p c : Nat) (s : State) : Result :=
  match (chanOf s p c).rejoin with
  | none => .next s
  | some ptr =>
    let l := (stackOf s p).logicalId
    let st := nextUsed s l ptr
    let pass := fun (s : State) => modChan s p c (fun x => { x with rejoin := some (st + 1) })
    when ((stackOf s p).mapped && stackRuns (stackOf s p) && reservedRoom s (p / 5) 1 && decide (st < stripeCount)) s
      (if (posOfChan c st).isNone then pass s else underLock s l st .rejoin (fun s => pass (rejoinStripe s p c l st)))

/-- CHANNEL_REJOINED (06, R164): the walk has ended. -/
def execChannelRejoined (p c : Nat) (s : State) : Result :=
  match (chanOf s p c).rejoin with
  | none => .next s
  | some ptr => when (decide (stripeCount ≤ nextUsed s (stackOf s p).logicalId ptr)) s (rejoinDone s p c)

/-! ### Evacuation (06, R165 to R168) -/

/-- A stack of a region on which a trigger of R165 stands: 64 rebuilds within 24 h, or a row-repair trigger after REPAIR_EXHAUSTED. -/
def evacDue (s : State) (k : Nat) : Option Nat :=
  ((List.range 5).map (5 * k + ·)).find? (fun p =>
    let x := stackOf s p
    x.mapped && (decide (64 ≤ (x.ueStamps.filter (fun t => decide (now s < t + 86400 * second))).length) ||
      x.repairTrigger))

/-- The triggers that stood on a stack are spent. -/
def spendTriggers (s : State) (p : Nat) : State := modStack s p (fun x => { x with ueStamps := [], repairTrigger := false })

/-- EVACUATION_START (06, R165, R166): the evacuation whose spare has been taken begins, or a trigger that stands takes it. -/
def execEvacuationStart (k : Nat) (s : State) : Result :=
  match tget? s.mem.evacs k with
  | some e => when (!evacBegun s e) s (beginEvac s k e)
  | none => match evacDue s k with
    | none => .next s
    | some p =>
      let t := triggerEvac (spendTriggers s p) p 0
      match tget? t.2.mem.evacs k with
      | some e => .next (beginEvac t.2 k e)
      | none => .next t.2

/-- SPARE_TRAINED (05, R139; 06, R166): the spare serves at the rate of the stack it replaces, and the copy begins at stripe 0. -/
def execSpareTrained (k : Nat) (s : State) : Result :=
  match tget? s.mem.evacs k with
  | none => .next s
  | some e =>
    let go := fun (x : Stack) => { x with evacState := EvacState.copying, evacPointer := 0 }
    let s1 := modStack (modStack s e.old go) e.spare (fun x => { go x with rate := (stackOf s e.old).rate, st := .evacuating })
    let s2 := firstPasses ((List.range 32).foldl (fun s c => trainChan s e.spare c) s1) e.spare
    when (evacBegun s e && !e.copying) s (setEvac s2 k { e with copying := true })

/-- EVACUATION_COPY_STRIPE (06, R166, R167): the next stripe in use is copied; a change of rate makes the copy pause. -/
def execEvacuationCopyStripe (k : Nat) (s : State) : Result :=
  match tget? s.mem.evacs k with
  | none => .next s
  | some e =>
    let st := nextUsed s e.lstack e.pointer
    when (e.copying && (stackOf s e.old).st != .rateChange && (stackOf s e.spare).st != .rateChange && reservedRoom s k 1 && decide (st < stripeCount)) s (copyStripe s k st e)

/-- EVACUATION_CUTOVER (06, R168): the copy pointer has passed the last stripe. -/
def execEvacuationCutover (k : Nat) (s : State) : Result :=
  match tget? s.mem.evacs k with
  | none => .next s
  | some e => when (e.copying && (stackOf s e.old).st != .rateChange && decide (stripeCount ≤ nextUsed s e.lstack e.pointer)) s (cutover s k e)

/-- EVACUATION_ABANDON (06, R167): the spare fails before cutover. -/
def execEvacuationAbandon (k : Nat) (s : State) : Result :=
  match tget? s.mem.evacs k with
  | none => .next s
  | some e => .next (raiseR s k (stackUnit e.spare) Cause.spareFailed)

end Sys2Proof.Machine
end

