-- ==== Sys2Proof/Machine/Threads.lean ====
section
/-! DEFINITION. The life of threads and launches (07, R175 to R178, R181; 08, R209). -/

namespace Sys2Proof.Machine

/-- Items of a launch placed in a region and not started (07, R176). -/
def placedAhead (p : Spray) (k : Nat) : Nat := (p.items.filter (fun x => match x.2 with | .placed e => engRegion e == k | _ => false)).length

/-- Every lower item of the same region has been placed (07, R176). -/
def placedInOrder (s : State) (p : Spray) (i k : Nat) : Bool :=
  (List.range i).all (fun j => (tget? p.items j).isSome || engRegion (placeEngine s p j) != k)

/-- Items that are placed with an item: the whole block of ZERO that it is the first of (09, R240). -/
def placedTogether (s : State) (p : Spray) (i : Nat) : Nat := let g := blockItems s p i; if g.1 = i then g.2 else 1

/-- An item, with those that run with it, goes to its logical engine; in a region that is lost it ends ENGINE_LOST (07, R175; 09, R240; 12, R321). -/
def placeItem (s : State) (n i e : Nat) (p : Spray) : State :=
  let g := placedTogether s p i
  if (regFault s (engRegion e)).fenced then (List.range g).foldl (fun s j => endItem s n (i + j) (some { status := Sts.engineLost })) s
  else setSpray s n { p with items := (List.range g).foldl (fun t j => tset t (i + j) (.placed e)) p.items }

/-- THREAD_PLACEMENT (07, R175, R176). -/
def execThreadPlacement (n i : Nat) (s : State) : Result :=
  match sprayOf? s n with
  | none => .next s
  | some p =>
    let e := placeEngine s p i
    when (decide (i < p.total) && (tget? p.items i).isNone && placedInOrder s p i (engRegion e) && decide (placedAhead p (engRegion e) + placedTogether s p i ≤ 65536)) s (placeItem s n i e p)

/-- THREAD_START (07, R176, R177, R183): the engine's next item starts on a free hardware thread with room for its scratch. -/
def execThreadStart (e : Nat) (s : State) : Result :=
  match freeThread s e, nextStart s e with
  | some h, some (n, p, i) =>
    when (engineRuns s e && scratchRoom s e p) s (startItem s e h n p i)
  | _, _ => .next s

/-- THREAD_END (07, R181; 08, R209): every access of the thread has been answered. -/
def execThreadEnd (t : ThreadRef) (s : State) : Result :=
  match threadOf? s t.engine t.thread with
  | none => .next s
  | some th => match sprayOf? s th.spray with
    | none => .next s
    | some p => match threadOutcome p th with
      | none => .next s
      | some f => when (threadTiles s t.engine t.thread).isEmpty s (endThread s t.engine t.thread th f)

/-- WATCHDOG_EXPIRY (07, R177): a thread of a spray has run for RUN_LIMIT ms. -/
def execWatchdogExpiry (t : ThreadRef) (s : State) : Result :=
  match threadOf? s t.engine t.thread with
  | none => .next s
  | some th => match sprayOf? s th.spray with
    | none => .next s
    | some p =>
      let limit := p.field 103 88
      when (!p.pool && decide (0 < limit) && passed s th.startAt (ms limit)) s (stopThread s t.engine t.thread { status := Sts.watchdog })

/-- SPRAY_COMPLETE (07, R178). -/
def execSprayComplete (n : Nat) (s : State) : Result :=
  match sprayOf? s n with
  | none => .next s
  | some p => when (sprayEnded s n p) s (completeSpray s n)

end Sys2Proof.Machine
end

