-- ==== Sys2Proof/Machine/PoolOps.lean ====
section
/-! DEFINITION. Items of the built-in pool operations at work (09, R233, R237 to R249): they read their sources as tiles, compute, and apply their units one by one. -/

namespace Sys2Proof.Machine

/-- Leading consecutive numbers of a list, at most n. -/
def leadingRun : Nat → List Nat → Nat
  | 0, _ => 0
  | _, [] => 0
  | _, [_] => 1
  | n + 1, a :: b :: t => if b = a + 1 then 1 + leadingRun n (b :: t) else 1

/-- A tile of an item. -/
def itemTile (t : ThreadRef) (th : Thread) (p : Spray) (base rows op : Nat) (use : TileUse) (bytes : List Byte) : Tile :=
  { engine := t.engine, thread := t.thread, spray := th.spray, asid := p.asid, base := base, rows := rows, rowBytes := 256, stride := 256, op := op,
    direct := dKind p.desc == PoolKind.digest, use := use, bytes := bytes }

/-- Issue a tile of an item, or end it NON_CANONICAL (01, R25; 07, R193). -/
def issueItem (s : State) (t : ThreadRef) (x : Tile) : State :=
  if x.direct || x.canonical then newTile s x else failThread s t.engine t.thread { status := Sts.nonCanonical, pva := x.badPva }

/-- A resident item that may go on: it runs, and nothing of it is outstanding. -/
def idleItem (s : State) (t : ThreadRef) : Option (Thread × Spray) :=
  match threadOf? s t.engine t.thread with
  | none => none
  | some th => match sprayOf? s th.spray with
    | none => none
    | some p => if p.pool && mayIssue s t th && (threadTiles s t.engine t.thread).isEmpty then some (th, p) else none

/-- One stage of an item's computation: the lines it still needs are read, up to 64 at a time; with all of them it computes its units. -/
def itemStage (s : State) (t : ThreadRef) (th : Thread) (p : Spray) : State :=
  let d := p.desc
  let base := p.base
  if itemOutOfRange d th.item th.got then failThread s t.engine t.thread { status := Sts.indexRange }
  else match itemLacks d base th.item th.got with
    | [] => setThread (useFree s) t.engine t.thread { th with computed := true, units := itemUnits d (freeNo s) th.item th.got }
    | l :: more =>
      let n := leadingRun 64 (l :: more)
      issueItem s t (itemTile t th p (256 * l) n Op.readNoalloc .itemRead (List.replicate (256 * n) 0))

/-- A stage of an item of a kind. -/
def itemStep (kind : Nat) (t : ThreadRef) (s : State) : State :=
  match idleItem s t with
  | none => s
  | some (th, p) => if dKind p.desc = kind ∧ !th.computed then itemStage s t th p else s

/-- FILL (09, R239). -/
def execFill (t : ThreadRef) (s : State) : Result := .next (itemStep PoolKind.fill t s)
/-- ZERO (09, R240). -/
def execZero (t : ThreadRef) (s : State) : Result := .next (itemStep PoolKind.zero t s)
/-- COPY (09, R239). -/
def execCopy (t : ThreadRef) (s : State) : Result := .next (itemStep PoolKind.copy t s)
/-- COMPARE (09, R239). -/
def execCompare (t : ThreadRef) (s : State) : Result := .next (itemStep PoolKind.compare t s)
/-- REDUCE (09, R241, R242). -/
def execReduce (t : ThreadRef) (s : State) : Result := .next (itemStep PoolKind.reduce t s)
/-- GATHER (09, R239). -/
def execGather (t : ThreadRef) (s : State) : Result := .next (itemStep PoolKind.gather t s)
/-- SCATTER (09, R239). -/
def execScatter (t : ThreadRef) (s : State) : Result := .next (itemStep PoolKind.scatter t s)
/-- SEARCH (09, R245, R246). -/
def execSearch (t : ThreadRef) (s : State) : Result := .next (itemStep PoolKind.search t s)
/-- ATTEND (09, R247 to R249). -/
def execAttend (t : ThreadRef) (s : State) : Result := .next (itemStep PoolKind.attend t s)
/-- DIGEST (09, R243). -/
def execDigest (t : ThreadRef) (s : State) : Result := .next (itemStep PoolKind.digest t s)

/-! ### Units (09, R233, R236, R240) -/

/-- Units of a thread's items not yet applied: number, address, data; a block's items are one line each. -/
def unitsLeft (p : Spray) (th : Thread) : List (Nat × Nat × Line) :=
  let c := poolUnits p.desc
  let all := if th.items = 1 then th.units.map (fun u => (th.item * c + u.1, u.2)) else (List.range th.items).map (fun j => (th.item + j, dDst p.desc + 256 * (th.item + j), 0))
  all.filter (fun u => !p.commits.contains u.1)

/-- A merge is applied and its bit set in the same step. -/
def mergeUnit (s : State) (t : ThreadRef) (th : Thread) (p : Spray) : State :=
  let w := mergeItem p.desc (freeNo s) (p.base) th.item (engRegion t.engine) th.got p.work
  markUnit (modSpray (useFree s) th.spray (fun p => { p with work := w })) th.spray th.item

/-- The next unit of an item is applied or sent to its home agent. -/
def commitUnit (s : State) (t : ThreadRef) (th : Thread) (p : Spray) : State :=
  let zero := dKind p.desc == PoolKind.zero
  if mergesItems p.desc then (if p.commits.contains th.item then s else mergeUnit s t th p)
  else match unitsLeft p th with
    | [] => s
    | (u, a, d) :: more =>
      if th.items = 16 ∧ more.length = 15 then issueItem s t (itemTile t th p a 16 Op.zeroLine (.zeroBlock u) (List.replicate 4096 0))
      else issueItem s t (itemTile t th p a 1 (if zero then Op.zeroLine else Op.writeNoalloc) (.itemUnit u) (lineBytes d))

/-- POOL_ITEM_UNIT_COMMIT (09, R233). -/
def execPoolItemUnitCommit (t : ThreadRef) (s : State) : Result :=
  match idleItem s t with
  | none => .next s
  | some (th, p) => when th.computed s (commitUnit s t th p)

end Sys2Proof.Machine
end

