-- ==== Sys2Proof/Machine/EngineEvents.lean ====
section
/-! DEFINITION. Accesses of the engines under way (07, R187 to R191), fault batches (R194 to R199), invalidation (R200), moves and losses of engines (R202, R203). -/

namespace Sys2Proof.Machine

/-! ### Accesses (07, R187 to R191) -/

/-- An access, its tile and its launch. -/
def accessParts (s : State) (id : Nat) : Option (Access × Tile × Spray) :=
  match accessOf? s id with
  | none => none
  | some x => match tileOf? s x.tile with
    | none => none
    | some t => (sprayOf? s t.spray).map (fun p => (x, t, p))

def localAccess (s : State) (x : Access) : Bool := x.ppa / 2 ^ 40 == selfId s

/-- ENGINE_LOCAL_ACCESS (07, R187). -/
def execEngineLocalAccess (id : Nat) (s : State) : Result :=
  match accessParts s id with
  | none => .next s
  | some (x, t, p) => when (x.st == .waiting && localAccess s x && !t.waitsOnFault && !mustFollow s id x t false) s (issueLocal s id x t p)

/-- ENGINE_QUEUE_ROOM (07, R188): the oldest held access enters the engine queue. -/
def execEngineQueueRoom (k : Nat) (s : State) : Result :=
  match (regionOf s k).engineHeld with
  | [] => .next s
  | r :: rest =>
    let s1 := modRegion s k (fun y => { y with engineHeld := rest })
    when (decide ((regionOf s k).engineQ.length < 1024)) s
      (match r.access with
       | some id => enterIngress s1 id r r.path
       | none => let a := arrive s1 k r; modRegion a.2 k (fun y => { y with engineQ := y.engineQ ++ [a.1] }))

/-- The access stores a destination line of a pool operation. -/
def unitTile (t : Tile) : Bool := match t.use with | .itemUnit _ => true | .zeroBlock _ => true | _ => false

/-- First send of a remote access, with a free tag and its forwarding entry. -/
def firstSend (s : State) (id : Nat) (x : Access) (t : Tile) (p : Spray) : State :=
  let k := engRegion t.engine
  let dest := x.ppa / 2 ^ 40
  match freeTag s k dest with
  | none => s
  | some tag =>
    let f : Forward := { region := k, tag := tag, endpoint := dest, engine := t.engine, thread := t.thread, gen := (logEngOf s t.engine).gen, access := id }
    let x := { x with st := AccState.remote tag (now s) }
    sendRemote (setAccess { s with eng := { s.eng with forwards := s.eng.forwards ++ [f] } } id x) id x t p tag

/-- REMOTE_ACCESS_SEND (07, R185, R189; 09, R236): a pool operation's destination on another module fails its item. -/
def execRemoteAccessSend (id : Nat) (s : State) : Result :=
  match accessParts s id with
  | none => .next s
  | some (x, t, p) =>
    when (x.st == .waiting && !localAccess s x && !t.waitsOnFault && !mustFollow s id x t true) s
      (if unitTile t then failAccess s id { status := Sts.destRemote, pva := x.pva } else firstSend s id x t p)

/-- REMOTE_RETRY_BACKOFF (07, R189): BACKOFF is over; the access is sent again with a new MSG_COUNTER. -/
def execRemoteRetryBackoff (id : Nat) (s : State) : Result :=
  match accessParts s id with
  | none => .next s
  | some (x, t, p) => match x.st with
    | .backoff tag first until_ =>
      let y := { x with st := AccState.remote tag first }
      when (decide (until_ ≤ now s)) s (sendRemote (setAccess s id y) id y t p tag)
    | _ => .next s

/-- REMOTE_TIMEOUT (07, R189, R190; of a lost thread's access R178): 50 ms after the first send; the tag of a request under way stays out of use. -/
def execRemoteTimeout (id : Nat) (s : State) : Result :=
  match accessOf? s id with
  | none => .next s
  | some x =>
    let fail := fun (s : State) => failAccess s id { status := Sts.remoteTimeout, pva := x.pva }
    match x.st with
    | .remote _ first => when (passed s first (ms 50)) s (fail (closeForwards s (fun f => f.access == id && !f.held)))
    | .backoff _ first _ =>
      when (passed s first (ms 50)) s (fail { s with eng := { s.eng with forwards := s.eng.forwards.filter (fun f => !(f.access == id && !f.held)) } })
    | _ => .next s

/-! ### Fault batches (07, R194 to R199) -/

/-- FAULT_BATCH_CLOSE (07, R194, R196): 256 records, or 20 µs after the first; a region that holds a closed batch goes on filling the open one. -/
def execFaultBatchClose (k : Nat) (s : State) : Result :=
  let c := collectOf s k
  when (!c.openRecs.isEmpty && (decide (256 ≤ c.openRecs.length) || passed s c.openSince (us 20)) && !holdsBatch s k) s (closeBatch s k)

/-- The batch that is written next: those of a withdrawn ring first, each in BATCH_SEQ order (07, R195, R197). -/
def nextBatch (s : State) : Option Batch :=
  let first := fun (l : List Batch) => (sortBy (fun (a b : Batch) => decide (a.seq ≤ b.seq)) l).head?
  match first (s.eng.batches.filter (fun b => b.written && b.slot.isNone)) with
  | some b => some b
  | none => first (s.eng.batches.filter (fun b => !b.written))

/-- The lines of a slot that a batch fills: offset in the slot, words minus one, data; records first, header last. -/
def batchLines (s : State) (b : Batch) : List (Nat × Nat × Line) :=
  let recs := (List.range b.recs.length).filterMap (fun i => b.recs[i]?.map (fun r => r.bytes (recWaits s b i r)))
  let lines := (List.range (ceilDiv recs.length 8)).map (fun j =>
    let part := (recs.drop (8 * j)).take 8
    (256 * (j + 1), 4 * part.length - 1, bytesLine part.flatten))
  lines ++ [(0, 7, bytesLine b.header)]

/-- Write the lines in order, up to the first error (07, R197). -/
def writeLines (base k tenant : Nat) : List (Nat × Nat × Line) → State → Bool × State
  | [], s => (true, s)
  | (o, len, d) :: rest, s =>
    let x := moduleStore s (.recallFor 0) k (base + o) len d none (selfId s) tenant
    if x.1 = some 0 then writeLines base k tenant rest x.2 else (false, x.2)

/-- A batch write was answered with an error: the ring is withdrawn; batches in it wait to be written again (07, R197). -/
def withdrawRing (s : State) (b : Batch) : State :=
  noteR { s with eng := { s.eng with ring := none, ringWithdrawn := true,
                                     batches := s.eng.batches.map (fun x => if x.slot.isSome then { x with slot := none, reissued := true } else x) } }
    b.region 0 Cause.faultRingLost b.seq

/-- FAULT_BATCH_WRITE (07, R195, R197): the next batch of all goes to the slot at the head, once that is free and nothing stands between the module and its lines. -/
def execFaultBatchWrite (k : Nat) (s : State) : Result :=
  match s.eng.ring, nextBatch s with
  | some r, some b =>
    let base := r.offset + 16384 * r.head
    let lines := batchLines s b
    let n := (extentAt s base).getD 0
    let free_ := !s.eng.batches.any (fun x => x.slot == some r.head)
    let allowed := extentAt s base == some n && (extentOf s n).st == .granted && rightsOf (extentOf s n).access (fun _ => true) (selfId s) &&& 3 == 3
    when (b.region == k && free_ && lines.all (fun l => quietLine s (base + l.1))) s
      (if !allowed then withdrawRing s b
       else
         let w := writeLines base k (extentOf s n).tenant lines s
         if w.1 then { w.2 with eng := { w.2.eng with
             ring := some { r with head := (r.head + 1) % r.slots }
             batches := w.2.eng.batches.map (fun x => if x.seq = b.seq then { x with written := true, slot := some r.head } else x) } }
         else withdrawRing w.2 b)
  | _, _ => .next s

/-- The fault timeout for a fault of a time (07, R199). -/
def timeoutAt (s : State) (since : Nat) : Nat := ((s.eng.timeouts.find? (fun e => decide (e.1 ≤ since))).map Prod.snd).getD 100

/-- FAULT_TIMEOUT (07, R199): no verdict in time since the tile's first fault. -/
def execFaultTimeout (i : Nat) (s : State) : Result :=
  match tileOf? s i with
  | none => .next s
  | some t => match t.st with
    | .faulted _ since _ pva => when (passed s since (ms (timeoutAt s since))) s (failThread s t.engine t.thread { status := Sts.faultTimeout, pva := pva })
    | _ => .next s

/-! ### Invalidation (07, R200) -/

/-- An access used a translation that an INVALIDATE_RANGE dropped (07, R200). -/
def usedDropped (t : Tile) (id : Nat) (x : Access) : Bool :=
  t.stale.any (fun r => r.1 == id && decide (r.2.1 ≤ x.pva / 65536) && decide (x.pva / 65536 < r.2.1 + r.2.2))

/-- Every access of a logical engine that used a dropped translation has been answered; of a lost thread, whose entries in the response router are closed, every access of this module (07, R200, R203). -/
def drained (s : State) (e id : Nat) : Bool :=
  s.eng.accesses.all (fun a => match tileOf? s a.2.tile with
    | some t => !(t.engine == e && usedDropped t id a.2 && (t.thread != 64 || a.2.st == AccState.inModule))
    | none => true)

/-- An invalidation all 512 engines have acknowledged is over: its order is answered, its address space goes. -/
def endInval (s : State) (v : Inval) : State :=
  let s := { s with eng := { s.eng with invals := s.eng.invals.filter (fun x => x.id != v.id), asids := if v.destroy then tdel s.eng.asids v.asid else s.eng.asids } }
  match v.waits with
  | some h => finish s h (if v.destroy then Ord.asidDestroy else Ord.invalidateRange) Sts.success
  | none => s

/-- INVALIDATE_ACK (07, R200): a logical engine acknowledges every running invalidation it has drained. -/
def execInvalidateAck (e : Nat) (s : State) : Result :=
  let acked := s.eng.invals.map (fun v => if !v.acked.contains e && drained s e v.id then { v with acked := v.acked ++ [e] } else v)
  let s := { s with eng := { s.eng with invals := acked } }
  .next ((acked.filter (fun v => decide (512 ≤ v.acked.length))).foldl endInval s)

/-! ### Moves and losses of engines (07, R171, R202, R203) -/

/-- Threads that a planned move of a logical engine takes along: its own, or, of an adopted one, those placed on it. -/
def movedThreads (s : State) (e : Nat) : List (Nat × Nat × Thread) :=
  match (logEngOf s e).adoptedBy with
  | none => (engineThreads s e).map (fun t => (e, t.1, t.2))
  | some _ => let a := runner s e; ((engineThreads s a).filter (fun t => t.2.placed == e)).map (fun t => (a, t.1, t.2))

/-- Every thread to be moved is at a safe point. -/
def movesafe (s : State) (e : Nat) : Bool := (movedThreads s e).all (fun t => (threadTiles s t.1 t.2.1).all (fun x => x.2.waitsOnFault))

/-- When an abandoned move may be tried again (14, R349), by logical engine. -/
def moveRetry (s : State) (e : Nat) : Nat := tget (bistOf s (engRegion e)).retryAt e 0

/-- The replacement of an adopted engine is withheld until its record is acknowledged (12, R315). -/
def moveWithheld (s : State) (e : Nat) : Bool :=
  s.fault.out.any (fun o => o.withheld && !o.hub && o.region == engRegion e && o.unit == unitId Kind.engine (logEngOf s e).phys)

/-- PLANNED_MOVE_START (07, R171, R202; 12, R315; 14, R348, R349): a logical engine begins to move to a free spare: for the self-test of its engine while no FENCE or DRYDOWN record is pending, or from the engine that has adopted it where its replacement is not withheld. -/
def execPlannedMoveStart (e : Nat) (s : State) : Result :=
  let l := logEngOf s e
  let may := if l.adoptedBy.isSome then !moveWithheld s e else !(physOf s (engRegion e) l.phys).fenced && !recordPending s
  when (l.move.isNone && may && !(regFault s (engRegion e)).fenced && !s.fault.halted && decide (moveRetry s e ≤ now s)) s (beginMove s e).2

/-- A thread of an adopted engine goes to the spare with its scratch, its private memory, its tiles and its items. -/
def moveThread (s : State) (e : Nat) (x : Nat × Nat × Thread) : State :=
  let a := x.1
  let h := x.2.1
  let th := x.2.2
  let h2 := (freeThread s e).getD h
  let relocate := fun (m : List Host.Cell) (from_ to_ n : Nat) => writeRange (writeRange m to_ (readRange m from_ n)) from_ (List.replicate n 0)
  let s := { s with eng := { s.eng with
    scratch := relocate s.eng.scratch (scratchAddr a h 0) (scratchAddr e h2 0) (2 ^ 19)
    priv := relocate s.eng.priv (privAddr a h 0) (privAddr e h2 0) (2 ^ 20)
    tiles := s.eng.tiles.map (fun t => if t.2.engine == a && t.2.thread == h then (t.1, { t.2 with engine := e, thread := h2 }) else t) } }
  let s := modSpray s th.spray (fun p => { p with items := p.items.map (fun i => match i.2 with
    | .started b g => if b == a && g == h then (i.1, .started e h2) else i
    | _ => i) })
  setThread (dropThread s a h) e h2 th

/-- A planned move is done: the logical engine runs on its new physical engine with a new generation (07, R171, R202). -/
def moveDone (s : State) (e : Nat) (m : PlannedMove) : State :=
  let k := engRegion e
  let l := logEngOf s e
  let moved := movedThreads s e
  let s1 := modLogEng s e (fun l => { l with phys := m.spare, gen := (l.gen + 1) % 256, move := none, adoptedBy := none })
  match l.adoptedBy with
  | none => modPhys s1 k l.phys (fun p => { p with active := false })
  | some _ => replaced (moved.foldl (fun s x => moveThread s e x) s1) false k (unitId Kind.engine l.phys)

/-- PLANNED_MOVE_DONE (07, R202). -/
def execPlannedMoveDone (e : Nat) (s : State) : Result :=
  match (logEngOf s e).move with
  | none => .next s
  | some m => when (movesafe s e) s (wakeResumed (moveDone s e m))

/-- A move found no safe point: the threads go on, the spare is free again, and a move made for self-test is entered as a slice that was abandoned (07, R202; 14, R349, Table 14.6). -/
def moveAbandoned (s : State) (e : Nat) (m : PlannedMove) : State :=
  let k := engRegion e
  let l := logEngOf s e
  let s := modLogEng (modPhys s k m.spare (fun p => { p with active := false })) e (fun l => { l with move := none })
  let s := modBist s k (fun b => { b with retryAt := tset b.retryAt e (now s + ms 10) })
  if l.adoptedBy.isSome then s
  else
    let s := modBist s k (fun b => { b with lastStamp := stamp s, run := satInc 32 b.run, abandoned := satInc 16 b.abandoned })
    sliceEntry s k { timestamp := stamp s - (now s - m.since), unit := unitId Kind.engine l.phys, segment := 0, outcome := Outcome.abandonedDrain,
                     duration := min 0xFFFF ((now s - m.since) / 250), catchUp := 0 }

/-- PLANNED_MOVE_ABANDON (07, R202): 50 µs after the move began some thread is not at a safe point. -/
def execPlannedMoveAbandon (e : Nat) (s : State) : Result :=
  match (logEngOf s e).move with
  | none => .next s
  | some m => when (passed s m.since (us 50) && !movesafe s e) s (wakeResumed (moveAbandoned s e m))

/-- ENGINE_ABRUPT_FAIL (07, R203; 09, R235; 12, Table 12.10). -/
def execEngineAbruptFail (k i : Nat) (s : State) : Result := .next (raiseR s k (unitId Kind.engine i) Cause.engineFailed)

end Sys2Proof.Machine
end

