-- ==== Sys2Proof/Machine/EngineMem.lean ====
section
/-! DEFINITION. Memory instructions of the engines (08, R210 to R215, Tables 8.7 and 8.8; 07, R182 to R186). -/

namespace Sys2Proof.Machine

/-- The end of a thread whose access is outside its window (08, R211). -/
def outOfRange (s : State) (t : ThreadRef) : State := failThread s t.engine t.thread { status := Sts.scratchRange }

/-- The end of a thread whose access to private memory draws DATA_ERROR; it has no PVA (07, Table 7.6, R180). -/
def privError (s : State) (t : ThreadRef) : State := failThread s t.engine t.thread { status := Sts.memDataError, detail := Sts.dataError }

/-- An access of n bytes at an offset of a space draws DATA_ERROR from the metadata that holds private memory (07, R182). -/
def localFails (s : State) (t : ThreadRef) (th : Thread) (space at_ n : Nat) (write : Bool) : Bool :=
  space == 2 && privFails s t.engine t.thread th.privValid at_ n write

/-- A memory instruction waits for a load marked ACQUIRE, and, in the pool, a RELEASE for every earlier access (07, R184; 08, R215). -/
def memHeld (s : State) (t : ThreadRef) (pool release : Bool) : Bool :=
  let l := threadTiles s t.engine t.thread
  l.any (fun x => x.2.acquire) || (pool && release && !l.isEmpty)

/-- A tile of a thread. -/
def threadTile (t : ThreadRef) (th : Thread) (p : Spray) (base rows rowBytes stride op : Nat) (use : TileUse) (bytes : List Byte) (acquire : Bool) : Tile :=
  { engine := t.engine, thread := t.thread, spray := th.spray, asid := p.asid, base := base, rows := rows, rowBytes := rowBytes, stride := stride, op := op,
    use := use, bytes := bytes, acquire := acquire }

/-- A pool access: its tile is translated and issued, or the thread ends NON_CANONICAL (07, R193; 01, R25). -/
def poolAccess (s : State) (t : ThreadRef) (th : Thread) (x : Tile) : State :=
  if x.canonical then retire (newTile s x) t th
  else failThread s t.engine t.thread { status := Sts.nonCanonical, pva := x.badPva }

/-- n bytes at an offset of a space: 1 the scratch window, 2 private memory; nothing where they are not in range (07, R182, R183). -/
def readLocal (s : State) (t : ThreadRef) (th : Thread) (space at_ n : Nat) : Option (List Byte) :=
  if space = 1 then (if at_ + n ≤ th.scratchBytes then some (readScratch s t.engine t.thread at_ n) else none)
  else if at_ + n ≤ 2 ^ 20 then some (readPriv s t.engine t.thread th.privValid at_ n) else none

/-- Write bytes at an offset of a space. -/
def writeLocal (s : State) (t : ThreadRef) (th : Thread) (space at_ : Nat) (bs : List Byte) : Option (State × Thread) :=
  if space = 1 then (if at_ + bs.length ≤ th.scratchBytes then some (writeScratch s t.engine t.thread at_ bs, th) else none)
  else if at_ + bs.length ≤ 2 ^ 20 then some (writePriv s t.engine t.thread th at_ bs) else none

/-- The address of LD, ST, VLD and VST (08, R210). -/
def memAddr (th : Thread) (f : Fields) : Nat := (sreg th f.a.toNat + (f.fn.extractLsb' 0 10).signExtend 64).toNat

/-- Space, size or length code and bit [11] of the B field (08, Table 8.7). -/
def bSpace (f : Fields) : Nat := f.b.toNat / 8
def bSize (f : Fields) : Nat := f.b.toNat / 2 % 4
def bLow (f : Fields) : Bool := f.b.getLsbD 0
/-- FN [10]: ACQUIRE or RELEASE. -/
def fnMark (f : Fields) : Bool := f.fn.getLsbD 10

/-- Bytes of a vector length code (08): 64, 48, 32, 16. -/
def lenBytes (c : Nat) : Nat := 64 - 16 * c

/-- A load of one row, from the pool or at once from scratch or private memory (08, R210). -/
def loadRow (s : State) (t : ThreadRef) (p : Spray) (th : Thread) (space at_ n : Nat) (acquire : Bool) (use : TileUse) : Act :=
  if memHeld s t (space == 0) false then .wait
  else
    let x := threadTile t th p at_ 1 n 0 Op.readNoalloc use (List.replicate n 0) acquire
    if space = 0 then .go (poolAccess s t th x)
    else match readLocal s t th space at_ n with
      | some bs => if localFails s t th space at_ n false then .go (privError s t) else .go (retire s t (applyUse th { x with bytes := bs }))
      | none => .go (outOfRange s t)

/-- A store of one row. -/
def storeRow (s : State) (t : ThreadRef) (p : Spray) (th : Thread) (space at_ : Nat) (bs : List Byte) (release : Bool) : Act :=
  if memHeld s t (space == 0) release then .wait
  else if space = 0 then .go (poolAccess s t th (threadTile t th p at_ 1 bs.length 0 Op.writeNoalloc .store bs false))
  else match writeLocal s t th space at_ bs with
    | some x => if localFails s t th space at_ bs.length true then .go (privError s t) else .go (retire x.1 t x.2)
    | none => .go (outOfRange s t)

/-- LD (08, R210): aligned down to its size. -/
def execLd (t : ThreadRef) (f : Fields) (s : State) : Result :=
  let n := 2 ^ bSize f
  issue s t 0x20 f (decide (bSpace f < 3)) [rS f.d, rS f.a] (fun p th =>
    loadRow s t p th (bSpace f) (memAddr th f / n * n) n (fnMark f) (.scalarLoad f.d.toNat n (bLow f)))

/-- ST (08, R210). -/
def execSt (t : ThreadRef) (f : Fields) (s : State) : Result :=
  let n := 2 ^ bSize f
  issue s t 0x21 f (decide (bSpace f < 3) && !bLow f) [rS f.d, rS f.a] (fun p th =>
    storeRow s t p th (bSpace f) (memAddr th f / n * n) (leBytes n (sreg th f.d.toNat).toNat) (fnMark f))

/-- VLD (08, R210). -/
def execVld (t : ThreadRef) (f : Fields) (s : State) : Result :=
  issue s t 0x22 f (decide (bSpace f < 3) && !bLow f && isV f.d) [rV f.d, rS f.a] (fun p th =>
    loadRow s t p th (bSpace f) (memAddr th f) (lenBytes (bSize f)) (fnMark f) (.vectorLoad f.d.toNat (lenBytes (bSize f))))

/-- VST (08, R210). -/
def execVst (t : ThreadRef) (f : Fields) (s : State) : Result :=
  issue s t 0x23 f (decide (bSpace f < 3) && !bLow f && isV f.d) [rV f.d, rS f.a] (fun p th =>
    storeRow s t p th (bSpace f) (memAddr th f) (leBytes (lenBytes (bSize f)) (vreg th f.d.toNat).toNat) (fnMark f))

/-! ### Groups (08, R212) -/

/-- Space, group bytes, mark and offset of VLDG and VSTG (08, Table 8.7). -/
def gSpace (f : Fields) : Nat := f.fn.toNat / 512
def gBytes (f : Fields) : Nat := if f.fn.getLsbD 8 then 3 else 4
def gMark (f : Fields) : Bool := f.fn.getLsbD 7
def gBase (th : Thread) (f : Fields) : Nat := (sreg th f.a.toNat + BitVec.ofNat 64 (f.fn.toNat % 128)).toNat

/-- VLDG (08, R212). -/
def execVldg (t : ThreadRef) (f : Fields) (s : State) : Result :=
  issue s t 0x24 f (decide (gSpace f < 3) && isV f.d) [rV f.d, rS f.a, rS f.b] (fun p th =>
    let sb := (sreg th f.b.toNat).toNat
    let n := gBytes f
    if 2 ^ 32 ≤ sb then .illegal
    else if memHeld s t (gSpace f == 0) false then .wait
    else
      let x := threadTile t th p (gBase th f) 16 n sb Op.readNoalloc (.gather f.d.toNat n) (List.replicate (16 * n) 0) (gMark f)
      if gSpace f = 0 then .go (poolAccess s t th x)
      else
        let rows := (List.range 16).map (fun l => readLocal s t th (gSpace f) (gBase th f + l * sb) n)
        if rows.all Option.isSome && (List.range 16).any (fun l => localFails s t th (gSpace f) (gBase th f + l * sb) n false) then .go (privError s t)
        else if rows.all Option.isSome then .go (retire s t (applyUse th { x with bytes := rows.flatMap (fun r => r.getD []) }))
        else .go (outOfRange s t))

/-- VSTG (08, R212): where groups of one instruction overlap in scratch or private memory, the later group stands (log entry 17). -/
def execVstg (t : ThreadRef) (f : Fields) (s : State) : Result :=
  issue s t 0x25 f (decide (gSpace f < 3) && isV f.d) [rV f.d, rS f.a, rS f.b] (fun p th =>
    let sb := (sreg th f.b.toNat).toNat
    let n := gBytes f
    let bs := leBytes (16 * n) (vreg th f.d.toNat).toNat
    if 2 ^ 32 ≤ sb then .illegal
    else if memHeld s t (gSpace f == 0) (gMark f) then .wait
    else if gSpace f = 0 then .go (poolAccess s t th (threadTile t th p (gBase th f) 16 n sb Op.writeNoalloc .store bs false))
    else if (List.range 16).all (fun l => (readLocal s t th (gSpace f) (gBase th f + l * sb) n).isSome) then
      if (List.range 16).any (fun l => localFails s t th (gSpace f) (gBase th f + l * sb) n true) then .go (privError s t) else
      let x := (List.range 16).foldl (fun (x : State × Thread) l =>
        (writeLocal x.1 t x.2 (gSpace f) (gBase th f + l * sb) (slice bs (l * n) n)).getD x) (s, th)
      .go (retire x.1 t x.2)
    else .go (outOfRange s t))

/-! ### Atomics (08, R213) -/

/-- ATOM (08, R213; 07, R186). -/
def execAtom (t : ThreadRef) (f : Fields) (s : State) : Result :=
  let op := Op.atomicAdd + f.fn.toNat / 256
  let space := f.fn.toNat / 64 % 4
  let acquire := f.fn.getLsbD 5
  let release := f.fn.getLsbD 4
  issue s t 0x26 f (decide (space < 2) && f.fn.toNat % 16 == 0) [rS f.d, rS f.a, rS f.b] (fun p th =>
    let at_ := (sreg th f.a.toNat).toNat / 8 * 8
    let x := sreg th f.b.toNat
    let cmp := sreg th f.d.toNat
    if memHeld s t (space == 0) release then .wait
    else if space = 0 then
      .go (poolAccess s t th (threadTile t th p at_ 1 8 0 op (.atomic f.d.toNat op)
        (leBytes 8 x.toNat ++ (if op = Op.atomicCas then leBytes 8 cmp.toNat else [])) acquire))
    else match readLocal s t th 1 at_ 8 with
      | none => .go (outOfRange s t)
      | some bs =>
        let old := BitVec.ofNat 64 (ofLe bs)
        .go (retire (writeScratch s t.engine t.thread at_ (leBytes 8 (atomicResult op old x cmp).toNat)) t (setSreg th f.d.toNat old)))

/-! ### Tiles (08, R214, Table 8.8) -/

/-- Rows, bytes per row and stride of a shape register; nothing where a reserved bit is set. -/
def tileShape (x : Word) : Option (Nat × Nat × Nat) :=
  let n := x.toNat
  if bits n 31 22 = 0 ∧ bits n 15 9 = 0 then some (bits n 21 16 + 1, bits n 8 0 + 1, bits n 63 32) else none

/-- A tile transfer: shape, room for it, its scratch side, its footprint (08, R214). -/
def tileMove (s : State) (t : ThreadRef) (f : Fields) (load : Bool) (p : Spray) (th : Thread) : Act :=
  match tileShape (sreg th f.b.toNat) with
  | none => .illegal
  | some (rows, rowBytes, stride) =>
    let at_ := (sreg th f.d.toNat).toNat
    let n := rows * rowBytes
    if 8 ≤ th.tiles || memHeld s t true (!load && fnMark f) then .wait
    else if th.scratchBytes < at_ + n then .go (outOfRange s t)
    else
      let th' := { th with tiles := th.tiles + 1 }
      let base := (sreg th f.a.toNat).toNat
      .go (poolAccess s t th' (if load
        then threadTile t th p base rows rowBytes stride Op.readNoalloc (.tileLoad at_) (List.replicate n 0) (fnMark f)
        else threadTile t th p base rows rowBytes stride Op.writeNoalloc .tileStore (readScratch s t.engine t.thread at_ n) false))

/-- TLOAD (08, R214). -/
def execTload (t : ThreadRef) (f : Fields) (s : State) : Result :=
  issue s t 0x27 f (f.fn.toNat % 1024 == 0) [rS f.d, rS f.a, rS f.b] (tileMove s t f true)

/-- TSTORE (08, R214): it reads its scratch side at issue. -/
def execTstore (t : ThreadRef) (f : Fields) (s : State) : Result :=
  issue s t 0x28 f (f.fn.toNat % 1024 == 0) [rS f.d, rS f.a, rS f.b] (tileMove s t f false)

/-- TWAIT (08, R214). -/
def execTwait (t : ThreadRef) (f : Fields) (s : State) : Result :=
  issue s t 0x29 f (f.d == 0 && f.a == 0 && f.b == 0 && decide (f.fn.toNat < 8)) [] (fun _ th =>
    if th.tiles ≤ f.fn.toNat then .go (retire s t th) else .wait)

/-- TILE_PERFORMED (08, R214): every row has been answered; a load's bytes stand in scratch and the tile count falls. -/
def execTilePerformed (i : Nat) (s : State) : Result :=
  match tileOf? s i with
  | none => .next s
  | some x =>
    let beyond := fun (s : State) => modThread (delTile s i) x.engine x.thread (fun th => { th with tiles := th.tiles - 1 })
    if x.waitsOnFault || x.left != 0 then .next s
    else match x.use with
      | .tileLoad at_ => .next (beyond (writeScratch s x.engine x.thread at_ x.bytes))
      | .tileStore => .next (beyond s)
      | _ => .next s

end Sys2Proof.Machine
end

