-- ==== Sys2Proof/Machine/Startup.lean ====
section
/-! DEFINITION. Reset and start-up (15, R371 to R377; 13, R331, R332; 14, R358): the boot chain, order service, start-up self-test, READY_OD, MODULE_RESET, the reset pin and PWR_OK. -/

namespace Sys2Proof.Machine

/-! ### The hardware part of start-up (15, R374, R375) -/

def regionGone (s : State) (k : Nat) : Bool := decide (k < 4) && (regFault s k).fenced

/-- Stacks serve with their metadata written, and ports have trained; what a fenced region or a lost stack leaves out does not count (15, Table 15.9, steps 5 to 11). -/
def allTrained (s : State) : Bool :=
  (List.range 16).all (fun l => s.mem.metadataDone.contains l || stackLost s l || regionGone s (l / 4)) &&
  (List.range 32).all (fun n => s.power.portsDone.contains n || regionGone s (portRegion n))

/-- The hardware part of start-up is complete: training, and the start-up self-test of every region and of the hub, but of a fenced one. -/
def hardwareDone (s : State) : Bool :=
  allTrained s && (List.range 5).all (fun k => s.power.selfTested.contains k || regionGone s k)

/-! ### The boot chain (13, R331, R332; 14, R356, R358) -/

/-- What the boot chain finds of a place: the check of R331, or an error of the read (13, R332; log entry 8). -/
def bootCheck (s : State) (place : Nat) : Nat := if Config.flashReadFails (freeNo s + place) then Boot.readError else checkPlace s place

/-- Of two places, tried in order, the one that passes R331, and the checks' codes by place. -/
def bootPick (s : State) (first second_ : Nat) : Option Nat × Tab Nat :=
  let a := bootCheck s first
  if a = Boot.accepted then (some first, [(first, a)])
  else
    let b := bootCheck s second_
    (if b = Boot.accepted then some second_ else none, tset [(first, a)] second_ b)

/-- The boot status: slot A, slot B, copy 0, copy 1, from the high nibble down (13, R332). -/
def bootWord (t : Tab Nat) : BitVec 16 := BitVec.ofNat 16 (packBits [(4, tget t 0 0), (4, tget t 1 0), (4, tget t 2 0), (4, tget t 3 0)])

/-- The counters of the newest checkpoint in the flash log (14, R358). -/
def loadCounters (s : State) : Tab Nat :=
  match (s.life.log.filter (fun r => r.type == 0x01)).getLast? with
  | none => []
  | some r =>
    let get := fun (place : Nat) => ofLe (slice r.body place 8)
    let all := (List.range 24).map (fun i => (8 * i, get (8 * i))) ++
      (List.range 20).flatMap (fun g => (List.range 10).map (fun i => ((g + 1) * 256 + 8 * i, get (200 + 80 * g + 8 * i))))
    all.filter (fun e => e.2 != 0)

/-- The lifetime record of a new powered interval: counters, POWER_ON_COUNT, the POWER_ON record (14, R356, R358). -/
def openInterval (s : State) : State :=
  let s := { s with life := { s.life with counters := loadCounters s } }
  let s := { lifeAdd s 0x008 1 with life := { (lifeAdd s 0x008 1).life with lastCheckpoint := tget s.life.counters 0x000 0 } }
  eventRec s 0x02 (leBytes 8 (s.life.logSeq - 1) ++ leBytes 2 s.hub.bootStatus.toNat)

/-- The active stack of a logical one begins its training: the stack of its position, or, where that has been retired, the region's spare (05, R139; 06, R168). -/
def activeStack (s : State) (l : Nat) : State :=
  let k := l / 4
  let p := 5 * k + l % 4
  let train := fun (s : State) (p : Nat) => modStack s p (fun x => { x with st := .training, logicalId := l })
  if (stackOf s p).retired && !(stackOf s (5 * k + 4)).retired then modRegFault (train s (5 * k + 4)) k (fun r => { r with spareStackFree := false })
  else train s p

/-- The firmware runs: the active stacks and every port begin their training (15, Table 15.9, steps 4 and 5). -/
def beginService (s : State) : State :=
  let s := { s with power := { s.power with stage := .running } }
  let s := (List.range 16).foldl (fun s l => activeStack s l) s
  (List.range 32).foldl (fun s n => beginExchange s n .training none) s

/-- The hub reset is released: the timebase counts from zero, and the boot chain runs; where it fails the firmware never starts (13, R332; 15, R371). -/
def releaseHub (s : State) : State :=
  let s := { s with time := { s.time with timebaseOn := true, timebase := 0 } }
  let sel := (bootRecord s).2.2 % 2
  let i := bootPick s sel (1 - sel)
  let b := bootPick s 2 3
  let s := useFreeN s 4
  let fail := fun (s : State) => raise { s with power := { s.power with stage := .bootFailed } } { hub := true, unit := unitId Kind.securityCore 0, cause := Cause.hubFailed }
  match i.1 with
  | none => fail { s with hub := { s.hub with bootStatus := bootWord i.2 } }
  | some slot =>
    let s := { s with hub := { s.hub with bootStatus := bootWord (i.2 ++ b.2) } }
    match b.1 with
    | none => fail s
    | some copy =>
      let im := flashOf s slot
      beginService (openInterval { s with hub := { s.hub with
        runSlot := slot, fwMeasure := imgMeasure im, bundleMeasure := imgMeasure (flashOf s copy), fwSvn := imgSvn im, fwVersion := imgVersion im, fwKeyIndex := imgKeyIndex im } })

/-- Everything the shutdown of MODULE_RESET or of the power-down sequence puts in flash is there (14, R358; 15, Table 15.10, step 4). -/
def recordsWritten (s : State) : Bool := s.life.buffer.isEmpty || flashOut s

/-- What was accepted has had its answer: no transaction is active, none waits for its home agent, no launch is left, no order is outstanding or held, and nothing waits to be sent (15, Table 15.10, step 3; 00, R11). -/
def workDrained (s : State) : Bool :=
  s.coh.lines.all (fun l => l.2.active.isNone) && (List.range 4).all (fun k => let x := regionOf s k; x.vc1.isEmpty && x.vc3.isEmpty && x.granted.isEmpty) &&
  s.eng.sprays.isEmpty && s.hub.accepted.isEmpty && s.hub.heldOrders.isEmpty &&
  (List.range 32).all (fun n => (portOf s n).waiting.isEmpty) && s.link.dl.waiting.isEmpty

/-- What is still unanswered as a shutdown ends, 8 ms after its begin: every request held and every accepted order draws NOT_READY (00, R11).
DESIGN CHOICE, log entry 27: no rule names the status of an order that the end of a shutdown cuts short. -/
def cutOff (s : State) : State :=
  let s := (heldReqs s).foldl (fun s x => match x.2.origin with
    | .packet via p => if x.2.answered then s else respond s x.1 via p { status := Sts.notReady, launch := x.2.launch }
    | _ => s) s
  s.hub.accepted.foldl (fun s a => finish s a.1 a.2.2 Sts.notReady) s

/-- The sequence may end: the records are in flash and the work is drained; 8 ms after its begin it waits for the work no longer (15, Table 15.10, steps 3 to 6; log entry 22). -/
def downComplete (s : State) : Bool := recordsWritten s && (workDrained s || passed s s.power.downAt (ms 8))

/-- Start-up begins (15, Table 15.9, step 2). -/
def beginStart (s : State) (cause : Nat) : State :=
  { s with power := { s.power with stage := .securityTest, startAt := now s, resetN := true, resetCause := cause, pinsDriven := false } }

/-- The shutdown of MODULE_RESET has ended: the reset with power kept (15, R377). -/
def resetAfter (s : State) : State :=
  if s.power.stage == .poweringDown && s.power.resetting && downComplete s then resetModule (if workDrained s then s else cutOff s) 2 s.power.resetN .securityTest else s

/-- RESET_N is high and PWR_OK has been high for 20 ms: start-up begins, as from power-on or, after a power-down that PWR_OK outlived, with cause 3 (15, R373, R376). -/
def startAfter (s : State) : State :=
  if s.power.stage == .held && s.power.resetN && s.power.pwrOk && !s.power.tripped && passed s s.power.pwrOkSince (ms 20)
  then beginStart s (if s.power.resetCause = 3 then 3 else 0) else s

/-- What time alone brings about (15, R373, R376, R377; log entry 2). -/
def timeline (s : State) : State := startAfter (resetAfter s)

/-- 4 ns pass with no command: the clock advances, and what time alone brings about follows (15, R371, R373, R377; log entry 2). -/
def elapse (s : State) : State := timeline (idle s)

/-- HUB_RESET_RELEASE (15, R371, Table 15.9, step 3): after the security core's scan test, with the reference present. -/
def execHubResetRelease (scanPass : Bool) (s : State) : Result :=
  let s := timeline s
  when (s.power.refPresent && s.power.stage == .securityTest) s
    (if scanPass then releaseHub s
     else raise { s with power := { s.power with stage := .bootFailed } } { hub := true, unit := unitId Kind.securityCore 0, cause := Cause.hubFailed })

/-- ORDER_SERVICE_START (15, R375, Table 15.9, step 6): orders are served, and Darinlink trains. -/
def execOrderServiceStart (s : State) : Result :=
  when (firmwareRuns s && !s.hub.orderService) s
    (modDl { s with hub := { s.hub with orderService := true } } (fun d => { d with st := .training, lastTry := now s }))

/-- The start-up test of a region or the hub ends: the first pass of its units; failing ones are out of service, a region that fails is lost (14, R346; 15, R374). -/
def selfTested (s : State) (k : Nat) (failing : List Nat) : State :=
  let passed_ := (testUnits s k).filter (fun u => !failing.contains u.1)
  let s := { s with power := { s.power with selfTested := s.power.selfTested ++ [k] } }
  let s := modBist s k (fun b => { b with lastPass := passed_.foldl (fun t u => tset t (u.1 * 256 + u.2) (stamp s)) b.lastPass })
  failing.foldl (fun s u =>
    raise s { hub := k == 4, region := k % 4, unit := u, cause := if u / 2048 = Kind.regionDie then Cause.regionLost else Cause.bistFail }) s

/-- A unit that a start-up test can find failing: one that it tests, or the region as a whole (15, R374). -/
def testFails (s : State) (k u : Nat) : Bool := (testUnits s k).any (fun x => x.1 == u) || (decide (k < 4) && u == unitId Kind.regionDie 0)

/-- STARTUP_SELF_TEST_DONE (15, R374, Table 15.9, step 12): the test follows the training of stacks and ports. -/
def execStartupSelfTestDone (k : Nat) (failing : List Nat) (s : State) : Result :=
  when (decide (k < 5) && firmwareRuns s && allTrained s && failing.all (testFails s k) && !s.power.selfTested.contains k) s (selfTested s k failing)

/-- STARTUP_TIMEOUT (15, R374): the hardware part is not complete 2 s after the trigger. -/
def execStartupTimeout (s : State) : Result :=
  let s := timeline s
  when ((s.power.stage == .securityTest || firmwareRuns s || s.power.stage == .bootFailed) && !hardwareDone s && passed s s.power.startAt (ms 2000)) s
    (haltOnce s Cause.startupTimeout)

/-- Every condition of R375. -/
def readyDue (s : State) : Bool :=
  hardwareDone s && s.hub.endpointId.isSome && (List.range 32).any (portActive s) && s.hub.owner.isSome && s.hub.timeSet &&
  s.extents.any (fun e => e.2.st == .granted)

/-- READY_ASSERT (15, R375). -/
def execReadyAssert (s : State) : Result :=
  when (firmwareRuns s && !s.fault.halted && !s.hub.ready && readyDue s) s { s with hub := { s.hub with ready := true, readyOnce := true } }

/-! ### MODULE_RESET (15, R377) -/

def doModuleReset (h : OrderHdr) (s : State) : State :=
  let s1 := beginPowerDown (reply s h Ord.moduleReset Sts.success) 0
  judged s h Ord.moduleReset [(!s.hub.fwWork.isEmpty, Sts.flashBusy)] { s1 with power := { s1.power with resetting := true } }
/-- MODULE_RESET (15, R377): the reply, then the shutdown, which ends in a reset with power kept. -/
def execModuleReset (h : OrderHdr) (s : State) : Result := .next (withOrder s h Ord.moduleReset (.moduleReset h) (doModuleReset h))

/-! ### RESET_N and PWR_OK (15, R373, R376, R378) -/

/-- RESET_N_RISE (15, R373): start-up begins where PWR_OK has been high for 20 ms; else it begins then (`startAfter`); after a trip only once PWR_OK has been low (R368). -/
def execResetNRise (s : State) : Result :=
  let p := s.power
  let s1 := { s with power := { p with resetN := true, pinsDriven := false } }
  when (!p.resetN) s (if p.stage == .held && p.pwrOk && !p.tripped && passed s p.pwrOkSince (ms 20) then beginStart s1 p.resetCause else s1)

/-- An instruction of the TAP that drives or releases pins while RESET_N is low (15, R385). -/
def JtagInstr.drives (i : JtagInstr) : Bool := i == .extest || i == .extestPulse || i == .extestTrain || i == .clamp || i == .highz

/-- RESET_N has been low for long enough: the module is reset at once, and an instruction of the TAP that was in force without effect takes effect (15, R378, R385, Table 15.12). -/
def pinReset (s : State) : State :=
  if s.power.stage = .unpowered then { s with power := { s.power with resetN := false } }
  else if s.power.pwrOk then
    let t := resetModule s 1 false .held
    { t with power := { t.power with pinsDriven := t.power.pinsDriven || t.power.jtag.drives } }
  else powerOff { s with power := { s.power with resetN := false } } 0 .unpowered

/-- RESET_N_LOW for some ns (15, R378): under 1 µs ignored; from 10 µs a reset; between, one or the other (log entry 8). -/
def execResetNLow (ns : Nat) (s : State) : Result :=
  if ns < 1000 then .next s
  else if ns < 10000 then .next (if Config.shortResetTakes (freeNo s) then pinReset (useFree s) else useFree s)
  else .next (pinReset s)

/-- PWR_OK_FALL (15, R376): PWR_OK low for 1 µs; a reset that MODULE_RESET has begun is not repeated (Table 15.12). -/
def execPwrOkFall (s : State) : Result :=
  let p := s.power
  when p.pwrOk s (powerDown { s with power := { p with pwrOk := false, resetting := false, lowSince := some (now s) } })

/-- PWR_OK_RISE (15, R373, R368): the hub domains come on; after a trip, only where PWR_OK has been low for 10 ms. -/
def execPwrOkRise (s : State) : Result :=
  let p := s.power
  let may := !p.tripped || (match p.lowSince with | some t => passed s t (ms 10) | none => false)
  when (!p.pwrOk) s
    { s with power := { p with pwrOk := true, pwrOkSince := now s, lowSince := none, tripped := p.tripped && !may,
                               stage := if p.stage = .unpowered ∧ may then .held else p.stage } }

/-- CONVERTERS_STOP (15, R376, Table 15.10, step 6): with PWR_OK high again the module waits to start with cause 3; not after a trip (R368). -/
def execConvertersStop (s : State) : Result :=
  let p := s.power
  let s1 := if workDrained s then s else cutOff s
  when (p.stage == .poweringDown && !p.resetting && downComplete s) s
    (if p.pwrOk && !p.tripped then powerOff s1 3 .held else powerOff s1 0 .unpowered)

end Sys2Proof.Machine
end

