-- ==== Sys2Proof/Machine/RawOrders.lean ====
section
/-! DEFINITION. Orders as they come over the links (11): protection, the order body, the layout of each order's parameters. -/

namespace Sys2Proof.Machine

/-- The number that a parameter holds. -/
def argN (a : List (List Byte)) (i : Nat) : Nat := ofLe (a.getD i [])

/-- The access entries that eight parameters hold. -/
def argAccess (a : List (List Byte)) (i : Nat) : List (BitVec 32) := (List.range 8).map (fun j => BitVec.ofNat 32 (argN a (i + j)))

/-- An order's code, the sizes of its parameters, and its step 10 (11, Table 11.7, R282; Tables 2.8, 4.13, 5.13, 6.5, 7.13, 10.12, 13.6, 14.11). -/
structure OrderRow where
  code : Nat
  sizes : List Nat
  run : List (List Byte) → State → State

/-- Orders of 11 and 02 to 04. -/
def poolOrders (h : OrderHdr) : List OrderRow := [
  { code := Ord.ownerClaim, sizes := [1], run := fun a => doOwnerClaim h (argN a 0) },
  { code := Ord.ownerRenew, sizes := [], run := fun _ => doOwnerRenew h },
  { code := Ord.ownerHandover, sizes := [1], run := fun a => doOwnerHandover h (argN a 0) },
  { code := Ord.ownerAccept, sizes := [], run := fun _ => doOwnerAccept h },
  { code := Ord.ownerRelease, sizes := [], run := fun _ => doOwnerRelease h },
  { code := Ord.statusWindowRead, sizes := [4, 4], run := fun a => doStatusWindowRead h (argN a 0) (argN a 1) },
  { code := Ord.mgmtKeyAgree, sizes := [97], run := fun a => doMgmtKeyAgree h (a.getD 0 []) },
  { code := Ord.grant, sizes := [2, 4, 4, 1, 1, 4, 2, 1, 4, 4, 4, 4, 4, 4, 4, 4],
    run := fun a => doGrant h (argN a 0) (argN a 1) (argN a 2) (argN a 3) (argN a 4) (argN a 5) (argN a 6) (argN a 7) (argAccess a 8) },
  { code := Ord.accessSet, sizes := [2, 1, 4, 4, 4, 4, 4, 4, 4, 4, 1], run := fun a => doAccessSet h (argN a 0) (argN a 1) (argAccess a 2) (argN a 10) },
  { code := Ord.revoke, sizes := [2, 1], run := fun a => doRevoke h (argN a 0) (argN a 1) },
  { code := Ord.extentRead, sizes := [2], run := fun a => doExtentRead h (argN a 0) },
  { code := Ord.extentFind, sizes := [8], run := fun a => doExtentFind h (argN a 0) },
  { code := Ord.violationRead, sizes := [], run := fun _ => doViolationRead h },
  { code := Ord.hostShape, sizes := [2, 1, 4, 4, 2, 2],
    run := fun a => doHostShape h (argN a 0) (argN a 1) (argN a 2) (argN a 3) (argN a 4) (argN a 5) },
  { code := Ord.hostShapeRead, sizes := [2, 1], run := fun a => doHostShapeRead h (argN a 0) (argN a 1) },
  { code := Ord.slotGrant, sizes := [1, 2], run := fun a => doSlotGrant h (argN a 0) (argN a 1) },
  { code := Ord.slotRelease, sizes := [1, 1], run := fun a => doSlotRelease h (argN a 0) (argN a 1) },
  { code := Ord.slotRead, sizes := [1], run := fun a => doSlotRead h (argN a 0) },
  { code := Ord.hostFailed, sizes := [2], run := fun a => doHostFailed h (argN a 0) },
  { code := Ord.lostRead, sizes := [], run := fun _ => doLostRead h },
  { code := Ord.dirRead, sizes := [8], run := fun a => doDirRead h (argN a 0) }]

/-- Orders of 05, 06 and 13. -/
def storeOrders (h : OrderHdr) : List OrderRow := [
  { code := Ord.tenantCreate, sizes := [2, 40], run := fun a => doTenantCreate h (argN a 0) (BitVec.ofNat 320 (argN a 1)) },
  { code := Ord.tenantRemove, sizes := [2], run := fun a => doTenantRemove h (argN a 0) },
  { code := Ord.rotateKey, sizes := [2, 40], run := fun a => doRotateKey h (argN a 0) (BitVec.ofNat 320 (argN a 1)) },
  { code := Ord.retireKey, sizes := [2, 4, 1], run := fun a => doRetireKey h (argN a 0) (argN a 1) (argN a 2) },
  { code := Ord.attestReport, sizes := [32], run := fun a => doAttestReport h (BitVec.ofNat 256 (argN a 0)) },
  { code := Ord.fwWrite, sizes := [1, 8, 4], run := fun a => doFwWrite h (argN a 0) (argN a 1) (argN a 2) },
  { code := Ord.fwActivate, sizes := [1], run := fun a => doFwActivate h (argN a 0) },
  { code := Ord.stackRead, sizes := [1, 1], run := fun a => doStackRead h (argN a 0) (argN a 1) },
  { code := Ord.stackRateLimit, sizes := [1, 1, 1], run := fun a => doStackRateLimit h (argN a 0) (argN a 1) (argN a 2) },
  { code := Ord.memIdlePolicy, sizes := [4], run := fun a => doMemIdlePolicy h (argN a 0) },
  { code := Ord.integrityRead, sizes := [1, 1], run := fun a => doIntegrityRead h (argN a 0) (argN a 1) },
  { code := Ord.blotterRead, sizes := [1, 1], run := fun a => doBlotterRead h (argN a 0) (argN a 1) },
  { code := Ord.blotterClear, sizes := [1], run := fun a => doBlotterClear h (argN a 0) },
  { code := Ord.poisonRead, sizes := [], run := fun _ => doPoisonRead h },
  { code := Ord.scrubPolicy, sizes := [4], run := fun a => doScrubPolicy h (argN a 0) },
  { code := Ord.evacuate, sizes := [1, 1], run := fun a => doEvacuate h (argN a 0) (argN a 1) }]

/-- Orders of 07, 10, 12, 14 and 15. -/
def unitOrders (h : OrderHdr) : List OrderRow := [
  { code := Ord.accordLoad, sizes := [8, 4, 2], run := fun a => doAccordLoad h (argN a 0) (argN a 1) (argN a 2) },
  { code := Ord.accordUnload, sizes := [2], run := fun a => doAccordUnload h (argN a 0) },
  { code := Ord.asidCreate, sizes := [2, 2], run := fun a => doAsidCreate h (argN a 0) (argN a 1) },
  { code := Ord.asidDestroy, sizes := [2], run := fun a => doAsidDestroy h (argN a 0) },
  { code := Ord.mapRange, sizes := [2, 8, 8, 1, 4, 1], run := fun a => doMapRange h (argN a 0) (argN a 1) (argN a 2) (argN a 3) (argN a 4) (argN a 5) },
  { code := Ord.unmapRange, sizes := [2, 8, 8], run := fun a => doUnmapRange h (argN a 0) (argN a 1) (argN a 2) },
  { code := Ord.protectRange, sizes := [2, 8, 8, 1], run := fun a => doProtectRange h (argN a 0) (argN a 1) (argN a 2) (argN a 3) },
  { code := Ord.invalidateRange, sizes := [2, 8, 8], run := fun a => doInvalidateRange h (argN a 0) (argN a 1) (argN a 2) },
  { code := Ord.mapRead, sizes := [2, 8], run := fun a => doMapRead h (argN a 0) (argN a 1) },
  { code := Ord.faultRingSet, sizes := [8, 4], run := fun a => doFaultRingSet h (argN a 0) (argN a 1) },
  { code := Ord.faultResolve, sizes := [4, 32], run := fun a => doFaultResolve h (argN a 0) (BitVec.ofNat 256 (argN a 1)) },
  { code := Ord.faultPolicy, sizes := [4], run := fun a => doFaultPolicy h (argN a 0) },
  { code := Ord.sprayRead, sizes := [2], run := fun a => doSprayRead h (argN a 0) },
  { code := Ord.sprayCancel, sizes := [2], run := fun a => doSprayCancel h (argN a 0) },
  { code := Ord.engineTagRelease, sizes := [2], run := fun a => doEngineTagRelease h (argN a 0) },
  { code := Ord.portRead, sizes := [1, 1], run := fun a => doPortRead h (argN a 0) (argN a 1) },
  { code := Ord.portSelect, sizes := [1, 1], run := fun a => doPortSelect h (argN a 0) (argN a 1) },
  { code := Ord.portRetrain, sizes := [1, 1], run := fun a => doPortRetrain h (argN a 0) (argN a 1) },
  { code := Ord.faultRead, sizes := [1], run := fun a => doFaultRead h (argN a 0) },
  { code := Ord.faultAck, sizes := [1, 1], run := fun a => doFaultAck h (argN a 0) (argN a 1) },
  { code := Ord.clockSet, sizes := [8], run := fun a => doClockSet h (argN a 0) },
  { code := Ord.lifetimeRead, sizes := [1], run := fun a => doLifetimeRead h (argN a 0) },
  { code := Ord.bistRead, sizes := [1], run := fun a => doBistRead h (argN a 0) },
  { code := Ord.powerLimit, sizes := [4], run := fun a => doPowerLimit h (argN a 0) },
  { code := Ord.moduleReset, sizes := [], run := fun _ => doModuleReset h }]

/-- The row of an order code. -/
def orderRow (h : OrderHdr) (code : Nat) : Option OrderRow := (poolOrders h ++ storeOrders h ++ unitOrders h).find? (fun r => r.code == code)

/-- Reserved bits of an order body are zero: bits [31:16] and [95:34], and the bytes of PARAMS that hold no parameter (11, Table 11.1). -/
def bodyOk (low : Nat) (params : List Byte) (sizes : List Nat) : Bool := bits low 31 16 == 0 && bits low 95 34 == 0 && unusedZero params sizes

/-- Header rules of a Genura order (11, R277). -/
def orderHeaderOk (p : Packet) : Bool :=
  p.address == 0 && p.tenant == 0 && p.roleGen == 0 && p.aux == 0 && p.length == 31 && p.payload.isSome && p.rsvLow == 0 && p.rsvMid == 0 && p.rsvHigh == 0

/-- An order with its body in clear: the checks of Table 11.5, then its own (11, R282, R283). `prot` is step 3, `form` the rules of the header. -/
def bodyOrder (s : State) (via : Via) (p : Packet) (body : Line) (prot : Nat → Option Nat) (form : Bool) : State :=
  let bs := lineBytes body
  let low := ofLe (bs.take 16)
  let params := bs.drop 16
  let code := bits low 15 0
  let m := bits low 33 32
  let h : OrderHdr := { via := via, source := p.source, master := m, tag := p.tag, seq := bits low 127 96, keyEpoch := p.keyEpoch, encrypted := p.encrypted }
  match orderRow h code with
  | none => checkedOrder s h code prot false (.order via p) id
  | some r => checkedOrder s h code prot (form && bodyOk low params r.sizes) (.order via p) (r.run (paramBytes params r.sizes))

/-- The code of an order body. -/
def bodyCode (l : Line) : Nat := (l.extractLsb' 0 16).toNat

/-- What step 3 finds of a Genura order: the status that refuses it, or its body in clear (11, R278, R279). -/
def openOrder (s : State) (m : Nat) (p : Packet) : Option Nat × Line :=
  let l := p.payload.getD 0
  if !p.encrypted then (if bodyCode l = Ord.mgmtKeyAgree then (none, l) else (some Sts.notEncrypted, l))
  else match mgmtKey s m p.keyEpoch with
    | none => (some Sts.keyRetired, l)
    | some key =>
      match unprotect key p with
      | some q => (none, q.payload.getD 0)
      | none => (some Sts.authFailed, l)

/-- An ORDER packet or message arrives (11, R277 to R283). On Genura the body of an order that fails its protection is not known: its reply echoes what the packet shows. -/
def rawOrder (s : State) (via : Via) (p : Packet) : State :=
  if !hubRuns s then s else
  match via with
  | .darinlink => bodyOrder s via p (p.payload.getD 0) (fun _ => none) (p.payload.isSome && p.rsvLow == 0 && p.rsvMid == 0)
  | .genura n =>
    if p.vc ≠ 6 then countDiscard s
    else
      let h : OrderHdr := { via := via, source := p.source }
      match senderMaster s h with
      | none => bodyOrder s via p (p.payload.getD 0) (fun _ => none) false
      | some m =>
        let o := openOrder s m p
        bodyOrder s (.genura n) p o.2 (fun _ => o.1) (orderHeaderOk p && bits (ofLe ((lineBytes o.2).take 16)) 33 32 == 0)

/-- ORDER (11, R277 to R283). -/
def execOrder (via : Via) (p : Packet) (s : State) : Result := when (p.opcode == Op.order) s (rawOrder s via p)

end Sys2Proof.Machine
end

