-- ==== Sys2Proof/Machine/Flits.lean ====
section
/-! DEFINITION. Flits as they arrive on the wire: of a fabric port (10, R251 to R262) and of Darinlink (11, R299 to R303). -/

namespace Sys2Proof.Machine

/-! ### Packets delivered by a link -/

/-- What a request's opcode belongs to: a defined request, or a reserved opcode on a VC that carries requests (03, R67, Table 3.2). -/
def isRequestPacket (p : Packet) : Bool :=
  (requestForm p.opcode).isSome ||
  ((p.vc == 0 || p.vc == 1 || p.vc == 5) &&
    !([Op.snoopShared, Op.snoopInvalidate, Op.snoopResp, Op.snoopRespData, Op.resp, Op.respData, Op.completion, Op.order, Op.orderReply].contains p.opcode))

/-- A packet delivered by port n goes to its consumer: any on VC 2 or 7 is discarded and counted (10, R261); a request on another VC that is not its own is answered as a request (03, Table 3.2, R67; 02, R391). -/
def handOver (n : Nat) (s : State) (p : Packet) : State :=
  if p.vc = 2 ∨ p.vc = 7 then countDiscard s
  else if isRequestPacket p then packetRequest s (.genura n) p
  else if p.opcode = Op.snoopResp ∨ p.opcode = Op.snoopRespData then packetAnswer s (.genura n) p
  else if p.opcode = Op.resp ∨ p.opcode = Op.respData ∨ p.opcode = Op.completion then packetResponse s (.genura n) p
  else if p.opcode = Op.order then rawOrder s (.genura n) p
  else countDiscard s

/-! ### Layout of a Genura flit (10, Tables 10.2, 10.3, 10.6 to 10.8, 10.15, 10.16) -/

/-- A flit's trailer. -/
structure Trailer where
  crc : Nat
  seq : Nat
  ack : Nat
  nak : Option Nat
  xoff : BitVec 8
  gen : Nat
  type : Nat
deriving DecidableEq, Repr

def trailerOf (n : Nat) : Trailer :=
  { crc := bits n 127 96, seq := bits n 95 80, ack := bits n 79 64, nak := if bit n 47 then some (bits n 63 48) else none,
    xoff := BitVec.ofNat 8 (bits n 46 39), gen := bits n 38 31, type := bits n 30 28 }

/-- The slots of a HDR flit up to the first empty one (10, R255). -/
def hdrPackets (b : List Byte) : Nat → Nat → List Packet
  | 0, _ => []
  | fuel + 1, i =>
    let h := (b.drop (48 * i)).take 48
    if h.headD 0 = 0 then [] else packetOf h none :: hdrPackets b fuel (i + 1)

/-- The packets of a sequenced flit. -/
def flitPackets (type : Nat) (b : List Byte) : List Packet :=
  if type = 1 then [packetOf (b.take 48) (some (bytesLine ((b.drop 48).take 256)))] else hdrPackets b 6 0

/-- The record of a CTRL flit; nothing for a reserved kind. -/
def ctrlOf (b : List Byte) : Option CtrlRec :=
  let n := ofLe (b.take 32)
  let recover : RecoverRec := { recvPoint := bits n 95 80, failedSwitchPort := bits n 79 64, failedPortGen := bits n 63 56, held := bit n 48, queryId := bits n 15 8 }
  match bits n 7 0 with
  | 1 => some (.hello { serial := bits n 255 192, port := bits n 191 176, prevRecvPoint := bits n 175 160, prevPortGen := bits n 159 152,
                        proposedGen := bits n 151 144, nodeKind := bits n 20 19, prevValid := bit n 18, width := bits n 17 17, plane := bits n 16 16 })
  | 2 => some (.assign { managerId := bits n 111 100, endpointId := bits n 99 88, switchPort := bits n 87 72, portGen := bits n 71 64, plane := bits n 56 56,
                         switchSerial := bits n 55 8 })
  | 3 => some (.ready (bits n 15 8))
  | 4 => some (.query recover)
  | 5 => some (.reply recover)
  | 6 => some (.stale (bits n 15 8) (bits n 39 32))
  | 7 => some (.reset (bits n 15 8) (bits n 31 24) (bit n 23))
  | _ => none

/-- Act on a control record that arrived on a port (10, R263). -/
def onCtrl (s : State) (n : Nat) (r : Option CtrlRec) : State :=
  match r with
  | none => protocolError s n
  | some (.hello r) => onHello s n r
  | some (.assign r) => onAssign s n r
  | some (.ready g) => onReady s n g
  | some (.query r) => onQuery s n r
  | some (.reply r) => onReply s n r
  | some (.stale _ _) => onStale s n
  | some (.reset _ _ a) => onResetRequest s n a

/-! ### The receiver (10, R254, R257, R258, R261, R262) -/

/-- Uncorrectable codewords that a flit adds to the count: a codeword is longer than a flit, so a flit overlaps at most two, and the one marked in it may be the one already marked in the flit before; how many are new is a free value (10, R254, R275; log entry 8). -/
def newCodewords (s : State) (p : Port) : Nat :=
  let x := (Config.freeBits 2 (freeNo s)).toNat
  if p.fecBad then x % 3 else 1 + x % 2

/-- A flit is discarded under R254; more than 1,024 in 1 ms fail the link (10, R260). -/
def crcFailed (s : State) (n : Nat) (fecOk : Bool) : State :=
  let l := lastMs s (portOf s n).crcTimes
  let s := if fecOk then s else modPort (useFree s) n (fun p => { p with fecUncorrectable := satAdd 32 p.fecUncorrectable (newCodewords s p), fecBad := true })
  let s := modPort s n (fun p => { p with crcFails := satInc 32 p.crcFails, crcTimes := l })
  if 1024 < l.length && canFail (portOf s n) then linkFailed s n else s

/-- ACK of a trailer: flits up to it are freed, and the timer restarts where it advances. -/
def takeAck (s : State) (n a : Nat) : State :=
  match (portOf s n).replay with
  | [] => s
  | f :: _ =>
    let d := (a + 65536 - f.seq) % 65536
    if d < (portOf s n).replay.length then modPort s n (fun p => { p with replay := p.replay.drop (d + 1), timerFrom := now s, expiries := 0 }) else s

/-- NAK of a trailer: the flit it names is resent once; where the timer resent it in this cycle, it is not resent again (10, Table 10.14); while a full reset is awaited no sequenced flit goes out (10, R259), nor one that is an orphan (10, R273). -/
def takeNak (s : State) (n : Nat) (q : Option Nat) : State :=
  match q with
  | none => s
  | some q =>
    let p := portOf s n
    match p.replay.find? (fun f => f.seq == q) with
    | none => s
    | some f =>
      let oldest := p.replay.head?.map (·.seq) == some q
      if awaitsReset p || suspended s n || oldest && decide (0 < p.expiries) && p.timerFrom == now s then s else resend s n f

/-- Mark every SEQ from expected up to, but without, q as missing where it is not held. -/
def markMissing (s : State) (n q : Nat) : State :=
  let p := portOf s n
  let d := (q + 65536 - p.expected) % 65536
  let gap := (List.range d).map (fun i => (p.expected + i) % 65536)
  modPort s n (fun p => { p with missing := p.missing ++ gap.filter (fun x => !p.missing.contains x && !p.held.any (fun f => f.seq == x)) })

/-- Deliver in order while the expected flit is held (10, R257); fuel is the number of flits held. -/
def deliverHeld : Nat → State → Nat → State
  | 0, s, _ => s
  | fuel + 1, s, n =>
    let p := portOf s n
    match p.held.find? (fun f => f.seq == p.expected) with
    | none => s
    | some f =>
      let s := modPort s n (fun p => { p with expected := (p.expected + 1) % 65536, held := p.held.filter (fun x => x.seq != f.seq),
                                              missing := p.missing.filter (· != f.seq), naked := p.naked.filter (fun x => x.1 != f.seq) })
      deliverHeld fuel (f.packets.foldl (handOver n) (useEntries s n (flitVcs f.packets) false)) n

/-- A sequenced flit passes R254 (10, R257, R261). -/
def takeFlit (s : State) (n seq : Nat) (packets : List Packet) : State :=
  let p := portOf s n
  let d := (seq + 65536 - p.expected) % 65536
  if 32768 ≤ d ∨ p.held.any (fun f => f.seq == seq) then modPort s n (fun p => { p with dupDiscarded := satInc 32 p.dupDiscarded })
  else if 2048 ≤ d then protocolError s n
  else
    let vcs := flitVcs packets
    if vcs.any (fun v => decide (vcEntries.getD v 0 ≤ (pairBuf s n).used.getD v 0)) then protocolError s n
    else
      let s := modPort s n (fun p => { p with held := p.held ++ [{ seq := seq, packets := packets }], missing := p.missing.filter (· != seq) })
      let s := markMissing (useEntries s n vcs true) n seq
      deliverHeld (portOf s n).held.length s n

/-- A flit passes R254 on a link that is up: trailer, then the record or the packets (10, R257, R258, R262). -/
def takeLinkFlit (s : State) (n : Nat) (t : Trailer) (b : List Byte) : State :=
  if t.gen ≠ (portOf s n).gen then sendCtrl s n (.stale (portOf s n).gen t.gen)
  else
    let s := takeNak (takeAck s n t.ack) n t.nak
    let s := flushPort (modPort s n (fun p => { p with peerXoff := t.xoff })) n
    if t.type = 0 ∨ t.type = 3 then
      let d := (t.seq + 65536 - (portOf s n).expected) % 65536
      let s := if 1 ≤ d ∧ d ≤ 2048 then nameMissing (markMissing s n t.seq) n else s
      if t.type = 3 then onCtrl s n (ctrlOf b) else s
    else nameMissing (takeFlit s n t.seq (flitPackets t.type b)) n

/-- A flit arrives on a port. While the link is in its exchange only XOFF and control records are looked at, whatever generation they bear. -/
def receiveFlit (s : State) (n : Nat) (raw : BitVec 2560) (fecOk : Bool) : State :=
  let b := leBytes 320 raw.toNat
  let t := trailerOf (ofLe (b.drop 304))
  let p := portOf s n
  let s := if fecOk then modPort s n (fun p => { p with fecBad := false }) else s
  if !(linkUp p || inExchange p) then s
  else if !fecOk || crc32 (b.take 316) != t.crc || decide (3 < t.type) then crcFailed s n fecOk
  else if linkUp p then takeLinkFlit s n t b
  else
    let s := modPort s n (fun p => { p with peerXoff := t.xoff })
    if t.type = 3 then onCtrl s n (ctrlOf b) else s

/-- FLIT_RECEIVE (10, R254, R257 to R262): a flit, and whether its FEC codewords were correctable. -/
def execFlitReceive (n : Nat) (raw : BitVec 2560) (fecOk : Bool) (s : State) : Result := when (isPort n && hubRuns s) s (receiveFlit s n raw fecOk)

/-! ### Darinlink flits (11, R299 to R303) -/

/-- The eight codewords of a flit after correction, as the bytes 0 to 495; nothing where one does not decode (11, R299). -/
def dlDecode (raw : BitVec 4096) : Option (List Byte) :=
  let b := leBytes 512 raw.toNat
  let words := (List.range 8).map (fun k => rsDecode ((List.range 64).map (fun i => (b.getD (8 * i + k) 0).toNat)))
  if words.any (·.isNone) then none
  else some ((List.range 496).map (fun j => BitVec.ofNat 8 (((words.getD (j % 8) none).getD []).getD (j / 8) 0)))

/-- A flit is discarded: NAK_VALID goes out at most once per µs while the gap remains (11, R300). -/
def dlNakAsk (s : State) : State :=
  let d := s.link.dl
  let due := match d.nakAt with | some t => passed s t (us 1) | none => true
  if due then sendDlNak (modDl s (fun d => { d with nak := true, nakAt := some (now s) })) else modDl s (fun d => { d with nak := true })

/-- A CRC failure is counted; 256 in 1 ms start a recovery retraining (11, R300). -/
def dlCrcFailed (s : State) : State :=
  let l := lastMs s s.link.dl.crcTimes
  let s := modDl s (fun d => { d with crcTimes := l })
  if 256 ≤ l.length ∧ s.link.dl.st = .active then startRecovery s else s

/-- ACK: flits up to it are freed. -/
def dlTakeAck (s : State) (a : Nat) : State :=
  match s.link.dl.replay with
  | [] => s
  | f :: _ =>
    let k := (a + 65536 - f.1) % 65536
    if k < s.link.dl.replay.length then modDl s (fun d => { d with replay := d.replay.drop (k + 1), timerFrom := now s, expiries := 0 }) else s

/-- Credits returned in a trailer (11, Table 11.10). -/
def dlTakeCredits (s : State) (n : Nat) : State :=
  modDl s (fun d => { d with credits := (List.range 6).map (fun c => d.credits.getD c 0 + bits n (19 + 8 * c) (12 + 8 * c)) })

/-- Slots of a message of an opcode: 17 where it carries a line (11, R299). -/
def dlMessageSlots (op : Nat) : Nat :=
  let line := match requestForm op with
    | some (_, data) => data
    | none => [Op.snoopRespData, Op.respData, Op.completion, Op.order, Op.orderReply, Op.statusData].contains op
  if line then 17 else 1

/-- A message from its slots (11, Table 11.12). -/
def dlPacketOf (slots : List (BitVec 128)) : Packet :=
  let n := (slots.headD 0).toNat
  let line := slots.drop 1
  { opcode := bits n 7 0, rsvLow := bits n 15 8, tenant := bits n 25 16, rsvMid := bits n 31 26, roleGen := bits n 39 32, aux := bits n 55 40,
    rsvHigh := bits n 57 56, poison := bit n 58, length := bits n 63 59, status := bits n 71 64, tag := bits n 87 72, address := bits n 127 88,
    payload := if line.isEmpty then none else some (BitVec.ofNat 2048 (ofLe (line.flatMap (fun x => leBytes 16 x.toNat)))) }

/-- A message goes to its consumer (11, R303, Table 11.11). -/
def dlDeliver (s : State) (p : Packet) : State :=
  if p.opcode = Op.order then rawOrder s .darinlink p
  else if p.opcode = Op.statusRead then statusRead s p
  else if p.opcode = Op.snoopResp ∨ p.opcode = Op.snoopRespData then packetAnswer s .darinlink p
  else if [Op.snoopShared, Op.snoopInvalidate, Op.resp, Op.respData, Op.completion, Op.orderReply, Op.statusData].contains p.opcode then countDiscard s
  else packetRequest s .darinlink p

/-- The messages that the slots at hand complete, and the slots left over (11, R299): an empty slot ends a flit. Fuel is the number of slots. -/
def dlMessages : Nat → List (BitVec 128) → List Packet × List (BitVec 128)
  | 0, l => ([], l)
  | _, [] => ([], [])
  | fuel + 1, x :: t =>
    let op := bits x.toNat 7 0
    if op = 0 then ([], [])
    else
      let n := dlMessageSlots op
      if (x :: t).length < n then ([], x :: t)
      else
        let r := dlMessages fuel ((x :: t).drop n)
        (dlPacketOf ((x :: t).take n) :: r.1, r.2)

/-- A MSG flit (11, R300): only the next one is delivered. -/
def dlTakeMsg (s : State) (seq : Nat) (b : List Byte) : State :=
  let d := s.link.dl
  if d.st ≠ .active then s
  else if seq ≠ d.expected then dlNakAsk s
  else
    let slots := (List.range 30).map (fun i => BitVec.ofNat 128 (ofLe ((b.drop (16 * i)).take 16)))
    let r := dlMessages (d.partial_.length + 30) (d.partial_ ++ slots)
    let back := r.1.foldl (fun l p => lset l (dlClass p.opcode) (l.getD (dlClass p.opcode) 0 + 1)) d.returns
    let s := modDl s (fun d => { d with expected := (d.expected + 1) % 65536, partial_ := r.2, nak := false, nakAt := none, returns := back })
    dlReturn (r.1.foldl dlDeliver s)

/-- A control record; one of a reserved kind counts as a CRC failure (11, R302, Table 11.16). -/
def dlTakeCtrl (s : State) (b : List Byte) : State :=
  let n := ofLe (b.take 32)
  let r : DlCtrlRec := { credits := (List.range 6).map (fun c => bits n (47 + 16 * c) (32 + 16 * c)), width := bits n 31 24, echo := bit n 16, trainCount := bits n 15 8 }
  match bits n 7 0 with
  | 1 => onCreditInit s r
  | 2 => onWidth s r
  | _ => dlCrcFailed s

/-- A Darinlink flit arrives (11, R299 to R302). -/
def dlReceive (s : State) (raw : BitVec 4096) : State :=
  let d := s.link.dl
  if !(d.st == .active || d.stepFive) then s
  else match dlDecode raw with
  | none => dlNakAsk (dlCrcFailed s)
  | some b =>
    let t := ofLe (b.drop 480)
    let type := bits t 62 60
    if crc32 (b.take 492) != bits t 127 96 || decide (2 < type) then dlNakAsk (dlCrcFailed s)
    else
      let s := dlTakeCredits (dlTakeAck s (bits t 79 64)) t
      let s := if bit t 63 then dlResendAll s else s
      let s := flushDl s
      if type = 1 then dlTakeMsg s (bits t 95 80) b
      else
        let s := if d.st == .active && bits t 95 80 != s.link.dl.expected then dlNakAsk s else s
        if type = 2 then dlTakeCtrl s b else s

/-- DL_FLIT_RECEIVE (11, R299 to R303). -/
def execDlFlitReceive (raw : BitVec 4096) (s : State) : Result := when (hubRuns s) s (dlReceive s raw)

end Sys2Proof.Machine
end

