-- ==== Sys2Proof/Machine/SelfTest.lean ====
section
/-! DEFINITION. Self-test in service and the lifetime log (14, R345 to R358). -/

namespace Sys2Proof.Machine

/-! ### Starting a slice (14, R346 to R348) -/

/-- Draw under test, tenths of a watt (14, Tables 14.1, 14.2). -/
def drawOf (unit_ segment : Nat) : Nat :=
  let k := unit_ / 2048
  if k = Kind.channel then 11 else if k = Kind.engine then 27 else if k = Kind.port then 144 else if k = Kind.dirSlice then 22
  else if k = Kind.stripeBuffer then 8 else if k = Kind.homeAgent then 36 else if k = Kind.ingress then (if segment < 9 then 18 else 29)
  else if k = Kind.crossbar then 36 else if k = Kind.ringLink then 36 else if k = Kind.mgmtPair then 72 else if k = Kind.darinlink then 29
  else if k = Kind.flash then 5 else 4

/-- Draws of the running slices and stack test. -/
def drawNow (s : State) : Nat :=
  ((List.range 5).map (fun k => (((bistOf s k).current.map (·.2.2.2)).getD 0))).sum + (if s.life.stackTest.isSome then stackDraw else 0)

/-- A unit of a kind is out of service in a region, or in the hub. -/
def kindOut (s : State) (hub : Bool) (k kind : Nat) : Bool :=
  s.fault.out.any (fun o => o.hub == hub && (hub || o.region == k) && o.unit / 2048 == kind) ||
  s.fault.carriers.any (fun c => c.1 == hub && (hub || c.2.1 == k) && c.2.2.1 / 2048 == kind)

/-- The way round the ring that carries a link under test is whole: no link is fenced or under test, no die is fenced; a neighbour's hub link carries a hub link (14, Table 14.1). -/
def ringWhole (s : State) (k : Nat) : Bool :=
  s.fault.linksFenced.isEmpty && (List.range 4).all (fun j => !(regFault s j).fenced && !linkTested s j 0 && !linkTested s j 1 && !linkTested s j 2) && !kindOut s false k Kind.ringLink

/-- The channel of a stack may leave service: the stack runs with no channel fenced, nothing holds the maintenance window, no catch-up walk runs (14, R348, R350; 05, R127). -/
def channelFree (s : State) (k i : Nat) : Bool :=
  let p := 5 * k + i / 32
  let c := i % 32
  (stackOf s p).st == .serving && (stackOf s p).mapped && !retrainDue s p c && !refreshWaits s p c && (stackOf s p).fencedChans.isEmpty && !(chanOf s p c).pausing && !replays s p c &&
  (bistOf s k).walking.isNone && (bistOf s k).catchUp.isEmpty && (match tget? s.mem.evacs k with | some e => e.old != p | none => true)

/-- A unit's work can be carried during its slice (14, Tables 14.1, 14.2, R348, R352, R353). -/
def carried (s : State) (k unit_ : Nat) : Bool :=
  let kind := unit_ / 2048
  let i := unit_ % 2048
  if kind = Kind.channel then channelFree s k i
  else if kind = Kind.engine then spareFree s k i
  else if kind = Kind.port then
    let p := portOf s i
    p.st == .resync && p.refresh && !p.trainedLanes && portActive s (partner i)
  else if kind = Kind.dirSlice then !s.fault.slicesBypassed.contains (k * 16 + i)
  else if kind = Kind.ringLink then ringWhole s k
  else if kind = Kind.mgmtPair then i != s.fault.pairActive && s.fault.pairSpareFree
  else if kind = Kind.darinlink then s.link.dl.st == .active && s.link.dl.width == 0 && s.link.dl.widthAsked.isNone
  else !kindOut s (k == 4) k kind

/-- A slice may start now (14, R347, R348, R366). -/
def startable (s : State) (k unit_ segment : Nat) : Bool :=
  firmwareRuns s && !s.fault.halted && !recordPending s && s.power.level == 0 && (bistOf s k).current.isNone && !regionGone s k &&
  (match s.life.lastSlice with | some t => passed s t (us 100) | none => true) && decide (drawNow s + drawOf unit_ segment ≤ 600) && carried s k unit_

/-- Units due or overdue that may start, the oldest last pass first; ties by the rotating pointer over units (14, R346). -/
def nextSlice (s : State) (k : Nat) : Option (Nat × Nat) :=
  let b := bistOf s k
  let key := fun (u : Nat × Nat) => u.1 * 256 + u.2
  let l := (b.due ++ b.overdue.filter (fun u => !b.due.contains u)).filter (fun u => startable s k u.1 u.2)
  let before := fun (x y : Nat × Nat) =>
    let a := tget b.lastPass (key x) 0
    let c := tget b.lastPass (key y) 0
    decide (a < c) || (a == c && decide ((key x + 2 ^ 24 - b.ptr) % 2 ^ 24 ≤ (key y + 2 ^ 24 - b.ptr) % 2 ^ 24))
  (sortBy before l).head?

/-- A region or the hub may start its next slice before the others: the unit that fell due first, ties by the rotating pointer over regions (14, Table 14.13; 04, Table 4.15; log entry 22). -/
def regionTurn (s : State) (k : Nat) : Bool :=
  let at_ := fun (j : Nat) => (nextSlice s j).map (fun u => (tget (bistOf s j).lastPass (u.1 * 256 + u.2) 0, (j + 5 - s.life.regionPtr) % 5))
  match at_ k with
  | none => false
  | some x => (List.range 5).all (fun j => match at_ j with | some y => decide (x.1 < y.1) || (x.1 == y.1 && decide (x.2 ≤ y.2)) | none => true)

/-- What a unit's slice does to it as it leaves service (14, R345, R350, Tables 14.1, 14.2): an engine is set aside, a channel enters self-refresh, the entries of a bank commit, a directory slice's modified entries go to their backing copies and it runs in bypass, Darinlink asks for the other lane group. -/
def leaveService (s : State) (k unit_ segment : Nat) : State :=
  let kind := unit_ / 2048
  let i := unit_ % 2048
  if kind = Kind.engine then modPhys s k i (fun p => { p with underTest := true })
  else if kind = Kind.channel then
    let p := 5 * k + i / 32
    let close := fun (q : PChan) => { q with openRows := [] }
    modChan (modPchan (modPchan s p (i % 32) 0 close) p (i % 32) 1 close) p (i % 32) (fun x => { x with selfRefresh := true })
  else if kind = Kind.stripeBuffer then
    (s.mem.sab.filter (fun e => e.region == k && e.bank == segment)).foldl commitEntry s
  else if kind = Kind.dirSlice then { s with coh := { s.coh with dirCache := s.coh.dirCache.filter (fun c => c.1 / 4096 != k * 16 + i) } }
  else if kind = Kind.darinlink then askWidth s (if segment = 0 then 2 else 1)
  else s

/-- The slice of a unit's segment starts. -/
def startSlice (s : State) (k unit_ segment : Nat) : State :=
  let s := modBist s k (fun b => { b with current := some (unit_, segment, stamp s, drawOf unit_ segment), ptr := (unit_ * 256 + segment + 1) % 2 ^ 24 })
  leaveService { s with life := { s.life with lastSlice := some (now s), regionPtr := (k + 1) % 5 } } k unit_ segment

/-- SLICE_START (14, R346 to R348): the region's next due unit; a due unit that may not start is deferred and counted. -/
def execSliceStart (k unit_ segment : Nat) (s : State) : Result :=
  let b := bistOf s k
  let due := b.due.contains (unit_, segment) || b.overdue.contains (unit_, segment)
  when (decide (k < 5) && due) s
    (if nextSlice s k == some (unit_, segment) && regionTurn s k then startSlice s k unit_ segment
     else if b.current.isNone && !startable s k unit_ segment then modBist s k (fun b => { b with deferred := satInc 19 b.deferred })
     else s)

/-! ### Its end (14, R345, R349, R350) -/

/-- A failing SRAM row moves to a spare row of its macro, four of which there are: true where one was left (12, Table 12.10). -/
def spareRow (s : State) (hub : Bool) (k macro_ row : Nat) : Bool × State :=
  let key := (if hub then 4 else k) * 2048 + macro_
  let used := tget s.fault.sramRows key 0
  if used < 4 then
    (true, note (lifeAdd { s with fault := { s.fault with sramRows := tset s.fault.sramRows key (used + 1) } } 0x068 1) hub k (unitId Kind.sramMacro macro_)
      Cause.sramRowSpared row)
  else (false, s)

/-- A slice finishes: its outcome, and the fault of a unit that fails. -/
def endSlice (s : State) (k unit_ segment : Nat) (r : SliceResult) : State :=
  let f : FaultIn := { hub := k == 4, region := k % 4, unit := unit_, cause := Cause.bistFail, detail := segment }
  let row : Bool × State := match r.failingRow with
    | some (m, w) => spareRow s (k == 4) (k % 4) m w
    | none => (true, s)
  if !r.firstMatch && !r.secondMatch then raise (sliceOver row.2 k Outcome.fail) f
  else if !row.1 then raise (sliceOver row.2 k Outcome.fail) { f with cause := Cause.sramFail }
  else
    sliceOver row.2 k (if r.firstMatch then Outcome.pass else Outcome.passOnRerun)

/-- SLICE_END (14, R345). -/
def execSliceEnd (k : Nat) (r : SliceResult) (s : State) : Result :=
  match (bistOf s k).current with
  | none => .next s
  | some (u, seg, _, _) => .next (endSlice s k u seg r)

/-- Outcome of a slice cut short (14, Table 14.6). -/
def abandonOutcome : AbandonCause → Nat
  | .spare => Outcome.abandonedSpare
  | .erasure => Outcome.abandonedErasure
  | .drain => Outcome.abandonedDrain
  | .other => Outcome.abandonedOther

/-- A cause for which a unit's slice is abandoned holds (14, R349, Table 14.6): a fault waits for the spare under test, a second erasure lies beside the channel, or HALT or a downward change of rate.
A slice whose planned move found no safe point has not started: PLANNED_MOVE_ABANDON gives that move up. -/
def abandonCause (s : State) (k unit_ : Nat) : AbandonCause → Bool
  | .spare =>
    let i := unit_ % 2048
    if unit_ / 2048 = Kind.engine then ((List.range 128).map (k * 128 + ·)).any (fun e => (logEngOf s e).adoptedBy.isSome && (logEngOf s e).move.isNone && !moveWithheld s e)
    else if unit_ / 2048 = Kind.port then !portActive s (partner i)
    else unit_ == unitId Kind.mgmtPair i && s.fault.takeover
  | .erasure => (match channelUnit unit_ with | some (q, c) => (stackOf s (5 * k + q)).fencedChans.any (· != c) | none => false)
  | .drain => false
  | .other => s.fault.halted || (match channelUnit unit_ with
    | some (q, _) => decide ((stackOf s (5 * k + q)).rate < rateLimit (stackOf s (5 * k + q)))
    | none => false)

/-- SLICE_ABANDON (14, R349): the unit is restored to service. -/
def execSliceAbandon (k : Nat) (cause : AbandonCause) (s : State) : Result :=
  match (bistOf s k).current with
  | none => .next s
  | some (u, _, _, _) => when (abandonCause s k u cause) s (sliceOver s k (abandonOutcome cause))

/-- One listed stripe is written, under its lock, and leaves the list (14, R350; 06, R156). -/
def catchUpStripe (s : State) (k p c l stripe : Nat) : State :=
  underLock s l stripe .catchUp (fun s =>
    modBist (rejoinStripe s p c l stripe) k (fun b => { b with catchUp := b.catchUp.filter (· != (l, stripe)) }))

/-- CATCHUP_WALK_DONE (14, R350): every listed stripe is current again, and the slice is entered; a stripe whose lock another holds waits for it, and the walk for an entry of the reserved part. -/
def execCatchupWalkDone (k : Nat) (s : State) : Result :=
  let b := bistOf s k
  match b.walking with
  | none => .next s
  | some (u, outcome, since) =>
    let pc := (channelUnit u).getD (0, 0)
    let s1 := b.catchUp.foldl (fun s x => catchUpStripe s k (5 * k + pc.1) pc.2 x.1 x.2) s
    when (reservedRoom s k 1) s
      (if (bistOf s1 k).catchUp.isEmpty then
        sliceEntry (modBist s1 k (fun b => { b with walking := none })) k
          { timestamp := since, unit := u, segment := 0, outcome := outcome, duration := min 0xFFFF ((stamp s1 - since) / 250), catchUp := b.listed }
      else s1)

/-! ### When units fall due (14, R346) -/

/-- One hour, 4 ns units. -/
def hour : Nat := 3600 * second

/-- UNIT_DUE (14, R346): due 20 h after the last pass, overdue and counted at 24 h. -/
def execUnitDue (k unit_ segment : Nat) (s : State) : Result :=
  let b := bistOf s k
  let age := stamp s - tget b.lastPass (unit_ * 256 + segment) 0
  let u := (unit_, segment)
  let addDue := fun (s : State) => if b.due.contains u then s else modBist s k (fun b => { b with due := b.due ++ [u] })
  let addOver := fun (s : State) =>
    if 24 * hour ≤ age ∧ !b.overdue.contains u then
      lifeAdd (modBist s k (fun b => { b with overdue := b.overdue ++ [u] })) 0x0A0 (b2n (!b.overdue.any (fun v => v.1 == unit_)))
    else s
  when (decide (k < 5) && firmwareRuns s && (testUnits s k).contains u && decide (20 * hour ≤ age)) s (addOver (addDue s))

/-! ### Exchanges (14, R352, R353) -/

/-- The stalest pass of a port's segments. -/
def portPass (s : State) (n : Nat) : Nat :=
  let b := bistOf s (portRegion n)
  (List.range 4).foldl (fun m g => min m (tget b.lastPass (portUnit n * 256 + g) 0)) (stamp s)

/-- The pair of the same region whose exchange goes the other way (14, R352). -/
def couple (pair : Nat) : Nat := pair / 4 * 4 + (pair + 2) % 4

/-- An active port may be exchanged with its partner: the partner is COLD with valid saved state and passed within the last 4 h, PORT_SELECT has not set the side, no change or failover runs (14, R352). -/
def exchangeFit (s : State) (n : Nat) : Bool :=
  let m := portOf s (partner n)
  portActive s n && m.st == .cold && savedValid s m && !narrowBarred s (partner n) && decide (stamp s - portPass s (partner n) < 4 * hour) &&
  !(tget s.link.pairs (n % 16) {}).selected && (failoverOf s (n % 16)).isNone

/-- The active port of a pair. -/
def activeOf (s : State) (pair : Nat) : Nat := if portActive s pair then pair else pair + 16

/-- The exchanges of a couple may begin: one of its active ports last passed more than 20 h ago, they lie on opposite planes, and both may be exchanged (14, R352). -/
def exchangeDue (s : State) (pair : Nat) : Bool :=
  let n := activeOf s pair
  let m := activeOf s (couple pair)
  exchangeFit s n && exchangeFit s m && n / 16 != m / 16 && (decide (20 * hour ≤ stamp s - portPass s n) || decide (20 * hour ≤ stamp s - portPass s m)) && !s.fault.halted

/-- The planned change of side of an exchange begins (14, R352; 10, R273). -/
def beginExchangeOf (s : State) (pair n : Nat) : State :=
  let s := modPort s n (fun p => { p with stopped := true })
  setFailover s pair { from_ := n, since := now s, exchange := true, draining := true }

/-- PORT_EXCHANGE (14, R352): the pair changes side, and with it the pair of its couple, the other way. -/
def execPortExchange (pair : Nat) (s : State) : Result :=
  when (decide (pair < 16) && exchangeDue s pair) s
    (beginExchangeOf (beginExchangeOf s pair (activeOf s pair)) (couple pair) (activeOf s (couple pair)))

/-- The active management pair is due and the spare has passed. -/
def pairsDue (s : State) : Bool :=
  let b := bistOf s 4
  let a := unitId Kind.mgmtPair s.fault.pairActive
  let sp := unitId Kind.mgmtPair (1 - s.fault.pairActive)
  s.fault.pairSpareFree && (b.due.contains (a, 0) || b.overdue.contains (a, 0)) && decide (stamp s - tget b.lastPass (sp * 256) 0 < 20 * hour) && b.current.isNone &&
  decide (tget b.retryAt a 0 ≤ now s)

/-- The pairs exchange roles (14, R353). -/
def swapPairs (s : State) : State := { s with fault := { s.fault with pairActive := 1 - s.fault.pairActive }, hub := { s.hub with exchangeSince := none } }

/-- The exchange of the pairs is put off by 1 s (14, Table 14.13). -/
def deferPairs (s : State) : State :=
  modBist { s with hub := { s.hub with exchangeSince := none } } 4 (fun b => { b with retryAt := tset b.retryAt (unitId Kind.mgmtPair s.fault.pairActive) (now s + second) })

/-- MGMT_PAIR_EXCHANGE (14, R353): the pairs exchange roles once no accepted order waits for its commit tick. The first such event of a due exchange that finds one begins the wait, in which later orders are held; the wait ends after 10 ms, and the exchange is tried again after 1 s (Table 14.13; log entry 22). -/
def execMgmtPairExchange (s : State) : Result :=
  when (firmwareRuns s && pairsDue s) s
    (if s.hub.prepared.isEmpty then swapPairs s
     else match s.hub.exchangeSince with
       | none => { s with hub := { s.hub with exchangeSince := some (now s) } }
       | some t => if passed s t (ms 10) then deferPairs s else s)

/-! ### Spare stacks and fuses (14, R346, R354) -/

/-- A spare stack's weekly test may start. -/
def stackTestDue (s : State) (k : Nat) : Bool :=
  firmwareRuns s && decide (k < 4) && !s.fault.halted && !recordPending s && s.power.level == 0 && spareUsable s k && (stackOf s (spareOf k)).st == .off &&
  decide (7 * 24 * hour ≤ stamp s - tget s.life.stackTested k 0) && decide (drawNow s + stackDraw ≤ 600)

/-- The test ends: the stack is powered off; one that fails is no spare (14, R354). -/
def endStackTest (s : State) (k : Nat) (passed_ : Bool) : State :=
  let s := modStack { s with life := { s.life with stackTest := none, stackTested := tset s.life.stackTested k (stamp s) } } (spareOf k) (fun x => { x with st := .off })
  if passed_ then s else raiseR s k (stackUnit (spareOf k)) Cause.bistFail

/-- The stack of a region's test is powered and trained under R139 (14, R354). -/
def beginStackTest (s : State) (k : Nat) : State :=
  let p := spareOf k
  let s := modStack { s with life := { s.life with stackTest := some k } } p (fun x => { x with st := .serving, mapped := false, rate := 0 })
  firstPasses ((List.range 32).foldl (fun s c => trainChan s p c) s) p

/-- SPARE_STACK_TEST (14, R354): the first such event of a due test powers and trains the stack, the next is its end, at most 1.5 s later (log entry 17). -/
def execSpareStackTest (k : Nat) (passed_ : Bool) (s : State) : Result :=
  match s.life.stackTest with
  | some x => when (x == k) s (endStackTest s k passed_)
  | none => when (stackTestDue s k) s (beginStackTest s k)

/-- FUSE_BANK_CHECK (14, R346): every 24 h a bank is read and compared with its ECC; the spec states no effect of a mismatch. -/
def execFuseBankCheck (bank : Nat) (_ok : Bool) (s : State) : Result :=
  when (firmwareRuns s && decide (24 * hour ≤ stamp s - tget s.life.fuseChecked bank 0)) s
    { s with life := { s.life with fuseChecked := tset s.life.fuseChecked bank (stamp s) } }

/-! ### The flash log (14, R358) -/

/-- CHECKPOINT (14, R358): every 600 s of POWER_ON_SECONDS in the interval. -/
def execCheckpoint (s : State) : Result :=
  let t := tget s.life.counters 0x000 0
  when (firmwareRuns s && decide (s.life.lastCheckpoint + 600 ≤ t)) s (checkpointRec { s with life := { s.life with lastCheckpoint := t } })

/-- The xSPI controller is under test, and flash writes queue (14, Table 14.2). -/
def flashTested (s : State) : Bool :=
  match (bistOf s 4).current with
  | some (u, seg, _, _) => u == unitId Kind.flash 0 && seg == 0
  | none => false

/-- A waiting record is written; where the block fails it is retired, and the record goes on waiting (14, R357, R358). -/
def writeWaiting (s : State) (ok : Bool) : State :=
  match s.life.buffer with
  | [] => s
  | r :: rest =>
    if needsBlock s r && (nextPlace s).isNone then s
    else if ok then writeLog { s with life := { s.life with buffer := rest } } r
    else retireBlock s r

/-- EVENT_RECORD_WRITE (14, R358): the oldest waiting record, while the flash is free. -/
def execEventRecordWrite (ok : Bool) (s : State) : Result :=
  when ((firmwareRuns s || s.power.stage == .poweringDown) && !flashOut s && !flashTested s && s.hub.fwWork.isEmpty) s (writeWaiting s ok)

end Sys2Proof.Machine
end

