-- ==== Sys2Proof/Machine/FaultEvents.lean ====
section
/-! DEFINITION. Events of fault collection (12): a block's error line, the end of a replacement, the takeover by the spare management pair. -/

namespace Sys2Proof.Machine

/-! ### Error lines (12, R309 to R315, Tables 12.1 and 12.3) -/

/-- A unit of a region, by kind, with an index that exists (12, Table 12.1; 15, Table 15.4). -/
def regionUnitOk (k u : Nat) : Bool :=
  let i := u % 2048
  let kind := u / 2048
  if kind = Kind.channel then decide (i < 160)
  else if kind = Kind.stack ∨ kind = Kind.stackTemp then decide (i < 5)
  else if kind = Kind.engine then decide (i < 144)
  else if kind = Kind.cluster ∨ kind = Kind.dirSlice then decide (i < 16)
  else if kind = Kind.port then decide (i < 32) && portRegion i == k
  else if kind = Kind.portPair then decide (i < 16) && portRegion i == k
  else if kind = Kind.lane then decide (i < 512) && decide (i % 16 < 9) && portRegion (i / 16) == k
  else if kind = Kind.dirWay then decide (i < 272)
  else if kind = Kind.ringLink then decide (i < 3)
  else if kind = Kind.sramMacro then true
  else if kind = Kind.phase then decide (i / 32 < 12) && i / 32 % 4 == k && decide (i % 32 < (railPhases (i / 32)).1 + (railPhases (i / 32)).2.1)
  else (kind == Kind.stripeBuffer || kind == Kind.homeAgent || kind == Kind.ingress || kind == Kind.crossbar || kind == Kind.regionDie) && i == 0

/-- A unit of the hub. -/
def hubUnitOk (u : Nat) : Bool :=
  let i := u % 2048
  let kind := u / 2048
  if kind = Kind.mgmtPair ∨ kind = Kind.rootPll then decide (i < 2)
  else if kind = Kind.phase then i / 32 == 12 && decide (i % 32 < 12)
  else if kind = Kind.fuseBank ∨ kind = Kind.sramMacro then true
  else (kind == Kind.securityCore || kind == Kind.darinlink || kind == Kind.flash) && i == 0

/-- The kinds of unit whose error line may report a cause, hub units and region units apart (12, Table 12.3, R321). -/
def causeKinds (hub : Bool) (c : Nat) : List Nat :=
  if hub then
    if c = Cause.mgmtMismatch then [Kind.mgmtPair] else if c = Cause.pllFail then [Kind.rootPll] else if c = Cause.phaseFail then [Kind.phase]
    else if c = Cause.hubFailed then [Kind.securityCore] else if c = Cause.sramRowSpared then [Kind.sramMacro] else if c = Cause.fuseRowSpared then [Kind.fuseBank]
    else if c = Cause.sramFail then [Kind.mgmtPair, Kind.securityCore, Kind.darinlink, Kind.sramMacro] else []
  else if c = Cause.tempPathFail then [Kind.stackTemp]
  else if c = Cause.retrainFail ∨ c = Cause.parityPersistent then [Kind.channel]
  else if c = Cause.linkFailed then [Kind.port]
  else if c = Cause.engineFailed then [Kind.engine]
  else if c = Cause.dirWayFail then [Kind.dirWay]
  else if c = Cause.dirSliceFail then [Kind.dirSlice]
  else if c = Cause.sramFail then [Kind.channel, Kind.engine, Kind.port, Kind.dirSlice, Kind.stripeBuffer, Kind.homeAgent, Kind.ingress, Kind.crossbar, Kind.sramMacro]
  else if c = Cause.ringLinkFail then [Kind.ringLink]
  else if c = Cause.phaseFail then [Kind.phase]
  else if c = Cause.regionLost then [Kind.homeAgent, Kind.ingress, Kind.crossbar, Kind.regionDie]
  else if c = Cause.sramRowSpared then [Kind.sramMacro]
  else []

/-- A fault that an error line can report. -/
def lineFault (f : FaultIn) : Bool :=
  (if f.hub then hubUnitOk f.unit else decide (f.region < 4) && regionUnitOk f.region f.unit) && (causeKinds f.hub f.cause).contains (f.unit / 2048)

/-- SRAM_FAIL of a macro falls on the block that holds it (12, Table 12.10). Which block that is, the repair map says (log entry 8); where what it names has no error line for the cause, the macro stands for it. -/
def onHolder (f : FaultIn) : FaultIn :=
  if f.cause = Cause.sramFail ∧ f.unit / 2048 = Kind.sramMacro then
    let g := { f with unit := Config.sramHolder (if f.hub then 4 else f.region) (f.unit % 2048) }
    if lineFault g then g else f
  else f

/-- Which of the error lines of a collector that report in one cycle is taken first: reports of one cycle stand in the queue of commands in the order that this gives (12, Table 12.14; 04, R92; log entry 15). -/
def lineTurn (s : State) (collector : Nat) (units : List Nat) : Option Nat := rotate 65536 (tget s.fault.linePtrs collector 0) units.contains

/-- The pointer over a collector's error lines moves past the line that is taken. -/
def lineTaken (s : State) (f : FaultIn) : State :=
  { s with fault := { s.fault with linePtrs := tset s.fault.linePtrs (if f.hub then 4 else f.region) ((f.unit + 1) % 65536) } }

/-- An error line reports a fault: an SRAM row that errs moves to a spare row, without one the block that holds its macro fails; a spared fuse row is noted; every other is latched and reacted to (12, R309, R314, Tables 12.3 and 12.10). -/
def errorLine (s : State) (f : FaultIn) : State :=
  let s := lineTaken s f
  if f.cause = Cause.sramRowSpared then
    let t := spareRow s f.hub f.region (f.unit % 2048) (f.detail % 65536)
    if t.1 then t.2 else raise s (onHolder { f with cause := Cause.sramFail })
  else if f.cause = Cause.fuseRowSpared then note s f.hub f.region f.unit f.cause f.detail
  else raise s (onHolder f)

/-- ERROR_LINE (12, R309). -/
def execErrorLine (hub : Bool) (k u c d : Nat) (s : State) : Result :=
  let f : FaultIn := { hub := hub, region := k, unit := u, cause := c, detail := d }
  when (hubRuns s && lineFault f) s (errorLine s f)

/-! ### Replacements (12, R320) -/

/-- What a replacement waits for: a partner port that carries traffic, a spare stack that serves (12, Table 12.10). -/
def replacementReady (s : State) (hub : Bool) (k u : Nat) : Bool :=
  let kind := u / 2048
  let i := u % 2048
  if hub then true
  else if kind = Kind.port then portActive s (partner i)
  else if kind = Kind.lane then portActive s (partner (i / 16))
  else if kind = Kind.stack then (stackOf s (spareOf k)).st == .serving
  else true

/-- REPLACEMENT_DONE (12, R320): a running replacement has completed, with its NOTE. -/
def execReplacementDone (hub : Bool) (k u : Nat) (s : State) : Result :=
  when (s.fault.replacing.contains (hub, k, u) && replacementReady s hub k u) s
    (replaced { s with fault := { s.fault with replacing := s.fault.replacing.filter (· != (hub, k, u)) } } hub k u)

/-! ### The spare management pair (12, R322) -/

/-- Header and code of an order that waits for its commit tick. -/
def Prepared.order : Prepared → OrderHdr × Nat
  | .grant h _ _ => (h, Ord.grant)
  | .accessSet h _ _ _ _ => (h, Ord.accessSet)
  | .revoke h _ _ => (h, Ord.revoke)
  | .tenantCreate h _ _ _ => (h, Ord.tenantCreate)
  | .rotateKey h _ _ _ => (h, Ord.rotateKey)
  | .retireKey h _ _ _ => (h, Ord.retireKey)
  | .tenantRemove h _ => (h, Ord.tenantRemove)
  | .mapRange h _ _ _ _ _ _ => (h, Ord.mapRange)
  | .unmapRange h _ _ _ => (h, Ord.unmapRange)
  | .protectRange h _ _ _ _ => (h, Ord.protectRange)
  | .asidCreate h _ _ => (h, Ord.asidCreate)
  | .asidDestroy h _ => (h, Ord.asidDestroy)
  | .invalidate h _ _ _ => (h, Ord.invalidateRange)
  | .hostShape h _ _ => (h, Ord.hostShape)
  | .idlePolicy h _ => (h, Ord.memIdlePolicy)
  | .faultPolicy h _ => (h, Ord.faultPolicy)

/-- The spare pair has restarted the firmware: orders that had not reached their commit tick are answered ORDER_INTERRUPTED and alter nothing (12, R322). -/
def takeOverPair (s : State) : State :=
  let old := s.fault.pairActive
  let l := s.hub.prepared
  let s := { s with
    fault := { s.fault with takeover := false, pairActive := 1 - old }
    hub := { s.hub with prepared := [] } }
  let s := l.foldl (fun s p => finish s p.order.1 p.order.2 Sts.orderInterrupted) s
  replaced s true 0 (unitId Kind.mgmtPair old)

/-- MGMT_PAIR_TAKEOVER (12, R322). -/
def execMgmtPairTakeover (s : State) : Result := when (hubRuns s && s.fault.takeover) s (takeOverPair s)

end Sys2Proof.Machine
end

