-- ==== Sys2Proof/Machine/Sideband.lean ====
section
/-! DEFINITION. The I3C target and the JTAG TAP (15, R383 to R385). What MIPI I3C Basic, IEEE 1149.1 and IEEE 1149.6 add to the spec's words is log entry 12's. -/

namespace Sys2Proof.Machine

/-! ### I3C (15, R383, Table 15.16) -/

/-- A sideband controller is under test: 0 xSPI, 1 I3C, 2 JTAG (14, Table 14.2). -/
def sideTest (s : State) (segment : Nat) : Bool :=
  match (bistOf s 4).current with
  | some (u, seg, _, _) => u == unitId Kind.flash 0 && seg == segment
  | none => false

/-- The target answers from power-on; its accesses are NACKed while it is under test (14, Table 14.2). -/
def i3cAnswers (s : State) : Bool := s.power.stage != .unpowered && !sideTest s 1

/-- The address the target answers to: its dynamic address, else its static one, which the strap I3C_ADDR selects. -/
def i3cTarget (s : State) : Nat := s.power.i3cAddress.getD (if s.power.i3cHigh then 0x31 else 0x30)

/-- The status window offset that an I3C offset shows, if it shows one (15, Table 15.16). -/
def i3cWindow (o : Nat) : Option Nat :=
  if o < 0x100 then some (0x100 + o) else if o < 0x118 then some (o - 0x100) else none

/-- A byte of the I3C register map as of the last tick; reserved offsets read as zero. -/
def i3cByte (s : State) (o : Nat) : Byte :=
  match i3cWindow o with
  | some w => (leBytes 8 (tget s.hub.window (w / 8 * 8) 0)).getD (w % 8) 0
  | none => 0

/-- I3C_PRIVATE_WRITE (15, R383): two bytes set the offset; any other write is ignored. -/
def execI3cPrivateWrite (bytes : List Byte) (s : State) : Result :=
  when (i3cAnswers s && bytes.length == 2) s { s with power := { s.power with i3cOffset := ofLe bytes } }

/-- I3C_PRIVATE_READ (15, R383): up to 256 B of one 256 B block. -/
def execI3cPrivateRead (count : Nat) (s : State) : Result :=
  when (i3cAnswers s && decide (1 ≤ count) && decide (s.power.i3cOffset % 256 + count ≤ 256)) s
    (emit s (.i3c ((List.range count).map (fun i => i3cByte s (s.power.i3cOffset + i)))))

/-- A dynamic address is taken where the target has none. -/
def takeAddress (s : State) (a : Nat) : Result :=
  when (i3cAnswers s && s.power.i3cAddress.isNone && decide (a < 128)) s { s with power := { s.power with i3cAddress := some a } }

/-- SETDASA (15, R383). -/
def execSetdasa (a : Nat) (s : State) : Result := takeAddress s a

/-- ENTDAA (15, R383). -/
def execEntdaa (a : Nat) (s : State) : Result := takeAddress s a

/-- RSTDAA (15, R383): the dynamic address is given up. -/
def execRstdaa (s : State) : Result := when (i3cAnswers s) s { s with power := { s.power with i3cAddress := none } }

/-- The bytes that a GET CCC returns, the first the highest as MIPI I3C Basic sends them. -/
def getCcc (s : State) (n v : Nat) : Result := when (i3cAnswers s) s (emit s (.i3c (beBytes n v)))

/-- GETPID (15, R383). -/
def execGetpid (s : State) : Result := getCcc s 6 Config.i3cPid.toNat

/-- GETBCR (15, R383). -/
def execGetbcr (s : State) : Result := getCcc s 1 Config.i3cBcr.toNat

/-- GETDCR (15, R383). -/
def execGetdcr (s : State) : Result := getCcc s 1 Config.i3cDcr.toNat

/-- GETSTATUS (15, R383). -/
def execGetstatus (s : State) : Result := getCcc s 2 Config.i3cStatus.toNat

/-- GETMXDS (15, R383). -/
def execGetmxds (s : State) : Result := getCcc s 2 Config.i3cMxds.toNat

/-- ENEC: accepted and ignored (15, R383). -/
def execEnec (s : State) : Result := .next s

/-- DISEC: accepted and ignored (15, R383). -/
def execDisec (s : State) : Result := .next s

/-! ### JTAG (15, R385, Table 15.18) -/

/-- The TAP answers from power-on. -/
def tapOn (s : State) : Bool := s.power.stage != .unpowered

def setJtag (s : State) (i : JtagInstr) : State := { s with power := { s.power with jtag := i } }

/-- A number's low 32 bits as a data register shows them, bit 0 first. -/
def jtagWord (n : Nat) : List Bool := (List.range 32).map (fun i => bit n i)

/-- What the 1-bit bypass register shows while bits are shifted: the 0 it captures, then the bits one shift late. -/
def bypassBits (shift : List Bool) : List Bool := false :: shift.dropLast

/-- The instruction of a code of the 8-bit instruction register; any other code is BYPASS (15, Table 15.18). -/
def tapInstr (code : Nat) : JtagInstr :=
  if code = 0x01 then .idcode else if code = 0x02 then .sample else if code = 0x03 then .extest else if code = 0x04 then .extestPulse
  else if code = 0x05 then .extestTrain else if code = 0x06 then .clamp else if code = 0x07 then .highz else if code = 0x10 then .bootStatus else .bypass

/-- An instruction that acts as BYPASS: the bypass register is between TDI and TDO. -/
def asBypass (s : State) (i : JtagInstr) (shift : List Bool) : State := emit (setJtag s i) (.jtag (bypassBits shift))

/-- A boundary test: effective only while RESET_N is low, when the bits drive the pins (15, R385). -/
def boundaryTest (s : State) (i : JtagInstr) (shift : List Bool) : State :=
  if s.power.resetN then asBypass s i shift
  else emit (useFree { s with power := { s.power with jtag := i, boundary := shift, pinsDriven := true } }) (.jtag (Config.boundaryPins (freeNo s)))

/-- The pins take the levels that the instruction gives them, only while RESET_N is low; the bypass register is between TDI and TDO either way (15, R385). -/
def pinInstr (s : State) (i : JtagInstr) (shift : List Bool) : State :=
  if s.power.resetN then asBypass s i shift
  else asBypass { s with power := { s.power with pinsDriven := true } } i shift

/-- SAMPLE: the pins are captured, and the bits shifted in are preloaded (15, Table 15.18). -/
def samplePins (s : State) (shift : List Bool) : State :=
  emit (useFree { s with power := { s.power with jtag := .sample, boundary := shift } }) (.jtag (Config.boundaryPins (freeNo s)))

/-- What an instruction of the TAP does, with the bits shifted in (15, Table 15.18). -/
def tapRun (s : State) (i : JtagInstr) (shift : List Bool) : State :=
  match i with
  | .idcode => emit (setJtag s .idcode) (.jtag (jtagWord 0x11604C95))
  | .sample => samplePins s shift
  | .extest => boundaryTest s .extest shift
  | .extestPulse => boundaryTest s .extestPulse shift
  | .extestTrain => boundaryTest s .extestTrain shift
  | .clamp => pinInstr s .clamp shift
  | .highz => pinInstr s .highz shift
  | .bootStatus => emit (setJtag s .bootStatus) (.jtag (jtagWord (s.hub.bootStatus.toNat + s.power.resetCause % 16 * 65536)))
  | .bypass => asBypass s .bypass shift

/-- An access of the TAP: while the TAP is under test it waits (14, Table 14.2). -/
def tapAccess (s : State) (i : JtagInstr) (shift : List Bool) : Result :=
  when (tapOn s) s (if sideTest s 2 then { s with power := { s.power with jtagHeld := s.power.jtagHeld ++ [(i, shift)] } } else tapRun s i shift)

/-- The TAP's slice has ended: what waited goes on, in order (14, Table 14.2). -/
def releaseTap (s : State) : State :=
  if sideTest s 2 then s else s.power.jtagHeld.foldl (fun s x => tapRun s x.1 x.2) { s with power := { s.power with jtagHeld := [] } }

/-- IDCODE (15, Table 15.18). -/
def execIdcode (s : State) : Result := tapAccess s .idcode []

/-- SAMPLE (15, Table 15.18). -/
def execSample (shift : List Bool) (s : State) : Result := tapAccess s .sample shift

/-- EXTEST (15, R385). -/
def execExtest (shift : List Bool) (s : State) : Result := tapAccess s .extest shift

/-- EXTEST_PULSE (15, R385). -/
def execExtestPulse (shift : List Bool) (s : State) : Result := tapAccess s .extestPulse shift

/-- EXTEST_TRAIN (15, R385). -/
def execExtestTrain (shift : List Bool) (s : State) : Result := tapAccess s .extestTrain shift

/-- CLAMP (15, R385): the preloaded bits drive the pins. -/
def execClamp (s : State) (shift : List Bool := []) : Result := tapAccess s .clamp shift

/-- HIGHZ (15, R385): the pins are released. -/
def execHighz (s : State) (shift : List Bool := []) : Result := tapAccess s .highz shift

/-- BOOT_STATUS (15, Table 15.18). -/
def execBootStatus (s : State) : Result := tapAccess s .bootStatus []

/-- BYPASS (15, R385, Table 15.18): code 0xFF, and every code that the table does not give. -/
def execBypass (s : State) (code : Nat := 0xFF) (shift : List Bool := []) : Result := if tapInstr code = .bypass then tapAccess s .bypass shift else .next s

/-- TRST_N_LOW (15, R385): the TAP is reset, IDCODE is its instruction, and accesses that wait are given up. -/
def execTrstNLow (s : State) : Result :=
  when (tapOn s) s (setJtag { s with power := { s.power with jtagHeld := [] } } .idcode)

end Sys2Proof.Machine
end

