-- ==== Sys2Proof/Machine/Held.lean ====
section
/-! DEFINITION. What waits for a self-test to end or for the management pairs to exchange goes on at the next 1 µs tick (14, R345, R353, Table 14.2). -/

namespace Sys2Proof.Machine

/-- A held order runs as the command it came by; nothing else is ever held. -/
def runOrder (c : Instr) (s : State) : Result :=
  match c with
  | .order via p => execOrder via p s
  | .ownerClaim h priority => execOwnerClaim h priority s
  | .ownerRenew h => execOwnerRenew h s
  | .ownerHandover h master => execOwnerHandover h master s
  | .ownerAccept h => execOwnerAccept h s
  | .ownerRelease h => execOwnerRelease h s
  | .statusWindowRead h offset length => execStatusWindowRead h offset length s
  | .mgmtKeyAgree h key => execMgmtKeyAgree h key s
  | .grant h ext base size kind target physBase tenant measured access => execGrant h ext base size kind target physBase tenant measured access s
  | .accessSet h ext generation access measured => execAccessSet h ext generation access measured s
  | .revoke h ext generation => execRevoke h ext generation s
  | .extentRead h ext => execExtentRead h ext s
  | .extentFind h offset => execExtentFind h offset s
  | .violationRead h => execViolationRead h s
  | .hostShape h host weight pbs cbs pir cir => execHostShape h host weight pbs cbs pir cir s
  | .hostShapeRead h host region => execHostShapeRead h host region s
  | .tenantCreate h tenant wrapped => execTenantCreate h tenant wrapped s
  | .tenantRemove h tenant => execTenantRemove h tenant s
  | .rotateKey h tenant wrapped => execRotateKey h tenant wrapped s
  | .retireKey h tenant epoch force => execRetireKey h tenant epoch force s
  | .attestReport h nonce => execAttestReport h nonce s
  | .fwWrite h image offset length => execFwWrite h image offset length s
  | .fwActivate h image => execFwActivate h image s
  | .slotGrant h slot host => execSlotGrant h slot host s
  | .slotRelease h slot roleGen => execSlotRelease h slot roleGen s
  | .slotRead h slot => execSlotRead h slot s
  | .hostFailed h host => execHostFailed h host s
  | .lostRead h => execLostRead h s
  | .dirRead h offset => execDirRead h offset s
  | .stackRead h region position => execStackRead h region position s
  | .stackRateLimit h region position limit => execStackRateLimit h region position limit s
  | .memIdlePolicy h ms => execMemIdlePolicy h ms s
  | .integrityRead h region position => execIntegrityRead h region position s
  | .blotterRead h region first => execBlotterRead h region first s
  | .blotterClear h region => execBlotterClear h region s
  | .poisonRead h => execPoisonRead h s
  | .scrubPolicy h minutes => execScrubPolicy h minutes s
  | .evacuate h region position => execEvacuate h region position s
  | .accordLoad h offset length tenant => execAccordLoad h offset length tenant s
  | .accordUnload h accord => execAccordUnload h accord s
  | .asidCreate h asid tenant => execAsidCreate h asid tenant s
  | .asidDestroy h asid => execAsidDestroy h asid s
  | .mapRange h asid pva ppa pageSize count rights => execMapRange h asid pva ppa pageSize count rights s
  | .unmapRange h asid pva size => execUnmapRange h asid pva size s
  | .protectRange h asid pva size rights => execProtectRange h asid pva size rights s
  | .invalidateRange h asid pva size => execInvalidateRange h asid pva size s
  | .mapRead h asid pva => execMapRead h asid pva s
  | .faultRingSet h ppa slots => execFaultRingSet h ppa slots s
  | .faultResolve h batch verdict => execFaultResolve h batch verdict s
  | .faultPolicy h ms => execFaultPolicy h ms s
  | .sprayRead h spray => execSprayRead h spray s
  | .sprayCancel h spray => execSprayCancel h spray s
  | .engineTagRelease h host => execEngineTagRelease h host s
  | .portRead h plane port => execPortRead h plane port s
  | .portSelect h pair plane => execPortSelect h pair plane s
  | .portRetrain h plane port => execPortRetrain h plane port s
  | .faultRead h selector => execFaultRead h selector s
  | .faultAck h selector cls => execFaultAck h selector cls s
  | .clockSet h calendar => execClockSet h calendar s
  | .lifetimeRead h group => execLifetimeRead h group s
  | .bistRead h region => execBistRead h region s
  | .powerLimit h watts => execPowerLimit h watts s
  | .moduleReset h => execModuleReset h s
  | _ => .next s

/-- The state after a held order; an order always answers a next state. -/
def afterOrder (s : State) (c : Instr) : State :=
  match runOrder c s with
  | .next t => t
  | _ => s

/-- Orders that waited are taken, in order of arrival; those that still have to wait are held again (14, R353, Table 14.2).
DESIGN CHOICE, log entry 22: they go on at the first 1 µs tick after their wait has ended. -/
def releaseOrders (s : State) : State := s.hub.heldOrders.foldl afterOrder { s with hub := { s.hub with heldOrders := [] } }

/-- REFILL_TICK (03, R80, R86; 05, R136; 07, R199; 11, R302, R305; 14, R353): what waited goes on, then the tick. -/
def execRefillTick (s : State) : Result := when (tickDue s s.time.refilled) s (refillTick (releaseTap (releaseOrders s)))

end Sys2Proof.Machine
end

