-- ==== Sys2Proof/Machine/Power.lean ====
section
/-! DEFINITION. Input power, power levels, temperatures of the dies and the reference clock (15, R363 to R370). -/

namespace Sys2Proof.Machine

/-- The hub collector runs (15, Table 15.9, step 3 on). -/
def hubUp (s : State) : Bool := outputsDriven s

/-! ### The input (15, R363) -/

/-- Input below 46 V or above 58 V, and not so far out that the converters stop. -/
def inputStrained (mv : Nat) : Bool := (decide (42000 ≤ mv) && decide (mv < 46000)) || (decide (58000 < mv) && decide (mv ≤ 62000))

/-- The input out of its range: for 10 ms, HALT. -/
def inputSeen (s : State) (mv ma : Nat) : State :=
  let since := if inputStrained mv then some (s.power.rangeSince.getD (now s)) else none
  let s := { s with power := { s.power with inputMv := mv, inputMa := ma, rangeSince := since } }
  match since with
  | some t => if passed s t (ms 10) && hubUp s then haltOnce s Cause.inputRange else s
  | none => raiseAgain s Cause.inputRange

/-- INPUT_MONITOR (15, R363): below 42 V or above 62 V every converter stops at once. -/
def execInputMonitor (mv ma : Nat) (s : State) : Result :=
  when (s.power.stage != .unpowered) s (if mv < 42000 ∨ 62000 < mv then powerOff s 0 .unpowered else inputSeen s mv ma)

/-! ### Power levels (15, R365, R366) -/

/-- The power limit that a level sets on every stack, as a rate code (15, Table 15.5). -/
def levelRate (level : Nat) : Nat := if level = 3 then 1 else if level = 4 then 2 else 0

def setLevel (s : State) (level : Nat) : State :=
  (List.range 20).foldl (fun s p => modStack s p (fun x => { x with powerLimit := levelRate level })) { s with power := { s.power with level := level } }

/-- The new owner's limit applies (15, R365). -/
def takeLimit (s : State) : State :=
  match s.power.newLimits.getLast? with
  | some (w, _) => { s with power := { s.power with ownerLimit := w, newLimits := [] } }
  | none => s

/-- The level rises by one when P is above the ceiling, at most once in 10 ms. -/
def raiseLevel (s : State) (p : Nat) : State :=
  if powerCeiling s < p ∧ s.power.level < 4 ∧ (s.power.lastRaise.map (fun t => passed s t (ms 10))).getD true then
    setLevel { s with power := { s.power with lastRaise := some (now s) } } (s.power.level + 1)
  else s

/-- The least level that a hot die allows (15, R367). -/
def leastLevel (s : State) : Nat := if s.power.dieHold then 2 else 0

/-- The level falls by one when P has stayed below 0.9 of the ceiling for 100 ms. -/
def lowerLevel (s : State) (p : Nat) : State :=
  if 10 * p < 9 * powerCeiling s then
    let t := s.power.below90Since.getD (now s)
    if passed s t (ms 100) && decide (leastLevel s < s.power.level) then setLevel { s with power := { s.power with below90Since := some (now s) } } (s.power.level - 1)
    else { s with power := { s.power with below90Since := some t } }
  else { s with power := { s.power with below90Since := none } }

/-- Input above 1,900 W for 100 ms at level 4 (15, R363). -/
def overPower (s : State) (p : Nat) : State :=
  if 1900 < p ∧ s.power.level = 4 then
    let t := s.power.overSince.getD (now s)
    let s := { s with power := { s.power with overSince := some t } }
    if passed s t (ms 100) then haltOnce s Cause.overpower else s
  else raiseAgain { s with power := { s.power with overSince := none } } Cause.overpower

/-- One evaluation: the ceiling first, then the level; POWER_LIMIT orders are answered after it. -/
def evaluate (s : State) (avg10 avg1 : Nat) : State :=
  let waits := s.power.newLimits
  let s := { s with power := { s.power with
    inputW := avg10, inputPeak := s.power.inputPeak.filter (fun (e : Nat × Nat) => decide (now s < e.1 + second)) ++ [(now s, avg1)] } }
  let s := overPower (lowerLevel (raiseLevel (takeLimit s) avg10) avg10) avg10
  waits.foldl (fun s x => finish s x.2 Ord.powerLimit Sts.success) s

/-- POWER_EVALUATION (15, R366), every 1 ms. -/
def execPowerEvaluation (avg10 avg1 : Nat) (s : State) : Result := when (hubRuns s) s (evaluate s avg10 avg1)

/-! ### Die temperatures (15, R367, R368) -/

/-- What the hub, out of reset, makes of the dies' readings: hold of the power level, warning (15, R367). -/
def dieHub (s : State) : State :=
  let temps := (List.range 5).map (dieTempOf s)
  let hold := if temps.any (fun x => decide (105 ≤ x)) then true else if temps.all (fun x => decide (x < 100)) then false else s.power.dieHold
  let s := { s with power := { s.power with dieHold := hold } }
  warn (if hold ∧ s.power.level < 2 then setLevel s 2 else s)

/-- A die's reading: the sensors run while the hub is held in reset (15, R372, R373). -/
def dieSeen (s : State) (die t : Nat) : State :=
  let s := { s with power := { s.power with dieTemp := tset s.power.dieTemp die t } }
  let s := if hubUp s then dieHub s else s
  if 115 ≤ t then trip s else s

/-- DIE_TEMP_READ (15, R367): the die's hottest sensor; die 4 is the hub. -/
def execDieTempRead (die : Nat) (sensors : List Nat) (s : State) : Result :=
  when (s.power.stage != .unpowered && decide (die < 5) && !sensors.isEmpty) s (dieSeen s die (largest sensors))

/-! ### The reference (15, R370) -/

/-- REF_CLOCK_LOSS (15, R370): no edge for 25 ns; every PLL holds its frequency. -/
def execRefClockLoss (s : State) : Result :=
  when (s.power.stage != .unpowered && s.power.refPresent) s { s with power := { s.power with refPresent := false, refLostAt := some (now s) } }

/-- REF_CLOCK_RETURN (15, R370): within 10 ms it is relocked and counted. -/
def execRefClockReturn (s : State) : Result :=
  let back := { s with power := { s.power with refPresent := true, refLostAt := none } }
  when (s.power.stage != .unpowered && !s.power.refPresent) s
    (match s.power.refLostAt with
     | some t => if now s ≤ t + ms 10 then { back with power := { back.power with refLosses := satInc 16 back.power.refLosses } } else back
     | none => back)

/-- REF_CLOCK_ABSENT_TIMEOUT (15, R370): absent for more than 10 ms, HALT. -/
def execRefClockAbsentTimeout (s : State) : Result :=
  let s := timeline s
  match s.power.refLostAt with
  | none => .next s
  | some t => when (!s.power.refPresent && decide (t + ms 10 < now s) && (hubUp s || s.power.stage == .securityTest)) s
      (haltWith { s with power := { s.power with refLostAt := none } } Cause.clockRefLost)

end Sys2Proof.Machine
end

