-- ==== Sys2Proof/Machine/Scalar.lean ====
section
/-! DEFINITION. Scalar and control instructions (08, R207 to R209, Tables 8.3 to 8.6). -/

namespace Sys2Proof.Machine

/-- ALU functions (08, Table 8.4). -/
def aluOp (fn : Nat) (a b : Word) : Option Word :=
  let sh := b.toNat % 64
  match fn with
  | 0x00 => some (a + b)
  | 0x01 => some (a - b)
  | 0x02 => some (a &&& b)
  | 0x03 => some (a ||| b)
  | 0x04 => some (a ^^^ b)
  | 0x05 => some (a <<< sh)
  | 0x06 => some (a >>> sh)
  | 0x07 => some (a.sshiftRight sh)
  | 0x08 => some (a * b)
  | 0x09 => some (BitVec.ofNat 64 (a.toNat * b.toNat / 2 ^ 64))
  | 0x0A => some (BitVec.ofInt 64 (a.toInt * b.toInt / (2 ^ 64 : Nat)))
  | 0x0B => some (if b.slt a then b else a)
  | 0x0C => some (if a.slt b then b else a)
  | 0x0D => some (if b.ult a then b else a)
  | 0x0E => some (if a.ult b then b else a)
  | 0x0F => some (if a.slt b then 1 else 0)
  | 0x10 => some (if a.ult b then 1 else 0)
  | 0x11 => some (if b = 0 then BitVec.allOnes 64 else a / b)
  | 0x12 => some (if b = 0 then a else a % b)
  | _ => none

/-- ALU (08, R208, Table 8.4). -/
def execAlu (t : ThreadRef) (f : Fields) (s : State) : Result :=
  regOp s t 0x01 f (aluOp f.fn.toNat 0 0).isSome [rS f.d, rS f.a, rS f.b] (fun _ th =>
    setSreg th f.d.toNat ((aluOp f.fn.toNat (sreg th f.a.toNat) (sreg th f.b.toNat)).getD 0))

/-- A scalar instruction with an immediate in FN: B is not used. -/
def immOp (s : State) (t : ThreadRef) (op : Nat) (f : Fields) (legal : Bool) (g : Word → Word) : Result :=
  regOp s t op f (f.b == 0 && legal) [rS f.d, rS f.a] (fun _ th => setSreg th f.d.toNat (g (sreg th f.a.toNat)))

/-- ADDI (08, Table 8.3). -/
def execAddi (t : ThreadRef) (f : Fields) (s : State) : Result := immOp s t 0x02 f true (· + imm11 f)
/-- ANDI (08, Table 8.3). -/
def execAndi (t : ThreadRef) (f : Fields) (s : State) : Result := immOp s t 0x03 f true (· &&& imm11 f)
/-- ORI (08, Table 8.3). -/
def execOri (t : ThreadRef) (f : Fields) (s : State) : Result := immOp s t 0x04 f true (· ||| imm11 f)
/-- XORI (08, Table 8.3). -/
def execXori (t : ThreadRef) (f : Fields) (s : State) : Result := immOp s t 0x05 f true (· ^^^ imm11 f)
/-- SHLI (08, Table 8.3): FN [10:6] are not used. -/
def execShli (t : ThreadRef) (f : Fields) (s : State) : Result := immOp s t 0x06 f (decide (f.fn.toNat < 64)) (· <<< f.fn.toNat)
/-- SHRI (08, Table 8.3). -/
def execShri (t : ThreadRef) (f : Fields) (s : State) : Result := immOp s t 0x07 f (decide (f.fn.toNat < 64)) (· >>> f.fn.toNat)
/-- SRAI (08, Table 8.3). -/
def execSrai (t : ThreadRef) (f : Fields) (s : State) : Result := immOp s t 0x08 f (decide (f.fn.toNat < 64)) (·.sshiftRight f.fn.toNat)
/-- SLTI (08, Table 8.3). -/
def execSlti (t : ThreadRef) (f : Fields) (s : State) : Result := immOp s t 0x09 f true (fun a => if a.slt (imm11 f) then 1 else 0)

/-- LI (08, Table 8.3). -/
def execLi (t : ThreadRef) (f : Fields) (s : State) : Result :=
  regOp s t 0x0A f true [rS f.d] (fun _ th => setSreg th f.d.toNat ((imm21 f).signExtend 64))

/-- LIS (08, Table 8.3). -/
def execLis (t : ThreadRef) (f : Fields) (s : State) : Result :=
  regOp s t 0x0B f true [rS f.d] (fun _ th => setSreg th f.d.toNat ((sreg th f.d.toNat <<< 21) ||| (imm21 f).zeroExtend 64))

/-- Low min(n, 64) bits set. -/
def lowOnes (n : Nat) : Word := if 64 ≤ n then BitVec.allOnes 64 else BitVec.ofNat 64 (2 ^ n - 1)

/-- POP (08, Table 8.6). -/
def execPop (t : ThreadRef) (f : Fields) (s : State) : Result :=
  let fn := f.fn.toNat
  let a := f.a.toNat
  let b := f.b.toNat
  let d := f.d.toNat
  match fn with
  | 0 => regOp s t 0x0C f (isP f.d && f.b == 0) [rS f.a] (fun _ th => setPred th d (sreg th a))
  | 1 => regOp s t 0x0C f (isP f.a && f.b == 0) [rS f.d] (fun _ th => setSreg th d (pred th a))
  | 2 => regOp s t 0x0C f (isP f.d && isP f.a && isP f.b) [] (fun _ th => setPred th d (pred th a &&& pred th b))
  | 3 => regOp s t 0x0C f (isP f.d && isP f.a && isP f.b) [] (fun _ th => setPred th d (pred th a ||| pred th b))
  | 4 => regOp s t 0x0C f (isP f.d && isP f.a && isP f.b) [] (fun _ th => setPred th d (pred th a ^^^ pred th b))
  | 5 => regOp s t 0x0C f (isP f.d && isP f.a && f.b == 0) [] (fun _ th => setPred th d (~~~ pred th a))
  | 6 => regOp s t 0x0C f (isP f.d && f.b == 0) [rS f.a] (fun _ th => setPred th d (lowOnes (sreg th a).toNat))
  | _ => regOp s t 0x0C f false [] (fun _ th => th)

/-- RDS special values (08, Table 8.5). -/
def specialValue (s : State) (t : ThreadRef) (p : Spray) (th : Thread) : Nat → Nat
  | 0 => stamp s
  | 1 => th.placed
  | 2 => t.thread
  | 3 => p.id
  | 4 => selfId s
  | 5 => p.total
  | 6 => p.field 113 104 * 1024
  | _ => p.field 23 8

/-- RDS (08, Table 8.5). -/
def execRds (t : ThreadRef) (f : Fields) (s : State) : Result :=
  regOp s t 0x0D f (f.a == 0 && f.b == 0 && decide (f.fn.toNat < 8)) [rS f.d] (fun p th =>
    setSreg th f.d.toNat (BitVec.ofNat 64 (specialValue s t p th f.fn.toNat)))

/-! ### Control -/

/-- A branch on a comparison of two scalars. -/
def compareBranch (s : State) (t : ThreadRef) (op : Nat) (f : Fields) (c : Word → Word → Bool) : Result :=
  issue s t op f (f.d == 0) [rS f.a, rS f.b] (fun _ th =>
    .go (if c (sreg th f.a.toNat) (sreg th f.b.toNat) then branch s t th f.fn.toInt else retire s t th))

/-- BEQ (08, Table 8.3). -/
def execBeq (t : ThreadRef) (f : Fields) (s : State) : Result := compareBranch s t 0x10 f (fun a b => a == b)
/-- BNE (08, Table 8.3). -/
def execBne (t : ThreadRef) (f : Fields) (s : State) : Result := compareBranch s t 0x11 f (fun a b => a != b)
/-- BLT (08, Table 8.3). -/
def execBlt (t : ThreadRef) (f : Fields) (s : State) : Result := compareBranch s t 0x12 f (fun a b => a.slt b)
/-- BGE (08, Table 8.3). -/
def execBge (t : ThreadRef) (f : Fields) (s : State) : Result := compareBranch s t 0x13 f (fun a b => !a.slt b)
/-- BLTU (08, Table 8.3). -/
def execBltu (t : ThreadRef) (f : Fields) (s : State) : Result := compareBranch s t 0x14 f (fun a b => a.ult b)
/-- BGEU (08, Table 8.3). -/
def execBgeu (t : ThreadRef) (f : Fields) (s : State) : Result := compareBranch s t 0x15 f (fun a b => !a.ult b)

/-- The BP conditions (08, D [25:24]): ANY, NONE, ALL16, ALL64. -/
def predCond (c : Nat) (p : Word) : Bool :=
  match c with
  | 0 => p != 0
  | 1 => p == 0
  | 2 => p.toNat % 2 ^ 16 == 2 ^ 16 - 1
  | _ => p == BitVec.allOnes 64

/-- BP (08, Table 8.3). -/
def execBp (t : ThreadRef) (f : Fields) (s : State) : Result :=
  issue s t 0x16 f true [] (fun _ th =>
    .go (if predCond (f.d.toNat / 8) (pred th (f.d.toNat % 8)) then branch s t th (imm21 f).toInt else retire s t th))

/-- JMP (08, Table 8.3): D is not used. -/
def execJmp (t : ThreadRef) (f : Fields) (s : State) : Result :=
  issue s t 0x17 f (f.d == 0) [] (fun _ th => .go (branch s t th (imm21 f).toInt))

/-- JAL (08, Table 8.3). -/
def execJal (t : ThreadRef) (f : Fields) (s : State) : Result :=
  issue s t 0x18 f true [rS f.d] (fun _ th =>
    .go (branch s t (setSreg th f.d.toNat (BitVec.ofNat 64 ((th.pc + 1) % 2 ^ 24))) (imm21 f).toInt))

/-- JR (08, Table 8.3): PC takes the low 24 bits (log entry 17). -/
def execJr (t : ThreadRef) (f : Fields) (s : State) : Result :=
  issue s t 0x19 f (f.d == 0 && f.b == 0 && f.fn == 0) [rS f.a] (fun _ th =>
    .go (setThread s t.engine t.thread { th with pc := (sreg th f.a.toNat).toNat % 2 ^ 24 }))

/-- END (08, R209): the thread stops issue. -/
def execEnd (t : ThreadRef) (f : Fields) (s : State) : Result :=
  issue s t 0x1A f (f.d == 0 && f.a == 0 && f.b == 0 && f.fn == 0) [] (fun _ th =>
    .go (setThread s t.engine t.thread { th with pc := (th.pc + 1) % 2 ^ 24, phase := .ending }))

/-- TRAP (08, R209): the thread stops issue and will fail with its code. -/
def execTrap (t : ThreadRef) (f : Fields) (s : State) : Result :=
  issue s t 0x1B f (f.d == 0 && f.a == 0 && f.b == 0 && decide (f.fn.toNat < 256)) [] (fun _ th =>
    .go (failThread (retire s t th) t.engine t.thread { status := Sts.threadTrap, detail := f.fn.toNat }))

/-- FENCE (07, R184): it waits until every earlier access is performed. -/
def execFence (t : ThreadRef) (f : Fields) (s : State) : Result :=
  issue s t 0x1C f (f.d == 0 && f.a == 0 && f.b == 0 && f.fn == 0) [] (fun _ th =>
    if (threadTiles s t.engine t.thread).isEmpty then .go (retire s t th) else .wait)

/-- NOP (08, Table 8.3). -/
def execNop (t : ThreadRef) (f : Fields) (s : State) : Result :=
  regOp s t 0x1D f (f.d == 0 && f.a == 0 && f.b == 0 && f.fn == 0) [] (fun _ th => th)

end Sys2Proof.Machine
end

