-- ==== Sys2Proof/Machine/Vector.lean ====
section
/-! DEFINITION. Vector, dot and accumulator instructions (08, R216 to R228). -/

namespace Sys2Proof.Machine

/-- FN [10:7] format, FN [6:4] predicate, FN [3:0] operation. -/
def vFmt (f : Fields) : Nat := f.fn.toNat / 128
def vPred (f : Fields) : Nat := f.fn.toNat / 16 % 8
def vOp (f : Fields) : Nat := f.fn.toNat % 16

/-- A format, or one of no elements where the code is reserved. -/
def fmtD (code : Nat) : Fmt := (fmtOf code).getD { width := 8 }

/-- Predicate bit that governs element i (08, R216). -/
def governs (f : Fmt) (p : Word) (i : Nat) : Bool := p.getLsbD (if f.width = 4 then i / 2 else i)

/-- Formats of 8 bits or more (08, R216). -/
def wideFmt (code : Nat) : Bool := [0, 1, 6, 7, 8, 9].contains code
/-- Formats of VOP and VCMP (08, R216). -/
def arithFmt (code : Nat) : Bool := [6, 7, 8, 9].contains code

/-- One element of VOP (08, R216, R217). -/
def vopElem (code op a b : Nat) : Nat :=
  let f := fmtD code
  (if f.int then intOp op f.width a b else floatOp f op a b).getD 0

/-- VOP (08, R216, R217). -/
def execVop (t : ThreadRef) (f : Fields) (s : State) : Result :=
  let c := vFmt f
  let op := vOp f
  let m := fmtD c
  regOp s t 0x30 f (isV f.d && isV f.a && isV f.b && arithFmt c && decide (op ≤ 9) && (!(op ≥ 5 && op ≤ 7) || m.int) && (decide (op < 8) || f.b == 0))
    [rV f.d, rV f.a, rV f.b] (fun _ th =>
      let x := vreg th f.a.toNat
      let y := vreg th f.b.toNat
      let p := pred th (vPred f)
      setVreg th f.d.toNat (mapElems (vreg th f.d.toNat) m.width (elemCount m) (governs m p) (fun i => vopElem c op (elem x m.width i) (elem y m.width i))))

/-- VCMP (08, R216, R217). -/
def execVcmp (t : ThreadRef) (f : Fields) (s : State) : Result :=
  let c := vFmt f
  let m := fmtD c
  regOp s t 0x31 f (isP f.d && isV f.a && isV f.b && arithFmt c && decide (vOp f ≤ 5)) [rV f.a, rV f.b] (fun _ th =>
    let x := vreg th f.a.toNat
    let y := vreg th f.b.toNat
    let p := pred th (vPred f)
    let r := (List.range (min 64 (elemCount m))).foldl (fun n i =>
      if governs m p i && compareOp (vOp f) ((decodeElem m (elem x m.width i)).cmp (decodeElem m (elem y m.width i))) then n + 2 ^ i else n) 0
    setPred th f.d.toNat (BitVec.ofNat 64 r))

/-- VSEL (08, R216). -/
def execVsel (t : ThreadRef) (f : Fields) (s : State) : Result :=
  let m := fmtD (vFmt f)
  regOp s t 0x32 f (isV f.d && isV f.a && isV f.b && wideFmt (vFmt f) && vOp f == 0) [rV f.d, rV f.a, rV f.b] (fun _ th =>
    let x := vreg th f.a.toNat
    let y := vreg th f.b.toNat
    let p := pred th (vPred f)
    setVreg th f.d.toNat (mapElems (vreg th f.d.toNat) m.width (elemCount m) (fun _ => true) (fun i => elem (if governs m p i then x else y) m.width i)))

/-- VBCAST (08, R216): bits beyond the elements keep their values (log entry 17). -/
def execVbcast (t : ThreadRef) (f : Fields) (s : State) : Result :=
  let m := fmtD (vFmt f)
  regOp s t 0x33 f (isV f.d && f.b == 0 && decide (vFmt f < 10) && f.fn.toNat % 128 == 0) [rV f.d, rS f.a] (fun _ th =>
    setVreg th f.d.toNat (mapElems (vreg th f.d.toNat) m.width (elemCount m) (fun _ => true) (fun _ => (sreg th f.a.toNat).toNat)))

/-- VMOVS (08, R216): extract to a scalar, or insert from one. -/
def execVmovs (t : ThreadRef) (f : Fields) (s : State) : Result :=
  let m := fmtD (vFmt f)
  let i := f.fn.toNat % 64
  let ok := wideFmt (vFmt f) && f.b == 0 && decide (i < elemCount m)
  if f.fn.getLsbD 6 then
    regOp s t 0x34 f (ok && isV f.d) [rV f.d, rS f.a] (fun _ th =>
      setVreg th f.d.toNat (setElem (vreg th f.d.toNat) m.width i (sreg th f.a.toNat).toNat))
  else
    regOp s t 0x34 f (ok && isV f.a) [rS f.d, rV f.a] (fun _ th =>
      setSreg th f.d.toNat (extend (m.width / 8) m.int (elem (vreg th f.a.toNat) m.width i)))

/-- VSFU (08, R218): how far each result lies within the bound is open (log entry 8). -/
def execVsfu (t : ThreadRef) (f : Fields) (s : State) : Result :=
  let op := f.fn.toNat
  issue s t 0x35 f (isV f.d && isV f.a && f.b == 0 && decide (op < 5)) [rV f.d, rV f.a] (fun _ th =>
    let x := vreg th f.a.toNat
    .go (retire (useFreeN s 16) t (setVreg th f.d.toNat ((List.range 16).foldl (fun v i => setElem v 32 i (sfu op (BitVec.ofNat 32 (elem x 32 i)) (freeNo s + i))) (vreg th f.d.toNat)))))

/-- Part, SAT and RTZ of a B field (08, R220, R227). -/
def bPart (f : Fields) : Nat := f.b.toNat / 4
def bSat (f : Fields) : Bool := f.b.getLsbD 1
def bRtz (f : Fields) : Bool := f.b.getLsbD 0

/-- VCVT (08, R220). -/
def execVcvt (t : ThreadRef) (f : Fields) (s : State) : Result :=
  let src := f.fn.toNat / 128
  let dst := f.fn.toNat / 8 % 16
  let part := f.fn.toNat % 8
  let a := fmtD src
  let m := fmtD dst
  regOp s t 0x36 f (isV f.d && isV f.a && decide (src < 10) && decide (dst < 10) && decide (bPart f < partCount a) && decide (part < partCount m))
    [rV f.d, rV f.a] (fun _ th =>
      let x := vreg th f.a.toNat
      setVreg th f.d.toNat ((List.range 16).foldl (fun v i =>
        setElem v m.width (16 * part + i) (encodeElem m (decodeElem a (elem x a.width (16 * bPart f + i))) (bRtz f) (bSat f))) (vreg th f.d.toNat)))

/-- Scale register, block and code of VMXQ and VMXD (08, R222). -/
def mxScaleReg (f : Fields) : Nat := f.fn.toNat / 64
def mxBlock (f : Fields) : Nat := f.fn.toNat / 16 % 4
def mxCode (f : Fields) : Nat := f.fn.toNat % 8

/-- Replace byte j of a scalar. -/
def setByte (x : Word) (j b : Nat) : Word := (x &&& ~~~(0xFF#64 <<< (8 * j))) ||| (BitVec.ofNat 64 (b % 256) <<< (8 * j))

/-- VMXQ (08, R222). -/
def execVmxq (t : ThreadRef) (f : Fields) (s : State) : Result :=
  let c := mxCode f
  let j := mxBlock f
  let sr := mxScaleReg f
  let m := match mxFormat c with | some x => fmtD x.1 | none => fmtD 0
  let emax := match mxFormat c with | some x => x.2 | none => 0
  regOp s t 0x37 f (isV f.d && isV f.a && isV f.b && decide (c < 5) && decide (j < mxBlocks c) && !f.fn.getLsbD 3) [rV f.d, rV f.a, rV f.b, sr] (fun _ th =>
    let el := fun (v : VReg) => (List.range 16).map (fun i => decodeElem fp32 (elem v 32 i))
    let q := mxQuantize m emax (el (vreg th f.a.toNat) ++ el (vreg th f.b.toNat))
    let v := (List.range 32).foldl (fun v i => setElem v m.width (32 * j + i) (q.1.getD i 0)) (vreg th f.d.toNat)
    setSreg (setVreg th f.d.toNat v) sr (setByte (sreg th sr) j q.2))

/-- VMXD (08, R222). -/
def execVmxd (t : ThreadRef) (f : Fields) (s : State) : Result :=
  let c := mxCode f
  let j := mxBlock f
  let sr := mxScaleReg f
  let h := b2n (f.fn.getLsbD 3)
  let m := match mxFormat c with | some x => fmtD x.1 | none => fmtD 0
  regOp s t 0x38 f (isV f.d && isV f.a && f.b == 0 && decide (c < 5) && decide (j < mxBlocks c)) [rV f.d, rV f.a, sr] (fun _ th =>
    let x := vreg th f.a.toNat
    let scale := bits (sreg th sr).toNat (8 * j + 7) (8 * j)
    setVreg th f.d.toNat ((List.range 16).foldl (fun v i => setElem v 32 i (mxExpand m (elem x m.width (32 * j + 16 * h + i)) scale)) (vreg th f.d.toNat)))

/-! ### The dot unit (08, Table 8.14, R225) -/

/-- VDOT, or VDOTB with the segment FN [3:0]. -/
def dotInstr (s : State) (t : ThreadRef) (op : Nat) (f : Fields) (broadcast : Bool) : Result :=
  let sr := f.d.toNat / 4
  let ad := f.d.toNat % 4
  let d := (dotFmt (vFmt f)).getD { k := 1, x := 8, y := 8 }
  regOp s t op f (isV f.a && isV f.b && (dotFmt (vFmt f)).isSome && (d.mx || sr == 0) && (broadcast || vOp f == 0))
    (rV f.a :: rV f.b :: (if d.mx then [24 + sr] else [])) (fun _ th =>
      let x := vreg th f.a.toNat
      let y := vreg th f.b.toNat
      let old := acc th ad
      setAcc th ad (mapLanes old (pred th (vPred f)) (fun l => dotLane d x y (sreg th (24 + sr)) (lane old l) l (if broadcast then some (vOp f) else none))))

/-- VDOT (08, R225). -/
def execVdot (t : ThreadRef) (f : Fields) (s : State) : Result := dotInstr s t 0x39 f false
/-- VDOTB (08, R225). -/
def execVdotb (t : ThreadRef) (f : Fields) (s : State) : Result := dotInstr s t 0x3A f true

/-! ### Accumulators (08, R226 to R228) -/

/-- Fields of AOP that an operation gives no use must be zero (08, R206, R226): ACLR reads neither va nor ab; 1 to 3 read va; 4 to 8 read ab.
DESIGN CHOICE, log entry 27: AMAXV, for which the table names no format, takes the two of AADDV. -/
def aopLegal (f : Fields) : Bool :=
  let op := vOp f
  isA f.d && f.b == 0 && decide (op ≤ 8) &&
  (if op = 0 then f.a == 0 && vFmt f == 0
   else if op ≤ 3 then isV f.a && (vFmt f == 8 || (vFmt f == 9 && op != 2))
   else isA f.a && vFmt f == 0)

/-- AOP (08, R226, Table 8.15). -/
def execAop (t : ThreadRef) (f : Fields) (s : State) : Result :=
  let op := vOp f
  regOp s t 0x3B f (aopLegal f) (if 1 ≤ op ∧ op ≤ 3 then [rV f.a] else []) (fun _ th =>
    setAcc th f.d.toNat ((accOp op (acc th f.d.toNat) (acc th (f.a.toNat % 4)) (vreg th f.a.toNat) (vFmt f) (pred th (vPred f))).getD (acc th f.d.toNat)))

/-- AREAD (08, R227). -/
def execAread (t : ThreadRef) (f : Fields) (s : State) : Result :=
  let c := vFmt f
  let m := fmtD c
  let k : Int := (f.fn.extractLsb' 0 5).toInt
  regOp s t 0x3C f (isV f.d && isA f.a && [0, 1, 6, 7, 8, 9].contains c && f.fn.toNat / 32 % 4 == 0 && decide (bPart f < partCount m)) [rV f.d] (fun _ th =>
    let x := acc th f.a.toNat
    setVreg th f.d.toNat ((List.range 16).foldl (fun v l => setElem v m.width (16 * bPart f + l) (readLane m (lane x l) k (bRtz f) (bSat f))) (vreg th f.d.toNat)))

/-- AMOVS (08, R228): AGET, or APUT where FN [4] is set. -/
def execAmovs (t : ThreadRef) (f : Fields) (s : State) : Result :=
  let l := f.fn.toNat % 16
  if f.fn.getLsbD 4 then
    regOp s t 0x3D f (isA f.d && f.b == 0 && decide (f.fn.toNat < 32)) [rS f.a] (fun _ th =>
      setAcc th f.d.toNat (laneSet (acc th f.d.toNat) l (sreg th f.a.toNat)))
  else
    regOp s t 0x3D f (isA f.a && f.b == 0 && decide (f.fn.toNat < 32)) [rS f.d] (fun _ th =>
      setSreg th f.d.toNat (lane (acc th f.a.toNat) l))

end Sys2Proof.Machine
end

