-- ==== Sys2Proof/Machine/Dispatch.lean ====
section
/-! DEFINITION. One arm per command: the meaning it calls. -/

namespace Sys2Proof.Machine

/-- The effect of a command on everything but the queue. -/
def exec (i : Instr) (s : State) : Host.Outcome State Fault Refusal :=
  match i with
  | .read via p => Sys2Proof.Machine.execRead via p s
  | .write via p => Sys2Proof.Machine.execWrite via p s
  | .readNoalloc via p => Sys2Proof.Machine.execReadNoalloc via p s
  | .writeNoalloc via p => Sys2Proof.Machine.execWriteNoalloc via p s
  | .readShared via p => Sys2Proof.Machine.execReadShared via p s
  | .readOwn via p => Sys2Proof.Machine.execReadOwn via p s
  | .upgrade via p => Sys2Proof.Machine.execUpgrade via p s
  | .zeroLine via p => Sys2Proof.Machine.execZeroLine via p s
  | .atomicAdd via p => Sys2Proof.Machine.execAtomicAdd via p s
  | .atomicSwap via p => Sys2Proof.Machine.execAtomicSwap via p s
  | .atomicCas via p => Sys2Proof.Machine.execAtomicCas via p s
  | .atomicAnd via p => Sys2Proof.Machine.execAtomicAnd via p s
  | .atomicOr via p => Sys2Proof.Machine.execAtomicOr via p s
  | .atomicXor via p => Sys2Proof.Machine.execAtomicXor via p s
  | .atomicSmax via p => Sys2Proof.Machine.execAtomicSmax via p s
  | .atomicSmin via p => Sys2Proof.Machine.execAtomicSmin via p s
  | .writeback via p => Sys2Proof.Machine.execWriteback via p s
  | .evictClean via p => Sys2Proof.Machine.execEvictClean via p s
  | .sprayLaunch via p => Sys2Proof.Machine.execSprayLaunch via p s
  | .poolOpLaunch via p => Sys2Proof.Machine.execPoolOpLaunch via p s
  | .snoopResp via p => Sys2Proof.Machine.execSnoopResp via p s
  | .snoopRespData via p => Sys2Proof.Machine.execSnoopRespData via p s
  | .resp via p => Sys2Proof.Machine.execResp via p s
  | .respData via p => Sys2Proof.Machine.execRespData via p s
  | .completion via p => Sys2Proof.Machine.execCompletion via p s
  | .order via p => Sys2Proof.Machine.execOrder via p s
  | .statusRead p => Sys2Proof.Machine.execStatusRead p s
  | .wfqGrant region => Sys2Proof.Machine.execWfqGrant region s
  | .homeAgentInput region => Sys2Proof.Machine.execHomeAgentInput region s
  | .transactionComplete line => Sys2Proof.Machine.execTransactionComplete line s
  | .snoopTimeout line slot => Sys2Proof.Machine.execSnoopTimeout line slot s
  | .failureWalkStep slot => Sys2Proof.Machine.execFailureWalkStep slot s
  | .failureWalkDone slot => Sys2Proof.Machine.execFailureWalkDone slot s
  | .releaseSweepStep slot => Sys2Proof.Machine.execReleaseSweepStep slot s
  | .releaseSweepDone slot => Sys2Proof.Machine.execReleaseSweepDone slot s
  | .refillTick => Sys2Proof.Machine.execRefillTick s
  | .commitTick => Sys2Proof.Machine.execCommitTick s
  | .revokeDrainDone ext => Sys2Proof.Machine.execRevokeDrainDone ext s
  | .revokeRecallDone ext => Sys2Proof.Machine.execRevokeRecallDone ext s
  | .extentScrubDone ext => Sys2Proof.Machine.execExtentScrubDone ext s
  | .extentZeroingStep ext => Sys2Proof.Machine.execExtentZeroingStep ext s
  | .channelIssue stack chan pc => Sys2Proof.Machine.execChannelIssue stack chan pc s
  | .refreshDue stack chan pc bank => Sys2Proof.Machine.execRefreshDue stack chan pc bank s
  | .stackTempRead stack reading => Sys2Proof.Machine.execStackTempRead stack reading s
  | .retrainDue stack chan => Sys2Proof.Machine.execRetrainDue stack chan s
  | .retrainPauseDone stack chan inMargin => Sys2Proof.Machine.execRetrainPauseDone stack chan inMargin s
  | .retrainRerunDue stack chan => Sys2Proof.Machine.execRetrainRerunDue stack chan s
  | .channelFullTrainDone stack chan passed => Sys2Proof.Machine.execChannelFullTrainDone stack chan passed s
  | .parityAlert stack chan pc => Sys2Proof.Machine.execParityAlert stack chan pc s
  | .parityReplayDone stack chan pc => Sys2Proof.Machine.execParityReplayDone stack chan pc s
  | .selfRefreshEntry stack chan => Sys2Proof.Machine.execSelfRefreshEntry stack chan s
  | .selfRefreshExit stack chan => Sys2Proof.Machine.execSelfRefreshExit stack chan s
  | .rateChangeStart stack => Sys2Proof.Machine.execRateChangeStart stack s
  | .rateChangeDone stack => Sys2Proof.Machine.execRateChangeDone stack s
  | .correctiveRewrite lstack stripe pos errorAgain => Sys2Proof.Machine.execCorrectiveRewrite lstack stripe pos errorAgain s
  | .stripeEntryHoldExpiry lstack stripe => Sys2Proof.Machine.execStripeEntryHoldExpiry lstack stripe s
  | .stripeCommit lstack stripe => Sys2Proof.Machine.execStripeCommit lstack stripe s
  | .stripeLockGrant lstack stripe => Sys2Proof.Machine.execStripeLockGrant lstack stripe s
  | .rowRepair stack chan place => Sys2Proof.Machine.execRowRepair stack chan place s
  | .scrubStripe stack => Sys2Proof.Machine.execScrubStripe stack s
  | .scrubPeriodEnd stack => Sys2Proof.Machine.execScrubPeriodEnd stack s
  | .channelRejoinStep stack chan => Sys2Proof.Machine.execChannelRejoinStep stack chan s
  | .channelRejoined stack chan => Sys2Proof.Machine.execChannelRejoined stack chan s
  | .evacuationStart region => Sys2Proof.Machine.execEvacuationStart region s
  | .spareTrained region => Sys2Proof.Machine.execSpareTrained region s
  | .evacuationCopyStripe region => Sys2Proof.Machine.execEvacuationCopyStripe region s
  | .evacuationCutover region => Sys2Proof.Machine.execEvacuationCutover region s
  | .evacuationAbandon region => Sys2Proof.Machine.execEvacuationAbandon region s
  | .threadPlacement spray index => Sys2Proof.Machine.execThreadPlacement spray index s
  | .threadStart engine => Sys2Proof.Machine.execThreadStart engine s
  | .threadEnd t => Sys2Proof.Machine.execThreadEnd t s
  | .watchdogExpiry t => Sys2Proof.Machine.execWatchdogExpiry t s
  | .sprayComplete spray => Sys2Proof.Machine.execSprayComplete spray s
  | .engineLocalAccess access => Sys2Proof.Machine.execEngineLocalAccess access s
  | .engineQueueRoom region => Sys2Proof.Machine.execEngineQueueRoom region s
  | .remoteAccessSend access => Sys2Proof.Machine.execRemoteAccessSend access s
  | .remoteRetryBackoff access => Sys2Proof.Machine.execRemoteRetryBackoff access s
  | .remoteTimeout access => Sys2Proof.Machine.execRemoteTimeout access s
  | .faultBatchClose region => Sys2Proof.Machine.execFaultBatchClose region s
  | .faultBatchWrite region => Sys2Proof.Machine.execFaultBatchWrite region s
  | .faultTimeout tile => Sys2Proof.Machine.execFaultTimeout tile s
  | .invalidateAck engine => Sys2Proof.Machine.execInvalidateAck engine s
  | .plannedMoveStart engine => Sys2Proof.Machine.execPlannedMoveStart engine s
  | .plannedMoveDone engine => Sys2Proof.Machine.execPlannedMoveDone engine s
  | .plannedMoveAbandon engine => Sys2Proof.Machine.execPlannedMoveAbandon engine s
  | .engineAbruptFail region index => Sys2Proof.Machine.execEngineAbruptFail region index s
  | .poolItemUnitCommit t => Sys2Proof.Machine.execPoolItemUnitCommit t s
  | .fill t => Sys2Proof.Machine.execFill t s
  | .zero t => Sys2Proof.Machine.execZero t s
  | .copy t => Sys2Proof.Machine.execCopy t s
  | .compare t => Sys2Proof.Machine.execCompare t s
  | .reduce t => Sys2Proof.Machine.execReduce t s
  | .gather t => Sys2Proof.Machine.execGather t s
  | .scatter t => Sys2Proof.Machine.execScatter t s
  | .search t => Sys2Proof.Machine.execSearch t s
  | .attend t => Sys2Proof.Machine.execAttend t s
  | .digest t => Sys2Proof.Machine.execDigest t s
  | .alu t f => Sys2Proof.Machine.execAlu t f s
  | .addi t f => Sys2Proof.Machine.execAddi t f s
  | .andi t f => Sys2Proof.Machine.execAndi t f s
  | .ori t f => Sys2Proof.Machine.execOri t f s
  | .xori t f => Sys2Proof.Machine.execXori t f s
  | .shli t f => Sys2Proof.Machine.execShli t f s
  | .shri t f => Sys2Proof.Machine.execShri t f s
  | .srai t f => Sys2Proof.Machine.execSrai t f s
  | .slti t f => Sys2Proof.Machine.execSlti t f s
  | .li t f => Sys2Proof.Machine.execLi t f s
  | .lis t f => Sys2Proof.Machine.execLis t f s
  | .pop t f => Sys2Proof.Machine.execPop t f s
  | .rds t f => Sys2Proof.Machine.execRds t f s
  | .beq t f => Sys2Proof.Machine.execBeq t f s
  | .bne t f => Sys2Proof.Machine.execBne t f s
  | .blt t f => Sys2Proof.Machine.execBlt t f s
  | .bge t f => Sys2Proof.Machine.execBge t f s
  | .bltu t f => Sys2Proof.Machine.execBltu t f s
  | .bgeu t f => Sys2Proof.Machine.execBgeu t f s
  | .bp t f => Sys2Proof.Machine.execBp t f s
  | .jmp t f => Sys2Proof.Machine.execJmp t f s
  | .jal t f => Sys2Proof.Machine.execJal t f s
  | .jr t f => Sys2Proof.Machine.execJr t f s
  | .endInstr t f => Sys2Proof.Machine.execEnd t f s
  | .trap t f => Sys2Proof.Machine.execTrap t f s
  | .fence t f => Sys2Proof.Machine.execFence t f s
  | .nop t f => Sys2Proof.Machine.execNop t f s
  | .ld t f => Sys2Proof.Machine.execLd t f s
  | .st t f => Sys2Proof.Machine.execSt t f s
  | .vld t f => Sys2Proof.Machine.execVld t f s
  | .vst t f => Sys2Proof.Machine.execVst t f s
  | .vldg t f => Sys2Proof.Machine.execVldg t f s
  | .vstg t f => Sys2Proof.Machine.execVstg t f s
  | .atom t f => Sys2Proof.Machine.execAtom t f s
  | .tload t f => Sys2Proof.Machine.execTload t f s
  | .tstore t f => Sys2Proof.Machine.execTstore t f s
  | .twait t f => Sys2Proof.Machine.execTwait t f s
  | .tilePerformed tile => Sys2Proof.Machine.execTilePerformed tile s
  | .vop t f => Sys2Proof.Machine.execVop t f s
  | .vcmp t f => Sys2Proof.Machine.execVcmp t f s
  | .vsel t f => Sys2Proof.Machine.execVsel t f s
  | .vbcast t f => Sys2Proof.Machine.execVbcast t f s
  | .vmovs t f => Sys2Proof.Machine.execVmovs t f s
  | .vsfu t f => Sys2Proof.Machine.execVsfu t f s
  | .vcvt t f => Sys2Proof.Machine.execVcvt t f s
  | .vmxq t f => Sys2Proof.Machine.execVmxq t f s
  | .vmxd t f => Sys2Proof.Machine.execVmxd t f s
  | .vdot t f => Sys2Proof.Machine.execVdot t f s
  | .vdotb t f => Sys2Proof.Machine.execVdotb t f s
  | .aop t f => Sys2Proof.Machine.execAop t f s
  | .aread t f => Sys2Proof.Machine.execAread t f s
  | .amovs t f => Sys2Proof.Machine.execAmovs t f s
  | .ownerClaim h priority => Sys2Proof.Machine.execOwnerClaim h priority s
  | .ownerRenew h => Sys2Proof.Machine.execOwnerRenew h s
  | .ownerHandover h master => Sys2Proof.Machine.execOwnerHandover h master s
  | .ownerAccept h => Sys2Proof.Machine.execOwnerAccept h s
  | .ownerRelease h => Sys2Proof.Machine.execOwnerRelease h s
  | .electionWindowClose => Sys2Proof.Machine.execElectionWindowClose s
  | .leaseExpiry => Sys2Proof.Machine.execLeaseExpiry s
  | .handoverExpiry => Sys2Proof.Machine.execHandoverExpiry s
  | .statusWindowRead h offset length => Sys2Proof.Machine.execStatusWindowRead h offset length s
  | .mgmtKeyAgree h key => Sys2Proof.Machine.execMgmtKeyAgree h key s
  | .grant h ext base size kind target physBase tenant measured access => Sys2Proof.Machine.execGrant h ext base size kind target physBase tenant measured access s
  | .accessSet h ext generation access measured => Sys2Proof.Machine.execAccessSet h ext generation access measured s
  | .revoke h ext generation => Sys2Proof.Machine.execRevoke h ext generation s
  | .extentRead h ext => Sys2Proof.Machine.execExtentRead h ext s
  | .extentFind h offset => Sys2Proof.Machine.execExtentFind h offset s
  | .violationRead h => Sys2Proof.Machine.execViolationRead h s
  | .hostShape h host weight pbs cbs pir cir => Sys2Proof.Machine.execHostShape h host weight pbs cbs pir cir s
  | .hostShapeRead h host region => Sys2Proof.Machine.execHostShapeRead h host region s
  | .tenantCreate h tenant wrapped => Sys2Proof.Machine.execTenantCreate h tenant wrapped s
  | .tenantRemove h tenant => Sys2Proof.Machine.execTenantRemove h tenant s
  | .rotateKey h tenant wrapped => Sys2Proof.Machine.execRotateKey h tenant wrapped s
  | .retireKey h tenant epoch force => Sys2Proof.Machine.execRetireKey h tenant epoch force s
  | .attestReport h nonce => Sys2Proof.Machine.execAttestReport h nonce s
  | .fwWrite h image offset length => Sys2Proof.Machine.execFwWrite h image offset length s
  | .fwActivate h image => Sys2Proof.Machine.execFwActivate h image s
  | .slotGrant h slot host => Sys2Proof.Machine.execSlotGrant h slot host s
  | .slotRelease h slot roleGen => Sys2Proof.Machine.execSlotRelease h slot roleGen s
  | .slotRead h slot => Sys2Proof.Machine.execSlotRead h slot s
  | .hostFailed h host => Sys2Proof.Machine.execHostFailed h host s
  | .lostRead h => Sys2Proof.Machine.execLostRead h s
  | .dirRead h offset => Sys2Proof.Machine.execDirRead h offset s
  | .stackRead h region position => Sys2Proof.Machine.execStackRead h region position s
  | .stackRateLimit h region position limit => Sys2Proof.Machine.execStackRateLimit h region position limit s
  | .memIdlePolicy h ms => Sys2Proof.Machine.execMemIdlePolicy h ms s
  | .integrityRead h region position => Sys2Proof.Machine.execIntegrityRead h region position s
  | .blotterRead h region first => Sys2Proof.Machine.execBlotterRead h region first s
  | .blotterClear h region => Sys2Proof.Machine.execBlotterClear h region s
  | .poisonRead h => Sys2Proof.Machine.execPoisonRead h s
  | .scrubPolicy h minutes => Sys2Proof.Machine.execScrubPolicy h minutes s
  | .evacuate h region position => Sys2Proof.Machine.execEvacuate h region position s
  | .accordLoad h offset length tenant => Sys2Proof.Machine.execAccordLoad h offset length tenant s
  | .accordUnload h accord => Sys2Proof.Machine.execAccordUnload h accord s
  | .asidCreate h asid tenant => Sys2Proof.Machine.execAsidCreate h asid tenant s
  | .asidDestroy h asid => Sys2Proof.Machine.execAsidDestroy h asid s
  | .mapRange h asid pva ppa pageSize count rights => Sys2Proof.Machine.execMapRange h asid pva ppa pageSize count rights s
  | .unmapRange h asid pva size => Sys2Proof.Machine.execUnmapRange h asid pva size s
  | .protectRange h asid pva size rights => Sys2Proof.Machine.execProtectRange h asid pva size rights s
  | .invalidateRange h asid pva size => Sys2Proof.Machine.execInvalidateRange h asid pva size s
  | .mapRead h asid pva => Sys2Proof.Machine.execMapRead h asid pva s
  | .faultRingSet h ppa slots => Sys2Proof.Machine.execFaultRingSet h ppa slots s
  | .faultResolve h batch verdict => Sys2Proof.Machine.execFaultResolve h batch verdict s
  | .faultPolicy h ms => Sys2Proof.Machine.execFaultPolicy h ms s
  | .sprayRead h spray => Sys2Proof.Machine.execSprayRead h spray s
  | .sprayCancel h spray => Sys2Proof.Machine.execSprayCancel h spray s
  | .engineTagRelease h host => Sys2Proof.Machine.execEngineTagRelease h host s
  | .portRead h plane port => Sys2Proof.Machine.execPortRead h plane port s
  | .portSelect h pair plane => Sys2Proof.Machine.execPortSelect h pair plane s
  | .portRetrain h plane port => Sys2Proof.Machine.execPortRetrain h plane port s
  | .faultRead h selector => Sys2Proof.Machine.execFaultRead h selector s
  | .faultAck h selector cls => Sys2Proof.Machine.execFaultAck h selector cls s
  | .faultReadWaitExpiry master => Sys2Proof.Machine.execFaultReadWaitExpiry master s
  | .clockSet h calendar => Sys2Proof.Machine.execClockSet h calendar s
  | .lifetimeRead h group => Sys2Proof.Machine.execLifetimeRead h group s
  | .bistRead h region => Sys2Proof.Machine.execBistRead h region s
  | .powerLimit h watts => Sys2Proof.Machine.execPowerLimit h watts s
  | .moduleReset h => Sys2Proof.Machine.execModuleReset h s
  | .flitReceive port raw fecOk => Sys2Proof.Machine.execFlitReceive port raw fecOk s
  | .replayTimerExpiry port => Sys2Proof.Machine.execReplayTimerExpiry port s
  | .nakRepeatTimer port => Sys2Proof.Machine.execNakRepeatTimer port s
  | .linkHello port r => Sys2Proof.Machine.execLinkHello port r s
  | .linkAssign port r => Sys2Proof.Machine.execLinkAssign port r s
  | .linkReady port gen => Sys2Proof.Machine.execLinkReady port gen s
  | .recoverQuery port r => Sys2Proof.Machine.execRecoverQuery port r s
  | .recoverReply port r => Sys2Proof.Machine.execRecoverReply port r s
  | .staleRole port gen found => Sys2Proof.Machine.execStaleRole port gen found s
  | .resetRequest port gen reason answer => Sys2Proof.Machine.execResetRequest port gen reason answer s
  | .ctrlRepeatTimer port => Sys2Proof.Machine.execCtrlRepeatTimer port s
  | .orphanResolveTimeout pair => Sys2Proof.Machine.execOrphanResolveTimeout pair s
  | .portTrainingDone port good => Sys2Proof.Machine.execPortTrainingDone port good s
  | .portBringupDone port ok => Sys2Proof.Machine.execPortBringupDone port ok s
  | .plannedChangeDrain pair => Sys2Proof.Machine.execPlannedChangeDrain pair s
  | .portResyncDone port => Sys2Proof.Machine.execPortResyncDone port s
  | .savedStateExpiry port => Sys2Proof.Machine.execSavedStateExpiry port s
  | .laneDegrade port lane lockLost => Sys2Proof.Machine.execLaneDegrade port lane lockLost s
  | .dlFlitReceive raw => Sys2Proof.Machine.execDlFlitReceive raw s
  | .dlReplayTimerExpiry => Sys2Proof.Machine.execDlReplayTimerExpiry s
  | .dlRecoveryRetrain => Sys2Proof.Machine.execDlRecoveryRetrain s
  | .dlCreditInit r => Sys2Proof.Machine.execDlCreditInit r s
  | .dlWidth r => Sys2Proof.Machine.execDlWidth r s
  | .dlWidthRetryTimer => Sys2Proof.Machine.execDlWidthRetryTimer s
  | .dlFullTrainingDone good => Sys2Proof.Machine.execDlFullTrainingDone good s
  | .darinlinkDown => Sys2Proof.Machine.execDarinlinkDown s
  | .dlTrainRetryTimer => Sys2Proof.Machine.execDlTrainRetryTimer s
  | .errorLine hub region unit cause detail => Sys2Proof.Machine.execErrorLine hub region unit cause detail s
  | .replacementDone hub region unit => Sys2Proof.Machine.execReplacementDone hub region unit s
  | .mgmtPairTakeover => Sys2Proof.Machine.execMgmtPairTakeover s
  | .sliceStart region unit segment => Sys2Proof.Machine.execSliceStart region unit segment s
  | .sliceEnd region result => Sys2Proof.Machine.execSliceEnd region result s
  | .sliceAbandon region cause => Sys2Proof.Machine.execSliceAbandon region cause s
  | .catchupWalkDone region => Sys2Proof.Machine.execCatchupWalkDone region s
  | .unitDue region unit segment => Sys2Proof.Machine.execUnitDue region unit segment s
  | .portExchange pair => Sys2Proof.Machine.execPortExchange pair s
  | .mgmtPairExchange => Sys2Proof.Machine.execMgmtPairExchange s
  | .spareStackTest region passed => Sys2Proof.Machine.execSpareStackTest region passed s
  | .fuseBankCheck bank ok => Sys2Proof.Machine.execFuseBankCheck bank ok s
  | .checkpoint => Sys2Proof.Machine.execCheckpoint s
  | .eventRecordWrite ok => Sys2Proof.Machine.execEventRecordWrite ok s
  | .pwrOkFall => Sys2Proof.Machine.execPwrOkFall s
  | .resetNRise => Sys2Proof.Machine.execResetNRise s
  | .resetNLow nanoseconds => Sys2Proof.Machine.execResetNLow nanoseconds s
  | .hubResetRelease scanPass => Sys2Proof.Machine.execHubResetRelease scanPass s
  | .orderServiceStart => Sys2Proof.Machine.execOrderServiceStart s
  | .readyAssert => Sys2Proof.Machine.execReadyAssert s
  | .startupTimeout => Sys2Proof.Machine.execStartupTimeout s
  | .inputMonitor millivolts milliamps => Sys2Proof.Machine.execInputMonitor millivolts milliamps s
  | .powerEvaluation average10ms average1ms => Sys2Proof.Machine.execPowerEvaluation average10ms average1ms s
  | .dieTempRead die sensors => Sys2Proof.Machine.execDieTempRead die sensors s
  | .refClockLoss => Sys2Proof.Machine.execRefClockLoss s
  | .refClockReturn => Sys2Proof.Machine.execRefClockReturn s
  | .refClockAbsentTimeout => Sys2Proof.Machine.execRefClockAbsentTimeout s
  | .convertersStop => Sys2Proof.Machine.execConvertersStop s
  | .i3cPrivateWrite bytes => Sys2Proof.Machine.execI3cPrivateWrite bytes s
  | .i3cPrivateRead count => Sys2Proof.Machine.execI3cPrivateRead count s
  | .setdasa address => Sys2Proof.Machine.execSetdasa address s
  | .entdaa address => Sys2Proof.Machine.execEntdaa address s
  | .rstdaa => Sys2Proof.Machine.execRstdaa s
  | .getpid => Sys2Proof.Machine.execGetpid s
  | .getbcr => Sys2Proof.Machine.execGetbcr s
  | .getdcr => Sys2Proof.Machine.execGetdcr s
  | .getstatus => Sys2Proof.Machine.execGetstatus s
  | .getmxds => Sys2Proof.Machine.execGetmxds s
  | .enec => Sys2Proof.Machine.execEnec s
  | .disec => Sys2Proof.Machine.execDisec s
  | .idcode => Sys2Proof.Machine.execIdcode s
  | .sample shift => Sys2Proof.Machine.execSample shift s
  | .extest shift => Sys2Proof.Machine.execExtest shift s
  | .extestPulse shift => Sys2Proof.Machine.execExtestPulse shift s
  | .extestTrain shift => Sys2Proof.Machine.execExtestTrain shift s
  | .clamp shift => Sys2Proof.Machine.execClamp s shift
  | .highz shift => Sys2Proof.Machine.execHighz s shift
  | .bootStatus => Sys2Proof.Machine.execBootStatus s
  | .bypass code shift => Sys2Proof.Machine.execBypass s code shift
  | .trstNLow => Sys2Proof.Machine.execTrstNLow s
  | .pwrOkRise => Sys2Proof.Machine.execPwrOkRise s
  | .stackTrainingDone stack passed => Sys2Proof.Machine.execStackTrainingDone stack passed s
  | .metadataWriteDone lstack => Sys2Proof.Machine.execMetadataWriteDone lstack s
  | .startupSelfTestDone region failing => Sys2Proof.Machine.execStartupSelfTestDone region failing s
  | .mgmtKeyPreviousExpiry master => Sys2Proof.Machine.execMgmtKeyPreviousExpiry master s
  | .receivePointHoldExpiry port => Sys2Proof.Machine.execReceivePointHoldExpiry port s
  | .fwWriteDone flashOk => Sys2Proof.Machine.execFwWriteDone flashOk s
  | .fwActivateDone flashOk => Sys2Proof.Machine.execFwActivateDone flashOk s

end Sys2Proof.Machine
end

