-- ==== Sys2Proof/Safety.lean ====
section
/-! DEFINITION. What every run of the block keeps, in the terms that statements use: the canonical form of its memories, and what a command never undoes. -/

namespace Sys2Proof.Machine

/-- The stacks' bytes, the engines' scratchpads and their private memory are in canonical form (log entry 5). -/
structure State.CellsWf (s : State) : Prop where
  bytes : Memory.wf s.mem.bytes
  scratch : Memory.wf s.eng.scratch
  priv : Memory.wf s.eng.priv

/-- What no command undoes: it leaves the queue and the clock, takes back nothing that has been put out, lowers no burnt fuse, and keeps memory canonical. -/
structure Kept (s t : State) : Prop where
  pending : t.pending = s.pending
  clock : t.time.clock = s.time.clock
  free : s.time.free ≤ t.time.free
  wire : s.wire <+: t.wire
  cells : s.CellsWf → t.CellsWf
  floor : s.hub.svnFloor ≤ t.hub.svnFloor
  revoked : s.hub.keyRevoked ||| t.hub.keyRevoked = t.hub.keyRevoked

/-- A command goes on: it answers a next state, and that keeps what no command undoes. -/
def Goes (s : State) (r : Result) : Prop := ∃ t, r = .next t ∧ Kept s t

/-- A thread of a spray stands at the word of an instruction and may issue it: it runs, it is not being moved, and no load is to write the registers the word names (08, R205, R230). -/
structure Ready (s : State) (t : ThreadRef) (op : Nat) (f : Fields) (regs : List Nat) (p : Spray) (th : Thread) : Prop where
  thread : threadOf? s t.engine t.thread = some th
  spray : sprayOf? s th.spray = some p
  program : p.pool = false
  issues : mayIssue s t th = true
  word : fetchWord s p th = some (wordOf op f)
  answered : ∀ r ∈ regs, r ∉ pendingRegs (threadTiles s t.engine t.thread)

/-- The state after an instruction that changes its own thread alone: the thread, and the issue pointer of its engine, which has passed it (08, R230). -/
def issued (s : State) (t : ThreadRef) (th : Thread) : State :=
  { s with eng := { s.eng with threads := tset s.eng.threads (t.engine * 64 + t.thread) th, threadPtr := tset s.eng.threadPtr t.engine ((t.thread + 1) % 64) } }

/-- The address of the next word (08, Table 8.1). -/
def nextPc (th : Thread) : Nat := (th.pc + 1) % 2 ^ 24

/-- An order of a code does not have to wait (14, R353, Table 14.2), and the checks of 11, Table 11.5, steps 1 to 9, let it pass and leave the state s1 with its number marked. -/
structure Passes (s : State) (h : OrderHdr) (code : Nat) (s1 : State) : Prop where
  runs : hubRuns s = true
  unheld : orderWaits s code = false
  checks : orderRefusal (orderTaken s h) h code (headerRefusal s h code) true = (none, s1)

/-- The requests and launches of 03, Table 3.2: opcode, the rights region ingress asks of each (READ 1, WRITE 2, COHERENT 4: 02, Table 2.7), its command. -/
def requestRows : List (Nat × Nat × (Via → Packet → Instr)) :=
  [(0x01, 1, .read), (0x02, 2, .write), (0x03, 1, .readNoalloc), (0x04, 2, .writeNoalloc), (0x05, 5, .readShared), (0x06, 7, .readOwn), (0x07, 7, .upgrade),
   (0x08, 2, .zeroLine), (0x10, 3, .atomicAdd), (0x11, 3, .atomicSwap), (0x12, 3, .atomicCas), (0x13, 3, .atomicAnd), (0x14, 3, .atomicOr), (0x15, 3, .atomicXor),
   (0x16, 3, .atomicSmax), (0x17, 3, .atomicSmin), (0x18, 4, .writeback), (0x19, 4, .evictClean), (0x20, 2, .sprayLaunch), (0x21, 2, .poolOpLaunch)]

/-- The module serves requests: the hub runs, READY_OD is asserted, work has not been ended, HALT is not latched (03, R63; 12, R325; 15, R375, R376). -/
structure Serves (s : State) : Prop where
  runs : hubRuns s = true
  ready : s.hub.ready = true
  working : s.power.halting = false
  unhalted : s.fault.halted = false

/-- Steps 6 to 10 of 02, Table 2.6, let an access of a source and tenant to an offset pass: the extent n is granted to the tenant, its ranges give the source the rights, an allocating request meets a coherent extent, and one that names a slot has one. -/
structure Allowed (s : State) (n op need offset source tenant : Nat) : Prop where
  extent : extentAt s offset = some n
  granted : (extentOf s n).st = .granted
  tenant : (extentOf s n).tenant = tenant
  rights : (rightsOf (extentOf s n).access (fun _ => true) source) &&& need = need
  coherent : isAlloc op = true → (extentOf s n).coherent = true
  slot : isAlloc op = true ∨ isVc1 op = true → (slotHeld s source (isVc1 op)).isSome = true

/-- What a request that has passed its checks is in the module: its own fields, and where it came from (03, R69, R388). -/
def passedReq (s : State) (via : Via) (p : Packet) (n source k home : Nat) (epoch : Option Nat) : Req :=
  { origin := .packet via p, op := p.opcode, offset := p.address % 2 ^ 40, length := p.length, poison := p.poison, payload := p.payload.getD 0, ext := n,
    source := source, tenant := p.tenant, epoch := epoch, roleGen := p.roleGen,
    path := if home = k then (match via with | .genura m => m / 16 * 4 + m % 4 | .darinlink => 10) else ringPath s k home,
    launch := isLaunch p.opcode, dir := (extentOf s n).coherent }

/-- The same state but for the extents' records and the regions' queues. -/
def SameButQueues (s t : State) : Prop := { t with extents := s.extents, coh := { t.coh with regions := s.coh.regions } } = s

end Sys2Proof.Machine
end

