-- ==== Sys2Proof/WellFormed.lean ====
section
/-! DEFINITION. Which commands are well formed: every operand within the width its table in spec/ gives it. -/

namespace Sys2Proof

/-- A number below a bound. -/
def natOk (bound n : Nat) : Bool := decide (n < bound)

/-- A byte string of a stated length (11, Table 11.3). -/
def bytesOk (n : Nat) (l : List Byte) : Bool := decide (l.length = n)

/-- A byte string of at most a stated length. -/
def shortOk (n : Nat) (l : List Byte) : Bool := decide (l.length ≤ n)

/-- The eight access range entries of an order (02, Table 2.8). -/
def rangesOk (l : List (BitVec 32)) : Bool := decide (l.length = 8)

/-- Every number of a list below a bound. -/
def listOk (bound : Nat) (l : List Nat) : Bool := l.all (natOk bound)

/-- A temperature reading of one byte, or a failed read (05, R129, R130). -/
def readingOk : Option Nat → Bool
  | none => true
  | some t => natOk 256 t

/-- One of the 32 module ports (10). -/
def Via.wf : Via → Bool
  | .genura port => natOk 32 port
  | .darinlink => true

/-- Field widths of Table 3.1. -/
def Packet.wf (p : Packet) : Bool :=
  natOk 256 p.opcode && natOk 2 p.keyEpoch && natOk 65536 p.tag && natOk 4096 p.source && natOk 4096 p.dest &&
  natOk 1024 p.tenant && natOk 8 p.vc && natOk 8 p.hops && natOk 256 p.roleGen && natOk 256 p.sillage &&
  natOk 256 p.status && natOk 32 p.length && natOk 65536 p.aux && natOk (2 ^ 52) p.address &&
  natOk (2 ^ 64) p.msgCounter && natOk 256 p.rsvLow && natOk 2048 p.rsvMid && natOk (2 ^ 44) p.rsvHigh

/-- Field widths of an order's identity (11, Tables 11.1 and 11.12). -/
def OrderHdr.wf (h : OrderHdr) : Bool :=
  h.via.wf && natOk 4096 h.source && natOk 4 h.master && natOk 65536 h.tag && natOk (2 ^ 32) h.seq && natOk 2 h.keyEpoch

/-- Field widths of Table 10.15. -/
def HelloRec.wf (r : HelloRec) : Bool :=
  natOk (2 ^ 64) r.serial && natOk 65536 r.port && natOk 65536 r.prevRecvPoint && natOk 256 r.prevPortGen &&
  natOk 256 r.proposedGen && natOk 4 r.nodeKind && natOk 2 r.width && natOk 2 r.plane

/-- Field widths of Table 10.7. -/
def AssignRec.wf (r : AssignRec) : Bool :=
  natOk 4096 r.managerId && natOk 4096 r.endpointId && natOk 65536 r.switchPort && natOk 256 r.portGen &&
  natOk 2 r.plane && natOk (2 ^ 48) r.switchSerial

/-- Field widths of Table 10.8. -/
def RecoverRec.wf (r : RecoverRec) : Bool :=
  natOk 65536 r.recvPoint && natOk 65536 r.failedSwitchPort && natOk 256 r.failedPortGen && natOk 256 r.queryId

/-- Field widths of Table 11.16. -/
def DlCtrlRec.wf (r : DlCtrlRec) : Bool :=
  decide (r.credits.length = 6) && listOk 65536 r.credits && natOk 256 r.width && natOk 256 r.trainCount

/-- 512 logical engines of 64 hardware threads (07, R170). -/
def ThreadRef.wf (t : ThreadRef) : Bool := natOk 512 t.engine && natOk 64 t.thread

/-- A command whose operands fit the fields they are carried in. -/
def Instr.wf : Instr → Bool
  | .read via p => via.wf && p.wf
  | .write via p => via.wf && p.wf
  | .readNoalloc via p => via.wf && p.wf
  | .writeNoalloc via p => via.wf && p.wf
  | .readShared via p => via.wf && p.wf
  | .readOwn via p => via.wf && p.wf
  | .upgrade via p => via.wf && p.wf
  | .zeroLine via p => via.wf && p.wf
  | .atomicAdd via p => via.wf && p.wf
  | .atomicSwap via p => via.wf && p.wf
  | .atomicCas via p => via.wf && p.wf
  | .atomicAnd via p => via.wf && p.wf
  | .atomicOr via p => via.wf && p.wf
  | .atomicXor via p => via.wf && p.wf
  | .atomicSmax via p => via.wf && p.wf
  | .atomicSmin via p => via.wf && p.wf
  | .writeback via p => via.wf && p.wf
  | .evictClean via p => via.wf && p.wf
  | .sprayLaunch via p => via.wf && p.wf
  | .poolOpLaunch via p => via.wf && p.wf
  | .snoopResp via p => via.wf && p.wf
  | .snoopRespData via p => via.wf && p.wf
  | .resp via p => via.wf && p.wf
  | .respData via p => via.wf && p.wf
  | .completion via p => via.wf && p.wf
  | .order via p => via.wf && p.wf
  | .statusRead p => p.wf
  | .wfqGrant region => natOk 4 region
  | .homeAgentInput region => natOk 4 region
  | .transactionComplete line => natOk 4294967296 line
  | .snoopTimeout line slot => natOk 4294967296 line && natOk 256 slot
  | .failureWalkStep slot => natOk 256 slot
  | .failureWalkDone slot => natOk 256 slot
  | .releaseSweepStep slot => natOk 256 slot
  | .releaseSweepDone slot => natOk 256 slot
  | .refillTick  => true
  | .commitTick  => true
  | .revokeDrainDone ext => natOk 65536 ext
  | .revokeRecallDone ext => natOk 65536 ext
  | .extentScrubDone ext => natOk 65536 ext
  | .extentZeroingStep ext => natOk 65536 ext
  | .channelIssue stack chan pc => natOk 20 stack && natOk 32 chan && natOk 2 pc
  | .refreshDue stack chan pc bank => natOk 20 stack && natOk 32 chan && natOk 2 pc && natOk 64 bank
  | .stackTempRead stack reading => natOk 20 stack && readingOk reading
  | .retrainDue stack chan => natOk 20 stack && natOk 32 chan
  | .retrainPauseDone stack chan _ => natOk 20 stack && natOk 32 chan
  | .retrainRerunDue stack chan => natOk 20 stack && natOk 32 chan
  | .channelFullTrainDone stack chan _ => natOk 20 stack && natOk 32 chan
  | .parityAlert stack chan pc => natOk 20 stack && natOk 32 chan && natOk 2 pc
  | .parityReplayDone stack chan pc => natOk 20 stack && natOk 32 chan && natOk 2 pc
  | .selfRefreshEntry stack chan => natOk 20 stack && natOk 32 chan
  | .selfRefreshExit stack chan => natOk 20 stack && natOk 32 chan
  | .rateChangeStart stack => natOk 20 stack
  | .rateChangeDone stack => natOk 20 stack
  | .correctiveRewrite lstack stripe pos _ => natOk 16 lstack && natOk 15790304 stripe && natOk 17 pos
  | .stripeEntryHoldExpiry lstack stripe => natOk 16 lstack && natOk 15790304 stripe
  | .stripeCommit lstack stripe => natOk 16 lstack && natOk 15790304 stripe
  | .stripeLockGrant lstack stripe => natOk 16 lstack && natOk 15790304 stripe
  | .rowRepair stack chan place => natOk 20 stack && natOk 32 chan && natOk 8388608 place
  | .scrubStripe stack => natOk 20 stack
  | .scrubPeriodEnd stack => natOk 20 stack
  | .channelRejoinStep stack chan => natOk 20 stack && natOk 32 chan
  | .channelRejoined stack chan => natOk 20 stack && natOk 32 chan
  | .evacuationStart region => natOk 4 region
  | .spareTrained region => natOk 4 region
  | .evacuationCopyStripe region => natOk 4 region
  | .evacuationCutover region => natOk 4 region
  | .evacuationAbandon region => natOk 4 region
  | .threadPlacement spray index => natOk 65536 spray && natOk 16777216 index
  | .threadStart engine => natOk 512 engine
  | .threadEnd t => t.wf
  | .watchdogExpiry t => t.wf
  | .sprayComplete spray => natOk 65536 spray
  | .engineLocalAccess _ => true
  | .engineQueueRoom region => natOk 4 region
  | .remoteAccessSend _ => true
  | .remoteRetryBackoff _ => true
  | .remoteTimeout _ => true
  | .faultBatchClose region => natOk 4 region
  | .faultBatchWrite region => natOk 4 region
  | .faultTimeout _ => true
  | .invalidateAck engine => natOk 512 engine
  | .plannedMoveStart engine => natOk 512 engine
  | .plannedMoveDone engine => natOk 512 engine
  | .plannedMoveAbandon engine => natOk 512 engine
  | .engineAbruptFail region index => natOk 4 region && natOk 144 index
  | .poolItemUnitCommit t => t.wf
  | .fill t => t.wf
  | .zero t => t.wf
  | .copy t => t.wf
  | .compare t => t.wf
  | .reduce t => t.wf
  | .gather t => t.wf
  | .scatter t => t.wf
  | .search t => t.wf
  | .attend t => t.wf
  | .digest t => t.wf
  | .alu t _ => t.wf
  | .addi t _ => t.wf
  | .andi t _ => t.wf
  | .ori t _ => t.wf
  | .xori t _ => t.wf
  | .shli t _ => t.wf
  | .shri t _ => t.wf
  | .srai t _ => t.wf
  | .slti t _ => t.wf
  | .li t _ => t.wf
  | .lis t _ => t.wf
  | .pop t _ => t.wf
  | .rds t _ => t.wf
  | .beq t _ => t.wf
  | .bne t _ => t.wf
  | .blt t _ => t.wf
  | .bge t _ => t.wf
  | .bltu t _ => t.wf
  | .bgeu t _ => t.wf
  | .bp t _ => t.wf
  | .jmp t _ => t.wf
  | .jal t _ => t.wf
  | .jr t _ => t.wf
  | .endInstr t _ => t.wf
  | .trap t _ => t.wf
  | .fence t _ => t.wf
  | .nop t _ => t.wf
  | .ld t _ => t.wf
  | .st t _ => t.wf
  | .vld t _ => t.wf
  | .vst t _ => t.wf
  | .vldg t _ => t.wf
  | .vstg t _ => t.wf
  | .atom t _ => t.wf
  | .tload t _ => t.wf
  | .tstore t _ => t.wf
  | .twait t _ => t.wf
  | .tilePerformed _ => true
  | .vop t _ => t.wf
  | .vcmp t _ => t.wf
  | .vsel t _ => t.wf
  | .vbcast t _ => t.wf
  | .vmovs t _ => t.wf
  | .vsfu t _ => t.wf
  | .vcvt t _ => t.wf
  | .vmxq t _ => t.wf
  | .vmxd t _ => t.wf
  | .vdot t _ => t.wf
  | .vdotb t _ => t.wf
  | .aop t _ => t.wf
  | .aread t _ => t.wf
  | .amovs t _ => t.wf
  | .ownerClaim h priority => h.wf && natOk 256 priority
  | .ownerRenew h => h.wf
  | .ownerHandover h master => h.wf && natOk 256 master
  | .ownerAccept h => h.wf
  | .ownerRelease h => h.wf
  | .electionWindowClose  => true
  | .leaseExpiry  => true
  | .handoverExpiry  => true
  | .statusWindowRead h offset length => h.wf && natOk 18446744073709551616 offset && natOk 4294967296 length
  | .mgmtKeyAgree h key => h.wf && bytesOk 97 key
  | .grant h ext base size kind target physBase tenant measured access => h.wf && natOk 65536 ext && natOk 4294967296 base && natOk 4294967296 size && natOk 256 kind && natOk 256 target && natOk 4294967296 physBase && natOk 65536 tenant && natOk 256 measured && rangesOk access
  | .accessSet h ext generation access measured => h.wf && natOk 65536 ext && natOk 256 generation && rangesOk access && natOk 256 measured
  | .revoke h ext generation => h.wf && natOk 65536 ext && natOk 256 generation
  | .extentRead h ext => h.wf && natOk 65536 ext
  | .extentFind h offset => h.wf && natOk 18446744073709551616 offset
  | .violationRead h => h.wf
  | .hostShape h host weight pbs cbs pir cir => h.wf && natOk 65536 host && natOk 256 weight && natOk 4294967296 pbs && natOk 4294967296 cbs && natOk 65536 pir && natOk 65536 cir
  | .hostShapeRead h host region => h.wf && natOk 65536 host && natOk 256 region
  | .tenantCreate h tenant _ => h.wf && natOk 65536 tenant
  | .tenantRemove h tenant => h.wf && natOk 65536 tenant
  | .rotateKey h tenant _ => h.wf && natOk 65536 tenant
  | .retireKey h tenant epoch force => h.wf && natOk 65536 tenant && natOk 4294967296 epoch && natOk 256 force
  | .attestReport h _ => h.wf
  | .fwWrite h image offset length => h.wf && natOk 256 image && natOk 18446744073709551616 offset && natOk 4294967296 length
  | .fwActivate h image => h.wf && natOk 256 image
  | .slotGrant h slot host => h.wf && natOk 256 slot && natOk 65536 host
  | .slotRelease h slot roleGen => h.wf && natOk 256 slot && natOk 256 roleGen
  | .slotRead h slot => h.wf && natOk 256 slot
  | .hostFailed h host => h.wf && natOk 65536 host
  | .lostRead h => h.wf
  | .dirRead h offset => h.wf && natOk 18446744073709551616 offset
  | .stackRead h region position => h.wf && natOk 256 region && natOk 256 position
  | .stackRateLimit h region position limit => h.wf && natOk 256 region && natOk 256 position && natOk 256 limit
  | .memIdlePolicy h ms => h.wf && natOk 4294967296 ms
  | .integrityRead h region position => h.wf && natOk 256 region && natOk 256 position
  | .blotterRead h region first => h.wf && natOk 256 region && natOk 256 first
  | .blotterClear h region => h.wf && natOk 256 region
  | .poisonRead h => h.wf
  | .scrubPolicy h minutes => h.wf && natOk 4294967296 minutes
  | .evacuate h region position => h.wf && natOk 256 region && natOk 256 position
  | .accordLoad h offset length tenant => h.wf && natOk 18446744073709551616 offset && natOk 4294967296 length && natOk 65536 tenant
  | .accordUnload h accord => h.wf && natOk 65536 accord
  | .asidCreate h asid tenant => h.wf && natOk 65536 asid && natOk 65536 tenant
  | .asidDestroy h asid => h.wf && natOk 65536 asid
  | .mapRange h asid pva ppa pageSize count rights => h.wf && natOk 65536 asid && natOk 18446744073709551616 pva && natOk 18446744073709551616 ppa && natOk 256 pageSize && natOk 4294967296 count && natOk 256 rights
  | .unmapRange h asid pva size => h.wf && natOk 65536 asid && natOk 18446744073709551616 pva && natOk 4294967296 size
  | .protectRange h asid pva size rights => h.wf && natOk 65536 asid && natOk 18446744073709551616 pva && natOk 4294967296 size && natOk 256 rights
  | .invalidateRange h asid pva size => h.wf && natOk 65536 asid && natOk 18446744073709551616 pva && natOk 4294967296 size
  | .mapRead h asid pva => h.wf && natOk 65536 asid && natOk 18446744073709551616 pva
  | .faultRingSet h ppa slots => h.wf && natOk 18446744073709551616 ppa && natOk 4294967296 slots
  | .faultResolve h batch _ => h.wf && natOk 4294967296 batch
  | .faultPolicy h ms => h.wf && natOk 4294967296 ms
  | .sprayRead h spray => h.wf && natOk 65536 spray
  | .sprayCancel h spray => h.wf && natOk 65536 spray
  | .engineTagRelease h host => h.wf && natOk 65536 host
  | .portRead h plane port => h.wf && natOk 256 plane && natOk 256 port
  | .portSelect h pair plane => h.wf && natOk 256 pair && natOk 256 plane
  | .portRetrain h plane port => h.wf && natOk 256 plane && natOk 256 port
  | .faultRead h selector => h.wf && natOk 256 selector
  | .faultAck h selector cls => h.wf && natOk 256 selector && natOk 256 cls
  | .faultReadWaitExpiry master => natOk 4 master
  | .clockSet h calendar => h.wf && natOk 18446744073709551616 calendar
  | .lifetimeRead h group => h.wf && natOk 256 group
  | .bistRead h region => h.wf && natOk 256 region
  | .powerLimit h watts => h.wf && natOk 4294967296 watts
  | .moduleReset h => h.wf
  | .flitReceive port _ _ => natOk 32 port
  | .replayTimerExpiry port => natOk 32 port
  | .nakRepeatTimer port => natOk 32 port
  | .linkHello port r => natOk 32 port && r.wf
  | .linkAssign port r => natOk 32 port && r.wf
  | .linkReady port gen => natOk 32 port && natOk 256 gen
  | .recoverQuery port r => natOk 32 port && r.wf
  | .recoverReply port r => natOk 32 port && r.wf
  | .staleRole port gen found => natOk 32 port && natOk 256 gen && natOk 256 found
  | .resetRequest port gen reason _ => natOk 32 port && natOk 256 gen && natOk 256 reason
  | .ctrlRepeatTimer port => natOk 32 port
  | .orphanResolveTimeout pair => natOk 16 pair
  | .portTrainingDone port _ => natOk 32 port
  | .portBringupDone port _ => natOk 32 port
  | .plannedChangeDrain pair => natOk 16 pair
  | .portResyncDone port => natOk 32 port
  | .savedStateExpiry port => natOk 32 port
  | .laneDegrade port lane _ => natOk 32 port && natOk 9 lane
  | .dlFlitReceive _ => true
  | .dlReplayTimerExpiry  => true
  | .dlRecoveryRetrain  => true
  | .dlCreditInit r => r.wf
  | .dlWidth r => r.wf
  | .dlWidthRetryTimer  => true
  | .dlFullTrainingDone _ => true
  | .darinlinkDown  => true
  | .dlTrainRetryTimer  => true
  | .errorLine _ region unit cause detail => natOk 4 region && natOk 65536 unit && natOk 256 cause && natOk 18446744073709551616 detail
  | .replacementDone _ region unit => natOk 4 region && natOk 65536 unit
  | .mgmtPairTakeover  => true
  | .sliceStart region unit segment => natOk 5 region && natOk 65536 unit && natOk 256 segment
  | .sliceEnd region _ => natOk 5 region
  | .sliceAbandon region _ => natOk 5 region
  | .catchupWalkDone region => natOk 5 region
  | .unitDue region unit segment => natOk 5 region && natOk 65536 unit && natOk 256 segment
  | .portExchange pair => natOk 16 pair
  | .mgmtPairExchange  => true
  | .spareStackTest region _ => natOk 4 region
  | .fuseBankCheck bank _ => natOk 256 bank
  | .checkpoint  => true
  | .eventRecordWrite _ => true
  | .pwrOkFall  => true
  | .resetNRise  => true
  | .resetNLow _ => true
  | .hubResetRelease _ => true
  | .orderServiceStart  => true
  | .readyAssert  => true
  | .startupTimeout  => true
  | .inputMonitor _ _ => true
  | .powerEvaluation _ _ => true
  | .dieTempRead die sensors => natOk 5 die && listOk 65536 sensors
  | .refClockLoss  => true
  | .refClockReturn  => true
  | .refClockAbsentTimeout  => true
  | .convertersStop  => true
  | .i3cPrivateWrite bytes => shortOk 256 bytes
  | .i3cPrivateRead count => natOk 257 count
  | .setdasa address => natOk 128 address
  | .entdaa address => natOk 128 address
  | .rstdaa  => true
  | .getpid  => true
  | .getbcr  => true
  | .getdcr  => true
  | .getstatus  => true
  | .getmxds  => true
  | .enec  => true
  | .disec  => true
  | .idcode  => true
  | .sample _ => true
  | .extest _ => true
  | .extestPulse _ => true
  | .extestTrain _ => true
  | .clamp _ => true
  | .highz _ => true
  | .bootStatus  => true
  | .bypass code _ => decide (code < 256)
  | .trstNLow  => true
  | .pwrOkRise  => true
  | .stackTrainingDone stack _ => natOk 20 stack
  | .metadataWriteDone lstack => natOk 16 lstack
  | .startupSelfTestDone region failing => natOk 5 region && listOk 65536 failing
  | .mgmtKeyPreviousExpiry master => natOk 4 master
  | .receivePointHoldExpiry port => natOk 32 port
  | .fwWriteDone _ => true
  | .fwActivateDone _ => true

end Sys2Proof
end

