-- ==== Sys2Proof/Certificates/Slice0/Obligations.lean ====
section
/-! DEFINITION. The statements for the provers, one `def Obligations.<Name> : Prop` each: every family of commands and every kind of state that the spec names. A clause that rests on a choice of the model names its log entry. -/

section
open Sys2Proof Sys2Proof.Machine

/-- A command at the front of the queue is run on the state with the queue's rest: nothing is added around it. -/
def Obligations.StepRunsTheFrontCommand : Prop :=
  ∀ (c : Instr) (s : State), step { s with pending := c :: s.pending } = exec c s

/-- On an empty queue 4 ns pass (the model's choice, log entry 2): the clock advances, the timebase, once it runs, is a 64-bit count of 4 ns units (15, R371), and of the rest only the counters of seconds move, at a whole second of the timebase (14, Tables 14.7 and 14.8). What follows from the passing of time alone comes with it: the shutdown of MODULE_RESET that is done ends in the reset, whose start-up begins (15, R377); with RESET_N high and PWR_OK high for 20 ms, start-up begins (15, R373). -/
def Obligations.EmptyQueueLetsTimePass : Prop :=
  ∀ s : State, s.pending = [] → ∃ u, { u with time := s.time, life := s.life } = s ∧
    u.time = { s.time with clock := s.time.clock + 1, timebase := if s.time.timebaseOn then (s.time.timebase + 1) % 2 ^ 64 else s.time.timebase } ∧
    { u.life with counters := s.life.counters } = s.life ∧
    (¬(s.time.timebaseOn ∧ u.time.timebase % 250000000 = 0) → u.life = s.life) ∧
    (s.time.timebaseOn ∧ u.time.timebase % 250000000 = 0 → tget u.life.counters 0 0 = min (2 ^ 64 - 1) (tget s.life.counters 0 0 + 1)) ∧
    (∀ o, o ≠ 0 → (∀ p < 20, o ≠ (1 + p) * 256 + 0x38 ∧ o ≠ (1 + p) * 256 + 0x18) → tget u.life.counters o 0 = tget s.life.counters o 0) ∧
    (let down := s.power.stage = .poweringDown ∧ s.power.resetting = true ∧ downComplete u = true
     let begins := s.power.stage = .held ∧ s.power.resetN = true ∧ s.power.pwrOk = true ∧ s.power.tripped = false ∧ s.power.pwrOkSince + 5000000 ≤ u.time.clock
     (¬down → ¬begins → step s = .next u) ∧
     (begins → step s = .next { u with power := { u.power with stage := .securityTest, startAt := u.time.clock, pinsDriven := false, resetCause := if s.power.resetCause = 3 then 3 else 0 } }) ∧
     (down → ∃ t, step s = .next t ∧ t = resetModule (if workDrained u then u else cutOff u) 2 s.power.resetN .securityTest ∧ t.power.stage = .securityTest ∧ t.power.resetCause = 2 ∧
       t.power.startAt = u.time.clock ∧ t.time.timebase = 0 ∧ t.time.timebaseOn = false ∧ t.extents = [] ∧ t.mem.bytes = [] ∧ t.hub.ready = false))

/-- After reset (02, R35; 04, R91, Table 4.10; 11, Table 11.14; 12, R316; 15, R371, R373): every extent FREE with all fields zero, the valid map clear, every directory entry zero, slot 0 alone bound, no owner, not ready, nothing latched, the timebase at zero and not counting. The invariant of StepKeepsInvariant holds there: every memory is in canonical form. Three clauses are the model's choice: the state begins with RESET_N low and stage held (log entry 10), memory's canonical form (log entry 5), and that nothing has been sent (log entry 7). -/
def Obligations.StateAfterReset : Prop :=
  (
    let s := State.reset
    (∀ n, extentOf s n = {}) ∧ (∀ o, validAt s o = false) ∧ (∀ w, dirOf s w = {}) ∧ (∀ n, (slotOf s n).st = if n = 0 then .bound else .free) ∧
    s.hub.owner = none ∧ s.hub.ready = false ∧ s.hub.endpointId = none ∧ (∀ t, tenantOf? s t = none) ∧ s.eng.sprays = [] ∧
    s.fault.halted = false ∧ s.fault.log = [] ∧ (∀ cls hub k, pendingOf s cls hub k = none) ∧
    s.time.timebase = 0 ∧ s.time.timebaseOn = false ∧ s.power.resetN = false ∧ s.power.stage = .held ∧ hubRuns s = false ∧
    s.wire = [] ∧ s.pending = []) ∧
  (
  State.reset.CellsWf)

/-- Every step goes on, and from every state: it keeps the memories canonical (the model's form, log entry 5), takes back nothing that was put out, lowers no burnt fuse of the anti-rollback floor and of the revoked keys (13, R331), and takes at most the front command from the queue. -/
def Obligations.StepKeepsInvariant : Prop :=
  ∀ s : State, ∃ t, step s = .next t ∧ (s.CellsWf → t.CellsWf) ∧ t.pending = s.pending.drop 1 ∧ s.wire <+: t.wire ∧
    s.time.free ≤ t.time.free ∧ s.hub.svnFloor ≤ t.hub.svnFloor ∧ s.hub.keyRevoked ||| t.hub.keyRevoked = t.hub.keyRevoked ∧
    (s.pending ≠ [] → t.time.clock = s.time.clock)

/-- R35 of 02: at module reset every record is FREE with all fields zero and the valid map is clear, at the state after reset and at every later reset by the pin; and a line whose valid bit is clear, so every line that nothing has written since, reads as zero. -/
def Obligations.ResetClearsExtents : Prop :=
  (∀ n, extentOf State.reset n = {}) ∧ (∀ o, validAt State.reset o = false) ∧
  (∀ (s : State) (ns : Nat), 10000 ≤ ns → s.power.pwrOk = true → s.power.stage ≠ .unpowered →
    ∃ t, exec (.resetNLow ns) s = .next t ∧ (∀ n, extentOf t n = {}) ∧ (∀ o, validAt t o = false) ∧ t.revokes = [] ∧ t.mem.bytes = [] ∧ t.mem.sab = []) ∧
  (∀ (s : State) (ext off : Nat), validAt s off = false → readLine s ext off = (some 0, s))

/-- A packet header is 48 bytes, and its fields read back from them are the packet's, at every value the fields take (03, Table 3.1). Verifying and decrypting a protected packet gives the packet back, with ENCRYPTED set and its tag (03, R71, R76), for every key. -/
def Obligations.PacketsRoundTrip : Prop :=
  (
    ∀ p : Packet, p.wf = true → p.rsvLow < 32 → (headerBytes p).length = 48 ∧ packetOf (headerBytes p) p.payload = p) ∧
  (
    ∀ (key : Key) (p : Packet), unprotect key (protect key p) = some { p with encrypted := true, gcmTag := (protect key p).gcmTag })

/-- Within an extent two module offsets map to one chunk place only where they lie in one 256 B line, and the index is a data chunk's (02, R38). -/
def Obligations.MappingIsInjective : Prop :=
  ∀ (e : Extent) (a b : Nat), e.kind ≤ 2 → (e.kind = 1 → e.target < 4) → (e.kind = 2 → e.target < 16) → e.base * 2 ^ 21 ≤ a → e.base * 2 ^ 21 ≤ b →
    (mapOffset e a).index < 16 ∧ (mapOffset e a).lstack < 16 ∧ (mapOffset e a = mapOffset e b ↔ a / 256 = b / 256)

/-- Bytes written to a canonical memory are read back, every other byte reads as before, and the form is kept. A line written whole, where its region's stripe buffer has room, reads back as written, or as DATA_ERROR where it was written with POISON (03, R61; 05, R121; 06, R150, R151). Private memory (07, R183): a byte written reads back, a byte never written reads as zero, no other byte of the thread changes and no byte of another thread. What rests on log entry 5 is the model's choice. -/
def Obligations.MemoryReadsBack : Prop :=
  (
    ∀ (m : List Host.Cell) (a : Nat) (bs : List Byte), Memory.wf m →
      Memory.wf (writeRange m a bs) ∧ readRange (writeRange m a bs) a bs.length = bs ∧
      ∀ x, readByte (writeRange m a bs) x = if a ≤ x ∧ x < a + bs.length then bs.getD (x - a) 0 else readByte m x) ∧
  (
    ∀ (s t : State) (ext off : Nat) (d : Line) (poison : Bool), writeLine s ext off d 0 32 poison = some t → off % 256 = 0 →
      let k := (mapOffset (extentOf s ext) off).lstack / 4
      (s.mem.sab.filter (fun e => e.region == k)).length < sabRoom s k → (∀ e ∈ s.mem.sab, e.data.length = 16 ∧ e.mask.length = 16) →
      (readLine t ext off).1 = if poison then none else some d) ∧
  (
    ∀ (s : State) (e h a : Nat) (th : Thread) (bs : List Byte), Memory.wf s.eng.priv → a + bs.length ≤ 2 ^ 20 →
      let w := writePriv s e h th a bs
      (∀ x < 2 ^ 20, readPriv w.1 e h w.2.privValid x 1 = if a ≤ x ∧ x < a + bs.length then [bs.getD (x - a) 0] else readPriv s e h th.privValid x 1) ∧
      (∀ y, (y < (e * 64 + h) * 2 ^ 20 ∨ (e * 64 + h + 1) * 2 ^ 20 ≤ y) → readByte w.1.eng.priv y = readByte s.eng.priv y))

/-- Every request and launch that arrives over Darinlink and passes its checks takes its place in a queue of its region (02, R41; 04, R94; 11, R392): IN_FLIGHT of its extent counts it, no other extent and no other queue changes, nothing is sent. -/
def Obligations.DarinlinkRequestsQueue : Prop :=
  ∀ row ∈ requestRows, ∀ (s : State) (p : Packet) (n : Nat), p.opcode = row.1 → Serves s →
    let off := p.address % 2 ^ 40
    let k := darinRegion s off
    let home := if isLaunch row.1 then k else homeRegion s off
    let r := passedReq s .darinlink p n (selfId s) k home none
    let x := regionOf s home
    off < 896 * 2 ^ 30 → (tenantOf? s p.tenant).isSome = true → formatOk true p off = true → Allowed s n row.1 row.2.1 off (selfId s) p.tenant →
    ∃ t, exec (row.2.2 .darinlink p) s = .next t ∧ SameButQueues s t ∧
      (∀ m, extentOf t m = if m = n then { extentOf s n with inFlight := (extentOf s n).inFlight + 1 } else extentOf s m) ∧
      (∀ j, regionOf t j = if j ≠ home then regionOf s j else if isVc1 row.1 then { x with vc1 := x.vc1 ++ [r] }
        else { x with darinQ := x.darinQ ++ [{ r with arrival := x.arrivals }], arrivals := x.arrivals + 1, ingressPtr := (r.path + 1) % 12 })

/-- Every request and launch that arrives over Genura and passes its checks is counted by its extent and its epoch, and is admitted at its region, or waits at the home agent's VC1 input where it is a WRITEBACK or EVICT_CLEAN (02, R41; 03, R71; 04, R94). Colours and the ingress queue (03, R79, R81, R82, R84): RETRY where a configured source has no whole Tp token, or where the queue holds 8,192 entries (green) or 7,168 (yellow); else the request enters the queue with its colour and finish tag and its tokens are taken. -/
def Obligations.FabricRequestsAreAdmitted : Prop :=
  (
    ∀ row ∈ requestRows, ∀ (s : State) (m : Nat) (p q : Packet) (e n : Nat), p.opcode = row.1 → Serves s → p.dest = selfId s → p.address / 2 ^ 40 = p.dest →
      let off := p.address % 2 ^ 40
      let k := portRegion m
      let home := if isLaunch row.1 then k else homeRegion s off
      let r := passedReq s (.genura m) q n p.source k home (some e)
      let s1 := modExtent (epochAdd s p.tenant (some e)) n (fun x => { x with inFlight := x.inFlight + 1 })
      off < 896 * 2 ^ 30 → (tenantOf? s p.tenant).isSome = true → openPacket s p = .plain q e → formatOk false q off = true →
      Allowed s n row.1 row.2.1 off p.source p.tenant →
      exec (row.2.2 (.genura m) p) s = .next (if isVc1 row.1 then modRegion s1 home (fun x => { x with vc1 := x.vc1 ++ [r] }) else admitReq s1 home r)) ∧
  (
    ∀ (s : State) (k : Nat) (r : Req),
      let h := hostOf s r.source
      let x := regionOf s k
      let b := bucketOf x r.source
      let occ := x.ingressQ.length
      let retry := fun (aux : Nat) => admitReq s k r = answerPacket s k r { status := 0x01, aux := aux }
      let enters := fun (c : Colour) (step tc tp : Nat) => ∃ t, admitReq s k r = t ∧ { t with coh := { t.coh with regions := s.coh.regions } } = s ∧
        (∀ j, j ≠ k → regionOf t j = regionOf s j) ∧
        (regionOf t k).ingressQ = x.ingressQ ++ [{ r with colour := c, finish := (laterTag x.vtag b.fh + step) % 2 ^ 48, arrival := x.arrivals }] ∧
        bucketOf (regionOf t k) r.source = { b with fh := (laterTag x.vtag b.fh + step) % 2 ^ 48, tc := tc, tp := tp } ∧
        ∀ i, i ≠ r.source → bucketOf (regionOf t k) i = bucketOf x i
      (h.weight ≠ 0 → b.tp < 16 → retry (if h.pir = 0 then 4095 else min 4095 (max 1 ((16 - b.tp + h.pir - 1) / h.pir)))) ∧
      (h.weight ≠ 0 → 16 ≤ b.tp → 16 ≤ b.tc →
        (8192 ≤ occ → retry (0x1000 + (1 + occ / 1024))) ∧ (occ < 8192 → enters .green ((65280 + h.weight - 1) / h.weight) (b.tc - 16) (b.tp - 16))) ∧
      (h.weight ≠ 0 → 16 ≤ b.tp → b.tc < 16 →
        (7168 ≤ occ → retry (0x1000 + (1 + occ / 1024))) ∧ (occ < 7168 → enters .yellow (4 * ((65280 + h.weight - 1) / h.weight)) b.tc (b.tp - 16))) ∧
      (h.weight = 0 → (7168 ≤ occ → retry (0x1000 + (1 + occ / 1024))) ∧ (occ < 7168 → enters .yellow (4 * 65280) b.tc b.tp)))

/-- A request or launch that fails a check is answered with the status of the first check it fails and does nothing else but what that step counts or logs (02, R41, R391, Table 2.6; 03, R54, R63, R76; 12, R325); one that the fabric brings on VC 2 or 7 is discarded and counted (10, R261). Steps 6 to 10 of 02, Table 2.6, in their order: NO_EXTENT, EXTENT_REVOKED, TENANT_MISMATCH, ACCESS_DENIED, NOT_COHERENT, NO_SLOT, and a refusal otherwise never. The model's choices: what HALT answers before READY_OD was ever asserted (log entry 27), and the ranking of R261 above R67 (log entry 20). -/
def Obligations.RefusedRequestsAreAnswered : Prop :=
  (
    ∀ row ∈ requestRows, ∀ (s : State) (via : Via) (p : Packet), p.opcode = row.1 → hubRuns s = true →
      let off := p.address % 2 ^ 40
      let k := match via with | .genura n => portRegion n | .darinlink => darinRegion s off
      let src := match via with | .genura _ => p.source | .darinlink => selfId s
      let answers := fun (t : State) (st : Nat) => exec (row.2.2 via p) s = .next (respond t k via p { status := st, launch := isLaunch row.1 })
      let astray := via ≠ .darinlink ∧ (p.vc = 2 ∨ p.vc = 7)
      (astray → exec (row.2.2 via p) s = .next (countDiscard s)) ∧
      (¬astray → s.power.halting = true → answers s 0x02) ∧
      (¬astray → s.power.halting = false →
        (s.fault.halted = true → isVc1 row.1 = false → answers s 0x03) ∧
        (s.fault.halted = false → s.hub.ready = false → answers s 0x02) ∧
        ((s.fault.halted = true ∧ isVc1 row.1 = true ∨ s.fault.halted = false ∧ s.hub.ready = true) →
          (via ≠ .darinlink → p.dest ≠ selfId s → answers (countMisrouted s) 0x08) ∧
          (via ≠ .darinlink → p.dest = selfId s → p.address / 2 ^ 40 ≠ p.dest → answers s 0x09) ∧
          ((via = .darinlink ∨ p.dest = selfId s ∧ p.address / 2 ^ 40 = p.dest) →
            (896 * 2 ^ 30 ≤ off → answers s 0x09) ∧
            (off < 896 * 2 ^ 30 →
              (tenantOf? s p.tenant = none → answers s 0x0A) ∧
              ((tenantOf? s p.tenant).isSome = true →
                (via ≠ .darinlink →
                  (∀ q e, openPacket s p = .plain q e →
                    (formatOk false q off = false → exec (row.2.2 via p) s = .next (respond s k via q { status := 0x16, launch := isLaunch row.1 })) ∧
                    (∀ st, formatOk false q off = true → extentRefusal s row.1 off src p.tenant = some st → recallWriteback s row.1 off src = false →
                      exec (row.2.2 via p) s = .next (respond (logViolation s (violationOf s (some via) k row.1 off src p.tenant p.tag st)) k via q { status := st, launch := isLaunch row.1 }))) ∧
                  (p.encrypted = false → answers s 0x0B) ∧
                  (p.encrypted = true → tenantKey s p.tenant p.keyEpoch = none → answers (countAuthFail s k p.source 0x0D) 0x0D) ∧
                  (∀ e key, p.encrypted = true → tenantKey s p.tenant p.keyEpoch = some (e, key) → unprotect key p = none → answers (countAuthFail s k p.source 0x0C) 0x0C)) ∧
                (via = .darinlink →
                  (formatOk true p off = false → answers s 0x16) ∧
                  (∀ st, formatOk true p off = true → extentRefusal s row.1 off src p.tenant = some st → recallWriteback s row.1 off src = false →
                    answers (logViolation s (violationOf s (some via) k row.1 off src p.tenant p.tag st)) st)))))))) ∧
  (
    ∀ row ∈ requestRows, ∀ (s : State) (off src ten : Nat),
      let op := row.1
      let got := extentRefusal s op off src ten
      (extentAt s off = none → got = some 0x10) ∧
      (∀ n, extentAt s off = some n →
        let e := extentOf s n
        let has := (rightsOf e.access (fun _ => true) src) &&& row.2.1 = row.2.1
        (e.st ≠ .granted → got = some 0x11) ∧
        (e.st = .granted → e.tenant ≠ ten → got = some 0x12) ∧
        (e.st = .granted → e.tenant = ten → ¬has → got = some 0x13) ∧
        (e.st = .granted → e.tenant = ten → has → isAlloc op = true → e.coherent = false → got = some 0x14) ∧
        (e.st = .granted → e.tenant = ten → has → (isAlloc op = true → e.coherent = true) → (isAlloc op = true ∨ isVc1 op = true) →
          slotHeld s src (isVc1 op) = none → got = some 0x15)) ∧
      (∀ n, Allowed s n op row.2.1 off src ten → got = none))

/-- WFQ_GRANT (03, R85; 04, R94; 07, R188): the grant slot takes one eligible request of the region's queues, a launch for the dispatcher, any other for the home agent; of fabric requests alone, one of the least finish tag. HOME_AGENT_INPUT (04, R92, R94): of ingress grants, VC1 and VC3, the home agent takes the first message of the input that the pointer finds, and the pointer passes it; VC1 waits while the 256 reserved entries are in use. A WRITEBACK or EVICT_CLEAN that crosses a snoop of its slot for its line closes that snoop: the writeback's data is the snoop's, the eviction is answered SUCCESS at once (04, R95, R103, R104); any other becomes or awaits a transaction. A snoop answer (04, R98, R100, R103, R108): EVICT_IN_FLIGHT awaits the WRITEBACK, any other closes the snoop with its data; one closed before changes nothing, a stale one counts as NOT_PRESENT with its NOTE, one that nothing awaits is discarded and counted. What rests on log entries 24 and 27 is the model's choice. -/
def Obligations.GrantsReachTheHomeAgent : Prop :=
  (
    ∀ (s : State) (k : Nat) (r : Req) (x : RegionSt), pickGrant s k = some (r, x) →
      let s1 := grantReturn (modRegion s k (fun _ => x)) r
      exec (.wfqGrant k) s = .next (if r.launch then admitLaunch s1 k r else modRegion s1 k (fun y => { y with granted := y.granted ++ [r] })) ∧
      r ∈ queued (regionOf s k) ∧ eligible s k r = true ∧ (∀ q ∈ queued x, q ∈ queued (regionOf s k)) ∧
      ((regionOf s k).engineQ = [] → (regionOf s k).darinQ = [] →
        x.vtag = r.finish ∧ x.wfqPtr = (r.source + 1) % 4096 ∧
        ((∀ q ∈ wfqHeads s k, q.finish < 2 ^ 47) → ∀ q ∈ wfqHeads s k, r.finish ≤ q.finish))) ∧
  (
    ∀ (s : State) (k d : Nat),
      let x := regionOf s k
      let idle := fun (i : Nat) => if i = 0 then x.granted = [] else if i = 1 then x.vc1 = [] ∨ 256 ≤ reservedUsed s k else x.vc3 = []
      let i := (x.haPtr + d) % 3
      d < 3 → (∀ c < d, idle ((x.haPtr + c) % 3)) → ¬idle i →
      (∀ r l, i = 0 → x.granted = r :: l → exec (.homeAgentInput k) s = .next (homeEnter (modRegion s k (fun y => { y with granted := l, haPtr := 1 })) k r false)) ∧
      (∀ r l, i = 1 → x.vc1 = r :: l → exec (.homeAgentInput k) s = .next (homeVc1 (modRegion s k (fun y => { y with vc1 := l, haPtr := 2 })) k r)) ∧
      (∀ a l, i = 2 → x.vc3 = a :: l → exec (.homeAgentInput k) s = .next (snoopAnswer (modRegion s k (fun y => { y with vc3 := l, haPtr := 0 })) k a))) ∧
  (
    ∀ (s : State) (k : Nat) (r : Req),
      let l := lineOf s r.line
      let crosses := fun (t : Trans) (n : Nat) (x : Snoop) => l.active = some t ∧ requestSlot s r = some n ∧ (slotOf s n).gen = r.roleGen ∧ t.snoops.find? (fun y => y.slot == n) = some x
      ((¬∃ t n x, crosses t n x) → homeVc1 s k r = homeEnter s k r true) ∧
      ∀ t n x, crosses t n x →
        let rest := t.snoops.filter (fun y => y.slot != n)
        let closing := if x.st = .waiting then s.coh.closing ++ [(n, r.line, x.tag)] else s.coh.closing
        (r.op = 0x18 → ∃ u, homeVc1 s k r = u ∧ u.wire = s.wire ∧ u.mem = s.mem ∧ u.coh.closing = closing ∧
          lineOf u r.line = { l with active := some { t with snoops := rest, data := some r.payload, dataPoison := r.poison, foldedReqs := t.foldedReqs ++ [r] } }) ∧
        (r.op = 0x19 → x.st ≠ .awaitWb → ∃ u, homeVc1 s k r = answerDone u k { req := r, ans := {} } ∧ u.wire = s.wire ∧ u.mem = s.mem ∧ u.coh.closing = closing ∧
          lineOf u r.line = { l with active := some { t with snoops := rest } }) ∧
        (r.op = 0x19 → x.st = .awaitWb → homeVc1 s k r = homeEnter s k r true)) ∧
  (
    ∀ (s : State) (k : Nat) (a : SnoopAns),
      let l := lineOf s a.line
      let late := s.coh.closing.contains (a.slot, a.line, a.tag)
      let waits := fun (t : Trans) => t.snoops.find? (fun x => x.slot == a.slot && x.tag == a.tag && x.st == .waiting)
      (late = true → snoopAnswer s k a =
        sendWaiting { s with coh := { s.coh with closing := s.coh.closing.filter (· != (a.slot, a.line, a.tag)) } } k a.slot) ∧
      (late = false → (∀ t, l.active = some t → waits t = none) → snoopAnswer s k a = countDiscard s) ∧
      ∀ t x, late = false → l.active = some t → waits t = some x →
        (a.stale = false → a.answer = 3 → snoopAnswer s k a =
          setLine s a.line { l with active := some { t with snoops := t.snoops.map (fun y => if y.tag = x.tag ∧ y.slot = x.slot then { y with st := .awaitWb } else y) } }) ∧
        (a.stale = true ∨ a.answer ≠ 3 → ∃ u, snoopAnswer s k a = sendWaiting u k a.slot ∧ u.mem = s.mem ∧ u.coh.dir = s.coh.dir ∧
          (a.stale = true → u.hub.staleSnoops = min (2 ^ 64 - 1) (s.hub.staleSnoops + 1) ∧ (regFault u k).lastNote = 0x07) ∧
          lineOf u a.line = { l with active := some { t with
            snoops := t.snoops.filter (fun y => y.slot != a.slot)
            data := if a.data.isSome then a.data else t.data
            dataPoison := if a.data.isSome then a.poison else t.dataPoison
            downgraded := t.downgraded || (!a.stale && a.answer == 2 && !x.invalidate) } }))

/-- A request at the home agent (04, R93, R95, R99; 03, R70): on a line with an active transaction it waits in the chain, at its end or, of VC1, before what waits from ingress; on an idle line it becomes active, judged by the slot it names, and where the directory orders it, the snoops of its row, and no others, are outstanding. TRANSACTION_COMPLETE (04, R93): of a request the directory does not order, the memory's part is performed once, the request is answered, then the next of the chain becomes active. Of one it orders (04, R99, R100, R101, R103, R390), modified data that its snoops returned is written first, crossing writebacks are answered, the entry becomes that of its row, an UPGRADE of a holder is answered without data, every other with what memory or the returned data gives; a LOST line answers DATA_LOST and keeps its entry, but for a full-line write, which clears it. A WRITEBACK of the owner is written and leaves the line in I, an EVICT_CLEAN removes its slot. What rests on log entry 27 is the model's choice. -/
def Obligations.TransactionsBeginAndComplete : Prop :=
  (
    ∀ (s : State) (k : Nat) (r : Req) (front : Bool),
      let l := lineOf s r.line
      (∀ t, l.active = some t → homeEnter s k r front = setLine s r.line
        { l with chain := if front then l.chain.takeWhile (fun q => isVc1 q.op) ++ r :: l.chain.dropWhile (fun q => isVc1 q.op) else l.chain ++ [r] }) ∧
      (l.active = none → lineWindow s r.line = none →
        homeEnter s k r front = setLine s r.line { l with active := some { req := r, slot := requestSlot s r, refusal := roleRefusal s r } }) ∧
      (∀ w via p, l.active = none → lineWindow s r.line = some w → r.origin = .packet via p → r.dir = true → isVc1 r.op = false → roleRefusal s r = none →
        w ∉ s.coh.rebuild →
        ∃ t tr, homeEnter s k r front = t ∧ (lineOf t r.line).active = some tr ∧ tr.req = r ∧ tr.rebuilding = false ∧ tr.slot = requestSlot s r ∧ tr.refusal = none ∧
          tr.snoops.map (fun x => (x.slot, x.invalidate)) = rowSnoops r.op (failEntry s (dirOf s w)) (if isAlloc r.op then requestSlot s r else none))) ∧
  (
    ∀ (s : State) (line : Nat) (t : Trans) (via : Via) (p : Packet), (lineOf s line).active = some t → transReady s line = true → t.rebuilding = false → t.refusal = none →
      t.req.origin = .packet via p → t.req.dir = false → isVc1 t.req.op = false → isAlloc t.req.op = false →
      let k := homeRegion s (line * 256)
      let x := perform s t.req none false
      exec (.transactionComplete line) s = .next (nextInChain (cacheValid (answerPacket x.2 k t.req x.1) k (line * 256) (writesLine t.req.op || t.data.isSome)) k line)) ∧
  (
    ∀ (s : State) (line w m : Nat) (t : Trans) (via : Via) (p : Packet), (lineOf s line).active = some t → transReady s line = true → t.rebuilding = false → t.refusal = none →
      t.req.origin = .packet via p → t.req.dir = true → isVc1 t.req.op = false → lineWindow s line = some w → extentAt s (line * 256) = some m →
      let op := t.req.op
      let k := homeRegion s (line * 256)
      let s1 := (touchDir s w).2
      let s2 := match t.data with | some d => (writeLine s1 m (line * 256) d 0 32 t.dataPoison).getD s1 | none => s1
      let e := if t.data.isSome ∧ (failEntry s (dirOf s w)).st = .lost then {} else failEntry s (dirOf s w)
      let gen := (t.slot.map (fun n => (slotOf s n).gen)).getD 0
      let answers := fun (v : State) (a : Answer) => (∀ j, j ≠ w → dirOf v j = dirOf s j) ∧
        exec (.transactionComplete line) s = .next (nextInChain (cacheValid (answerPacket
          (t.foldedReqs.foldl (fun u q => answerDone u k { req := q, ans := { status := if q.counted then 0x00 else 0x11 } }) v) k t.req a) k (line * 256) (writesLine op || t.data.isSome)) k line)
      let x := perform s2 t.req (if isPlainRead op || isAlloc op then t.data else none) t.dataPoison
      let holds := (e.st = .s ∧ ∃ n, t.slot = some n ∧ n ∈ e.sharers) ∨ (e.st = .em ∧ t.slot = some e.ownerSlot)
      (e.st ≠ .lost → op = 0x07 → holds → ∃ v, answers v {} ∧ v.mem = s2.mem ∧ dirOf v w = failEntry s (rowAfter op e t.slot gen false t.downgraded)) ∧
      (e.st ≠ .lost → ¬(op = 0x07 ∧ holds) → ∃ v, answers v x.1 ∧ v.mem = x.2.mem ∧ dirOf v w = failEntry s (rowAfter op e t.slot gen (decide (x.1.status ≠ 0)) t.downgraded)) ∧
      (e.st = .lost → fullLineWrite t.req = false → ∃ v, answers v { status := 0x21, poison := true } ∧ v.mem = s2.mem ∧ dirOf v w = e) ∧
      (e.st = .lost → fullLineWrite t.req = true → let y := perform s2 t.req none false; ∃ v, answers v y.1 ∧ v.mem = y.2.mem ∧ dirOf v w = {})) ∧
  (
    ∀ (s : State) (line w n : Nat) (t : Trans) (via : Via) (p : Packet), (lineOf s line).active = some t → transReady s line = true → t.rebuilding = false → t.refusal = none →
      t.req.origin = .packet via p → lineWindow s line = some w → t.slot = some n →
      let k := homeRegion s (line * 256)
      let s1 := (touchDir s w).2
      let e := failEntry s (dirOf s w)
      let answers := fun (v : State) (a : Answer) => (∀ j, j ≠ w → dirOf v j = dirOf s j) ∧
        exec (.transactionComplete line) s = .next (nextInChain (cacheValid (answerPacket v k t.req a) k (line * 256) (t.req.op == 0x18 || t.data.isSome)) k line)
      (t.req.op = 0x19 → ∃ v, answers v {} ∧ v.mem = s.mem ∧ dirOf v w = dropHolder e n) ∧
      (t.req.op = 0x18 → e.st = .em → e.ownerSlot = n → ∃ v, answers v { status := if t.req.counted then 0x00 else 0x11 } ∧ dirOf v w = {} ∧
        v.mem = if t.req.counted = false ∧ recalling s t.req.ext = true then s.mem else ((writeLine s1 t.req.ext (line * 256) t.req.payload 0 32 t.req.poison).getD s1).mem))

/-- Table 4.6 of 04 (R99, R100, R101, R105, R390): which slots a request makes the home agent snoop, none of a LOST line; the entry it leaves where its answer is SUCCESS, and, of READ_SHARED, READ_OWN and UPGRADE, where it is DATA_ERROR: the row's, without the requester. An EVICT_CLEAN removes its slot from the holders; of a slot that holds nothing it changes nothing. -/
def Obligations.DirectoryRows : Prop :=
  ∀ (n m gen : Nat) (sharers : List Nat), sharers ≠ [] →
    let i : DirEntry := {}
    let sh : DirEntry := { st := .s, sharers := sharers }
    let em : DirEntry := { st := .em, sharers := [m], ownerSlot := m, ownerGen := gen }
    let own : DirEntry := { st := .em, sharers := [n], ownerSlot := n, ownerGen := gen }
    let after := fun (op : Nat) (e : DirEntry) (down : Bool) => rowAfter op e (some n) gen false down
    let failing := fun (op : Nat) (e : DirEntry) (down : Bool) => rowAfter op e (some n) gen true down
    (∀ op ∈ [0x01, 0x03], after op i false = i ∧ after op sh false = sh ∧ after op em true = { st := .s, sharers := [m] } ∧ after op em false = i ∧
      rowSnoops op i none = [] ∧ rowSnoops op sh none = [] ∧ rowSnoops op em none = [(m, false)]) ∧
    (after 0x05 i false = { st := .s, sharers := [n] } ∧ (n ∈ sharers → after 0x05 sh false = sh) ∧ (n ≠ m → after 0x05 em false = { st := .s, sharers := [n] }) ∧
      (n ∉ sharers → ∃ l, after 0x05 sh false = { st := .s, sharers := l } ∧ (∀ q, q ∈ l ↔ q = n ∨ q ∈ sharers) ∧ l.length = sharers.length + 1 ∧
        (sharers.Pairwise (· < ·) → l.Pairwise (· < ·))) ∧
      (n < m → after 0x05 em true = { st := .s, sharers := [n, m] }) ∧ (m < n → after 0x05 em true = { st := .s, sharers := [m, n] }) ∧
      (∀ down, after 0x05 own down = { st := .s, sharers := [n] }) ∧
      rowSnoops 0x05 i (some n) = [] ∧ rowSnoops 0x05 sh (some n) = [] ∧ rowSnoops 0x05 own (some n) = [] ∧ (m ≠ n → rowSnoops 0x05 em (some n) = [(m, false)])) ∧
    (∀ op ∈ [0x06, 0x07], (∀ e ∈ [i, sh, em, own], after op e false = own) ∧ rowSnoops op i (some n) = [] ∧ rowSnoops op own (some n) = [] ∧
      (m ≠ n → rowSnoops op em (some n) = [(m, true)]) ∧ rowSnoops op sh (some n) = (sharers.filter (· ≠ n)).map (fun q => (q, true))) ∧
    (∀ op ∈ [0x02, 0x04, 0x08, 0x10, 0x11, 0x12, 0x13, 0x14, 0x15, 0x16, 0x17], (∀ e ∈ [i, sh, em], after op e false = i) ∧ rowSnoops op i none = [] ∧
      rowSnoops op em none = [(m, true)] ∧ rowSnoops op sh none = sharers.map (fun q => (q, true))) ∧
    ((∀ op ∈ [0x06, 0x07], ∀ e ∈ [i, sh, em, own], failing op e false = i) ∧ failing 0x05 i false = i ∧ (∀ down, failing 0x05 own down = i) ∧
      failing 0x05 sh false = (if sharers.filter (· ≠ n) = [] then i else { st := .s, sharers := sharers.filter (· ≠ n) }) ∧
      (n ≠ m → failing 0x05 em true = { st := .s, sharers := [m] } ∧ failing 0x05 em false = i)) ∧
    (dropHolder i n = i ∧ dropHolder sh n = (if sharers.filter (· ≠ n) = [] then i else { st := .s, sharers := sharers.filter (· ≠ n) }) ∧ dropHolder own n = i ∧
      (n ≠ m → dropHolder em n = em) ∧ ∀ src, dropHolder { st := .lost, lostSource := src } n = { st := .lost, lostSource := src }) ∧
    ∀ op r src, rowSnoops op { st := .lost, lostSource := src } r = []

/-- R102 of 04: a WRITEBACK from a slot that is not the line's owner, and that no transaction awaits, is answered BAD_FIELD, its data is discarded, the entry does not change, and the region notes COHERENCE_PROTOCOL. One that region ingress let pass for the recall of its extent (02, R41, Table 2.6), and whose slot owns the line no more when its turn comes, draws EXTENT_REVOKED: the model's choice (log entry 27). -/
def Obligations.ForeignWritebackIsRefused : Prop :=
  ∀ (s : State) (line w n : Nat) (t : Trans) (via : Via) (p : Packet), (lineOf s line).active = some t → transReady s line = true → t.rebuilding = false →
    t.req.origin = .packet via p → t.req.op = 0x18 → lineWindow s line = some w → t.slot = some n → t.refusal = none → (slotOf s n).st ≠ .failed →
    failEntry s (dirOf s w) = dirOf s w → ((dirOf s w).st ≠ .em ∨ (dirOf s w).ownerSlot ≠ n) →
    let k := homeRegion s (line * 256)
    let answers := fun (v : State) (st : Nat) => dirOf v w = dirOf s w ∧ v.mem = s.mem ∧ v.extents = s.extents ∧
      exec (.transactionComplete line) s = .next (nextInChain (cacheValid (answerPacket v k t.req { status := st }) k (line * 256) true) k line)
    (t.req.counted = true → ∃ v, answers v 0x16 ∧ (regFault v k).lastNote = 0x06 ∧ (regFault v k).noteCount = ((regFault s k).noteCount + 1) % 256) ∧
    (t.req.counted = false → ∃ v, answers v 0x11 ∧ v.fault = s.fault)

/-- What memory does for reads, writes and atomics (03, R58, R59, R66, Table 3.2): a read returns the addressed words and zero elsewhere; an atomic stores its result, returns the old word and is exact on every operand; a write stores its words. -/
def Obligations.MemoryPerformsRequests : Prop :=
  ∀ (s s1 s2 : State) (r : Req) (d : Line) (via : Via) (p : Packet), r.origin = .packet via p → r.bytes = none →
    let first := r.offset % 256 / 8
    let line := r.offset / 256 * 256
    (isPlainRead r.op = true → first + (r.length + 1) ≤ 32 → readLine s r.ext line = (some d, s1) →
      ∃ v, perform s r none false = ({ data := some v }, s1) ∧
        ∀ w < 32, lineWord v w = if first ≤ w ∧ w < first + (r.length + 1) then lineWord d w else 0) ∧
    (r.op = 0x02 ∨ r.op = 0x04 → writeLine s r.ext line r.payload first (r.length + 1) r.poison = some s2 → perform s r none false = ({}, s2)) ∧
    (r.op = 0x08 → writeLine s r.ext line 0 first (r.length + 1) false = some s2 → perform s r none false = ({}, s2)) ∧
    (isAtomic r.op = true → readLine s r.ext line = (some d, s1) →
      let old := lineWord d first
      let x := lineWord r.payload 0
      ∃ new : Word, (writeLine s1 r.ext line (setLineWord d first new) first 1 false = some s2 → perform s r none false = ({ data := some (old.zeroExtend 2048) }, s2)) ∧
        (r.op = 0x10 → new.toNat = (old.toNat + x.toNat) % 2 ^ 64) ∧ (r.op = 0x11 → new = x) ∧
        (r.op = 0x12 → new = if old = lineWord r.payload 1 then x else old) ∧
        (r.op = 0x13 → ∀ i < 64, new.getLsbD i = (old.getLsbD i && x.getLsbD i)) ∧ (r.op = 0x14 → ∀ i < 64, new.getLsbD i = (old.getLsbD i || x.getLsbD i)) ∧
        (r.op = 0x15 → ∀ i < 64, new.getLsbD i = (old.getLsbD i ^^ x.getLsbD i)) ∧
        (r.op = 0x16 → new.toInt = max old.toInt x.toInt) ∧ (r.op = 0x17 → new.toInt = min old.toInt x.toInt))

/-- SNOOP_RESP and SNOOP_RESP_DATA (00, R7; 04, R94, R389): an answer that names a held slot with its generation waits at the VC3 input of the line's home agent; one that names none, or carries a reserved STATUS, is discarded and counted, and nothing is sent; a reserved answer is noted besides. SNOOP_TIMEOUT (04, R110, R111, R112): a snoop still missing after the cycle in which its 2 ms expire makes its slot FAILED, and the failure walk of the slot begins. What rests on log entries 3 and 27 is the model's choice. -/
def Obligations.SnoopAnswersAndTimeouts : Prop :=
  (
    ∀ (s : State) (p : Packet) (row : Nat × (Via → Packet → Instr)), row ∈ [(0x2C, Instr.snoopResp), (0x2D, Instr.snoopRespData)] → p.opcode = row.1 → hubRuns s = true →
      (tenantOf? s p.tenant).isSome = true → p.payload.isSome = (row.1 == 0x2D) →
      let off := p.address % 2 ^ 40
      let go := fun (s : State) (via : Via) (q : Packet) (k src : Nat) (t : State) =>
        (reservedStatus q.status = true → exec (row.2 via p) s = .next (countDiscard t)) ∧
        (reservedStatus q.status = false → 3 < p.aux % 16 → ∃ u, exec (row.2 via p) s = .next u ∧ u.coh = t.coh ∧ u.wire = t.wire ∧ u.hub = (countDiscard t).hub ∧ (regFault u k).lastNote = 0x06) ∧
        (reservedStatus q.status = false → p.aux % 16 ≤ 3 → (∀ n, slotHeld s src true = some n → (slotOf s n).gen = q.roleGen →
          exec (row.2 via p) s = .next (modRegion t (homeRegion t off) (fun x => { x with vc3 := x.vc3 ++ [{ slot := n, line := off / 256, tag := q.tag, answer := q.aux % 16, stale := q.status == 0x17, data := if q.aux % 16 = 1 ∨ q.aux % 16 = 2 then q.payload else none, poison := q.poison }] }))) ∧
        (slotHeld s src true = none ∨ (∃ n, slotHeld s src true = some n ∧ (slotOf s n).gen ≠ q.roleGen) → exec (row.2 via p) s = .next (countDiscard t)))
      go s .darinlink p (darinRegion s off) (selfId s) s ∧
      ∀ m q e, p.dest = selfId s → p.vc = 3 → openPacket s p = .plain q e → (duplicate s p.source p.msgCounter).1 = false → go s (.genura m) q (portRegion m) p.source (duplicate s p.source p.msgCounter).2) ∧
  (
    ∀ (s : State) (line slot : Nat) (x : Snoop), snoopTo s line slot = some x → x.st ≠ .unsent → x.sentAt + 500000 < s.time.clock →
      ∃ t w, exec (.snoopTimeout line slot) s = .next t ∧ slotOf t slot = { slotOf s slot with st := .failed } ∧ (∀ n, n ≠ slot → slotOf t n = slotOf s n) ∧
        walkOf t slot = some w ∧ w.failure = true ∧ w.next = 0 ∧ w.openLines = [])

/-- FAILURE_WALK_STEP, FAILURE_WALK_DONE, RELEASE_SWEEP_STEP, RELEASE_SWEEP_DONE (04, R107, R109, R111, R112, R113): a walk passes one window unit in use; in it, an EM line of the failed slot becomes LOST, is listed in the walk's open batch by its offset and marked REPORTED, a shared copy loses the slot; the batch closes when it holds 56 lines. At the walk's end the last batch joins the LOST buffer with the next number, the slot is FREE after a sweep, slot 0 is BOUND again where Darinlink is ACTIVE (log entry 27), and its orders are answered. What rests on log entries 3, 24 and 27 is the model's choice. -/
def Obligations.WalksPassUnitsAndEnd : Prop :=
  ∀ (s : State) (slot : Nat) (w : Walk), walkOf s slot = some w →
    (∀ u, w.failure = true → nextUnit s w.next = some u → w.openLines.length + (unitEntries s u slot).length < 56 →
      ∃ t v, exec (.failureWalkStep slot) s = .next t ∧ walkOf t slot = some v ∧ v.next = u + 1 ∧ v.failure = true ∧ w.openLines <+: v.openLines ∧ t.coh.lost = s.coh.lost) ∧
    (∀ (u : Nat) (off : Nat → Nat), w.failure = true → nextUnit s w.next = some u → w.openLines.length + (unitEntries s u slot).length < 56 → ((unitEntries s u slot).map Prod.fst).Nodup →
      (∀ x ∈ unitEntries s u slot, dirOf s x.1 = x.2 ∧ ∃ n, windowOffset s x.1 = some (n, off x.1)) →
      let listed := fun (e : DirEntry) => e.st == .lost && e.ownerSlot == slot && !e.reported
      ∃ t v, exec (.failureWalkStep slot) s = .next t ∧ walkOf t slot = some v ∧
        v.openLines = w.openLines ++ ((unitEntries s u slot).filter (fun x => listed (failEntry s x.2))).map (fun x => off x.1) ∧
        (∀ x ∈ unitEntries s u slot, dirOf t x.1 = if listed (failEntry s x.2) then { failEntry s x.2 with reported := true } else failEntry s x.2) ∧
        ∀ i, i ∉ (unitEntries s u slot).map Prod.fst → dirOf t i = dirOf s i) ∧
    (∀ e : DirEntry, (e.st = .em → (slotOf s e.ownerSlot).st = .failed → failEntry s e =
        { st := .lost, ownerSlot := e.ownerSlot, ownerGen := e.ownerGen, lostSource := if e.ownerSlot = 0 then selfId s else (slotOf s e.ownerSlot).host }) ∧
      (e.st = .em → (slotOf s e.ownerSlot).st ≠ .failed → failEntry s e = e) ∧
      (e.st = .s → failEntry s e = let left := e.sharers.filter (fun n => (slotOf s n).st ≠ .failed); if left = [] then {} else { e with sharers := left })) ∧
    (∀ i o, w.failure = true → w.openLines.length = 55 → s.coh.lost.length < 1024 → ∃ t b, reportLine s w i o = (true, t) ∧ t.coh.lost = s.coh.lost ++ [b] ∧ t.coh.lostSeq = (s.coh.lostSeq + 1) % 2 ^ 32 ∧
      b.entries = w.openLines ++ [o] ∧ b.last = false ∧ b.seq = s.coh.lostSeq ∧ b.slot = slot ∧ b.source = w.source ∧ b.gen = w.gen ∧ b.cause = w.cause ∧ dirOf t i = { dirOf s i with reported := true }) ∧
    (∃ b, (closeLost s w true).coh.lost = s.coh.lost ++ [b] ∧ b.entries = w.openLines ∧ b.last = true ∧ b.seq = s.coh.lostSeq ∧ b.slot = slot ∧ b.source = w.source ∧ b.gen = w.gen ∧ b.cause = w.cause) ∧
    (∀ u, w.failure = false → nextUnit s w.next = some u →
      let s1 := setWalk s { w with next := u + 1 }
      (unitEntries s u slot = [] → exec (.releaseSweepStep slot) s = .next s1) ∧
      (∀ i e n o, unitEntries s u slot = [(i, e)] → dirOf s i = e → e.sharers.contains slot = true → failEntry s e = e → windowOffset s i = some (n, o) →
        (e.st = .s → (lineOf s (o / 256)).active = none →
          ∃ t, exec (.releaseSweepStep slot) s = .next t ∧ { t with coh := { t.coh with dir := s.coh.dir } } = s1 ∧ (∀ j, j ≠ i → dirOf t j = dirOf s j) ∧
            dirOf t i = if e.sharers.filter (· != slot) = [] then {} else { e with sharers := e.sharers.filter (· != slot) }) ∧
        (e.st = .em → exec (.releaseSweepStep slot) s = .next (homeEnter (setDir s1 i e) (homeRegion s1 o) (sweepReq s1 slot o n) false)))) ∧
    (w.failure = true → nextUnit s w.next = none → s.coh.lost.length < 1024 →
      let s1 := delWalk (closeLost s w true) slot
      let st := if slot = 0 ∧ s.link.dl.st = .active then SlotState.bound else if w.thenFree then .free else (slotOf s slot).st
      ∃ t, exec (.failureWalkDone slot) s = .next (answerWalk t w) ∧ { t with coh := { t.coh with slots := s.coh.slots } } = s1 ∧ slotOf t slot = { slotOf s slot with st := st } ∧
        ∀ n, n ≠ slot → slotOf t n = slotOf s n) ∧
    (w.failure = false → (heldCount s slot = 0 ∨ nextUnit s w.next = none ∧ sweepRuns s slot = false) →
      exec (.releaseSweepDone slot) s = .next (answerWalk (setSlot (delWalk s slot) slot { slotOf s slot with st := .free }) w))

/-- REFILL_TICK (03, R77, R80, R86, R87; 11, R305): orders that had to wait go on first (log entry 22). Where none waited and none takes effect at it, and Darinlink sends no credits at it (11, R302): at a 1 µs tick of the timebase every configured record's buckets refill exactly in each region, and the sillage inputs are sampled; nothing else changes but the window's sample. A HOST_SHAPE of the tick sets its record, whose buckets in every region start full, refill under the new values, or are emptied. COMMIT_TICK (02, R43; 13, R386): at a 1 µs tick of the timebase the prepared orders take effect, each once, in order of arrival, and none stays prepared but those of the refill tick; while the spare management pair takes over none does (12, R322). What rests on log entries 2, 3 and 22 is the model's choice. -/
def Obligations.TicksRefillAndCommit : Prop :=
  (
    ∀ s : State, s.time.timebaseOn = true → s.time.timebase % 250 = 0 → s.time.refilled ≠ some s.time.timebase → s.hub.prepared = [] → s.hub.heldOrders = [] → s.power.jtagHeld = [] → s.link.dl.stepFive = false → (s.coh.hosts.map Prod.fst).Nodup →
      ∃ t, exec .refillTick s = .next t ∧
        { t with coh := { t.coh with regions := s.coh.regions }, hub := { t.hub with window := s.hub.window }, time := s.time } = s ∧
        t.time = { s.time with refilled := some s.time.timebase } ∧
        ∀ k < 4, (regionOf t k).sillageQ = (regionOf s k).ingressQ.length ∧ { regionOf t k with buckets := (regionOf s k).buckets, sillageQ := (regionOf s k).sillageQ } = regionOf s k ∧
          ∀ r ∈ s.coh.hosts,
            let b := bucketOf (regionOf s k) r.1
            r.2.weight ≠ 0 → bucketOf (regionOf t k) r.1 =
              { b with tc := min (r.2.cbs * 16) (b.tc + r.2.cir), tp := min (r.2.pbs * 16) (b.tp + r.2.pir), tcSample := min (r.2.cbs * 16) (b.tc + r.2.cir) }) ∧
  (
    ∀ s : State, s.time.timebaseOn = true → s.time.timebase % 250 = 0 → s.time.refilled ≠ some s.time.timebase →
      exec .refillTick s = .next (refillTick (releaseTap (releaseOrders s))) ∧
      (∀ c, s.hub.heldOrders = [c] → releaseOrders s = afterOrder { s with hub := { s.hub with heldOrders := [] } } c)) ∧
  (
    ∀ (old new : HostRec) (b : Bucket),
      shapeBucket old [new] b =
        if new.weight = 0 then { b with tc := 0, tp := 0, tcSample := 0 }
        else if old.weight = 0 then { b with tc := new.cbs * 16, tp := new.pbs * 16, tcSample := new.cbs * 16 }
        else { b with tc := min (new.cbs * 16) (b.tc + new.cir), tp := min (new.pbs * 16) (b.tp + new.pir), tcSample := min (new.cbs * 16) (b.tc + new.cir) }) ∧
  (
    ∀ (s : State) (h : OrderHdr) (n : Nat) (r : HostRec), s.hub.prepared = [.hostShape h n r] → s.fault.takeover = false → s.link.dl.stepFive = false →
      (s.coh.hosts.map Prod.fst).Nodup →
      ∃ t, refillTick s = t ∧ hostOf t n = r ∧ t.hub.prepared = [] ∧ ∀ k < 4, bucketOf (regionOf t k) n = shapeBucket (hostOf s n) [r] (bucketOf (regionOf s k) n)) ∧
  (
    ∀ s : State, s.time.timebaseOn = true → s.time.timebase % 250 = 0 → s.time.committed ≠ some s.time.timebase →
      let s1 := { s with time := { s.time with committed := some s.time.timebase } }
      (s.fault.takeover = true → exec .commitTick s = .next (advanceRemovals s1)) ∧
      (s.fault.takeover = false → exec .commitTick s = .next (advanceRemovals
        ((s.hub.prepared.filter (fun p => !p.atRefill)).foldl applyPrepared { s1 with hub := { s1.hub with prepared := s.hub.prepared.filter Prepared.atRefill } }))))

/-- What a prepared order does at its tick (02, Tables 2.8 and 2.9, R42, R44; 03, R86; 05, R136; 07, R199, R200, R204, Table 7.13; 13, R337, R338, R339, R386): refused there it changes nothing and is answered with its first refusal. Else a grant makes the extent GRANTED under the next generation, with the lowest run of window units that fits where it is coherent, ACCESS_SET sets its ranges, a REVOKE makes it REVOKING and is not answered yet; a new tenant starts at epoch 0, a rotation keeps the key as the previous one, a retirement drops that, a removal revokes the tenant's extents and cancels its launches; host records, the idle policy and the fault policy take their values; an address space is made, its leaves are written, cleared or given rights, and an invalidation drops what is cached of its range, answered when it is done. What rests on log entry 21 is the model's choice. -/
def Obligations.PreparedOrdersTakeEffect : Prop :=
  ∀ (s : State) (h : OrderHdr) (n g : Nat) (r : Extent) (w : BitVec 320) (kek : Key),
    (∀ st, firstRefusal (grantRefusals s n r) = some st → applyPrepared s (.grant h n r) = finish s h 0x0100 st) ∧
    (firstRefusal (grantRefusals s n r) = none → accessCoherent r.access = false →
      let gen := ((extentOf s n).generation + 1) % 256
      applyPrepared s (.grant h n r) =
        finish (setExtent s n { r with st := .granted, generation := gen, grantStamp := s.time.timebase, coherent := false, dirBase := 0 }) h 0x0100 0x00 [BitVec.ofNat 8 gen]) ∧
    ((extentOf s n).st ≠ .granted → applyPrepared s (.revoke h n g) = finish s h 0x0102 0xCB) ∧
    ((extentOf s n).st = .granted → (extentOf s n).generation ≠ g → applyPrepared s (.revoke h n g) = finish s h 0x0102 0xCC) ∧
    ((extentOf s n).st = .granted → (extentOf s n).generation = g →
      let t := applyPrepared s (.revoke h n g)
      extentOf t n = { extentOf s n with st := .revoking } ∧ t.revokes = s.revokes ++ [{ ext := n, waits := .order h }] ∧ t.wire = s.wire ∧
      (∀ m, m ≠ n → extentOf t m = extentOf s m) ∧ ∀ m ∈ t.hub.measured, ∀ x, m = some x → x.ext = n → x.valid = false) ∧
    ((tenantOf? s n).isSome = true → applyPrepared s (.tenantCreate h n w kek) = finish s h 0x0120 0xEF) ∧
    (∀ key, tenantOf? s n = none → unwrapKey kek w = some key → n < 1024 →
      ∃ t, applyPrepared s (.tenantCreate h n w kek) = finish t h 0x0120 0x00 ∧ tenantOf? t n = some { epoch := 0, key := key } ∧ (∀ m, m ≠ n → tenantOf? t m = tenantOf? s m)) ∧
    (∀ key x, tenantOf? s n = some x → x.removing = false → x.previous = none → unwrapKey kek w = some key →
      let e := (x.epoch + 1) % 2 ^ 32
      ∃ t, applyPrepared s (.rotateKey h n w kek) = finish t h 0x0122 0x00 (leBytes 4 e) ∧ tenantOf? t n = some { x with epoch := e, previous := some x.key, key := key } ∧
        (∀ m, m ≠ n → tenantOf? t m = tenantOf? s m)) ∧
    (∀ b, accessCoherent r.access = true → firstRefusal (grantRefusals s n r) = none → findWindow s r.size = some b →
      let gen := ((extentOf s n).generation + 1) % 256
      applyPrepared s (.grant h n r) =
        finish (setExtent s n { r with st := .granted, generation := gen, grantStamp := s.time.timebase, coherent := true, dirBase := b }) h 0x0100 0x00 [BitVec.ofNat 8 gen]) ∧
    (∀ size, let fits := fun (b : Nat) => b + size ≤ 32768 ∧ ∀ e ∈ s.extents, e.2.holdsWindow = true → runsMeet e.2.dirBase e.2.size b size = false
      (findWindow s size = none → ∀ b, ¬fits b) ∧ ∀ b, findWindow s size = some b → fits b ∧ ∀ c, fits c → b ≤ c) ∧
    (∀ (acc : List (BitVec 32)) (m : Nat), let e := extentOf s n
      (∀ st, firstRefusal (accessSetRefusals s n g acc m) = some st → applyPrepared s (.accessSet h n g acc m) = finish s h 0x0101 st) ∧
      (firstRefusal (accessSetRefusals s n g acc m) = none → ∃ t, applyPrepared s (.accessSet h n g acc m) = finish t h 0x0101 0x00 ∧
        extentOf t n = { e with access := acc, measured := decide (m = 1), coherent := e.coherent || accessCoherent acc,
                                dirBase := if e.coherent then e.dirBase else if accessCoherent acc then (findWindow s e.size).getD 0 else 0 } ∧
        (∀ j, j ≠ n → extentOf t j = extentOf s j) ∧
        t.hub.measured = s.hub.measured.map (fun x => x.map (fun y => if y.ext = n then { y with writeOpen := y.writeOpen || accessWrites acc, valid := y.valid && m == 1 } else y)) ∧
        t.mem = s.mem ∧ t.coh = s.coh ∧ t.wire = s.wire)) ∧
    (∀ st, firstRefusal (tenantState s n) = some st → applyPrepared s (.tenantRemove h n) = finish s h 0x0121 st) ∧
    (∀ x, tenantOf? s n = some x → x.removing = false → (s.extents.map Prod.fst).Nodup →
      ∃ u, tenantOf? u n = some { x with removing := true } ∧ u.eng = s.eng ∧ u.mem = s.mem ∧ u.wire = s.wire ∧
        (∀ m, extentOf u m = if (extentOf s m).st = .granted ∧ (extentOf s m).tenant = n ∧ (tget? s.extents m).isSome then { extentOf s m with st := .revoking } else extentOf s m) ∧
        u.revokes = s.revokes ++ (s.extents.filter (fun e => e.2.st == .granted && e.2.tenant == n)).map (fun e => { ext := e.1, waits := .removal n }) ∧
        let c := (s.eng.sprays.filter (fun q => q.2.tenant == n)).foldl (fun v q => cancelSpray v q.1) u
        applyPrepared s (.tenantRemove h n) = { c with hub := { c.hub with removals := c.hub.removals ++ [{ tenant := n, order := h, step := 2 }] } }) ∧
    (∀ f, (∀ st, firstRefusal (retireRefusals s n g f) = some st → applyPrepared s (.retireKey h n g f) = finish s h 0x0123 st) ∧
      (∀ x, firstRefusal (retireRefusals s n g f) = none → tenantOf? (if f = 1 then forceRetire s n g else s) n = some x → ∃ t, applyPrepared s (.retireKey h n g f) = finish t h 0x0123 0x00 ∧
        tenantOf? t n = some { x with previous := none } ∧ { t with hub := { t.hub with tenants := s.hub.tenants } } =
          { (if f = 1 then forceRetire s n g else s) with hub := { (if f = 1 then forceRetire s n g else s).hub with tenants := s.hub.tenants } })) ∧
    (∀ x : HostRec, applyPrepared s (.hostShape h n x) = finish { s with coh := { s.coh with hosts := tset s.coh.hosts n x } } h 0x0110 0x00) ∧
    (applyPrepared s (.idlePolicy h n) = finish { s with mem := { s.mem with idleMs := n } } h 0x0142 0x00) ∧
    (applyPrepared s (.faultPolicy h n) = finish { s with eng := { s.eng with timeouts := (s.time.clock, n) :: s.eng.timeouts } } h 0x016B 0x00) ∧
    (∀ st, firstRefusal (asidCreateRefusals s n g) = some st → applyPrepared s (.asidCreate h n g) = finish s h 0x0162 st) ∧
    (firstRefusal (asidCreateRefusals s n g) = none → applyPrepared s (.asidCreate h n g) = finish (setSpace s n { tenant := g }) h 0x0162 0x00) ∧
    (∀ st, firstRefusal (asidDestroyRefusals s n) = some st → applyPrepared s (.asidDestroy h n) = finish s h 0x0163 st) ∧
    (firstRefusal (asidDestroyRefusals s n) = none → ∃ t, applyPrepared s (.asidDestroy h n) = t ∧ spaceOf t n = { spaceOf s n with leaves := [], tables := [], destroying := true } ∧
      (∀ m, m ≠ n → spaceOf t m = spaceOf s m) ∧ t.wire = s.wire ∧
      t.eng.invals = s.eng.invals ++ [{ id := s.eng.nextInval, asid := n, pva := 0, size := 2 ^ 41, waits := some h, destroy := true }]) ∧
    (∀ pva ppa ps c rights, (∀ st, firstRefusal (mapRefusals s n pva ppa ps c rights) = some st → applyPrepared s (.mapRange h n pva ppa ps c rights) = finish s h 0x0164 st) ∧
      (firstRefusal (mapRefusals s n pva ppa ps c rights) = none → ∃ t, applyPrepared s (.mapRange h n pva ppa ps c rights) = finish t h 0x0164 0x00 ∧ (∀ m, m ≠ n → spaceOf t m = spaceOf s m) ∧
        let unit_ := fun (i : Nat) => pva / 65536 + i * levelUnits (ps + 1)
        (∀ i < c, tget? (spaceOf t n).leaves (unit_ i) = some { level := ps + 1, frame := ppa / 65536 + i * levelUnits (ps + 1), read := rights.testBit 0, write := rights.testBit 1 }) ∧
        ∀ u, (∀ i < c, u ≠ unit_ i) → tget? (spaceOf t n).leaves u = tget? (spaceOf s n).leaves u)) ∧
    (∀ pva size, (∀ st, firstRefusal (rangeRefusals s n pva size true) = some st → applyPrepared s (.unmapRange h n pva size) = finish s h 0x0165 st) ∧
      (firstRefusal (rangeRefusals s n pva size true) = none → ∃ t, applyPrepared s (.unmapRange h n pva size) = finish t h 0x0165 0x00 ∧ (∀ m, m ≠ n → spaceOf t m = spaceOf s m) ∧
        ∀ x, x ∈ (spaceOf t n).leaves ↔ x ∈ (spaceOf s n).leaves ∧ ¬(x.1 < pva / 65536 + size ∧ pva / 65536 < x.1 + levelUnits x.2.level))) ∧
    (∀ pva size rights, (∀ st, firstRefusal (rangeRefusals s n pva size (decide (rights ≤ 3))) = some st → applyPrepared s (.protectRange h n pva size rights) = finish s h 0x0166 st) ∧
      (firstRefusal (rangeRefusals s n pva size (decide (rights ≤ 3))) = none → ∃ t, applyPrepared s (.protectRange h n pva size rights) = finish t h 0x0166 0x00 ∧
        (∀ m, m ≠ n → spaceOf t m = spaceOf s m) ∧ (spaceOf t n).leaves = (spaceOf s n).leaves.map (fun x =>
          if x.1 < pva / 65536 + size ∧ pva / 65536 < x.1 + levelUnits x.2.level then (x.1, { x.2 with read := rights.testBit 0, write := rights.testBit 1 }) else x))) ∧
    (∀ pva size, (∀ st, firstRefusal (invalidateRefusals s n pva size) = some st → applyPrepared s (.invalidate h n pva size) = finish s h 0x0167 st) ∧
      (firstRefusal (invalidateRefusals s n pva size) = none → ∃ t, applyPrepared s (.invalidate h n pva size) = t ∧ t.wire = s.wire ∧ t.eng.asids = s.eng.asids ∧
        t.eng.invals = s.eng.invals ++ [{ id := s.eng.nextInval, asid := n, pva := pva, size := size, waits := some h }] ∧
        ∀ e, ∀ x ∈ tget t.eng.tlb e [], n = 0 ∨ x.asid = n → ¬(x.page < pva / 65536 + size ∧ pva / 65536 < x.page + levelUnits x.leaf.level)))

/-- The end of an extent (02, R35, R47, R48, R49, Table 2.10, steps 4 to 8; 04, R100, R114; 13, R339): drained, its buffered stripes commit and its recall begins; of a coherent extent every LOST line is first reported, and every held line is recalled from its holders, whose data is discarded. Recalled, what is still buffered commits, its valid bits clear, its window entries go, it is SCRUBBING and the REVOKE is answered, or its tenant's removal goes on once the tenant's keys are erased; each granule is zeroed in turn; then it is FREE with only its generation kept. What rests on log entry 3 is the model's choice. -/
def Obligations.ExtentEndsInSteps : Prop :=
  ∀ (s : State) (ext : Nat),
    let e := extentOf s ext
    (s.revokes.any (fun r => r.ext == ext && !r.recalling) = true → e.inFlight = 0 → e.coherent = false →
      exec (.revokeDrainDone ext) s = .next { (s.mem.sab.filter (fun x => x.ext == ext)).foldl commitEntry s with
        revokes := s.revokes.map (fun r => if r.ext = ext then { r with recalling := true } else r) }) ∧
    (s.revokes.any (fun r => r.ext == ext && !r.recalling) = true → e.inFlight = 0 → e.coherent = true →
      let s1 := (s.mem.sab.filter (fun x => x.ext == ext)).foldl commitEntry s
      let ws := extentEntries s1 e
      let x := ws.foldl (fun (acc : Bool × State) w => if acc.1 then reportRecalled acc.2 w else acc) (true, s1)
      (x.1 = false → exec (.revokeDrainDone ext) s = .next x.2) ∧
      (x.1 = true → exec (.revokeDrainDone ext) s = .next { ws.foldl (fun v w => recallEntry v ext w) x.2 with
        revokes := s.revokes.map (fun r => if r.ext = ext then { r with recalling := true } else r) })) ∧
    (∀ w, ((dirOf s w).st = .lost → recallEntry s ext w = setDir s w {}) ∧
      ∀ n o, (dirOf s w).st ≠ .lost → windowOffset s w = some (n, o) → (lineOf s (o / 256)).active = none → lineWindow s (o / 256) = some w → w ∉ s.coh.rebuild →
        ∃ t tr, recallEntry s ext w = t ∧ (lineOf t (o / 256)).active = some tr ∧ tr.req.origin = .recallFor ext ∧ tr.rebuilding = false ∧ tr.refusal = none ∧
          tr.snoops.map (fun x => (x.slot, x.invalidate)) = match (failEntry s (dirOf s w)).st with
            | .em => [((failEntry s (dirOf s w)).ownerSlot, true)]
            | .s => (failEntry s (dirOf s w)).sharers.map (fun n => (n, true))
            | _ => []) ∧
    (∀ line w t, (lineOf s line).active = some t → transReady s line = true → t.rebuilding = false → t.req.origin = .recallFor ext → lineWindow s line = some w →
      let k := homeRegion s (line * 256)
      ∃ v, dirOf v w = {} ∧ (∀ j, j ≠ w → dirOf v j = dirOf s j) ∧ v.mem = s.mem ∧ v.wire = s.wire ∧ exec (.transactionComplete line) s = .next (advanceLine
        (t.foldedReqs.foldl (fun u q => answerDone u k { req := q, ans := { status := if q.counted then 0x00 else 0x11 } }) v) k line t)) ∧
    (recalled s ext = true →
      let u := (s.mem.sab.filter (fun x => x.ext == ext)).foldl commitEntry s
      let scrubs := fun (u t : State) => let e := extentOf u ext
        extentOf t ext = { e with st := .scrubbing, scrubDone := 0 } ∧ (∀ m, m ≠ ext → extentOf t m = extentOf u m) ∧ (∀ r ∈ t.revokes, r.ext ≠ ext) ∧ (∀ x ∈ t.mem.sab, x.ext ≠ ext) ∧
        (∀ o, e.base * 2 ^ 21 ≤ o → o < (e.base + e.size) * 2 ^ 21 → validAt t o = false) ∧
        (e.coherent = true → ∀ w, e.dirBase ≤ w / 8192 → w / 8192 < e.dirBase + e.size → dirOf t w = {}) ∧ t.wire = u.wire ∧ t.mem.bytes = u.mem.bytes
      (∀ h b, s.revokes.find? (fun r => r.ext == ext) = some { ext := ext, waits := .order h, recalling := b } →
        ∃ t, exec (.revokeRecallDone ext) s = .next (advanceRemovals (finish t h 0x0102 0x00)) ∧ scrubs u t) ∧
      (∀ n b, s.revokes.find? (fun r => r.ext == ext) = some { ext := ext, waits := .removal n, recalling := b } →
        let s1 := if tenantQuiet s n then eraseKeys s n else s
        ((∀ x, tenantOf? s1 n = some x → x.keysErased = true) →
          ∃ t, exec (.revokeRecallDone ext) s = .next (advanceRemovals t) ∧ scrubs ((s1.mem.sab.filter (fun x => x.ext == ext)).foldl commitEntry s1) t) ∧
        (∀ x, tenantOf? s1 n = some x → x.keysErased = false → exec (.revokeRecallDone ext) s = .next s))) ∧
    (e.st = .scrubbing → e.scrubDone < e.size → zeroOpen s e = true →
      exec (.extentZeroingStep ext) s = .next (modExtent ((List.range 512).foldl (fun s i => zeroStripe s e ((e.base + e.scrubDone) * 2 ^ 21 + 4096 * i)) s) ext
        (fun x => { x with scrubDone := x.scrubDone + 1 }))) ∧
    (e.st = .scrubbing → e.scrubDone = e.size → exec (.extentScrubDone ext) s = .next (setExtent s ext { generation := e.generation }))

/-- CHANNEL_ISSUE (05, R123 to R126): one controller cycle takes the burst that the order of R125 picks. On a bank with no open row its row opens; on its open row it leaves its queue and counts towards the turn; on another row the bank closes. The command enters the retry buffer. No other pseudo-channel changes. Direction and order of bursts (05, R124, R125): a turn waits for 16 bursts or an empty queue (log entry 27); of the current direction the oldest burst that has waited 2 µs goes first, then the oldest hit on an open row, then the oldest. What rests on log entries 10 and 27 is the model's choice. -/
def Obligations.ChannelIssuesBursts : Prop :=
  (
    ∀ (s : State) (p c pc : Nat) (b : Burst), pcIssues s p c pc = true → hasBursts s p c pc = true →
      let key := (p * 32 + c) * 2 + pc
      let q := turn { pchanOf s p c pc with retry := retryLive s p (pchanOf s p c pc) }
      let now := s.time.clock
      let bank := placeBank b.place
      (∀ w ∈ s.mem.stripeWait, w.1 ≠ key) → q.retry.length < 64 → pickBurst now q = some b →
      let q1 := { q with bankPtr := (bank + 1) % 64 }
      ∃ t, exec (.channelIssue p c pc) s = .next t ∧
        { t with mem := { t.mem with chans := s.mem.chans, pchans := s.mem.pchans } } = s ∧
        (∀ n m i, (n * 32 + m) * 2 + i ≠ key → pchanOf t n m i = pchanOf s n m i) ∧
        (tget? q.openRows bank = none → pchanOf t p c pc = { q1 with openRows := tset q.openRows bank (placeRow b.place), retry := q.retry ++ [(.row bank, now)] }) ∧
        (tget? q.openRows bank = some (placeRow b.place) → pchanOf t p c pc =
          { q1 with reads := q.reads.filter (· ≠ b), writes := q.writes.filter (· ≠ b), sinceTurn := q.sinceTurn + 1, retry := q.retry ++ [(.column b, now)] }) ∧
        (∀ r, tget? q.openRows bank = some r → r ≠ placeRow b.place → pchanOf t p c pc = { q1 with openRows := tdel q.openRows bank, retry := q.retry ++ [(.row bank, now)] })) ∧
  (
    ∀ (t : Nat) (q : PChan),
      let l := if q.writing then q.writes else q.reads
      let late := fun (b : Burst) => b.since + 500 ≤ t
      ((turn q).writing ≠ q.writing → 16 ≤ q.sinceTurn ∨ l = []) ∧
      (q.writing = false → 48 ≤ q.writes.length → 16 ≤ q.sinceTurn → (turn q).writing = true) ∧
      (q.writing = true → q.writes.length ≤ 16 → q.reads ≠ [] → 16 ≤ q.sinceTurn → (turn q).writing = false) ∧
      (∀ b, pickBurst t q = some b → b ∈ l ∧ ((∃ x ∈ l, late x) → late b ∧ ∀ x ∈ l, late x → b.since ≤ x.since) ∧
        ((∀ x ∈ l, ¬late x) → (∃ x ∈ l, rowHit q x = true) → rowHit q b = true ∧ ∀ x ∈ l, rowHit q x = true → b.since ≤ x.since) ∧
        ((∀ x ∈ l, ¬late x) → (∀ x ∈ l, rowHit q x = false) → ∀ x ∈ l, b.since ≤ x.since)))

/-- Refresh, retraining and parity replay of a channel (05, R115, R126, R129, R131 to R134): a due refresh, or one the stack asks for, closes its bank's row and sets its next deadline; a retraining pause closes its pseudo-channel's rows and writes the training patterns, through the retry buffer, stops the pseudo-channel and sets the next of the four centres, and the fourth good one ends the retraining; a pause outside the margin runs again, and the second time the channel is fenced; an alert stops issue, and the replay that holds the window sends the suspect commands again in order. What rests on log entries 3, 8, 10 and 27 is the model's choice. -/
def Obligations.ChannelUpkeep : Prop :=
  ∀ (s : State) (p c pc bank : Nat),
    let x := chanOf s p c
    let q := pchanOf s p c pc
    let now := s.time.clock
    let busy := fun (s : State) => modChan s p c (fun x => { x with lastActivity := now })
    let training := { s with mem := { s.mem with patterns := tset s.mem.patterns (p * 32 + c) ((List.range 9).map Config.trainingPattern) } }
    let pattern := issueCmds training p c (x.pauseNext % 2) (.closeAll :: patternCmds s (x.pauseNext % 2))
    let paused := modPchan (modChan pattern p c (fun x => { x with pausing := true, lastPause := some now, lastActivity := now })) p c (x.pauseNext % 2) (fun q => { q with openRows := [] })
    let interval := if (stackOf s p).refresh2x then Config.refreshInterval / 2 else Config.refreshInterval
    let trained := fun (y : Chan) => ∃ sets lanes, { y with fullTraining := x.fullTraining, rejoin := x.rejoin } = { x with
      shadow := sets, laneRepair := lanes, modes := {}, lastRetrain := now, lastActivity := now, refreshBy := now + interval, timing := (stackOf s p).rate,
      centres := tget sets (stackOf s p).rate x.centres }
    (chanRuns s p c = true → replays s p c = false → (x.pausing = true → x.pauseNext % 2 ≠ pc) → (retryLive s p q).length < 64 →
      refreshAt s p c pc bank ≤ now ∨ Config.refreshManaged (((p * 32 + c) * 2 + pc) * 64 + bank) now = true →
      exec (.refreshDue p c pc bank) s = .next (modPchan (busy s) p c pc (fun q =>
        { q with refreshBy := tset q.refreshBy bank (now + interval), openRows := tdel q.openRows bank, retry := retryLive s p q ++ [(.refresh bank, now)] }))) ∧
    (∀ i l, i ≠ pc → (pchanOf (issueCmds s p c pc l) p c pc = { q with retry := retryLive s p q ++ l.map (fun y => (y, now)) }) ∧ pchanOf (issueCmds s p c pc l) p c i = pchanOf s p c i) ∧
    (pauseFits s p c = true →
      (x.rerun = false → x.pauseNext ≠ 0 ∨ x.retrainForced = true ∨ x.lastRetrain + 12500000 ≤ now → exec (.retrainDue p c) s = .next paused) ∧
      (x.rerun = true → exec (.retrainRerunDue p c) s = .next paused)) ∧
    (x.pausing = true →
      (x.pauseNext < 3 → ∃ t centre, exec (.retrainPauseDone p c true) s = .next t ∧
        { t with time := s.time, mem := { t.mem with chans := s.mem.chans } } = s ∧ chanOf t p c = { x with
          pausing := false, rerun := false, centres := x.centres.set x.pauseNext centre, shadow := tset x.shadow x.timing (x.centres.set x.pauseNext centre), pauseNext := x.pauseNext + 1 }) ∧
      (x.pauseNext = 3 → ∃ t centre, exec (.retrainPauseDone p c true) s = .next t ∧ (chanOf t p c).pausing = false ∧ (chanOf t p c).pauseNext = 0 ∧ (chanOf t p c).lastRetrain = now ∧
        (chanOf t p c).centres = x.centres.set 3 centre ∧ (chanOf t p c).retrainForced = false ∧ stackOf t p = { stackOf s p with retrains := satInc 32 (stackOf s p).retrains }) ∧
      (x.rerun = false → exec (.retrainPauseDone p c false) s = .next (modChan s p c (fun x => { x with pausing := false, rerun := true }))) ∧
      (x.rerun = true → exec (.retrainPauseDone p c false) s =
        .next (raiseR (modChan s p c (fun x => { x with pausing := false, rerun := true })) (p / 5) (unitId 0x01 (p % 5 * 32 + c)) Cause.retrainFail))) ∧
    (x.fullTraining = true →
      exec (.channelFullTrainDone p c false) s = .next (modChan s p c (fun x => { x with fullTraining := false })) ∧
      ((stackOf s p).mapped = true → spareUsable s (p / 5) = false → tget? s.mem.evacs (p / 5) = none → x.rejoined = false →
        ∃ t, exec (.channelFullTrainDone p c true) s = .next t ∧ trained (chanOf t p c) ∧ (chanOf t p c).fullTraining = false ∧ (chanOf t p c).rejoin = some 0 ∧
          { t with time := s.time, mem := { t.mem with chans := s.mem.chans, pchans := s.mem.pchans, patterns := s.mem.patterns } } = s) ∧
      (x.rejoined = true → ∃ t, exec (.channelFullTrainDone p c true) s = .next t ∧ trained (chanOf t p c) ∧ (chanOf t p c).fullTraining = false ∧ (chanOf t p c).rejoin = x.rejoin)) ∧
    (chanRuns s p c = true → q.replaying = false →
      ∃ t, exec (.parityAlert p c pc) s = .next t ∧ pchanOf t p c pc = { q with replaying := true, retry := retryLive s p q } ∧ (chanOf t p c).pausing = false ∧
        (chanOf t p c).replays = x.replays ++ [pc] ∧
        (chanOf t p c).alerts = x.alerts.filter (fun a => now ≤ a + 2500) ++ [now] ∧ { t with mem := { t.mem with chans := s.mem.chans, pchans := s.mem.pchans } } = s) ∧
    (q.replaying = true → (∃ rest, x.replays = pc :: rest) → x.alertsSince < 3 → x.alerts.length < 3 →
      ∃ t, exec (.parityReplayDone p c pc) s = .next t ∧ pchanOf t p c pc = reissue s p q ∧ (pchanOf t p c pc).replaying = false ∧ (chanOf t p c).replays = x.replays.drop 1 ∧
        (pchanOf t p c pc).retry = q.retry.map (fun e => (e.1, now)) ∧ stackOf t p = { stackOf s p with parityReplays := satInc 32 (stackOf s p).parityReplays }) ∧
    (q.replaying = true → (∃ rest, x.replays = pc :: rest) → x.alertsSince < 3 → 3 ≤ x.alerts.length → ∃ t, exec (.parityReplayDone p c pc) s = .next t ∧ (chanOf t p c).retrainForced = true) ∧
    (q.replaying = true → (∀ rest, x.replays ≠ pc :: rest) → exec (.parityReplayDone p c pc) s = .next s)

/-- STACK_TEMP_READ (05, R129, R130, R137, Table 5.10): a reading below the trip value is held, refresh runs at twice the rate above 85 °C, and the thermal limit follows the reading; one of 105 °C trips; a failed reading halves the refresh interval, and the tenth in a row fences the temperature path. Self-refresh, changes of rate and the start of a stack (05, R135 to R141): an idle channel's rows close and it enters self-refresh; a burst or claimant brings it back with every bank fresh; a change of rate takes the stack out of its running state and ends at the limit it began with, its channels awake on that rate's timing set, with its NOTE; a trained stack serves at 8.0 Gb/s under its logical name; the metadata area is zeroed. After a step up the run of cool readings begins anew (log entry 27). What rests on log entries 3, 22 and 27 is the model's choice. -/
def Obligations.StackStatesAndTemperatures : Prop :=
  (
    ∀ (s : State) (p t : Nat), let x := stackOf s p; x.st ≠ .off → x.st ≠ .fenced →
      (t < 105 → ∃ u run lim w, exec (.stackTempRead p (some t)) s = .next u ∧
          stackOf u p = { x with temp := t, tempFails := 0, refresh2x := x.tempFenced || decide (85 < t), lastHot := decide (95 ≤ t), coolReadings := run, thermalLimit := lim,
                                 ownerLimit := if x.st = .rateChange then x.ownerLimit else x.newLimit.getD x.ownerLimit, newLimit := if x.st = .rateChange then x.newLimit else none, limitWaits := w } ∧
          (w = x.limitWaits ∨ w = []) ∧ (x.tempFenced = true → lim = 2) ∧
          (x.tempFenced = false →
            (100 ≤ t → lim = 2) ∧ (95 ≤ t → t < 100 → lim = max 1 x.thermalLimit) ∧ (90 < t → t < 95 → lim = x.thermalLimit ∧ run = 0) ∧
            (t ≤ 90 → x.coolReadings + 1 < 100 → lim = x.thermalLimit ∧ run = x.coolReadings + 1) ∧ (t ≤ 90 → 100 ≤ x.coolReadings + 1 → lim = x.thermalLimit - 1 ∧ run = 0))) ∧
      (105 ≤ t → s.power.stage = .running → ∃ u, exec (.stackTempRead p (some t)) s = .next u ∧ u.power.thermtrip = true ∧ (s.power.thermtrip = false → u.power.stage = .poweringDown ∧ u.hub.ready = false)) ∧
      (∃ u, exec (.stackTempRead p none) s = .next u ∧ (stackOf u p).temp = x.temp ∧ (stackOf u p).tempFails = x.tempFails + 1 ∧ (stackOf u p).refresh2x = true ∧
        (x.tempFails + 1 = 10 → (stackOf u p).tempFenced = true) ∧ (x.tempFails + 1 = 10 → x.tempFenced = false → (stackOf u p).thermalLimit = 2) ∧
        (x.tempFails + 1 ≠ 10 → (stackOf u p).tempFenced = x.tempFenced ∧ (stackOf u p).thermalLimit = x.thermalLimit))) ∧
  (
    ∀ (s : State) (p c l : Nat),
      let now := s.time.clock
      let x := stackOf s p
      let interval := if x.refresh2x then Config.refreshInterval / 2 else Config.refreshInterval
      (∀ d, chanRuns s p c = true → chanIdle s p c = true → retrainDue s p c = false → refreshWaits s p c = false → (∀ pc < 2, (retryLive s p (pchanOf s p c pc)).length + 3 ≤ 64) →
        idleLimit s p = some d → (chanOf s p c).lastActivity + d ≤ now →
        ∃ t, exec (.selfRefreshEntry p c) s = .next t ∧ chanOf t p c = { chanOf s p c with selfRefresh := true, refreshBy := now + interval } ∧
          (∀ pc < 2, pchanOf t p c pc = { pchanOf s p c pc with refreshBy := [], openRows := [], retry := retryLive s p (pchanOf s p c pc) ++ [(.closeAll, now), (.refreshAll, now), (.sleep, now)] }) ∧
          { t with mem := { t.mem with chans := s.mem.chans, pchans := s.mem.pchans } } = s) ∧
      ((chanOf s p c).selfRefresh = true → chanIdle s p c = false → chanTested s p c = false →
        ∃ t, exec (.selfRefreshExit p c) s = .next t ∧ chanOf t p c = { chanOf s p c with selfRefresh := false, lastActivity := now, refreshBy := now + interval } ∧
          (∀ pc < 2, ∀ b < 64, refreshAt t p c pc b = now + interval) ∧ { t with mem := { t.mem with chans := s.mem.chans, pchans := s.mem.pchans } } = s) ∧
      (stackRuns x = true → stackQuiet s p = true → stackSliced s p = none → x.rate < rateLimit x ∨ rateLimit x < x.rate ∧ (∀ u, x.lastRateChange = some u → u + 25000000 ≤ now) →
        exec (.rateChangeStart p) s = .next (modStack s p (fun x => { x with st := .rateChange, rateTarget := rateLimit x }))) ∧
      (stackSliced s p = some false ∨ stackSliced s p = some true ∧ rateLimit x ≤ x.rate → exec (.rateChangeStart p) s = .next s) ∧
      (rateLimit x = x.rate ∨ stackRuns x = false ∨ stackQuiet s p = false → exec (.rateChangeStart p) s = .next s) ∧
      (x.st = .rateChange →
        ∃ t st w, exec (.rateChangeDone p) s = .next t ∧ stackOf t p = { x with rate := x.rateTarget, st := st, lastRateChange := some now, limitWaits := w } ∧
          (st = .serving ∨ st = .evacuating) ∧ (tget? s.mem.evacs (p / 5) = none → st = .serving) ∧ (w = x.limitWaits ∨ w = []) ∧
          (p < 20 → ∀ c < 32, chanTested s p c = false → (chanOf t p c).selfRefresh = false ∧ (chanOf t p c).timing = x.rateTarget ∧
            (chanOf t p c).centres = tget (chanOf s p c).shadow x.rateTarget (chanOf s p c).centres ∧ ∀ pc < 2, (pchanOf t p c pc).openRows = []) ∧
          (regFault t (p / 5)).lastNote = 0x0D ∧ (regFault t (p / 5)).noteCount = ((regFault s (p / 5)).noteCount + 1) % 256) ∧
      (x.st = .training → (∃ t, exec (.stackTrainingDone p true) s = .next t ∧
          stackOf t p = { x with st := .serving, mapped := true, rate := 0, scrubStart := now, scrubPointer := 0 } ∧ p ∈ t.power.stacksTrained) ∧
        exec (.stackTrainingDone p false) s =
          .next (raiseR { s with power := { s.power with stacksTrained := s.power.stacksTrained.filter (· ≠ p) ++ [p] } } (p / 5) (unitId 0x02 (p % 5)) Cause.stackTrainFail)) ∧
      (servedBy s l = some p → s.hub.ready = false → l ∉ s.mem.metadataDone →
        ∃ t, exec (.metadataWriteDone l) s = .next t ∧ l ∈ t.mem.metadataDone ∧
          { t with mem := { t.mem with bytes := s.mem.bytes, ecc := s.mem.ecc, metadataDone := s.mem.metadataDone } } = s ∧
          (∀ a, chunkAddr p 14680064 0 ≤ a → a < chunkAddr p 15790304 0 → readByte t.mem.bytes a = 0) ∧
          (∀ a, a < chunkAddr p 14680064 0 ∨ chunkAddr p 15790304 0 ≤ a → readByte t.mem.bytes a = readByte s.mem.bytes a)))

/-- STRIPE_ENTRY_HOLD_EXPIRY, STRIPE_COMMIT, STRIPE_LOCK_GRANT (06, R152, R153, R156): 100 µs after it opened an entry is due; a due entry of an unlocked stripe commits and is gone; a free lock goes to the request that the rotating pointer finds, after the stripe's open entry has committed. A stripe written whole commits without reading (06, R144, R153): where its stack serves alone and no channel of it is fenced or under test, the 16 data chunks hold the entry's data, the parity chunk their exclusive or, and no other byte of any stack changes. What rests on log entries 3 and 24 is the model's choice. -/
def Obligations.StripesCommit : Prop :=
  (
    ∀ (s : State) (l stripe : Nat) (e : SabEntry),
      (sabAt s l stripe = some e → e.openedAt + 25000 ≤ s.time.clock → exec (.stripeEntryHoldExpiry l stripe) s = .next (sabPut s { e with due := true })) ∧
      (sabAt s l stripe = some e → e.due = true → stripeLocked s l stripe = false →
        ∃ t, exec (.stripeCommit l stripe) s = .next t ∧ t = commitEntry s e ∧ sabAt t l stripe = none) ∧
      (∀ i, stripeLocked s l stripe = false →
        let asks := fun (i : Nat) => s.mem.locks.any (fun k => k.lstack == l && k.stripe == stripe && k.kind == lockKinds.getD i .scrub)
        let key := l * 2 ^ 24 + stripe
        let s1 := commitOpen s l stripe
        rotate 6 (tget s.mem.lockPtrs key 0) asks = some i →
        exec (.stripeLockGrant l stripe) s = .next { s1 with mem := { s1.mem with lockPtrs := tset s1.mem.lockPtrs key ((i + 1) % 6), locks := s1.mem.locks.map (fun k =>
          if k.lstack == l && k.stripe == stripe && k.kind == lockKinds.getD i .scrub then { k with held := true } else k) } })) ∧
  (
    ∀ (s : State) (e : SabEntry) (p : Nat), servedBy s e.lstack = some p → tget? s.mem.evacs (e.lstack / 4) = none → (stackOf s p).fencedChans = [] →
      (bistOf s (p / 5)).current = none → (bistOf s (p / 5)).walking = none →
      (∀ k < 16, e.mask.getD k 0 = BitVec.allOnes 32 ∧ e.bad.getD k 0 = 0) → e.poison = 0 → Memory.wf s.mem.bytes →
      let t := commitEntry s e
      (∀ k < 16, storedLine t p e.stripe k = e.data.getD k 0) ∧
      storedLine t p e.stripe 16 = (List.range 16).foldl (fun x k => x ^^^ e.data.getD k 0) 0 ∧
      (∀ a, a < chunkAddr p e.stripe 0 ∨ chunkAddr p e.stripe 17 ≤ a → readByte t.mem.bytes a = readByte s.mem.bytes a))

/-- CORRECTIVE_REWRITE, ROW_REPAIR, SCRUB_STRIPE, SCRUB_PERIOD_END (06, R147, R156, R158, R159, R161 to R163), where no other holder wants the stripe and no entry of it is open: the chunk that still errs is written back and a second error asks for its row's repair; a due row is repaired, or noted where its bank has no spare row left; the scrubber waits for repairs and rewrites of its channel, else passes the next stripe in use, or keeps its lock where a channel's window has closed to it, and after the last stripe starts its next pass. What rests on log entries 3, 10 and 22 is the model's choice. -/
def Obligations.StoredDataUpkeep : Prop :=
  ∀ (s : State) (p c l stripe pos place : Nat),
    let free := fun (stripe : Nat) (kind : LockKind) => lockFree s l stripe kind = true ∧ sabAt s l stripe = none
    (∀ r err, s.mem.rewrites.find? (fun r => r.lstack == l && r.stripe == stripe && r.pos == pos) = some r → readStack s l stripe = some p → zeroingOn s l = false → stackRuns (stackOf s p) = true → windowOpen s p (chanOfPos stripe pos) = true → free stripe .rewrite →
      let s1 := { s with mem := { s.mem with rewrites := s.mem.rewrites.filter (· ≠ r) } }
      let s2 := if showsError s1 p stripe pos then putChunk s1 l stripe pos (some r.data) else s1
      exec (.correctiveRewrite l stripe pos err) s =
        .next (dropLock (if err then rowTrigger s2 p (chanOfPos stripe pos) (placeOf stripe pos) else s2) l stripe .rewrite)) ∧
    (let r : RowRef := { stack := p, chan := c, row := place >>> 2 }
     r ∈ s.mem.rowsDue →
      (Config.spareRows ≤ tget s.mem.repairs (bankNo p c place) 0 →
        exec (.rowRepair p c place) s = .next (noteR (modStack (rowDone s r) p (fun x => { x with repairExhausted := true })) (p / 5) (stackUnit p) Cause.rowRepairExhausted)) ∧
      (tget s.mem.repairs (bankNo p c place) 0 < Config.spareRows → windowFor s p c (placePc place) 1000 = true → zeroingOn s ((stackServes s p).getD 16) = false → reservedRoom s (p / 5) 4 = true →
        (∀ x ∈ heldChunks s p c (place >>> 2), lockFree s ((stackServes s p).getD 16) x.1 .rowRepair = true) → exec (.rowRepair p c place) s = .next (repairRow (rowDone s r) p c place))) ∧
    ((stackOf s p).mapped = true → stackRuns (stackOf s p) = true → (stackOf s p).logicalId = l → (∀ k ∈ s.mem.locks, k.lstack = l → k.kind = .scrub → k.held = false) → reservedRoom s (p / 5) 1 = true →
      let next := nextUsed s l (stackOf s p).scrubPointer
      (next < 15790304 → patrolWaits s p l next 0 = true → exec (.scrubStripe p) s = .next s) ∧
      (next < 15790304 → patrolWaits s p l next 0 = false → free next .scrub → ∃ t, exec (.scrubStripe p) s = .next t ∧ t = scrubStripe l p next s ∧
        ((stackOf t p).scrubPointer = next + 1 ∧ (stackOf t p).scrubChunk = 0 ∨ (stackOf t p).scrubChunk < 17 ∧ holdsLock t l next .scrub = true)) ∧
      (15790304 ≤ next → exec (.scrubStripe p) s = .next (modStack s p (fun x =>
        { x with scrubPasses := (x.scrubPasses + 1) % 2 ^ 32, scrubPointer := 0, scrubLate := false, scrubStart := s.time.clock })))) ∧
    ((stackOf s p).mapped = true → (stackOf s p).scrubStart + s.mem.scrubMin * 60 * 250000000 ≤ s.time.clock →
      exec (.scrubPeriodEnd p) s = .next (modStack s p (fun x => { x with scrubLate := true })))

/-- CHANNEL_REJOIN_STEP and CHANNEL_REJOINED (06, R164): the rejoin passes the next stripe in use, writing its chunk where it uses the channel; after the last stripe the channel leaves CHANNELS_FENCED. Evacuation to the spare stack (06, R165 to R168): it begins with both stacks EVACUATING; a spare that a test has trained takes the copy up at once, another first trains; the trained spare starts the copy at stripe 0 at the rate of the old stack, the copy passes the next stripe in use, and at cutover the spare alone serves the logical stack and the old one is fenced; a spare that fails first is SPARE_FAILED. What rests on log entry 3 is the model's choice. -/
def Obligations.RejoinAndEvacuation : Prop :=
  (
    ∀ (s : State) (p c ptr : Nat), (chanOf s p c).rejoin = some ptr →
      let l := (stackOf s p).logicalId
      let next := nextUsed s l ptr
      ((stackOf s p).mapped = true → stackRuns (stackOf s p) = true → reservedRoom s (p / 5) 1 = true → next < 15790304 →
        (posOfChan c next = none → exec (.channelRejoinStep p c) s = .next (modChan s p c (fun x => { x with rejoin := some (next + 1) }))) ∧
        ((posOfChan c next).isSome = true → lockFree s l next .rejoin = true → sabAt s l next = none →
          ∃ t, exec (.channelRejoinStep p c) s = .next t ∧ t = dropLock (modChan (rejoinStripe s p c l next) p c (fun x => { x with rejoin := some (next + 1) })) l next .rejoin ∧
            (chanOf t p c).rejoin = some (next + 1))) ∧
      (15790304 ≤ next → ∃ t, exec (.channelRejoined p c) s = .next t ∧ c ∉ (stackOf t p).fencedChans ∧ (∀ d, d ≠ c → d ∈ (stackOf s p).fencedChans → d ∈ (stackOf t p).fencedChans) ∧
        { chanOf t p c with refreshBy := (chanOf s p c).refreshBy } = { chanOf s p c with rejoin := none, rejoined := true, selfRefresh := false, lastActivity := s.time.clock } ∧ t.mem.bytes = s.mem.bytes)) ∧
  (
    ∀ (s : State) (k : Nat) (e : Evac), tget? s.mem.evacs k = some e → e.old ≠ e.spare →
      let next := nextUsed s e.lstack e.pointer
      ((stackOf s e.spare).evacState = .none → (stackOf s e.spare).st = .serving → (stackOf s e.old).st = .serving →
        ∃ t, exec (.evacuationStart k) s = .next t ∧ stackOf t e.old = { stackOf s e.old with st := .evacuating, evacState := .copying, evacPointer := 0 } ∧
          stackOf t e.spare = { stackOf s e.spare with st := .evacuating, evacState := .copying, evacPointer := 0, rate := (stackOf s e.old).rate } ∧
          tget? t.mem.evacs k = some { e with copying := true } ∧ { t with mem := { t.mem with stackTab := s.mem.stackTab, evacs := s.mem.evacs, chans := s.mem.chans } } = s) ∧
      ((stackOf s e.spare).evacState = .none → (stackOf s e.spare).st ≠ .serving → (stackOf s e.old).st = .serving →
        ∃ t, exec (.evacuationStart k) s = .next t ∧ stackOf t e.old = { stackOf s e.old with st := .evacuating, evacState := .trainingSpare, evacPointer := 0 } ∧
          stackOf t e.spare = { stackOf s e.spare with st := .evacuating, evacState := .trainingSpare, evacPointer := 0, rate := (stackOf s e.old).rate } ∧
          (∀ p, p ≠ e.old → p ≠ e.spare → stackOf t p = stackOf s p) ∧ tget? t.mem.evacs k = some { e with copying := false } ∧
          { t with mem := { t.mem with stackTab := s.mem.stackTab, evacs := s.mem.evacs } } = s) ∧
      ((stackOf s e.spare).evacState ≠ .none → e.copying = false →
        ∃ t, exec (.spareTrained k) s = .next t ∧ stackOf t e.old = { stackOf s e.old with evacState := .copying, evacPointer := 0 } ∧
          stackOf t e.spare = { stackOf s e.spare with st := .evacuating, evacState := .copying, evacPointer := 0, rate := (stackOf s e.old).rate } ∧
          tget? t.mem.evacs k = some { e with copying := true } ∧ { t with time := s.time, life := s.life, mem := { t.mem with stackTab := s.mem.stackTab, evacs := s.mem.evacs, chans := s.mem.chans, pchans := s.mem.pchans, patterns := s.mem.patterns } } = s) ∧
      (e.copying = true → (stackOf s e.old).st ≠ .rateChange →
        ((stackOf s e.spare).st ≠ .rateChange → next < 15790304 → reservedRoom s k 1 = true → lockFree s e.lstack next .copier = true → sabAt s e.lstack next = none →
          ∃ t, exec (.evacuationCopyStripe k) s = .next t ∧ tget? t.mem.evacs k = some { e with pointer := next + 1 } ∧ (stackOf t e.old).evacPointer = next + 1 ∧
            (stackOf t e.spare).evacPointer = next + 1) ∧
        (15790304 ≤ next → ∃ t, exec (.evacuationCutover k) s = .next (e.waits.foldl (fun s h => finish s h 0x0155 0x00 [BitVec.ofNat 8 EvacState.done.code]) t) ∧ tget? t.mem.evacs k = none ∧
          (stackOf t e.old).mapped = false ∧ (stackOf t e.old).st = .fenced ∧ (stackOf t e.spare).mapped = true ∧ (stackOf t e.spare).st = .serving ∧
          (stackOf t e.spare).logicalId = e.lstack ∧ t.mem.bytes = s.mem.bytes)) ∧
      exec (.evacuationAbandon k) s = .next (raiseR s k (unitId 0x02 (e.spare % 5)) Cause.spareFailed))

/-- Integer immediates (08, R207, Table 8.3): the register named by D takes the value, the thread goes on at the next word, nothing else changes. POP and RDS (08, Tables 8.5 and 8.6). A write to p0 changes nothing, and p0 reads as all ones (R205). -/
def Obligations.ScalarInstructions : Prop :=
  (
    ∀ (s : State) (t : ThreadRef) (f : Fields) (p : Spray) (th : Thread),
      let a := th.sregs.getD f.a.toNat 0
      let imm := f.fn.signExtend 64
      let imm21 := f.a ++ f.b ++ f.fn
      let gives := fun (i : Instr) (v : Word) => exec i s = .next (issued s t { th with sregs := th.sregs.set f.d.toNat v, pc := nextPc th })
      let da := [f.d.toNat, f.a.toNat]
      (f.b = 0 →
        (Ready s t 0x02 f da p th → gives (.addi t f) (a + imm)) ∧
        (Ready s t 0x03 f da p th → gives (.andi t f) (a &&& imm)) ∧
        (Ready s t 0x04 f da p th → gives (.ori t f) (a ||| imm)) ∧
        (Ready s t 0x05 f da p th → gives (.xori t f) (a ^^^ imm)) ∧
        (Ready s t 0x09 f da p th → gives (.slti t f) (if a.toInt < imm.toInt then 1 else 0)) ∧
        (f.fn.toNat < 64 →
          (Ready s t 0x06 f da p th → gives (.shli t f) (a <<< f.fn.toNat)) ∧
          (Ready s t 0x07 f da p th → gives (.shri t f) (a >>> f.fn.toNat)) ∧
          (Ready s t 0x08 f da p th → gives (.srai t f) (a.sshiftRight f.fn.toNat)))) ∧
      (Ready s t 0x0A f [f.d.toNat] p th → gives (.li t f) (imm21.signExtend 64)) ∧
      (Ready s t 0x0B f [f.d.toNat] p th → gives (.lis t f) ((th.sregs.getD f.d.toNat 0 <<< 21) ||| imm21.zeroExtend 64))) ∧
  (
    ∀ (s : State) (t : ThreadRef) (f : Fields) (p : Spray) (th : Thread),
      let p0 := fun (x : BitVec 5) => if x.toNat = 0 then BitVec.allOnes 64 else th.preds.getD x.toNat 0
      let toP := fun (v : Word) => exec (.pop t f) s =
        .next (issued s t { th with preds := if f.d.toNat = 0 then th.preds else th.preds.set f.d.toNat v, pc := nextPc th })
      let toS := fun (i : Instr) (v : Word) => exec i s = .next (issued s t { th with sregs := th.sregs.set f.d.toNat v, pc := nextPc th })
      let sa := th.sregs.getD f.a.toNat 0
      (f.d.toNat < 8 → f.b = 0 → Ready s t 0x0C f [f.a.toNat] p th →
        (f.fn = 0 → toP sa) ∧ (f.fn = 6 → toP (if 64 ≤ sa.toNat then BitVec.allOnes 64 else BitVec.ofNat 64 (2 ^ sa.toNat - 1)))) ∧
      (f.a.toNat < 8 → f.b = 0 → f.fn = 1 → Ready s t 0x0C f [f.d.toNat] p th → toS (.pop t f) (p0 f.a)) ∧
      (f.d.toNat < 8 → f.a.toNat < 8 → Ready s t 0x0C f [] p th →
        (f.b.toNat < 8 → (f.fn = 2 → toP (p0 f.a &&& p0 f.b)) ∧ (f.fn = 3 → toP (p0 f.a ||| p0 f.b)) ∧ (f.fn = 4 → toP (p0 f.a ^^^ p0 f.b))) ∧
        (f.b = 0 → f.fn = 5 → toP (~~~ p0 f.a))) ∧
      (f.a = 0 → f.b = 0 → Ready s t 0x0D f [f.d.toNat] p th →
        let rds := fun (n : Nat) => toS (.rds t f) (BitVec.ofNat 64 n)
        (f.fn = 0 → rds s.time.timebase) ∧ (f.fn = 1 → rds th.placed) ∧ (f.fn = 2 → rds t.thread) ∧ (f.fn = 3 → rds p.id) ∧ (f.fn = 4 → rds (s.hub.endpointId.getD 0)) ∧
        (f.fn = 5 → rds p.total) ∧ (f.fn = 6 → rds (bits p.desc.toNat 113 104 * 1024)) ∧ (f.fn = 7 → rds (bits p.desc.toNat 23 8))))

/-- ALU (08, R208, Table 8.4): each function's result, as exact arithmetic on the operands. -/
def Obligations.AluFunctions : Prop :=
  ∀ (s : State) (t : ThreadRef) (f : Fields) (p : Spray) (th : Thread), Ready s t 0x01 f [f.d.toNat, f.a.toNat, f.b.toNat] p th → f.fn.toNat ≤ 0x12 →
    let a := th.sregs.getD f.a.toNat 0
    let b := th.sregs.getD f.b.toNat 0
    let m := 2 ^ 64
    ∃ v : Word, exec (.alu t f) s = .next (issued s t { th with sregs := th.sregs.set f.d.toNat v, pc := nextPc th }) ∧
      (f.fn = 0x00 → v.toNat = (a.toNat + b.toNat) % m) ∧
      (f.fn = 0x01 → v.toInt = (a.toInt - b.toInt).bmod m) ∧
      (f.fn = 0x02 → ∀ i < 64, v.getLsbD i = (a.getLsbD i && b.getLsbD i)) ∧
      (f.fn = 0x03 → ∀ i < 64, v.getLsbD i = (a.getLsbD i || b.getLsbD i)) ∧
      (f.fn = 0x04 → ∀ i < 64, v.getLsbD i = (a.getLsbD i ^^ b.getLsbD i)) ∧
      (f.fn = 0x05 → v.toNat = a.toNat * 2 ^ (b.toNat % 64) % m) ∧
      (f.fn = 0x06 → v.toNat = a.toNat / 2 ^ (b.toNat % 64)) ∧
      (f.fn = 0x07 → v.toInt = a.toInt / 2 ^ (b.toNat % 64)) ∧
      (f.fn = 0x08 → v.toNat = a.toNat * b.toNat % m) ∧
      (f.fn = 0x09 → v.toNat = a.toNat * b.toNat / m) ∧
      (f.fn = 0x0A → v.toInt = a.toInt * b.toInt / m) ∧
      (f.fn = 0x0B → v.toInt = min a.toInt b.toInt) ∧
      (f.fn = 0x0C → v.toInt = max a.toInt b.toInt) ∧
      (f.fn = 0x0D → v.toNat = min a.toNat b.toNat) ∧
      (f.fn = 0x0E → v.toNat = max a.toNat b.toNat) ∧
      (f.fn = 0x0F → v.toNat = if a.toInt < b.toInt then 1 else 0) ∧
      (f.fn = 0x10 → v.toNat = if a.toNat < b.toNat then 1 else 0) ∧
      (f.fn = 0x11 → v.toNat = if b.toNat = 0 then m - 1 else a.toNat / b.toNat) ∧
      (f.fn = 0x12 → v.toNat = if b.toNat = 0 then a.toNat else a.toNat % b.toNat)

/-- Branches and jumps (08, Table 8.3): offsets are signed instruction counts from the branch itself, modulo the 24 bits of PC. What rests on log entry 17 is the model's choice. -/
def Obligations.ControlTransfers : Prop :=
  ∀ (s : State) (t : ThreadRef) (f : Fields) (p : Spray) (th : Thread),
    let a := th.sregs.getD f.a.toNat 0
    let b := th.sregs.getD f.b.toNat 0
    let imm21 := f.a ++ f.b ++ f.fn
    let at_ := fun (off : Int) => (((th.pc : Int) + off) % 2 ^ 24).toNat
    let goes := fun (i : Instr) (pc : Nat) => exec i s = .next (issued s t { th with pc := pc })
    let branch := fun (i : Instr) (c : Prop) [Decidable c] => goes i (if c then at_ f.fn.toInt else nextPc th)
    let pr := if f.d.toNat % 8 = 0 then BitVec.allOnes 64 else th.preds.getD (f.d.toNat % 8) 0
    (f.d = 0 →
      (Ready s t 0x10 f [f.a.toNat, f.b.toNat] p th → branch (.beq t f) (a = b)) ∧
      (Ready s t 0x11 f [f.a.toNat, f.b.toNat] p th → branch (.bne t f) (a ≠ b)) ∧
      (Ready s t 0x12 f [f.a.toNat, f.b.toNat] p th → branch (.blt t f) (a.toInt < b.toInt)) ∧
      (Ready s t 0x13 f [f.a.toNat, f.b.toNat] p th → branch (.bge t f) (b.toInt ≤ a.toInt)) ∧
      (Ready s t 0x14 f [f.a.toNat, f.b.toNat] p th → branch (.bltu t f) (a.toNat < b.toNat)) ∧
      (Ready s t 0x15 f [f.a.toNat, f.b.toNat] p th → branch (.bgeu t f) (b.toNat ≤ a.toNat)) ∧
      (Ready s t 0x17 f [] p th → goes (.jmp t f) (at_ imm21.toInt)) ∧
      (f.b = 0 → f.fn = 0 → Ready s t 0x19 f [f.a.toNat] p th → goes (.jr t f) (a.toNat % 2 ^ 24))) ∧
    (Ready s t 0x18 f [f.d.toNat] p th →
      exec (.jal t f) s = .next (issued s t { th with sregs := th.sregs.set f.d.toNat (BitVec.ofNat 64 (nextPc th)), pc := at_ imm21.toInt })) ∧
    (Ready s t 0x16 f [] p th →
      let bp := fun (c : Prop) [Decidable c] => goes (.bp t f) (if c then at_ imm21.toInt else nextPc th)
      (f.d.toNat / 8 = 0 → bp (pr ≠ 0)) ∧ (f.d.toNat / 8 = 1 → bp (pr = 0)) ∧ (f.d.toNat / 8 = 2 → bp (pr.toNat % 2 ^ 16 = 2 ^ 16 - 1)) ∧
      (f.d.toNat / 8 = 3 → bp (pr = BitVec.allOnes 64)))

/-- NOP, END, TRAP, FENCE and TWAIT (08, Table 8.3, R209, R214; 07, R184): END and TRAP end issue; FENCE and TWAIT go on where what they wait for has been performed, and change nothing before. An illegal word ends its thread with ILLEGAL_INSTRUCTION and takes no other effect, whichever instruction it names (08, R206): a reserved opcode, or a word beyond the code; here of NOP, ADDI and ALU also a set bit that they do not use, or a reserved function. -/
def Obligations.ThreadControlAndIllegalWords : Prop :=
  (
    ∀ (s : State) (t : ThreadRef) (f : Fields) (p : Spray) (th : Thread), f.d = 0 → f.a = 0 → f.b = 0 →
      let onward := issued s t { th with pc := nextPc th }
      (f.fn = 0 →
        (Ready s t 0x1D f [] p th → exec (.nop t f) s = .next onward) ∧
        (Ready s t 0x1A f [] p th → exec (.endInstr t f) s = .next (issued s t { th with pc := nextPc th, phase := .ending })) ∧
        (Ready s t 0x1C f [] p th → exec (.fence t f) s = .next (if threadTiles s t.engine t.thread = [] then onward else s))) ∧
      (f.fn.toNat < 256 → Ready s t 0x1B f [] p th →
        exec (.trap t f) s = .next (passPointer (dropFaulted (setThread s t.engine t.thread
          { th with pc := nextPc th, phase := .failing { status := Sts.threadTrap, detail := f.fn.toNat } }) t.engine t.thread) t)) ∧
      (f.fn.toNat < 8 → Ready s t 0x29 f [] p th → exec (.twait t f) s = .next (if th.tiles ≤ f.fn.toNat then onward else s))) ∧
  (
    ∀ (s : State) (t : ThreadRef) (f : Fields) (p : Spray) (th : Thread),
      threadOf? s t.engine t.thread = some th → sprayOf? s th.spray = some p → p.pool = false → mayIssue s t th = true →
      let ends := dropFaulted (setThread (passPointer s t) t.engine t.thread { th with phase := .failing { status := 0x8F } }) t.engine t.thread
      (fetchWord s p th = none → exec (.nop t f) s = .next ends ∧ exec (.ld t f) s = .next ends ∧ exec (.vdot t f) s = .next ends) ∧
      (∀ w, fetchWord s p th = some w → w.toNat / 2 ^ 26 ∉ listedOps → exec (.nop t f) s = .next ends ∧ exec (.ld t f) s = .next ends ∧ exec (.vdot t f) s = .next ends) ∧
      (fetchWord s p th = some (wordOf 0x1D f) → ¬(f.d = 0 ∧ f.a = 0 ∧ f.b = 0 ∧ f.fn = 0) → exec (.nop t f) s = .next ends) ∧
      (fetchWord s p th = some (wordOf 0x02 f) → f.b ≠ 0 → exec (.addi t f) s = .next ends) ∧
      (fetchWord s p th = some (wordOf 0x01 f) → 0x12 < f.fn.toNat → exec (.alu t f) s = .next ends))

/-- LD, ST, VLD and VST in scratch (space 1) and private memory (space 2) (07, R182, R183; 08, R210, R211): a scalar access aligns its address down to its size; a load writes its register, a store the bytes it names and no others; an access outside its window ends the thread SCRATCH_RANGE, one of private memory whose metadata gives no data ends it MEM_DATA_ERROR, with address 0, and neither takes another effect. VLDG, VSTG and ATOM in scratch (08, R211 to R213; 07, R186): sixteen groups a stride apart; an atomic returns the old word and stores its result at an address aligned to 8. The address 0 (log entry 27), which metadata chunk's fate an access takes (log entry 29) and what rests on log entry 17 are the model's choice. -/
def Obligations.LocalLoadsStoresAndAtomics : Prop :=
  (
    ∀ (s : State) (t : ThreadRef) (f : Fields) (p : Spray) (th : Thread) (space : Nat), memHeld s t false false = false → space = f.b.toNat / 8 → (space = 1 ∨ space = 2) →
      let size := 2 ^ (f.b.toNat / 2 % 4)
      let len := 64 - 16 * (f.b.toNat / 2 % 4)
      let low := f.b.toNat % 2
      let at_ := (th.sregs.getD f.a.toNat 0 + (f.fn.extractLsb' 0 10).signExtend 64).toNat
      let al := at_ / size * size
      let window := if space = 1 then th.scratchBytes else 2 ^ 20
      let got := fun (a n : Nat) => if space = 1 then readRange s.eng.scratch ((t.engine * 64 + t.thread) * 2 ^ 19 + a) n else readPriv s t.engine t.thread th.privValid a n
      let ends := .next (passPointer (failThread s t.engine t.thread { status := 0x90 }) t)
      let lost := .next (passPointer (failThread s t.engine t.thread { status := 0x8A, detail := 0x20 }) t)
      let bad := fun (a n : Nat) (write : Bool) => localFails s t th space a n write = true
      let puts := fun (i : Instr) (a : Nat) (bs : List Byte) =>
        (space = 1 → exec i s = .next (issued { s with eng := { s.eng with scratch := writeRange s.eng.scratch ((t.engine * 64 + t.thread) * 2 ^ 19 + a) bs } } t { th with pc := nextPc th })) ∧
        (space = 2 → exec i s = .next (issued (writePriv s t.engine t.thread th a bs).1 t { (writePriv s t.engine t.thread th a bs).2 with pc := nextPc th }))
      (Ready s t 0x20 f [f.d.toNat, f.a.toNat] p th →
        (al + size ≤ window → ¬bad al size false → exec (.ld t f) s = .next (issued s t { th with sregs := th.sregs.set f.d.toNat (extend size (low == 1) (ofLe (got al size))), pc := nextPc th })) ∧
        (al + size ≤ window → bad al size false → exec (.ld t f) s = lost) ∧
        (window < al + size → exec (.ld t f) s = ends)) ∧
      (low = 0 →
        (Ready s t 0x21 f [f.d.toNat, f.a.toNat] p th →
          (al + size ≤ window → ¬bad al size true → puts (.st t f) al (leBytes size (th.sregs.getD f.d.toNat 0).toNat)) ∧ (al + size ≤ window → bad al size true → exec (.st t f) s = lost) ∧ (window < al + size → exec (.st t f) s = ends)) ∧
        (f.d.toNat < 16 →
          (Ready s t 0x22 f [32 + f.d.toNat, f.a.toNat] p th →
            (at_ + len ≤ window → bad at_ len false → exec (.vld t f) s = lost) ∧
            (at_ + len ≤ window → ¬bad at_ len false → exec (.vld t f) s = .next (issued s t { th with vregs := th.vregs.set f.d.toNat (BitVec.ofNat 512 (ofLe (got at_ len))), pc := nextPc th })) ∧
            (window < at_ + len → exec (.vld t f) s = ends)) ∧
          (Ready s t 0x23 f [32 + f.d.toNat, f.a.toNat] p th →
            (at_ + len ≤ window → ¬bad at_ len true → puts (.vst t f) at_ (leBytes len (th.vregs.getD f.d.toNat 0).toNat)) ∧ (at_ + len ≤ window → bad at_ len true → exec (.vst t f) s = lost) ∧ (window < at_ + len → exec (.vst t f) s = ends))))) ∧
  (
    ∀ (s : State) (t : ThreadRef) (f : Fields) (p : Spray) (th : Thread), memHeld s t false false = false →
      let n := if f.fn.getLsbD 8 then 3 else 4
      let stride := (th.sregs.getD f.b.toNat 0).toNat
      let base := (th.sregs.getD f.a.toNat 0 + BitVec.ofNat 64 (f.fn.toNat % 128)).toNat
      let scratch := (t.engine * 64 + t.thread) * 2 ^ 19
      let group := fun (l : Nat) => readRange s.eng.scratch (scratch + (base + l * stride)) n
      (f.d.toNat < 16 → f.fn.toNat / 512 = 1 → stride < 2 ^ 32 →
        (Ready s t 0x24 f [32 + f.d.toNat, f.a.toNat, f.b.toNat] p th →
          ((∀ l < 16, base + l * stride + n ≤ th.scratchBytes) →
            exec (.vldg t f) s = .next (issued s t { th with vregs := th.vregs.set f.d.toNat (BitVec.ofNat 512 (ofLe ((List.range 16).flatMap group))), pc := nextPc th })) ∧
          ((∃ l < 16, th.scratchBytes < base + l * stride + n) → exec (.vldg t f) s = .next (passPointer (failThread s t.engine t.thread { status := 0x90 }) t))) ∧
        (Ready s t 0x25 f [32 + f.d.toNat, f.a.toNat, f.b.toNat] p th →
          ((∀ l < 16, base + l * stride + n ≤ th.scratchBytes) →
            exec (.vstg t f) s = .next (issued ((List.range 16).foldl (fun (s : State) l =>
              writeScratch s t.engine t.thread (base + l * stride) (slice (leBytes (16 * n) (th.vregs.getD f.d.toNat 0).toNat) (l * n) n)) s) t { th with pc := nextPc th })) ∧
          ((∃ l < 16, th.scratchBytes < base + l * stride + n) → exec (.vstg t f) s = .next (passPointer (failThread s t.engine t.thread { status := 0x90 }) t)))) ∧
      (f.fn.toNat % 16 = 0 → f.fn.toNat / 64 % 4 = 1 → Ready s t 0x26 f [f.d.toNat, f.a.toNat, f.b.toNat] p th →
        let a := (th.sregs.getD f.a.toNat 0).toNat / 8 * 8
        let old := BitVec.ofNat 64 (ofLe (readRange s.eng.scratch (scratch + a) 8))
        let new := atomicResult (0x10 + f.fn.toNat / 256) old (th.sregs.getD f.b.toNat 0) (th.sregs.getD f.d.toNat 0)
        (a + 8 ≤ th.scratchBytes → exec (.atom t f) s = .next (issued { s with eng := { s.eng with scratch := writeRange s.eng.scratch (scratch + a) (leBytes 8 new.toNat) } } t
          { th with sregs := th.sregs.set f.d.toNat old, pc := nextPc th })) ∧
        (th.scratchBytes < a + 8 → exec (.atom t f) s = .next (passPointer (failThread s t.engine t.thread { status := 0x90 }) t))))

/-- LD, ST, VLD, VST, VLDG, VSTG, ATOM, TLOAD and TSTORE in the pool (space 0) (07, R184, R193; 08, R210 to R214): one tile is issued with the footprint, the opcode and the bytes the instruction gives it, and the thread goes on; where an address of the footprint is not canonical the thread ends NON_CANONICAL and no memory is accessed (01, R25). What rests on log entry 16 is the model's choice. -/
def Obligations.PoolAccessesIssueTiles : Prop :=
  ∀ (s : State) (t : ThreadRef) (f : Fields) (p : Spray) (th : Thread),
    let sr := fun (n : BitVec 5) => th.sregs.getD n.toNat 0
    let size := 2 ^ (f.b.toNat / 2 % 4)
    let len := 64 - 16 * (f.b.toNat / 2 % 4)
    let at_ := (sr f.a + (f.fn.extractLsb' 0 10).signExtend 64).toNat
    let n := if f.fn.getLsbD 8 then 3 else 4
    let gbase := (sr f.a + BitVec.ofNat 64 (f.fn.toNat % 128)).toNat
    let tile := fun (base rows rowBytes stride op : Nat) (use : TileUse) (bytes : List Byte) (acq : Bool) =>
      ({ engine := t.engine, thread := t.thread, spray := th.spray, asid := bits p.desc.toNat 39 24, base := base, rows := rows, rowBytes := rowBytes, stride := stride, op := op, use := use, bytes := bytes, acquire := acq } : Tile)
    let zeros := fun (n : Nat) => List.replicate n (0 : Byte)
    let gives := fun (i : Instr) (th : Thread) (x : Tile) =>
      (x.canonical = true → exec i s = .next (passPointer (setThread (newTile s x) t.engine t.thread { th with pc := nextPc th }) t)) ∧
      (x.canonical = false → exec i s = .next (passPointer (failThread s t.engine t.thread { status := 0x83, pva := x.badPva }) t))
    let held := memHeld s t true
    (f.b.toNat / 8 = 0 →
      (held false = false →
        (Ready s t 0x20 f [f.d.toNat, f.a.toNat] p th →
          gives (.ld t f) th (tile (at_ / size * size) 1 size 0 0x03 (.scalarLoad f.d.toNat size (f.b.getLsbD 0)) (zeros size) (f.fn.getLsbD 10))) ∧
        (f.d.toNat < 16 → f.b.toNat % 2 = 0 → Ready s t 0x22 f [32 + f.d.toNat, f.a.toNat] p th →
          gives (.vld t f) th (tile at_ 1 len 0 0x03 (.vectorLoad f.d.toNat len) (zeros len) (f.fn.getLsbD 10)))) ∧
      (held (f.fn.getLsbD 10) = false → f.b.toNat % 2 = 0 →
        (Ready s t 0x21 f [f.d.toNat, f.a.toNat] p th → gives (.st t f) th (tile (at_ / size * size) 1 size 0 0x04 .store (leBytes size (sr f.d).toNat) false)) ∧
        (f.d.toNat < 16 → Ready s t 0x23 f [32 + f.d.toNat, f.a.toNat] p th →
          gives (.vst t f) th (tile at_ 1 len 0 0x04 .store (leBytes len (th.vregs.getD f.d.toNat 0).toNat) false)))) ∧
    (f.fn.toNat / 512 = 0 → f.d.toNat < 16 → (sr f.b).toNat < 2 ^ 32 →
      (held false = false → Ready s t 0x24 f [32 + f.d.toNat, f.a.toNat, f.b.toNat] p th →
        gives (.vldg t f) th (tile gbase 16 n (sr f.b).toNat 0x03 (.gather f.d.toNat n) (zeros (16 * n)) (f.fn.getLsbD 7))) ∧
      (held (f.fn.getLsbD 7) = false → Ready s t 0x25 f [32 + f.d.toNat, f.a.toNat, f.b.toNat] p th →
        gives (.vstg t f) th (tile gbase 16 n (sr f.b).toNat 0x04 .store (leBytes (16 * n) (th.vregs.getD f.d.toNat 0).toNat) false))) ∧
    (f.fn.toNat % 16 = 0 → f.fn.toNat / 64 % 4 = 0 → held (f.fn.getLsbD 4) = false → Ready s t 0x26 f [f.d.toNat, f.a.toNat, f.b.toNat] p th →
      let op := 0x10 + f.fn.toNat / 256
      gives (.atom t f) th (tile ((sr f.a).toNat / 8 * 8) 1 8 0 op (.atomic f.d.toNat op)
        (leBytes 8 (sr f.b).toNat ++ (if op = 0x12 then leBytes 8 (sr f.d).toNat else [])) (f.fn.getLsbD 5))) ∧
    (f.fn.toNat % 1024 = 0 → th.tiles < 8 → bits (sr f.b).toNat 31 22 = 0 → bits (sr f.b).toNat 15 9 = 0 →
      let rows := bits (sr f.b).toNat 21 16 + 1
      let rb := bits (sr f.b).toNat 8 0 + 1
      let stride := bits (sr f.b).toNat 63 32
      let on := (sr f.d).toNat
      let th1 := { th with tiles := th.tiles + 1 }
      on + rows * rb ≤ th.scratchBytes →
      (held false = false → Ready s t 0x27 f [f.d.toNat, f.a.toNat, f.b.toNat] p th →
        gives (.tload t f) th1 (tile (sr f.a).toNat rows rb stride 0x03 (.tileLoad on) (zeros (rows * rb)) (f.fn.getLsbD 10))) ∧
      (held (f.fn.getLsbD 10) = false → Ready s t 0x28 f [f.d.toNat, f.a.toNat, f.b.toNat] p th →
        gives (.tstore t f) th1 (tile (sr f.a).toNat rows rb stride 0x04 .tileStore (readScratch s t.engine t.thread on (rows * rb)) false)))

/-- A tile of one line is translated when it is issued (07, R192 to R194), where its engine holds no translation of its unit: mapped with the rights it needs, it makes one access at its leaf's address; unmapped or without the rights it makes none, waits on its fault, and its record joins the region's open batch. TILE_PERFORMED (08, R214): a transfer all of whose rows have been answered leaves, the thread's count falls, and a TLOAD's bytes stand in its scratch window. What rests on log entries 8 and 16 is the model's choice. -/
def Obligations.TilesTranslateAndArePerformed : Prop :=
  (
    ∀ (s : State) (i since : Nat) (t : Tile) (q : Piece), t.direct = false → t.pieces = [q] → (∀ u, t.use ≠ .zeroBlock u) →
      let unit := q.pva / 65536
      (tget s.eng.tlb t.engine []).find? (fun c => c.covers t.asid unit) = none →
      let u := translateOrFault s i t since
      let waits := fun (rights : Bool) => tileOf? u i = some { t with st := .faulted none since rights q.pva } ∧ u.eng.accesses = s.eng.accesses ∧
        ((collectOf s (t.engine / 128)).openRecs.length < 256 →
          (collectOf u (t.engine / 128)).openRecs = (collectOf s (t.engine / 128)).openRecs ++ [faultRec i t q.pva 1 rights])
      (∀ first l, walk s t.asid unit = some (first, l) → t.permitted l = true →
        ∃ a, accessOf? u s.eng.nextAccess = some a ∧ u.eng.nextAccess = s.eng.nextAccess + 1 ∧ a.tile = i ∧ a.pva = q.pva ∧ a.op = t.op ∧
          a.ppa = l.frame * 65536 + (q.pva - first * 65536) ∧ a.first = q.first ∧ a.count = q.count ∧ a.st = .waiting ∧
          tileOf? u i = some { t with st := .issued, left := 1 }) ∧
      (walk s t.asid unit = none → waits false) ∧
      (∀ first l, walk s t.asid unit = some (first, l) → t.permitted l = false → waits true)) ∧
  (
    ∀ (s : State) (i : Nat) (x : Tile) (th : Thread), tileOf? s i = some x → x.waitsOnFault = false → x.left = 0 → threadOf? s x.engine x.thread = some th →
      let beyond := fun (scratch : List Host.Cell) => ∃ t, exec (.tilePerformed i) s = .next t ∧ tileOf? t i = none ∧ threadOf? t x.engine x.thread = some { th with tiles := th.tiles - 1 } ∧
        t.eng.scratch = scratch ∧ { t with eng := { t.eng with tiles := s.eng.tiles, threads := s.eng.threads, scratch := s.eng.scratch } } = s
      (∀ a, x.use = .tileLoad a → beyond (writeRange s.eng.scratch ((x.engine * 64 + x.thread) * 2 ^ 19 + a) x.bytes)) ∧ (x.use = .tileStore → beyond s.eng.scratch))

/-- VOP and VCMP (08, R216, R217, Table 8.9): each element that the predicate governs takes the operation's result and every other keeps its value; integers modulo 2^w, floats exact and rounded once to nearest even. VCMP clears the bits of elements that it does not compare; NaN compares true for NE alone. What rests on log entry 17 is the model's choice. -/
def Obligations.VectorArithmetic : Prop :=
  ∀ (s : State) (t : ThreadRef) (f : Fields) (p : Spray) (th : Thread),
    let c := f.fn.toNat / 128
    let op := f.fn.toNat % 16
    let m := fmtD c
    let w := m.width
    let n := elemCount m
    let x := th.vregs.getD f.a.toNat 0
    let y := th.vregs.getD f.b.toNat 0
    let old := th.vregs.getD f.d.toNat 0
    let pn := f.fn.toNat / 16 % 8
    let pr := if pn = 0 then BitVec.allOnes 64 else th.preds.getD pn 0
    let num := fun (v : VReg) (i : Nat) => decodeElem m (elem v w i)
    f.a.toNat < 16 → f.b.toNat < 16 →
    (f.d.toNat < 16 → Ready s t 0x30 f [32 + f.d.toNat, 32 + f.a.toNat, 32 + f.b.toNat] p th → (8 ≤ op → f.b = 0) →
      (c = 6 ∨ c = 9 → op ≤ 9 →
        ∃ v, exec (.vop t f) s = .next (issued s t { th with vregs := th.vregs.set f.d.toNat v, pc := nextPc th }) ∧ ∀ i < n,
          let a := BitVec.ofNat w (elem x w i)
          let b := BitVec.ofNat w (elem y w i)
          let r := BitVec.ofNat w (elem v w i)
          (pr.getLsbD i = false → elem v w i = elem old w i) ∧
          (pr.getLsbD i = true → (op = 0 → r = a + b) ∧ (op = 1 → r = a - b) ∧ (op = 2 → r = a * b) ∧ (op = 3 → r.toInt = min a.toInt b.toInt) ∧
            (op = 4 → r.toInt = max a.toInt b.toInt) ∧ (op = 5 → r = a &&& b) ∧ (op = 6 → r = a ||| b) ∧ (op = 7 → r = a ^^^ b) ∧
            (op = 8 → r = if a.toInt < 0 then -a else a) ∧ (op = 9 → r = -a))) ∧
      (c = 7 ∨ c = 8 → op ∈ [0, 1, 2, 3, 4, 8, 9] →
        ∃ v, exec (.vop t f) s = .next (issued s t { th with vregs := th.vregs.set f.d.toNat v, pc := nextPc th }) ∧ ∀ i < n,
          let r := fun (z : Machine.Num) => elem v w i = encodeFloat m z false false % 2 ^ w
          (pr.getLsbD i = false → elem v w i = elem old w i) ∧
          (pr.getLsbD i = true → (op = 0 → r (Machine.Num.sum [num x i, num y i])) ∧ (op = 1 → r (Machine.Num.sum [num x i, (num y i).neg])) ∧ (op = 2 → r ((num x i).mul (num y i))) ∧
            (op = 3 → r (Machine.Num.pick true (num x i) (num y i))) ∧ (op = 4 → r (Machine.Num.pick false (num x i) (num y i))) ∧ (op = 9 → r (num x i).neg)))) ∧
    (f.d.toNat < 8 → c ∈ [6, 7, 8, 9] → op ≤ 5 → Ready s t 0x31 f [32 + f.a.toNat, 32 + f.b.toNat] p th →
      ∃ r : Word, exec (.vcmp t f) s = .next (issued s t { th with preds := if f.d.toNat = 0 then th.preds else th.preds.set f.d.toNat r, pc := nextPc th }) ∧ ∀ i < 64,
        let k := (num x i).cmp (num y i)
        (n ≤ i ∨ pr.getLsbD i = false → r.getLsbD i = false) ∧
        (i < n → pr.getLsbD i = true → (op = 0 → r.getLsbD i = (k == some 0)) ∧ (op = 1 → r.getLsbD i = (k != some 0)) ∧ (op = 2 → r.getLsbD i = (k == some (-1))) ∧
          (op = 3 → r.getLsbD i = (k == some (-1) || k == some 0)) ∧ (op = 4 → r.getLsbD i = (k == some 1)) ∧ (op = 5 → r.getLsbD i = (k == some 1 || k == some 0))))

/-- VSEL, VBCAST and VMOVS (08, R216): a choice per element by the predicate, a scalar in every element, one element from or to a scalar, extended by its format. VSFU (08, R217, R218): every element is a special function's result; how far a result lies from the exact one is open (log entry 8). The special results are not: by R218 RCP of a zero is an infinity of its sign and SQRT, RSQRT and LOG2 of a negative number are NaN. Read from IEEE 754, which R217 names, and so the model's deduction (log entry 17): NaN gives the canonical NaN, SQRT of −0 is −0, RCP of an infinity a zero of its sign. What rests on log entries 8 and 17 is the model's choice. -/
def Obligations.VectorMovesAndSpecialFunctions : Prop :=
  (
    ∀ (s : State) (t : ThreadRef) (f : Fields) (p : Spray) (th : Thread),
      let c := f.fn.toNat / 128
      let m := fmtD c
      let w := m.width
      let n := elemCount m
      let x := th.vregs.getD f.a.toNat 0
      let old := th.vregs.getD f.d.toNat 0
      let pn := f.fn.toNat / 16 % 8
      let pr := if pn = 0 then BitVec.allOnes 64 else th.preds.getD pn 0
      let i := f.fn.toNat % 64
      let toV := fun (ins : Instr) (v : VReg) => exec ins s = .next (issued s t { th with vregs := th.vregs.set f.d.toNat v, pc := nextPc th })
      (f.d.toNat < 16 → f.a.toNat < 16 → f.b.toNat < 16 → c ∈ [0, 1, 6, 7, 8, 9] → f.fn.toNat % 16 = 0 → Ready s t 0x32 f [32 + f.d.toNat, 32 + f.a.toNat, 32 + f.b.toNat] p th →
        ∃ v, toV (.vsel t f) v ∧ ∀ j < n, elem v w j = elem (if pr.getLsbD j then x else th.vregs.getD f.b.toNat 0) w j) ∧
      (f.d.toNat < 16 → f.b = 0 → c < 10 → f.fn.toNat % 128 = 0 → Ready s t 0x33 f [32 + f.d.toNat, f.a.toNat] p th →
        ∃ v, toV (.vbcast t f) v ∧ ∀ j < n, elem v w j = (th.sregs.getD f.a.toNat 0).toNat % 2 ^ w) ∧
      (f.b = 0 → c ∈ [0, 1, 6, 7, 8, 9] → i < n →
        (f.fn.getLsbD 6 = true → f.d.toNat < 16 → Ready s t 0x34 f [32 + f.d.toNat, f.a.toNat] p th →
          ∃ v, toV (.vmovs t f) v ∧ ∀ j < n, elem v w j = if j = i then (th.sregs.getD f.a.toNat 0).toNat % 2 ^ w else elem old w j) ∧
        (f.fn.getLsbD 6 = false → f.a.toNat < 16 → Ready s t 0x34 f [f.d.toNat, 32 + f.a.toNat] p th →
          ∃ v : Word, exec (.vmovs t f) s = .next (issued s t { th with sregs := th.sregs.set f.d.toNat v, pc := nextPc th }) ∧
            (c ∈ [0, 1, 7, 8] → v.toNat = elem x w i) ∧ (c = 6 ∨ c = 9 → v.toInt = (BitVec.ofNat w (elem x w i)).toInt)))) ∧
  (
    (∀ (s : State) (t : ThreadRef) (f : Fields) (p : Spray) (th : Thread), f.d.toNat < 16 → f.a.toNat < 16 → f.b = 0 → f.fn.toNat < 5 → Ready s t 0x35 f [32 + f.d.toNat, 32 + f.a.toNat] p th →
      ∃ v, exec (.vsfu t f) s = .next (issued (useFreeN s 16) t { th with vregs := th.vregs.set f.d.toNat v, pc := nextPc th }) ∧
        ∀ i < 16, elem v 32 i = sfu f.fn.toNat (BitVec.ofNat 32 (elem (th.vregs.getD f.a.toNat 0) 32 i)) (s.time.free + i) % 2 ^ 32) ∧
    (∀ (no : Nat), (∀ op < 5, ∀ x : BitVec 32, 0x7F800000 < x.toNat % 2 ^ 31 → sfu op x no = 0x7FC00000) ∧
      sfu 2 0 no = 0x7F800000 ∧ sfu 2 0x80000000 no = 0xFF800000 ∧ sfu 2 0x7F800000 no = 0 ∧ sfu 2 0xFF800000 no = 0x80000000 ∧
      sfu 4 0 no = 0 ∧ sfu 4 0x80000000 no = 0x80000000 ∧ sfu 1 0 no = 0xFF800000 ∧ sfu 0 0x7F800000 no = 0x7F800000 ∧ sfu 0 0xFF800000 no = 0 ∧
      ∀ op ∈ [1, 3, 4], ∀ x : BitVec 32, 0x80000000 < x.toNat → x.toNat ≤ 0xFF800000 → sfu op x no = 0x7FC00000))

/-- VCVT, VMXQ and VMXD (08, R220 to R222): 16 elements of a part of one format become a part of another, each rounded once; an MX block of 32 values takes one scale byte, and expands by it, a NaN scale giving NaN. -/
def Obligations.ConversionsAndMxBlocks : Prop :=
  ∀ (s : State) (t : ThreadRef) (f : Fields) (p : Spray) (th : Thread), f.d.toNat < 16 → f.a.toNat < 16 →
    let x := th.vregs.getD f.a.toNat 0
    let old := th.vregs.getD f.d.toNat 0
    let num := fun (v : VReg) (i : Nat) => decodeElem fp32 (elem v 32 i)
    (f.fn.toNat / 128 < 10 → f.fn.toNat / 8 % 16 < 10 → Ready s t 0x36 f [32 + f.d.toNat, 32 + f.a.toNat] p th →
      let a := fmtD (f.fn.toNat / 128)
      let m := fmtD (f.fn.toNat / 8 % 16)
      let from_ := f.b.toNat / 4
      let part := f.fn.toNat % 8
      from_ < elemCount a / 16 → part < elemCount m / 16 →
      ∃ v, exec (.vcvt t f) s = .next (issued s t { th with vregs := th.vregs.set f.d.toNat v, pc := nextPc th }) ∧
        (∀ i < 16, elem v m.width (16 * part + i) = encodeElem m (decodeElem a (elem x a.width (16 * from_ + i))) (f.b.getLsbD 0) (f.b.getLsbD 1) % 2 ^ m.width) ∧
        ∀ i < elemCount m, i / 16 ≠ part → elem v m.width i = elem old m.width i) ∧
    (∀ code emax, mxFormat (f.fn.toNat % 8) = some (code, emax) →
      let m := fmtD code
      let j := f.fn.toNat / 16 % 4
      let sr := f.fn.toNat / 64
      j < mxBlocks (f.fn.toNat % 8) →
      (f.b.toNat < 16 → f.fn.getLsbD 3 = false → Ready s t 0x37 f [32 + f.d.toNat, 32 + f.a.toNat, 32 + f.b.toNat, sr] p th →
        let q := mxQuantize m emax ((List.range 16).map (num x) ++ (List.range 16).map (num (th.vregs.getD f.b.toNat 0)))
        ∃ (r : VReg) (z : Word),
          exec (.vmxq t f) s = .next (issued s t { th with vregs := th.vregs.set f.d.toNat r, sregs := th.sregs.set sr z, pc := nextPc th }) ∧
          (∀ i < 32, elem r m.width (32 * j + i) = q.1.getD i 0 % 2 ^ m.width) ∧
          (∀ k < 8, z.toNat / 2 ^ (8 * k) % 256 = if k = j then q.2 % 256 else (th.sregs.getD sr 0).toNat / 2 ^ (8 * k) % 256)) ∧
      (f.b = 0 → Ready s t 0x38 f [32 + f.d.toNat, 32 + f.a.toNat, sr] p th →
        let scale := (th.sregs.getD sr 0).toNat / 2 ^ (8 * j) % 256
        let half := if f.fn.getLsbD 3 then 16 else 0
        ∃ r, exec (.vmxd t f) s = .next (issued s t { th with vregs := th.vregs.set f.d.toNat r, pc := nextPc th }) ∧
          ∀ i < 16, elem r 32 i = mxExpand m (elem x m.width (32 * j + half + i)) scale % 2 ^ 32 ∧ (scale = 255 → elem r 32 i = 0x7FC00000)))

/-- A narrow load is sign- or zero-extended (08, R210), for every value of the bytes read. Rounding (08, R217, R220, R224): to nearest, ties to the even multiple, or toward zero where asked, and whether bits were discarded. A value of at most 48 significant bits within the exponents of W48 is held exactly and raises no flag (08, R223, R224). -/
def Obligations.RoundingAndExtension : Prop :=
  (
    ∀ (c v : Nat), c < 4 →
      let b := 8 * 2 ^ c
      (extend (2 ^ c) false v).toNat = v % 2 ^ b ∧
      (extend (2 ^ c) true v).toInt = if v % 2 ^ b < 2 ^ (b - 1) then ((v % 2 ^ b : Nat) : Int) else ((v % 2 ^ b : Nat) : Int) - 2 ^ b) ∧
  (
    ∀ (m d : Nat) (e : Int), 0 < d →
      let r := roundTo m e (e + d) false
      let z := roundTo m e (e + d) true
      (2 * ((r.1 : Int) * 2 ^ d - m).natAbs ≤ 2 ^ d) ∧ (2 * ((r.1 : Int) * 2 ^ d - m).natAbs = 2 ^ d → r.1 % 2 = 0) ∧ z.1 = m / 2 ^ d ∧
      r.2 = decide (m % 2 ^ d ≠ 0) ∧ z.2 = r.2) ∧
  (
    ∀ (neg : Bool) (m : Nat) (e : Int), 0 < m → m < 2 ^ 48 → -1069 ≤ topExp m e - 47 → topExp m e - 47 ≤ 0x7FE - 1070 →
      w48Flags (round48 (.fin neg m e)) = 0 ∧ (w48Value (round48 (.fin neg m e))).cmp (.fin neg m e) = some 0)

/-- VDOT and VDOTB (08, R221, R225, Tables 8.13 and 8.14): in each lane that the predicate governs the accumulator takes the exact sum of its value and the lane's products, rounded once, with its flags kept; other lanes keep theirs. AOP, AREAD and AMOVS (08, R224, R226 to R228, Table 8.15): a lane the predicate does not govern keeps its container; clears, adds, multiplies and compares round once and keep flags; AREAD rounds each lane times 2^k into its part; AMOVS moves one container unaltered. What rests on log entry 17 is the model's choice. -/
def Obligations.AccumulatorInstructions : Prop :=
  (
    ∀ (s : State) (t : ThreadRef) (f : Fields) (p : Spray) (th : Thread) (d : DotFmt), dotFmt (f.fn.toNat / 128) = some d → f.a.toNat < 16 → f.b.toNat < 16 → (d.mx = true ∨ f.d.toNat / 4 = 0) →
      let ad := f.d.toNat % 4
      let sr := 24 + f.d.toNat / 4
      let old := th.accs.getD ad []
      let pn := f.fn.toNat / 16 % 8
      let pr := if pn = 0 then BitVec.allOnes 64 else th.preds.getD pn 0
      let scales := th.sregs.getD sr 0
      let regs := (32 + f.a.toNat) :: (32 + f.b.toNat) :: (if d.mx then [sr] else [])
      let gives := fun (i : Instr) (second : Nat → Nat → Nat) => ∃ acc : List Word,
        exec i s = .next (issued s t { th with accs := th.accs.set ad acc, pc := nextPc th }) ∧ ∀ l < 16, acc.getD l 0 = if pr.getLsbD l then
          w48Write (Machine.Num.sum (w48Value (old.getD l 0) :: (List.range d.k).map (fun i =>
            intProduct d.x ((dotElem d d.x (th.vregs.getD f.a.toNat 0) scales false (d.k * l + i)).mul (dotElem d d.y (th.vregs.getD f.b.toNat 0) scales true (second l i)))))) ((old.getD l 0).toNat % 16)
          else old.getD l 0
      (f.fn.toNat % 16 = 0 → Ready s t 0x39 f regs p th → gives (.vdot t f) (fun l i => d.k * l + i)) ∧
      (Ready s t 0x3A f regs p th → gives (.vdotb t f) (fun _ i => d.k * (f.fn.toNat % 16) + i))) ∧
  (
    ∀ (s : State) (t : ThreadRef) (f : Fields) (p : Spray) (th : Thread),
      let ad := th.accs.getD f.d.toNat []
      let ab := th.accs.getD f.a.toNat []
      let op := f.fn.toNat % 16
      let fmt := f.fn.toNat / 128
      let pn := f.fn.toNat / 16 % 8
      let pr := if pn = 0 then BitVec.allOnes 64 else th.preds.getD pn 0
      let x := th.vregs.getD f.a.toNat 0
      let el := fun (l : Nat) => decodeElem (fmtD fmt) (elem x 32 l)
      let toA := fun (i : Instr) (a : List Word) => exec i s = .next (issued s t { th with accs := th.accs.set f.d.toNat a, pc := nextPc th })
      let lanes := fun (g : Nat → Word) => ∃ a, toA (.aop t f) a ∧ ∀ l < 16, a.getD l 0 = if pr.getLsbD l then g l else ad.getD l 0
      let own := fun (l : Nat) => (ad.getD l 0).toNat % 16
      let v := fun (a : List Word) (l : Nat) => w48Value (a.getD l 0)
      (f.d.toNat < 4 → f.b = 0 →
        (op = 0 → f.a = 0 → fmt = 0 → Ready s t 0x3B f [] p th → lanes (fun _ => 0)) ∧
        (f.a.toNat < 16 → fmt = 8 ∨ fmt = 9 → Ready s t 0x3B f [32 + f.a.toNat] p th →
          (op = 1 → lanes (fun l => w48Write (Machine.Num.sum [v ad l, el l]) (own l))) ∧
          (op = 2 → fmt = 8 → lanes (fun l => w48Write ((v ad l).mul (el l)) (own l))) ∧
          (op = 3 → lanes (fun l => w48Write (numMax (v ad l) (el l)) (own l)))) ∧
        (f.a.toNat < 4 → fmt = 0 → Ready s t 0x3B f [] p th →
          (op = 4 → lanes (fun l => addFlags (ab.getD l 0) (own l))) ∧
          (op = 5 → lanes (fun l => w48Write (Machine.Num.sum [v ad l, v ab l]) (own l ||| (ab.getD l 0).toNat % 16))) ∧
          (op = 6 → toA (.aop t f) (ad.set 0 (addFlags (pairSum 4 ((List.range 16).map (fun l => if pr.getLsbD l then ab.getD l 0 else 0))) (own 0)))) ∧
          (op = 8 → lanes (fun l => addFlags (ab.getD 0 0) (own l))))) ∧
      (f.d.toNat < 16 → f.a.toNat < 4 → fmt ∈ [0, 1, 6, 7, 8, 9] → f.fn.toNat / 32 % 4 = 0 → f.b.toNat / 4 < elemCount (fmtD fmt) / 16 → Ready s t 0x3C f [32 + f.d.toNat] p th →
        let m := fmtD fmt
        ∃ r, exec (.aread t f) s = .next (issued s t { th with vregs := th.vregs.set f.d.toNat r, pc := nextPc th }) ∧
          (∀ l < 16, elem r m.width (16 * (f.b.toNat / 4) + l) = encodeElem m ((v ab l).shift (f.fn.extractLsb' 0 5).toInt) (f.b.getLsbD 0) (f.b.getLsbD 1) % 2 ^ m.width) ∧
          ∀ i < elemCount m, i / 16 ≠ f.b.toNat / 4 → elem r m.width i = elem (th.vregs.getD f.d.toNat 0) m.width i) ∧
      (f.b = 0 →
        (f.d.toNat < 4 → 16 ≤ f.fn.toNat → f.fn.toNat < 32 → Ready s t 0x3D f [f.a.toNat] p th → toA (.amovs t f) (ad.set (f.fn.toNat % 16) (th.sregs.getD f.a.toNat 0))) ∧
        (f.a.toNat < 4 → f.fn.toNat < 16 → Ready s t 0x3D f [f.d.toNat] p th →
          exec (.amovs t f) s = .next (issued s t { th with sregs := th.sregs.set f.d.toNat (ab.getD (f.fn.toNat % 16) 0), pc := nextPc th }))))

/-- Launches and their threads (07, R173 to R181, Tables 7.2 to 7.6; 09, R232 to R234, R239, R241, R242 to R244, R246, Tables 9.3, 9.4, 9.7, 9.9, 9.11): acceptance of a SPRAY_LAUNCH and of a POOL_OP_LAUNCH, the latter by the refusals of R232 in their order, with the shapes, overlaps, items and pages of its kinds; placement, start with its registers and zeroed scratch window, end of an item, watchdog, the writing of SEARCH's lists, the completion record with a pool operation's results, and the COMPLETION. What rests on log entries 3, 8, 16, 18, 19 and 24 is the model's choice. -/
def Obligations.LaunchesRunTheirItems : Prop :=
  ∀ (s : State) (n i e h : Nat) (p : Spray) (th : Thread), 
    let g := fun (a : Nat) => p.field (575 + 64 * a) (512 + 64 * a)
    (∀ (k : Nat) (r : Req) (via : Via) (q : Packet), r.origin = .packet via q → r.op = 0x20 → 256 ≤ bits r.payload.toNat 23 8 →
      (∀ st, sprayRefusal s r.source r.tenant r.payload = some st → launch s k r = answerPacket s k r { status := st }) ∧
      (sprayRefusal s r.source r.tenant r.payload = none →
        let id := s.eng.launches % 65536
        ∃ x, launch s k r = setSpray { s with eng := { s.eng with launches := s.eng.launches + 1 } } id x ∧ x.id = id ∧ x.desc = r.payload ∧ x.pool = false ∧
          x.total = bits r.payload.toNat 63 40 + 1 ∧ x.source = r.source ∧ x.tenant = r.tenant ∧ x.startStamp = s.time.timebase ∧ x.items = [] ∧ x.region = k)) ∧
    (∀ (k : Nat) (r : Req) (via : Via) (q : Packet), r.origin = .packet via q → r.op = 0x21 →
      let d := r.payload
      let kind := bits d.toNat 7 0
      let x := extentOf s (bits d.toNat 207 192)
      let size := if kind = 0x19 then x.size else 0
      let aspace := tget? s.eng.asids (bits d.toNat 39 24)
      let refusal := (([(0x40, !descOk d), (0x43, decide (kind ≠ 0x19) && (match aspace with | none => true | some a => a.destroying)),
        (0x44, decide (kind ≠ 0x19) && (match aspace with | none => false | some a => a.tenant != r.tenant)), (0x60, !shapeOk d size), (0x61, overlaps d),
        (0x63, decide (kind = 0x19) && !x.measured),
        (0x64, decide (kind = 0x19) && (x.st != .granted || x.generation != bits d.toNat 215 208 || x.tenant != r.tenant || rightsOf x.access (fun _ => true) r.source % 2 == 0)),
        (0x46, bit d.toNat 40 && !arrayOk s r.source r.tenant (bits d.toNat 179 128) (poolItems d size)),
        (0x47, decide (1024 ≤ s.eng.sprays.length) || (sprayOf? s (s.eng.launches % 65536)).isSome),
        (0x62, decide (262144 < s.eng.opPages + poolPages d size))] : List (Nat × Bool)).find? Prod.snd).map Prod.fst
      (∀ st, refusal = some st → launch s k r = answerPacket s k r { status := st }) ∧
      (refusal = none →
        let id := s.eng.launches % 65536
        ∃ y, launch s k r = setSpray { s with eng := { s.eng with launches := s.eng.launches + 1, opPages := s.eng.opPages + poolPages d size } } id y ∧ y.id = id ∧ y.desc = d ∧ y.pool = true ∧
          y.total = poolItems d size ∧ y.pages = poolPages d size ∧ y.base = x.base * 2 ^ 21 ∧ y.source = r.source ∧ y.tenant = r.tenant ∧ y.startStamp = s.time.timebase ∧ y.items = [] ∧
          y.commits = [] ∧ y.work = {} ∧ y.region = k)) ∧
    (∀ d : Line,
      let kind := bits d.toNat 7 0
      let chunks := bits d.toNat 471 448 + 1
      let r := bits d.toNat 475 472 + 1
      let dst := bits d.toNat 248 192
      let src := bits d.toNat 312 256
      let src2 := bits d.toNat 376 320
      let index := bits d.toNat 440 384
      let meet := fun (a n b m : Nat) => ∃ j, (a ≤ j ∧ j < a + n) ∧ (b ≤ j ∧ j < b + m)
      let pages := fun (items work : Nat) => ((items + 7) / 8 + 4095) / 4096 + (work + 4095) / 4096
      (kind < 0x10 ∨ 0x19 < kind → descOk d = false) ∧
      (kind ∈ [0x10, 0x11, 0x12, 0x13, 0x14, 0x15, 0x16] → ∀ size,
        (shapeOk d size = true ↔ dst % 256 = 0 ∧ src % 256 = 0 ∧ src2 % 256 = 0 ∧ (kind = 0x14 → bits d.toNat 481 480 < 3 ∧ bits d.toNat 479 476 ∈ [6, 7, 8, 9]) ∧
          (kind = 0x15 ∨ kind = 0x16 → index % 4 = 0 ∧ chunks * r ≤ 16777216)) ∧
        (poolItems d size = if kind = 0x15 ∨ kind = 0x16 then chunks * r else chunks) ∧
        poolPages d size = pages (poolItems d size) (if kind = 0x13 ∨ (kind = 0x14 ∧ bit d.toNat 482 = true) then 64 else 0)) ∧
      (kind = 0x17 → ∀ size, poolItems d size = (bits d.toNat 447 416 + 1 + 255) / 256 ∧
        poolPages d size = pages (poolItems d size) (5 * (bits d.toNat 468 465 + 1) * (bits d.toNat 478 469 + 1) * 8)) ∧
      (kind = 0x18 → ∀ size, poolItems d size = (bits d.toNat 687 672 + 1) * (bits d.toNat 709 704 + 1)) ∧
      (kind = 0x19 → ∀ size, (shapeOk d size = true ↔ (size + 7) / 8 ≤ 8388608) ∧ overlaps d = false ∧ poolItems d size = size ∧ poolPages d size = pages size (size * 48)) ∧
      (kind ∈ [0x10, 0x11, 0x13] → overlaps d = false) ∧
      (kind = 0x12 → (overlaps d = true ↔ meet dst (256 * chunks) src (256 * chunks))) ∧
      (kind = 0x14 → (overlaps d = true ↔ bit d.toNat 482 = false ∧
        ((dst ≠ src ∧ meet dst (256 * chunks) src (256 * chunks)) ∨ (dst ≠ src2 ∧ meet dst (256 * chunks) src2 (256 * chunks))))) ∧
      (kind = 0x15 → (overlaps d = true ↔ meet dst (256 * chunks * r) index (4 * chunks)))) ∧
    (sprayOf? s n = some p → i < p.total → tget? p.items i = none → (∀ j < i, (tget? p.items j).isSome = true) →
      let to_ := placeEngine s p i
      let l := List.range (placedTogether s p i)
      (placedAhead p (to_ / 128) + l.length ≤ 65536 →
        ((regFault s (to_ / 128)).fenced = false →
          exec (.threadPlacement n i) s = .next (setSpray s n { p with items := l.foldl (fun x j => tset x (i + j) (.placed to_)) p.items })) ∧
        ((regFault s (to_ / 128)).fenced = true → exec (.threadPlacement n i) s = .next (l.foldl (fun s j => endItem s n (i + j) (some { status := 0x80 })) s))) ∧
      (65536 < placedAhead p (to_ / 128) + l.length → exec (.threadPlacement n i) s = .next s)) ∧
    (p.pool = false →
      (p.field 122 121 = 3 → placeEngine s p i = p.field 124 123 * 128 + i % 128) ∧ (p.field 122 121 = 2 → placeEngine s p i = i % 512) ∧
      (p.field 122 121 = 0 → let a := (p.field 248 192 + i * p.field 287 256) % 2 ^ 64
        (2 ^ 57 ≤ a → placeEngine s p i = i % 512) ∧
        (a < 2 ^ 57 → (ppaOf s p.asid a = none → placeEngine s p i = i % 512) ∧
          (∀ ppa x, ppaOf s p.asid a = some ppa → ppa / 2 ^ 40 = selfId s → extentAt s (ppa % 2 ^ 40) = some x →
            let pl := mapOffset (extentOf s x) (ppa % 2 ^ 40)
            placeEngine s p i = pl.lstack * 32 + chanOfPos pl.stripe pl.index)))) ∧
    (freeThread s e = some h → nextStart s e = some (n, p, i) → engineRuns s e = true → scratchUsed s e + scratchNeed p ≤ 524288 →
      ∃ t x, exec (.threadStart e) s = .next t ∧ threadOf? t e h = some x ∧
        x.spray = n ∧ x.item = i ∧ x.items = itemGroup s p i ∧ x.phase = .running ∧ x.startAt = s.time.clock ∧ x.tiles = 0 ∧ x.privValid = 0 ∧
        x.pc = (if p.pool then 0 else p.field 87 64) ∧ x.scratchBytes = (if p.pool then 0 else p.field 113 104 * 1024) ∧
        x.sregs.length = 32 ∧ x.sregs.getD 0 0 = BitVec.ofNat 64 i ∧ (∀ a < 8, x.sregs.getD (a + 1) 0 = BitVec.ofNat 64 (g a)) ∧ (∀ r, 9 ≤ r → x.sregs.getD r 0 = 0) ∧
        x.vregs = List.replicate 16 0 ∧ x.accs = List.replicate 4 (List.replicate 16 0) ∧ x.preds = List.replicate 8 0 ∧
        (∀ d, (h ≠ d → threadOf? t e d = threadOf? s e d)) ∧ (∀ a < 2 ^ 19, readByte t.eng.scratch ((e * 64 + h) * 2 ^ 19 + a) = 0) ∧
        (∃ y, sprayOf? t n = some y ∧ { y with items := p.items } = p ∧ ∀ j < itemGroup s p i, tget? y.items (i + j) = some (.started e h)) ∧
        { t with eng := { t.eng with threads := s.eng.threads, scratch := s.eng.scratch, sprays := s.eng.sprays } } = s) ∧
    (threadOf? s e h = some th → sprayOf? s th.spray = some p → p.pool = false → threadTiles s e h = [] → th.items = 1 →
      (th.phase = .ending → exec (.threadEnd { engine := e, thread := h }) s = .next (endItem (dropThread s e h) th.spray th.item none)) ∧
      (∀ f, th.phase = .failing f → exec (.threadEnd { engine := e, thread := h }) s = .next (endItem (dropThread s e h) th.spray th.item (some f))) ∧
      (∀ d, p.field 103 88 = d → 0 < d → th.startAt + d * 250000 ≤ s.time.clock → th.phase = .running →
        exec (.watchdogExpiry { engine := e, thread := h }) s =
          .next (dropFaulted (setThread s e h { th with phase := .failing { status := 0x92 } }) e h))) ∧
    (sprayOf? s n = some p → (∀ st, tget? p.items i ≠ some (.ended st)) → p.pool = false →
      let base := bits p.desc.toNat 179 128 % 2 ^ 40
      let put := fun (s : State) (st : Nat) => sprayStore s n 0 ((base + i) / 8 * 8) 0 (BitVec.ofNat 2048 st <<< (8 * ((base + i) % 256)))
        (some ((BitVec.allOnes 256 >>> (256 - (if i + 1 = p.total then 8 - (base + i) % 8 else 1))) <<< ((base + i) % 256)))
      endItem s n i none = put (setSpray s n { p with items := tset p.items i (.ended 0), completed := p.completed + 1, endStamp := s.time.timebase }) 0 ∧
      let sooner := match p.firstFail with | none => true | some x => p.firstFailAt == s.time.clock && decide (i < x.1)
      ∀ f, endItem s n i (some f) = put (setSpray s n { p with items := tset p.items i (.ended f.status), failedCount := p.failedCount + 1, endStamp := s.time.timebase, firstFail := if sooner then some (i, f) else p.firstFail, firstFailAt := if sooner then s.time.clock else p.firstFailAt }) f.status) ∧
    (sprayOf? s n = some p → sprayEnded s n p = true → 
      (p.pool = false ∨ bits p.desc.toNat 7 0 ≠ 0x17 ∨ p.work.resultsWritten = true → p.record = none → p.recordWritten = false →
        let q := { p with work := { p.work with resultsWritten := true } }
        let s1 := if p.work.resultsWritten then s else setSpray s n q
        ∃ (r : Line) (t : State), t = sprayStore (useFree (setSpray s1 n { q with record := some r })) n 1 (p.pkt.address % 2 ^ 40) 31 r none ∧
          (∀ x, sprayOf? t n = some x → exec (.sprayComplete n) s = .next (if x.recordWritten then sendCompletion t n x else t)) ∧
          bits r.toNat 7 0 = p.desc.toNat % 256 ∧ bits r.toNat 8 8 = (if 0 < p.failedCount then 1 else 0) ∧ bits r.toNat 11 11 = (if p.cancelled then 1 else 0) ∧
          bits r.toNat 31 16 = p.id % 2 ^ 16 ∧ bits r.toNat 63 32 = p.total % 2 ^ 32 ∧ bits r.toNat 95 64 = p.completed % 2 ^ 32 ∧ bits r.toNat 127 96 = p.failedCount % 2 ^ 32 ∧
          bits r.toNat 191 128 = p.startStamp % 2 ^ 64 ∧ bits r.toNat 255 192 = p.endStamp % 2 ^ 64 ∧
          (∀ j f, p.firstFail = some (j, f) → bits r.toNat 287 256 = j % 2 ^ 32 ∧ bits r.toNat 295 288 = f.status % 2 ^ 8 ∧ bits r.toNat 303 296 = f.detail % 2 ^ 8 ∧
            bits r.toNat 376 320 = f.pva % 2 ^ 57) ∧
          let d := p.desc
          let kind := bits d.toNat 7 0
          let w := p.work
          (p.pool = false ∨ kind ∉ [0x13, 0x14, 0x17, 0x19] ∨ (kind = 0x14 ∧ bit d.toNat 482 = false) ∨ (kind = 0x19 ∧ p.completed ≠ p.total) → bits r.toNat 2047 512 = 0) ∧
          (p.pool = true → kind = 0x13 → bits r.toNat 543 512 = w.mismatches.sum % 2 ^ 32 ∧ bits r.toNat 575 544 = w.minIndex.foldl min 0xFFFFFFFF ∧ bits r.toNat 2047 576 = 0) ∧
          (p.pool = true → kind = 0x14 → bit d.toNat 482 = true → ∃ vs : List Word, 
            vs.Perm ((List.range 4).filterMap (fun k => if w.merged.getD k false then some (w.values.getD k 0) else none)) ∧
            let v := match vs with | [] => 0 | a :: more => more.foldl (totalOp (bits d.toNat 481 480)) a
            bits r.toNat 639 576 = v.toNat ∧ bits r.toNat 2047 672 = 0 ∧ bits r.toNat 575 512 = 0 ∧
            (bits d.toNat 479 476 ∈ [6, 9] → bits r.toNat 671 640 = encodeElem (fmtD 9) (w48Value v) false false % 2 ^ 32) ∧
            (bits d.toNat 479 476 ∈ [7, 8] → bits r.toNat 671 640 = encodeElem (fmtD 8) (w48Value v) false false % 2 ^ 32)) ∧
          (p.pool = true → kind = 0x17 → bits r.toNat 543 512 = w.rowsScored % 2 ^ 32 ∧ bits r.toNat 544 544 = (if w.resultFailed then 1 else 0) ∧ bits r.toNat 575 545 = 0 ∧
            bits r.toNat 607 576 = w.nanRows % 2 ^ 32 ∧ bits r.toNat 623 608 = w.queryInvalid.toNat ∧ bits r.toNat 2047 624 = 0) ∧
          (p.pool = true → kind = 0x19 → p.completed = p.total → p.base % 2 ^ 21 = 0 → bits r.toNat 896 896 = 1 ∧ bits r.toNat 2047 897 = 0 ∧
            slice (lineBytes r) 64 48 = digestBytes (sha384 (leBytes 8 p.base ++ leBytes 4 p.total ++ leBytes 2 (bits d.toNat 207 192) ++ leBytes 1 (bits d.toNat 215 208) ++ [0] ++
              (List.range p.total).flatMap (fun j => digestBytes (tget w.leaves j 0)))))) ∧
      (p.pool = true → bits p.desc.toNat 7 0 = 0x17 → p.work.resultsWritten = false →
        let k := bits p.desc.toNat 478 469 + 1
        let t := (List.range (bits p.desc.toNat 468 465 + 1)).foldl (fun s q => if p.work.queryInvalid.getLsbD q then s
          else storeAt s n p (bits p.desc.toNat 376 320 + q * k * 8) (listBytes k (mergedList p.desc p.work q))) (modSpray s n (fun p => { p with work := { p.work with resultsWritten := true } }))
        ∀ y, sprayOf? t n = some y → y.stores ≠ 0 → exec (.sprayComplete n) s = .next t) ∧
      (∀ (a : Nat) (bs : List Byte), bs ≠ [] → a % 256 + bs.length ≤ 256 →
        (writableOffset s p.asid a = none → storeAt s n p a bs = modSpray s n (fun p => { p with work := { p.work with resultFailed := true } })) ∧
        (∀ o, writableOffset s p.asid a = some o → o % 256 = a % 256 → ∃ v m, storeAt s n p a bs = sprayStore s n 2 (o / 8 * 8) ((o % 256 + bs.length - 1) / 8 - o % 256 / 8) v (some m) ∧
          (∀ j < bs.length, (lineBytes v)[o % 256 + j]? = bs[j]?) ∧ ∀ j < 256, m.getLsbD j = (decide (o % 256 ≤ j) && decide (j < o % 256 + bs.length)))) ∧
      (p.pool = false → ∀ r, p.work.resultsWritten = true → p.record = some r → p.recordWritten = true → p.recordFailed = false → p.answered = false → p.cancelWaits = [] →
        let u := respond s p.region p.via p.pkt { data := some r, launch := true }
        let v := epochSub (modExtent u ((extentAt u (p.pkt.address % 2 ^ 40)).getD 0) (fun e => { e with inFlight := e.inFlight - 1 })) p.tenant p.epoch
        exec (.sprayComplete n) s = .next { v with eng := { v.eng with sprays := tdel v.eng.sprays n, opPages := v.eng.opPages - p.pages } }))

/-- Items of the built-in pool operations (09, R233, R237 to R249, Table 9.4): a resident item that waits for nothing reads the lines it lacks, up to 64 consecutive ones as one tile (the model's choice, log entry 16); with all of them it computes its units, whose addresses and bytes R239, R242 and R247 to R249 give; an ATTEND item whose length exceeds its page table ends INDEX_RANGE. POOL_ITEM_UNIT_COMMIT (09, R233, R236, R239, R240, R242, R243, R246): the next unit of a computed item goes to its home agent as one line, a whole block of ZERO as one tile of 16 lines; a merging kind merges once and marks its item in the same step: mismatches, a W48 value, ranked lists or a digest. The order in which products and elements are combined is open (log entry 8), and so are EXP2's and RCP's last units. What rests on log entries 3, 8, 16 and 18 is the model's choice. -/
def Obligations.PoolItemsComputeAndCommit : Prop :=
  (
    (∀ row ∈ [(0x10, Instr.fill), (0x11, Instr.zero), (0x12, Instr.copy), (0x13, Instr.compare), (0x14, Instr.reduce), (0x15, Instr.gather), (0x16, Instr.scatter),
        (0x17, Instr.search), (0x18, Instr.attend), (0x19, Instr.digest)],
      ∀ (s : State) (t : ThreadRef) (p : Spray) (th : Thread), threadOf? s t.engine t.thread = some th → sprayOf? s th.spray = some p → p.pool = true →
        mayIssue s t th = true → threadTiles s t.engine t.thread = [] → th.computed = false → bits p.desc.toNat 7 0 = row.1 →
        let base := p.base
        let lacks := itemLacks p.desc base th.item th.got
        (itemOutOfRange p.desc th.item th.got = true → exec (row.2 t) s = .next (failThread s t.engine t.thread { status := 0xA1 })) ∧
        (itemOutOfRange p.desc th.item th.got = false →
          (lacks = [] → exec (row.2 t) s = .next (setThread (useFree s) t.engine t.thread { th with computed := true, units := itemUnits p.desc s.time.free th.item th.got })) ∧
          (∀ l more, lacks = l :: more → ∃ n, 1 ≤ n ∧ n ≤ 64 ∧ (∀ j < n, lacks[j]? = some (l + j)) ∧ (n < 64 → lacks[n]? ≠ some (l + n)) ∧
            let x : Tile := { engine := t.engine, thread := t.thread, spray := th.spray, asid := bits p.desc.toNat 39 24, base := 256 * l, rows := n, rowBytes := 256, stride := 256, op := 0x03, direct := decide (row.1 = 0x19), use := .itemRead, bytes := List.replicate (256 * n) 0 }
            (row.1 = 0x19 ∨ 256 * (l + n) ≤ 2 ^ 57 → exec (row.2 t) s = .next (newTile s x)) ∧
            (row.1 ≠ 0x19 → 2 ^ 57 < 256 * (l + n) → exec (row.2 t) s = .next (failThread s t.engine t.thread { status := 0x83, pva := x.badPva }))))) ∧
    (∀ (d : Line) (no base i : Nat) (g : Tab Line),
      let dst := bits d.toNat 248 192
      let src := bits d.toNat 312 256
      let src2 := bits d.toNat 376 320
      let index := bits d.toNat 440 384
      let r := bits d.toNat 475 472 + 1
      let units := itemUnits d no i g
      let kind := bits d.toNat 7 0
      (kind = 0x10 → itemLacks d base i g = [] ∧ ∃ v, units = [(0, dst + 256 * i, v)] ∧ ∀ w < 32, (lineWord v w).toNat = bits d.toNat 575 512) ∧
      (kind = 0x11 → itemLacks d base i g = [] ∧ units = [(0, dst + 256 * i, 0)]) ∧
      (kind = 0x12 → src % 256 = 0 →
        (itemLacks d base i g = [] ↔ (tget? g (src / 256 + i)).isSome = true) ∧ ∀ v, tget? g (src / 256 + i) = some v → units = [(0, dst + 256 * i, v)]) ∧
      (kind = 0x15 → src % 256 = 0 → index % 4 = 0 → ∀ v, tget? g ((index + 4 * (i / r)) / 256) = some v →
        let n := bits v.toNat (8 * ((index + 4 * (i / r)) % 256) + 31) (8 * ((index + 4 * (i / r)) % 256))
        ∀ u, tget? g (src / 256 + (n * r + i % r)) = some u → itemLacks d base i g = [] ∧ units = [(0, dst + 256 * i, u)]) ∧
      (kind = 0x16 → src % 256 = 0 → index % 4 = 0 → ∀ v, tget? g ((index + 4 * (i / r)) / 256) = some v →
        let n := bits v.toNat (8 * ((index + 4 * (i / r)) % 256) + 31) (8 * ((index + 4 * (i / r)) % 256))
        ∀ u, tget? g (src / 256 + i) = some u → itemLacks d base i g = [] ∧ units = [(0, dst + 256 * (n * r + i % r), u)]) ∧
      (kind = 0x14 → bits d.toNat 482 482 = 0 → bits d.toNat 479 476 ∈ [6, 7, 8, 9] → src % 256 = 0 → src2 % 256 = 0 →
        ∀ x y, tget? g (src / 256 + i) = some x → tget? g (src2 / 256 + i) = some y →
        let m := fmtD (bits d.toNat 479 476)
        let w := m.width
        let el := fun (l : Line) (j : Nat) => decodeElem m (bits l.toNat (w * j + w - 1) (w * j))
        itemLacks d base i g = [] ∧ ∃ v, units = [(0, dst + 256 * i, v)] ∧ ∀ j < 2048 / w, bits v.toNat (w * j + w - 1) (w * j) = encodeElem m
          (if bits d.toNat 481 480 = 0 then Machine.Num.sum [el x j, el y j] else if bits d.toNat 481 480 = 1 then Machine.Num.pick true (el x j) (el y j) else Machine.Num.pick false (el x j) (el y j)) false false % 2 ^ w) ∧
      (kind = 0x18 →
        let nh := bits d.toNat 709 704 + 1
        let ng := bits d.toNat 713 710 + 1
        let dim := 64 * (bits d.toNat 715 714 + 1)
        let e := if bit d.toNat 720 then 2 else 4
        let fmt := bits d.toNat 719 716
        let page := 16 * 2 ^ bits d.toNat 723 721
        let c := (ng * dim * e + 255) / 256
        let rb := rowBytesOf fmt dim
        let row := fun (value tok : Nat) =>
          let pg := (gotWord g (src2 + 4 * (i / nh * (bits d.toNat 703 688 + 1) + tok / page))).getD 0
          rowValues fmt dim (gotBytes g (src + pg * (nh * 2 * page * rb) + ((2 * (i % nh) + value) * page + tok % page) * rb) rb)
        ∀ len, gotWord g (index + 4 * (i / nh)) = some len → ∃ hs : List HeadOut, hs.length = ng ∧ units.length = c + 1 ∧
          (∀ u < c, units[u]? = some (u, bits d.toNat 504 448 + 256 * (c * i + u), bytesLine (slice (hs.flatMap (fun x => x.out.flatMap (leBytes e))) (256 * u) 256))) ∧
          units[c]? = some (c, bits d.toNat 568 512 + 256 * i, bytesLine (hs.flatMap (fun x => leBytes 4 x.m ++ leBytes 4 x.l))) ∧
          ∀ q < ng, ∃ x, hs[q]? = some x ∧
            let query := quantizeQuery 0 (gotFloats g (dst + 4 * ((i / nh * nh + i % nh) * ng + q) * dim) dim)
            (query = none ∨ (∃ tok < len, Machine.Num.nan ∈ row 0 tok ++ row 1 tok) → x.out = List.replicate dim (if e = 2 then 0x7FC0 else 0x7FC00000) ∧ x.m = 0x7FC00000 ∧ x.l = 0x7FC00000) ∧
            (query ≠ none → len = 0 → x.out = List.replicate dim 0 ∧ x.m = 0xFF800000 ∧ x.l = 0) ∧
            (∀ y, query = some y → 0 < len → (∀ tok < len, Machine.Num.nan ∉ row 0 tok ++ row 1 tok) →
              let num := fun (hi lo : Nat) => decodeElem fp32 (bits d.toNat hi lo)
              ∃ sc : List Machine.Num, sc.length = len ∧
                (∀ tok < len, ∃ gs : List (List Machine.Num), gs.flatten.Perm (List.zipWith Machine.Num.mul y.1 (row 0 tok)) ∧ (∀ z ∈ gs, z.length ≤ 4) ∧
                  let a := gs.foldl (fun a z => w48Write (Machine.Num.sum (w48Value a :: z)) (w48Flags a)) 0
                  sc[tok]? = some (toFp32 ((((w48Value a).shift y.2).mul (num 639 608)).mul (toFp32 ((num 607 576).mul (.fin false log2e (-120))))))) ∧
                let hd := (groups len 32 (sc.zip ((List.range len).map (row 1)))).foldl (fun h b => attendBlock no (num 671 640) h (b.map Prod.fst) (b.map Prod.snd))
                  { m := .inf true, l := 0, o := List.replicate dim 0 }
                x.m = encodeFloat fp32 hd.m false false ∧ x.l = encodeFloat fp32 (toFp32 (w48Value hd.l)) false false ∧
                x.out = hd.o.map (fun w => encodeFloat (if e = 2 then bf16 else fp32) ((w48Value w).mul (decodeElem fp32 (sfu 2 (BitVec.ofNat 32 x.l) no))) false false)))) ∧
    (∀ (no : Nat) (scale : Machine.Num) (h : Head) (scores : List Machine.Num) (vals : List (List Machine.Num)),
      let mn := scores.foldl (Machine.Num.pick false) h.m
      let e2 := fun (x : Machine.Num) => decodeElem fp32 (sfu 0 (BitVec.ofNat 32 (encodeFloat fp32 (toFp32 (Machine.Num.sum [x, mn.neg])) false false)) no)
      let al := if h.m = .inf true then .fin false 0 0 else e2 h.m
      let ps := scores.map (fun x => decodeElem bf16 (encodeFloat bf16 (e2 x) false false))
      let add := fun (w : Word) (terms : List Machine.Num) =>
        let a := round48 ((w48Value w).mul al)
        w48Write (Machine.Num.sum (w48Value a :: terms)) (w48Flags a ||| w48Flags w)
      let n := attendBlock no scale h scores vals
      n.m = mn ∧ n.l = add h.l ps ∧ n.o.length = h.o.length ∧
      ∀ j w, h.o[j]? = some w → n.o[j]? = some (add w (List.zipWith (fun x v => (x.mul (v.getD j (.fin false 0 0))).mul scale) ps vals))) ∧
    (∀ (fmt : Nat) (l : List Machine.Num),
      ((∃ x ∈ l, ∀ n m e, x ≠ .fin n m e) → quantizeQuery fmt l = none) ∧
      ((∀ x ∈ l, ∃ n m e, x = .fin n m e) →
        (fmt = 7 → quantizeQuery fmt l = some (l.map (fun x => decodeElem (fmtD 7) (encodeFloat (fmtD 7) x false false)), 0)) ∧
        (fmt ≠ 7 → ∃ x, mxExponent 8 l = some x ∧ quantizeQuery fmt l = some (l.map (fun v => decodeElem (fmtD 0) (encodeFloat (fmtD 0) (v.shift (-x)) false true)), x)))) ∧
    (∀ (d : Line) (no : Nat) (q : List Machine.Num × Int) (x : List Machine.Num),
      let sumOf := fun (ps : List Machine.Num) (v : Word) => ∃ gs : List (List Machine.Num), gs.flatten.Perm ps ∧ (∀ z ∈ gs, z.length ≤ if bits d.toNat 463 460 = 7 then 2 else 4) ∧
        v = gs.foldl (fun a z => w48Write (Machine.Num.sum (w48Value a :: z)) (w48Flags a)) 0
      ∃ a, sumOf (List.zipWith Machine.Num.mul q.1 x) a ∧
        (bit d.toNat 464 = false → searchScore d no q x = encodeFloat fp32 ((w48Value a).shift q.2) false false) ∧
        (bit d.toNat 464 = true → ∃ b c, sumOf (List.zipWith Machine.Num.mul q.1 q.1) b ∧ sumOf (List.zipWith Machine.Num.mul x x) c ∧
          searchScore d no q x = encodeFloat fp32 (w48Value (round48 (Machine.Num.sum [(w48Value b).shift (2 * q.2), ((w48Value a).shift (q.2 + 1)).neg, w48Value c]))) false false)) ∧
    (∀ (op : Nat) (a b : Word), totalOp op a b = w48Write (if op = 0 then Machine.Num.sum [w48Value a, w48Value b] else Machine.Num.pick (op == 1) (w48Value a) (w48Value b)) (w48Flags a ||| w48Flags b)) ∧
    (∀ (d : Line) (w : PoolWork) (q : Nat) (l2 : Bool), bit d.toNat 464 = l2 →
      let k := bits d.toNat 478 469 + 1
      let all := (List.range 4).flatMap (fun a => tget w.lists (a * 16 + q) [])
      let before := fun (x y : BitVec 32 × Nat) => ∃ c, (decodeElem fp32 x.1.toNat).cmp (decodeElem fp32 y.1.toNat) = some c ∧ (c = 0 → x.2 ≤ y.2) ∧ (if l2 then c ≤ 0 else 0 ≤ c)
      (∀ x ∈ all, decodeElem fp32 x.1.toNat ≠ .nan) →
        (∃ rest, (mergedList d w q ++ rest).Perm all ∧ (mergedList d w q).length = min k all.length ∧ (mergedList d w q).Pairwise before ∧
          ∀ x ∈ mergedList d w q, ∀ y ∈ rest, before x y) ∧
        ∀ j < k, slice (listBytes k (mergedList d w q)) (8 * j) 8 = match (mergedList d w q)[j]? with
          | some x => leBytes 4 x.1.toNat ++ leBytes 4 x.2
          | none => leBytes 4 0x7FC00000 ++ leBytes 4 0xFFFFFFFF)) ∧
  (
    ∀ (s : State) (t : ThreadRef) (p : Spray) (th : Thread), threadOf? s t.engine t.thread = some th → sprayOf? s th.spray = some p → p.pool = true →
      mayIssue s t th = true → threadTiles s t.engine t.thread = [] → th.computed = true →
      let d := p.desc
      let kind := bits d.toNat 7 0
      let units := unitsLeft p th
      let tile := fun (a rows op : Nat) (use : TileUse) (bs : List Byte) =>
        ({ engine := t.engine, thread := t.thread, spray := th.spray, asid := bits d.toNat 39 24, base := a, rows := rows, rowBytes := 256, stride := 256, op := op, use := use, bytes := bs } : Tile)
      (mergesItems d = false → kind ≠ 0x19 →
        (units = [] → exec (.poolItemUnitCommit t) s = .next s) ∧
        (∀ u a v more, units = (u, a, v) :: more → ¬(th.items = 16 ∧ more.length = 15) → a % 256 = 0 →
          let x := tile a 1 (if kind = 0x11 then 0x08 else 0x04) (.itemUnit u) (lineBytes v)
          (a < 2 ^ 57 → exec (.poolItemUnitCommit t) s = .next (newTile s x)) ∧
          (2 ^ 57 ≤ a → exec (.poolItemUnitCommit t) s = .next (failThread s t.engine t.thread { status := 0x83, pva := a % 2 ^ 57 }))) ∧
        (∀ u a v more, units = (u, a, v) :: more → th.items = 16 → more.length = 15 → a % 4096 = 0 → a + 4096 ≤ 2 ^ 57 →
          exec (.poolItemUnitCommit t) s = .next (newTile s (tile a 16 0x08 (.zeroBlock u) (List.replicate 4096 0))))) ∧
      (mergesItems d = true →
        (th.item ∈ p.commits → exec (.poolItemUnitCommit t) s = .next s) ∧
        (th.item ∉ p.commits → ∃ u q w, exec (.poolItemUnitCommit t) s = .next u ∧ sprayOf? u th.spray = some q ∧ q = { p with commits := th.item :: p.commits, work := w } ∧
          { u with eng := { u.eng with sprays := s.eng.sprays }, time := s.time } = s ∧ (∀ n, n ≠ th.spray → sprayOf? u n = sprayOf? s n) ∧
          (kind = 0x13 → bits d.toNat 312 256 % 256 = 0 → bits d.toNat 376 320 % 256 = 0 → ∀ x y, tget? th.got (bits d.toNat 312 256 / 256 + th.item) = some x →
            tget? th.got (bits d.toNat 376 320 / 256 + th.item) = some y →
            (x = y → w = p.work) ∧
            (x ≠ y → let k := t.engine / 128
              w = { p.work with mismatches := p.work.mismatches.set k (p.work.mismatches.getD k 0 + 1), minIndex := p.work.minIndex.set k (min th.item (p.work.minIndex.getD k 0xFFFFFFFF)) })) ∧
          (kind = 0x14 → bits d.toNat 479 476 ∈ [6, 7, 8, 9] → bits d.toNat 312 256 % 256 = 0 → ∀ x, tget? th.got (bits d.toNat 312 256 / 256 + th.item) = some x →
            let m := fmtD (bits d.toNat 479 476)
            let k := t.engine / 128
            ∃ es : List Machine.Num, es.Perm ((List.range (2048 / m.width)).map (fun j => decodeElem m (bits x.toNat (m.width * j + m.width - 1) (m.width * j)))) ∧
              let v := match es.map round48 with | [] => 0 | a :: more => more.foldl (totalOp (bits d.toNat 481 480)) a
              w = { p.work with values := p.work.values.set k (if p.work.merged.getD k false then totalOp (bits d.toNat 481 480) (p.work.values.getD k 0) v else v), merged := p.work.merged.set k true }) ∧
          (kind = 0x17 →
            let fmt := bits d.toNat 463 460
            let dim := bits d.toNat 459 448 + 1
            let nq := bits d.toNat 468 465 + 1
            let k := bits d.toNat 478 469 + 1
            let l2 := bit d.toNat 464
            let rows := (List.range (min 256 (bits d.toNat 447 416 + 1 - 256 * th.item))).map (256 * th.item + ·)
            let query := fun (j : Nat) => quantizeQuery fmt (gotFloats th.got (bits d.toNat 312 256 + 4 * j * dim) dim)
            let score := fun (y : List Machine.Num × Int) (r : Nat) => BitVec.ofNat 32 (searchScore d s.time.free y (rowValues fmt dim (gotBytes th.got (bits d.toNat 248 192 + r * bits d.toNat 415 384) (rowBytesOf fmt dim))))
            let isNan := fun (c : BitVec 32) => decodeElem fp32 c.toNat == .nan
            let before := fun (x y : BitVec 32 × Nat) => ∃ c, (decodeElem fp32 x.1.toNat).cmp (decodeElem fp32 y.1.toNat) = some c ∧ (c = 0 → x.2 ≤ y.2) ∧ (if l2 then c ≤ 0 else 0 ≤ c)
            w = { p.work with lists := w.lists, queryInvalid := w.queryInvalid, nanRows := w.nanRows, rowsScored := w.rowsScored } ∧
            (∀ j < 16, w.queryInvalid.getLsbD j = (p.work.queryInvalid.getLsbD j || (decide (j < nq) && (query j).isNone))) ∧
            w.nanRows = min (p.work.nanRows + (rows.filter (fun r => (List.range nq).any (fun j => match query j with | none => false | some y => isNan (score y r)))).length) (2 ^ 32 - 1) ∧
            w.rowsScored = min (p.work.rowsScored + (rows.filter (fun r => (List.range nq).any (fun j => match query j with | none => false | some y => !isNan (score y r)))).length) (2 ^ 32 - 1) ∧
            (∀ n, (∀ j < nq, n ≠ t.engine / 128 * 16 + j) → tget? w.lists n = tget? p.work.lists n) ∧
            ∀ j < nq,
              let old := tget p.work.lists (t.engine / 128 * 16 + j) []
              let got := tget w.lists (t.engine / 128 * 16 + j) []
              let all := old ++ (match query j with | none => [] | some y => (rows.map (fun r => (score y r, r))).filter (fun x => !isNan x.1))
              (∀ x ∈ old, isNan x.1 = false) → ∃ rest, (got ++ rest).Perm all ∧ got.length = min k all.length ∧ got.Pairwise before ∧ ∀ x ∈ got, ∀ y ∈ rest, before x y) ∧
          (kind = 0x19 → w = { p.work with leaves := tset p.work.leaves th.item (sha384 (gotBytes th.got (p.base + 2097152 * th.item) 2097152)) }))))

/-- Accesses of this module's memory (07, R187, R188; 09, R240): an access enters the engine queue of its line's region with the words it touches, or is held where the queue is full; beyond 896 GiB it is answered ADDRESS_INVALID; room moves the oldest held one; a whole block of ZERO clears its valid bits and sets its 16 commit bits at once. That it does so where two channels of the stripe are fenced is log entry 27's; what rests on log entries 16 and 27 is the model's choice. -/
def Obligations.EngineAccessesEnterQueues : Prop :=
  (∀ (s : State) (id : Nat) (x : Access) (t : Tile) (p : Spray), accessOf? s id = some x → tileOf? s x.tile = some t → sprayOf? s t.spray = some p →
    x.st = .waiting → x.ppa / 2 ^ 40 = selfId s → t.waitsOnFault = false → mustFollow s id x t false = false →
    let o := x.ppa % 2 ^ 40
    let k := homeRegion s o
    let y := regionOf s k
    let s1 := setAccess s id { x with st := .inModule }
    let b := x.ppa % 256
    ((∀ u, t.use ≠ .zeroBlock u) →
      (896 * 2 ^ 30 ≤ o → exec (.engineLocalAccess id) s = .next (deliver s1 id { status := 0x09 })) ∧
      (o < 896 * 2 ^ 30 → y.engineQ.length < 1024 → y.engineHeld = [] →
        (∀ st, extentRefusal s x.op (if x.op = 0x08 then o / 256 * 256 else o / 8 * 8) p.source p.tenant = some st → ∃ v, exec (.engineLocalAccess id) s = .next (deliver (logViolation s1 v) id { status := st })) ∧
        (∀ n need, (x.op, need) ∈ [(0x03, 1), (0x04, 2), (0x08, 2), (0x10, 3), (0x11, 3), (0x12, 3), (0x13, 3), (0x14, 3), (0x15, 3), (0x16, 3), (0x17, 3)] →
          extentAt s o = some n → Allowed s n x.op need (if x.op = 0x08 then o / 256 * 256 else o / 8 * 8) p.source p.tenant →
          ∃ u r, exec (.engineLocalAccess id) s = .next u ∧ accessOf? u id = some { x with st := .inModule } ∧
            extentOf u n = { extentOf s n with inFlight := (extentOf s n).inFlight + 1 } ∧ (∀ m, m ≠ n → extentOf u m = extentOf s m) ∧
            regionOf u k = { y with arrivals := y.arrivals + 1, ingressPtr := (r.path + 1) % 12, engineQ := y.engineQ ++ [r] } ∧ (∀ j, j ≠ k → regionOf u j = regionOf s j) ∧
            r.op = x.op ∧ r.ext = n ∧ r.source = p.source ∧ r.tenant = p.tenant ∧ r.payload = x.payload ∧ r.arrival = y.arrivals ∧ r.counted = true ∧
            r.dir = (extentOf s n).coherent ∧ (x.op ≠ 0x08 → r.offset = o / 8 * 8 ∧ r.length = (b + x.count - 1) / 8 - b / 8) ∧
            (x.op = 0x08 → r.offset = o / 256 * 256 ∧ r.length = 31))) ∧
      (o < 896 * 2 ^ 30 → (1024 ≤ y.engineQ.length ∨ y.engineHeld ≠ []) →
        ∃ r, exec (.engineLocalAccess id) s = .next (modRegion s1 k (fun y => { y with engineHeld := y.engineHeld ++ [r] })) ∧ r.op = x.op ∧ r.source = p.source ∧ r.tenant = p.tenant)) ∧
    (∀ u n, t.use = .zeroBlock u → o < 896 * 2 ^ 30 → extentAt s o = some n → Allowed s n 0x08 2 o p.source p.tenant → (extentOf s n).coherent = false →
      (∀ i < 16, quietLine s (o + 256 * i) = true) → sabAt s (mapOffset (extentOf s n) o).lstack (mapOffset (extentOf s n) o).stripe = none →
      exec (.engineLocalAccess id) s = .next (deliver ((List.range 16).foldl (fun s i => markUnit s t.spray (u + i)) (cacheValid (setValidBlock s o 0) (homeRegion s o) o true)) id {}))) ∧
  (∀ (s : State) (k : Nat) (r : Req) (rest : List Req), (regionOf s k).engineHeld = r :: rest → (regionOf s k).engineQ.length < 1024 →
    let s1 := modRegion s k (fun y => { y with engineHeld := rest })
    (∀ id, r.access = some id →
      (∀ st, extentRefusal s r.op r.offset r.source r.tenant = some st → ∃ v, exec (.engineQueueRoom k) s = .next (deliver (logViolation s1 v) id { status := st })) ∧
      (extentRefusal s r.op r.offset r.source r.tenant = none → homeRegion s r.offset = k → ∃ u n, exec (.engineQueueRoom k) s = .next u ∧
        regionOf u k = { regionOf s k with engineHeld := rest, arrivals := (regionOf s k).arrivals + 1, ingressPtr := (r.path + 1) % 12, engineQ := (regionOf s k).engineQ ++ [{ r with ext := n, dir := (extentOf s n).coherent, counted := true, arrival := (regionOf s k).arrivals }] })) ∧
    (r.access = none → ∃ u, exec (.engineQueueRoom k) s = .next u ∧
      regionOf u k = { regionOf s k with engineHeld := rest, arrivals := (regionOf s k).arrivals + 1, ingressPtr := (r.path + 1) % 12, engineQ := (regionOf s k).engineQ ++ [{ r with arrival := (regionOf s k).arrivals }] } ∧
      { u with coh := { u.coh with regions := s.coh.regions } } = s))

/-- Accesses of other modules and their answers (07, R187, R189 to R191; 03, R65, R72, R73; 09, R236): a free tag and a forwarding entry, the packet under the tenant's key, RETRY and STALE_ROLE resends, the 50 ms timeout whose tag stays out of use, responses matched by tag and generation, those with a reserved status discarded (00, R7), and what an answer does to its thread. What rests on log entries 3, 8 and 24 is the model's choice. -/
def Obligations.RemoteAccessesAndAnswers : Prop :=
  (∀ (s : State) (id : Nat) (x : Access) (t : Tile) (p : Spray), accessOf? s id = some x → tileOf? s x.tile = some t → sprayOf? s t.spray = some p →
    let k := t.engine / 128
    let dest := x.ppa / 2 ^ 40
    (x.st = .waiting → dest ≠ selfId s → t.waitsOnFault = false → mustFollow s id x t true = false →
      ((∃ u, t.use = .itemUnit u ∨ t.use = .zeroBlock u) → exec (.remoteAccessSend id) s = .next (failAccess s id { status := 0xA0, pva := x.pva })) ∧
      ((∀ u, t.use ≠ .itemUnit u ∧ t.use ≠ .zeroBlock u) →
        (freeTag s k dest = none → exec (.remoteAccessSend id) s = .next s) ∧
        (∀ tag, freeTag s k dest = some tag →
          let f : Forward := { region := k, tag := tag, endpoint := dest, engine := t.engine, thread := t.thread, gen := (logEngOf s t.engine).gen, access := id }
          let y := { x with st := AccState.remote tag s.time.clock }
          exec (.remoteAccessSend id) s = .next (sendRemote (setAccess { s with eng := { s.eng with forwards := s.eng.forwards ++ [f] } } id y) id y t p tag)))) ∧
    (∀ tag, freeTag s k dest = some tag → k * 2 ^ 14 ≤ tag ∧ tag < (k + 1) * 2 ^ 14 ∧ ∀ f ∈ s.eng.forwards, f.region = k → f.endpoint = dest → f.tag ≠ tag) ∧
    (∀ tag first until_, x.st = .backoff tag first until_ → until_ ≤ s.time.clock →
      exec (.remoteRetryBackoff id) s = .next (sendRemote (setAccess s id { x with st := .remote tag first }) id { x with st := .remote tag first } t p tag)) ∧
    (∀ tag first, x.st = .remote tag first → first + 12500000 ≤ s.time.clock → exec (.remoteTimeout id) s =
      .next (failAccess { s with eng := { s.eng with forwards := s.eng.forwards.map (fun f => if f.access == id && !f.held then { f with held := true } else f) } } id { status := 0x8E, pva := x.pva })) ∧
    (∀ tag ten, tenantOf? s p.tenant = some ten → x.ppa % 8 = 0 → x.count % 8 = 0 → x.op ≠ 0x08 →
      let c := tget s.hub.counters k 0
      let gen := (logEngOf s t.engine).gen
      let q : Packet := { opcode := x.op, tag := tag, tenant := p.tenant, keyEpoch := ten.epoch % 2, source := selfId s, dest := dest, roleGen := gen, length := (x.ppa % 256 + x.count - 1) / 8 - x.ppa % 256 / 8, address := dest * 2 ^ 40 + x.ppa % 2 ^ 40, msgCounter := k * 2 ^ 61 + c, payload := if x.op = 0x03 then none else some x.payload }
      x.op ∈ [0x03, 0x04, 0x10, 0x11, 0x12, 0x13, 0x14, 0x15, 0x16, 0x17] →
      let s1 := { s with hub := { s.hub with counters := tset s.hub.counters k ((c + 1) % 2 ^ 61) } }
      sendRemote s id x t p tag = setAccess (sendOn (outPort s1 k).2 (outPort s1 k).1 (protect ten.key q)) id { x with epoch := some ten.epoch, gen := gen })) ∧
  (∀ row ∈ [(0x30, Instr.resp), (0x31, Instr.respData), (0x32, Instr.completion)], ∀ (s : State) (m : Nat) (p : Packet), p.opcode = row.1 → hubRuns s = true →
    let go := exec (row.2 (.genura m) p) s
    let d := (duplicate s p.source p.msgCounter).2
    exec (row.2 .darinlink p) s = .next (countDiscard s) ∧
    (p.dest ≠ selfId s → go = .next s) ∧
    (p.dest = selfId s → p.vc = 4 → (duplicate s p.source p.msgCounter).1 = false →
      (s.eng.forwards.find? (fun f => f.tag == p.tag && f.endpoint == p.source) = none → go = .next (countLate d)) ∧
      (∀ f, s.eng.forwards.find? (fun f => f.tag == p.tag && f.endpoint == p.source) = some f →
        (f.held = true → go = .next (countLate (failAccess (dropForward d f) f.access { status := 0x8D }))) ∧
        (f.held = false → p.roleGen ≠ (logEngOf s f.engine).gen → go = .next (countLate d)) ∧
        (f.held = false → p.roleGen = (logEngOf s f.engine).gen →
          (p.encrypted = false → unprotectedStatus p.status = true → go = .next (takeResponse d f p)) ∧
          (∀ q e, p.encrypted = true → openPacket s p = .plain q e → go = .next (takeResponse d f q)))))) ∧
  (∀ (s : State) (f : Forward) (p : Packet) (x : Access) (tag first : Nat), accessOf? s f.access = some x → x.st = .remote tag first →
    (p.status = 0x01 → p.aux / 4096 < 2 → takeResponse s f p = setAccess s f.access { x with st := .backoff f.tag first (s.time.clock + p.aux % 4096 * 250) }) ∧
    (p.status = 0x17 → takeResponse s f p = setAccess s f.access { x with st := .backoff f.tag first s.time.clock }) ∧
    (reservedStatus p.status = true ∨ p.status = 0x01 ∧ 2 ≤ p.aux / 4096 → takeResponse s f p = countDiscard s) ∧
    (reservedStatus p.status = false → p.status ≠ 0x01 → p.status ≠ 0x17 → (p.status = 0 → x.op = 0x04 ∨ p.payload.isSome = true) →
      takeResponse s f p = deliver { s with eng := { s.eng with forwards := s.eng.forwards.filter (· != f) } } f.access { status := p.status, data := p.payload })) ∧
  (∀ (s : State) (id : Nat) (x : Access) (t : Tile) (th : Thread), accessOf? s id = some x → tileOf? s x.tile = some t → threadOf? s t.engine t.thread = some th → t.thread ≠ 64 →
    (∀ rd size sg d, t.use = .scalarLoad rd size sg → t.op = 0x03 → t.left = 1 → t.failed = false → x.first = 0 → x.count = size → t.bytes.length = size →
      ∃ u, deliver s id { data := some d } = u ∧ accessOf? u id = none ∧ tileOf? u x.tile = none ∧
        threadOf? u t.engine t.thread = some { th with sregs := th.sregs.set rd (extend size sg (ofLe (slice (lineBytes d) (x.ppa % 256) size))) } ∧
        { u with eng := { u.eng with accesses := s.eng.accesses, tiles := s.eng.tiles, threads := s.eng.threads } } = s) ∧
    (∀ st, st ≠ 0 → th.phase = .running → t.direct = false → ∃ u y, deliver s id { status := st } = u ∧ accessOf? u id = none ∧ threadOf? u t.engine t.thread = some y ∧
      y.phase = .failing { status := accessFailure (decide (x.ppa / 2 ^ 40 ≠ selfId s)) st, detail := st, pva := x.pva } ∧ y.sregs = th.sregs ∧ y.vregs = th.vregs ∧ y.pc = th.pc))

/-- Fault batches and invalidation (07, R194 to R200): a batch closes with the next BATCH_SEQ and its tiles name their record; it is written to the head of the ring once the slot is free and its lines are quiet, or the ring is withdrawn; a tile without a verdict in time ends FAULT_TIMEOUT; an engine acknowledges what it has drained, and the 512th acknowledgement answers the order. What rests on log entries 3 and 16 is the model's choice. -/
def Obligations.FaultBatchesAndInvalidation : Prop :=
  ∀ (s : State),
    (∀ k, let c := collectOf s k
      c.openRecs ≠ [] → c.openRecs.length ≤ 256 → (256 ≤ c.openRecs.length ∨ c.openSince + 5000 ≤ s.time.clock) → (∀ b ∈ s.eng.batches, b.region = k → b.written = true) →
      (c.openRecs.map (·.tile)).Nodup →
      ∃ t b, exec (.faultBatchClose k) s = .next t ∧ t.eng.batches = s.eng.batches ++ [b] ∧ b.seq = s.eng.batchSeq ∧ b.region = k ∧ b.recs = c.openRecs ∧ b.written = false ∧ b.reissued = false ∧
        t.eng.batchSeq = (s.eng.batchSeq + 1) % 2 ^ 32 ∧ (collectOf t k).openRecs = c.waiting.take 256 ∧ (collectOf t k).waiting = c.waiting.drop 256 ∧
        (∀ i r x q since rights pva, c.openRecs[i]? = some r → tileOf? s r.tile = some x → x.st = .faulted q since rights pva →
          tileOf? t r.tile = some { x with st := .faulted (some (s.eng.batchSeq, i)) since rights pva }) ∧
        { t with eng := { t.eng with batches := s.eng.batches, batchSeq := s.eng.batchSeq, collect := s.eng.collect, tiles := s.eng.tiles } } = s) ∧
    (∀ k r b, s.eng.ring = some r → nextBatch s = some b → b.region = k → (∀ x ∈ s.eng.batches, x.slot ≠ some r.head) →
      let base := r.offset + 16384 * r.head
      (∀ l ∈ batchLines s b, quietLine s (base + l.1) = true) →
      (∀ n, extentAt s base = some n → (extentOf s n).st = .granted → rightsOf (extentOf s n).access (fun _ => true) (selfId s) &&& 3 = 3 →
        let w := writeLines base k (extentOf s n).tenant (batchLines s b) s
        (w.1 = true → exec (.faultBatchWrite k) s = .next { w.2 with eng := { w.2.eng with ring := some { r with head := (r.head + 1) % r.slots }, batches := w.2.eng.batches.map (fun x => if x.seq = b.seq then { x with written := true, slot := some r.head } else x) } }) ∧
        (w.1 = false → exec (.faultBatchWrite k) s = .next (withdrawRing w.2 b))) ∧
      (extentAt s base = none → exec (.faultBatchWrite k) s = .next (withdrawRing s b)) ∧
      (∃ u, withdrawRing s b = u ∧ u.eng.ring = none ∧ u.eng.ringWithdrawn = true ∧
        u.eng.batches = s.eng.batches.map (fun x => if x.slot.isSome then { x with slot := none, reissued := true } else x))) ∧
    (∀ i x q since rights pva, tileOf? s i = some x → x.st = .faulted q since rights pva → (s.eng.timeouts = [] → timeoutAt s since = 100) ∧
      (since + timeoutAt s since * 250000 ≤ s.time.clock → exec (.faultTimeout i) s = .next (failThread s x.engine x.thread { status := 0x84, pva := pva })) ∧
      (s.time.clock < since + timeoutAt s since * 250000 → exec (.faultTimeout i) s = .next s)) ∧
    (∀ e, let acked := s.eng.invals.map (fun v => if e ∉ v.acked ∧ drained s e v.id = true then { v with acked := v.acked ++ [e] } else v)
      (∀ v ∈ acked, v.acked.length < 512) → exec (.invalidateAck e) s = .next { s with eng := { s.eng with invals := acked } }) ∧
    (∀ e v h, s.eng.invals = [v] → e ∉ v.acked → drained s e v.id = true → v.acked.length = 511 → v.waits = some h →
      exec (.invalidateAck e) s = .next (finish { s with eng := { s.eng with invals := [], asids := if v.destroy then tdel s.eng.asids v.asid else s.eng.asids } } h (if v.destroy then 0x0163 else 0x0167) 0x00))

/-- Moves and losses of engines (07, R171, R202, R203; 14, R349): a planned move holds the free spare that R171 picks, ends with the logical engine on it under the next generation, or is abandoned after 50 µs and may be tried 10 ms later; an abrupt failure fences the engine, moves its logical engine to a spare at once, or has it adopted, and leaves a FENCE record that names the spare. What rests on log entries 3 and 23 is the model's choice. -/
def Obligations.EnginesMoveAndFail : Prop :=
  (∀ (s : State) (e : Nat), let k := e / 128; let l := logEngOf s e
    (l.adoptedBy.isSome = true → moveWithheld s e = true → exec (.plannedMoveStart e) s = .next s) ∧
    (l.adoptedBy = none → recordPending s = true → exec (.plannedMoveStart e) s = .next s) ∧
    (l.move = none → (l.adoptedBy.isSome = true ∧ moveWithheld s e = false ∨ l.adoptedBy = none ∧ (physOf s k l.phys).fenced = false ∧ recordPending s = false) → (regFault s k).fenced = false → s.fault.halted = false → moveRetry s e ≤ s.time.clock →
      (spareFor s k l.phys = none → exec (.plannedMoveStart e) s = .next s) ∧
      (∀ j, spareFor s k l.phys = some j → ∃ t, exec (.plannedMoveStart e) s = .next t ∧ logEngOf t e = { l with move := some { spare := j, since := s.time.clock } } ∧
        physOf t k j = { physOf s k j with active := true, underTest := false } ∧ (∀ d, d ≠ e → logEngOf t d = logEngOf s d) ∧ t.eng.threads = s.eng.threads ∧ t.eng.tiles = s.eng.tiles)) ∧
    (∀ i j, spareFor s k i = some j → (physOf s k j).fenced = false ∧ (physOf s k j).active = false ∧ (j / 9 = i / 9 ∨ ∀ q < 9, spareFree s k (i / 9 * 9 + q) = false) ∧
      ∀ q < j, j / 9 ≠ i / 9 ∨ i / 9 * 9 ≤ q → spareFree s k q = false) ∧
    (∀ m, l.move = some m →
      (movesafe s e = true →
        (l.adoptedBy = none → exec (.plannedMoveDone e) s =
          .next (wakeResumed (modPhys (modLogEng s e (fun l => { l with phys := m.spare, gen := (l.gen + 1) % 256, move := none, adoptedBy := none })) k l.phys (fun p => { p with active := false })))) ∧
        (l.adoptedBy.isSome = true → exec (.plannedMoveDone e) s = .next (wakeResumed (replaced ((movedThreads s e).foldl (fun s x => moveThread s e x)
          (modLogEng s e (fun l => { l with phys := m.spare, gen := (l.gen + 1) % 256, move := none, adoptedBy := none }))) false k (0x2000 + l.phys))))) ∧
      (movesafe s e = false → exec (.plannedMoveDone e) s = .next s) ∧
      (m.since + 12500 ≤ s.time.clock → movesafe s e = false → (∀ x ∈ s.eng.tiles, ∀ since, x.2.st ≠ .resumed since) → ∃ t, exec (.plannedMoveAbandon e) s = .next t ∧ logEngOf t e = { l with move := none } ∧
        (physOf t k m.spare).active = false ∧ tget? (bistOf t k).retryAt e = some (s.time.clock + 2500000) ∧ t.eng.threads = s.eng.threads ∧
        (l.adoptedBy = none → (bistOf t k).abandoned = satInc 16 (bistOf s k).abandoned ∧ ∃ x rest, (bistOf t k).entries = x :: rest ∧ x.unit = 0x2000 + l.phys ∧ x.outcome = 5)))) ∧
  (∀ (s : State) (k i e : Nat), i < 144 → (physOf s k i).fenced = false → servedLogical s k i = some e → (logEngOf s e).move = none → (regFault s k).fence = none → engineThreads s e = [] →
    let s1 := modPhys s k i (fun p => { p with fenced := true, active := false, underTest := false })
    let l := logEngOf s e
    (∀ j, spareFor s1 k i = some j → ∃ t r, exec (.engineAbruptFail k i) s = .next t ∧ (physOf t k i).fenced = true ∧ (physOf t k j).active = true ∧
      logEngOf t e = { l with phys := j, gen := (l.gen + 1) % 256 } ∧ (regFault t k).fence = some r ∧ r.unit = 0x2000 + i ∧ r.cause = 0x47 ∧ r.cls = 1 ∧ r.spareUsed = some (0x2000 + j)) ∧
    (∀ a, spareFor s1 k i = none → adopterOf s1 e = some a → ∃ t r, exec (.engineAbruptFail k i) s = .next t ∧ (physOf t k i).fenced = true ∧
      logEngOf t e = { l with adoptedBy := some a } ∧ (regFault t k).fence = some r ∧ r.unit = 0x2000 + i ∧ r.cause = 0x47 ∧ r.spareUsed = none ∧
      (∃ x ∈ t.fault.out, x.hub = false ∧ x.region = k ∧ x.unit = 0x2000 + i ∧ x.withheld = false)))

/-- The checks of an order in their order (11, R283 to R288, Table 11.5): NOT_READY, NOT_MASTER, protection, ORDER_BUSY, ORDER_REPLAYED, then, with the number marked, ORDER_UNKNOWN, BAD_FIELD, NOT_OWNER, NOT_PERMITTED, MODULE_HALTED; and which sequence numbers pass. What rests on log entry 21 is the model's choice. -/
def Obligations.OrderChecksInOrder : Prop :=
  (∀ (s : State) (h : OrderHdr) (code : Nat) (prot : Nat → Option Nat) (ok : Bool),
    let got := orderRefusal s h code prot ok
    (s.hub.orderService = false → got = (some 0x02, s)) ∧
    (s.hub.orderService = true → (senderMaster s h = none → got = (some 0xC0, s)) ∧
      ∀ m, senderMaster s h = some m →
        (∀ st, prot m = some st → got = (some st, s)) ∧
        (prot m = none → (16 ≤ (masterOf s m).outstanding → got = (some 0xC4, s)) ∧
          ((masterOf s m).outstanding < 16 → (takeSeq (masterOf s m) h.seq = none → got = (some 0xC3, s)) ∧
            ∀ x, takeSeq (masterOf s m) h.seq = some x → got.2 = modMaster s m (fun _ => x) ∧
              (orderRight code = none → got.1 = some 0xC2) ∧
              (∀ r, orderRight code = some r → (ok = false → got.1 = some 0x16) ∧
                (ok = true → (r = .owner → s.hub.owner ≠ some m → got.1 = some 0xC1) ∧ (r = .masters12 → m ≠ 1 → m ≠ 2 → got.1 = some 0xC5) ∧
                  ((r = .owner → s.hub.owner = some m) → (r = .masters12 → m = 1 ∨ m = 2) →
                    (s.fault.halted = true → servedInHalt code = false → got.1 = some 0x03) ∧
                    (s.fault.halted = false ∨ servedInHalt code = true → got.1 = none)))))))) ∧
  (∀ (m : Master) (v : Nat), v < 2 ^ 32 →
    (m.highest = none → takeSeq m v = some { m with highest := some v, marks := [] }) ∧
    (∀ h, h < 2 ^ 32 → m.highest = some h → takeSeq m h = none ∧
      (∀ d, 1 ≤ d → d ≤ 2 ^ 31 - 1 → v = (h + d) % 2 ^ 32 → ∃ x, takeSeq m v = some x ∧ x.highest = some v ∧ (d ≤ 64 → h ∈ x.marks)) ∧
      (∀ d, 1 ≤ d → d ≤ 64 → h = (v + d) % 2 ^ 32 → (v ∈ m.marks → takeSeq m v = none) ∧ (v ∉ m.marks → ∃ x, takeSeq m v = some x ∧ x.highest = some h ∧ v ∈ x.marks ∧ takeSeq x v = none))))

/-- ORDER, STATUS_READ and replies (11, R277 to R282, R303, R305, Tables 11.1 to 11.3): an order is read from the fields of its body, and one whose reserved bits are set is refused at step 7; a reply's body echoes the order and carries owner, status and result; STATUS_READ is answered at the data's own place. Over Genura (R278, R279) an order whose protection opens under its manager's key, and an unprotected MGMT_KEY_AGREE, is read and run in the same way; another unprotected one, one without a key and one that does not open draw their statuses; one on another VC than 6 is discarded; replies are protected, but for those of MGMT_KEY_AGREE and of a failed protection. An order that has to wait for the exchange of the management pairs, or a key order for the security core's slice, is held as it came (14, R353, Table 14.2). What rests on log entries 21 and 22 is the model's choice. -/
def Obligations.OrderMessages : Prop :=
  (∀ (s : State) (via : Via) (p : Packet) (body : Line) (st : Option Nat) (head : Prop), hubRuns s = true → p.opcode = 0x38 →
    let raw := p.payload.getD 0
    let clean := p.payload.isSome = true ∧ p.rsvLow = 0 ∧ p.rsvMid = 0
    let low := body.toNat % 2 ^ 128
    let params := (lineBytes body).drop 16
    let code := bits low 15 0
    let h : OrderHdr := { via := via, source := p.source, master := bits low 33 32, tag := p.tag, seq := bits low 127 96, keyEpoch := p.keyEpoch, encrypted := p.encrypted }
    let acts := ∀ (ok : Bool) (got : Option Nat) (s1 : State),
      (ok = true ↔ head ∧ bits low 31 16 = 0 ∧ bits low 95 34 = 0 ∧ ∃ r, orderRow h code = some r ∧ unusedZero params r.sizes = true) →
      orderRefusal (orderTaken s h) h code (fun _ => st) ok = (got, s1) →
        (orderWaits s code = true → exec (.order via p) s = .next { s with hub := { s.hub with heldOrders := s.hub.heldOrders ++ [.order via p] } }) ∧
        (orderWaits s code = false →
          (∀ x, got = some x → exec (.order via p) s = .next (reply s1 h code x)) ∧
          (got = none → ∃ r, orderRow h code = some r ∧ exec (.order via p) s = .next (r.run (paramBytes params r.sizes) s1)))
    (via = .darinlink → body = raw → st = none → (head ↔ clean) → acts) ∧
    (∀ n, via = .genura n →
      (p.vc ≠ 6 → exec (.order via p) s = .next (countDiscard s)) ∧
      (p.vc = 6 →
        (senderMaster s h = none → body = raw → acts) ∧
        (∀ m, senderMaster s h = some m →
          (head ↔ clean ∧ p.rsvHigh = 0 ∧ p.address = 0 ∧ p.tenant = 0 ∧ p.roleGen = 0 ∧ p.aux = 0 ∧ p.length = 31 ∧ bits low 33 32 = 0) →
          (p.encrypted = false → body = raw → (st = if bits raw.toNat 15 0 = 0x0007 then none else some 0x0B) → acts) ∧
          (p.encrypted = true →
            (mgmtKey s m p.keyEpoch = none → body = raw → st = some 0x0D → acts) ∧
            (∀ key, mgmtKey s m p.keyEpoch = some key →
              (unprotect key p = none → body = raw → st = some 0x0C → acts) ∧
              (∀ q, unprotect key p = some q → body = q.payload.getD 0 → st = none → acts))))))) ∧
  (∀ (s : State) (p : Packet) (low : Nat) (params : List Byte), hubRuns s = true → orderWaits s 0x0130 = false → p.opcode = 0x38 → p.rsvLow = 0 → p.rsvMid = 0 → p.payload = some (bytesLine (leBytes 16 low ++ params)) →
    low < 2 ^ 128 → params.length = 240 → bits low 15 0 = 0x0130 → bits low 31 16 = 0 → bits low 95 34 = 0 → (∀ i < 240, i ≠ 0 → i ≠ 2 → i ≠ 3 → params.getD i 0 = 0) →
      let h : OrderHdr := { via := .darinlink, source := p.source, master := bits low 33 32, tag := p.tag, seq := bits low 127 96, keyEpoch := p.keyEpoch, encrypted := p.encrypted }
      exec (.order .darinlink p) s = exec (.slotGrant h (params.getD 0 0).toNat ((params.getD 2 0).toNat + 256 * (params.getD 3 0).toNat)) s) ∧
  (∀ (s : State) (h : OrderHdr) (code st : Nat) (res : List Byte), res.length ≤ 240 → code < 2 ^ 16 → st < 256 → h.seq < 2 ^ 32 → h.master < 4 →
    ∃ body : Line,
      (h.via = .darinlink → reply s h code st res = sendDl s { opcode := 0x39, tag := h.tag, status := st, length := 31, payload := some body }) ∧
      (∀ n, h.via = .genura n →
        let c := nextCounter s 4
        let r := replyPort c.2 n
        let q : Packet := { opcode := 0x39, tag := h.tag, source := selfId s, dest := h.source, vc := 6, status := st, length := 31, keyEpoch := h.keyEpoch, msgCounter := c.1, payload := some body }
        (code = 0x0007 ∨ st ∈ [0xC0, 0x0B, 0x0C, 0x0D, 0x02] → reply s h code st res = sendOn r.2 r.1 q) ∧
        (¬(code = 0x0007 ∨ st ∈ [0xC0, 0x0B, 0x0C, 0x0D, 0x02]) → ∀ key, mgmtKey c.2 (if n < 16 then 1 else 2) h.keyEpoch = some key → reply s h code st res = sendOn r.2 r.1 (protect key q))) ∧
      bits body.toNat 15 0 = code ∧ bits body.toNat 33 32 = h.master ∧ bits body.toNat 55 40 = res.length ∧ bits body.toNat 63 56 = st ∧
      bits body.toNat 71 71 = (if s.hub.owner.isSome then 1 else 0) ∧ bits body.toNat 70 69 = s.hub.owner.getD 0 % 4 ∧ bits body.toNat 127 96 = h.seq ∧
      ∀ i < 240, bits body.toNat (8 * (16 + i) + 7) (8 * (16 + i)) = (res.getD i 0).toNat) ∧
  (∀ (s : State) (p : Packet), hubRuns s = true → p.opcode = 0x3A →
    let n := 8 * (p.length + 1)
    (p.address % 8 = 0 → p.address % 256 + n ≤ 256 → p.address + n ≤ 65536 → exec (.statusRead p) s =
      .next (sendDl (rearmAuth s p.address n) { opcode := 0x3B, tag := p.tag, length := p.length, payload := some (bytesLine (List.replicate (p.address % 256) 0 ++ windowBytes s p.address n)) })) ∧
    (¬(p.address % 8 = 0 ∧ p.address % 256 + n ≤ 256 ∧ p.address + n ≤ 65536) → exec (.statusRead p) s = .next (sendDl s { opcode := 0x3B, tag := p.tag, length := p.length, status := 0x16 })))

/-- Orders that read (11, Table 11.7; 02, 03, 04, 05, 06, 07, 10, 12, 13, 14): one that passes its checks is answered at once with what it names, and changes nothing else; a name that does not exist is refused by its own status. What rests on log entry 21 is the model's choice. -/
def Obligations.ReadingOrders : Prop :=
  ∀ (s s1 : State) (h : OrderHdr) (a b : Nat) (nonce : BitVec 256),
    let answers := fun (i : Instr) (code st : Nat) (res : List Byte) => exec i s = .next (reply s1 h code st res)
    (Passes s h 0x0006 s1 →
      (a % 8 = 0 → b % 8 = 0 → 8 ≤ b → b ≤ 960 → a + b ≤ 65536 → exec (.statusWindowRead h a b) s = .next (reply (rearmAuth s1 a b) h 0x0006 0x00 (windowBytes s1 a b))) ∧
      (¬(a % 8 = 0 ∧ b % 8 = 0 ∧ 8 ≤ b ∧ b ≤ 960 ∧ a + b ≤ 65536) → answers (.statusWindowRead h a b) 0x0006 0x16 [])) ∧
    (Passes s h 0x0103 s1 → answers (.extentRead h a) 0x0103 0x00 (extentOf s1 a).bytes) ∧
    (Passes s h 0x0104 s1 → (896 * 2 ^ 30 ≤ a → answers (.extentFind h a) 0x0104 0x09 []) ∧
      (a < 896 * 2 ^ 30 → (extentAt s1 a = none → answers (.extentFind h a) 0x0104 0x10 []) ∧ ∀ n, extentAt s1 a = some n → answers (.extentFind h a) 0x0104 0x00 (leBytes 2 n))) ∧
    (Passes s h 0x0111 s1 → (a < 4096 → b < 4 → answers (.hostShapeRead h a b) 0x0111 0x00 (hostBytes s1 a b)) ∧ (4096 ≤ a ∨ 4 ≤ b → answers (.hostShapeRead h a b) 0x0111 0x16 [])) ∧
    (Passes s h 0x0132 s1 → answers (.slotRead h a) 0x0132 0x00 (slotBytes s1 a)) ∧
    (Passes s h 0x0135 s1 → (896 * 2 ^ 30 ≤ a → answers (.dirRead h a) 0x0135 0x09 []) ∧
      (a < 896 * 2 ^ 30 → (extentAt s1 a = none → answers (.dirRead h a) 0x0135 0x10 []) ∧
        ∀ n, extentAt s1 a = some n → ((extentOf s1 n).coherent = false → answers (.dirRead h a) 0x0135 0x14 []) ∧
          ((extentOf s1 n).coherent = true → answers (.dirRead h a) 0x0135 0x00 (dirOf s1 (windowIndex (extentOf s1 n) a)).bytes))) ∧
    (Passes s h 0x0140 s1 → (a < 4 → b < 5 → answers (.stackRead h a b) 0x0140 0x00 ((stackOf s1 (5 * a + b)).statusBytes (!outOfService s1 (5 * a + b)))) ∧ (4 ≤ a ∨ 5 ≤ b → answers (.stackRead h a b) 0x0140 0x16 [])) ∧
    (Passes s h 0x0150 s1 → (a < 4 → b < 5 → answers (.integrityRead h a b) 0x0150 0x00 (stackOf s1 (5 * a + b)).integrityBytes) ∧ (4 ≤ a ∨ 5 ≤ b → answers (.integrityRead h a b) 0x0150 0x16 [])) ∧
    (Passes s h 0x0151 s1 → (a < 4 → b ≤ 56 → b % 8 = 0 → answers (.blotterRead h a b) 0x0151 0x00 (blotterResult (blotterOf s1 a) a b)) ∧
      (4 ≤ a ∨ 56 < b ∨ b % 8 ≠ 0 → answers (.blotterRead h a b) 0x0151 0x16 [])) ∧
    (Passes s h 0x0168 s1 → (asidLive s1 a = true → answers (.mapRead h a b) 0x0168 0x00 (mapEntry s1 a b)) ∧ (asidLive s1 a = false → answers (.mapRead h a b) 0x0168 0x43 []) ∧
      (∀ first l, leafAt (spaceOf s1 a) (b / 65536) = some (first, l) → l.frame < 2 ^ 36 → ∃ e : Nat, mapEntry s1 a b = leBytes 8 e ++ leBytes 1 l.level ∧ bits e 51 16 = l.frame ∧
        bits e 3 3 = (if l.write then 1 else 0) ∧ bits e 2 2 = (if l.read then 1 else 0) ∧ bits e 1 0 = 3)) ∧
    (Passes s h 0x016C s1 → (sprayOf? s1 a = none → answers (.sprayRead h a) 0x016C 0xE3 []) ∧
      (∀ p, sprayOf? s1 a = some p → (p.record = none → answers (.sprayRead h a) 0x016C 0x00 (lineBytes (recordOf s1 p))) ∧ ∀ r, p.record = some r → answers (.sprayRead h a) 0x016C 0x00 (lineBytes r))) ∧
    (Passes s h 0x0170 s1 → (a < 2 → b < 16 → answers (.portRead h a b) 0x0170 0x00 (portBytes s1 (16 * a + b))) ∧ (2 ≤ a ∨ 16 ≤ b → answers (.portRead h a b) 0x0170 0x16 [])) ∧
    (Passes s h 0x0180 s1 → (a < 4 → answers (.faultRead h a) 0x0180 0x00 (leBytes 8 (regionWord s1 a) ++ pendingBytes (regFault s1 a).fence)) ∧
      (a = 4 → answers (.faultRead h a) 0x0180 0x00 (chipResult s1)) ∧ (0x10 ≤ a → a ≤ 0x2F → answers (.faultRead h a) 0x0180 0x00 (faultPage s1 (a - 0x10))) ∧
      (4 < a → ¬(0x10 ≤ a ∧ a ≤ 0x2F) → a ≠ 0x40 → answers (.faultRead h a) 0x0180 0x16 []) ∧
      (∀ m, senderMaster s1 h = some m → ((masterOf s1 m).wait.isSome = true → answers (.faultRead h 0x40) 0x0180 0xF1 []) ∧
        ((masterOf s1 m).wait = none → exec (.faultRead h 0x40) s = .next (modMaster (accept s1 h 0x0180) m (fun x => { x with wait := some (h, s.time.clock) }))))) ∧
    (∀ x t, (masterOf s a).wait = some (x, t) → t + 250000000 ≤ s.time.clock →
      exec (.faultReadWaitExpiry a) s = .next (finish (modMaster s a (fun x => { x with wait := none })) x 0x0180 0x00 (chipResult s))) ∧
    (Passes s h 0x0191 s1 → (a ≤ 0x14 → answers (.lifetimeRead h a) 0x0191 0x00 (groupBytes s1 a)) ∧
      (0x40 ≤ a → a ≤ 0x7F → (flashOut s1 = false → answers (.lifetimeRead h a) 0x0191 0x00 (eventPage s1 (a - 0x40))) ∧ (flashOut s1 = true → answers (.lifetimeRead h a) 0x0191 0xF9 [])) ∧
      (0x14 < a → a < 0x40 ∨ 0x7F < a → answers (.lifetimeRead h a) 0x0191 0x16 [])) ∧
    (Passes s h 0x0192 s1 → (a ≤ 4 → answers (.bistRead h a) 0x0192 0x00 (bistBytes s1 a ++ countedResult ((bistOf s1 a).entries.map SliceEntry.bytes))) ∧ (4 < a → answers (.bistRead h a) 0x0192 0x16 [])) ∧
    (Passes s h 0x0124 s1 → exec (.attestReport h nonce) s = .next (reply (useFree s1) h 0x0124 0x00 (report s1 nonce)) ∧
      ∃ tail, report s1 nonce = leBytes 2 1 ++ leBytes 2 (1 + (if s1.hub.timeSet then 2 else 0) + (if inDrydown s1 then 4 else 0) + (if s1.fault.halted then 8 else 0)) ++ leBytes 4 904 ++ leBytes 8 Config.serial.toNat ++ tail)

/-- Orders that take effect at a tick (02, R43; 03, R86; 05, R136; 07, Table 7.13, R199; 13, Table 13.6, R386): one refused at receipt is answered and changes nothing else; one accepted is outstanding and joins the prepared orders with its parameters, and nothing else changes until the tick. What rests on log entry 21 is the model's choice. -/
def Obligations.OrdersWaitForTheTick : Prop :=
  ∀ (s s1 : State) (h : OrderHdr) (a b c d e f g k : Nat) (w : BitVec 320) (acc : List (BitVec 32)),
    let go := fun (i : Instr) (code : Nat) (refusals : List (Bool × Nat)) (p : Prepared) => Passes s h code s1 →
      (∀ st, firstRefusal refusals = some st → exec i s = .next (reply s1 h code st)) ∧
      (firstRefusal refusals = none → ∃ t, exec i s = .next t ∧ t.hub.prepared = s.hub.prepared ++ [p] ∧ { t with hub := { t.hub with prepared := s1.hub.prepared, masters := s1.hub.masters, accepted := s1.hub.accepted } } = s1 ∧
        ∀ m, senderMaster s1 h = some m → t.hub.accepted = s1.hub.accepted ++ [(h, m, code)] ∧ masterOf t m = { masterOf s1 m with outstanding := (masterOf s1 m).outstanding + 1 } ∧ ∀ n, n ≠ m → masterOf t n = masterOf s1 n)
    let x : Extent := { access := acc, physBase := f, size := c, base := b, tenant := g, kind := d, target := e, measured := decide (k = 1) }
    go (.grant h a b c d e f g k acc) 0x0100 ((!grantFieldsOk x k, 0x16) :: grantRefusals s1 a x) (.grant h a x) ∧
    go (.accessSet h a b acc c) 0x0101 (accessSetRefusals s1 a b acc c) (.accessSet h a b acc c) ∧
    go (.revoke h a b) 0x0102 (revokeRefusals s1 a b) (.revoke h a b) ∧
    go (.hostShape h a b c d e f) 0x0110 [(!shapeFieldsOk a { weight := b, pbs := c, cbs := d, pir := e, cir := f }, 0x16)] (.hostShape h a { weight := b, pbs := c, cbs := d, pir := e, cir := f }) ∧
    go (.tenantCreate h a w) 0x0120 [] (.tenantCreate h a w (wrapKey s1 h)) ∧
    go (.tenantRemove h a) 0x0121 [] (.tenantRemove h a) ∧
    go (.rotateKey h a w) 0x0122 [] (.rotateKey h a w (wrapKey s1 h)) ∧
    go (.retireKey h a b c) 0x0123 [] (.retireKey h a b c) ∧
    go (.memIdlePolicy h a) 0x0142 [(decide (1000 < a), 0x16)] (.idlePolicy h a) ∧
    go (.asidCreate h a b) 0x0162 ((decide (a = 0), 0x16) :: asidCreateRefusals s1 a b) (.asidCreate h a b) ∧
    go (.asidDestroy h a) 0x0163 (asidDestroyRefusals s1 a) (.asidDestroy h a) ∧
    go (.mapRange h a b c d e f) 0x0164 (mapRefusals s1 a b c d e f) (.mapRange h a b c d e f) ∧
    go (.unmapRange h a b c) 0x0165 (rangeRefusals s1 a b c true) (.unmapRange h a b c) ∧
    go (.protectRange h a b c d) 0x0166 (rangeRefusals s1 a b c (decide (d ≤ 3))) (.protectRange h a b c d) ∧
    go (.invalidateRange h a b c) 0x0167 (invalidateRefusals s1 a b c) (.invalidate h a b c) ∧
    go (.faultPolicy h a) 0x016B [(decide (a < 1 ∨ 10000 < a), 0x16)] (.faultPolicy h a)

/-- Ownership (11, R291 to R296): claims, the election window and its winner, the 100 ms lease, handover within 10 ms, release, and the events that end them. What rests on log entry 3 is the model's choice. -/
def Obligations.OwnershipChanges : Prop :=
  ∀ (s s1 : State) (h : OrderHdr) (a m : Nat), senderMaster s1 h = some m →
    let now := s1.time.clock
    let own := fun (o : Option Nat) => { s1 with hub := { s1.hub with owner := o, handover := none, leaseEnd := now + 25000000 } }
    (Passes s h 0x0001 s1 →
      (s1.hub.owner.isSome = true → exec (.ownerClaim h a) s = .next (reply s1 h 0x0001 0xC6)) ∧
      (s1.hub.owner = none →
        (s1.hub.election = none → exec (.ownerClaim h a) s =
          .next (accept { s1 with hub := { s1.hub with election := some { closes := now + (if s1.hub.everElected then 2500000 else 125000000), claims := [(m, a, h)] } } } h 0x0001)) ∧
        (∀ x, s1.hub.election = some x → ((∃ c ∈ x.claims, c.1 = m) → exec (.ownerClaim h a) s = .next (reply s1 h 0x0001 0xC7)) ∧
          ((∀ c ∈ x.claims, c.1 ≠ m) → exec (.ownerClaim h a) s = .next (accept { s1 with hub := { s1.hub with election := some { x with claims := x.claims ++ [(m, a, h)] } } } h 0x0001))))) ∧
    (Passes s h 0x0002 s1 → exec (.ownerRenew h) s = .next (reply { s1 with hub := { s1.hub with leaseEnd := now + 25000000 } } h 0x0002 0x00)) ∧
    (Passes s h 0x0003 s1 →
      (s1.hub.owner = some a ∨ hasPath s1 a = false → exec (.ownerHandover h a) s = .next (reply s1 h 0x0003 0x16)) ∧
      (s1.hub.owner ≠ some a → hasPath s1 a = true → (s1.hub.handover.isSome = true → exec (.ownerHandover h a) s = .next (reply s1 h 0x0003 0xC7)) ∧
        (s1.hub.handover = none → exec (.ownerHandover h a) s =
          .next (accept { s1 with hub := { s1.hub with handover := some { target := a, expires := now + 2500000, order := h } } } h 0x0003)))) ∧
    (Passes s h 0x0004 s1 →
      ((∀ x, s1.hub.handover = some x → x.target ≠ m) → exec (.ownerAccept h) s = .next (reply s1 h 0x0004 0xC9)) ∧
      (∀ x, s1.hub.handover = some x → x.target = m → exec (.ownerAccept h) s = .next (reply (finish (own (some m)) x.order 0x0003 0x00) h 0x0004 0x00))) ∧
    (Passes s h 0x0005 s1 →
      (s1.hub.handover = none → exec (.ownerRelease h) s = .next (reply { s1 with hub := { s1.hub with owner := none } } h 0x0005 0x00)) ∧
      (∀ x, s1.hub.handover = some x → exec (.ownerRelease h) s = .next (reply (finish { s1 with hub := { s1.hub with owner := none, handover := none } } x.order 0x0003 0xCA) h 0x0005 0x00))) ∧
    (∀ x, s.hub.election = some x →
      (x.closes ≤ s.time.clock → ∀ c ∈ x.claims, (∀ q ∈ x.claims, q.2.1 < c.2.1 ∨ q.2.1 = c.2.1 ∧ c.1 ≤ q.1) → (x.claims.map Prod.fst).Nodup →
        exec .electionWindowClose s = .next (x.claims.foldl (fun s q => finish s q.2.2 0x0001 (if q.1 = c.1 then 0x00 else 0xC8))
          { s with hub := { s.hub with election := none, everElected := true, owner := some c.1, leaseEnd := s.time.clock + 25000000 } })) ∧
      (s.time.clock < x.closes → exec .electionWindowClose s = .next s)) ∧
    (s.hub.owner.isSome = true → (s.time.clock < s.hub.leaseEnd → exec .leaseExpiry s = .next s) ∧
      (s.hub.leaseEnd ≤ s.time.clock → ∃ u, u = noteHub { s with hub := { s.hub with owner := none } } 0x17 ∧
        (s.hub.handover = none → exec .leaseExpiry s = .next u) ∧
        ∀ x, s.hub.handover = some x → exec .leaseExpiry s = .next (finish { u with hub := { u.hub with handover := none } } x.order 0x0003 0xCA))) ∧
    (∀ x, s.hub.handover = some x → (x.expires ≤ s.time.clock → exec .handoverExpiry s = .next (finish { s with hub := { s.hub with handover := none } } x.order 0x0003 0xCA)) ∧
      (s.time.clock < x.expires → exec .handoverExpiry s = .next s))

/-- Orders on slots, memory, accords, faults and launches that act when they pass their checks (02, R53; 04, R107, R110, R113; 05, R137; 06, R157, R162, R165, R169; 07, R172, R181, R190, R195, R197, R198). What rests on log entries 8, 21, 24 and 26 is the model's choice. -/
def Obligations.PoolOrdersAct : Prop :=
  ∀ (s s1 : State) (h : OrderHdr) (a b c : Nat) (v : BitVec 256),
    let act := fun (i : Instr) (code : Nat) (refusals : List (Bool × Nat)) (t : State) => Passes s h code s1 →
      (∀ st, firstRefusal refusals = some st → exec i s = .next (reply s1 h code st)) ∧ (firstRefusal refusals = none → exec i s = .next t)
    let slot := slotOf s1 a
    act (.violationRead h) 0x0105 [] (reply { s1 with violations := s1.violations.drop 16 } h 0x0105 0x00 (countedResult ((s1.violations.take 16).map Violation.bytes))) ∧
    act (.slotGrant h a b) 0x0130 [(decide (a = 0 ∨ slot.st = .bound ∨ slot.st = .failed), 0xD2), (decide (slot.st = .sweeping), 0xD4), (hostHolds s1 b, 0xD3), (decide (4096 ≤ b), 0x16)]
      (reply (setSlot s1 a { st := .bound, gen := (slot.gen + 1) % 256, host := b }) h 0x0130 0x00 [BitVec.ofNat 8 ((slot.gen + 1) % 256)]) ∧
    (Passes s h 0x0131 s1 → (a = 0 ∨ slot.st = .free ∨ slot.st = .sweeping → exec (.slotRelease h a b) s = .next (reply s1 h 0x0131 0xD2)) ∧
      (a ≠ 0 → slot.st = .bound ∨ slot.st = .failed → (slot.gen ≠ b → exec (.slotRelease h a b) s = .next (reply s1 h 0x0131 0xCC)) ∧
        (slot.gen = b → (slot.st = .bound → exec (.slotRelease h a b) s = .next (setWalk (setSlot (accept s1 h 0x0131) a { slot with st := .sweeping }) { slot := a, failure := false, gen := slot.gen, waits := [(h, 0x0131)] })) ∧
          (slot.st = .failed → walkOf s1 a = none → exec (.slotRelease h a b) s = .next (reply (setSlot s1 a { slot with st := .free }) h 0x0131 0x00)) ∧
          ∀ w, slot.st = .failed → walkOf s1 a = some w → exec (.slotRelease h a b) s = .next (setWalk (accept s1 h 0x0131) { w with waits := w.waits ++ [(h, 0x0131)], thenFree := true })))) ∧
    (Passes s h 0x0133 s1 → (failableSlot s1 a = none → exec (.hostFailed h a) s = .next (reply s1 h 0x0133 0xD2)) ∧
      (∀ n, failableSlot s1 a = some n → ∃ t w, exec (.hostFailed h a) s = .next t ∧ slotOf t n = { slotOf s1 n with st := .failed } ∧ walkOf t n = some w ∧ w.failure = true ∧ w.next = 0 ∧
        (h, 0x0133) ∈ w.waits ∧ ∀ j, j ≠ n → slotOf t j = slotOf s1 j)) ∧
    (Passes s h 0x0134 s1 → (s1.coh.lost = [] → exec (.lostRead h) s = .next (reply s1 h 0x0134 0xD5)) ∧
      (∀ x rest, s1.coh.lost = x :: rest → exec (.lostRead h) s = .next (reply { s1 with coh := { s1.coh with lost := rest } } h 0x0134 0x00 x.bytes))) ∧
    (Passes s h 0x0141 s1 → (4 ≤ a ∨ (5 ≤ b ∧ b ≠ 7) ∨ 3 ≤ c → exec (.stackRateLimit h a b c) s = .next (reply s1 h 0x0141 0x16)) ∧
      (a < 4 → b = 7 → c < 3 → exec (.stackRateLimit h a b c) s = .next (answerLimit ((List.range 20).foldl (newLimit h c) (accept s1 h 0x0141)) h)) ∧
      (a < 4 → b < 5 → c < 3 → let p := 5 * a + b
        (stackPowered (stackOf s1 p) = true → exec (.stackRateLimit h a b c) s = .next (modStack (accept s1 h 0x0141) p (fun x => { x with newLimit := some c, limitWaits := x.limitWaits ++ [h] }))) ∧
        (stackPowered (stackOf s1 p) = false → (∀ q < 20, h ∉ (stackOf s1 q).limitWaits) →
          exec (.stackRateLimit h a b c) s = .next (finish (modStack (accept s1 h 0x0141) p (fun x => { x with ownerLimit := c })) h 0x0141 0x00)))) ∧
    act (.blotterClear h a) 0x0152 [(decide (4 ≤ a), 0x16)] (reply { s1 with mem := { s1.mem with blotters := tset s1.mem.blotters a {} } } h 0x0152 0x00) ∧
    act (.poisonRead h) 0x0153 [(decide (s1.mem.poison = []), 0xD5)] (reply { s1 with mem := { s1.mem with poison := s1.mem.poison.drop 8 } } h 0x0153 0x00 (countedResult ((s1.mem.poison.take 8).map PoisonEntry.bytes))) ∧
    act (.scrubPolicy h a) 0x0154 [(decide (a < 30 ∨ 10080 < a), 0x16)] (reply { s1 with mem := { s1.mem with scrubMin := a } } h 0x0154 0x00) ∧
    (Passes s h 0x0155 s1 → ∀ p, a < 4 → b < 4 → servedBy s1 (4 * a + b) = some p → (stackOf s1 p).st = .serving → outOfService s1 p = false → tget? s1.mem.evacs a = none → spareUsable s1 a = true → p / 5 = a →
      ∃ t x, exec (.evacuate h a b) s = .next t ∧ tget? t.mem.evacs a = some x ∧ x.old = p ∧ x.spare = 5 * a + 4 ∧ x.lstack = (stackOf s1 p).logicalId ∧ x.waits = [h] ∧ x.copying = false ∧
        (regFault t a).spareStackFree = false) ∧
    (Passes s h 0x0155 s1 → (4 ≤ a ∨ 4 ≤ b → exec (.evacuate h a b) s = .next (reply s1 h 0x0155 0x16)) ∧ (a < 4 → b < 4 → servedBy s1 (4 * a + b) = none → exec (.evacuate h a b) s = .next (reply s1 h 0x0155 0xD8))) ∧
    (Passes s h 0x0160 s1 → (ownReadable s1 a b = false → exec (.accordLoad h a b c) s = .next (reply s1 h 0x0160 0xD9)) ∧
      (∀ img s2, ownReadable s1 a b = true → ownRead s1 a b = (some img, s2) → accordOk img = true → s2.eng.accords.length < 256 → (c = 0xFFFF ∨ c < 1024 ∧ tenantLive s1 c = true) →
        ∃ t id x, exec (.accordLoad h a b c) s = .next (reply t h 0x0160 0x00 (leBytes 2 id)) ∧ 256 ≤ id ∧ id < 65536 ∧ tget? s2.eng.accords id = none ∧ tget? t.eng.accords id = some x ∧
          x.tenant = c ∧ x.code = accordCode img ∧ x.measurement = imgMeasure img ∧ { t with eng := { t.eng with accords := s2.eng.accords }, time := s2.time } = s2)) ∧
    act (.accordUnload h a) 0x0161 [(decide (a < 256), 0x16), (decide (tget? s1.eng.accords a = none), 0x41), (accordUsed s1 a, 0xDB)]
      (reply { s1 with eng := { s1.eng with accords := tdel s1.eng.accords a } } h 0x0161 0x00) ∧
    act (.faultRingSet h a b) 0x0169 [(!ringOk s1 a b, 0xE0), (s1.eng.ring.isSome && decide (s1.eng.batches ≠ []), 0xE1)]
      (reply { s1 with eng := { s1.eng with ring := some { offset := a % 2 ^ 40, slots := b }, ringWithdrawn := false } } h 0x0169 0x00) ∧
    (Passes s h 0x016A s1 → ((∀ x ∈ s1.eng.batches, x.seq ≠ a) → exec (.faultResolve h a v) s = .next (reply s1 h 0x016A 0xE2)) ∧
      (∀ x, s1.eng.batches.find? (fun x => x.seq == a) = some x → (∀ r ∈ x.recs, (tileOf? s1 r.tile).isNone = true) →
        exec (.faultResolve h a v) s = .next (reply { s1 with eng := { s1.eng with batches := s1.eng.batches.filter (fun y => y.seq != a) } } h 0x016A 0x00)) ∧
      (∀ x r t since rights pva, s1.eng.batches.find? (fun x => x.seq == a) = some x → x.recs = [r] → tileOf? s1 r.tile = some t → t.st = .faulted (some (a, 0)) since rights pva →
        let ends := fun (u : State) => { u with eng := { u.eng with batches := u.eng.batches.filter (fun y => y.seq != a) } }
        (v.getLsbD 0 = true → moving s1 t.engine t.thread = false → exec (.faultResolve h a v) s = .next (reply (ends (translateOrFault s1 r.tile t since)) h 0x016A 0x00)) ∧
        (v.getLsbD 0 = false → exec (.faultResolve h a v) s =
          .next (reply (ends (failThread (delTile s1 r.tile) t.engine t.thread { status := if rights then 0x82 else 0x81, pva := pva })) h 0x016A 0x00)))) ∧
    (Passes s h 0x016D s1 → (sprayOf? s1 a = none → exec (.sprayCancel h a) s = .next (reply s1 h 0x016D 0xE3)) ∧
      (∀ p, sprayOf? s1 a = some p → exec (.sprayCancel h a) s = .next (stopSpray (setSpray (setSpray (accept s1 h 0x016D) a { p with cancelWaits := p.cancelWaits ++ [h] }) a
        { p with cancelWaits := p.cancelWaits ++ [h], cancelled := true }) a 0x93))) ∧
    act (.engineTagRelease h a) 0x016E [(decide (4096 ≤ a), 0x16)]
      (reply { s1 with eng := { s1.eng with forwards := s1.eng.forwards.filter (fun f => !(f.held && f.endpoint == a)) } } h 0x016E 0x00)

/-- Orders on keys, images, ports, faults, clock, power and reset (10, R273, R274; 11, R278; 12, R315, R319; 13, R330, R333, R334, R336; 14, R359; 15, R365, R377), and the events that end their work: works on images are done in order of receipt, an activation checks its image and the spare fuse rows when its turn comes. PORT_SELECT of a narrow COLD port is answered PORT_STATE by log entry 27, an FW_WRITE reads the stored line by log entry 26, and one whose source is lost is refused by log entry 27. What rests on log entries 3, 8, 12, 17, 21, 26 and 27 is the model's choice. -/
def Obligations.SystemOrdersAct : Prop :=
  ∀ (s s1 : State) (h : OrderHdr) (a b c : Nat),
    let refuses := fun (i : Instr) (code : Nat) (l : List (Bool × Nat)) => ∀ st, firstRefusal l = some st → exec i s = .next (reply s1 h code st)
    (Passes s h 0x0007 s1 → ∀ key m, senderMaster s1 h = some m → (bytesPoint key = none → exec (.mgmtKeyAgree h key) s = .next (reply s1 h 0x0007 0x16)) ∧
      (∀ q, bytesPoint key = some q → ∃ t k res, exec (.mgmtKeyAgree h key) s = .next (reply t h 0x0007 0x00 res) ∧ tget? t.hub.mgmtKeys m = some k ∧
        (∀ n, n ≠ m → tget? t.hub.mgmtKeys n = tget? s1.hub.mgmtKeys n) ∧ k.agreedAt = s.time.clock ∧ (masterOf t m).highest = none ∧ (masterOf t m).marks = [] ∧
        (tget? s1.hub.mgmtKeys m = none → k.epoch = 0 ∧ k.previous = none) ∧ (∀ o, tget? s1.hub.mgmtKeys m = some o → k.epoch = o.epoch + 1 ∧ k.previous = some (o.epoch, o.key)))) ∧
    (∀ k, tget? s.hub.mgmtKeys a = some k → k.previous.isSome = true → k.agreedAt + 250000000 ≤ s.time.clock →
      exec (.mgmtKeyPreviousExpiry a) s = .next { s with hub := { s.hub with mgmtKeys := tset s.hub.mgmtKeys a { k with previous := none } } }) ∧
    (Passes s h 0x0125 s1 →
      let l := [(decide (2 < a), 0x16), (!ownReadable s1 b c, 0x10), (decide (c < 256 ∨ imgRoom a < c), 0x16), (decide (a < 2 ∧ s1.hub.runSlot = a), 0xEA), (imageBusy s1 a || (ownRead s1 b c).1.isNone, 0xE8)]
      (∀ st, firstRefusal l = some st → exec (.fwWrite h a b c) s = .next (reply s1 h 0x0125 st)) ∧
      (∀ d s2, firstRefusal l = none → ownRead s1 b c = (some d, s2) → exec (.fwWrite h a b c) s =
        .next (accept { s2 with hub := { s2.hub with fwWork := s2.hub.fwWork ++ [{ order := h, image := a, activate := false, data := d }] } } h 0x0125))) ∧
    (Passes s h 0x0126 s1 →
      let l := [(decide (1 < a), 0x16), (imageBusy s1 a, 0xE8), (decide (checkPlace s1 a ≠ 1 ∧ checkPlace s1 a ≠ 4), 0xE8), (decide (checkPlace s1 a = 4), 0xE9), (decide (spareFuseRows s1 < burnRows s1 (flashOf s1 a)), 0xEB)]
      refuses (.fwActivate h a) 0x0126 l ∧ (firstRefusal l = none → exec (.fwActivate h a) s =
        .next (accept { s1 with hub := { s1.hub with fwWork := s1.hub.fwWork ++ [{ order := h, image := a, activate := true }] } } h 0x0126))) ∧
    (∀ w rest, s.hub.fwWork = w :: rest →
      let s2 := { s with hub := { s.hub with fwWork := rest } }
      let status := fun (c : Nat) => if c = 4 then 0xE9 else 0xE8
      (w.activate = true → ∀ ok, exec (.fwWriteDone ok) s = .next s) ∧ (w.activate = false → ∀ ok, exec (.fwActivateDone ok) s = .next s) ∧
      (w.activate = false →
        let place := if w.image = 2 then (if w.copied then 2 else 3) else w.image
        let p := putFlash s2 place true w.data
        flashOf p place = w.data ++ (flashOf s place).drop w.data.length ∧
        (∃ u, putFlash s2 place false w.data = u ∧ u.time.free = s.time.free + 1 ∧ exec (.fwWriteDone false) s = .next (finish u w.order 0x0125 0xEB)) ∧
        (checkPlace p place ≠ 1 → exec (.fwWriteDone true) s = .next (finish p w.order 0x0125 (status (checkPlace p place)))) ∧
        (checkPlace p place = 1 →
          (place = 3 → exec (.fwWriteDone true) s = .next { p with hub := { p.hub with fwWork := { w with copied := true } :: rest } }) ∧
          (place ≠ 3 → exec (.fwWriteDone true) s = .next (finish p w.order 0x0125 0x00)))) ∧
      (w.activate = true → ∀ ok,
        (checkPlace s w.image ≠ 1 → exec (.fwActivateDone ok) s = .next (finish s2 w.order 0x0126 (status (checkPlace s w.image)))) ∧
        (checkPlace s w.image = 1 → spareFuseRows s < burnRows s (flashOf s w.image) → exec (.fwActivateDone ok) s = .next (finish s2 w.order 0x0126 0xEB)) ∧
        (checkPlace s w.image = 1 → burnRows s (flashOf s w.image) ≤ spareFuseRows s → let writes := w.image ≠ s.hub.runSlot
          ∃ t, exec (.fwActivateDone ok) s = .next (finish t w.order 0x0126 (if w.image = s.hub.runSlot ∨ ok = true then 0x00 else 0xEB)) ∧ t.hub.fwWork = rest ∧
            t.hub.svnFloor = max s.hub.svnFloor (imgFloorSet (flashOf s w.image)) ∧ t.hub.keyRevoked = s.hub.keyRevoked ||| BitVec.ofNat 4 (imgRevoke (flashOf s w.image)) ∧
            (writes → ok = true → tget? t.hub.bootSelect (1 - (bootRecord s).1) = some (((bootRecord s).2.1 + 1) % 2 ^ 32, w.image)) ∧ (¬writes ∨ ok = false → t.hub.bootSelect = s.hub.bootSelect)))) ∧
    (Passes s h 0x0171 s1 → let n := 16 * b + a
      let st := (portOf s1 n).st
      let l := [(!portNamed b a, 0x16), ((failoverOf s1 a).any (fun f => !f.inPlace), 0xE5), (decide (st = .fenced), 0xE4), (decide (st ≠ .active ∧ st ≠ .cold ∨ st = .cold ∧ narrowBarred s1 n = true), 0xE6)]
      refuses (.portSelect h a b) 0x0171 l ∧ (firstRefusal l = none → (st = .active → exec (.portSelect h a b) s = .next (reply s1 h 0x0171 0x00)) ∧
        (st = .cold → portActive s1 (partner n) = true → ∃ t x, exec (.portSelect h a b) s = .next t ∧ (portOf t (partner n)).stopped = true ∧ failoverOf t a = some x ∧ x.from_ = partner n ∧
          x.planned = some h ∧ x.draining = true ∧ (tget t.link.pairs a {}).selected = true))) ∧
    (Passes s h 0x0172 s1 → let n := 16 * a + b
      let st := (portOf s1 n).st
      let l := [(!portNamed a b, 0x16), (decide (st = .active ∨ st = .training ∨ st = .bringup ∨ st = .resync), 0xE6)]
      refuses (.portRetrain h a b) 0x0172 l ∧ (firstRefusal l = none → ∃ t, exec (.portRetrain h a b) s = .next t ∧ (portOf t n).st = .training ∧ (portOf t n).badLanes = [] ∧ h ∈ (portOf t n).retrainWaits)) ∧
    (Passes s h 0x0181 s1 →
      let l := [(decide (4 < a ∨ b = 0 ∨ 3 < b ∨ (a < 4 ∧ b ≠ 1)), 0x16), (decide (pendingOf s1 b (a == 4) a = none), 0xF0)]
      refuses (.faultAck h a b) 0x0181 l ∧ (∀ r, firstRefusal l = none → pendingOf s1 b (a == 4) a = some r → exec (.faultAck h a b) s = .next (reply (ackRecord s1 b (a == 4) a r) h 0x0181 0x00) ∧
        ((∀ x ∈ s1.fault.out, x.withheld = true → x.record ≠ some r.seq) → pendingOf (ackRecord s1 b (a == 4) a r) b (a == 4) a = none ∧ ∀ x ∈ (ackRecord s1 b (a == 4) a r).fault.log, x.seq = r.seq → x.acked = true))) ∧
    (Passes s h 0x0190 s1 → (a < 1704067200000000 → exec (.clockSet h a) s = .next (reply s1 h 0x0190 0xF8)) ∧
      (1704067200000000 ≤ a → ∃ t, exec (.clockSet h a) s = .next (reply t h 0x0190 0x00) ∧ t.hub = { s1.hub with timeSet := true, calendarUs := a, calendarTimebase := s1.time.timebase } ∧
        { t with hub := s1.hub, life := s1.life } = s1 ∧ calendarNow t = a % 2 ^ 64)) ∧
    (Passes s h 0x01A0 s1 → (a < 800 → exec (.powerLimit h a) s = .next (reply s1 h 0x01A0 0xFC)) ∧ (1900 < a → exec (.powerLimit h a) s = .next (reply s1 h 0x01A0 0x16)) ∧
      (800 ≤ a → a ≤ 1900 → exec (.powerLimit h a) s = .next (accept { s1 with power := { s1.power with newLimits := s1.power.newLimits ++ [(a, h)] } } h 0x01A0))) ∧
    (Passes s h 0x01A1 s1 → (s1.hub.fwWork ≠ [] → exec (.moduleReset h) s = .next (reply s1 h 0x01A1 0xFD)) ∧
      (s1.hub.fwWork = [] → ∃ t, exec (.moduleReset h) s = .next t ∧ t.power.stage = .poweringDown ∧ t.power.halting = true ∧ t.power.resetting = true ∧ t.hub.ready = false))

/-- The genura link (10, R254, R257 to R260, R262, R263, R270, Table 10.14): a flit that fails its check is discarded and counted; one of another generation is answered STALE_ROLE; a repeat is discarded; the next in order is delivered, slot by slot, and ACK frees what it names; the timers resend the oldest flit and name a missing one; RESET_REQUEST and STALE_ROLE lead to a new exchange; receive points resolve orphans; control records are repeated for 1 ms; lanes that lose lock fail a link once more have gone than its spare replaces, else its pair fails over. While a port awaits its reset no sequenced flit leaves it. What rests on log entries 3, 7 and 20 is the model's choice. -/
def Obligations.LinksCarryFlits : Prop :=
  ∀ (s : State) (n : Nat), n < 32 → hubRuns s = true →
    let p := portOf s n
    (∀ raw, linkUp p = true → let b := leBytes 320 raw.toNat
      let t := trailerOf (ofLe (b.drop 304))
      (p.crcTimes.length < 1024 → ∃ k, k ≤ 2 ∧ (p.fecBad = false → 1 ≤ k) ∧ exec (.flitReceive n raw false) s =
        .next (modPort (useFree s) n (fun p => { p with crcFails := satInc 32 p.crcFails, fecUncorrectable := satAdd 32 p.fecUncorrectable k, fecBad := true,
                                                        crcTimes := p.crcTimes.filter (fun x => decide (s.time.clock < x + 250000)) ++ [s.time.clock] }))) ∧
      (p.crcTimes.length < 1024 → crc32 (b.take 316) ≠ t.crc → exec (.flitReceive n raw true) s =
        .next (modPort s n (fun p => { p with fecBad := false, crcFails := satInc 32 p.crcFails, crcTimes := p.crcTimes.filter (fun x => decide (s.time.clock < x + 250000)) ++ [s.time.clock] }))) ∧
      (crc32 (b.take 316) = t.crc → t.type ≤ 3 →
        (t.gen ≠ p.gen → exec (.flitReceive n raw true) s =
          .next { modPort s n (fun p => { p with fecBad := false }) with wire := s.wire ++ [.ctrl n (.stale p.gen t.gen) (ctrlFlit s n (.stale p.gen t.gen))] }) ∧
        (t.gen = p.gen → t.nak = none → p.waiting = [] → p.missing = [] → p.naked = [] → p.held = [] → p.replay = [] →
          (t.type = 0 → t.seq = p.expected → exec (.flitReceive n raw true) s = .next (modPort s n (fun p => { p with fecBad := false, peerXoff := t.xoff }))) ∧
          ((t.type = 1 ∨ t.type = 2) → 32768 ≤ (t.seq + 65536 - p.expected) % 65536 →
            exec (.flitReceive n raw true) s = .next (modPort s n (fun p => { p with fecBad := false, peerXoff := t.xoff, dupDiscarded := satInc 32 p.dupDiscarded }))) ∧
          ((t.type = 1 ∨ t.type = 2) → t.seq = p.expected → t.seq < 65536 → (∀ v ∈ flitVcs (flitPackets t.type b), (pairBuf s n).used.getD v 0 < vcEntries.getD v 0) →
            ∃ u, exec (.flitReceive n raw true) s = .next (nameMissing ((flitPackets t.type b).foldl (handOver n) u) n) ∧
              portOf u n = { p with fecBad := false, peerXoff := t.xoff, expected := (p.expected + 1) % 65536 } ∧ (∀ m, m ≠ n → portOf u m = portOf s m) ∧
              { u with link := { u.link with ports := s.link.ports, pairs := s.link.pairs } } = s)))) ∧
    (linkUp p = true → ∀ f rest, p.replay = f :: rest → awaitsReset p = false → p.expiries < 7 →
      (suspended s n = true → exec (.replayTimerExpiry n) s = .next s) ∧
      (suspended s n = false → p.timerFrom + 1000 ≤ s.time.clock → ∃ t, exec (.replayTimerExpiry n) s = .next t ∧ t.wire = s.wire ++ [.flit n f.seq true f.packets (seqFlit s n f.seq f.packets)] ∧
        portOf t n = { p with retransmits := satInc 32 p.retransmits, timerFrom := s.time.clock, expiries := p.expiries + 1 }) ∧
      (s.time.clock < p.timerFrom + 1000 → exec (.replayTimerExpiry n) s = .next s)) ∧
    (linkUp p = true → ∀ q rest, p.missing = q :: rest → (∀ x ∈ p.naked, x.1 = q → x.2 + 500 ≤ s.time.clock) →
      ∃ t, exec (.nakRepeatTimer n) s = .next t ∧ t.wire = s.wire ++ [.nak n q (idleFlit t n)] ∧ (q, s.time.clock) ∈ (portOf t n).naked ∧ (portOf t n).missing = p.missing) ∧
    (∀ g h, canFail p = true → awaitsReset p = false → exec (.staleRole n g h) s =
      .next { modPort s n (fun p => { p with stopped := true, repeats := p.repeats ++ [{ rec_ := .reset p.gen 0 false, first := s.time.clock, last := s.time.clock }] }) with
              wire := s.wire ++ [.ctrl n (.reset p.gen 0 false) (ctrlFlit s n (.reset p.gen 0 false))] }) ∧
    (∀ g r, canFail p = true → failoverOf s (n % 16) = none →
      (∃ t l, exec (.resetRequest n g r false) s = .next t ∧ t.wire = s.wire ++ .ctrl n (.reset p.gen 0 true) (ctrlFlit s n (.reset p.gen 0 true)) :: l ∧ (portOf t n).st = .training ∧ (portOf t n).nextSeq = 0 ∧ (portOf t n).expected = 0 ∧
        (portOf t n).replay = [] ∧ (portOf t n).prevRecvPoint = some ((p.expected + 65535) % 65536, p.gen)) ∧
      (awaitsReset p = true → ∃ t, exec (.resetRequest n g r true) s = .next t ∧ (portOf t n).st = .training) ∧
      (awaitsReset p = false → exec (.resetRequest n g r true) s = .next s)) ∧
    ((∀ r ∈ p.repeats, s.time.clock < r.first + 250000 ∧ r.last + 250 ≤ s.time.clock) → ∃ t, exec (.ctrlRepeatTimer n) s = .next t ∧ t.wire = s.wire ++ p.repeats.map (fun r => .ctrl n r.rec_ (ctrlFlit s n r.rec_)) ∧
      (portOf t n).repeats = p.repeats.map (fun r => { r with last := s.time.clock })) ∧
    ((∀ r ∈ p.repeats, r.first + 250000 ≤ s.time.clock ∧ ∀ g x, r.rec_ ≠ .reset g x false) → ∃ t, exec (.ctrlRepeatTimer n) s = .next t ∧ t.wire = s.wire ∧ (portOf t n).repeats = []) ∧
    (∀ r : RecoverRec, p.st = .active →
      let no : CtrlRec := .reply { failedSwitchPort := r.failedSwitchPort, failedPortGen := r.failedPortGen, queryId := r.queryId }
      (heldPoint s n r = none → exec (.recoverQuery n r) s = .next { s with wire := s.wire ++ [.ctrl n no (ctrlFlit s n no)] }) ∧
      (∀ x, heldPoint s n r = some x → failoverOf s (x.port % 16) = none →
        let yes : CtrlRec := .reply { recvPoint := x.point, failedSwitchPort := r.failedSwitchPort, failedPortGen := r.failedPortGen, held := true, queryId := r.queryId }
        exec (.recoverQuery n r) s = .next { s with wire := s.wire ++ [.ctrl n yes (ctrlFlit s n yes)] })) ∧
    (∀ (r : RecoverRec) pair f (o : OrphanSet), p.st = .active → r.held = true →
      let asked := fun (o : OrphanSet) => o.queryId == r.queryId && !o.byHello && o.port / 16 == n / 16 && decide (s.time.clock < o.since + 37500)
      s.link.failovers.find? (fun x => x.2.sets.any (fun o => asked o && !o.done)) = some (pair, f) → failoverOf s pair = some f → f.sets = [o] → inTraining (portOf s f.to) = true →
      let k := (r.recvPoint + 65537 - ((o.seqs.map Prod.fst).headD 0)) % 65536
      ∃ t, exec (.recoverReply n r) s = .next t ∧
        failoverOf t pair = some { f with sets := [{ o with left := (o.seqs.drop (if k ≤ o.seqs.length then k else 0)).flatMap Prod.snd, seqs := [], done := true }] }) ∧
    (∀ f (o : OrphanSet), failoverOf s n = some f → f.sets = [o] → o.done = false → o.byHello = false → inTraining (portOf s f.to) = true →
      (s.time.clock < o.since + 37500 → exec (.orphanResolveTimeout n) s = .next s) ∧
      (o.since + 37500 ≤ s.time.clock → ∃ t, exec (.orphanResolveTimeout n) s = .next t ∧
        failoverOf t n = some { f with sets := [{ o with left := (o.seqs.flatMap Prod.snd).filter (fun q => q.vc != 0), seqs := [], done := true }] } ∧
        (portOf t o.port).orphansUnknown = satAdd 32 (portOf s o.port).orphansUnknown (o.seqs.flatMap Prod.snd).length)) ∧
    (∀ lane, lane < 9 → lane ∉ p.badLanes →
      (p.st ≠ .active → exec (.laneDegrade n lane false) s = .next (modPort s n (fun p => { p with badLanes := p.badLanes ++ [lane] }))) ∧
      (p.st = .active ∨ p.st = .resync ∧ awaitsReset p = true → lane ∈ p.laneMap →
        let s1 := modPort s n (fun p => { p with badLanes := p.badLanes ++ [lane], lockLost := p.lockLost ++ [lane] })
        let gone := (p.lockLost ++ [lane]).filter (fun x => p.laneMap.contains x)
        b2n (spareLane p) < gone.length → exec (.laneDegrade n lane true) s = .next (raiseR s1 (n % 16 / 4) (portUnit n) 0x44 (gone.map (2 ^ ·)).sum)) ∧
      (∀ lost, p.st = .active → lane ∈ p.laneMap → (lost = true → p.lockLost = [] ∧ spareLane p = true) → partnerFit s n = true →
        ∃ t x, exec (.laneDegrade n lane lost) s = .next t ∧ (portOf t n).st = .resync ∧ (portOf t n).stopped = true ∧ awaitsReset (portOf t n) = true ∧ lane ∈ (portOf t n).badLanes ∧
          (∃ b, .ctrl n (.reset p.gen 1 false) b ∈ t.wire) ∧ (portOf t (partner n)).st = .bringup ∧ failoverOf t (n % 16) = some x ∧ x.from_ = n ∧ x.inPlace = false) ∧
      (∀ lost, p.st = .active → lane ∈ p.laneMap → (lost = true → p.lockLost = [] ∧ spareLane p = true) → (portOf s (partner n)).st ≠ .cold → awaitsReset p = false →
        ∃ t, exec (.laneDegrade n lane lost) s = .next t ∧ (portOf t n).st = .active ∧ (portOf t n).stopped = true ∧ lane ∈ (portOf t n).badLanes ∧
          t.wire = s.wire ++ [.ctrl n (.reset p.gen 1 false) (ctrlFlit s n (.reset p.gen 1 false))])) ∧
    (∃ t, exec (.receivePointHoldExpiry n) s = .next t ∧ (∀ x, x ∈ t.link.points ↔ x ∈ s.link.points ∧ ¬(x.port = n ∧ x.since + 2500000 ≤ s.time.clock)) ∧ { t with link := { t.link with points := s.link.points } } = s)

/-- The exchange of a training, bring-up and changes of side (01, R19; 10, R263 to R266, R269, R273, R274): LINK_HELLO, LINK_ASSIGN of the generation proposed, LINK_READY; a port whose assignment does not suit is held; a training forms its lane map or fails; a change of side waits for the old port's flits, and one that is undone leaves it as it was, but while it awaits a reset; a resynchronised port stands by or becomes active; a saved state is refreshed. What rests on log entries 3, 17 and 20 is the model's choice. -/
def Obligations.LinksTrainAndChange : Prop :=
  ∀ (s : State) (n : Nat), n < 32 → hubRuns s = true →
    let p := portOf s n
    (∀ r, (inExchange p = false → exec (.linkHello n r) s = .next s) ∧
      (inExchange p = true → failoverOf s (n % 16) = none →
        exec (.linkHello n r) s = .next (modPort s n (fun p => { p with helloRx := true, repeats := p.repeats.filter (fun x => !isHello x.rec_) })))) ∧
    (∀ r, inExchange p = true → p.assigned = false → r.portGen = (p.gen + 1) % 256 → (∀ i, s.hub.endpointId = some i → i = r.endpointId) →
      ∃ t, exec (.linkAssign n r) s = .next t ∧ t.hub.endpointId = some r.endpointId ∧ t.wire = s.wire ++ [.ctrl n (.ready r.portGen) (ctrlFlit t n (.ready r.portGen))] ∧
        (portOf t n).assigned = true ∧ (portOf t n).gen = r.portGen ∧ (portOf t n).switchPort = r.switchPort ∧ (portOf t n).savedSwitch = some (r.switchSerial, r.switchPort) ∧ (portOf t n).readyTx = true ∧
        ((portOf t n).offeredHeld = false ↔ r.plane = n / 16 ∧ ((∀ m, mgrOf s (n / 16) = some m → m = r.managerId) ∨ mgrMayChange s n = true)) ∧
        ((portOf t n).offeredHeld = false → mgrOf t (n / 16) = some r.managerId) ∧ ((portOf t n).offeredHeld = true → t.hub.mgrA = s.hub.mgrA ∧ t.hub.mgrB = s.hub.mgrB)) ∧
    (∀ g, (inExchange p = true → p.assigned = true → g = p.gen → exec (.linkReady n g) s = .next (modPort s n (fun p => { p with readyRx := true, repeats := [] }))) ∧
      (g ≠ p.gen → exec (.linkReady n g) s = .next s)) ∧
    (∀ good, p.st = .training → startupTraining s n = false → failoverOf s (n % 16) = none → p.refresh = false →
      (∀ map, p.fecLock = false → laneMapOf good p.badLanes = some map → ∃ t, exec (.portTrainingDone n good) s = .next t ∧ (portOf t n).laneMap = map ∧
        (portOf t n).narrow = decide (map.length = 4) ∧ (portOf t n).fecLock = true ∧ (portOf t n).st = .training ∧ (portOf t n).gen = p.gen ∧
        t.wire = s.wire ++ [.ctrl n (helloOf n (portOf t n)) (ctrlFlit t n (helloOf n (portOf t n)))]) ∧
      (p.fecLock = false → laneMapOf good p.badLanes = none → exec (.portTrainingDone n good) s = .next (raiseR s (n % 16 / 4) (portUnit n) 0x45)) ∧
      (p.fecLock = true → p.readyTx = true → p.readyRx = true → p.offeredHeld = false → ∃ t, exec (.portTrainingDone n good) s = .next t ∧ (portOf t n).st = .resync ∧
        (portOf t n).trainedLanes = true ∧ (portOf t n).savedAt = some s.time.clock ∧ (portOf t n).laneMap = p.laneMap ∧ (portOf t n).lanes.length = 9) ∧
      (p.fecLock = true → p.assigned = true → p.offeredHeld = true → p.retrainWaits = [] → ∃ t, exec (.portTrainingDone n good) s = .next t ∧ (portOf t n).st = .held) ∧
      (p.fecLock = true → p.readyRx = false → p.offeredHeld = false →
        (s.time.clock < p.since + 12500000 → exec (.portTrainingDone n good) s = .next s) ∧
        (p.since + 12500000 ≤ s.time.clock → exec (.portTrainingDone n good) s = .next (raiseR s (n % 16 / 4) (portUnit n) 0x45)))) ∧
    (∀ good map bad, laneMapOf good bad = some map → (map.length = 8 ∨ map.length = 4) ∧ ∀ l ∈ map, l < 9 ∧ good.getLsbD l = true ∧ l ∉ bad) ∧
    (p.st = .bringup → (∃ t, exec (.portBringupDone n false) s = .next t ∧ (portOf t n).st = .training ∧ (portOf t n).prevRecvPoint = none) ∧
      (p.fecLock = false → ∃ t, exec (.portBringupDone n true) s = .next t ∧ (portOf t n).fecLock = true ∧ (portOf t n).st = .bringup ∧
        t.wire = s.wire ++ [.ctrl n (helloOf n p) (ctrlFlit s n (helloOf n p))]) ∧
      (p.fecLock = true → p.readyTx = true → p.readyRx = true → p.offeredHeld = false → failoverOf s (n % 16) = none → ∃ t, exec (.portBringupDone n true) s = .next t ∧
        (portOf t n).st = .active ∧ (portOf t n).stopped = awaitsReset p)) ∧
    (∀ f, n < 16 → failoverOf s n = some f → f.from_ % 16 = n → f.from_ < 32 → f.draining = true → (portOf s f.from_).st = .active → let q := partner f.from_
      ((portOf s f.from_).replay ≠ [] → s.time.clock < f.since + 5000 → exec (.plannedChangeDrain n) s = .next s) ∧
      ((portOf s f.from_).replay = [] → (portOf s q).st = .cold → savedValid s (portOf s q) = true → ∃ t, exec (.plannedChangeDrain n) s = .next t ∧
        failoverOf t n = some { f with draining := false } ∧ (portOf t q).st = .bringup ∧ (portOf t f.from_) = (portOf s f.from_)) ∧
      ((portOf s f.from_).replay ≠ [] → f.since + 5000 ≤ s.time.clock → (portOf s q).st = .cold → ∃ t g o, exec (.plannedChangeDrain n) s = .next t ∧
        failoverOf t n = some g ∧ g.draining = false ∧ g.sets = f.sets ++ [o] ∧ o.port = f.from_ ∧ o.seqs = (portOf s f.from_).replay.map (fun x => (x.seq, x.packets)) ∧
        o.done = false ∧ o.byHello = false)) ∧
    (p.st = .resync → p.trainedLanes = true → p.since + 250000 ≤ s.time.clock → failoverOf s (n % 16) = none →
      ((∃ x ∈ p.crcTimes ++ p.protoTimes, s.time.clock < x + 250000) → exec (.portResyncDone n) s = .next s) ∧
      (awaitsReset p = true → exec (.portResyncDone n) s = .next s) ∧
      (awaitsReset p = false → (∀ x ∈ p.crcTimes ++ p.protoTimes, x + 250000 ≤ s.time.clock) → p.retrainWaits = [] →
        ((portOf s (partner n)).st = .active → exec (.portResyncDone n) s = .next (modPort s n (fun p => { p with st := .cold, savedAt := some s.time.clock, since := s.time.clock, refresh := false, retrainWaits := [] }))) ∧
        ((portOf s (partner n)).st ≠ .active → ∃ t, exec (.portResyncDone n) s = .next t ∧ (portOf t n).st = .active))) ∧
    (p.st = .cold → (∀ i < 8, let q := portOf s (regionPort (n % 16 / 4) i); q.st = .resync → q.refresh = false) →
      ∃ t, exec (.savedStateExpiry n) s = .next t ∧ (portOf t n).st = .resync ∧ (portOf t n).refresh = true ∧ (portOf t n).trainedLanes = false ∧ ∀ m, m ≠ n → portOf t m = portOf s m)

/-- Darinlink (11, R284, R298 to R304): a full training starts sequence numbers and the order windows of masters 0 and 3 anew and exchanges credits, whose echo makes the link ACTIVE; a flit in order delivers its messages, ACK frees, a failed check asks for the flits again; the eighth expiry of the replay timer starts a recovery retraining; width changes are asked for and echoed; 1 ms out of ACTIVE takes the link down, and every 100 ms a training is tried. What rests on log entries 3, 7 and 25 is the model's choice. -/
def Obligations.DarinlinkEventsAct : Prop :=
  ∀ (s : State), hubRuns s = true →
    let d := s.link.dl
    let train := d.trainings % 256
    let idle := fun k => if 1023 < d.sinceIdle + k then [WireRec.dlIdle (dlIdleFlit d false [])] else []
    let since := fun k => if 1023 < d.sinceIdle + k then k else d.sinceIdle + k
    (∀ raw, d.st = .active →
      (dlDecode raw = none → d.nakAt = none → d.crcTimes.length < 255 → exec (.dlFlitReceive raw) s =
        .next { modDl s (fun d => { d with crcTimes := d.crcTimes.filter (fun x => decide (s.time.clock < x + 250000)) ++ [s.time.clock], nak := true, nakAt := some s.time.clock, sinceIdle := 0 }) with
                wire := s.wire ++ [.dlNak ((d.expected + 65535) % 65536) (dlIdleFlit d true [])] }) ∧
      (∀ b, dlDecode raw = some b → let n := ofLe (b.drop 480)
        let cr := (List.range 6).map (fun c => d.credits.getD c 0 + bits n (19 + 8 * c) (12 + 8 * c))
        crc32 (b.take 492) = bits n 127 96 → d.waiting = [] →
        (bits n 62 60 = 0 → bits n 95 80 = d.expected → bit n 63 = false →
          (d.replay = [] → exec (.dlFlitReceive raw) s = .next (modDl s (fun d => { d with credits := cr }))) ∧
          (∀ f rest, d.replay = f :: rest → let k := (bits n 79 64 + 65536 - f.1) % 65536
            (k < d.replay.length → exec (.dlFlitReceive raw) s = .next (modDl s (fun d => { d with credits := cr, replay := d.replay.drop (k + 1), timerFrom := s.time.clock, expiries := 0 }))) ∧
            (d.replay.length ≤ k → exec (.dlFlitReceive raw) s = .next (modDl s (fun d => { d with credits := cr }))))) ∧
        (bits n 62 60 = 1 → d.replay = [] →
          (bits n 95 80 ≠ d.expected → d.nakAt = none → exec (.dlFlitReceive raw) s =
            .next { modDl s (fun d => { d with credits := cr, nak := true, nakAt := some s.time.clock, sinceIdle := 0 }) with
              wire := s.wire ++ [.dlNak ((d.expected + 65535) % 65536) (dlIdleFlit d true [])] }) ∧
          (bits n 95 80 = d.expected → let r := dlMessages (d.partial_.length + 30) (d.partial_ ++ (List.range 30).map (fun i => BitVec.ofNat 128 (ofLe ((b.drop (16 * i)).take 16))))
            ∃ u, exec (.dlFlitReceive raw) s = .next (dlReturn (r.1.foldl dlDeliver u)) ∧ u.link.dl.expected = (d.expected + 1) % 65536 ∧ u.link.dl.partial_ = r.2 ∧ u.link.dl.nak = false ∧
              u.link.dl.credits = cr ∧ { u with link := { u.link with dl := d } } = s)))) ∧
    (∀ f rest, d.st = .active → d.replay = f :: rest →
      (s.time.clock < d.timerFrom + 500 → exec .dlReplayTimerExpiry s = .next s) ∧
      (d.timerFrom + 500 ≤ s.time.clock → d.expiries < 7 → exec .dlReplayTimerExpiry s =
        .next { modDl s (fun d => { d with timerFrom := s.time.clock, expiries := d.expiries + 1, sinceIdle := since d.replay.length }) with
                wire := s.wire ++ idle d.replay.length ++ [.dlResend f.1 (d.replay.map Prod.snd)] }) ∧
      (d.timerFrom + 500 ≤ s.time.clock → 7 ≤ d.expiries → ∃ t, exec .dlReplayTimerExpiry s = .next t ∧ t.link.dl.st = .training ∧ t.link.dl.recovering = true ∧ t.link.dl.replay = d.replay ∧
        t.link.dl.nextSeq = d.nextSeq ∧ t.link.dl.expected = d.expected ∧ t.link.dl.credits = d.credits)) ∧
    (d.waiting = [] → (d.recovering = true ∨ d.st = .active) → exec .dlRecoveryRetrain s = .next (modDl s (fun d => { d with
      st := .active, recovering := false, leftActiveAt := none, recoveries := satInc 16 d.recoveries, expiries := 0, timerFrom := s.time.clock, crcTimes := [],
      width := d.widthAgreed.getD d.width, widthAgreed := none, seededAt := s.time.clock }))) ∧
    (∀ r, 2 < r.width → exec (.dlCreditInit r) s = .next (countDiscard s) ∧ exec (.dlWidth r) s = .next (countDiscard s)) ∧
    (∀ r, r.width ≤ 2 → (d.stepFive = false ∨ r.trainCount ≠ train → exec (.dlCreditInit r) s = .next s) ∧
      (d.stepFive = true → r.trainCount = train →
        let cr := if d.peerInit = true then d.credits else (List.range 6).map (fun c => r.credits.getD c 0)
        let c : DlCtrlRec := { credits := [32, 256, 0, 0, 64, 64], width := d.width, echo := true, trainCount := train }
        let w := s.wire ++ idle 1 ++ [.dlCtrl 1 c (dlCtrlFlit d 1 c)]
        (r.echo = false → exec (.dlCreditInit r) s = .next { modDl s (fun d => { d with credits := cr, peerInit := true, echoSent := true, sinceIdle := since 1 }) with wire := w }) ∧
        (r.echo = true → d.waiting = [] → ∃ t, exec (.dlCreditInit r) s = .next t ∧ t.wire = w ∧ t.link.dl.st = .active ∧ t.link.dl.absent = false ∧ t.link.dl.stepFive = false ∧ t.link.dl.credits = cr ∧
          ((slotOf t 0).st = .bound ↔ (slotOf s 0).st = .bound ∨ ((slotOf s 0).st = .failed ∧ walkOf s 0 = none))))) ∧
    (d.stepFive = true → s.time.timebaseOn = true → s.time.timebase % 250 = 0 → s.time.refilled ≠ some s.time.timebase → s.hub.prepared = [] → s.hub.heldOrders = [] → s.power.jtagHeld = [] →
      let c : DlCtrlRec := { credits := [32, 256, 0, 0, 64, 64], width := d.width, echo := d.peerInit, trainCount := train }
      ∃ t, exec .refillTick s = .next t ∧ t.wire = s.wire ++ idle 1 ++ [.dlCtrl 1 c (dlCtrlFlit d 1 c)] ∧ t.link = { s.link with dl := { d with sinceIdle := since 1 } }) ∧
    (∀ good, d.st = .training → d.recovering = false → d.stepFive = false →
      (dlWidthOf good d.groupsOut = none → exec (.dlFullTrainingDone good) s = .next (modDl s (fun d => { d with st := .down }))) ∧
      (∀ w, dlWidthOf good d.groupsOut = some w → ∃ t, exec (.dlFullTrainingDone good) s = .next t ∧ t.link.dl.width = w ∧ t.link.dl.nextSeq = 0 ∧ t.link.dl.expected = 0 ∧ t.link.dl.replay = [] ∧
        t.link.dl.credits = [0, 0, 0, 0, 0, 0] ∧ t.link.dl.stepFive = true ∧ t.link.dl.fullTrainings = satInc 16 d.fullTrainings ∧ t.link.dl.trainings = d.trainings + 1 ∧
        (∀ m, m = 0 ∨ m = 3 → (masterOf t m).highest = none ∧ (masterOf t m).marks = [] ∧ (masterOf t m).outstanding = (masterOf s m).outstanding) ∧ (∀ m, m ≠ 0 → m ≠ 3 → masterOf t m = masterOf s m) ∧
        let c : DlCtrlRec := { credits := [32, 256, 0, 0, 64, 64], width := w, echo := false, trainCount := (d.trainings + 1) % 256 }
        t.wire = s.wire ++ [.dlCtrl 1 c (dlCtrlFlit t.link.dl 1 c)])) ∧
    (∀ r, d.st = .active →
      (r.width ≤ 2 → r.echo = false → let c : DlCtrlRec := { width := r.width, echo := true, trainCount := train }
        exec (.dlWidth r) s = .next { modDl s (fun d => { d with st := .training, recovering := true, leftActiveAt := some s.time.clock, widthAgreed := some r.width, sinceIdle := since 1 }) with
          wire := s.wire ++ idle 1 ++ [.dlCtrl 2 c (dlCtrlFlit d 2 c)] }) ∧
      (r.width ≤ 2 → r.echo = true → ∀ a, d.widthAsked = some (r.width, a) → exec (.dlWidth r) s =
        .next (modDl s (fun d => { d with st := .training, recovering := true, leftActiveAt := some s.time.clock, widthAsked := none, widthAgreed := some r.width }))) ∧
      (r.width ≤ 2 → r.echo = true → d.widthAsked = none → exec (.dlWidth r) s = .next s)) ∧
    (∀ w t n, d.widthAsked = some (w, t, n) → d.st = .active → t + 25000 ≤ s.time.clock →
      (n < 10 → let c : DlCtrlRec := { width := w, trainCount := train }
        exec .dlWidthRetryTimer s = .next { modDl s (fun d => { d with widthAsked := some (w, s.time.clock, n + 1), sinceIdle := since 1 }) with
          wire := s.wire ++ idle 1 ++ [.dlCtrl 2 c (dlCtrlFlit d 2 c)] }) ∧
      (10 ≤ n → exec .dlWidthRetryTimer s = .next (modDl s (fun d => { d with widthAsked := none })))) ∧
    (∀ t, d.leftActiveAt = some t → d.st ≠ .active →
      (s.time.clock < t + 250000 → exec .darinlinkDown s = .next s) ∧
      (t + 250000 ≤ s.time.clock → ∃ u, exec .darinlinkDown s = .next u ∧ u.link.dl.st = .down ∧ u.link.dl.absent = true ∧ u.link.dl.waiting = [] ∧ u.link.dl.replay = [] ∧
        u.link.dl.dropped = satAdd 32 d.dropped (answersIn (d.waiting.map msgOf ++ d.replay.map (fun x => flitMsg x.2))) ∧ ((slotOf s 0).st = .bound → (slotOf u 0).st = .failed ∧ ∃ w, walkOf u 0 = some w ∧ w.failure = true) ∧
        ((slotOf s 0).st ≠ .bound → u.coh = s.coh))) ∧
    (d.st ≠ .active → d.recovering = false →
      (s.time.clock < d.lastTry + 25000000 → exec .dlTrainRetryTimer s = .next s) ∧
      (d.lastTry + 25000000 ≤ s.time.clock → exec .dlTrainRetryTimer s = .next (modDl s (fun d => { d with st := .training, stepFive := false, lastTry := s.time.clock }))))

/-- Faults as they are latched and what follows (12, R309, R311, R313 to R315, R320, R322, Tables 12.1, 12.3, 12.10): an error line's fault is logged and pending for its region; a second one in another unit escalates with its replacement withheld, and a withheld replacement starts when its record is acknowledged; HALT ends work; rows of Table 12.10: an SRAM row moves to a spare row, or its holder fails, a fuse row is noted, a channel is fenced, its stack evacuated to the region's spare where that can be, an engine's line is its abrupt failure, a port fails over to its COLD partner, a directory way has its set's spare, once, a directory slice is bypassed, a ring link is left out, a phase has the lowest free spare, the management pair and the PLL have theirs and without it HALT follows, and a part of the die without a spare loses the region; a replacement ends with its NOTE; the spare management pair takes over and answers what had not reached its commit tick. What rests on log entries 3 and 23 is the model's choice. -/
def Obligations.FaultsLatchAndReact : Prop :=
  ∀ (s : State),
    let taken := fun (collector u : Nat) => { s with fault := { s.fault with linePtrs := tset s.fault.linePtrs collector ((u + 1) % 65536) } }
    let noted := fun (t : State) (k u c : Nat) (spare : Option Nat) => ∃ r, (regFault t k).fence = some r ∧ r.unit = u ∧ r.cause = c ∧ r.region = k ∧ r.cls = 1 ∧ r.seq = s.fault.nextSeq ∧ r.spareUsed = spare
    let outOf := fun (t : State) (k u : Nat) (withheld : Bool) => ∃ x ∈ t.fault.out, x.hub = false ∧ x.region = k ∧ x.unit = u ∧ x.withheld = withheld
    (∀ hub k u c d, hubRuns s = true →
      (lineFault { hub := hub, region := k, unit := u, cause := c, detail := d } = false → exec (.errorLine hub k u c d) s = .next s)) ∧
    (∀ k i d, hubRuns s = true → k < 4 → i < 5 → let u := 0x1800 + i
      let p := 5 * k + i
      ((regFault s k).fence = none → ∃ t r, exec (.errorLine false k u 0x40 d) s = .next t ∧ (regFault t k).fence = some r ∧ tget t.fault.linePtrs k 0 = u + 1 ∧ r.seq = s.fault.nextSeq ∧ r.timestamp = s.time.timebase ∧ r.unit = u ∧ r.cause = 0x40 ∧
        r.region = k ∧ r.cls = 1 ∧ r.raised = 1 ∧ r.escalated = false ∧ r.detail = d ∧ t.fault.nextSeq = (s.fault.nextSeq + 1) % 2 ^ 32 ∧ (∃ l, t.fault.log = l ++ [r]) ∧
        stackOf t p = { stackOf s p with tempFenced := true, thermalLimit := 2, refresh2x := true } ∧ (∀ q, q ≠ p → stackOf t q = stackOf s q) ∧
        t.fault.drydown = s.fault.drydown ∧ t.fault.haltRec = s.fault.haltRec) ∧
      (∀ q, (regFault s k).fence = some q → sameUnit q { region := k, unit := u, cause := 0x40, detail := d } = true → ∃ t, exec (.errorLine false k u 0x40 d) s = .next t ∧
        (regFault t k).fence = some { q with count := min 63 (q.count + 1) } ∧ t.fault.drydown = s.fault.drydown ∧ t.fault.nextSeq = (s.fault.nextSeq + 1) % 2 ^ 32) ∧
      (∀ q, (regFault s k).fence = some q → sameUnit q { region := k, unit := u, cause := 0x40, detail := d } = false → q.seq ≠ s.fault.nextSeq → s.fault.drydown = none → ∃ t r, exec (.errorLine false k u 0x40 d) s = .next t ∧
        t.fault.drydown = some r ∧ r.cls = 2 ∧ r.raised = 1 ∧ r.escalated = true ∧ r.withheld = true ∧ r.unit = u ∧ r.cause = 0x40 ∧ (regFault t k).fence = some q ∧ (regFault t k).escalation = true)) ∧
    (∀ d, hubRuns s = true → s.fault.haltRec = none → s.fault.halted = false → ∃ t r, exec (.errorLine true 0 0xC800 0xC1 d) s = .next t ∧ t.fault.haltRec = some r ∧ r.cls = 3 ∧ r.cause = 0xC1 ∧ r.hub = true ∧
      t.fault.halted = true ∧ t.hub.ready = false ∧ (∀ k < 5, (bistOf t k).current = none)) ∧
    (∀ k m row, hubRuns s = true → k < 4 → m < 2048 → row < 65536 → tget s.fault.sramRows (k * 2048 + m) 0 < 4 → ∃ t, exec (.errorLine false k (0x8000 + m) 0x18 row) s = .next t ∧
      tget t.fault.sramRows (k * 2048 + m) 0 = tget s.fault.sramRows (k * 2048 + m) 0 + 1 ∧ tget t.life.counters 0x068 0 = satAdd 64 (tget s.life.counters 0x068 0) 1 ∧
      (regFault t k).lastNote = 0x18 ∧ (regFault t k).fence = (regFault s k).fence) ∧
    (∀ k m row, hubRuns s = true → k < 4 → m < 2048 → row < 65536 → 4 ≤ tget s.fault.sramRows (k * 2048 + m) 0 →
      exec (.errorLine false k (0x8000 + m) 0x18 row) s = .next (raise (taken k (0x8000 + m)) (onHolder { region := k, unit := 0x8000 + m, cause := 0x4A, detail := row }))) ∧
    (∀ j d, hubRuns s = true → j < 2048 → exec (.errorLine true 0 (0xD800 + j) 0x19 d) s = .next (note (taken 4 (0xD800 + j)) true 0 (0xD800 + j) 0x19 d)) ∧
    (∀ k i c d, hubRuns s = true → k < 4 → i < 160 → c = 0x41 ∨ c = 0x42 → (regFault s k).fence = none → let p := 5 * k + i / 32
      (stackOf s p).fencedChans = [] → (stackOf s p).mapped = true → tget? s.mem.evacs k = none →
      (evacuable s p = true → spareUsable s k = true → ∃ t x, exec (.errorLine false k (0x0800 + i) c d) s = .next t ∧ tget? t.mem.evacs k = some x ∧ x.old = p ∧ x.spare = 5 * k + 4 ∧ x.cause = c ∧
        (stackOf t p).fencedChans = [i % 32] ∧ (regFault t k).spareStackFree = false ∧ noted t k (0x0800 + i) c (some (stackUnit (5 * k + 4)))) ∧
      (spareUsable s k = false → ∃ t, exec (.errorLine false k (0x0800 + i) c d) s = .next t ∧ tget? t.mem.evacs k = none ∧ (stackOf t p).fencedChans = [i % 32] ∧ outOf t k (0x0800 + i) false ∧
        (regFault t k).lastNote = 0x14 ∧ noted t k (0x0800 + i) c none)) ∧
    (∀ k i q c d, hubRuns s = true → k < 4 → i < 160 → c = 0x41 ∨ c = 0x42 → let p := 5 * k + i / 32
      (regFault s k).fence = some q → sameUnit q { region := k, unit := 0x0800 + i, cause := c, detail := d } = false → q.seq ≠ s.fault.nextSeq → s.fault.drydown = none →
      (stackOf s p).fencedChans = [] → tget? s.mem.evacs k = none →
        ∃ t, exec (.errorLine false k (0x0800 + i) c d) s = .next t ∧ tget? t.mem.evacs k = none ∧ (stackOf t p).fencedChans = [i % 32] ∧ (regFault t k).spareStackFree = (regFault s k).spareStackFree ∧
          ∃ r ∈ t.fault.drydown, r.unit = 0x0800 + i ∧ r.withheld = true ∧ ∃ x ∈ t.fault.out, x.region = k ∧ x.unit = 0x0800 + i ∧ x.withheld = true ∧ x.record = some r.seq) ∧
    (∀ k i, hubRuns s = true → k < 4 → i < 144 → exec (.errorLine false k (0x2000 + i) 0x47 0) s = exec (.engineAbruptFail k i) (taken k (0x2000 + i))) ∧
    (∀ n d, hubRuns s = true → n < 32 → (portOf s n).st = .active → let k := n % 16 / 4; let m := partner n
      (regFault s k).fence = none → (portOf s m).st = .cold → savedValid s (portOf s m) = true → ∃ t x, exec (.errorLine false k (0x3000 + n) 0x44 d) s = .next t ∧ (portOf t n).st = .fenced ∧ (portOf t m).st = .bringup ∧
        failoverOf t (n % 16) = some x ∧ x.from_ = n ∧ x.inPlace = false ∧ (false, k, 0x3000 + n) ∈ t.fault.replacing ∧ noted t k (0x3000 + n) 0x44 (some (0x3000 + m))) ∧
    (∀ k i d, hubRuns s = true → k < 4 → i < 272 → (regFault s k).fence = none → let key := (k * 16 + i / 17) * 4096 + d % 4096
      let e := tget s.fault.waysLost key (0, 0)
      (e.2 = 0 → ∃ t, exec (.errorLine false k (0x4800 + i) 0x48 d) s = .next t ∧ tget t.fault.waysLost key (0, 0) = (e.1 + 1, 1) ∧ noted t k (0x4800 + i) 0x48 (some (0x4800 + (i / 17 * 17 + 16)))) ∧
      (e.2 ≠ 0 → ∃ t, exec (.errorLine false k (0x4800 + i) 0x48 d) s = .next t ∧ tget t.fault.waysLost key (0, 0) = (e.1 + 1, e.2) ∧ outOf t k (0x4800 + i) false ∧ noted t k (0x4800 + i) 0x48 none)) ∧
    (∀ k i d, hubRuns s = true → k < 4 → i < 16 → (regFault s k).fence = none → ∃ t, exec (.errorLine false k (0x5000 + i) 0x49 d) s = .next t ∧ k * 16 + i ∈ t.fault.slicesBypassed ∧ outOf t k (0x5000 + i) false ∧
      noted t k (0x5000 + i) 0x49 none) ∧
    (∀ k i d, hubRuns s = true → k < 4 → i < 3 → (regFault s k).fence = none → ∃ t, exec (.errorLine false k (0x7800 + i) 0x4B d) s = .next t ∧ (i < 2 → 2 * k + i ∈ t.fault.linksFenced) ∧ outOf t k (0x7800 + i) false ∧
      noted t k (0x7800 + i) 0x4B none) ∧
    (∀ rail j q rest d, hubRuns s = true → rail < 12 → let k := rail % 4; let u := 0x8800 + 32 * rail
      j < (railPhases rail).1 + (railPhases rail).2.1 → (regFault s k).fence = none → phaseServes s rail j = true → railShort s rail = false → freePhases s rail = q :: rest →
        ∃ t, exec (.errorLine false k (u + j) 0x4E d) s = .next t ∧ q ∈ tget t.power.phasesUsed rail [] ∧ j ∈ tget t.power.phasesFailed rail [] ∧ noted t k (u + j) 0x4E (some (u + q))) ∧
    (∀ i d, hubRuns s = true → i < 2 → s.fault.hubFence = none →
      (i = s.fault.pairActive → s.fault.pairSpareFree = true → ∃ t r, exec (.errorLine true 0 (0xC000 + i) 0x4C d) s = .next t ∧ t.fault.takeover = true ∧ t.fault.pairSpareFree = false ∧ t.fault.pairActive = i ∧
        t.fault.hubFence = some r ∧ r.unit = 0xC000 + i ∧ r.cause = 0x4C ∧ r.spareUsed = some (0xC000 + (1 - i)) ∧ t.fault.halted = s.fault.halted) ∧
      (i = s.fault.pairActive → s.fault.pairSpareFree = false → s.fault.haltRec = none → s.fault.halted = false → ∃ t r, exec (.errorLine true 0 (0xC000 + i) 0x4C d) s = .next t ∧ t.fault.halted = true ∧
        t.fault.haltRec = some r ∧ r.cause = 0xC1) ∧
      (i = s.fault.pllActive → s.fault.pllSpareFree = true → ∃ t r, exec (.errorLine true 0 (0xD000 + i) 0x4D d) s = .next t ∧ t.fault.pllActive = 1 - i ∧ t.fault.pllSpareFree = false ∧
        t.fault.hubFence = some r ∧ r.unit = 0xD000 + i ∧ r.cause = 0x4D ∧ r.spareUsed = some (0xD000 + (1 - i)) ∧ t.fault.halted = s.fault.halted) ∧
      (i = s.fault.pllActive → s.fault.pllSpareFree = false → s.fault.haltRec = none → s.fault.halted = false → ∃ t r, exec (.errorLine true 0 (0xD000 + i) 0x4D d) s = .next t ∧ t.fault.halted = true ∧
        t.fault.haltRec = some r ∧ r.cause = 0xC2)) ∧
    (∀ k u c d, hubRuns s = true → k < 4 → u ∈ [0x6000, 0x6800, 0x7000] → c = 0x4A ∨ c = 0x82 → (regFault s k).fenced = false → s.fault.drydown = none → (c = 0x4A → (regFault s k).fence = none) →
      let f : FaultIn := { region := k, unit := u, cause := c, detail := d }
      let l := latch (taken k u) f
      let lost := fun (v : State) => if (List.range 4).any (fun j => (regFault s j).fenced) then raiseN (if c = 0x4A then 3 else 4) (loseRegion v k) { f with cause := 0xC0 } else loseRegion v k
      (c = 0x82 → (∃ r, l.st.fault.drydown = some r ∧ r.cause = 0x82 ∧ r.unit = u ∧ r.cls = 2) ∧ exec (.errorLine false k u c d) s = .next (answerWaits (tagWithheld (lost l.st) l.record))) ∧
      (c = 0x4A → let l2 := latch l.st { f with cause := 0x82 }
        exec (.errorLine false k u c d) s = .next (answerWaits (tagWithheld (tagWithheld (lost l2.st) l2.record) l.record)))) ∧
    (∀ o, s.fault.out = [o] → o.withheld = true → o.hub = false →
      (∀ e j, o.unit / 2048 = 4 → (logEngOf s e).adoptedBy.isSome = true → (∀ d, d / 128 = o.region → (logEngOf s d).adoptedBy.isSome = true → (logEngOf s d).phys = o.unit % 2048 → d = e) → e / 128 = o.region → (logEngOf s e).phys = o.unit % 2048 →
        spareFor s o.region (o.unit % 2048) = some j → ∃ t, startWithheld s (fun _ => true) = t ∧ (logEngOf t e).move = some { spare := j, since := s.time.clock }) ∧
      (o.unit / 2048 = 6 → let m := partner (o.unit % 2048)
        (portOf s m).st = .cold → savedValid s (portOf s m) = true → ∃ t, startWithheld s (fun _ => true) = t ∧ (portOf t m).st = .bringup ∧ (false, o.region, o.unit) ∈ t.fault.replacing) ∧
      (o.unit / 2048 = 1 → o.unit % 2048 < 160 → (stackOf s (5 * o.region + o.unit % 2048 / 32)).fencedChans.contains (o.unit % 2048 % 32) = true → spareUsable s o.region = false → tget? s.mem.evacs o.region = none →
        (startWithheld s (fun _ => true)).fault.out = [{ o with withheld := false }])) ∧
    (∀ hub k u, (hub, k, u) ∈ s.fault.replacing → replacementReady s hub k u = true → ∃ t, exec (.replacementDone hub k u) s = .next t ∧ t.fault.replacing = s.fault.replacing.filter (fun x => x != (hub, k, u)) ∧
      t.fault.out = s.fault.out.filter (fun x => !(x.hub == hub && x.region == k && x.unit == u)) ∧ (hub = false → (regFault t k).lastNote = 0x1A)) ∧
    (∀ hub k u, (hub, k, u) ∉ s.fault.replacing → exec (.replacementDone hub k u) s = .next s) ∧
    (hubRuns s = true → (s.fault.takeover = false → exec .mgmtPairTakeover s = .next s) ∧
      (s.fault.takeover = true → let old := s.fault.pairActive
        ∃ u t, exec .mgmtPairTakeover s = .next t ∧ u.fault = { s.fault with takeover := false, pairActive := 1 - old } ∧ u.hub = { s.hub with prepared := [] } ∧ u.extents = s.extents ∧ u.eng = s.eng ∧
          t = replaced (s.hub.prepared.foldl (fun v p => finish v p.order.1 p.order.2 0xF2) u) true 0 (0xC000 + old) ∧ t.hub.prepared = [] ∧ t.fault.pairActive = 1 - old ∧ t.fault.takeover = false))

/-- Self-test in service and the lifetime record (14, R345 to R350, R352 to R358, Table 14.6): a unit falls due 20 h after its pass and is overdue at 24 h, each unit counted once; the next due unit that may start leaves service; its slice ends with an entry, a pass or a FENCE record, or is abandoned with the outcome of its cause; a controller's listed stripes are written before the entry; the ports of a couple of pairs exchange together and the management pairs in turn, after a wait of at most 10 ms; a spare stack is trained and tested; checkpoints join the buffer, whose oldest record goes to the flash log, in blocks of 1,024 units, each with its header, in a ring of 767 places of which bad ones are skipped. What rests on log entries 3, 13, 17, 22 and 27 is the model's choice. -/
def Obligations.SelfTestsAndRecords : Prop :=
  ∀ (s : State) (k u g : Nat),
    let b := bistOf s k
    (firmwareRuns s = true → k < 5 → (u, g) ∈ testUnits s k → let age := s.time.timebase - tget b.lastPass (u * 256 + g) 0
      (age < 18000000000000 → exec (.unitDue k u g) s = .next s) ∧
      (18000000000000 ≤ age → age < 21600000000000 → (u, g) ∉ b.due → exec (.unitDue k u g) s = .next (modBist s k (fun b => { b with due := b.due ++ [(u, g)] }))) ∧
      (21600000000000 ≤ age → (u, g) ∉ b.overdue → ∃ t, exec (.unitDue k u g) s = .next t ∧ (u, g) ∈ (bistOf t k).due ∧ (u, g) ∈ (bistOf t k).overdue ∧
        tget t.life.counters 0x0A0 0 = satAdd 64 (tget s.life.counters 0x0A0 0) (if b.overdue.any (fun v => v.1 == u) then 0 else 1))) ∧
    (k < 5 → ((u, g) ∈ b.due ∨ (u, g) ∈ b.overdue) →
      (nextSlice s k = some (u, g) → regionTurn s k = false → exec (.sliceStart k u g) s = .next s) ∧
      (nextSlice s k = some (u, g) → regionTurn s k = true → ∃ t, exec (.sliceStart k u g) s = .next t ∧ (bistOf t k).current = some (u, g, s.time.timebase, drawOf u g) ∧
        t.life.lastSlice = some s.time.clock ∧ t.life.regionPtr = (k + 1) % 5 ∧
        (u / 2048 = 4 → (physOf t k (u % 2048)).underTest = true) ∧ (u / 2048 = 1 → (chanOf t (5 * k + u % 2048 / 32) (u % 32)).selfRefresh = true)) ∧
      (b.current = none → startable s k u g = false → exec (.sliceStart k u g) s = .next (modBist s k (fun b => { b with deferred := satInc 19 b.deferred })))) ∧
    ((u, g) ∉ b.due → (u, g) ∉ b.overdue → exec (.sliceStart k u g) s = .next s) ∧
    (∀ since draw, b.current = some (u, g, since, draw) → u / 2048 ≠ 1 → u / 2048 ≠ 0x1C →
      let e := fun (o : Nat) => ({ timestamp := since, unit := u, segment := g, outcome := o, duration := min 0xFFFF ((s.time.timebase - since) / 250), catchUp := 0 } : SliceEntry)
      (∀ second, ∃ t, exec (.sliceEnd k { firstMatch := true, secondMatch := second }) s = .next t ∧ (bistOf t k).current = none ∧ (bistOf t k).entries = (e 0 :: b.entries).take 16 ∧
        (bistOf t k).run = satInc 32 b.run ∧ tget (bistOf t k).lastPass (u * 256 + g) 0 = s.time.timebase ∧ (u, g) ∉ (bistOf t k).due ∧ (u, g) ∉ (bistOf t k).overdue ∧
        (u / 2048 = 4 → (physOf t k (u % 2048)).underTest = false)) ∧
      (∃ t, exec (.sliceEnd k { firstMatch := false, secondMatch := true }) s = .next t ∧ (bistOf t k).current = none ∧ (bistOf t k).entries = (e 1 :: b.entries).take 16) ∧
      (u = 0x5800 → k < 4 → (regFault s k).fence = none → ∃ t r, exec (.sliceEnd k { firstMatch := false, secondMatch := false }) s = .next t ∧ (bistOf t k).current = none ∧
        (bistOf t k).entries = (e 2 :: b.entries).take 16 ∧ (bistOf t k).failed = satInc 16 b.failed ∧ (regFault t k).fence = some r ∧ r.unit = u ∧ r.cause = 0x50 ∧ r.detail = g) ∧
      (∀ c, abandonCause s k u c = false → exec (.sliceAbandon k c) s = .next s) ∧
      (∀ c, abandonCause s k u c = true → ∃ t, exec (.sliceAbandon k c) s = .next t ∧ (bistOf t k).current = none ∧ (bistOf t k).abandoned = satInc 16 b.abandoned ∧ (bistOf t k).lastPass = b.lastPass ∧
        (bistOf t k).entries = (e (match c with | .spare => 3 | .erasure => 4 | .drain => 5 | .other => 7) :: b.entries).take 16)) ∧
    (b.current = none → (∀ r, exec (.sliceEnd k r) s = .next s) ∧ ∀ c, exec (.sliceAbandon k c) s = .next s) ∧
    (∀ outcome since, b.walking = some (u, outcome, since) →
      (reservedRoom s k 1 = false → exec (.catchupWalkDone k) s = .next s) ∧
      (reservedRoom s k 1 = true → b.catchUp = [] → ∃ t, exec (.catchupWalkDone k) s = .next t ∧ (bistOf t k).walking = none ∧
        (bistOf t k).entries = ({ timestamp := since, unit := u, segment := 0, outcome := outcome, duration := min 0xFFFF ((s.time.timebase - since) / 250), catchUp := b.listed } :: b.entries).take 16) ∧
      (∀ l stripe, b.catchUp = [(l, stripe)] → reservedRoom s k 1 = true → lockFree s l stripe .catchUp = false → ∃ t, exec (.catchupWalkDone k) s = .next t ∧ (bistOf t k).walking = b.walking ∧ (bistOf t k).catchUp = b.catchUp)) ∧
    (∀ pair, pair < 16 → let n := activeOf s pair; let m := activeOf s (couple pair)
      (exchangeDue s pair = false → exec (.portExchange pair) s = .next s) ∧
      (exchangeDue s pair = true → n % 16 = pair ∧ m % 16 = couple pair ∧ n / 16 ≠ m / 16 ∧ (portOf s n).st = .active ∧ (portOf s m).st = .active ∧ (portOf s (partner n)).st = .cold ∧ (portOf s (partner m)).st = .cold ∧
        ∃ t, exec (.portExchange pair) s = .next t ∧ portOf t n = { portOf s n with stopped := true } ∧ portOf t m = { portOf s m with stopped := true } ∧
          failoverOf t pair = some { from_ := n, since := s.time.clock, exchange := true, draining := true } ∧ failoverOf t (couple pair) = some { from_ := m, since := s.time.clock, exchange := true, draining := true } ∧
          { t with link := { t.link with ports := s.link.ports, failovers := s.link.failovers } } = s)) ∧
    (firmwareRuns s = true → pairsDue s = true →
      let since := fun (o : Option Nat) => { s.hub with exchangeSince := o }
      (s.hub.prepared = [] → exec .mgmtPairExchange s = .next { s with fault := { s.fault with pairActive := 1 - s.fault.pairActive }, hub := since none }) ∧
      (s.hub.prepared ≠ [] → (s.hub.exchangeSince = none → exec .mgmtPairExchange s = .next { s with hub := since (some s.time.clock) }) ∧
        (∀ t0, s.hub.exchangeSince = some t0 → (s.time.clock < t0 + 2500000 → exec .mgmtPairExchange s = .next s) ∧
          (t0 + 2500000 ≤ s.time.clock → ∃ t, exec .mgmtPairExchange s = .next t ∧ t.fault = s.fault ∧ t.hub = since none ∧ tget (bistOf t 4).retryAt (0xC000 + s.fault.pairActive) 0 = s.time.clock + 250000000)))) ∧
    (s.life.stackTest = none → stackTestDue s k = true → ∀ p, ∃ t, exec (.spareStackTest k p) s = .next t ∧ t.life.stackTest = some k ∧
      (let x := stackOf t (spareOf k); x.st = .serving ∧ x.mapped = false ∧ x.rate = 0) ∧ (∀ c < 32, (chanOf t (spareOf k) c).shadow.length = 3 ∧ (chanOf t (spareOf k) c).lastRetrain = s.time.clock ∧
        tget (bistOf t k).lastPass (chanUnit (spareOf k) c * 256) 0 = s.time.timebase) ∧ t.fault = s.fault) ∧
    (s.life.stackTest = some k → (∃ t, exec (.spareStackTest k true) s = .next t ∧ t.life.stackTest = none ∧ tget t.life.stackTested k 0 = s.time.timebase ∧ (stackOf t (spareOf k)).st = .off ∧ t.fault = s.fault) ∧
      (∃ t, exec (.spareStackTest k false) s = .next t ∧ t.life.stackTest = none ∧ (regFault t k).spareStackFree = false)) ∧
    (∀ bank ok, firmwareRuns s = true → 21600000000000 ≤ s.time.timebase - tget s.life.fuseChecked bank 0 →
      exec (.fuseBankCheck bank ok) s = .next { s with life := { s.life with fuseChecked := tset s.life.fuseChecked bank s.time.timebase } }) ∧
    (firmwareRuns s = true → let t0 := tget s.life.counters 0x000 0
      (t0 < s.life.lastCheckpoint + 600 → exec .checkpoint s = .next s) ∧
      (s.life.lastCheckpoint + 600 ≤ t0 → (s.life.buffer.map recUnits).sum ≤ 990 → ∃ t r, exec .checkpoint s = .next t ∧ t.life.lastCheckpoint = t0 ∧ t.life.buffer = s.life.buffer ++ [r] ∧ r.type = 1 ∧
        r.timebase = s.time.timebase ∧ r.body = (List.range 21).flatMap (groupBytes s))) ∧
    (∀ r rest, (firmwareRuns s = true ∨ s.power.stage = .poweringDown) → flashOut s = false → flashTested s = false → s.hub.fwWork = [] → s.life.buffer = r :: rest →
      let write := exec (.eventRecordWrite true) s
      let fail := exec (.eventRecordWrite false) s
      let put := fun (t : State) (seq place unit : Nat) => t.life.buffer = rest ∧ t.life.logSeq = s.life.logSeq + 1 ∧ t.life.blockUsed = unit + recUnits r ∧ t.life.blockPlace = place ∧
        t.life.log = (if unit = 1 then s.life.log.filter (fun x => x.place != place) else s.life.log) ++ [{ r with seq := s.life.logSeq, block := seq, place := place, unit := unit }]
      (1 < s.life.blockUsed → s.life.blockUsed + recUnits r ≤ 1024 →
        (∃ t, write = .next t ∧ put t s.life.blockSeq s.life.blockPlace s.life.blockUsed ∧ t.life.blocks = s.life.blocks) ∧
        (∃ t, fail = .next t ∧ t.life.buffer = s.life.buffer ∧ t.life.log = s.life.log ∧ t.life.badPlaces = s.life.badPlaces ++ [s.life.blockPlace] ∧ t.life.blockUsed = 0)) ∧
      (s.life.blockUsed = 0 ∨ 1024 < s.life.blockUsed + recUnits r →
        (nextPlace s = none → write = .next s ∧ fail = .next s) ∧
        (∀ p, nextPlace s = some p → p < 767 ∧ p ∉ s.life.badPlaces ∧
          (∃ t, write = .next t ∧ put t (s.life.blockSeq + 1) p 1 ∧ tget? t.life.blocks p = some { seq := s.life.blockSeq + 1, first := s.life.logSeq }) ∧
          (∃ t, fail = .next t ∧ t.life.buffer = s.life.buffer ∧ t.life.log = s.life.log.filter (fun x => x.place != p) ∧ t.life.badPlaces = s.life.badPlaces ++ [p] ∧ t.life.blockPlace = p ∧ t.life.blockUsed = 0)))) ∧
    (∀ (x : LogBlock) p v, x.bytes.length = 64 ∧ (p < 767 → v < 1024 → 0x05010000 ≤ logAddress p v ∧ logAddress p v + 64 ≤ 0x08000000 ∧ ∀ q w, q < 767 → w < 1024 → logAddress p v = logAddress q w → p = q ∧ v = w))


/-- Reset and start-up (13, R331, R332; 15, R371, R373 to R378, Tables 15.9, 15.10, 15.12): the pin and PWR_OK, whichever of them comes last, the boot chain with the codes of what it finds, the firmware's start, order service, the start-up self-test and READY_OD; what a reset and a loss of power leave. That a reset keeps the readings of telemetry is log entry 17's reading, that works on images stopped at the loss of power are answered STORE_WRITE_FAILED log entry 27's choice. What rests on log entries 2, 3, 8, 13, 17, 22 and 27 is the model's choice. -/
def Obligations.ResetAndStartUp : Prop :=
  ∀ (s : State),
    let p := s.power
    let left := fun (t : State) => { t.mem with repairs := [], stackTab := [] } = ({} : MemSt) ∧ t.mem.repairs = s.mem.repairs ∧
      t.mem.stackTab = (s.mem.stackTab.filter (fun x => x.2.retired)).map (fun x => (x.1, { retired := true }))
    (p.pwrOk = false → exec .pwrOkFall s = .next s) ∧
    (p.pwrOk = true →
      (p.stage = .running → ∃ t, exec .pwrOkFall s = .next t ∧ t.power.pwrOk = false ∧ t.power.stage = .poweringDown ∧ t.power.halting = true ∧ t.power.resetting = false ∧ t.hub.ready = false ∧ t.hub.fwWork = []) ∧
      (p.stage = .held ∨ p.stage = .securityTest ∨ p.stage = .bootFailed → ∃ t, exec .pwrOkFall s = .next t ∧ t.power.pwrOk = false ∧ t.power.stage = .unpowered ∧ t.hub.flash = s.hub.flash ∧ t.hub.svnFloor = s.hub.svnFloor ∧
        t.hub.keyRevoked = s.hub.keyRevoked ∧ t.life.log = s.life.log ∧ left t ∧ t.extents = [] ∧ t.coh = {} ∧ t.eng = {})) ∧
    (p.pwrOk = false → let up := fun (tripped : Bool) (stage : Stage) => (.next { s with power := { p with pwrOk := true, pwrOkSince := s.time.clock, lowSince := none, tripped := tripped, stage := stage } } : Result)
      let on := if p.stage = .unpowered then .held else p.stage
      (p.tripped = false → exec .pwrOkRise s = up false on) ∧
      (p.tripped = true → p.lowSince = none → exec .pwrOkRise s = up true p.stage) ∧
      (∀ x, p.tripped = true → p.lowSince = some x → (x + 2500000 ≤ s.time.clock → exec .pwrOkRise s = up false on) ∧ (s.time.clock < x + 2500000 → exec .pwrOkRise s = up true p.stage))) ∧
    (p.pwrOk = true → exec .pwrOkRise s = .next s) ∧
    (p.resetN = true → exec .resetNRise s = .next s) ∧
    (p.resetN = false → let starts := p.stage = .held ∧ p.pwrOk = true ∧ p.tripped = false ∧ p.pwrOkSince + 5000000 ≤ s.time.clock
      (starts → ∃ t, exec .resetNRise s = .next t ∧ t.power.stage = .securityTest ∧ t.power.startAt = s.time.clock ∧ t.power.resetN = true ∧ t.power.resetCause = p.resetCause ∧ { t with power := s.power } = s) ∧
      (¬starts → exec .resetNRise s = .next { s with power := { p with resetN := true, pinsDriven := false } })) ∧
    (∀ ns, (ns < 1000 → exec (.resetNLow ns) s = .next s) ∧
      (10000 ≤ ns → p.pwrOk = true → p.stage ≠ .unpowered → ∃ t, exec (.resetNLow ns) s = .next t ∧ t.power.stage = .held ∧ t.power.resetN = false ∧ t.power.resetCause = 1 ∧ t.power.pwrOk = true ∧
        t.extents = [] ∧ left t ∧ t.coh = {} ∧ t.eng = {} ∧ t.fault = {} ∧ t.link = {} ∧ t.hub.ready = false ∧ t.hub.owner = none ∧ t.hub.endpointId = none ∧ t.hub.flash = s.hub.flash ∧
        t.hub.bootSelect = s.hub.bootSelect ∧ t.hub.svnFloor = s.hub.svnFloor ∧ t.hub.keyRevoked = s.hub.keyRevoked ∧ t.hub.fuseRows = s.hub.fuseRows ∧ t.life.log = s.life.log ∧ t.life.logSeq = s.life.logSeq ∧
        t.power.inputMv = p.inputMv ∧ t.power.dieTemp = p.dieTemp ∧ t.power.pinsDriven = (p.pinsDriven || p.jtag == .extest || p.jtag == .extestPulse || p.jtag == .extestTrain || p.jtag == .clamp || p.jtag == .highz)) ∧
      (10000 ≤ ns → p.stage = .unpowered → exec (.resetNLow ns) s = .next { s with power := { p with resetN := false } }) ∧
      (1000 ≤ ns → ns < 10000 → exec (.resetNLow ns) s = .next (useFree s) ∨ exec (.resetNLow ns) s = exec (.resetNLow 10000) (useFree s))) ∧
    (p.stage = .securityTest → p.refPresent = true → let sel := (bootRecord s).2.2 % 2
      let code := fun (place : Nat) => if Config.flashReadFails (s.time.free + place) then 7 else checkPlace s place
      (∃ t, exec (.hubResetRelease false) s = .next t ∧ t.power.stage = .bootFailed ∧ (s.fault.haltRec = none → s.fault.halted = false → t.fault.halted = true)) ∧
      (∀ slot copy, (code sel = 1 ∧ slot = sel ∨ code sel ≠ 1 ∧ code (1 - sel) = 1 ∧ slot = 1 - sel) →
        (code 2 = 1 ∧ copy = 2 ∨ code 2 ≠ 1 ∧ code 3 = 1 ∧ copy = 3) →
        ∃ t, exec (.hubResetRelease true) s = .next t ∧ t.power.stage = .running ∧ t.time.timebaseOn = true ∧ t.time.timebase = 0 ∧ t.hub.runSlot = slot ∧
          (∀ place < 4, let tried := place = sel ∨ place = 2 ∨ place = 1 - sel ∧ code sel ≠ 1 ∨ place = 3 ∧ code 2 ≠ 1
            bits t.hub.bootStatus.toNat (15 - 4 * place) (12 - 4 * place) = if tried then code place % 16 else 0) ∧
          t.hub.fwMeasure = imgMeasure (flashOf s slot) ∧ t.hub.bundleMeasure = imgMeasure (flashOf s copy) ∧ t.hub.fwSvn = imgSvn (flashOf s slot) ∧ (∀ n < 32, (portOf t n).st = .training) ∧
          (∀ l < 16, (stackOf s (5 * (l / 4) + l % 4)).retired = false →
            (stackOf t (5 * (l / 4) + l % 4)).st = .training ∧ (stackOf t (5 * (l / 4) + l % 4)).logicalId = l) ∧
          (∀ l < 16, (stackOf s (5 * (l / 4) + l % 4)).retired = true → (stackOf s (5 * (l / 4) + 4)).retired = false →
            (∀ i < 4, i ≠ l % 4 → (stackOf s (5 * (l / 4) + i)).retired = false) →
            (stackOf t (5 * (l / 4) + 4)).st = .training ∧ (stackOf t (5 * (l / 4) + 4)).logicalId = l ∧ (regFault t (l / 4)).spareStackFree = false) ∧
          ((∀ q < 20, (stackOf s q).retired = false) → t.fault = s.fault)) ∧
      (code 2 ≠ 1 → code 3 ≠ 1 → ∃ t, exec (.hubResetRelease true) s = .next t ∧ t.power.stage = .bootFailed ∧ (s.fault.haltRec = none → s.fault.halted = false → t.fault.halted = true)) ∧
      (code 0 ≠ 1 → code 1 ≠ 1 → ∃ t, exec (.hubResetRelease true) s = .next t ∧ t.power.stage = .bootFailed ∧ (s.fault.haltRec = none → s.fault.halted = false → t.fault.halted = true))) ∧
    (p.stage = .running →
      (s.hub.orderService = false → exec .orderServiceStart s = .next { s with hub := { s.hub with orderService := true }, link := { s.link with dl := { s.link.dl with st := .training, lastTry := s.time.clock } } }) ∧
      (s.hub.orderService = true → exec .orderServiceStart s = .next s) ∧
      (∀ k l, allTrained s = false ∨ (∃ u ∈ l, testFails s k u = false) ∨ k ∈ p.selfTested → exec (.startupSelfTestDone k l) s = .next s) ∧
      (∀ k, k < 5 → allTrained s = true → k ∉ p.selfTested → ∃ t, exec (.startupSelfTestDone k []) s = .next t ∧ t.power.selfTested = p.selfTested ++ [k] ∧ t.fault = s.fault ∧
        ∀ u g, (u, g) ∈ testUnits s k → g < 256 → tget (bistOf t k).lastPass (u * 256 + g) 0 = s.time.timebase) ∧
      (∀ k, k < 4 → allTrained s = true → k ∉ p.selfTested → (regFault s k).fence = none → ∃ t r, exec (.startupSelfTestDone k [0x5800]) s = .next t ∧ (regFault t k).fence = some r ∧ r.unit = 0x5800 ∧ r.cause = 0x50) ∧
      (s.fault.halted = false → s.hub.ready = false → hardwareDone s = true → s.hub.endpointId.isSome = true → (∃ n < 32, (portOf s n).st = .active) → s.hub.owner.isSome = true → s.hub.timeSet = true →
        (∃ x ∈ s.extents, x.2.st = .granted) → exec .readyAssert s = .next { s with hub := { s.hub with ready := true, readyOnce := true } }) ∧
      ((s.fault.halted = true ∨ hardwareDone s = false ∨ s.hub.endpointId = none ∨ s.hub.owner = none ∨ s.hub.timeSet = false) → exec .readyAssert s = .next s) ∧
      (hardwareDone s = false → s.fault.halted = false → s.fault.haltRec = none →
        (p.startAt + 500000000 ≤ s.time.clock → 0xCB ∉ p.raisedCauses → ∃ t r, exec .startupTimeout s = .next t ∧ t.fault.halted = true ∧ t.fault.haltRec = some r ∧ r.cause = 0xCB) ∧
        (s.time.clock < p.startAt + 500000000 ∨ 0xCB ∈ p.raisedCauses → exec .startupTimeout s = .next s))) ∧
    (p.stage = .poweringDown → p.resetting = false →
      (s.life.buffer ≠ [] → flashOut s = false → exec .convertersStop s = .next s) ∧
      (workDrained s = false → s.time.clock < p.downAt + 2000000 → exec .convertersStop s = .next s) ∧
      (s.life.buffer = [] → workDrained s = true ∨ p.downAt + 2000000 ≤ s.time.clock → ∃ t, exec .convertersStop s = .next t ∧ t.power.stage = (if p.pwrOk = true ∧ p.tripped = false then .held else .unpowered) ∧ t.power.resetCause = (if p.pwrOk = true ∧ p.tripped = false then 3 else 0) ∧
        t.hub.flash = s.hub.flash ∧ t.life.log = s.life.log ∧ left t ∧ t.extents = [])) ∧
    (p.stage = .poweringDown → p.resetting = true → s.life.buffer = [] → workDrained s = true ∨ p.downAt + 2000000 ≤ s.time.clock → p.refPresent = true → ∃ t, exec (.hubResetRelease false) s = .next t ∧ t.power.stage = .bootFailed ∧ t.power.resetCause = 2 ∧ t.extents = [])

/-- Input power, levels, temperatures and the reference clock (15, R363 to R370): the input outside its range, the ceiling and the levels, the readings of the dies, the loss of the reference. What rests on log entries 3 and 22 is the model's choice. -/
def Obligations.PowerAndTemperature : Prop :=
  ∀ (s : State),
    let p := s.power
    (p.stage ≠ .unpowered → ∀ mv ma,
      (mv < 42000 ∨ 62000 < mv → ∃ t, exec (.inputMonitor mv ma) s = .next t ∧ t.power.stage = .unpowered ∧ t.extents = [] ∧ { t.mem with repairs := [], stackTab := [] } = ({} : MemSt) ∧ t.mem.repairs = s.mem.repairs ∧ t.hub.flash = s.hub.flash ∧ t.life.log = s.life.log) ∧
      (46000 ≤ mv → mv ≤ 58000 → exec (.inputMonitor mv ma) s = .next { s with power := { p with inputMv := mv, inputMa := ma, rangeSince := none, raisedCauses := p.raisedCauses.filter (· != 0xC8) } }) ∧
      ((42000 ≤ mv ∧ mv < 46000) ∨ (58000 < mv ∧ mv ≤ 62000) →
        (p.rangeSince = none → exec (.inputMonitor mv ma) s = .next { s with power := { p with inputMv := mv, inputMa := ma, rangeSince := some s.time.clock } }) ∧
        (∀ x, p.rangeSince = some x → s.time.clock < x + 2500000 → exec (.inputMonitor mv ma) s = .next { s with power := { p with inputMv := mv, inputMa := ma } }) ∧
        (∀ x, p.rangeSince = some x → x + 2500000 ≤ s.time.clock → p.stage = .running → 0xC8 ∉ p.raisedCauses → s.fault.halted = false → s.fault.haltRec = none →
          ∃ t r, exec (.inputMonitor mv ma) s = .next t ∧ t.fault.halted = true ∧ t.fault.haltRec = some r ∧ r.cause = 0xC8 ∧ t.hub.ready = false) ∧
        (∀ x q, p.rangeSince = some x → x + 2500000 ≤ s.time.clock → p.stage = .running → 0xC8 ∉ p.raisedCauses → s.fault.halted = true → s.fault.haltRec = some q →
          ∃ t, exec (.inputMonitor mv ma) s = .next t ∧ t.fault.haltRec = some { q with count := min 63 (q.count + 1) } ∧ 0xC8 ∈ t.power.raisedCauses) ∧
        (∀ x, p.rangeSince = some x → 0xC8 ∈ p.raisedCauses → exec (.inputMonitor mv ma) s = .next { s with power := { p with inputMv := mv, inputMa := ma } }))) ∧
    (hubRuns s = true → ∀ avg10 avg1,
      (p.newLimits = [] → avg10 ≤ 1900 →
        (powerCeiling s < avg10 → p.level < 4 → (∀ x, p.lastRaise = some x → x + 2500000 ≤ s.time.clock) → ∃ t, exec (.powerEvaluation avg10 avg1) s = .next t ∧ t.power.level = p.level + 1 ∧
          t.power.lastRaise = some s.time.clock ∧ t.power.inputW = avg10 ∧ (s.time.clock, avg1) ∈ t.power.inputPeak ∧
          ∀ q < 20, (stackOf t q).powerLimit = (if p.level + 1 = 3 then 1 else if p.level + 1 = 4 then 2 else 0)) ∧
        (∀ x, p.lastRaise = some x → s.time.clock < x + 2500000 → powerCeiling s < avg10 → ∃ t, exec (.powerEvaluation avg10 avg1) s = .next t ∧ t.power.level = p.level ∧ t.mem = s.mem) ∧
        (10 * avg10 < 9 * powerCeiling s → (∀ x, p.below90Since = some x → x + 25000000 ≤ s.time.clock ∧ leastLevel s < p.level → ∃ t, exec (.powerEvaluation avg10 avg1) s = .next t ∧ t.power.level = p.level - 1 ∧
          t.power.below90Since = some s.time.clock) ∧ (p.below90Since = none → ∃ t, exec (.powerEvaluation avg10 avg1) s = .next t ∧ t.power.level = p.level ∧ t.power.below90Since = some s.time.clock)) ∧
        (avg10 ≤ powerCeiling s → 9 * powerCeiling s ≤ 10 * avg10 → ∃ t, exec (.powerEvaluation avg10 avg1) s = .next t ∧ t.power.level = p.level ∧ t.power.below90Since = none ∧ t.mem = s.mem)) ∧
      (∀ w h, p.newLimits = [(w, h)] → p.level = 0 → ∃ u, exec (.powerEvaluation avg10 avg1) s = .next (finish u h 0x01A0 0x00) ∧ u.power.ownerLimit = w ∧ u.power.newLimits = []) ∧
      (∀ x, p.newLimits = [] → p.level = 4 → 1900 < avg10 → p.overSince = some x → s.fault.halted = false → s.fault.haltRec = none →
        (s.time.clock < x + 25000000 → ∃ t, exec (.powerEvaluation avg10 avg1) s = .next t ∧ t.fault = s.fault ∧ t.power.level = 4) ∧
        (x + 25000000 ≤ s.time.clock → 0xC9 ∉ p.raisedCauses → ∃ t r, exec (.powerEvaluation avg10 avg1) s = .next t ∧ t.fault.halted = true ∧ t.fault.haltRec = some r ∧ r.cause = 0xC9))) ∧
    powerCeiling s ≤ p.ownerLimit ∧ powerCeiling s ≤ 1900 ∧
    (p.stage ≠ .unpowered → ∀ die sensors, die < 5 → sensors ≠ [] → let x := largest sensors
      (x < 115 → outputsDriven s = false → exec (.dieTempRead die sensors) s = .next { s with power := { p with dieTemp := tset p.dieTemp die x } }) ∧
      (x < 115 → outputsDriven s = true → ∃ t, exec (.dieTempRead die sensors) s = .next t ∧ dieTempOf t die = x ∧ (∀ d, d ≠ die → dieTempOf t d = dieTempOf s d) ∧ t.power.stage = p.stage ∧ t.power.thermtrip = p.thermtrip ∧ t.fault = s.fault ∧
        (105 ≤ x → t.power.dieHold = true ∧ 2 ≤ t.power.level) ∧ (100 ≤ x → t.power.thermalWarn = true) ∧
        (x < 100 → (∀ d < 5, d ≠ die → dieTempOf s d < 100) → t.power.dieHold = false) ∧ (t.power.dieHold = false → t.power.level = p.level)) ∧
      (115 ≤ x → p.thermtrip = false → p.stage = .running → ∃ t, exec (.dieTempRead die sensors) s = .next t ∧ t.power.thermtrip = true ∧ t.power.tripped = true ∧ t.power.stage = .poweringDown ∧ t.hub.ready = false)) ∧
    (p.stage ≠ .unpowered → p.refPresent = true → exec .refClockLoss s = .next { s with power := { p with refPresent := false, refLostAt := some s.time.clock } } ∧ exec .refClockReturn s = .next s) ∧
    (p.stage ≠ .unpowered → p.refPresent = false → exec .refClockLoss s = .next s ∧
      (∀ x, p.refLostAt = some x → s.time.clock ≤ x + 2500000 → exec .refClockReturn s = .next { s with power := { p with refPresent := true, refLostAt := none, refLosses := satInc 16 p.refLosses } }) ∧
      (∀ x, p.refLostAt = some x → x + 2500000 < s.time.clock → exec .refClockReturn s = .next { s with power := { p with refPresent := true, refLostAt := none } })) ∧
    (∀ x, p.refLostAt = some x → p.refPresent = false → p.stage = .running ∨ p.stage = .securityTest →
      (s.time.clock ≤ x + 2500000 → exec .refClockAbsentTimeout s = .next s) ∧
      (x + 2500000 < s.time.clock → s.fault.halted = false → s.fault.haltRec = none → ∃ t r, exec .refClockAbsentTimeout s = .next t ∧ t.fault.halted = true ∧ t.fault.haltRec = some r ∧ r.cause = 0xCA ∧
        t.power.refLostAt = none))


/-- The sideband (15, R383, R385, Tables 15.16, 15.18): the I3C target's address and offset and what it returns; the TAP's instructions, their codes and the bits shifted through the bypass register; those that act on pins have their effect only while RESET_N is low; while the TAP is under test an access waits. What rests on log entries 3, 7, 12 and 22 is the model's choice. -/
def Obligations.SidebandAnswers : Prop :=
  ∀ (s : State),
    let p := s.power
    let put := fun (r : WireRec) => ({ s with wire := s.wire ++ [r] } : State)
    let tap := fun (j : JtagInstr) (l : List Bool) => ({ s with power := { p with jtag := j }, wire := s.wire ++ [.jtag l] } : State)
    (i3cAnswers s = true →
      (∀ a b, exec (.i3cPrivateWrite [a, b]) s = .next { s with power := { p with i3cOffset := a.toNat + 256 * b.toNat } }) ∧ (∀ l, l.length ≠ 2 → exec (.i3cPrivateWrite l) s = .next s) ∧
      (∀ n, 1 ≤ n → p.i3cOffset % 256 + n ≤ 256 → ∃ l, exec (.i3cPrivateRead n) s = .next (put (.i3c l)) ∧ l.length = n ∧
        ∀ i < n, l.getD i 0 = (let o := p.i3cOffset + i
          if o < 0x118 then let w := if o < 0x100 then o + 0x100 else o - 0x100
            BitVec.ofNat 8 (tget s.hub.window (w / 8 * 8) 0 >>> (8 * (w % 8))) else 0)) ∧
      (∀ a, a < 128 → p.i3cAddress = none → exec (.setdasa a) s = .next { s with power := { p with i3cAddress := some a } } ∧ exec (.entdaa a) s = .next { s with power := { p with i3cAddress := some a } }) ∧
      exec .rstdaa s = .next { s with power := { p with i3cAddress := none } } ∧
      exec .getpid s = .next (put (.i3c (beBytes 6 Config.i3cPid.toNat))) ∧ exec .getbcr s = .next (put (.i3c (beBytes 1 Config.i3cBcr.toNat))) ∧ exec .getdcr s = .next (put (.i3c (beBytes 1 Config.i3cDcr.toNat))) ∧
      exec .getstatus s = .next (put (.i3c (beBytes 2 Config.i3cStatus.toNat))) ∧ exec .getmxds s = .next (put (.i3c (beBytes 2 Config.i3cMxds.toNat)))) ∧
    exec .enec s = .next s ∧ exec .disec s = .next s ∧
    (i3cAnswers s = false → (∀ l, exec (.i3cPrivateWrite l) s = .next s) ∧ (∀ n, exec (.i3cPrivateRead n) s = .next s) ∧ exec .getpid s = .next s ∧ exec .rstdaa s = .next s) ∧
    (p.stage ≠ .unpowered → sideTest s 2 = true → let held := fun (j : JtagInstr) (l : List Bool) => Host.Outcome.next { s with power := { p with jtagHeld := p.jtagHeld ++ [(j, l)] } }
      exec .idcode s = held .idcode [] ∧ exec .bootStatus s = held .bootStatus [] ∧ (∀ l, exec (.sample l) s = held .sample l ∧ exec (.extest l) s = held .extest l ∧ exec (.extestPulse l) s = held .extestPulse l ∧
        exec (.extestTrain l) s = held .extestTrain l ∧ exec (.clamp l) s = held .clamp l ∧ exec (.highz l) s = held .highz l ∧ exec (.bypass 0xFF l) s = held .bypass l)) ∧
    (p.stage ≠ .unpowered → sideTest s 2 = false →
      exec .idcode s = .next (tap .idcode ((List.range 32).map (fun i => (0x11604C95 : Nat).testBit i))) ∧
      exec .bootStatus s = .next (tap .bootStatus ((List.range 32).map (fun i => (s.hub.bootStatus.toNat + p.resetCause % 16 * 65536).testBit i))) ∧
      (∀ c l, (c ∉ [0x01, 0x02, 0x03, 0x04, 0x05, 0x06, 0x07, 0x10] → exec (.bypass c l) s = .next (tap .bypass (false :: l.dropLast))) ∧ (c ∈ [0x01, 0x02, 0x03, 0x04, 0x05, 0x06, 0x07, 0x10] → exec (.bypass c l) s = .next s)) ∧
      (∀ l, ∃ x, exec (.sample l) s = .next { useFree s with power := { p with jtag := .sample, boundary := l }, wire := s.wire ++ [.jtag x] }) ∧
      (p.resetN = true → ∀ l, let q := fun (j : JtagInstr) => Host.Outcome.next (tap j (false :: l.dropLast))
        exec (.clamp l) s = q .clamp ∧ exec (.highz l) s = q .highz ∧ exec (.extest l) s = q .extest ∧ exec (.extestPulse l) s = q .extestPulse ∧ exec (.extestTrain l) s = q .extestTrain) ∧
      (p.resetN = false → ∀ l, let drives := fun (j : JtagInstr) => Host.Outcome.next { s with power := { p with jtag := j, pinsDriven := true }, wire := s.wire ++ [.jtag (false :: l.dropLast)] }
        exec (.clamp l) s = drives .clamp ∧ exec (.highz l) s = drives .highz ∧
        ∃ x, let q := fun j => Host.Outcome.next { useFree s with power := { p with jtag := j, boundary := l, pinsDriven := true }, wire := s.wire ++ [.jtag x] }
          exec (.extest l) s = q .extest ∧ exec (.extestPulse l) s = q .extestPulse ∧ exec (.extestTrain l) s = q .extestTrain)) ∧
    (p.stage ≠ .unpowered → exec .trstNLow s = .next { s with power := { p with jtag := .idcode, jtagHeld := [] } }) ∧
    (p.stage = .unpowered → exec .trstNLow s = .next s ∧ exec .idcode s = .next s)


end
end

