-- ==== Sys2Proof/Laws/Issue.lean ====
section
/-! SUPPORT. What a thread that is ready does: the one step every engine instruction goes through. -/

namespace Sys2Proof.Machine

/-- What a thread that is ready does at a legal word: what the word asks. -/
theorem issue_ready {s : State} {t : ThreadRef} {op : Nat} {f : Fields} {regs : List Nat} {p : Spray} {th : Thread} {act : Spray → Thread → Act}
    (r : Ready s t op f regs p th) :
    issue s t op f true regs act = .next (match act p th with
      | .wait => s
      | .illegal => illegal s t
      | .go s' => passPointer s' t) := by
  have h : (regs.any (fun r => (pendingRegs (threadTiles s t.engine t.thread)).contains r)) = false := by
    rw [List.any_eq_false]
    intro x hx
    simpa using r.answered x hx
  unfold issue
  simp only [r.thread, r.spray, r.program, r.issues, r.word, h, Bool.false_or, Bool.not_true, if_true, if_false, Bool.false_eq_true]
  cases act p th <;> rfl

/-- An instruction that only writes registers of its own thread. -/
theorem regOp_ready {s : State} {t : ThreadRef} {op : Nat} {f : Fields} {regs : List Nat} {p : Spray} {th : Thread} {g : Spray → Thread → Thread}
    (r : Ready s t op f regs p th) : regOp s t op f true regs g = .next (issued s t { g p th with pc := nextPc (g p th) }) := by
  unfold regOp
  rw [issue_ready r]
  rfl

end Sys2Proof.Machine
end

