-- ==== Sys2Proof/Laws/KeptBase.lean ====
section
/-! SUPPORT. How an update, a choice, a list of updates and an answer keep what no command undoes (Kept, Goes). -/

namespace Sys2Proof.Machine

theorem Kept.refl (s : State) : Kept s s :=
  { pending := rfl, clock := rfl, free := Nat.le_refl _, wire := List.prefix_rfl, cells := id, floor := Nat.le_refl _, revoked := BitVec.or_self }

theorem Kept.trans {s t u : State} (h : Kept s t) (k : Kept t u) : Kept s u :=
  { pending := k.pending.trans h.pending, clock := k.clock.trans h.clock, free := Nat.le_trans h.free k.free, wire := h.wire.trans k.wire,
    cells := fun w => k.cells (h.cells w), floor := Nat.le_trans h.floor k.floor,
    revoked := by rw [← k.revoked, ← BitVec.or_assoc, h.revoked] }

/-- An update that touches none of what Kept speaks of. -/
theorem Kept.upd {s0 s : State} {time : TimeSt} {extents : Tab Extent} {revokes : List Revoke} {violations : List Violation} {vo : Nat} {vn : Bool} {coh : CohSt}
    {mem : MemSt} {eng : EngSt} {link : LinkSt} {fault : FaultSt} {hub : HubSt} {life : LifeSt} {power : PowerSt} (h : Kept s0 s)
    (h2 : time.clock = s.time.clock) (h3 : time.free = s.time.free) (h5 : mem.bytes = s.mem.bytes) (h6 : eng.scratch = s.eng.scratch)
    (h7 : eng.priv = s.eng.priv) (h8 : hub.svnFloor = s.hub.svnFloor) (h9 : hub.keyRevoked = s.hub.keyRevoked) :
    Kept s0 (State.mk s.pending time extents revokes violations vo vn coh mem eng link fault hub life power s.wire) :=
  h.trans { pending := rfl, clock := h2, free := h3 ▸ Nat.le_refl _, wire := List.prefix_rfl,
            cells := fun w => ⟨h5 ▸ w.bytes, h6 ▸ w.scratch, h7 ▸ w.priv⟩, floor := h8 ▸ Nat.le_refl _, revoked := by rw [h9]; exact BitVec.or_self }

theorem Kept.ite {s0 a b : State} {c : Prop} [Decidable c] (ha : Kept s0 a) (hb : Kept s0 b) : Kept s0 (if c then a else b) := by split <;> assumption

theorem foldl_kept {α : Type} {s0 : State} {f : State → α → State} (hf : ∀ s x, Kept s0 s → Kept s0 (f s x)) :
    ∀ {l : List α} {s : State}, Kept s0 s → Kept s0 (l.foldl f s)
  | [], _, h => h
  | x :: l, s, h => foldl_kept hf (l := l) (hf s x h)

theorem foldl_kept_snd {α β : Type} {s0 : State} {f : β × State → α → β × State} (hf : ∀ a x, Kept s0 a.2 → Kept s0 (f a x).2) :
    ∀ {l : List α} {a : β × State}, Kept s0 a.2 → Kept s0 (l.foldl f a).2
  | [], _, h => h
  | x :: l, a, h => foldl_kept_snd hf (l := l) (hf a x h)

theorem foldl_kept_fst {α β : Type} {s0 : State} {f : State × β → α → State × β} (hf : ∀ a x, Kept s0 a.1 → Kept s0 (f a x).1) :
    ∀ {l : List α} {a : State × β}, Kept s0 a.1 → Kept s0 (l.foldl f a).1
  | [], _, h => h
  | x :: l, a, h => foldl_kept_fst hf (l := l) (hf a x h)

theorem Goes.next {s0 t : State} (h : Kept s0 t) : Goes s0 (.next t) := ⟨t, rfl, h⟩

theorem Goes.when {s0 s t : State} {c : Bool} (hs : Kept s0 s) (ht : Kept s0 t) : Goes s0 (when c s t) := ⟨_, rfl, Kept.ite ht hs⟩

/-! ### The canonical form of memory -/

theorem Memory.wf_filter {m : List Host.Cell} (p : Host.Cell → Bool) (h : Memory.wf m) : Memory.wf (m.filter p) :=
  ⟨h.1.filter p, fun c hc => h.2 c ((List.mem_filter.1 hc).1)⟩

/-- New cells lie from their start on, below its end, in order, and none is zero. -/
theorem newCells_mem : ∀ {bs : List Byte} {a : Nat} {c : Host.Cell}, c ∈ newCells a bs → a ≤ c.1 ∧ c.1 < a + bs.length ∧ c.2 ≠ 0
  | [], _, _, h => by simp [newCells] at h
  | b :: t, a, c, h => by
    unfold newCells at h
    split at h
    · have := newCells_mem h; simp only [List.length_cons]; exact ⟨by omega, by omega, this.2.2⟩
    · rcases List.mem_cons.1 h with rfl | h
      · simp only [List.length_cons]; exact ⟨Nat.le_refl _, by omega, by assumption⟩
      · have := newCells_mem h; simp only [List.length_cons]; exact ⟨by omega, by omega, this.2.2⟩

theorem newCells_pairwise : ∀ {bs : List Byte} {a : Nat}, (newCells a bs).Pairwise (fun x y => x.1 < y.1)
  | [], _ => List.Pairwise.nil
  | b :: t, a => by
    unfold newCells
    split
    · exact newCells_pairwise
    · exact List.pairwise_cons.2 ⟨fun c hc => by have := newCells_mem hc; omega, newCells_pairwise⟩

/-- A write keeps the canonical form. -/
theorem Memory.wf_write {m : List Host.Cell} (a : Nat) (bs : List Byte) (h : Memory.wf m) : Memory.wf (writeRange m a bs) := by
  unfold writeRange
  refine ⟨List.pairwise_append.2 ⟨List.pairwise_append.2 ⟨h.1.filter _, newCells_pairwise, ?_⟩, h.1.filter _, ?_⟩, ?_⟩
  · intro x hx y hy
    have := newCells_mem hy
    have := of_decide_eq_true (List.mem_filter.1 hx).2
    omega
  · intro x hx y hy
    have hy := of_decide_eq_true (List.mem_filter.1 hy).2
    rcases List.mem_append.1 hx with hx | hx
    · have := of_decide_eq_true (List.mem_filter.1 hx).2; omega
    · have := newCells_mem hx; omega
  · intro c hc
    rcases List.mem_append.1 hc with hc | hc
    · rcases List.mem_append.1 hc with hc | hc
      · exact h.2 c ((List.mem_filter.1 hc).1)
      · exact (newCells_mem hc).2.2
    · exact h.2 c ((List.mem_filter.1 hc).1)

end Sys2Proof.Machine
end

