-- ==== Sys2Proof/Laws/KeptMemory.lean ====
section
/-! SUPPORT. Every operation on the state keeps what no command undoes, and every meaning goes on: Ops, Idle, Records, Wire, Send, Slices, Memory, Home, Ingress, Orders. -/

/-! ### Ops -/

namespace Sys2Proof.Machine

theorem useFreeN_kept {s0 : State} (s : State) (n : Nat) (h : Kept s0 s) : Kept s0 (useFreeN s n) :=
  h.trans { pending := rfl, clock := rfl, free := Nat.le_add_right _ _, wire := List.prefix_rfl, cells := fun w => ⟨w.bytes, w.scratch, w.priv⟩,
            floor := Nat.le_refl _, revoked := BitVec.or_self }

theorem useFree_kept {s0 : State} (s : State) (hk : Kept s0 s) : Kept s0 (useFree s) := by
  unfold useFree
  with_reducible repeat' first | assumption | apply useFreeN_kept

theorem cachePut_kept {s0 : State} (s : State) (l : List (Nat × Bool)) (places key : Nat) (written : Bool) (hk : Kept s0 s) : Kept s0 (cachePut s l places key written).2 := by
  unfold cachePut
  with_reducible repeat' first | assumption | apply useFree_kept | split

theorem modRegion_kept {s0 : State} (s : State) (k : Nat) (f : RegionSt → RegionSt) (hk : Kept s0 s) : Kept s0 (modRegion s k f) := by
  unfold modRegion
  with_reducible repeat' first | (refine Kept.upd ?_ rfl rfl rfl rfl rfl rfl rfl; first | assumption)

theorem setSlot_kept {s0 : State} (s : State) (n : Nat) (v : Slot) (hk : Kept s0 s) : Kept s0 (setSlot s n v) := by
  unfold setSlot
  with_reducible repeat' first | (refine Kept.upd ?_ rfl rfl rfl rfl rfl rfl rfl; first | assumption)

theorem setDir_kept {s0 : State} (s : State) (w : Nat) (e : DirEntry) (hk : Kept s0 s) : Kept s0 (setDir s w e) := by
  unfold setDir
  with_reducible repeat' first | (refine Kept.upd ?_ rfl rfl rfl rfl rfl rfl rfl; first | assumption)

theorem setLine_kept {s0 : State} (s : State) (l : Nat) (v : LineSt) (hk : Kept s0 s) : Kept s0 (setLine s l v) := by
  unfold setLine
  with_reducible repeat' first | (refine Kept.upd ?_ rfl rfl rfl rfl rfl rfl rfl; first | assumption)

theorem modStack_kept {s0 : State} (s : State) (p : Nat) (f : Stack → Stack) (hk : Kept s0 s) : Kept s0 (modStack s p f) := by
  unfold modStack
  with_reducible repeat' first | (refine Kept.upd ?_ rfl rfl rfl rfl rfl rfl rfl; first | assumption)

theorem modChan_kept {s0 : State} (s : State) (p c : Nat) (f : Chan → Chan) (hk : Kept s0 s) : Kept s0 (modChan s p c f) := by
  unfold modChan
  with_reducible repeat' first | (refine Kept.upd ?_ rfl rfl rfl rfl rfl rfl rfl; first | assumption)

theorem modPchan_kept {s0 : State} (s : State) (p c pc : Nat) (f : PChan → PChan) (hk : Kept s0 s) : Kept s0 (modPchan s p c pc f) := by
  unfold modPchan
  with_reducible repeat' first | (refine Kept.upd ?_ rfl rfl rfl rfl rfl rfl rfl; first | assumption)

theorem modPort_kept {s0 : State} (s : State) (n : Nat) (f : Port → Port) (hk : Kept s0 s) : Kept s0 (modPort s n f) := by
  unfold modPort
  with_reducible repeat' first | (refine Kept.upd ?_ rfl rfl rfl rfl rfl rfl rfl; first | assumption)

theorem modMaster_kept {s0 : State} (s : State) (m : Nat) (f : Master → Master) (hk : Kept s0 s) : Kept s0 (modMaster s m f) := by
  unfold modMaster
  with_reducible repeat' first | (refine Kept.upd ?_ rfl rfl rfl rfl rfl rfl rfl; first | assumption)

theorem modRegFault_kept {s0 : State} (s : State) (k : Nat) (f : RegionFault → RegionFault) (hk : Kept s0 s) : Kept s0 (modRegFault s k f) := by
  unfold modRegFault
  with_reducible repeat' first | (refine Kept.upd ?_ rfl rfl rfl rfl rfl rfl rfl; first | assumption)

theorem setSpray_kept {s0 : State} (s : State) (n : Nat) (v : Spray) (hk : Kept s0 s) : Kept s0 (setSpray s n v) := by
  unfold setSpray
  with_reducible repeat' first | (refine Kept.upd ?_ rfl rfl rfl rfl rfl rfl rfl; first | assumption)

theorem modSpray_kept {s0 : State} (s : State) (n : Nat) (f : Spray → Spray) (hk : Kept s0 s) : Kept s0 (modSpray s n f) := by
  unfold modSpray
  with_reducible repeat' first | assumption | apply setSpray_kept | split

theorem modTenant_kept {s0 : State} (s : State) (t : Nat) (f : Tenant → Tenant) (hk : Kept s0 s) : Kept s0 (modTenant s t f) := by
  unfold modTenant
  with_reducible repeat' first | (refine Kept.upd ?_ rfl rfl rfl rfl rfl rfl rfl; first | assumption) | split

theorem modBist_kept {s0 : State} (s : State) (k : Nat) (f : Bist → Bist) (hk : Kept s0 s) : Kept s0 (modBist s k f) := by
  unfold modBist
  with_reducible repeat' first | (refine Kept.upd ?_ rfl rfl rfl rfl rfl rfl rfl; first | assumption)

theorem epochAdd_kept {s0 : State} (s : State) (tenant : Nat) (epoch : Option Nat) (hk : Kept s0 s) : Kept s0 (epochAdd s tenant epoch) := by
  unfold epochAdd
  with_reducible repeat' first | assumption | apply modTenant_kept | split

theorem epochSub_kept {s0 : State} (s : State) (tenant : Nat) (epoch : Option Nat) (hk : Kept s0 s) : Kept s0 (epochSub s tenant epoch) := by
  unfold epochSub
  with_reducible repeat' first | assumption | apply modTenant_kept | split

theorem setExtent_kept {s0 : State} (s : State) (n : Nat) (e : Extent) (hk : Kept s0 s) : Kept s0 (setExtent s n e) := by
  unfold setExtent
  with_reducible repeat' first | (refine Kept.upd ?_ rfl rfl rfl rfl rfl rfl rfl; first | assumption)

theorem modExtent_kept {s0 : State} (s : State) (n : Nat) (f : Extent → Extent) (hk : Kept s0 s) : Kept s0 (modExtent s n f) := by
  unfold modExtent
  with_reducible repeat' first | assumption | apply setExtent_kept

theorem lifeAdd_kept {s0 : State} (s : State) (key n : Nat) (hk : Kept s0 s) : Kept s0 (lifeAdd s key n) := by
  unfold lifeAdd
  with_reducible repeat' first | (refine Kept.upd ?_ rfl rfl rfl rfl rfl rfl rfl; first | assumption)

theorem stackLife_kept {s0 : State} (s : State) (p off n : Nat) (hk : Kept s0 s) : Kept s0 (stackLife s p off n) := by
  unfold stackLife
  with_reducible repeat' first | assumption | apply lifeAdd_kept

theorem eventRec_kept {s0 : State} (s : State) (type : Nat) (body : List Byte) (hk : Kept s0 s) : Kept s0 (eventRec s type body) := by
  unfold eventRec
  with_reducible repeat' first | assumption | (refine Kept.upd ?_ rfl rfl rfl rfl rfl rfl rfl; first | assumption | apply lifeAdd_kept)

theorem logFault_kept {s0 : State} (s : State) (r : FaultRecord) (hk : Kept s0 s) : Kept s0 (logFault s r).1 := by
  unfold logFault
  with_reducible repeat' first | apply lifeAdd_kept | (refine Kept.upd ?_ rfl rfl rfl rfl rfl rfl rfl; first | assumption | apply lifeAdd_kept | apply eventRec_kept)

theorem note_kept {s0 : State} (s : State) (hub : Bool) (region unit cause detail : Nat) (hk : Kept s0 s) : Kept s0 (note s hub region unit cause detail) := by
  unfold note
  with_reducible repeat' first | apply modRegFault_kept | (refine Kept.upd ?_ rfl rfl rfl rfl rfl rfl rfl; first | assumption | apply modRegFault_kept | apply logFault_kept) | split | dsimp only

theorem noteR_kept {s0 : State} (s : State) (region unit cause : Nat) (detail : Nat := 0) (hk : Kept s0 s) : Kept s0 (noteR s region unit cause detail) := by
  unfold noteR
  with_reducible repeat' first | assumption | apply note_kept

theorem noteHub_kept {s0 : State} (s : State) (cause : Nat) (detail : Nat := 0) (hk : Kept s0 s) : Kept s0 (noteHub s cause detail) := by
  unfold noteHub
  with_reducible repeat' first | assumption | apply note_kept

theorem countDiscard_kept {s0 : State} (s : State) (hk : Kept s0 s) : Kept s0 (countDiscard s) := by
  unfold countDiscard
  with_reducible repeat' first | (refine Kept.upd ?_ rfl rfl rfl rfl rfl rfl rfl; first | assumption)

theorem countMisrouted_kept {s0 : State} (s : State) (hk : Kept s0 s) : Kept s0 (countMisrouted s) := by
  unfold countMisrouted
  with_reducible repeat' first | (refine Kept.upd ?_ rfl rfl rfl rfl rfl rfl rfl; first | assumption)

theorem emit_kept {s0 : State} (s : State) (r : WireRec) (h : Kept s0 s) : Kept s0 (emit s r) :=
  h.trans { pending := rfl, clock := rfl, free := Nat.le_refl _, wire := List.prefix_append _ _, cells := fun w => ⟨w.bytes, w.scratch, w.priv⟩,
            floor := Nat.le_refl _, revoked := BitVec.or_self }

end Sys2Proof.Machine

/-! ### Idle -/

namespace Sys2Proof.Machine

theorem secondTick_kept {s0 : State} (s : State) (hk : Kept s0 s) : Kept s0 (secondTick s) := by
  unfold secondTick
  with_reducible repeat' first | (intro _) | assumption | apply stackLife_kept | apply lifeAdd_kept | apply foldl_kept | split | dsimp only

end Sys2Proof.Machine

/-! ### Records -/

namespace Sys2Proof.Machine

theorem modLogEng_kept {s0 : State} (s : State) (e : Nat) (f : LogEng → LogEng) (hk : Kept s0 s) : Kept s0 (modLogEng s e f) := by
  unfold modLogEng
  with_reducible repeat' first | (refine Kept.upd ?_ rfl rfl rfl rfl rfl rfl rfl; first | assumption)

theorem modPhys_kept {s0 : State} (s : State) (k i : Nat) (f : PhysEng → PhysEng) (hk : Kept s0 s) : Kept s0 (modPhys s k i f) := by
  unfold modPhys
  with_reducible repeat' first | (refine Kept.upd ?_ rfl rfl rfl rfl rfl rfl rfl; first | assumption)

theorem rearmAuth_kept {s0 : State} (s : State) (offset n : Nat) (hk : Kept s0 s) : Kept s0 (rearmAuth s offset n) := by
  unfold rearmAuth
  with_reducible repeat' first | (refine Kept.upd ?_ rfl rfl rfl rfl rfl rfl rfl; first | assumption)

end Sys2Proof.Machine

/-! ### Wire -/

namespace Sys2Proof.Machine

theorem modPairBuf_kept {s0 : State} (s : State) (n : Nat) (f : PairBuf → PairBuf) (hk : Kept s0 s) : Kept s0 (modPairBuf s n f) := by
  unfold modPairBuf
  with_reducible repeat' first | (refine Kept.upd ?_ rfl rfl rfl rfl rfl rfl rfl; first | assumption)

theorem modDl_kept {s0 : State} (s : State) (f : Darinlink → Darinlink) (hk : Kept s0 s) : Kept s0 (modDl s f) := by
  unfold modDl
  with_reducible repeat' first | (refine Kept.upd ?_ rfl rfl rfl rfl rfl rfl rfl; first | assumption)

theorem dlBefore_kept {s0 : State} (s : State) (n : Nat) (hk : Kept s0 s) : Kept s0 (dlBefore s n) := by
  unfold dlBefore
  with_reducible repeat' first | assumption | apply emit_kept | apply modDl_kept | split

theorem sendDlNak_kept {s0 : State} (s : State) (hk : Kept s0 s) : Kept s0 (sendDlNak s) := by
  unfold sendDlNak
  with_reducible repeat' first | assumption | apply emit_kept | apply modDl_kept

theorem sendDlCredits_kept {s0 : State} (s : State) (give : List Nat) (hk : Kept s0 s) : Kept s0 (sendDlCredits s give) := by
  unfold sendDlCredits
  with_reducible repeat' first | assumption | apply emit_kept | apply modDl_kept

theorem sendDlCtrl_kept {s0 : State} (s : State) (kind : Nat) (r : DlCtrlRec) (hk : Kept s0 s) : Kept s0 (sendDlCtrl s kind r) := by
  unfold sendDlCtrl
  with_reducible repeat' first | assumption | apply emit_kept | apply dlBefore_kept

theorem repeatCreditInit_kept {s0 : State} (s : State) (hk : Kept s0 s) : Kept s0 (repeatCreditInit s) := by
  unfold repeatCreditInit
  with_reducible repeat' first | assumption | apply sendDlCtrl_kept | split

end Sys2Proof.Machine

/-! ### Send -/

namespace Sys2Proof.Machine

theorem nextCounter_kept {s0 : State} (s : State) (unit_ : Nat) (hk : Kept s0 s) : Kept s0 (nextCounter s unit_).2 := by
  unfold nextCounter
  with_reducible repeat' first | (refine Kept.upd ?_ rfl rfl rfl rfl rfl rfl rfl; first | assumption)

theorem replyPort_kept {s0 : State} (s : State) (n : Nat) (hk : Kept s0 s) : Kept s0 (replyPort s n).2 := by
  unfold replyPort
  with_reducible repeat' first | assumption | (refine Kept.upd ?_ rfl rfl rfl rfl rfl rfl rfl; first | assumption | apply modRegion_kept) | split | dsimp only

theorem pump_kept {s0 : State} (n : Nat) : ∀ (l kept : List Packet) (s : State), Kept s0 s → Kept s0 (pump s n l kept)
  | [], _, s, h => modPort_kept s n _ h
  | pk :: rest, kept, s, h => by
    unfold pump
    dsimp only
    split
    · exact pump_kept n rest kept _ (emit_kept _ _ (modPort_kept s n _ h))
    · exact pump_kept n rest _ s h

theorem flushPort_kept {s0 : State} (s : State) (n : Nat) (hk : Kept s0 s) : Kept s0 (flushPort s n) := by
  unfold flushPort
  with_reducible repeat' first | assumption | apply pump_kept

theorem sendOn_kept {s0 : State} (s : State) (n : Nat) (pk : Packet) (hk : Kept s0 s) : Kept s0 (sendOn s n pk) := by
  unfold sendOn
  with_reducible repeat' first | assumption | apply flushPort_kept | apply modPort_kept

theorem sendCtrl_kept {s0 : State} (s : State) (n : Nat) (r : CtrlRec) (hk : Kept s0 s) : Kept s0 (sendCtrl s n r) := by
  unfold sendCtrl
  with_reducible repeat' first | assumption | apply emit_kept

theorem dlPump_kept {s0 : State} : ∀ (l kept : List Packet) (s : State), Kept s0 s → Kept s0 (dlPump s l kept)
  | [], _, s, h => Kept.upd h rfl rfl rfl rfl rfl rfl rfl
  | m :: rest, kept, s, h => by
    unfold dlPump
    dsimp only
    split
    · exact dlPump_kept rest kept _ (emit_kept _ _ (modDl_kept _ _ (dlBefore_kept s 1 h)))
    · exact dlPump_kept rest _ s h

theorem flushDl_kept {s0 : State} (s : State) (hk : Kept s0 s) : Kept s0 (flushDl s) := by
  unfold flushDl
  with_reducible repeat' first | assumption | apply dlPump_kept

theorem sendDl_kept {s0 : State} (s : State) (m : Packet) (hk : Kept s0 s) : Kept s0 (sendDl s m) := by
  unfold sendDl
  with_reducible repeat' first | assumption | (refine Kept.upd ?_ rfl rfl rfl rfl rfl rfl rfl; first | assumption | apply flushDl_kept) | split | dsimp only

theorem respond_kept {s0 : State} (s : State) (k : Nat) (via : Via) (p : Packet) (a : Answer) (hk : Kept s0 s) : Kept s0 (respond s k via p a) := by
  unfold respond
  with_reducible repeat' first | assumption | apply sendDl_kept | apply nextCounter_kept | apply replyPort_kept | apply sendOn_kept | split

theorem replyParts_kept {s0 : State} (o : OrderHdr) (code status : Nat) (res : List Byte) (parts : Nat) :
    ∀ (l : List Nat) (s : State), Kept s0 s → Kept s0 (replyParts s o code status res parts l)
  | [], _, h => h
  | i :: rest, s, h => by
    unfold replyParts
    refine replyParts_kept o code status res parts rest _ ?_
    split
    · exact sendDl_kept _ _ h
    · exact sendOn_kept _ _ _ (replyPort_kept _ _ (nextCounter_kept _ _ h))

theorem reply_kept {s0 : State} (s : State) (h : OrderHdr) (code status : Nat) (res : List Byte := []) (hk : Kept s0 s) : Kept s0 (reply s h code status res) := by
  unfold reply
  with_reducible repeat' first | assumption | apply replyParts_kept

theorem settleOrder_kept {s0 : State} (s : State) (h : OrderHdr) (hk : Kept s0 s) : Kept s0 (settleOrder s h) := by
  unfold settleOrder
  with_reducible repeat' first | assumption | (refine Kept.upd ?_ rfl rfl rfl rfl rfl rfl rfl; first | assumption | apply modMaster_kept) | split

theorem finish_kept {s0 : State} (s : State) (h : OrderHdr) (code status : Nat) (res : List Byte := []) (hk : Kept s0 s) : Kept s0 (finish s h code status res) := by
  unfold finish
  with_reducible repeat' first | assumption | apply reply_kept | apply settleOrder_kept

theorem answerWaits_kept {s0 : State} (s : State) (hk : Kept s0 s) : Kept s0 (answerWaits s) := by
  unfold answerWaits
  with_reducible repeat' first | (intro _) | assumption | apply finish_kept | apply modMaster_kept | apply foldl_kept | split

theorem setPending_kept {s0 : State} (s : State) (cls : Nat) (hub : Bool) (region : Nat) (r : Option FaultRecord) (hk : Kept s0 s) : Kept s0 (setPending s cls hub region r) := by
  unfold setPending
  with_reducible repeat' first | assumption | (refine Kept.upd ?_ rfl rfl rfl rfl rfl rfl rfl; first | assumption | apply modRegFault_kept) | split

theorem modLog_kept {s0 : State} (s : State) (seq : Nat) (f : FaultRecord → FaultRecord) (hk : Kept s0 s) : Kept s0 (modLog s seq f) := by
  unfold modLog
  with_reducible repeat' first | (refine Kept.upd ?_ rfl rfl rfl rfl rfl rfl rfl; first | assumption)

theorem latchAt_kept {s0 : State} (f : FaultIn) : ∀ (fuel : Nat) (s : State) (cls : Nat) (r : FaultRecord), Kept s0 s → Kept s0 (latchAt fuel s f cls r).st
  | 0, s, cls, r, h => by
    unfold latchAt
    with_reducible repeat' first | assumption | apply setPending_kept | apply modLog_kept | apply logFault_kept | apply modRegFault_kept | split | dsimp only
  | n + 1, s, cls, r, h => by
    unfold latchAt
    with_reducible repeat' first | assumption | apply latchAt_kept | apply setPending_kept | apply modLog_kept | apply logFault_kept | apply modRegFault_kept | split | dsimp only

theorem amend_kept {s0 : State} (s : State) (f : FaultIn) (seq : Nat) (g : FaultRecord → FaultRecord) (hk : Kept s0 s) : Kept s0 (amend s f seq g) := by
  unfold amend
  with_reducible repeat' first | (intro _) | apply setPending_kept | (refine Kept.upd ?_ rfl rfl rfl rfl rfl rfl rfl; first | assumption | apply setPending_kept | apply modLog_kept | apply foldl_kept)

theorem latch_kept {s0 : State} (s : State) (f : FaultIn) (h : Kept s0 s) : Kept s0 (latch s f).st := by
  unfold latch
  with_reducible repeat' first | assumption | apply latchAt_kept | apply amend_kept | apply Kept.ite

theorem tookSpare_kept {s0 : State} (s : State) (f : FaultIn) (seq spare : Nat) (hk : Kept s0 s) : Kept s0 (tookSpare s f seq spare) := by
  unfold tookSpare
  with_reducible repeat' first | assumption | apply amend_kept

theorem unitOut_kept {s0 : State} (s : State) (f : FaultIn) (withheld : Bool) (hk : Kept s0 s) : Kept s0 (unitOut s f withheld) := by
  unfold unitOut
  with_reducible repeat' first | (refine Kept.upd ?_ rfl rfl rfl rfl rfl rfl rfl; first | assumption)

theorem tagWithheld_kept {s0 : State} (s : State) (record : Nat) (hk : Kept s0 s) : Kept s0 (tagWithheld s record) := by
  unfold tagWithheld
  with_reducible repeat' first | (refine Kept.upd ?_ rfl rfl rfl rfl rfl rfl rfl; first | assumption)

theorem unitBack_kept {s0 : State} (s : State) (hub : Bool) (region unit_ : Nat) (hk : Kept s0 s) : Kept s0 (unitBack s hub region unit_) := by
  unfold unitBack
  with_reducible repeat' first | (refine Kept.upd ?_ rfl rfl rfl rfl rfl rfl rfl; first | assumption)

theorem replaced_kept {s0 : State} (s : State) (hub : Bool) (region unit_ : Nat) (hk : Kept s0 s) : Kept s0 (replaced s hub region unit_) := by
  unfold replaced
  with_reducible repeat' first | assumption | apply note_kept | apply unitBack_kept

theorem carryOn_kept {s0 : State} (s : State) (hub : Bool) (region unit_ segment : Nat) (hk : Kept s0 s) : Kept s0 (carryOn s hub region unit_ segment) := by
  unfold carryOn
  with_reducible repeat' first | assumption | (refine Kept.upd ?_ rfl rfl rfl rfl rfl rfl rfl; first | assumption | apply replaced_kept)

end Sys2Proof.Machine

/-! ### Slices -/

namespace Sys2Proof.Machine

theorem sliceEntry_kept {s0 : State} (s : State) (k : Nat) (e : SliceEntry) (hk : Kept s0 s) : Kept s0 (sliceEntry s k e) := by
  unfold sliceEntry
  with_reducible repeat' first | assumption | apply modBist_kept | apply eventRec_kept | split

theorem refreshAll_kept {s0 : State} (s : State) (p c : Nat) (hk : Kept s0 s) : Kept s0 (refreshAll s p c) := by
  unfold refreshAll
  with_reducible repeat' first | assumption | apply modChan_kept | apply modPchan_kept

theorem loadTiming_kept {s0 : State} (s : State) (p c : Nat) (hk : Kept s0 s) : Kept s0 (loadTiming s p c) := by
  unfold loadTiming
  with_reducible repeat' first | assumption | apply modChan_kept

theorem issueCmds_kept {s0 : State} (s : State) (p c pc : Nat) (l : List ChanCmd) (hk : Kept s0 s) : Kept s0 (issueCmds s p c pc l) := by
  unfold issueCmds
  with_reducible repeat' first | assumption | apply modPchan_kept

theorem wakeChan_kept {s0 : State} (s : State) (p c : Nat) (hk : Kept s0 s) : Kept s0 (wakeChan s p c) := by
  unfold wakeChan
  with_reducible repeat' first | assumption | apply modChan_kept | apply refreshAll_kept | apply issueCmds_kept

theorem askWidth_kept {s0 : State} (s : State) (w : Nat) (hk : Kept s0 s) : Kept s0 (askWidth s w) := by
  unfold askWidth
  with_reducible repeat' first | assumption | apply sendDlCtrl_kept | apply modDl_kept | split

theorem sliceOver_kept {s0 : State} (s : State) (k outcome : Nat) (hk : Kept s0 s) : Kept s0 (sliceOver s k outcome) := by
  unfold sliceOver
  with_reducible repeat' first | assumption | apply modBist_kept | apply lifeAdd_kept | apply modPhys_kept | apply wakeChan_kept | apply loadTiming_kept | apply askWidth_kept | apply sliceEntry_kept | split | dsimp only

theorem yieldSlice_kept {s0 : State} (s : State) (k unit_ : Nat) (hk : Kept s0 s) : Kept s0 (yieldSlice s k unit_) := by
  unfold yieldSlice
  with_reducible repeat' first | assumption | apply sliceOver_kept | split

end Sys2Proof.Machine

/-! ### Memory -/

namespace Sys2Proof.Machine

theorem burstsTo_kept {s0 : State} (s : State) (p stripe pos : Nat) (write : Option Line) (hk : Kept s0 s) : Kept s0 (burstsTo s p stripe pos write) := by
  unfold burstsTo
  with_reducible repeat' first | assumption | (refine Kept.upd ?_ rfl rfl rfl rfl rfl rfl rfl; first | assumption | apply modChan_kept)

theorem storeChunk_kept {s0 : State} (s : State) (p stripe pos : Nat) (d : Line) (hk : Kept s0 s) : Kept s0 (storeChunk s p stripe pos d) :=
  (burstsTo_kept s p stripe pos (some d) hk).trans { pending := rfl, clock := rfl, free := Nat.le_refl _, wire := List.prefix_rfl, cells := fun w => ⟨Memory.wf_write _ _ w.bytes, w.scratch, w.priv⟩, floor := Nat.le_refl _, revoked := BitVec.or_self }

theorem storeMark_kept {s0 : State} (s : State) (p stripe pos : Nat) (hk : Kept s0 s) : Kept s0 (storeMark s p stripe pos) := by
  unfold storeMark
  with_reducible repeat' first | assumption | (refine Kept.upd ?_ rfl rfl rfl rfl rfl rfl rfl; first | assumption | apply storeChunk_kept)

theorem writeBackValid_kept {s0 : State} (s : State) (m : Nat) (hk : Kept s0 s) : Kept s0 (writeBackValid s m) := by
  unfold writeBackValid
  with_reducible repeat' first | (refine Kept.upd ?_ rfl rfl rfl rfl rfl rfl rfl; first | assumption)

theorem cacheValid_kept {s0 : State} (s : State) (k offset : Nat) (written : Bool) (hk : Kept s0 s) : Kept s0 (cacheValid s k offset written) := by
  unfold cacheValid
  with_reducible repeat' first | assumption | apply writeBackValid_kept | (refine Kept.upd ?_ rfl rfl rfl rfl rfl rfl rfl; first | assumption | apply cachePut_kept | apply writeBackValid_kept | apply foldl_kept)

theorem setValidBlock_kept {s0 : State} (s : State) (offset : Nat) (v : BitVec 16) (hk : Kept s0 s) : Kept s0 (setValidBlock s offset v) := by
  unfold setValidBlock
  with_reducible repeat' first | (refine Kept.upd ?_ rfl rfl rfl rfl rfl rfl rfl; first | assumption)

theorem setValid_kept {s0 : State} (s : State) (offset : Nat) (hk : Kept s0 s) : Kept s0 (setValid s offset) := by
  unfold setValid
  with_reducible repeat' first | assumption | apply setValidBlock_kept

theorem clearValid_kept {s0 : State} (s : State) (e : Extent) (hk : Kept s0 s) : Kept s0 (clearValid s e) := by
  unfold clearValid
  with_reducible repeat' first | (intro _) | assumption | (refine Kept.upd ?_ rfl rfl rfl rfl rfl rfl rfl; first | assumption | apply cacheValid_kept | apply foldl_kept)

theorem reloadValid_kept {s0 : State} (s : State) (hk : Kept s0 s) : Kept s0 (reloadValid s) := by
  unfold reloadValid
  with_reducible repeat' first | (intro _) | assumption | (refine Kept.upd ?_ rfl rfl rfl rfl rfl rfl rfl; first | assumption | apply foldl_kept) | split

theorem rowTrigger_kept {s0 : State} (s : State) (p c place : Nat) (hk : Kept s0 s) : Kept s0 (rowTrigger s p c place) := by
  unfold rowTrigger
  with_reducible repeat' first | assumption | (refine Kept.upd ?_ rfl rfl rfl rfl rfl rfl rfl; first | assumption | apply modStack_kept) | split | dsimp only

theorem blot_kept {s0 : State} (s : State) (p c place word bit_ source : Nat) (hk : Kept s0 s) : Kept s0 (blot s p c place word bit_ source) := by
  unfold blot
  with_reducible repeat' first | apply stackLife_kept | apply noteR_kept | (refine Kept.upd ?_ rfl rfl rfl rfl rfl rfl rfl; first | assumption | apply stackLife_kept | apply modStack_kept | apply noteR_kept | apply rowTrigger_kept) | split | dsimp only

theorem blotAll_kept {s0 : State} (s : State) (p stripe pos source : Nat) (fixed : List (Nat × Nat)) (hk : Kept s0 s) : Kept s0 (blotAll s p stripe pos source fixed) := by
  unfold blotAll
  with_reducible repeat' first | (intro _) | assumption | apply blot_kept | apply foldl_kept

theorem logPoison_kept {s0 : State} (s : State) (e : PoisonEntry) (hk : Kept s0 s) : Kept s0 (logPoison s e) := by
  unfold logPoison
  with_reducible repeat' first | assumption | (refine Kept.upd ?_ rfl rfl rfl rfl rfl rfl rfl; first | assumption | apply noteHub_kept) | split

theorem loseChunk_kept {s0 : State} (s : State) (l p stripe pos cause : Nat) (hk : Kept s0 s) : Kept s0 (loseChunk s l p stripe pos cause) := by
  unfold loseChunk
  with_reducible repeat' first | assumption | apply logPoison_kept | apply stackLife_kept | apply modStack_kept | apply noteR_kept

theorem schedule_kept {s0 : State} (s : State) (l stripe pos : Nat) (d : Line) (hk : Kept s0 s) : Kept s0 (schedule s l stripe pos d) := by
  unfold schedule
  with_reducible repeat' first | (refine Kept.upd ?_ rfl rfl rfl rfl rfl rfl rfl; first | assumption) | split | dsimp only

theorem putChunk_kept {s0 : State} (s : State) (l stripe pos : Nat) (d : Option Line) (hk : Kept s0 s) : Kept s0 (putChunk s l stripe pos d) := by
  unfold putChunk
  with_reducible repeat' first | (intro _) | assumption | apply storeChunk_kept | apply storeMark_kept | apply foldl_kept | split

theorem putParity_kept {s0 : State} (s : State) (l stripe : Nat) (d : Line) (noValue : Nat → Bool) (hk : Kept s0 s) : Kept s0 (putParity s l stripe d noValue) := by
  unfold putParity
  with_reducible repeat' first | (intro _) | assumption | apply storeMark_kept | apply storeChunk_kept | apply foldl_kept | split

theorem rebuild_kept {s0 : State} (s : State) (l p stripe pos source : Nat) (hk : Kept s0 s) : Kept s0 (rebuild s l p stripe pos source).2 := by
  unfold rebuild
  with_reducible repeat' first | (intro _) | assumption | apply blotAll_kept | apply burstsTo_kept | apply foldl_kept_snd | split | dsimp only

theorem stripeLoss_kept {s0 : State} (s : State) (l p stripe : Nat) (hk : Kept s0 s) : Kept s0 (stripeLoss s l p stripe) := by
  unfold stripeLoss
  with_reducible repeat' first | (intro _) | assumption | apply putChunk_kept | apply putParity_kept | apply loseChunk_kept | apply foldl_kept

theorem rebuildOrLose_kept {s0 : State} (s : State) (l p stripe pos source : Nat) (hk : Kept s0 s) : Kept s0 (rebuildOrLose s l p stripe pos source).2 := by
  unfold rebuildOrLose
  with_reducible repeat' first | assumption | apply rebuild_kept | apply stripeLoss_kept | split | dsimp only

theorem readDirect_kept {s0 : State} (s : State) (l p stripe pos source : Nat) (hk : Kept s0 s) : Kept s0 (readDirect s l p stripe pos source).2 := by
  unfold readDirect
  with_reducible repeat' first | assumption | apply burstsTo_kept | apply blotAll_kept | apply sliceOver_kept | apply rebuildOrLose_kept | apply schedule_kept | apply stackLife_kept | apply modStack_kept | split | dsimp only

theorem readChunk_kept {s0 : State} (s : State) (l stripe pos source : Nat) (hk : Kept s0 s) : Kept s0 (readChunk s l stripe pos source).2 := by
  unfold readChunk
  with_reducible repeat' first | assumption | apply readDirect_kept | apply sliceOver_kept | apply rebuildOrLose_kept | split

theorem rebuildParity_kept {s0 : State} (s : State) (l p stripe source : Nat) (hk : Kept s0 s) : Kept s0 (rebuildParity s l p stripe source).2 := by
  unfold rebuildParity
  with_reducible repeat' first | (intro _) | assumption | apply stripeLoss_kept | apply readChunk_kept | apply foldl_kept_snd | split

theorem sabDrop_kept {s0 : State} (s : State) (l stripe : Nat) (hk : Kept s0 s) : Kept s0 (sabDrop s l stripe) := by
  unfold sabDrop
  with_reducible repeat' first | (refine Kept.upd ?_ rfl rfl rfl rfl rfl rfl rfl; first | assumption)

theorem sabPut_kept {s0 : State} (s : State) (e : SabEntry) (hk : Kept s0 s) : Kept s0 (sabPut s e) := by
  unfold sabPut
  with_reducible repeat' first | assumption | (refine Kept.upd ?_ rfl rfl rfl rfl rfl rfl rfl; first | assumption | apply sabDrop_kept)

theorem listCatchUp_kept {s0 : State} (s : State) (l stripe : Nat) (hk : Kept s0 s) : Kept s0 (listCatchUp s l stripe) := by
  unfold listCatchUp
  with_reducible repeat' first | (intro _) | assumption | apply modBist_kept | apply sliceOver_kept | apply foldl_kept | split | dsimp only

theorem newChunks_kept {s0 : State} (s : State) (e : SabEntry) (p : Nat) (hk : Kept s0 s) : Kept s0 (newChunks s e p).2 := by
  unfold newChunks
  with_reducible repeat' first | (intro _) | assumption | apply loseChunk_kept | apply readChunk_kept | apply foldl_kept_snd | split | dsimp only | (have e := congrArg Prod.snd ‹_ = ((_, _) : _ × State)›; dsimp only at e; subst e)

theorem oldSum_kept {s0 : State} (s : State) (e : SabEntry) (new : List NewChunk) (pick : Nat → Bool) (hk : Kept s0 s) : Kept s0 (oldSum s e new pick).2 := by
  unfold oldSum
  with_reducible repeat' first | (intro _) | assumption | apply readChunk_kept | apply foldl_kept_snd | split

theorem commitWrite_kept {s0 : State} (s : State) (e : SabEntry) (p : Nat) (new : List NewChunk) (par : Option Line) (hk : Kept s0 s) : Kept s0 (commitWrite s e p new par) := by
  unfold commitWrite
  with_reducible repeat' first | (intro _) | assumption | apply putChunk_kept | apply putParity_kept | apply foldl_kept | split

theorem commitEntry_kept {s0 : State} (s : State) (e : SabEntry) (hk : Kept s0 s) : Kept s0 (commitEntry s e) := by
  unfold commitEntry
  with_reducible repeat' first | assumption | apply sabDrop_kept | apply newChunks_kept | apply oldSum_kept | apply commitWrite_kept | apply blotAll_kept | apply burstsTo_kept | apply listCatchUp_kept | split | dsimp only

theorem sabOpen_kept {s0 : State} (s : State) (k l stripe ext base : Nat) (old : BitVec 16) (hk : Kept s0 s) : Kept s0 (sabOpen s k l stripe ext base old).2 := by
  unfold sabOpen
  with_reducible repeat' first | assumption | apply commitEntry_kept | split | dsimp only

theorem writeLine_kept {s0 t : State} {s : State} {ext offset : Nat} {d : Line} {first count : Nat} {poison : Bool}
    (e : writeLine s ext offset d first count poison = some t) (hk : Kept s0 s) : Kept s0 t := by
  unfold writeLine at e
  dsimp only at e
  split at e
  · cases e
  · cases e
    with_reducible repeat' first | assumption | apply setValid_kept | apply sabPut_kept | apply sabOpen_kept

theorem writeLine_getD_kept {s0 s u : State} {ext offset : Nat} {d : Line} {first count : Nat} {poison : Bool}
    (hk : Kept s0 s) (hu : Kept s0 u) : Kept s0 ((writeLine s ext offset d first count poison).getD u) := by
  cases e : writeLine s ext offset d first count poison with
  | none => exact hu
  | some t => exact writeLine_kept e hk

theorem readLine_kept {s0 : State} (s : State) (ext offset : Nat) (hk : Kept s0 s) : Kept s0 (readLine s ext offset).2 := by
  unfold readLine
  with_reducible repeat' first | assumption | apply readChunk_kept | split | dsimp only | (have e := congrArg Prod.snd ‹_ = ((_, _) : _ × State)›; dsimp only at e; subst e)

end Sys2Proof.Machine

/-! ### Home -/

namespace Sys2Proof.Machine

theorem outPort_kept {s0 : State} (s : State) (k : Nat) (hk : Kept s0 s) : Kept s0 (outPort s k).2 := by
  unfold outPort
  with_reducible repeat' first | assumption | (refine Kept.upd ?_ rfl rfl rfl rfl rfl rfl rfl; first | assumption | apply modRegion_kept) | split

theorem sendSnoop_kept {s0 : State} (s : State) (k line slot : Nat) (invalidate : Bool) (hk : Kept s0 s) : Kept s0 (sendSnoop s k line slot invalidate).2 := by
  unfold sendSnoop
  with_reducible repeat' first | assumption | apply nextCounter_kept | apply outPort_kept | (refine Kept.upd ?_ rfl rfl rfl rfl rfl rfl rfl; first | assumption | apply sendDl_kept | apply nextCounter_kept | apply epochAdd_kept | apply outPort_kept | apply sendOn_kept) | split

theorem touchDir_kept {s0 : State} (s : State) (w : Nat) (hk : Kept s0 s) : Kept s0 (touchDir s w).2 := by
  unfold touchDir
  with_reducible repeat' first | assumption | (refine Kept.upd ?_ rfl rfl rfl rfl rfl rfl rfl; first | assumption | apply setDir_kept) | split

theorem writeEntry_kept {s0 : State} (s : State) (w : Nat) (e : DirEntry) (hk : Kept s0 s) : Kept s0 (writeEntry s w e) := by
  unfold writeEntry
  with_reducible repeat' first | assumption | apply touchDir_kept | apply setDir_kept

theorem cacheEntry_kept {s0 : State} (s : State) (k w : Nat) (written : Bool) (hk : Kept s0 s) : Kept s0 (cacheEntry s k w written) := by
  unfold cacheEntry
  with_reducible repeat' first | assumption | (refine Kept.upd ?_ rfl rfl rfl rfl rfl rfl rfl; first | assumption | apply cachePut_kept) | split

theorem sendSnoops_kept {s0 : State} (k line : Nat) : ∀ (l : List (Nat × Bool)) (s : State) (acc : List Snoop), Kept s0 s → Kept s0 (sendSnoops s k line l acc).2
  | [], _, _, h => h
  | (n, inv) :: t, s, _acc, h => sendSnoops_kept k line t _ _ (sendSnoop_kept s k line n inv h)

theorem beginTrans_kept {s0 : State} (s : State) (k line : Nat) (t : Trans) (l : List (Nat × Bool)) (hk : Kept s0 s) : Kept s0 (beginTrans s k line t l) := by
  unfold beginTrans
  with_reducible repeat' first | assumption | apply sendSnoops_kept | apply setLine_kept

theorem activate_kept {s0 : State} (s : State) (k line : Nat) (r : Req) (hk : Kept s0 s) : Kept s0 (activate s k line r) := by
  unfold activate
  with_reducible repeat' first | assumption | apply beginTrans_kept | apply touchDir_kept | apply cacheEntry_kept | split | dsimp only

theorem rowAfterRebuild_kept {s0 : State} (s : State) (k line : Nat) (t : Trans) (hk : Kept s0 s) : Kept s0 (rowAfterRebuild s k line t) := by
  unfold rowAfterRebuild
  with_reducible repeat' first | assumption | apply beginTrans_kept

theorem homeEnter_kept {s0 : State} (s : State) (k : Nat) (r : Req) (front : Bool) (hk : Kept s0 s) : Kept s0 (homeEnter s k r front) := by
  unfold homeEnter
  with_reducible repeat' first | assumption | apply activate_kept | apply setLine_kept | split | dsimp only

theorem nextInChain_kept {s0 : State} (s : State) (k line : Nat) (hk : Kept s0 s) : Kept s0 (nextInChain s k line) := by
  unfold nextInChain
  with_reducible repeat' first | assumption | apply setLine_kept | apply activate_kept | split

theorem closeSnoop_kept {s0 : State} (s : State) (x : Snoop) (hk : Kept s0 s) : Kept s0 (closeSnoop s x) := by
  unfold closeSnoop
  with_reducible repeat' first | assumption | apply epochSub_kept

theorem sendWaiting_kept {s0 : State} (s : State) (k slot : Nat) (hk : Kept s0 s) : Kept s0 (sendWaiting s k slot) := by
  unfold sendWaiting
  with_reducible repeat' first | assumption | apply sendSnoop_kept | apply setLine_kept | split | dsimp only

theorem fold_kept {s0 t : State} {s : State} {r : Req} {q : Option Req} (e : fold? s r = some (t, q)) (hk : Kept s0 s) : Kept s0 t := by
  unfold fold? at e
  dsimp only at e
  repeat' split at e
  all_goals first | (cases e; done) | (injection e with e; injection e with e1 e2; rw [← e1])
  all_goals with_reducible repeat' first | assumption | (refine Kept.upd ?_ rfl rfl rfl rfl rfl rfl rfl; apply setLine_kept) | apply setLine_kept | apply closeSnoop_kept

theorem snoopAnswer_kept {s0 : State} (s : State) (k : Nat) (a : SnoopAns) (hk : Kept s0 s) : Kept s0 (snoopAnswer s k a) := by
  unfold snoopAnswer
  with_reducible repeat' first | assumption | apply countDiscard_kept | apply setLine_kept | (refine Kept.upd ?_ rfl rfl rfl rfl rfl rfl rfl; first | assumption | apply sendWaiting_kept | apply countDiscard_kept | apply noteR_kept | apply setLine_kept | apply closeSnoop_kept) | split | dsimp only

theorem dropRecalled_kept {s0 : State} (s : State) (slot : Nat) (hk : Kept s0 s) : Kept s0 (dropRecalled s slot) := by
  unfold dropRecalled
  with_reducible repeat' first | (intro _) | assumption | apply setDir_kept | apply foldl_kept | split

theorem dropSnoops_kept {s0 : State} (s : State) (slot : Nat) (hk : Kept s0 s) : Kept s0 (dropSnoops s slot) := by
  unfold dropSnoops
  with_reducible repeat' first | (intro _) | assumption | apply closeSnoop_kept | apply setDir_kept | (refine Kept.upd ?_ rfl rfl rfl rfl rfl rfl rfl; first | assumption | apply setLine_kept | apply touchDir_kept | apply foldl_kept) | split | dsimp only

theorem declareFailed_kept {s0 : State} (s : State) (slot cause causeCode region : Nat) (waits : List (OrderHdr × Nat)) (hk : Kept s0 s) : Kept s0 (declareFailed s slot cause causeCode region waits) := by
  unfold declareFailed
  with_reducible repeat' first | apply setSlot_kept | apply dropRecalled_kept | (refine Kept.upd ?_ rfl rfl rfl rfl rfl rfl rfl; first | assumption | apply setSlot_kept | apply dropSnoops_kept | apply dropRecalled_kept | apply noteR_kept)

theorem markUnit_kept {s0 : State} (s : State) (spray u : Nat) (hk : Kept s0 s) : Kept s0 (markUnit s spray u) := by
  unfold markUnit
  with_reducible repeat' first | assumption | apply modSpray_kept

theorem storeReq_kept {s0 t : State} {s : State} {r : Req} {d : Line} {poison : Bool} (e : storeReq s r d poison = some t) (hk : Kept s0 s) : Kept s0 t := by
  unfold storeReq at e
  dsimp only at e
  split at e
  · exact writeLine_kept e hk
  · split at e
    · refine writeLine_kept e ?_
      have h := readLine_kept s r.ext (r.offset / 256 * 256) hk
      simp_all
    · cases e

theorem perform_kept {s0 : State} (s : State) (r : Req) (returned : Option Line) (returnedPoison : Bool) (hk : Kept s0 s) : Kept s0 (perform s r returned returnedPoison).2 := by
  unfold perform
  with_reducible repeat' first | assumption | apply writeLine_getD_kept | apply readLine_kept | (refine writeLine_kept (by assumption) ?_) | (refine storeReq_kept (by assumption) ?_) | apply markUnit_kept | split | dsimp only | (have e := congrArg Prod.snd ‹_ = ((_, _) : _ × State)›; dsimp only at e; subst e)

theorem storeReturned_kept {s0 : State} (s : State) (line : Nat) (t : Trans) (hk : Kept s0 s) : Kept s0 (storeReturned s line t) := by
  unfold storeReturned
  with_reducible repeat' first | assumption | apply writeLine_getD_kept | (refine writeLine_kept (by assumption) ?_) | split

theorem vc1Astray_kept {s0 : State} (s : State) (k : Nat) (r : Req) (hk : Kept s0 s) : Kept s0 (vc1Astray s k r).2 := by
  unfold vc1Astray
  with_reducible repeat' first | assumption | apply noteR_kept | split

theorem completeVc1_kept {s0 : State} (s : State) (k line w n : Nat) (r : Req) (hk : Kept s0 s) : Kept s0 (completeVc1 s k line w n r).2 := by
  unfold completeVc1
  with_reducible repeat' first | assumption | apply touchDir_kept | apply setDir_kept | (refine writeLine_kept (by assumption) ?_) | apply vc1Astray_kept | split | dsimp only

theorem completeRow_kept {s0 : State} (s : State) (line w : Nat) (t : Trans) (hk : Kept s0 s) : Kept s0 (completeRow s line w t).2 := by
  unfold completeRow
  with_reducible repeat' first | assumption | apply touchDir_kept | apply storeReturned_kept | apply perform_kept | apply setDir_kept | apply writeEntry_kept | split | dsimp only

theorem completeTrans_kept {s0 : State} (s : State) (k line : Nat) (t : Trans) (hk : Kept s0 s) : Kept s0 (completeTrans s k line t).2 := by
  unfold completeTrans
  with_reducible repeat' first | assumption | apply setDir_kept | apply touchDir_kept | apply completeVc1_kept | apply perform_kept | (refine Kept.upd ?_ rfl rfl rfl rfl rfl rfl rfl; first | assumption | apply cacheEntry_kept | apply rebuild_kept | apply storeReturned_kept | apply vc1Astray_kept | apply completeRow_kept) | split | dsimp only

theorem completeRebuild_kept {s0 : State} (s : State) (k line : Nat) (t : Trans) (hk : Kept s0 s) : Kept s0 (completeRebuild s k line t).2 := by
  unfold completeRebuild
  with_reducible repeat' first | assumption | apply storeReturned_kept | apply setDir_kept | (refine Kept.upd ?_ rfl rfl rfl rfl rfl rfl rfl; first | assumption | apply storeReturned_kept | apply cacheEntry_kept | apply setDir_kept) | split | dsimp only

theorem completeLine_kept {s0 : State} (s : State) (line : Nat) (hk : Kept s0 s) : Kept s0 (completeLine s line).2 := by
  unfold completeLine
  with_reducible repeat' first | assumption | apply completeRebuild_kept | apply completeTrans_kept | split

theorem advanceLine_kept {s0 : State} (s : State) (k line : Nat) (t : Trans) (hk : Kept s0 s) : Kept s0 (advanceLine s k line t) := by
  unfold advanceLine
  with_reducible repeat' first | assumption | apply cacheValid_kept | apply rowAfterRebuild_kept | apply nextInChain_kept | split

theorem settle_kept {s0 : State} (s : State) (r : Req) (hk : Kept s0 s) : Kept s0 (settle s r) := by
  unfold settle
  with_reducible repeat' first | assumption | apply modExtent_kept | apply epochSub_kept | split

theorem answerPacket_kept {s0 : State} (s : State) (k : Nat) (r : Req) (a : Answer) (hk : Kept s0 s) : Kept s0 (answerPacket s k r a) := by
  unfold answerPacket
  with_reducible repeat' first | assumption | apply settle_kept | apply respond_kept | split

end Sys2Proof.Machine

/-! ### Ingress -/

namespace Sys2Proof.Machine

theorem logViolation_kept {s0 : State} (s : State) (v : Violation) (hk : Kept s0 s) : Kept s0 (logViolation s v) := by
  unfold logViolation
  with_reducible repeat' first | assumption | (refine Kept.upd ?_ rfl rfl rfl rfl rfl rfl rfl; first | assumption | apply noteR_kept) | split | dsimp only

theorem countAuthFail_kept {s0 : State} (s : State) (k source status : Nat) (hk : Kept s0 s) : Kept s0 (countAuthFail s k source status) := by
  unfold countAuthFail
  with_reducible repeat' first | assumption | (refine Kept.upd ?_ rfl rfl rfl rfl rfl rfl rfl; first | assumption | apply noteR_kept) | split | dsimp only

theorem arrive_kept {s0 : State} (s : State) (k : Nat) (r : Req) (hk : Kept s0 s) : Kept s0 (arrive s k r).2 := by
  unfold arrive
  with_reducible repeat' first | assumption | apply modRegion_kept

theorem enqueueDarin_kept {s0 : State} (s : State) (k : Nat) (r : Req) (hk : Kept s0 s) : Kept s0 (enqueueDarin s k r) := by
  unfold enqueueDarin
  with_reducible repeat' first | assumption | apply arrive_kept | apply modRegion_kept

theorem admitReq_kept {s0 : State} (s : State) (k : Nat) (r : Req) (hk : Kept s0 s) : Kept s0 (admitReq s k r) := by
  unfold admitReq
  with_reducible repeat' first | assumption | apply answerPacket_kept | apply arrive_kept | apply modRegion_kept | split | dsimp only

theorem checkedRequest_kept {s0 : State} (s : State) (via : Via) (k : Nat) (p : Packet) (offset source : Nat) (epoch : Option Nat) (hk : Kept s0 s) : Kept s0 (checkedRequest s via k p offset source epoch) := by
  unfold checkedRequest
  with_reducible repeat' first | assumption | apply respond_kept | apply logViolation_kept | apply epochAdd_kept | apply modExtent_kept | apply modRegion_kept | apply enqueueDarin_kept | apply admitReq_kept | split | dsimp only

theorem openedRequest_kept {s0 : State} (s : State) (via : Via) (k : Nat) (p : Packet) (offset source : Nat) (hk : Kept s0 s) : Kept s0 (openedRequest s via k p offset source) := by
  unfold openedRequest
  with_reducible repeat' first | assumption | apply checkedRequest_kept | apply respond_kept | apply countAuthFail_kept | split

theorem packetRequest_kept {s0 : State} (s : State) (via : Via) (p : Packet) (hk : Kept s0 s) : Kept s0 (packetRequest s via p) := by
  unfold packetRequest
  with_reducible repeat' first | assumption | apply respond_kept | apply countDiscard_kept | apply countMisrouted_kept | apply openedRequest_kept | split | dsimp only

theorem duplicate_kept {s0 : State} (s : State) (source counter : Nat) (hk : Kept s0 s) : Kept s0 (duplicate s source counter).2 := by
  unfold duplicate
  with_reducible repeat' first | (refine Kept.upd ?_ rfl rfl rfl rfl rfl rfl rfl; first | assumption) | split | dsimp only

theorem openedAnswer_kept {s0 : State} (s : State) (k source : Nat) (p : Packet) (hk : Kept s0 s) : Kept s0 (openedAnswer s k source p) := by
  unfold openedAnswer
  with_reducible repeat' first | assumption | apply countDiscard_kept | apply noteR_kept | apply modRegion_kept | split | dsimp only

theorem packetAnswer_kept {s0 : State} (s : State) (via : Via) (p : Packet) (hk : Kept s0 s) : Kept s0 (packetAnswer s via p) := by
  unfold packetAnswer
  with_reducible repeat' first | assumption | apply countDiscard_kept | apply openedAnswer_kept | apply countAuthFail_kept | apply duplicate_kept | split | dsimp only

theorem dlReturn_kept {s0 : State} (s : State) (hk : Kept s0 s) : Kept s0 (dlReturn s) := by
  unfold dlReturn
  with_reducible repeat' first | assumption | (refine Kept.upd ?_ rfl rfl rfl rfl rfl rfl rfl; first | assumption | apply sendDlCredits_kept) | split | dsimp only

theorem grantReturn_kept {s0 : State} (s : State) (r : Req) (hk : Kept s0 s) : Kept s0 (grantReturn s r) := by
  unfold grantReturn
  with_reducible repeat' first | assumption | apply dlReturn_kept | split

end Sys2Proof.Machine

/-! ### Orders -/

namespace Sys2Proof.Machine

theorem emptyWindow_kept {s0 : State} (s : State) (m : Nat) (hk : Kept s0 s) : Kept s0 (emptyWindow s m) := by
  unfold emptyWindow
  with_reducible repeat' first | assumption | apply modMaster_kept

theorem orderTaken_kept {s0 : State} (s : State) (h : OrderHdr) (hk : Kept s0 s) : Kept s0 (orderTaken s h) := by
  unfold orderTaken
  with_reducible repeat' first | (refine Kept.upd ?_ rfl rfl rfl rfl rfl rfl rfl; first | assumption)

theorem orderRefusal_kept {s0 : State} (s : State) (h : OrderHdr) (code : Nat) (prot : Nat → Option Nat) (fieldsOk : Bool) (hk : Kept s0 s) : Kept s0 (orderRefusal s h code prot fieldsOk).2 := by
  unfold orderRefusal
  with_reducible repeat' first | assumption | apply modMaster_kept | split

theorem checkedOrder_kept {s0 : State} (s : State) (h : OrderHdr) (code : Nat) (prot : Nat → Option Nat) (fieldsOk : Bool) (cmd : Instr) (body : State → State) (h_body : ∀ {s1}, Kept s0 s1 → Kept s0 (body s1)) (hk : Kept s0 s) : Kept s0 (checkedOrder s h code prot fieldsOk cmd body) := by
  unfold checkedOrder
  with_reducible repeat' first | assumption | apply h_body | apply orderTaken_kept | (refine Kept.upd ?_ rfl rfl rfl rfl rfl rfl rfl; first | assumption | apply h_body | apply orderRefusal_kept | apply reply_kept) | split | (have e := congrArg Prod.snd ‹_ = ((_, _) : _ × State)›; dsimp only at e; subst e)

theorem withOrder_kept {s0 : State} (s : State) (h : OrderHdr) (code : Nat) (cmd : Instr) (body : State → State) (h_body : ∀ {s1}, Kept s0 s1 → Kept s0 (body s1)) (hk : Kept s0 s) : Kept s0 (withOrder s h code cmd body) := by
  unfold withOrder
  with_reducible repeat' first | assumption | apply checkedOrder_kept

theorem accept_kept {s0 : State} (s : State) (h : OrderHdr) (code : Nat) (hk : Kept s0 s) : Kept s0 (accept s h code) := by
  unfold accept
  with_reducible repeat' first | assumption | (refine Kept.upd ?_ rfl rfl rfl rfl rfl rfl rfl; first | assumption | apply modMaster_kept) | split

theorem judged_kept {s0 : State} (s : State) (h : OrderHdr) (code : Nat) (refusals : List (Bool × Nat)) (act : State) (hk : Kept s0 s) (ha : Kept s0 act) :
    Kept s0 (judged s h code refusals act) := by
  unfold judged
  split
  · exact reply_kept _ _ _ _ _ hk
  · exact ha

theorem prepare_kept {s0 : State} (s : State) (h : OrderHdr) (p : Prepared) (hk : Kept s0 s) : Kept s0 (prepare s h p) := by
  unfold prepare
  with_reducible repeat' first | assumption | (refine Kept.upd ?_ rfl rfl rfl rfl rfl rfl rfl; first | assumption | apply accept_kept)

end Sys2Proof.Machine
end

