-- ==== Sys2Proof/Laws/KeptEngines.lean ====
section
/-! SUPPORT. Every operation on the state keeps what no command undoes, and every meaning goes on: Engines, Issue, Scalar, EngineMem, Vector, Sprays. -/

/-! ### Engines -/

namespace Sys2Proof.Machine

theorem setThread_kept {s0 : State} (s : State) (e h : Nat) (v : Thread) (hk : Kept s0 s) : Kept s0 (setThread s e h v) := by
  unfold setThread
  with_reducible repeat' first | (refine Kept.upd ?_ rfl rfl rfl rfl rfl rfl rfl; first | assumption)

theorem dropThread_kept {s0 : State} (s : State) (e h : Nat) (hk : Kept s0 s) : Kept s0 (dropThread s e h) := by
  unfold dropThread
  with_reducible repeat' first | (refine Kept.upd ?_ rfl rfl rfl rfl rfl rfl rfl; first | assumption)

theorem modThread_kept {s0 : State} (s : State) (e h : Nat) (f : Thread → Thread) (hk : Kept s0 s) : Kept s0 (modThread s e h f) := by
  unfold modThread
  with_reducible repeat' first | assumption | apply setThread_kept | split

theorem setTile_kept {s0 : State} (s : State) (i : Nat) (v : Tile) (hk : Kept s0 s) : Kept s0 (setTile s i v) := by
  unfold setTile
  with_reducible repeat' first | (refine Kept.upd ?_ rfl rfl rfl rfl rfl rfl rfl; first | assumption)

theorem delTile_kept {s0 : State} (s : State) (i : Nat) (hk : Kept s0 s) : Kept s0 (delTile s i) := by
  unfold delTile
  with_reducible repeat' first | (refine Kept.upd ?_ rfl rfl rfl rfl rfl rfl rfl; first | assumption)

theorem setAccess_kept {s0 : State} (s : State) (i : Nat) (v : Access) (hk : Kept s0 s) : Kept s0 (setAccess s i v) := by
  unfold setAccess
  with_reducible repeat' first | (refine Kept.upd ?_ rfl rfl rfl rfl rfl rfl rfl; first | assumption)

theorem delAccess_kept {s0 : State} (s : State) (i : Nat) (hk : Kept s0 s) : Kept s0 (delAccess s i) := by
  unfold delAccess
  with_reducible repeat' first | (refine Kept.upd ?_ rfl rfl rfl rfl rfl rfl rfl; first | assumption)

theorem modCollect_kept {s0 : State} (s : State) (k : Nat) (f : FaultCol → FaultCol) (hk : Kept s0 s) : Kept s0 (modCollect s k f) := by
  unfold modCollect
  with_reducible repeat' first | (refine Kept.upd ?_ rfl rfl rfl rfl rfl rfl rfl; first | assumption)

theorem dropFaulted_kept {s0 : State} (s : State) (e h : Nat) (hk : Kept s0 s) : Kept s0 (dropFaulted s e h) := by
  unfold dropFaulted
  with_reducible repeat' first | (intro _) | assumption | apply modCollect_kept | apply delTile_kept | apply foldl_kept

theorem failThread_kept {s0 : State} (s : State) (e h : Nat) (f : Failure) (hk : Kept s0 s) : Kept s0 (failThread s e h f) := by
  unfold failThread
  with_reducible repeat' first | assumption | apply dropFaulted_kept | apply setThread_kept | split

theorem fillWalker_kept {s0 : State} (s : State) (k asid : Nat) (x : Nat × Leaf) (hk : Kept s0 s) : Kept s0 (fillWalker s k asid x) := by
  unfold fillWalker
  with_reducible repeat' first | assumption | (refine Kept.upd ?_ rfl rfl rfl rfl rfl rfl rfl; first | assumption | apply useFree_kept)

theorem fillTlb_kept {s0 : State} (s : State) (e asid : Nat) (x : Nat × Leaf) (hk : Kept s0 s) : Kept s0 (fillTlb s e asid x) := by
  unfold fillTlb
  with_reducible repeat' first | apply fillWalker_kept | (refine Kept.upd ?_ rfl rfl rfl rfl rfl rfl rfl; first | assumption | apply fillWalker_kept | apply useFree_kept) | split | dsimp only

theorem translate_kept {s0 : State} (s : State) (e asid u : Nat) (hk : Kept s0 s) : Kept s0 (translate s e asid u).2 := by
  unfold translate
  with_reducible repeat' first | apply fillTlb_kept | (refine Kept.upd ?_ rfl rfl rfl rfl rfl rfl rfl; first | assumption | apply fillTlb_kept | apply useFree_kept) | split | dsimp only

theorem translateTile_kept {s0 : State} (s : State) (t : Tile) (hk : Kept s0 s) : Kept s0 (translateTile s t).2 := by
  unfold translateTile
  with_reducible repeat' first | (intro _) | assumption | apply translate_kept | apply foldl_kept_snd | split | dsimp only

theorem addFault_kept {s0 : State} (s : State) (k : Nat) (r : FaultRec) (hk : Kept s0 s) : Kept s0 (addFault s k r) := by
  unfold addFault
  with_reducible repeat' first | assumption | apply modCollect_kept

theorem makeAccesses_kept {s0 : State} (s : State) (i : Nat) (t : Tile) (leaves : Tab (Nat × Leaf)) (hk : Kept s0 s) : Kept s0 (makeAccesses s i t leaves) := by
  unfold makeAccesses
  with_reducible repeat' first | (intro _) | assumption | (refine Kept.upd ?_ rfl rfl rfl rfl rfl rfl rfl; first | assumption | apply setTile_kept | apply foldl_kept)

theorem translateOrFault_kept {s0 : State} (s : State) (i : Nat) (t : Tile) (since : Nat) (hk : Kept s0 s) : Kept s0 (translateOrFault s i t since) := by
  unfold translateOrFault
  with_reducible repeat' first | assumption | apply makeAccesses_kept | apply translateTile_kept | apply addFault_kept | apply setTile_kept | split | dsimp only

theorem newTile_kept {s0 : State} (s : State) (t : Tile) (hk : Kept s0 s) : Kept s0 (newTile s t) := by
  unfold newTile
  with_reducible repeat' first | assumption | (refine Kept.upd ?_ rfl rfl rfl rfl rfl rfl rfl; first | assumption | apply translateOrFault_kept)

theorem writeScratch_kept {s0 : State} (s : State) (e h at_ : Nat) (bs : List Byte) (hk : Kept s0 s) : Kept s0 (writeScratch s e h at_ bs) :=
  hk.trans { pending := rfl, clock := rfl, free := Nat.le_refl _, wire := List.prefix_rfl, cells := fun w => ⟨w.bytes, Memory.wf_write _ _ w.scratch, w.priv⟩,
             floor := Nat.le_refl _, revoked := BitVec.or_self }

theorem writePriv_kept {s0 : State} (s : State) (e h : Nat) (th : Thread) (at_ : Nat) (bs : List Byte) (hk : Kept s0 s) : Kept s0 (writePriv s e h th at_ bs).1 := by
  have hf : ∀ (l : List Nat) (x : List Host.Cell × BitVec 4096), Memory.wf x.1 → Memory.wf (l.foldl (fun (x : List Host.Cell × BitVec 4096) c =>
      if x.2.getLsbD c then x else (writeRange x.1 (privAddr e h (256 * c)) (List.replicate 256 0), x.2 ||| (1#4096 <<< c))) x).1 := by
    intro l
    induction l with
    | nil => exact fun _ h => h
    | cons c l ih =>
      intro x hx
      rw [List.foldl_cons]
      refine ih _ ?_
      split
      · exact hx
      · exact Memory.wf_write _ _ hx
  exact hk.trans { pending := rfl, clock := rfl, free := Nat.le_refl _, wire := List.prefix_rfl, cells := fun w => ⟨w.bytes, w.scratch, Memory.wf_write _ _ (hf _ _ w.priv)⟩,
                   floor := Nat.le_refl _, revoked := BitVec.or_self }

theorem tileDone_kept {s0 : State} (s : State) (i : Nat) (t : Tile) (hk : Kept s0 s) : Kept s0 (tileDone s i t) := by
  unfold tileDone
  with_reducible repeat' first | assumption | apply setTile_kept | apply delTile_kept | apply modThread_kept | split

theorem deliver_kept {s0 : State} (s : State) (id : Nat) (a : Answer) (hk : Kept s0 s) : Kept s0 (deliver s id a) := by
  unfold deliver
  with_reducible repeat' first | assumption | apply delAccess_kept | apply failThread_kept | apply tileDone_kept | split | dsimp only

theorem failAccess_kept {s0 : State} (s : State) (id : Nat) (f : Failure) (hk : Kept s0 s) : Kept s0 (failAccess s id f) := by
  unfold failAccess
  with_reducible repeat' first | assumption | apply delAccess_kept | apply failThread_kept | apply tileDone_kept | split | dsimp only

theorem enterIngress_kept {s0 : State} (s : State) (id : Nat) (r : Req) (path : Nat) (hk : Kept s0 s) : Kept s0 (enterIngress s id r path) := by
  unfold enterIngress
  with_reducible repeat' first | assumption | apply deliver_kept | apply logViolation_kept | apply modExtent_kept | apply arrive_kept | apply modRegion_kept | split

theorem zeroBlock_kept {s0 : State} (s : State) (id : Nat) (x : Access) (t : Tile) (p : Spray) (u : Nat) (busy : Nat → Bool) (hk : Kept s0 s) : Kept s0 (zeroBlock s id x t p u busy) := by
  unfold zeroBlock
  with_reducible repeat' first | (intro _) | assumption | apply logViolation_kept | apply delAccess_kept | apply setValidBlock_kept | (refine writeLine_kept (by assumption) ?_) | apply cacheValid_kept | (refine Kept.upd ?_ rfl rfl rfl rfl rfl rfl rfl; first | assumption | apply writeLine_getD_kept | apply deliver_kept | apply setTile_kept | (refine writeLine_kept (by assumption) ?_) | apply commitEntry_kept | apply markUnit_kept | apply foldl_kept) | split | dsimp only

theorem issueLocal_kept {s0 : State} (s : State) (id : Nat) (x : Access) (t : Tile) (p : Spray) (hk : Kept s0 s) : Kept s0 (issueLocal s id x t p) := by
  unfold issueLocal
  with_reducible repeat' first | assumption | apply zeroBlock_kept | apply setAccess_kept | apply deliver_kept | apply enterIngress_kept | apply modRegion_kept | split | dsimp only

theorem dropHeld_kept {s0 : State} (s : State) (pick : Nat → Bool) (hk : Kept s0 s) : Kept s0 (dropHeld s pick) := by
  unfold dropHeld
  with_reducible repeat' first | (intro _) | assumption | apply modRegion_kept | apply foldl_kept

theorem sendRemote_kept {s0 : State} (s : State) (id : Nat) (x : Access) (t : Tile) (p : Spray) (tag : Nat) (hk : Kept s0 s) : Kept s0 (sendRemote s id x t p tag) := by
  unfold sendRemote
  with_reducible repeat' first | assumption | apply useFree_kept | apply nextCounter_kept | apply outPort_kept | apply setAccess_kept | apply sendOn_kept | split

theorem closeForwards_kept {s0 : State} (s : State) (pick : Forward → Bool) (hk : Kept s0 s) : Kept s0 (closeForwards s pick) := by
  unfold closeForwards
  with_reducible repeat' first | (refine Kept.upd ?_ rfl rfl rfl rfl rfl rfl rfl; first | assumption)

theorem dropForward_kept {s0 : State} (s : State) (f : Forward) (hk : Kept s0 s) : Kept s0 (dropForward s f) := by
  unfold dropForward
  with_reducible repeat' first | (refine Kept.upd ?_ rfl rfl rfl rfl rfl rfl rfl; first | assumption)

theorem countLate_kept {s0 : State} (s : State) (hk : Kept s0 s) : Kept s0 (countLate s) := by
  unfold countLate
  with_reducible repeat' first | (refine Kept.upd ?_ rfl rfl rfl rfl rfl rfl rfl; first | assumption)

theorem takeResponse_kept {s0 : State} (s : State) (f : Forward) (p : Packet) (hk : Kept s0 s) : Kept s0 (takeResponse s f p) := by
  unfold takeResponse
  with_reducible repeat' first | assumption | apply dropForward_kept | apply setAccess_kept | apply countDiscard_kept | apply deliver_kept | split

theorem packetResponse_kept {s0 : State} (s : State) (via : Via) (p : Packet) (hk : Kept s0 s) : Kept s0 (packetResponse s via p) := by
  unfold packetResponse
  with_reducible repeat' first | assumption | apply countDiscard_kept | apply duplicate_kept | apply countLate_kept | apply failAccess_kept | apply dropForward_kept | apply takeResponse_kept | split | dsimp only

theorem moduleStore_kept {s0 : State} (s : State) (origin : Origin) (k offset length : Nat) (payload : Line) (mask : Option (BitVec 256)) (source tenant : Nat) (hk : Kept s0 s) : Kept s0 (moduleStore s origin k offset length payload mask source tenant).2 := by
  unfold moduleStore
  with_reducible repeat' first | assumption | apply logViolation_kept | apply perform_kept | apply cacheValid_kept | apply modExtent_kept | apply arrive_kept | apply modRegion_kept | split | dsimp only

theorem sprayStore_kept {s0 : State} (s : State) (n what offset length : Nat) (payload : Line) (mask : Option (BitVec 256)) (hk : Kept s0 s) : Kept s0 (sprayStore s n what offset length payload mask) := by
  unfold sprayStore
  with_reducible repeat' first | assumption | apply moduleStore_kept | apply modSpray_kept | split | (have e := congrArg Prod.snd ‹_ = ((_, _) : _ × State)›; dsimp only at e; subst e)

theorem answerDone_kept {s0 : State} (s : State) (k : Nat) (d : Done) (hk : Kept s0 s) : Kept s0 (answerDone s k d) := by
  unfold answerDone
  with_reducible repeat' first | assumption | apply answerPacket_kept | apply deliver_kept | apply settle_kept | apply modSpray_kept | split

theorem fillWaiting_kept {s0 : State} (s : State) (k : Nat) (hk : Kept s0 s) : Kept s0 (fillWaiting s k) := by
  unfold fillWaiting
  with_reducible repeat' first | assumption | apply modCollect_kept

theorem closeBatch_kept {s0 : State} (s : State) (k : Nat) (hk : Kept s0 s) : Kept s0 (closeBatch s k) := by
  unfold closeBatch
  with_reducible repeat' first | (intro _) | assumption | apply fillWaiting_kept | (refine Kept.upd ?_ rfl rfl rfl rfl rfl rfl rfl; first | assumption | apply setTile_kept | apply fillWaiting_kept | apply modCollect_kept | apply foldl_kept) | split

theorem wakeResumed_kept {s0 : State} (s : State) (hk : Kept s0 s) : Kept s0 (wakeResumed s) := by
  unfold wakeResumed
  with_reducible repeat' first | (intro _) | assumption | apply translateOrFault_kept | apply foldl_kept | split

theorem resolveTile_kept {s0 : State} (s : State) (i : Nat) (resume : Bool) (hk : Kept s0 s) : Kept s0 (resolveTile s i resume) := by
  unfold resolveTile
  with_reducible repeat' first | assumption | apply setTile_kept | apply translateOrFault_kept | apply failThread_kept | apply delTile_kept | split

end Sys2Proof.Machine

/-! ### Issue -/

namespace Sys2Proof.Machine

theorem passPointer_kept {s0 : State} (s : State) (t : ThreadRef) (hk : Kept s0 s) : Kept s0 (passPointer s t) := by
  unfold passPointer
  with_reducible repeat' first | (refine Kept.upd ?_ rfl rfl rfl rfl rfl rfl rfl; first | assumption)

theorem illegal_kept {s0 : State} (s : State) (t : ThreadRef) (hk : Kept s0 s) : Kept s0 (illegal s t) := by
  unfold illegal
  with_reducible repeat' first | assumption | apply failThread_kept | apply passPointer_kept

/-- An instruction's effect keeps what a command keeps. -/
def ActKept (s0 : State) : Act → Prop
  | .go t => Kept s0 t
  | _ => True

theorem ActKept.go {s0 t : State} (h : Kept s0 t) : ActKept s0 (.go t) := h

theorem ActKept.wait {s0 : State} : ActKept s0 .wait := trivial

theorem ActKept.illegal {s0 : State} : ActKept s0 .illegal := trivial

theorem issue_goes {s0 : State} (s : State) (t : ThreadRef) (op : Nat) (f : Fields) (legal : Bool) (regs : List Nat) (act : Spray → Thread → Act)
    (ha : ∀ p th, ActKept s0 (act p th)) (hk : Kept s0 s) : Goes s0 (issue s t op f legal regs act) := by
  unfold issue
  split
  · exact Goes.next hk
  · rename_i th _
    split
    · exact Goes.next hk
    · rename_i p _
      have hi := illegal_kept s t hk
      have hg := ha p th
      split
      · exact Goes.next hk
      · split
        · exact Goes.next hi
        · split
          · split
            · exact Goes.next hi
            · split
              · exact Goes.next hk
              · split
                · exact Goes.next hk
                · exact Goes.next hi
                · rename_i e
                  rw [e] at hg
                  exact Goes.next (passPointer_kept _ _ hg)
          · split
            · exact Goes.next hk
            · exact Goes.next hi

theorem retire_kept {s0 : State} (s : State) (t : ThreadRef) (th : Thread) (hk : Kept s0 s) : Kept s0 (retire s t th) := by
  unfold retire
  with_reducible repeat' first | assumption | apply setThread_kept

theorem branch_kept {s0 : State} (s : State) (t : ThreadRef) (th : Thread) (off : Int) (hk : Kept s0 s) : Kept s0 (branch s t th off) := by
  unfold branch
  with_reducible repeat' first | assumption | apply setThread_kept

theorem regOp_goes {s0 : State} (s : State) (t : ThreadRef) (op : Nat) (f : Fields) (legal : Bool) (regs : List Nat) (g : Spray → Thread → Thread)
    (hk : Kept s0 s) : Goes s0 (regOp s t op f legal regs g) :=
  issue_goes _ _ _ _ _ _ _ (fun _ _ => ActKept.go (retire_kept _ _ _ hk)) hk

end Sys2Proof.Machine

/-! ### Scalar -/

namespace Sys2Proof.Machine

theorem execAlu_goes {s0 : State} (t : ThreadRef) (f : Fields) (s : State) (hk : Kept s0 s) : Goes s0 (execAlu t f s) := by
  unfold execAlu
  with_reducible repeat' first | assumption | apply regOp_goes

theorem immOp_goes {s0 : State} (s : State) (t : ThreadRef) (op : Nat) (f : Fields) (legal : Bool) (g : Word → Word) (hk : Kept s0 s) : Goes s0 (immOp s t op f legal g) := by
  unfold immOp
  with_reducible repeat' first | assumption | apply regOp_goes

theorem execAddi_goes {s0 : State} (t : ThreadRef) (f : Fields) (s : State) (hk : Kept s0 s) : Goes s0 (execAddi t f s) := by
  unfold execAddi
  with_reducible repeat' first | assumption | apply immOp_goes

theorem execAndi_goes {s0 : State} (t : ThreadRef) (f : Fields) (s : State) (hk : Kept s0 s) : Goes s0 (execAndi t f s) := by
  unfold execAndi
  with_reducible repeat' first | assumption | apply immOp_goes

theorem execOri_goes {s0 : State} (t : ThreadRef) (f : Fields) (s : State) (hk : Kept s0 s) : Goes s0 (execOri t f s) := by
  unfold execOri
  with_reducible repeat' first | assumption | apply immOp_goes

theorem execXori_goes {s0 : State} (t : ThreadRef) (f : Fields) (s : State) (hk : Kept s0 s) : Goes s0 (execXori t f s) := by
  unfold execXori
  with_reducible repeat' first | assumption | apply immOp_goes

theorem execShli_goes {s0 : State} (t : ThreadRef) (f : Fields) (s : State) (hk : Kept s0 s) : Goes s0 (execShli t f s) := by
  unfold execShli
  with_reducible repeat' first | assumption | apply immOp_goes

theorem execShri_goes {s0 : State} (t : ThreadRef) (f : Fields) (s : State) (hk : Kept s0 s) : Goes s0 (execShri t f s) := by
  unfold execShri
  with_reducible repeat' first | assumption | apply immOp_goes

theorem execSrai_goes {s0 : State} (t : ThreadRef) (f : Fields) (s : State) (hk : Kept s0 s) : Goes s0 (execSrai t f s) := by
  unfold execSrai
  with_reducible repeat' first | assumption | apply immOp_goes

theorem execSlti_goes {s0 : State} (t : ThreadRef) (f : Fields) (s : State) (hk : Kept s0 s) : Goes s0 (execSlti t f s) := by
  unfold execSlti
  with_reducible repeat' first | assumption | apply immOp_goes

theorem execLi_goes {s0 : State} (t : ThreadRef) (f : Fields) (s : State) (hk : Kept s0 s) : Goes s0 (execLi t f s) := by
  unfold execLi
  with_reducible repeat' first | assumption | apply regOp_goes

theorem execLis_goes {s0 : State} (t : ThreadRef) (f : Fields) (s : State) (hk : Kept s0 s) : Goes s0 (execLis t f s) := by
  unfold execLis
  with_reducible repeat' first | assumption | apply regOp_goes

theorem execPop_goes {s0 : State} (t : ThreadRef) (f : Fields) (s : State) (hk : Kept s0 s) : Goes s0 (execPop t f s) := by
  unfold execPop
  with_reducible repeat' first | assumption | apply regOp_goes | split | dsimp only

theorem execRds_goes {s0 : State} (t : ThreadRef) (f : Fields) (s : State) (hk : Kept s0 s) : Goes s0 (execRds t f s) := by
  unfold execRds
  with_reducible repeat' first | assumption | apply regOp_goes

theorem compareBranch_goes {s0 : State} (s : State) (t : ThreadRef) (op : Nat) (f : Fields) (c : Word → Word → Bool) (hk : Kept s0 s) : Goes s0 (compareBranch s t op f c) := by
  unfold compareBranch
  with_reducible repeat' first | (intro _) | assumption | apply issue_goes | apply ActKept.go | apply branch_kept | apply retire_kept | split

theorem execBeq_goes {s0 : State} (t : ThreadRef) (f : Fields) (s : State) (hk : Kept s0 s) : Goes s0 (execBeq t f s) := by
  unfold execBeq
  with_reducible repeat' first | assumption | apply compareBranch_goes

theorem execBne_goes {s0 : State} (t : ThreadRef) (f : Fields) (s : State) (hk : Kept s0 s) : Goes s0 (execBne t f s) := by
  unfold execBne
  with_reducible repeat' first | assumption | apply compareBranch_goes

theorem execBlt_goes {s0 : State} (t : ThreadRef) (f : Fields) (s : State) (hk : Kept s0 s) : Goes s0 (execBlt t f s) := by
  unfold execBlt
  with_reducible repeat' first | assumption | apply compareBranch_goes

theorem execBge_goes {s0 : State} (t : ThreadRef) (f : Fields) (s : State) (hk : Kept s0 s) : Goes s0 (execBge t f s) := by
  unfold execBge
  with_reducible repeat' first | assumption | apply compareBranch_goes

theorem execBltu_goes {s0 : State} (t : ThreadRef) (f : Fields) (s : State) (hk : Kept s0 s) : Goes s0 (execBltu t f s) := by
  unfold execBltu
  with_reducible repeat' first | assumption | apply compareBranch_goes

theorem execBgeu_goes {s0 : State} (t : ThreadRef) (f : Fields) (s : State) (hk : Kept s0 s) : Goes s0 (execBgeu t f s) := by
  unfold execBgeu
  with_reducible repeat' first | assumption | apply compareBranch_goes

theorem execBp_goes {s0 : State} (t : ThreadRef) (f : Fields) (s : State) (hk : Kept s0 s) : Goes s0 (execBp t f s) := by
  unfold execBp
  with_reducible repeat' first | (intro _) | assumption | apply issue_goes | apply ActKept.go | apply branch_kept | apply retire_kept | split

theorem execJmp_goes {s0 : State} (t : ThreadRef) (f : Fields) (s : State) (hk : Kept s0 s) : Goes s0 (execJmp t f s) := by
  unfold execJmp
  with_reducible repeat' first | (intro _) | assumption | apply issue_goes | apply ActKept.go | apply branch_kept

theorem execJal_goes {s0 : State} (t : ThreadRef) (f : Fields) (s : State) (hk : Kept s0 s) : Goes s0 (execJal t f s) := by
  unfold execJal
  with_reducible repeat' first | (intro _) | assumption | apply issue_goes | apply ActKept.go | apply branch_kept

theorem execJr_goes {s0 : State} (t : ThreadRef) (f : Fields) (s : State) (hk : Kept s0 s) : Goes s0 (execJr t f s) := by
  unfold execJr
  with_reducible repeat' first | (intro _) | assumption | apply issue_goes | apply ActKept.go | apply setThread_kept

theorem execEnd_goes {s0 : State} (t : ThreadRef) (f : Fields) (s : State) (hk : Kept s0 s) : Goes s0 (execEnd t f s) := by
  unfold execEnd
  with_reducible repeat' first | (intro _) | assumption | apply issue_goes | apply ActKept.go | apply setThread_kept

theorem execTrap_goes {s0 : State} (t : ThreadRef) (f : Fields) (s : State) (hk : Kept s0 s) : Goes s0 (execTrap t f s) := by
  unfold execTrap
  with_reducible repeat' first | (intro _) | assumption | apply issue_goes | apply ActKept.go | apply failThread_kept | apply retire_kept

theorem execFence_goes {s0 : State} (t : ThreadRef) (f : Fields) (s : State) (hk : Kept s0 s) : Goes s0 (execFence t f s) := by
  unfold execFence
  with_reducible repeat' first | (intro _) | assumption | apply issue_goes | apply ActKept.go | apply ActKept.wait | apply retire_kept | split

theorem execNop_goes {s0 : State} (t : ThreadRef) (f : Fields) (s : State) (hk : Kept s0 s) : Goes s0 (execNop t f s) := by
  unfold execNop
  with_reducible repeat' first | assumption | apply regOp_goes

end Sys2Proof.Machine

/-! ### EngineMem -/

namespace Sys2Proof.Machine

theorem outOfRange_kept {s0 : State} (s : State) (t : ThreadRef) (hk : Kept s0 s) : Kept s0 (outOfRange s t) := by
  unfold outOfRange
  with_reducible repeat' first | assumption | apply failThread_kept

theorem privError_kept {s0 : State} (s : State) (t : ThreadRef) (hk : Kept s0 s) : Kept s0 (privError s t) := by
  unfold privError
  with_reducible repeat' first | assumption | apply failThread_kept

theorem poolAccess_kept {s0 : State} (s : State) (t : ThreadRef) (th : Thread) (x : Tile) (hk : Kept s0 s) : Kept s0 (poolAccess s t th x) := by
  unfold poolAccess
  with_reducible repeat' first | assumption | apply retire_kept | apply newTile_kept | apply failThread_kept | split

theorem writeLocal_kept {s0 s : State} {t : ThreadRef} {th : Thread} {space at_ : Nat} {bs : List Byte} {x : State × Thread}
    (e : writeLocal s t th space at_ bs = some x) (hk : Kept s0 s) : Kept s0 x.1 := by
  unfold writeLocal at e
  split at e
  · split at e <;> cases e
    exact writeScratch_kept _ _ _ _ _ hk
  · split at e <;> cases e
    exact writePriv_kept _ _ _ _ _ _ hk

theorem writeLocal_getD_kept {s0 s : State} {t : ThreadRef} {th : Thread} {space at_ : Nat} {bs : List Byte} {x : State × Thread}
    (hk : Kept s0 s) (hx : Kept s0 x.1) : Kept s0 ((writeLocal s t th space at_ bs).getD x).1 := by
  cases e : writeLocal s t th space at_ bs with
  | none => exact hx
  | some y => exact writeLocal_kept e hk

theorem loadRow_act {s0 : State} (s : State) (t : ThreadRef) (p : Spray) (th : Thread) (space at_ n : Nat) (acquire : Bool) (use : TileUse) (hk : Kept s0 s) : ActKept s0 (loadRow s t p th space at_ n acquire use) := by
  unfold loadRow
  with_reducible repeat' first | assumption | apply ActKept.go | apply ActKept.wait | apply poolAccess_kept | apply privError_kept | apply retire_kept | apply outOfRange_kept | split

theorem storeRow_act {s0 : State} (s : State) (t : ThreadRef) (p : Spray) (th : Thread) (space at_ : Nat) (bs : List Byte) (release : Bool) (hk : Kept s0 s) : ActKept s0 (storeRow s t p th space at_ bs release) := by
  unfold storeRow
  with_reducible repeat' first | assumption | apply ActKept.go | apply ActKept.wait | apply poolAccess_kept | (refine writeLocal_kept (by assumption) ?_) | apply privError_kept | apply retire_kept | apply outOfRange_kept | split

theorem execLd_goes {s0 : State} (t : ThreadRef) (f : Fields) (s : State) (hk : Kept s0 s) : Goes s0 (execLd t f s) := by
  unfold execLd
  with_reducible repeat' first | (intro _) | assumption | apply issue_goes | apply loadRow_act

theorem execSt_goes {s0 : State} (t : ThreadRef) (f : Fields) (s : State) (hk : Kept s0 s) : Goes s0 (execSt t f s) := by
  unfold execSt
  with_reducible repeat' first | (intro _) | assumption | apply issue_goes | apply storeRow_act

theorem execVld_goes {s0 : State} (t : ThreadRef) (f : Fields) (s : State) (hk : Kept s0 s) : Goes s0 (execVld t f s) := by
  unfold execVld
  with_reducible repeat' first | (intro _) | assumption | apply issue_goes | apply loadRow_act

theorem execVst_goes {s0 : State} (t : ThreadRef) (f : Fields) (s : State) (hk : Kept s0 s) : Goes s0 (execVst t f s) := by
  unfold execVst
  with_reducible repeat' first | (intro _) | assumption | apply issue_goes | apply storeRow_act

theorem execVldg_goes {s0 : State} (t : ThreadRef) (f : Fields) (s : State) (hk : Kept s0 s) : Goes s0 (execVldg t f s) := by
  unfold execVldg
  with_reducible repeat' first | (intro _) | assumption | apply issue_goes | apply ActKept.go | apply ActKept.wait | apply ActKept.illegal | apply issue_kept | apply poolAccess_kept | apply privError_kept | apply retire_kept | apply outOfRange_kept | split | dsimp only

theorem execVstg_goes {s0 : State} (t : ThreadRef) (f : Fields) (s : State) (hk : Kept s0 s) : Goes s0 (execVstg t f s) := by
  unfold execVstg
  with_reducible repeat' first | (intro _) | assumption | apply issue_goes | apply ActKept.go | apply ActKept.wait | apply ActKept.illegal | apply writeLocal_getD_kept | apply issue_kept | apply poolAccess_kept | apply privError_kept | apply retire_kept | apply outOfRange_kept | apply foldl_kept_fst | split | dsimp only

theorem execAtom_goes {s0 : State} (t : ThreadRef) (f : Fields) (s : State) (hk : Kept s0 s) : Goes s0 (execAtom t f s) := by
  unfold execAtom
  with_reducible repeat' first | (intro _) | assumption | apply issue_goes | apply ActKept.go | apply ActKept.wait | apply poolAccess_kept | apply outOfRange_kept | apply retire_kept | apply writeScratch_kept | split | dsimp only

theorem tileMove_act {s0 : State} (s : State) (t : ThreadRef) (f : Fields) (load : Bool) (p : Spray) (th : Thread) (hk : Kept s0 s) : ActKept s0 (tileMove s t f load p th) := by
  unfold tileMove
  with_reducible repeat' first | assumption | apply ActKept.go | apply ActKept.wait | apply ActKept.illegal | apply outOfRange_kept | apply poolAccess_kept | split | dsimp only

theorem execTload_goes {s0 : State} (t : ThreadRef) (f : Fields) (s : State) (hk : Kept s0 s) : Goes s0 (execTload t f s) := by
  unfold execTload
  with_reducible repeat' first | (intro _) | assumption | apply issue_goes | apply tileMove_act

theorem execTstore_goes {s0 : State} (t : ThreadRef) (f : Fields) (s : State) (hk : Kept s0 s) : Goes s0 (execTstore t f s) := by
  unfold execTstore
  with_reducible repeat' first | (intro _) | assumption | apply issue_goes | apply tileMove_act

theorem execTwait_goes {s0 : State} (t : ThreadRef) (f : Fields) (s : State) (hk : Kept s0 s) : Goes s0 (execTwait t f s) := by
  unfold execTwait
  with_reducible repeat' first | (intro _) | assumption | apply issue_goes | apply ActKept.go | apply ActKept.wait | apply retire_kept | split

theorem execTilePerformed_goes {s0 : State} (i : Nat) (s : State) (hk : Kept s0 s) : Goes s0 (execTilePerformed i s) := by
  unfold execTilePerformed
  with_reducible repeat' first | assumption | apply Goes.next | apply modThread_kept | apply delTile_kept | apply writeScratch_kept | split

end Sys2Proof.Machine

/-! ### Vector -/

namespace Sys2Proof.Machine

theorem execVop_goes {s0 : State} (t : ThreadRef) (f : Fields) (s : State) (hk : Kept s0 s) : Goes s0 (execVop t f s) := by
  unfold execVop
  with_reducible repeat' first | assumption | apply regOp_goes

theorem execVcmp_goes {s0 : State} (t : ThreadRef) (f : Fields) (s : State) (hk : Kept s0 s) : Goes s0 (execVcmp t f s) := by
  unfold execVcmp
  with_reducible repeat' first | assumption | apply regOp_goes

theorem execVsel_goes {s0 : State} (t : ThreadRef) (f : Fields) (s : State) (hk : Kept s0 s) : Goes s0 (execVsel t f s) := by
  unfold execVsel
  with_reducible repeat' first | assumption | apply regOp_goes

theorem execVbcast_goes {s0 : State} (t : ThreadRef) (f : Fields) (s : State) (hk : Kept s0 s) : Goes s0 (execVbcast t f s) := by
  unfold execVbcast
  with_reducible repeat' first | assumption | apply regOp_goes

theorem execVmovs_goes {s0 : State} (t : ThreadRef) (f : Fields) (s : State) (hk : Kept s0 s) : Goes s0 (execVmovs t f s) := by
  unfold execVmovs
  with_reducible repeat' first | assumption | apply regOp_goes | split

theorem execVsfu_goes {s0 : State} (t : ThreadRef) (f : Fields) (s : State) (hk : Kept s0 s) : Goes s0 (execVsfu t f s) := by
  unfold execVsfu
  with_reducible repeat' first | (intro _) | assumption | apply issue_goes | apply ActKept.go | apply retire_kept | apply useFreeN_kept

theorem execVcvt_goes {s0 : State} (t : ThreadRef) (f : Fields) (s : State) (hk : Kept s0 s) : Goes s0 (execVcvt t f s) := by
  unfold execVcvt
  with_reducible repeat' first | assumption | apply regOp_goes

theorem execVmxq_goes {s0 : State} (t : ThreadRef) (f : Fields) (s : State) (hk : Kept s0 s) : Goes s0 (execVmxq t f s) := by
  unfold execVmxq
  with_reducible repeat' first | assumption | apply regOp_goes

theorem execVmxd_goes {s0 : State} (t : ThreadRef) (f : Fields) (s : State) (hk : Kept s0 s) : Goes s0 (execVmxd t f s) := by
  unfold execVmxd
  with_reducible repeat' first | assumption | apply regOp_goes

theorem dotInstr_goes {s0 : State} (s : State) (t : ThreadRef) (op : Nat) (f : Fields) (broadcast : Bool) (hk : Kept s0 s) : Goes s0 (dotInstr s t op f broadcast) := by
  unfold dotInstr
  with_reducible repeat' first | assumption | apply regOp_goes

theorem execVdot_goes {s0 : State} (t : ThreadRef) (f : Fields) (s : State) (hk : Kept s0 s) : Goes s0 (execVdot t f s) := by
  unfold execVdot
  with_reducible repeat' first | assumption | apply dotInstr_goes

theorem execVdotb_goes {s0 : State} (t : ThreadRef) (f : Fields) (s : State) (hk : Kept s0 s) : Goes s0 (execVdotb t f s) := by
  unfold execVdotb
  with_reducible repeat' first | assumption | apply dotInstr_goes

theorem execAop_goes {s0 : State} (t : ThreadRef) (f : Fields) (s : State) (hk : Kept s0 s) : Goes s0 (execAop t f s) := by
  unfold execAop
  with_reducible repeat' first | assumption | apply regOp_goes

theorem execAread_goes {s0 : State} (t : ThreadRef) (f : Fields) (s : State) (hk : Kept s0 s) : Goes s0 (execAread t f s) := by
  unfold execAread
  with_reducible repeat' first | assumption | apply regOp_goes

theorem execAmovs_goes {s0 : State} (t : ThreadRef) (f : Fields) (s : State) (hk : Kept s0 s) : Goes s0 (execAmovs t f s) := by
  unfold execAmovs
  with_reducible repeat' first | assumption | apply regOp_goes | split

end Sys2Proof.Machine

/-! ### Sprays -/

namespace Sys2Proof.Machine

theorem launch_kept {s0 : State} (s : State) (k : Nat) (r : Req) (hk : Kept s0 s) : Kept s0 (launch s k r) := by
  unfold launch
  with_reducible repeat' first | assumption | apply answerPacket_kept | (refine Kept.upd ?_ rfl rfl rfl rfl rfl rfl rfl; first | assumption | apply useFree_kept | apply answerPacket_kept | apply setSpray_kept) | split | dsimp only

theorem clearScratch_kept {s0 : State} (s : State) (e h : Nat) (hk : Kept s0 s) : Kept s0 (clearScratch s e h) :=
  hk.trans { pending := rfl, clock := rfl, free := Nat.le_refl _, wire := List.prefix_rfl, cells := fun w => ⟨w.bytes, Memory.wf_filter _ w.scratch, w.priv⟩,
             floor := Nat.le_refl _, revoked := BitVec.or_self }

theorem startItem_kept {s0 : State} (s : State) (e h n : Nat) (p : Spray) (i : Nat) (hk : Kept s0 s) : Kept s0 (startItem s e h n p i) := by
  unfold startItem
  with_reducible repeat' first | assumption | apply clearScratch_kept | apply setThread_kept | apply setSpray_kept

theorem writeStatus_kept {s0 : State} (s : State) (n : Nat) (p : Spray) (i st : Nat) (hk : Kept s0 s) : Kept s0 (writeStatus s n p i st) := by
  unfold writeStatus
  with_reducible repeat' first | assumption | apply sprayStore_kept | split

theorem endItem_kept {s0 : State} (s : State) (n i : Nat) (f : Option Failure) (hk : Kept s0 s) : Kept s0 (endItem s n i f) := by
  unfold endItem
  with_reducible repeat' first | assumption | apply writeStatus_kept | apply setSpray_kept | split

theorem endThread_kept {s0 : State} (s : State) (e h : Nat) (th : Thread) (f : Option Failure) (hk : Kept s0 s) : Kept s0 (endThread s e h th f) := by
  unfold endThread
  with_reducible repeat' first | (intro _) | assumption | apply endItem_kept | apply dropThread_kept | apply foldl_kept

theorem stopThread_kept {s0 : State} (s : State) (e h : Nat) (f : Failure) (hk : Kept s0 s) : Kept s0 (stopThread s e h f) := by
  unfold stopThread
  with_reducible repeat' first | assumption | apply failThread_kept | split

theorem stopSpray_kept {s0 : State} (s : State) (n st : Nat) (hk : Kept s0 s) : Kept s0 (stopSpray s n st) := by
  unfold stopSpray
  with_reducible repeat' first | (intro _) | assumption | apply endItem_kept | apply stopThread_kept | apply foldl_kept | split

theorem cancelSpray_kept {s0 : State} (s : State) (n : Nat) (hk : Kept s0 s) : Kept s0 (cancelSpray s n) := by
  unfold cancelSpray
  with_reducible repeat' first | assumption | apply stopSpray_kept | apply modSpray_kept

theorem admitLaunch_kept {s0 : State} (s : State) (k : Nat) (r : Req) (hk : Kept s0 s) : Kept s0 (admitLaunch s k r) := by
  unfold admitLaunch
  with_reducible repeat' first | assumption | apply launch_kept | apply cancelSpray_kept | split | dsimp only

theorem storeAt_kept {s0 : State} (s : State) (n : Nat) (p : Spray) (pva : Nat) (bs : List Byte) (hk : Kept s0 s) : Kept s0 (storeAt s n p pva bs) := by
  unfold storeAt
  with_reducible repeat' first | (intro _) | assumption | apply modSpray_kept | apply sprayStore_kept | apply foldl_kept | split

theorem writeResults_kept {s0 : State} (s : State) (n : Nat) (p : Spray) (hk : Kept s0 s) : Kept s0 (writeResults s n p) := by
  unfold writeResults
  with_reducible repeat' first | (intro _) | assumption | apply modSpray_kept | apply storeAt_kept | apply foldl_kept | split

theorem writeRecord_kept {s0 : State} (s : State) (n : Nat) (p : Spray) (hk : Kept s0 s) : Kept s0 (writeRecord s n p) := by
  unfold writeRecord
  with_reducible repeat' first | assumption | apply sprayStore_kept | apply useFree_kept | apply setSpray_kept

theorem measure_kept {s0 : State} (s : State) (p : Spray) (d : Digest) (hk : Kept s0 s) : Kept s0 (measure s p d) := by
  unfold measure
  with_reducible repeat' first | (refine Kept.upd ?_ rfl rfl rfl rfl rfl rfl rfl; first | assumption)

theorem sendCompletion_kept {s0 : State} (s : State) (n : Nat) (p : Spray) (hk : Kept s0 s) : Kept s0 (sendCompletion s n p) := by
  unfold sendCompletion
  with_reducible repeat' first | (intro _) | apply measure_kept | apply launch_kept | apply epochSub_kept | (refine Kept.upd ?_ rfl rfl rfl rfl rfl rfl rfl; first | assumption | apply measure_kept | apply respond_kept | apply launch_kept | apply modExtent_kept | apply epochSub_kept | apply finish_kept | apply foldl_kept) | split

theorem completeSpray_kept {s0 : State} (s : State) (n : Nat) (hk : Kept s0 s) : Kept s0 (completeSpray s n) := by
  unfold completeSpray
  with_reducible repeat' first | assumption | apply writeResults_kept | apply writeRecord_kept | apply sendCompletion_kept | split | dsimp only

end Sys2Proof.Machine
end

