-- ==== Sys2Proof/Laws/KeptFaults.lean ====
section
/-! SUPPORT. Every operation on the state keeps what no command undoes, and every meaning goes on: Links, Evac, Faults, Requests, HomeEvents. -/

/-! ### Links -/

namespace Sys2Proof.Machine

theorem setFailover_kept {s0 : State} (s : State) (pair : Nat) (f : Failover) (hk : Kept s0 s) : Kept s0 (setFailover s pair f) := by
  unfold setFailover
  with_reducible repeat' first | (refine Kept.upd ?_ rfl rfl rfl rfl rfl rfl rfl; first | assumption)

theorem delFailover_kept {s0 : State} (s : State) (pair : Nat) (hk : Kept s0 s) : Kept s0 (delFailover s pair) := by
  unfold delFailover
  with_reducible repeat' first | (refine Kept.upd ?_ rfl rfl rfl rfl rfl rfl rfl; first | assumption)

theorem useEntries_kept {s0 : State} (s : State) (n : Nat) (vcs : List Nat) (take : Bool) (hk : Kept s0 s) : Kept s0 (useEntries s n vcs take) := by
  unfold useEntries
  with_reducible repeat' first | assumption | apply modPairBuf_kept

theorem dropHeldFlits_kept {s0 : State} (s : State) (n : Nat) (hk : Kept s0 s) : Kept s0 (dropHeldFlits s n) := by
  unfold dropHeldFlits
  with_reducible repeat' first | (intro _) | assumption | apply useEntries_kept | apply modPort_kept | apply foldl_kept

theorem beginExchange_kept {s0 : State} (s : State) (n : Nat) (st : PortState) (prev : Option (Nat × Nat)) (hk : Kept s0 s) : Kept s0 (beginExchange s n st prev) := by
  unfold beginExchange
  with_reducible repeat' first | assumption | apply modPort_kept | apply dropHeldFlits_kept

theorem sendRepeated_kept {s0 : State} (s : State) (n : Nat) (r : CtrlRec) (hk : Kept s0 s) : Kept s0 (sendRepeated s n r) := by
  unfold sendRepeated
  with_reducible repeat' first | assumption | apply sendCtrl_kept | apply modPort_kept

theorem lockFec_kept {s0 : State} (s : State) (n : Nat) (hk : Kept s0 s) : Kept s0 (lockFec s n) := by
  unfold lockFec
  with_reducible repeat' first | assumption | apply sendRepeated_kept | apply modPort_kept

theorem sendQuery_kept {s0 : State} (s : State) (n id : Nat) (hk : Kept s0 s) : Kept s0 (sendQuery s n id) := by
  unfold sendQuery
  with_reducible repeat' first | assumption | apply sendRepeated_kept | split

theorem dropQuery_kept {s0 : State} (s : State) (o : OrphanSet) (hk : Kept s0 s) : Kept s0 (dropQuery s o) := by
  unfold dropQuery
  with_reducible repeat' first | (intro _) | assumption | apply modPort_kept | apply foldl_kept | split

theorem holdOrphans_kept {s0 : State} (s : State) (n : Nat) (f : Failover) (byHello : Bool) (hk : Kept s0 s) : Kept s0 (holdOrphans s n f byHello) := by
  unfold holdOrphans
  with_reducible repeat' first | assumption | (refine Kept.upd ?_ rfl rfl rfl rfl rfl rfl rfl; first | assumption | apply sendQuery_kept) | split

theorem sendElsewhere_kept {s0 : State} (s : State) (n : Nat) (l : List Packet) (hk : Kept s0 s) : Kept s0 (sendElsewhere s n l) := by
  unfold sendElsewhere
  with_reducible repeat' first | (intro _) | assumption | apply replyPort_kept | apply sendOn_kept | apply foldl_kept

theorem endFailover_kept {s0 : State} (s : State) (pair : Nat) (hk : Kept s0 s) : Kept s0 (endFailover s pair) := by
  unfold endFailover
  with_reducible repeat' first | (intro _) | assumption | apply modPort_kept | apply lifeAdd_kept | apply flushPort_kept | apply delFailover_kept | apply sendElsewhere_kept | apply foldl_kept | split

theorem resolveKnown_kept {s0 : State} (s : State) (pair : Nat) (pick : OrphanSet → Bool) (point : Nat) (hk : Kept s0 s) : Kept s0 (resolveKnown s pair pick point) := by
  unfold resolveKnown
  with_reducible repeat' first | assumption | apply dropQuery_kept | apply endFailover_kept | apply setFailover_kept | apply foldl_kept | split

theorem failRequest_kept {s0 : State} (s : State) (p : Packet) (hk : Kept s0 s) : Kept s0 (failRequest s p) := by
  unfold failRequest
  with_reducible repeat' first | assumption | apply failAccess_kept | apply closeForwards_kept | split

theorem unknownSet_kept {s0 : State} (s : State) (o : OrphanSet) (hk : Kept s0 s) : Kept s0 (unknownSet s o) := by
  unfold unknownSet
  with_reducible repeat' first | assumption | apply failRequest_kept | apply modPort_kept | apply noteR_kept | apply foldl_kept | split | dsimp only

theorem resolveUnknown_kept {s0 : State} (s : State) (pair : Nat) (pick : OrphanSet → Bool) (hk : Kept s0 s) : Kept s0 (resolveUnknown s pair pick) := by
  unfold resolveUnknown
  with_reducible repeat' first | assumption | apply unknownSet_kept | apply dropQuery_kept | apply endFailover_kept | apply setFailover_kept | apply foldl_kept | split

theorem answerRetrain_kept {s0 : State} (s : State) (n st : Nat) (hk : Kept s0 s) : Kept s0 (answerRetrain s n st) := by
  unfold answerRetrain
  with_reducible repeat' first | (intro _) | assumption | apply finish_kept | apply modPort_kept | apply foldl_kept

theorem activatePort_kept {s0 : State} (s : State) (n : Nat) (hk : Kept s0 s) : Kept s0 (activatePort s n) := by
  unfold activatePort
  with_reducible repeat' first | apply modPort_kept | apply setFailover_kept | apply flushPort_kept | (refine Kept.upd ?_ rfl rfl rfl rfl rfl rfl rfl; first | assumption | apply modPort_kept | apply finish_kept | apply setFailover_kept | apply endFailover_kept | apply flushPort_kept | apply answerRetrain_kept) | split

theorem bringUpPartner_kept {s0 : State} (s : State) (n : Nat) (hk : Kept s0 s) : Kept s0 (bringUpPartner s n).2 := by
  unfold bringUpPartner
  with_reducible repeat' first | assumption | apply yieldSlice_kept | apply beginExchange_kept | apply noteR_kept | apply activatePort_kept | split | dsimp only

theorem reroute_kept {s0 : State} (s : State) (n : Nat) (hk : Kept s0 s) : Kept s0 (reroute s n) := by
  unfold reroute
  with_reducible repeat' first | (intro _) | assumption | apply replyPort_kept | apply modPort_kept | apply sendOn_kept | apply foldl_kept | split | dsimp only

theorem dropActive_kept {s0 : State} (s : State) (n : Nat) (st : PortState) (hk : Kept s0 s) : Kept s0 (dropActive s n st) := by
  unfold dropActive
  with_reducible repeat' first | assumption | apply holdOrphans_kept | apply reroute_kept | apply modPort_kept | apply dropHeldFlits_kept

theorem undoChange_kept {s0 : State} (s : State) (pair st : Nat) (hk : Kept s0 s) : Kept s0 (undoChange s pair st) := by
  unfold undoChange
  with_reducible repeat' first | assumption | apply flushPort_kept | apply modPort_kept | apply dropQuery_kept | apply delFailover_kept | apply finish_kept | apply foldl_kept | split

theorem endChange_kept {s0 : State} (s : State) (f : Failover) (hk : Kept s0 s) : Kept s0 (endChange s f) := by
  unfold endChange
  with_reducible repeat' first | assumption | apply activatePort_kept | apply modPort_kept | apply dropHeldFlits_kept

theorem helloLost_kept {s0 : State} (s : State) (n : Nat) (hk : Kept s0 s) : Kept s0 (helloLost s n) := by
  unfold helloLost
  with_reducible repeat' first | (intro _) | assumption | apply setFailover_kept | apply sendQuery_kept | apply foldl_kept | split

theorem failInPlace_kept {s0 : State} (s : State) (n : Nat) (f : Failover) (hk : Kept s0 s) : Kept s0 (failInPlace s n f) := by
  unfold failInPlace
  with_reducible repeat' first | assumption | apply helloLost_kept | apply setFailover_kept

theorem sideFailed_kept {s0 : State} (s : State) (n st : Nat) (hk : Kept s0 s) : Kept s0 (sideFailed s n st).2 := by
  unfold sideFailed
  with_reducible repeat' first | assumption | apply undoChange_kept | apply bringUpPartner_kept | apply failInPlace_kept | apply finish_kept | apply setFailover_kept | apply activatePort_kept | split | dsimp only

theorem formMap_kept {s0 : State} (s : State) (n : Nat) (map : List Nat) (hk : Kept s0 s) : Kept s0 (formMap s n map) := by
  unfold formMap
  with_reducible repeat' first | assumption | apply modPort_kept

theorem trained_kept {s0 : State} (s : State) (n : Nat) (hk : Kept s0 s) : Kept s0 (trained s n) := by
  unfold trained
  with_reducible repeat' first | assumption | apply replaced_kept | apply lifeAdd_kept | apply modPort_kept | apply useFree_kept | split

theorem settlePair_kept {s0 : State} (s : State) (pair : Nat) (hk : Kept s0 s) : Kept s0 (settlePair s pair).2 := by
  unfold settlePair
  with_reducible repeat' first | assumption | apply modPort_kept | apply activatePort_kept | split | dsimp only

theorem settleBoth_kept {s0 : State} (s : State) (pair : Nat) (hk : Kept s0 s) : Kept s0 (settleBoth s pair).2 := by
  unfold settleBoth
  with_reducible repeat' first | assumption | apply settlePair_kept | split

theorem portDone_kept {s0 : State} (s : State) (n : Nat) (hk : Kept s0 s) : Kept s0 (portDone s n) := by
  unfold portDone
  with_reducible repeat' first | (refine Kept.upd ?_ rfl rfl rfl rfl rfl rfl rfl; first | assumption)

theorem standBy_kept {s0 : State} (s : State) (n : Nat) (hk : Kept s0 s) : Kept s0 (standBy s n) := by
  unfold standBy
  with_reducible repeat' first | assumption | apply modPort_kept | apply activatePort_kept | split

theorem resetInPlace_kept {s0 : State} (s : State) (n : Nat) (hk : Kept s0 s) : Kept s0 (resetInPlace s n) := by
  unfold resetInPlace
  with_reducible repeat' first | assumption | apply holdOrphans_kept | apply reroute_kept | apply beginExchange_kept

end Sys2Proof.Machine

/-! ### Evac -/

namespace Sys2Proof.Machine

theorem dropLock_kept {s0 : State} (s : State) (l stripe : Nat) (kind : LockKind) (hk : Kept s0 s) : Kept s0 (dropLock s l stripe kind) := by
  unfold dropLock
  with_reducible repeat' first | (refine Kept.upd ?_ rfl rfl rfl rfl rfl rfl rfl; first | assumption)

theorem askLock_kept {s0 : State} (s : State) (l stripe : Nat) (kind : LockKind) (hk : Kept s0 s) : Kept s0 (askLock s l stripe kind) := by
  unfold askLock
  with_reducible repeat' first | assumption | (refine Kept.upd ?_ rfl rfl rfl rfl rfl rfl rfl; first | assumption | apply dropLock_kept)

theorem commitOpen_kept {s0 : State} (s : State) (l stripe : Nat) (hk : Kept s0 s) : Kept s0 (commitOpen s l stripe) := by
  unfold commitOpen
  with_reducible repeat' first | assumption | apply commitEntry_kept | split

theorem underLock_kept {s0 : State} (s : State) (l stripe : Nat) (kind : LockKind) (act : State → State) (h_act : ∀ {s1}, Kept s0 s1 → Kept s0 (act s1)) (hk : Kept s0 s) : Kept s0 (underLock s l stripe kind act) := by
  unfold underLock
  with_reducible repeat' first | assumption | apply h_act | apply dropLock_kept | apply commitOpen_kept | apply askLock_kept | split

theorem answerLimit_kept {s0 : State} (s : State) (h : OrderHdr) (hk : Kept s0 s) : Kept s0 (answerLimit s h) := by
  unfold answerLimit
  with_reducible repeat' first | assumption | apply finish_kept | split

theorem stackOff_kept {s0 : State} (s : State) (p : Nat) (hk : Kept s0 s) : Kept s0 (stackOff s p) := by
  unfold stackOff
  with_reducible repeat' first | assumption | apply answerLimit_kept | apply modStack_kept | apply foldl_kept

theorem takeSpareStack_kept {s0 : State} (s : State) (p cause : Nat) (waits : List OrderHdr) (hk : Kept s0 s) : Kept s0 (takeSpareStack s p cause waits) := by
  unfold takeSpareStack
  with_reducible repeat' first | apply lifeAdd_kept | (refine Kept.upd ?_ rfl rfl rfl rfl rfl rfl rfl; first | assumption | apply lifeAdd_kept | apply modRegFault_kept)

theorem triggerEvac_kept {s0 : State} (s : State) (p cause : Nat) (hk : Kept s0 s) : Kept s0 (triggerEvac s p cause).2 := by
  unfold triggerEvac
  with_reducible repeat' first | assumption | apply takeSpareStack_kept | apply noteR_kept | split

theorem setEvac_kept {s0 : State} (s : State) (k : Nat) (e : Evac) (hk : Kept s0 s) : Kept s0 (setEvac s k e) := by
  unfold setEvac
  with_reducible repeat' first | (refine Kept.upd ?_ rfl rfl rfl rfl rfl rfl rfl; first | assumption)

theorem delEvac_kept {s0 : State} (s : State) (k : Nat) (hk : Kept s0 s) : Kept s0 (delEvac s k) := by
  unfold delEvac
  with_reducible repeat' first | (refine Kept.upd ?_ rfl rfl rfl rfl rfl rfl rfl; first | assumption)

theorem beginEvac_kept {s0 : State} (s : State) (k : Nat) (e : Evac) (hk : Kept s0 s) : Kept s0 (beginEvac s k e) := by
  unfold beginEvac
  with_reducible repeat' first | (intro _) | assumption | apply modStack_kept | apply loadTiming_kept | apply setEvac_kept | apply foldl_kept | split

theorem storeStripe_kept {s0 : State} (s : State) (p stripe : Nat) (chunks : List (Option Line)) (hk : Kept s0 s) : Kept s0 (storeStripe s p stripe chunks) := by
  unfold storeStripe
  with_reducible repeat' first | (intro _) | assumption | apply storeChunk_kept | apply storeMark_kept | apply foldl_kept | split | dsimp only

theorem readStripe_kept {s0 : State} (s : State) (l stripe source : Nat) (hk : Kept s0 s) : Kept s0 (readStripe s l stripe source).2 := by
  unfold readStripe
  with_reducible repeat' first | (intro _) | assumption | apply readChunk_kept | apply foldl_kept_snd

theorem copyStripe_kept {s0 : State} (s : State) (k stripe : Nat) (e : Evac) (hk : Kept s0 s) : Kept s0 (copyStripe s k stripe e) := by
  unfold copyStripe
  with_reducible repeat' first | (intro _) | assumption | apply underLock_kept | apply readStripe_kept | apply storeStripe_kept | apply modStack_kept | apply setEvac_kept

theorem stackFlags_kept {s0 : State} (s : State) (p : Nat) (retired serves : Bool) (hk : Kept s0 s) : Kept s0 (stackFlags s p retired serves) := by
  unfold stackFlags
  with_reducible repeat' first | (refine Kept.upd ?_ rfl rfl rfl rfl rfl rfl rfl; first | assumption)

theorem recordRetired_kept {s0 : State} (s : State) (p l cause : Nat) (hk : Kept s0 s) : Kept s0 (recordRetired s p l cause) := by
  unfold recordRetired
  with_reducible repeat' first | assumption | apply eventRec_kept | apply stackFlags_kept | apply modStack_kept

theorem stackReplaced_kept {s0 : State} (s : State) (p : Nat) (hk : Kept s0 s) : Kept s0 (stackReplaced s p) := by
  unfold stackReplaced
  with_reducible repeat' first | (intro _) | assumption | apply replaced_kept | apply foldl_kept | split | dsimp only

theorem cutover_kept {s0 : State} (s : State) (k : Nat) (e : Evac) (hk : Kept s0 s) : Kept s0 (cutover s k e) := by
  unfold cutover
  with_reducible repeat' first | (intro _) | assumption | apply stackReplaced_kept | apply stackFlags_kept | apply finish_kept | (refine Kept.upd ?_ rfl rfl rfl rfl rfl rfl rfl; first | assumption | apply stackOff_kept | apply stackReplaced_kept | apply modStack_kept | apply stackFlags_kept | apply recordRetired_kept | apply finish_kept | apply delEvac_kept | apply foldl_kept) | split

theorem abandonEvac_kept {s0 : State} (s : State) (k : Nat) (e : Evac) (hk : Kept s0 s) : Kept s0 (abandonEvac s k e) := by
  unfold abandonEvac
  with_reducible repeat' first | (intro _) | assumption | apply unitOut_kept | apply stackOff_kept | apply modStack_kept | apply stackFlags_kept | apply modRegFault_kept | apply finish_kept | apply delEvac_kept | apply foldl_kept

theorem beginRejoin_kept {s0 : State} (s : State) (p c : Nat) (hk : Kept s0 s) : Kept s0 (beginRejoin s p c) := by
  unfold beginRejoin
  with_reducible repeat' first | assumption | apply modChan_kept

theorem rejoinStripe_kept {s0 : State} (s : State) (p c l stripe : Nat) (hk : Kept s0 s) : Kept s0 (rejoinStripe s p c l stripe) := by
  unfold rejoinStripe
  with_reducible repeat' first | assumption | apply rebuildParity_kept | apply storeChunk_kept | apply readChunk_kept | apply storeMark_kept | split | dsimp only

theorem rejoinDone_kept {s0 : State} (s : State) (p c : Nat) (hk : Kept s0 s) : Kept s0 (rejoinDone s p c) := by
  unfold rejoinDone
  with_reducible repeat' first | assumption | apply modChan_kept | apply refreshAll_kept | apply modStack_kept | apply unitBack_kept | apply noteR_kept

theorem dropBursts_kept {s0 : State} (s : State) (p c : Nat) (hk : Kept s0 s) : Kept s0 (dropBursts s p c) := by
  unfold dropBursts
  with_reducible repeat' first | assumption | (refine Kept.upd ?_ rfl rfl rfl rfl rfl rfl rfl; first | assumption | apply modPchan_kept)

theorem fenceChan_kept {s0 : State} (s : State) (p c : Nat) (hk : Kept s0 s) : Kept s0 (fenceChan s p c) := by
  unfold fenceChan
  with_reducible repeat' first | assumption | apply modStack_kept | apply modChan_kept | apply dropBursts_kept

theorem doubleFenceEntry_kept {s0 : State} (s : State) (p position : Nat) (hk : Kept s0 s) : Kept s0 (doubleFenceEntry s p position) := by
  unfold doubleFenceEntry
  with_reducible repeat' first | assumption | apply logPoison_kept

end Sys2Proof.Machine

/-! ### Faults -/

namespace Sys2Proof.Machine

theorem redoItem_kept {s0 : State} (s : State) (n i e : Nat) (hk : Kept s0 s) : Kept s0 (redoItem s n i e) := by
  unfold redoItem
  with_reducible repeat' first | assumption | apply endItem_kept | apply setSpray_kept | split | dsimp only

theorem orphanTiles_kept {s0 : State} (s : State) (e h : Nat) (hk : Kept s0 s) : Kept s0 (orphanTiles s e h) := by
  unfold orphanTiles
  with_reducible repeat' first | (intro _) | apply closeForwards_kept | apply dropHeld_kept | apply delTile_kept | (refine Kept.upd ?_ rfl rfl rfl rfl rfl rfl rfl; first | assumption | apply closeForwards_kept | apply delAccess_kept | apply dropHeld_kept | apply modCollect_kept | apply delTile_kept | apply setTile_kept | apply foldl_kept) | split | dsimp only

theorem loseThread_kept {s0 : State} (s : State) (e h : Nat) (th : Thread) (hk : Kept s0 s) : Kept s0 (loseThread s e h th) := by
  unfold loseThread
  with_reducible repeat' first | (intro _) | assumption | apply orphanTiles_kept | apply dropThread_kept | apply endThread_kept | apply redoItem_kept | apply foldl_kept | split | dsimp only

theorem holdSpare_kept {s0 : State} (s : State) (k j : Nat) (hk : Kept s0 s) : Kept s0 (holdSpare s k j) := by
  unfold holdSpare
  with_reducible repeat' first | assumption | apply modPhys_kept | apply yieldSlice_kept

theorem takeSpareEngine_kept {s0 : State} (s : State) (k j : Nat) (hk : Kept s0 s) : Kept s0 (takeSpareEngine s k j) := by
  unfold takeSpareEngine
  with_reducible repeat' first | assumption | apply lifeAdd_kept | apply holdSpare_kept

theorem beginMove_kept {s0 : State} (s : State) (e : Nat) (hk : Kept s0 s) : Kept s0 (beginMove s e).2 := by
  unfold beginMove
  with_reducible repeat' first | assumption | apply modLogEng_kept | apply holdSpare_kept | split | dsimp only

theorem moveElsewhere_kept {s0 : State} (s : State) (k i : Nat) (hk : Kept s0 s) : Kept s0 (moveElsewhere s k i) := by
  unfold moveElsewhere
  with_reducible repeat' first | assumption | apply beginMove_kept | apply modLogEng_kept | apply wakeResumed_kept | apply modBist_kept | split | dsimp only

theorem loseEngine_kept {s0 : State} (s : State) (k i : Nat) (withheld : Bool) (hk : Kept s0 s) : Kept s0 (loseEngine s k i withheld).2 := by
  unfold loseEngine
  with_reducible repeat' first | (intro _) | assumption | apply moveElsewhere_kept | apply takeSpareEngine_kept | (refine Kept.upd ?_ rfl rfl rfl rfl rfl rfl rfl; first | assumption | apply modPhys_kept | apply moveElsewhere_kept | apply modLogEng_kept | apply takeSpareEngine_kept | apply loseThread_kept | apply foldl_kept) | split | dsimp only

theorem answerHeld_kept {s0 : State} (s : State) (k st : Nat) (hk : Kept s0 s) : Kept s0 (answerHeld s k st) := by
  unfold answerHeld
  with_reducible repeat' first | (intro _) | assumption | apply modRegion_kept | apply answerDone_kept | apply foldl_kept | split

theorem stopWork_kept {s0 : State} (s : State) (st : Nat) (hk : Kept s0 s) : Kept s0 (stopWork s st) := by
  unfold stopWork
  with_reducible repeat' first | (intro _) | assumption | apply stopSpray_kept | (refine Kept.upd ?_ rfl rfl rfl rfl rfl rfl rfl; first | assumption | apply answerHeld_kept | apply stopSpray_kept | apply sliceOver_kept | apply foldl_kept)

theorem halt_kept {s0 : State} (s : State) (hk : Kept s0 s) : Kept s0 (halt s) := by
  unfold halt
  with_reducible repeat' first | apply stopWork_kept | (refine Kept.upd ?_ rfl rfl rfl rfl rfl rfl rfl; first | assumption | apply stopWork_kept | apply lifeAdd_kept)

theorem markEntries_kept {s0 : State} (s : State) (ws : List Nat) (hk : Kept s0 s) : Kept s0 (markEntries s ws) := by
  unfold markEntries
  with_reducible repeat' first | assumption | (refine Kept.upd ?_ rfl rfl rfl rfl rfl rfl rfl; first | assumption | apply rebuild_kept)

theorem loseSlice_kept {s0 : State} (s : State) (k slice : Nat) (hk : Kept s0 s) : Kept s0 (loseSlice s k slice) := by
  unfold loseSlice
  with_reducible repeat' first | assumption | (refine Kept.upd ?_ rfl rfl rfl rfl rfl rfl rfl; first | assumption | apply markEntries_kept)

theorem bypassSlice_kept {s0 : State} (s : State) (k slice : Nat) (hk : Kept s0 s) : Kept s0 (bypassSlice s k slice) := by
  unfold bypassSlice
  with_reducible repeat' first | assumption | (refine Kept.upd ?_ rfl rfl rfl rfl rfl rfl rfl; first | assumption | apply loseSlice_kept) | split

theorem rehomeDir_kept {s0 : State} (s : State) (k : Nat) (hk : Kept s0 s) : Kept s0 (rehomeDir s k) := by
  unfold rehomeDir
  with_reducible repeat' first | (intro _) | assumption | apply loseSlice_kept | apply markEntries_kept | apply foldl_kept

theorem trimSet_kept {s0 : State} (s : State) (set : Nat) (hk : Kept s0 s) : Kept s0 (trimSet s set) := by
  unfold trimSet
  with_reducible repeat' first | assumption | (refine Kept.upd ?_ rfl rfl rfl rfl rfl rfl rfl; first | assumption | apply useFree_kept) | split | dsimp only

theorem loseWay_kept {s0 : State} (s : State) (k slice set : Nat) (withheld : Bool) (hk : Kept s0 s) : Kept s0 (loseWay s k slice set withheld).2 := by
  unfold loseWay
  with_reducible repeat' first | assumption | apply trimSet_kept | (refine Kept.upd ?_ rfl rfl rfl rfl rfl rfl rfl; first | assumption | apply lifeAdd_kept | apply trimSet_kept | apply bypassSlice_kept) | split | dsimp only

theorem loseStacks_kept {s0 : State} (s : State) (k : Nat) (hk : Kept s0 s) : Kept s0 (loseStacks s k) := by
  unfold loseStacks
  with_reducible repeat' first | (intro _) | assumption | apply stackFlags_kept | apply doubleFenceEntry_kept | apply useFree_kept | apply modStack_kept | apply stackOff_kept | apply foldl_kept | split

theorem losePort_kept {s0 : State} (s : State) (n : Nat) (hk : Kept s0 s) : Kept s0 (losePort s n) := by
  unfold losePort
  with_reducible repeat' first | assumption | apply dropActive_kept | apply modPort_kept | apply helloLost_kept | apply answerRetrain_kept | split

theorem loseBuffers_kept {s0 : State} (s : State) (k : Nat) (hk : Kept s0 s) : Kept s0 (loseBuffers s k) := by
  unfold loseBuffers
  exact Kept.upd hk rfl rfl rfl rfl rfl rfl rfl

theorem loseEngines_kept {s0 : State} (s : State) (k : Nat) (hk : Kept s0 s) : Kept s0 (loseEngines s k) := by
  unfold loseEngines
  with_reducible repeat' first | (intro _) | assumption | apply modPhys_kept | apply modLogEng_kept | apply loseThread_kept | apply foldl_kept

theorem loseTables_kept {s0 : State} (s : State) (hk : Kept s0 s) : Kept s0 (loseTables s) := by
  unfold loseTables
  exact Kept.upd hk rfl rfl rfl rfl rfl rfl rfl

theorem loseRegion_kept {s0 : State} (s : State) (k : Nat) (hk : Kept s0 s) : Kept s0 (loseRegion s k) := by
  unfold loseRegion
  with_reducible repeat' first | (intro _) | assumption | apply modRegFault_kept | apply abandonEvac_kept | apply loseBuffers_kept | apply stopSpray_kept | apply loseEngines_kept | apply rehomeDir_kept | (refine Kept.upd ?_ rfl rfl rfl rfl rfl rfl rfl; first | assumption | apply sliceOver_kept | apply writeBackValid_kept | apply loseStacks_kept | apply loseTables_kept | apply losePort_kept | apply reloadValid_kept | apply foldl_kept) | split

theorem switchPhase_kept {s0 : State} (s : State) (rail : Nat) (hk : Kept s0 s) : Kept s0 (switchPhase s rail).2 := by
  unfold switchPhase
  with_reducible repeat' first | assumption | (refine Kept.upd ?_ rfl rfl rfl rfl rfl rfl rfl; first | assumption | apply lifeAdd_kept) | split

theorem losePhase_kept {s0 : State} (s : State) (rail phase : Nat) (withheld : Bool) (hk : Kept s0 s) : Kept s0 (losePhase s rail phase withheld).2 := by
  unfold losePhase
  with_reducible repeat' first | assumption | (refine Kept.upd ?_ rfl rfl rfl rfl rfl rfl rfl; first | assumption | apply switchPhase_kept) | split | dsimp only

theorem replacing_kept {s0 : State} (s : State) (f : FaultIn) (hk : Kept s0 s) : Kept s0 (replacing s f) := by
  unfold replacing
  with_reducible repeat' first | (refine Kept.upd ?_ rfl rfl rfl rfl rfl rfl rfl; first | assumption)

theorem outOrSpare_kept {s0 : State} (s : State) (f : FaultIn) (seq : Nat) (held : Bool) (spare : Option Nat) (hk : Kept s0 s) : Kept s0 (outOrSpare s f seq held spare) := by
  unfold outOrSpare
  with_reducible repeat' first | assumption | apply replacing_kept | apply tookSpare_kept | apply unitOut_kept | split

theorem channelReaction_kept {s0 : State} (again : State → FaultIn → State) (s : State) (f : FaultIn) (seq : Nat) (held : Bool) (h_again : ∀ {s1} x0, Kept s0 s1 → Kept s0 (again s1 x0)) (hk : Kept s0 s) : Kept s0 (channelReaction again s f seq held) := by
  unfold channelReaction
  with_reducible repeat' first | assumption | apply h_again | apply fenceChan_kept | apply doubleFenceEntry_kept | apply unitOut_kept | apply triggerEvac_kept | apply tookSpare_kept | split | dsimp only

theorem portReaction_kept {s0 : State} (again : State → FaultIn → State) (s : State) (f : FaultIn) (seq : Nat) (held : Bool) (h_again : ∀ {s1} x0, Kept s0 s1 → Kept s0 (again s1 x0)) (hk : Kept s0 s) : Kept s0 (portReaction again s f seq held) := by
  unfold portReaction
  with_reducible repeat' first | assumption | apply h_again | apply answerRetrain_kept | apply modPort_kept | apply unitOut_kept | apply bringUpPartner_kept | apply replacing_kept | apply tookSpare_kept | apply dropActive_kept | apply settleBoth_kept | apply portDone_kept | apply failInPlace_kept | apply sideFailed_kept | apply helloLost_kept | split | dsimp only

theorem engineReaction_kept {s0 : State} (s : State) (f : FaultIn) (seq : Nat) (held : Bool) (hk : Kept s0 s) : Kept s0 (engineReaction s f seq held) := by
  unfold engineReaction
  with_reducible repeat' first | assumption | apply loseEngine_kept | apply outOrSpare_kept | split | dsimp only

theorem sliceReaction_kept {s0 : State} (s : State) (f : FaultIn) (hk : Kept s0 s) : Kept s0 (sliceReaction s f) := by
  unfold sliceReaction
  with_reducible repeat' first | assumption | apply bypassSlice_kept | apply carryOn_kept | apply unitOut_kept | split

theorem pairReaction_kept {s0 : State} (again : State → FaultIn → State) (s : State) (f : FaultIn) (seq : Nat) (h_again : ∀ {s1} x0, Kept s0 s1 → Kept s0 (again s1 x0)) (hk : Kept s0 s) : Kept s0 (pairReaction again s f seq) := by
  unfold pairReaction
  with_reducible repeat' first | assumption | apply h_again | apply carryOn_kept | apply tookSpare_kept | (refine Kept.upd ?_ rfl rfl rfl rfl rfl rfl rfl; first | assumption | apply h_again | apply yieldSlice_kept | apply unitOut_kept | apply lifeAdd_kept) | split | dsimp only

theorem fenceLink_kept {s0 : State} (s : State) (k i : Nat) (hk : Kept s0 s) : Kept s0 (fenceLink s k i) := by
  unfold fenceLink
  with_reducible repeat' first | assumption | (refine Kept.upd ?_ rfl rfl rfl rfl rfl rfl rfl; first | assumption) | split

theorem unitReaction_kept {s0 : State} (again : State → FaultIn → State) (s : State) (f : FaultIn) (seq : Nat) (held : Bool) (h_again : ∀ {s1} x0, Kept s0 s1 → Kept s0 (again s1 x0)) (hk : Kept s0 s) : Kept s0 (unitReaction again s f seq held) := by
  unfold unitReaction
  with_reducible repeat' first | assumption | apply h_again | apply carryOn_kept | apply channelReaction_kept | apply portReaction_kept | apply modRegFault_kept | (refine Kept.upd ?_ rfl rfl rfl rfl rfl rfl rfl; first | assumption | apply h_again | apply pairReaction_kept | apply unitOut_kept | apply engineReaction_kept | apply sliceReaction_kept | apply fenceLink_kept) | split | dsimp only

theorem stackTrainReaction_kept {s0 : State} (again : State → FaultIn → State) (s : State) (f : FaultIn) (seq : Nat) (held : Bool) (h_again : ∀ {s1} x0, Kept s0 s1 → Kept s0 (again s1 x0)) (hk : Kept s0 s) : Kept s0 (stackTrainReaction again s f seq held) := by
  unfold stackTrainReaction
  with_reducible repeat' first | assumption | apply h_again | apply modStack_kept | apply stackOff_kept | apply recordRetired_kept | apply unitOut_kept | apply modRegFault_kept | apply replacing_kept | apply tookSpare_kept | apply lifeAdd_kept | split | dsimp only

theorem phaseReaction_kept {s0 : State} (again : State → FaultIn → State) (s : State) (f : FaultIn) (seq : Nat) (held : Bool) (h_again : ∀ {s1} x0, Kept s0 s1 → Kept s0 (again s1 x0)) (hk : Kept s0 s) : Kept s0 (phaseReaction again s f seq held) := by
  unfold phaseReaction
  with_reducible repeat' first | assumption | apply h_again | apply losePhase_kept | apply outOrSpare_kept | split | dsimp only

theorem pllReaction_kept {s0 : State} (again : State → FaultIn → State) (s : State) (f : FaultIn) (seq : Nat) (h_again : ∀ {s1} x0, Kept s0 s1 → Kept s0 (again s1 x0)) (hk : Kept s0 s) : Kept s0 (pllReaction again s f seq) := by
  unfold pllReaction
  with_reducible repeat' first | assumption | apply unitOut_kept | apply tookSpare_kept | (refine Kept.upd ?_ rfl rfl rfl rfl rfl rfl rfl; first | assumption | apply h_again | apply unitOut_kept | apply replacing_kept | apply tookSpare_kept | apply lifeAdd_kept) | split | dsimp only

theorem reaction_kept {s0 : State} (again : State → FaultIn → State) (s : State) (f : FaultIn) (seq : Nat) (held : Bool) (h_again : ∀ {s1} x0, Kept s0 s1 → Kept s0 (again s1 x0)) (hk : Kept s0 s) : Kept s0 (reaction again s f seq held) := by
  unfold reaction
  with_reducible repeat' first | assumption | apply h_again | apply modStack_kept | apply abandonEvac_kept | apply endFailover_kept | apply loseWay_kept | apply sliceReaction_kept | apply pairReaction_kept | apply phaseReaction_kept | apply unitReaction_kept | apply Kept.ite | (refine Kept.upd ?_ rfl rfl rfl rfl rfl rfl rfl; first | assumption | apply h_again | apply unitOut_kept | apply channelReaction_kept | apply portReaction_kept | apply engineReaction_kept | apply outOrSpare_kept | apply fenceLink_kept | apply pllReaction_kept | apply stackTrainReaction_kept | apply loseRegion_kept) | split

theorem raiseN_kept {s0 : State} : ∀ (n : Nat) (s : State) (f : FaultIn), Kept s0 s → Kept s0 (raiseN n s f)
  | 0, _, _, h => h
  | n + 1, s, f, h => by
    unfold raiseN
    refine tagWithheld_kept _ _ (reaction_kept _ _ _ _ _ (fun {s1 x0} hs => raiseN_kept n s1 x0 hs) ?_)
    exact Kept.ite (halt_kept _ (latch_kept _ _ h)) (latch_kept _ _ h)

theorem raise_kept {s0 : State} (s : State) (f : FaultIn) (hk : Kept s0 s) : Kept s0 (raise s f) := by
  unfold raise
  with_reducible repeat' first | assumption | apply answerWaits_kept | apply raiseN_kept

theorem raiseR_kept {s0 : State} (s : State) (k unit_ cause : Nat) (detail : Nat := 0) (hk : Kept s0 s) : Kept s0 (raiseR s k unit_ cause detail) := by
  unfold raiseR
  with_reducible repeat' first | assumption | apply raise_kept

theorem startEngine_kept {s0 : State} (s : State) (o : OutUnit) (hk : Kept s0 s) : Kept s0 (startEngine s o).2 := by
  unfold startEngine
  with_reducible repeat' first | assumption | apply beginMove_kept | apply lifeAdd_kept | split | dsimp only

theorem startPartner_kept {s0 : State} (s : State) (o : OutUnit) (n : Nat) (hk : Kept s0 s) : Kept s0 (startPartner s o n).2 := by
  unfold startPartner
  with_reducible repeat' first | assumption | apply bringUpPartner_kept | apply replacing_kept | split | dsimp only

theorem startWay_kept {s0 : State} (s : State) (o : OutUnit) (hk : Kept s0 s) : Kept s0 (startWay s o).2 := by
  unfold startWay
  with_reducible repeat' first | assumption | apply unitBack_kept | (refine Kept.upd ?_ rfl rfl rfl rfl rfl rfl rfl; first | assumption | apply replacing_kept | apply lifeAdd_kept) | split

theorem startPhase_kept {s0 : State} (s : State) (o : OutUnit) (hk : Kept s0 s) : Kept s0 (startPhase s o).2 := by
  unfold startPhase
  with_reducible repeat' first | assumption | apply switchPhase_kept | apply replacing_kept | apply unitBack_kept | split | dsimp only

theorem startStack_kept {s0 : State} (s : State) (o : OutUnit) (hk : Kept s0 s) : Kept s0 (startStack s o).2 := by
  unfold startStack
  with_reducible repeat' first | assumption | apply modRegFault_kept | apply replacing_kept | apply modStack_kept | apply lifeAdd_kept | split

theorem startReplacement_kept {s0 : State} (s : State) (o : OutUnit) (hk : Kept s0 s) : Kept s0 (startReplacement s o).2 := by
  unfold startReplacement
  with_reducible repeat' first | assumption | apply carryOn_kept | apply triggerEvac_kept | apply unitBack_kept | apply startEngine_kept | apply startPartner_kept | apply startWay_kept | apply startPhase_kept | apply startStack_kept | split | dsimp only

theorem startWithheld_kept {s0 : State} (s : State) (pick : OutUnit → Bool) (hk : Kept s0 s) : Kept s0 (startWithheld s pick) := by
  unfold startWithheld
  with_reducible repeat' first | (intro _) | assumption | (refine Kept.upd ?_ rfl rfl rfl rfl rfl rfl rfl; first | assumption | apply startReplacement_kept | apply foldl_kept)

end Sys2Proof.Machine

/-! ### Requests -/

namespace Sys2Proof.Machine

theorem typedRequest_goes {s0 : State} (op : Nat) (via : Via) (p : Packet) (s : State) (hk : Kept s0 s) : Goes s0 (typedRequest op via p s) := by
  unfold typedRequest
  with_reducible repeat' first | assumption | apply Goes.when | apply packetRequest_kept

theorem typedAnswer_goes {s0 : State} (op : Nat) (via : Via) (p : Packet) (s : State) (hk : Kept s0 s) : Goes s0 (typedAnswer op via p s) := by
  unfold typedAnswer
  with_reducible repeat' first | assumption | apply Goes.when | apply packetAnswer_kept

theorem typedResponse_goes {s0 : State} (op : Nat) (via : Via) (p : Packet) (s : State) (hk : Kept s0 s) : Goes s0 (typedResponse op via p s) := by
  unfold typedResponse
  with_reducible repeat' first | assumption | apply Goes.when | apply packetResponse_kept

theorem execRead_goes {s0 : State} (via : Via) (p : Packet) (s : State) (hk : Kept s0 s) : Goes s0 (execRead via p s) := by
  unfold execRead
  with_reducible repeat' first | assumption | apply typedRequest_goes

theorem execWrite_goes {s0 : State} (via : Via) (p : Packet) (s : State) (hk : Kept s0 s) : Goes s0 (execWrite via p s) := by
  unfold execWrite
  with_reducible repeat' first | assumption | apply typedRequest_goes

theorem execReadNoalloc_goes {s0 : State} (via : Via) (p : Packet) (s : State) (hk : Kept s0 s) : Goes s0 (execReadNoalloc via p s) := by
  unfold execReadNoalloc
  with_reducible repeat' first | assumption | apply typedRequest_goes

theorem execWriteNoalloc_goes {s0 : State} (via : Via) (p : Packet) (s : State) (hk : Kept s0 s) : Goes s0 (execWriteNoalloc via p s) := by
  unfold execWriteNoalloc
  with_reducible repeat' first | assumption | apply typedRequest_goes

theorem execReadShared_goes {s0 : State} (via : Via) (p : Packet) (s : State) (hk : Kept s0 s) : Goes s0 (execReadShared via p s) := by
  unfold execReadShared
  with_reducible repeat' first | assumption | apply typedRequest_goes

theorem execReadOwn_goes {s0 : State} (via : Via) (p : Packet) (s : State) (hk : Kept s0 s) : Goes s0 (execReadOwn via p s) := by
  unfold execReadOwn
  with_reducible repeat' first | assumption | apply typedRequest_goes

theorem execUpgrade_goes {s0 : State} (via : Via) (p : Packet) (s : State) (hk : Kept s0 s) : Goes s0 (execUpgrade via p s) := by
  unfold execUpgrade
  with_reducible repeat' first | assumption | apply typedRequest_goes

theorem execZeroLine_goes {s0 : State} (via : Via) (p : Packet) (s : State) (hk : Kept s0 s) : Goes s0 (execZeroLine via p s) := by
  unfold execZeroLine
  with_reducible repeat' first | assumption | apply typedRequest_goes

theorem execAtomicAdd_goes {s0 : State} (via : Via) (p : Packet) (s : State) (hk : Kept s0 s) : Goes s0 (execAtomicAdd via p s) := by
  unfold execAtomicAdd
  with_reducible repeat' first | assumption | apply typedRequest_goes

theorem execAtomicSwap_goes {s0 : State} (via : Via) (p : Packet) (s : State) (hk : Kept s0 s) : Goes s0 (execAtomicSwap via p s) := by
  unfold execAtomicSwap
  with_reducible repeat' first | assumption | apply typedRequest_goes

theorem execAtomicCas_goes {s0 : State} (via : Via) (p : Packet) (s : State) (hk : Kept s0 s) : Goes s0 (execAtomicCas via p s) := by
  unfold execAtomicCas
  with_reducible repeat' first | assumption | apply typedRequest_goes

theorem execAtomicAnd_goes {s0 : State} (via : Via) (p : Packet) (s : State) (hk : Kept s0 s) : Goes s0 (execAtomicAnd via p s) := by
  unfold execAtomicAnd
  with_reducible repeat' first | assumption | apply typedRequest_goes

theorem execAtomicOr_goes {s0 : State} (via : Via) (p : Packet) (s : State) (hk : Kept s0 s) : Goes s0 (execAtomicOr via p s) := by
  unfold execAtomicOr
  with_reducible repeat' first | assumption | apply typedRequest_goes

theorem execAtomicXor_goes {s0 : State} (via : Via) (p : Packet) (s : State) (hk : Kept s0 s) : Goes s0 (execAtomicXor via p s) := by
  unfold execAtomicXor
  with_reducible repeat' first | assumption | apply typedRequest_goes

theorem execAtomicSmax_goes {s0 : State} (via : Via) (p : Packet) (s : State) (hk : Kept s0 s) : Goes s0 (execAtomicSmax via p s) := by
  unfold execAtomicSmax
  with_reducible repeat' first | assumption | apply typedRequest_goes

theorem execAtomicSmin_goes {s0 : State} (via : Via) (p : Packet) (s : State) (hk : Kept s0 s) : Goes s0 (execAtomicSmin via p s) := by
  unfold execAtomicSmin
  with_reducible repeat' first | assumption | apply typedRequest_goes

theorem execWriteback_goes {s0 : State} (via : Via) (p : Packet) (s : State) (hk : Kept s0 s) : Goes s0 (execWriteback via p s) := by
  unfold execWriteback
  with_reducible repeat' first | assumption | apply typedRequest_goes

theorem execEvictClean_goes {s0 : State} (via : Via) (p : Packet) (s : State) (hk : Kept s0 s) : Goes s0 (execEvictClean via p s) := by
  unfold execEvictClean
  with_reducible repeat' first | assumption | apply typedRequest_goes

theorem execSprayLaunch_goes {s0 : State} (via : Via) (p : Packet) (s : State) (hk : Kept s0 s) : Goes s0 (execSprayLaunch via p s) := by
  unfold execSprayLaunch
  with_reducible repeat' first | assumption | apply typedRequest_goes

theorem execPoolOpLaunch_goes {s0 : State} (via : Via) (p : Packet) (s : State) (hk : Kept s0 s) : Goes s0 (execPoolOpLaunch via p s) := by
  unfold execPoolOpLaunch
  with_reducible repeat' first | assumption | apply typedRequest_goes

theorem execSnoopResp_goes {s0 : State} (via : Via) (p : Packet) (s : State) (hk : Kept s0 s) : Goes s0 (execSnoopResp via p s) := by
  unfold execSnoopResp
  with_reducible repeat' first | assumption | apply typedAnswer_goes

theorem execSnoopRespData_goes {s0 : State} (via : Via) (p : Packet) (s : State) (hk : Kept s0 s) : Goes s0 (execSnoopRespData via p s) := by
  unfold execSnoopRespData
  with_reducible repeat' first | assumption | apply typedAnswer_goes

theorem execResp_goes {s0 : State} (via : Via) (p : Packet) (s : State) (hk : Kept s0 s) : Goes s0 (execResp via p s) := by
  unfold execResp
  with_reducible repeat' first | assumption | apply typedResponse_goes

theorem execRespData_goes {s0 : State} (via : Via) (p : Packet) (s : State) (hk : Kept s0 s) : Goes s0 (execRespData via p s) := by
  unfold execRespData
  with_reducible repeat' first | assumption | apply typedResponse_goes

theorem execCompletion_goes {s0 : State} (via : Via) (p : Packet) (s : State) (hk : Kept s0 s) : Goes s0 (execCompletion via p s) := by
  unfold execCompletion
  with_reducible repeat' first | assumption | apply typedResponse_goes

end Sys2Proof.Machine

/-! ### HomeEvents -/

namespace Sys2Proof.Machine

theorem execWfqGrant_goes {s0 : State} (k : Nat) (s : State) (hk : Kept s0 s) : Goes s0 (execWfqGrant k s) := by
  unfold execWfqGrant
  with_reducible repeat' first | assumption | apply Goes.next | apply grantReturn_kept | apply modRegion_kept | apply admitLaunch_kept | split

theorem homeVc1_kept {s0 : State} (s : State) (k : Nat) (r : Req) (hk : Kept s0 s) : Kept s0 (homeVc1 s k r) := by
  unfold homeVc1
  with_reducible repeat' first | assumption | (refine fold_kept (by assumption) ?_) | apply answerDone_kept | apply homeEnter_kept | split

theorem execHomeAgentInput_goes {s0 : State} (k : Nat) (s : State) (hk : Kept s0 s) : Goes s0 (execHomeAgentInput k s) := by
  unfold execHomeAgentInput
  with_reducible repeat' first | assumption | apply Goes.next | apply homeEnter_kept | apply modRegion_kept | apply homeVc1_kept | apply snoopAnswer_kept | split | dsimp only

theorem execTransactionComplete_goes {s0 : State} (line : Nat) (s : State) (hk : Kept s0 s) : Goes s0 (execTransactionComplete line s) := by
  unfold execTransactionComplete
  with_reducible repeat' first | (intro _) | assumption | apply Goes.next | apply Goes.when | apply completeLine_kept | apply advanceLine_kept | apply answerDone_kept | apply foldl_kept | split

theorem execSnoopTimeout_goes {s0 : State} (line slot : Nat) (s : State) (hk : Kept s0 s) : Goes s0 (execSnoopTimeout line slot s) := by
  unfold execSnoopTimeout
  with_reducible repeat' first | assumption | apply Goes.next | apply Goes.when | apply declareFailed_kept | split

theorem setWalk_kept {s0 : State} (s : State) (w : Walk) (hk : Kept s0 s) : Kept s0 (setWalk s w) := by
  unfold setWalk
  with_reducible repeat' first | (refine Kept.upd ?_ rfl rfl rfl rfl rfl rfl rfl; first | assumption)

theorem delWalk_kept {s0 : State} (s : State) (slot : Nat) (hk : Kept s0 s) : Kept s0 (delWalk s slot) := by
  unfold delWalk
  with_reducible repeat' first | (refine Kept.upd ?_ rfl rfl rfl rfl rfl rfl rfl; first | assumption)

theorem closeLost_kept {s0 : State} (s : State) (w : Walk) (last : Bool) (hk : Kept s0 s) : Kept s0 (closeLost s w last) := by
  unfold closeLost
  with_reducible repeat' first | assumption | (refine Kept.upd ?_ rfl rfl rfl rfl rfl rfl rfl; first | assumption | apply setWalk_kept)

theorem reportLine_kept {s0 : State} (s : State) (w : Walk) (i offset : Nat) (hk : Kept s0 s) : Kept s0 (reportLine s w i offset).2 := by
  unfold reportLine
  with_reducible repeat' first | assumption | apply closeLost_kept | apply setWalk_kept | apply setDir_kept | split | dsimp only

theorem walkEntry_kept {s0 : State} (s : State) (slot i : Nat) (hk : Kept s0 s) : Kept s0 (walkEntry s slot i).2 := by
  unfold walkEntry
  with_reducible repeat' first | assumption | apply touchDir_kept | apply reportLine_kept | split | dsimp only

theorem execFailureWalkStep_goes {s0 : State} (slot : Nat) (s : State) (hk : Kept s0 s) : Goes s0 (execFailureWalkStep slot s) := by
  unfold execFailureWalkStep
  with_reducible repeat' first | (intro _) | assumption | apply Goes.next | apply walkEntry_kept | apply setWalk_kept | apply foldl_kept_snd | split | dsimp only

theorem answerWalk_kept {s0 : State} (s : State) (w : Walk) (hk : Kept s0 s) : Kept s0 (answerWalk s w) := by
  unfold answerWalk
  with_reducible repeat' first | (intro _) | assumption | apply finish_kept | apply foldl_kept

theorem execFailureWalkDone_goes {s0 : State} (slot : Nat) (s : State) (hk : Kept s0 s) : Goes s0 (execFailureWalkDone slot s) := by
  unfold execFailureWalkDone
  with_reducible repeat' first | assumption | apply Goes.next | apply Goes.when | apply delWalk_kept | apply closeLost_kept | apply setSlot_kept | apply answerWalk_kept | split

theorem sweepEntry_kept {s0 : State} (s : State) (slot i : Nat) (hk : Kept s0 s) : Kept s0 (sweepEntry s slot i) := by
  unfold sweepEntry
  with_reducible repeat' first | assumption | apply touchDir_kept | apply setDir_kept | apply homeEnter_kept | split | dsimp only

theorem execReleaseSweepStep_goes {s0 : State} (slot : Nat) (s : State) (hk : Kept s0 s) : Goes s0 (execReleaseSweepStep slot s) := by
  unfold execReleaseSweepStep
  with_reducible repeat' first | (intro _) | assumption | apply Goes.next | apply sweepEntry_kept | apply setWalk_kept | apply foldl_kept | split

theorem execReleaseSweepDone_goes {s0 : State} (slot : Nat) (s : State) (hk : Kept s0 s) : Goes s0 (execReleaseSweepDone slot s) := by
  unfold execReleaseSweepDone
  with_reducible repeat' first | assumption | apply Goes.next | apply Goes.when | apply answerWalk_kept | apply setSlot_kept | apply delWalk_kept | split

end Sys2Proof.Machine
end

