-- ==== Sys2Proof/Laws/KeptOrders.lean ====
section
/-! SUPPORT. Every operation on the state keeps what no command undoes, and every meaning goes on: Commit, Ticks, ExtentOrders, MemOrders, Images, EngineOrders. -/

/-! ### Commit -/

namespace Sys2Proof.Machine

theorem modMeasured_kept {s0 : State} (s : State) (ext : Nat) (f : Measured → Measured) (hk : Kept s0 s) : Kept s0 (modMeasured s ext f) := by
  unfold modMeasured
  with_reducible repeat' first | (refine Kept.upd ?_ rfl rfl rfl rfl rfl rfl rfl; first | assumption)

theorem applyGrant_kept {s0 : State} (s : State) (h : OrderHdr) (ext : Nat) (r : Extent) (hk : Kept s0 s) : Kept s0 (applyGrant s h ext r) := by
  unfold applyGrant
  with_reducible repeat' first | assumption | apply finish_kept | apply setExtent_kept

theorem applyAccessSet_kept {s0 : State} (s : State) (h : OrderHdr) (ext : Nat) (access : List (BitVec 32)) (measured : Nat) (hk : Kept s0 s) : Kept s0 (applyAccessSet s h ext access measured) := by
  unfold applyAccessSet
  with_reducible repeat' first | assumption | apply modMeasured_kept | (refine Kept.upd ?_ rfl rfl rfl rfl rfl rfl rfl; first | assumption | apply setExtent_kept | apply modMeasured_kept | apply finish_kept)

theorem beginRevoke_kept {s0 : State} (s : State) (ext : Nat) (waits : RevokeFor) (hk : Kept s0 s) : Kept s0 (beginRevoke s ext waits) := by
  unfold beginRevoke
  with_reducible repeat' first | apply modMeasured_kept | (refine Kept.upd ?_ rfl rfl rfl rfl rfl rfl rfl; first | assumption | apply modMeasured_kept | apply modExtent_kept)

theorem mapReqs_kept {s0 : State} (s : State) (f : Req → Req) (hk : Kept s0 s) : Kept s0 (mapReqs s f) := by
  unfold mapReqs
  with_reducible repeat' first | (refine Kept.upd ?_ rfl rfl rfl rfl rfl rfl rfl; first | assumption)

theorem forceRetire_kept {s0 : State} (s : State) (t epoch : Nat) (hk : Kept s0 s) : Kept s0 (forceRetire s t epoch) := by
  unfold forceRetire
  with_reducible repeat' first | (intro _) | assumption | apply epochSub_kept | apply respond_kept | apply launch_kept | apply mapReqs_kept | apply modSpray_kept | apply failAccess_kept | apply closeForwards_kept | apply foldl_kept | split | dsimp only

theorem applyRemove_kept {s0 : State} (s : State) (h : OrderHdr) (t : Nat) (hk : Kept s0 s) : Kept s0 (applyRemove s h t) := by
  unfold applyRemove
  with_reducible repeat' first | (intro _) | assumption | apply beginRevoke_kept | (refine Kept.upd ?_ rfl rfl rfl rfl rfl rfl rfl; first | assumption | apply modTenant_kept | apply beginRevoke_kept | apply cancelSpray_kept | apply foldl_kept)

theorem setSpace_kept {s0 : State} (s : State) (a : Nat) (x : AddrSpace) (hk : Kept s0 s) : Kept s0 (setSpace s a x) := by
  unfold setSpace
  with_reducible repeat' first | (refine Kept.upd ?_ rfl rfl rfl rfl rfl rfl rfl; first | assumption)

theorem beginInval_kept {s0 : State} (s : State) (a pva size : Nat) (waits : Option OrderHdr) (destroy : Bool) (hk : Kept s0 s) : Kept s0 (beginInval s a pva size waits destroy) := by
  unfold beginInval
  with_reducible repeat' first | (refine Kept.upd ?_ rfl rfl rfl rfl rfl rfl rfl; first | assumption)

theorem applyMap_kept {s0 : State} (s : State) (a pva ppa pageSize count rights : Nat) (hk : Kept s0 s) : Kept s0 (applyMap s a pva ppa pageSize count rights) := by
  unfold applyMap
  with_reducible repeat' first | assumption | apply setSpace_kept

theorem applyUnmap_kept {s0 : State} (s : State) (a pva size : Nat) (hk : Kept s0 s) : Kept s0 (applyUnmap s a pva size) := by
  unfold applyUnmap
  with_reducible repeat' first | assumption | apply setSpace_kept

theorem applyProtect_kept {s0 : State} (s : State) (a pva size rights : Nat) (hk : Kept s0 s) : Kept s0 (applyProtect s a pva size rights) := by
  unfold applyProtect
  with_reducible repeat' first | assumption | apply setSpace_kept

theorem applyDestroy_kept {s0 : State} (s : State) (a : Nat) (waits : Option OrderHdr) (hk : Kept s0 s) : Kept s0 (applyDestroy s a waits) := by
  unfold applyDestroy
  with_reducible repeat' first | assumption | apply beginInval_kept | apply setSpace_kept

theorem atTick_kept {s0 : State} (s : State) (h : OrderHdr) (code : Nat) (refusals : List (Bool × Nat)) (act : State) (hk : Kept s0 s) (ha : Kept s0 act) :
    Kept s0 (atTick s h code refusals act) := by
  unfold atTick
  split
  · exact finish_kept _ _ _ _ _ hk
  · exact ha

theorem applyPrepared_kept {s0 : State} (s : State) (p : Prepared) (hk : Kept s0 s) : Kept s0 (applyPrepared s p) := by
  unfold applyPrepared
  with_reducible repeat' first | assumption | apply atTick_kept | apply applyGrant_kept | apply applyAccessSet_kept | apply beginRevoke_kept | apply finish_kept | apply forceRetire_kept | apply applyMap_kept | apply applyProtect_kept | apply applyDestroy_kept | (refine Kept.upd ?_ rfl rfl rfl rfl rfl rfl rfl; first | assumption | apply atTick_kept | apply applyGrant_kept | apply applyAccessSet_kept | apply beginRevoke_kept | apply finish_kept | apply modTenant_kept | apply forceRetire_kept | apply applyRemove_kept | apply applyMap_kept | apply applyUnmap_kept | apply applyProtect_kept | apply setSpace_kept | apply applyDestroy_kept | apply beginInval_kept) | split

theorem eraseKeys_kept {s0 : State} (s : State) (t : Nat) (hk : Kept s0 s) : Kept s0 (eraseKeys s t) := by
  unfold eraseKeys
  with_reducible repeat' first | assumption | apply modTenant_kept

theorem advanceRemoval_kept {s0 : State} (s : State) (r : Removal) (hk : Kept s0 s) : Kept s0 (advanceRemoval s r) := by
  unfold advanceRemoval
  with_reducible repeat' first | (intro _) | assumption | apply applyDestroy_kept | (refine Kept.upd ?_ rfl rfl rfl rfl rfl rfl rfl; first | assumption | apply eraseKeys_kept | apply applyDestroy_kept | apply finish_kept | apply foldl_kept) | split | dsimp only

theorem advanceRemovals_kept {s0 : State} (s : State) (hk : Kept s0 s) : Kept s0 (advanceRemovals s) := by
  unfold advanceRemovals
  with_reducible repeat' first | assumption | apply advanceRemoval_kept | apply foldl_kept

end Sys2Proof.Machine

/-! ### Ticks -/

namespace Sys2Proof.Machine

theorem refillRegion_kept {s0 : State} (s : State) (shapes : List (Nat × HostRec)) (k : Nat) (hk : Kept s0 s) : Kept s0 (refillRegion s shapes k) := by
  unfold refillRegion
  with_reducible repeat' first | assumption | apply modRegion_kept

theorem refillTick_kept {s0 : State} (s : State) (hk : Kept s0 s) : Kept s0 (refillTick s) := by
  unfold refillTick
  with_reducible repeat' first | (intro _) | assumption | apply applyPrepared_kept | (refine Kept.upd ?_ rfl rfl rfl rfl rfl rfl rfl; first | assumption | apply refillRegion_kept | apply repeatCreditInit_kept | apply foldl_kept)

theorem execCommitTick_goes {s0 : State} (s : State) (hk : Kept s0 s) : Goes s0 (execCommitTick s) := by
  unfold execCommitTick
  with_reducible repeat' first | apply Goes.when | apply applyPrepared_kept | (refine Kept.upd ?_ rfl rfl rfl rfl rfl rfl rfl; first | assumption | apply advanceRemovals_kept | apply applyPrepared_kept | apply foldl_kept)

theorem reportRecalled_kept {s0 : State} (s : State) (w : Nat) (hk : Kept s0 s) : Kept s0 (reportRecalled s w).2 := by
  unfold reportRecalled
  with_reducible repeat' first | assumption | apply touchDir_kept | apply reportLine_kept | split | dsimp only

theorem recallEntry_kept {s0 : State} (s : State) (ext w : Nat) (hk : Kept s0 s) : Kept s0 (recallEntry s ext w) := by
  unfold recallEntry
  with_reducible repeat' first | assumption | apply setDir_kept | apply homeEnter_kept | split

theorem execRevokeDrainDone_goes {s0 : State} (ext : Nat) (s : State) (hk : Kept s0 s) : Goes s0 (execRevokeDrainDone ext s) := by
  unfold execRevokeDrainDone
  with_reducible repeat' first | (intro _) | apply Goes.when | apply reportRecalled_kept | (refine Kept.upd ?_ rfl rfl rfl rfl rfl rfl rfl; first | assumption | apply commitEntry_kept | apply reportRecalled_kept | apply recallEntry_kept | apply foldl_kept | apply foldl_kept_snd) | split

theorem beginScrub_kept {s0 : State} (s : State) (ext : Nat) (hk : Kept s0 s) : Kept s0 (beginScrub s ext) := by
  unfold beginScrub
  with_reducible repeat' first | assumption | apply commitEntry_kept | apply setExtent_kept | (refine Kept.upd ?_ rfl rfl rfl rfl rfl rfl rfl; first | assumption | apply commitEntry_kept | apply setExtent_kept | apply clearValid_kept | apply foldl_kept)

theorem execRevokeRecallDone_goes {s0 : State} (ext : Nat) (s : State) (hk : Kept s0 s) : Goes s0 (execRevokeRecallDone ext s) := by
  unfold execRevokeRecallDone
  with_reducible repeat' first | assumption | apply Goes.next | apply advanceRemovals_kept | apply finish_kept | apply beginScrub_kept | apply eraseKeys_kept | split

theorem zeroStripe_kept {s0 : State} (s : State) (e : Extent) (offset : Nat) (hk : Kept s0 s) : Kept s0 (zeroStripe s e offset) := by
  unfold zeroStripe
  with_reducible repeat' first | (intro _) | assumption | apply listCatchUp_kept | apply putChunk_kept | apply foldl_kept

theorem execExtentZeroingStep_goes {s0 : State} (ext : Nat) (s : State) (hk : Kept s0 s) : Goes s0 (execExtentZeroingStep ext s) := by
  unfold execExtentZeroingStep
  with_reducible repeat' first | (intro _) | assumption | apply Goes.when | apply zeroStripe_kept | apply modExtent_kept | apply foldl_kept

theorem execExtentScrubDone_goes {s0 : State} (ext : Nat) (s : State) (hk : Kept s0 s) : Goes s0 (execExtentScrubDone ext s) := by
  unfold execExtentScrubDone
  with_reducible repeat' first | assumption | apply Goes.when | apply setExtent_kept

end Sys2Proof.Machine

/-! ### ExtentOrders -/

namespace Sys2Proof.Machine

theorem doGrant_kept {s0 : State} (h : OrderHdr) (ext base size kind target physBase tenant measured : Nat) (access : List (BitVec 32)) (s : State) (hk : Kept s0 s) : Kept s0 (doGrant h ext base size kind target physBase tenant measured access s) := by
  unfold doGrant
  with_reducible repeat' first | assumption | apply judged_kept | apply prepare_kept

theorem execGrant_goes {s0 : State} (h : OrderHdr) (ext base size kind target physBase tenant measured : Nat) (access : List (BitVec 32)) (s : State) (hk : Kept s0 s) : Goes s0 (execGrant h ext base size kind target physBase tenant measured access s) := by
  unfold execGrant
  with_reducible repeat' first | assumption | apply Goes.next | apply withOrder_kept | apply doGrant_kept

theorem doAccessSet_kept {s0 : State} (h : OrderHdr) (ext generation : Nat) (access : List (BitVec 32)) (measured : Nat) (s : State) (hk : Kept s0 s) : Kept s0 (doAccessSet h ext generation access measured s) := by
  unfold doAccessSet
  with_reducible repeat' first | assumption | apply judged_kept | apply prepare_kept

theorem execAccessSet_goes {s0 : State} (h : OrderHdr) (ext generation : Nat) (access : List (BitVec 32)) (measured : Nat) (s : State) (hk : Kept s0 s) : Goes s0 (execAccessSet h ext generation access measured s) := by
  unfold execAccessSet
  with_reducible repeat' first | assumption | apply Goes.next | apply withOrder_kept | apply doAccessSet_kept

theorem doRevoke_kept {s0 : State} (h : OrderHdr) (ext generation : Nat) (s : State) (hk : Kept s0 s) : Kept s0 (doRevoke h ext generation s) := by
  unfold doRevoke
  with_reducible repeat' first | assumption | apply judged_kept | apply prepare_kept

theorem execRevoke_goes {s0 : State} (h : OrderHdr) (ext generation : Nat) (s : State) (hk : Kept s0 s) : Goes s0 (execRevoke h ext generation s) := by
  unfold execRevoke
  with_reducible repeat' first | assumption | apply Goes.next | apply withOrder_kept | apply doRevoke_kept

theorem doExtentRead_kept {s0 : State} (h : OrderHdr) (ext : Nat) (s : State) (hk : Kept s0 s) : Kept s0 (doExtentRead h ext s) := by
  unfold doExtentRead
  with_reducible repeat' first | assumption | apply reply_kept

theorem execExtentRead_goes {s0 : State} (h : OrderHdr) (ext : Nat) (s : State) (hk : Kept s0 s) : Goes s0 (execExtentRead h ext s) := by
  unfold execExtentRead
  with_reducible repeat' first | assumption | apply Goes.next | apply withOrder_kept | apply doExtentRead_kept

theorem doExtentFind_kept {s0 : State} (h : OrderHdr) (offset : Nat) (s : State) (hk : Kept s0 s) : Kept s0 (doExtentFind h offset s) := by
  unfold doExtentFind
  with_reducible repeat' first | assumption | apply judged_kept | apply reply_kept

theorem execExtentFind_goes {s0 : State} (h : OrderHdr) (offset : Nat) (s : State) (hk : Kept s0 s) : Goes s0 (execExtentFind h offset s) := by
  unfold execExtentFind
  with_reducible repeat' first | assumption | apply Goes.next | apply withOrder_kept | apply doExtentFind_kept

theorem doViolationRead_kept {s0 : State} (h : OrderHdr) (s : State) (hk : Kept s0 s) : Kept s0 (doViolationRead h s) := by
  unfold doViolationRead
  with_reducible repeat' first | assumption | (refine Kept.upd ?_ rfl rfl rfl rfl rfl rfl rfl; first | assumption | apply reply_kept)

theorem execViolationRead_goes {s0 : State} (h : OrderHdr) (s : State) (hk : Kept s0 s) : Goes s0 (execViolationRead h s) := by
  unfold execViolationRead
  with_reducible repeat' first | assumption | apply Goes.next | apply withOrder_kept | apply doViolationRead_kept

theorem doHostShape_kept {s0 : State} (h : OrderHdr) (host weight pbs cbs pir cir : Nat) (s : State) (hk : Kept s0 s) : Kept s0 (doHostShape h host weight pbs cbs pir cir s) := by
  unfold doHostShape
  with_reducible repeat' first | assumption | apply judged_kept | apply prepare_kept

theorem execHostShape_goes {s0 : State} (h : OrderHdr) (host weight pbs cbs pir cir : Nat) (s : State) (hk : Kept s0 s) : Goes s0 (execHostShape h host weight pbs cbs pir cir s) := by
  unfold execHostShape
  with_reducible repeat' first | assumption | apply Goes.next | apply withOrder_kept | apply doHostShape_kept

theorem doHostShapeRead_kept {s0 : State} (h : OrderHdr) (host region : Nat) (s : State) (hk : Kept s0 s) : Kept s0 (doHostShapeRead h host region s) := by
  unfold doHostShapeRead
  with_reducible repeat' first | assumption | apply judged_kept | apply reply_kept

theorem execHostShapeRead_goes {s0 : State} (h : OrderHdr) (host region : Nat) (s : State) (hk : Kept s0 s) : Goes s0 (execHostShapeRead h host region s) := by
  unfold execHostShapeRead
  with_reducible repeat' first | assumption | apply Goes.next | apply withOrder_kept | apply doHostShapeRead_kept

theorem doTenantCreate_kept {s0 : State} (h : OrderHdr) (tenant : Nat) (wrapped : BitVec 320) (s : State) (hk : Kept s0 s) : Kept s0 (doTenantCreate h tenant wrapped s) := by
  unfold doTenantCreate
  with_reducible repeat' first | assumption | apply prepare_kept

theorem execTenantCreate_goes {s0 : State} (h : OrderHdr) (tenant : Nat) (wrapped : BitVec 320) (s : State) (hk : Kept s0 s) : Goes s0 (execTenantCreate h tenant wrapped s) := by
  unfold execTenantCreate
  with_reducible repeat' first | assumption | apply Goes.next | apply withOrder_kept | apply doTenantCreate_kept

theorem doTenantRemove_kept {s0 : State} (h : OrderHdr) (tenant : Nat) (s : State) (hk : Kept s0 s) : Kept s0 (doTenantRemove h tenant s) := by
  unfold doTenantRemove
  with_reducible repeat' first | assumption | apply prepare_kept

theorem execTenantRemove_goes {s0 : State} (h : OrderHdr) (tenant : Nat) (s : State) (hk : Kept s0 s) : Goes s0 (execTenantRemove h tenant s) := by
  unfold execTenantRemove
  with_reducible repeat' first | assumption | apply Goes.next | apply withOrder_kept | apply doTenantRemove_kept

theorem doRotateKey_kept {s0 : State} (h : OrderHdr) (tenant : Nat) (wrapped : BitVec 320) (s : State) (hk : Kept s0 s) : Kept s0 (doRotateKey h tenant wrapped s) := by
  unfold doRotateKey
  with_reducible repeat' first | assumption | apply prepare_kept

theorem execRotateKey_goes {s0 : State} (h : OrderHdr) (tenant : Nat) (wrapped : BitVec 320) (s : State) (hk : Kept s0 s) : Goes s0 (execRotateKey h tenant wrapped s) := by
  unfold execRotateKey
  with_reducible repeat' first | assumption | apply Goes.next | apply withOrder_kept | apply doRotateKey_kept

theorem doRetireKey_kept {s0 : State} (h : OrderHdr) (tenant epoch force : Nat) (s : State) (hk : Kept s0 s) : Kept s0 (doRetireKey h tenant epoch force s) := by
  unfold doRetireKey
  with_reducible repeat' first | assumption | apply prepare_kept

theorem execRetireKey_goes {s0 : State} (h : OrderHdr) (tenant epoch force : Nat) (s : State) (hk : Kept s0 s) : Goes s0 (execRetireKey h tenant epoch force s) := by
  unfold execRetireKey
  with_reducible repeat' first | assumption | apply Goes.next | apply withOrder_kept | apply doRetireKey_kept

theorem doSlotGrant_kept {s0 : State} (h : OrderHdr) (slot host : Nat) (s : State) (hk : Kept s0 s) : Kept s0 (doSlotGrant h slot host s) := by
  unfold doSlotGrant
  with_reducible repeat' first | assumption | apply judged_kept | apply reply_kept | apply setSlot_kept

theorem execSlotGrant_goes {s0 : State} (h : OrderHdr) (slot host : Nat) (s : State) (hk : Kept s0 s) : Goes s0 (execSlotGrant h slot host s) := by
  unfold execSlotGrant
  with_reducible repeat' first | assumption | apply Goes.next | apply withOrder_kept | apply doSlotGrant_kept

theorem releaseSlot_kept {s0 : State} (h : OrderHdr) (slot : Nat) (s : State) (hk : Kept s0 s) : Kept s0 (releaseSlot h slot s) := by
  unfold releaseSlot
  with_reducible repeat' first | assumption | apply setWalk_kept | apply setSlot_kept | apply accept_kept | apply reply_kept | split | dsimp only

theorem doSlotRelease_kept {s0 : State} (h : OrderHdr) (slot roleGen : Nat) (s : State) (hk : Kept s0 s) : Kept s0 (doSlotRelease h slot roleGen s) := by
  unfold doSlotRelease
  with_reducible repeat' first | assumption | apply judged_kept | apply releaseSlot_kept

theorem execSlotRelease_goes {s0 : State} (h : OrderHdr) (slot roleGen : Nat) (s : State) (hk : Kept s0 s) : Goes s0 (execSlotRelease h slot roleGen s) := by
  unfold execSlotRelease
  with_reducible repeat' first | assumption | apply Goes.next | apply withOrder_kept | apply doSlotRelease_kept

theorem doSlotRead_kept {s0 : State} (h : OrderHdr) (slot : Nat) (s : State) (hk : Kept s0 s) : Kept s0 (doSlotRead h slot s) := by
  unfold doSlotRead
  with_reducible repeat' first | assumption | apply reply_kept

theorem execSlotRead_goes {s0 : State} (h : OrderHdr) (slot : Nat) (s : State) (hk : Kept s0 s) : Goes s0 (execSlotRead h slot s) := by
  unfold execSlotRead
  with_reducible repeat' first | assumption | apply Goes.next | apply withOrder_kept | apply doSlotRead_kept

theorem doHostFailed_kept {s0 : State} (h : OrderHdr) (host : Nat) (s : State) (hk : Kept s0 s) : Kept s0 (doHostFailed h host s) := by
  unfold doHostFailed
  with_reducible repeat' first | assumption | apply reply_kept | apply declareFailed_kept | apply accept_kept | split

theorem execHostFailed_goes {s0 : State} (h : OrderHdr) (host : Nat) (s : State) (hk : Kept s0 s) : Goes s0 (execHostFailed h host s) := by
  unfold execHostFailed
  with_reducible repeat' first | assumption | apply Goes.next | apply withOrder_kept | apply doHostFailed_kept

theorem doLostRead_kept {s0 : State} (h : OrderHdr) (s : State) (hk : Kept s0 s) : Kept s0 (doLostRead h s) := by
  unfold doLostRead
  with_reducible repeat' first | assumption | (refine Kept.upd ?_ rfl rfl rfl rfl rfl rfl rfl; first | assumption | apply reply_kept) | split

theorem execLostRead_goes {s0 : State} (h : OrderHdr) (s : State) (hk : Kept s0 s) : Goes s0 (execLostRead h s) := by
  unfold execLostRead
  with_reducible repeat' first | assumption | apply Goes.next | apply withOrder_kept | apply doLostRead_kept

theorem doDirRead_kept {s0 : State} (h : OrderHdr) (offset : Nat) (s : State) (hk : Kept s0 s) : Kept s0 (doDirRead h offset s) := by
  unfold doDirRead
  with_reducible repeat' first | assumption | apply judged_kept | apply reply_kept

theorem execDirRead_goes {s0 : State} (h : OrderHdr) (offset : Nat) (s : State) (hk : Kept s0 s) : Goes s0 (execDirRead h offset s) := by
  unfold execDirRead
  with_reducible repeat' first | assumption | apply Goes.next | apply withOrder_kept | apply doDirRead_kept

end Sys2Proof.Machine

/-! ### MemOrders -/

namespace Sys2Proof.Machine

theorem doStackRead_kept {s0 : State} (h : OrderHdr) (region position : Nat) (s : State) (hk : Kept s0 s) : Kept s0 (doStackRead h region position s) := by
  unfold doStackRead
  with_reducible repeat' first | assumption | apply judged_kept | apply reply_kept

theorem execStackRead_goes {s0 : State} (h : OrderHdr) (region position : Nat) (s : State) (hk : Kept s0 s) : Goes s0 (execStackRead h region position s) := by
  unfold execStackRead
  with_reducible repeat' first | assumption | apply Goes.next | apply withOrder_kept | apply doStackRead_kept

theorem newLimit_kept {s0 : State} (h : OrderHdr) (limit : Nat) (s : State) (p : Nat) (hk : Kept s0 s) : Kept s0 (newLimit h limit s p) := by
  unfold newLimit
  with_reducible repeat' first | assumption | apply modStack_kept | split

theorem doStackRateLimit_kept {s0 : State} (h : OrderHdr) (region position limit : Nat) (s : State) (hk : Kept s0 s) : Kept s0 (doStackRateLimit h region position limit s) := by
  unfold doStackRateLimit
  with_reducible repeat' first | assumption | apply judged_kept | apply answerLimit_kept | apply newLimit_kept | apply accept_kept | apply foldl_kept

theorem execStackRateLimit_goes {s0 : State} (h : OrderHdr) (region position limit : Nat) (s : State) (hk : Kept s0 s) : Goes s0 (execStackRateLimit h region position limit s) := by
  unfold execStackRateLimit
  with_reducible repeat' first | assumption | apply Goes.next | apply withOrder_kept | apply doStackRateLimit_kept

theorem doMemIdlePolicy_kept {s0 : State} (h : OrderHdr) (v : Nat) (s : State) (hk : Kept s0 s) : Kept s0 (doMemIdlePolicy h v s) := by
  unfold doMemIdlePolicy
  with_reducible repeat' first | assumption | apply judged_kept | apply prepare_kept

theorem execMemIdlePolicy_goes {s0 : State} (h : OrderHdr) (v : Nat) (s : State) (hk : Kept s0 s) : Goes s0 (execMemIdlePolicy h v s) := by
  unfold execMemIdlePolicy
  with_reducible repeat' first | assumption | apply Goes.next | apply withOrder_kept | apply doMemIdlePolicy_kept

theorem doIntegrityRead_kept {s0 : State} (h : OrderHdr) (region position : Nat) (s : State) (hk : Kept s0 s) : Kept s0 (doIntegrityRead h region position s) := by
  unfold doIntegrityRead
  with_reducible repeat' first | assumption | apply judged_kept | apply reply_kept

theorem execIntegrityRead_goes {s0 : State} (h : OrderHdr) (region position : Nat) (s : State) (hk : Kept s0 s) : Goes s0 (execIntegrityRead h region position s) := by
  unfold execIntegrityRead
  with_reducible repeat' first | assumption | apply Goes.next | apply withOrder_kept | apply doIntegrityRead_kept

theorem doBlotterRead_kept {s0 : State} (h : OrderHdr) (region first : Nat) (s : State) (hk : Kept s0 s) : Kept s0 (doBlotterRead h region first s) := by
  unfold doBlotterRead
  with_reducible repeat' first | assumption | apply judged_kept | apply reply_kept

theorem execBlotterRead_goes {s0 : State} (h : OrderHdr) (region first : Nat) (s : State) (hk : Kept s0 s) : Goes s0 (execBlotterRead h region first s) := by
  unfold execBlotterRead
  with_reducible repeat' first | assumption | apply Goes.next | apply withOrder_kept | apply doBlotterRead_kept

theorem doBlotterClear_kept {s0 : State} (h : OrderHdr) (region : Nat) (s : State) (hk : Kept s0 s) : Kept s0 (doBlotterClear h region s) := by
  unfold doBlotterClear
  with_reducible repeat' first | apply judged_kept | (refine Kept.upd ?_ rfl rfl rfl rfl rfl rfl rfl; first | assumption | apply judged_kept | apply reply_kept)

theorem execBlotterClear_goes {s0 : State} (h : OrderHdr) (region : Nat) (s : State) (hk : Kept s0 s) : Goes s0 (execBlotterClear h region s) := by
  unfold execBlotterClear
  with_reducible repeat' first | assumption | apply Goes.next | apply withOrder_kept | apply doBlotterClear_kept

theorem doPoisonRead_kept {s0 : State} (h : OrderHdr) (s : State) (hk : Kept s0 s) : Kept s0 (doPoisonRead h s) := by
  unfold doPoisonRead
  with_reducible repeat' first | apply judged_kept | (refine Kept.upd ?_ rfl rfl rfl rfl rfl rfl rfl; first | assumption | apply judged_kept | apply reply_kept)

theorem execPoisonRead_goes {s0 : State} (h : OrderHdr) (s : State) (hk : Kept s0 s) : Goes s0 (execPoisonRead h s) := by
  unfold execPoisonRead
  with_reducible repeat' first | assumption | apply Goes.next | apply withOrder_kept | apply doPoisonRead_kept

theorem doScrubPolicy_kept {s0 : State} (h : OrderHdr) (minutes : Nat) (s : State) (hk : Kept s0 s) : Kept s0 (doScrubPolicy h minutes s) := by
  unfold doScrubPolicy
  with_reducible repeat' first | apply judged_kept | (refine Kept.upd ?_ rfl rfl rfl rfl rfl rfl rfl; first | assumption | apply judged_kept | apply reply_kept)

theorem execScrubPolicy_goes {s0 : State} (h : OrderHdr) (minutes : Nat) (s : State) (hk : Kept s0 s) : Goes s0 (execScrubPolicy h minutes s) := by
  unfold execScrubPolicy
  with_reducible repeat' first | assumption | apply Goes.next | apply withOrder_kept | apply doScrubPolicy_kept

theorem doEvacuate_kept {s0 : State} (h : OrderHdr) (region position : Nat) (s : State) (hk : Kept s0 s) : Kept s0 (doEvacuate h region position s) := by
  unfold doEvacuate
  with_reducible repeat' first | assumption | apply judged_kept | apply takeSpareStack_kept | apply accept_kept

theorem execEvacuate_goes {s0 : State} (h : OrderHdr) (region position : Nat) (s : State) (hk : Kept s0 s) : Goes s0 (execEvacuate h region position s) := by
  unfold execEvacuate
  with_reducible repeat' first | assumption | apply Goes.next | apply withOrder_kept | apply doEvacuate_kept

end Sys2Proof.Machine

/-! ### Images -/

namespace Sys2Proof.Machine

theorem ownRead_kept {s0 : State} (s : State) (offset n : Nat) (hk : Kept s0 s) : Kept s0 (ownRead s offset n).2 := by
  unfold ownRead
  with_reducible repeat' first | (intro _) | assumption | apply readLine_kept | apply foldl_kept_snd

end Sys2Proof.Machine

/-! ### EngineOrders -/

namespace Sys2Proof.Machine

theorem doAccordLoad_kept {s0 : State} (h : OrderHdr) (offset length tenant : Nat) (s : State) (hk : Kept s0 s) : Kept s0 (doAccordLoad h offset length tenant s) := by
  unfold doAccordLoad
  with_reducible repeat' first | apply ownRead_kept | apply reply_kept | (refine Kept.upd ?_ rfl rfl rfl rfl rfl rfl rfl; first | assumption | apply ownRead_kept | apply judged_kept | apply reply_kept | apply useFree_kept) | split

theorem execAccordLoad_goes {s0 : State} (h : OrderHdr) (offset length tenant : Nat) (s : State) (hk : Kept s0 s) : Goes s0 (execAccordLoad h offset length tenant s) := by
  unfold execAccordLoad
  with_reducible repeat' first | assumption | apply Goes.next | apply withOrder_kept | apply doAccordLoad_kept

theorem doAccordUnload_kept {s0 : State} (h : OrderHdr) (id : Nat) (s : State) (hk : Kept s0 s) : Kept s0 (doAccordUnload h id s) := by
  unfold doAccordUnload
  with_reducible repeat' first | apply judged_kept | (refine Kept.upd ?_ rfl rfl rfl rfl rfl rfl rfl; first | assumption | apply judged_kept | apply reply_kept)

theorem execAccordUnload_goes {s0 : State} (h : OrderHdr) (id : Nat) (s : State) (hk : Kept s0 s) : Goes s0 (execAccordUnload h id s) := by
  unfold execAccordUnload
  with_reducible repeat' first | assumption | apply Goes.next | apply withOrder_kept | apply doAccordUnload_kept

theorem doAsidCreate_kept {s0 : State} (h : OrderHdr) (a tenant : Nat) (s : State) (hk : Kept s0 s) : Kept s0 (doAsidCreate h a tenant s) := by
  unfold doAsidCreate
  with_reducible repeat' first | assumption | apply judged_kept | apply prepare_kept

theorem execAsidCreate_goes {s0 : State} (h : OrderHdr) (a tenant : Nat) (s : State) (hk : Kept s0 s) : Goes s0 (execAsidCreate h a tenant s) := by
  unfold execAsidCreate
  with_reducible repeat' first | assumption | apply Goes.next | apply withOrder_kept | apply doAsidCreate_kept

theorem doAsidDestroy_kept {s0 : State} (h : OrderHdr) (a : Nat) (s : State) (hk : Kept s0 s) : Kept s0 (doAsidDestroy h a s) := by
  unfold doAsidDestroy
  with_reducible repeat' first | assumption | apply judged_kept | apply prepare_kept

theorem execAsidDestroy_goes {s0 : State} (h : OrderHdr) (a : Nat) (s : State) (hk : Kept s0 s) : Goes s0 (execAsidDestroy h a s) := by
  unfold execAsidDestroy
  with_reducible repeat' first | assumption | apply Goes.next | apply withOrder_kept | apply doAsidDestroy_kept

theorem doMapRange_kept {s0 : State} (h : OrderHdr) (a pva ppa pageSize count rights : Nat) (s : State) (hk : Kept s0 s) : Kept s0 (doMapRange h a pva ppa pageSize count rights s) := by
  unfold doMapRange
  with_reducible repeat' first | assumption | apply judged_kept | apply prepare_kept

theorem execMapRange_goes {s0 : State} (h : OrderHdr) (a pva ppa pageSize count rights : Nat) (s : State) (hk : Kept s0 s) : Goes s0 (execMapRange h a pva ppa pageSize count rights s) := by
  unfold execMapRange
  with_reducible repeat' first | assumption | apply Goes.next | apply withOrder_kept | apply doMapRange_kept

theorem doUnmapRange_kept {s0 : State} (h : OrderHdr) (a pva size : Nat) (s : State) (hk : Kept s0 s) : Kept s0 (doUnmapRange h a pva size s) := by
  unfold doUnmapRange
  with_reducible repeat' first | assumption | apply judged_kept | apply prepare_kept

theorem execUnmapRange_goes {s0 : State} (h : OrderHdr) (a pva size : Nat) (s : State) (hk : Kept s0 s) : Goes s0 (execUnmapRange h a pva size s) := by
  unfold execUnmapRange
  with_reducible repeat' first | assumption | apply Goes.next | apply withOrder_kept | apply doUnmapRange_kept

theorem doProtectRange_kept {s0 : State} (h : OrderHdr) (a pva size rights : Nat) (s : State) (hk : Kept s0 s) : Kept s0 (doProtectRange h a pva size rights s) := by
  unfold doProtectRange
  with_reducible repeat' first | assumption | apply judged_kept | apply prepare_kept

theorem execProtectRange_goes {s0 : State} (h : OrderHdr) (a pva size rights : Nat) (s : State) (hk : Kept s0 s) : Goes s0 (execProtectRange h a pva size rights s) := by
  unfold execProtectRange
  with_reducible repeat' first | assumption | apply Goes.next | apply withOrder_kept | apply doProtectRange_kept

theorem doInvalidateRange_kept {s0 : State} (h : OrderHdr) (a pva size : Nat) (s : State) (hk : Kept s0 s) : Kept s0 (doInvalidateRange h a pva size s) := by
  unfold doInvalidateRange
  with_reducible repeat' first | assumption | apply judged_kept | apply prepare_kept

theorem execInvalidateRange_goes {s0 : State} (h : OrderHdr) (a pva size : Nat) (s : State) (hk : Kept s0 s) : Goes s0 (execInvalidateRange h a pva size s) := by
  unfold execInvalidateRange
  with_reducible repeat' first | assumption | apply Goes.next | apply withOrder_kept | apply doInvalidateRange_kept

theorem doMapRead_kept {s0 : State} (h : OrderHdr) (a pva : Nat) (s : State) (hk : Kept s0 s) : Kept s0 (doMapRead h a pva s) := by
  unfold doMapRead
  with_reducible repeat' first | assumption | apply judged_kept | apply reply_kept

theorem execMapRead_goes {s0 : State} (h : OrderHdr) (a pva : Nat) (s : State) (hk : Kept s0 s) : Goes s0 (execMapRead h a pva s) := by
  unfold execMapRead
  with_reducible repeat' first | assumption | apply Goes.next | apply withOrder_kept | apply doMapRead_kept

theorem doFaultRingSet_kept {s0 : State} (h : OrderHdr) (ppa slots : Nat) (s : State) (hk : Kept s0 s) : Kept s0 (doFaultRingSet h ppa slots s) := by
  unfold doFaultRingSet
  with_reducible repeat' first | apply judged_kept | (refine Kept.upd ?_ rfl rfl rfl rfl rfl rfl rfl; first | assumption | apply judged_kept | apply reply_kept)

theorem execFaultRingSet_goes {s0 : State} (h : OrderHdr) (ppa slots : Nat) (s : State) (hk : Kept s0 s) : Goes s0 (execFaultRingSet h ppa slots s) := by
  unfold execFaultRingSet
  with_reducible repeat' first | assumption | apply Goes.next | apply withOrder_kept | apply doFaultRingSet_kept

theorem resolveBatch_kept {s0 : State} (s : State) (b : Batch) (verdict : BitVec 256) (hk : Kept s0 s) : Kept s0 (resolveBatch s b verdict) := by
  unfold resolveBatch
  with_reducible repeat' first | (intro _) | assumption | (refine Kept.upd ?_ rfl rfl rfl rfl rfl rfl rfl; first | assumption | apply resolveTile_kept | apply foldl_kept) | split

theorem doFaultResolve_kept {s0 : State} (h : OrderHdr) (batch : Nat) (verdict : BitVec 256) (s : State) (hk : Kept s0 s) : Kept s0 (doFaultResolve h batch verdict s) := by
  unfold doFaultResolve
  with_reducible repeat' first | assumption | apply reply_kept | apply resolveBatch_kept | split

theorem execFaultResolve_goes {s0 : State} (h : OrderHdr) (batch : Nat) (verdict : BitVec 256) (s : State) (hk : Kept s0 s) : Goes s0 (execFaultResolve h batch verdict s) := by
  unfold execFaultResolve
  with_reducible repeat' first | assumption | apply Goes.next | apply withOrder_kept | apply doFaultResolve_kept

theorem doFaultPolicy_kept {s0 : State} (h : OrderHdr) (v : Nat) (s : State) (hk : Kept s0 s) : Kept s0 (doFaultPolicy h v s) := by
  unfold doFaultPolicy
  with_reducible repeat' first | assumption | apply judged_kept | apply prepare_kept

theorem execFaultPolicy_goes {s0 : State} (h : OrderHdr) (v : Nat) (s : State) (hk : Kept s0 s) : Goes s0 (execFaultPolicy h v s) := by
  unfold execFaultPolicy
  with_reducible repeat' first | assumption | apply Goes.next | apply withOrder_kept | apply doFaultPolicy_kept

theorem doSprayRead_kept {s0 : State} (h : OrderHdr) (n : Nat) (s : State) (hk : Kept s0 s) : Kept s0 (doSprayRead h n s) := by
  unfold doSprayRead
  with_reducible repeat' first | assumption | apply reply_kept | split

theorem execSprayRead_goes {s0 : State} (h : OrderHdr) (n : Nat) (s : State) (hk : Kept s0 s) : Goes s0 (execSprayRead h n s) := by
  unfold execSprayRead
  with_reducible repeat' first | assumption | apply Goes.next | apply withOrder_kept | apply doSprayRead_kept

theorem doSprayCancel_kept {s0 : State} (h : OrderHdr) (n : Nat) (s : State) (hk : Kept s0 s) : Kept s0 (doSprayCancel h n s) := by
  unfold doSprayCancel
  with_reducible repeat' first | assumption | apply reply_kept | apply cancelSpray_kept | apply modSpray_kept | apply accept_kept | split

theorem execSprayCancel_goes {s0 : State} (h : OrderHdr) (n : Nat) (s : State) (hk : Kept s0 s) : Goes s0 (execSprayCancel h n s) := by
  unfold execSprayCancel
  with_reducible repeat' first | assumption | apply Goes.next | apply withOrder_kept | apply doSprayCancel_kept

theorem doEngineTagRelease_kept {s0 : State} (h : OrderHdr) (host : Nat) (s : State) (hk : Kept s0 s) : Kept s0 (doEngineTagRelease h host s) := by
  unfold doEngineTagRelease
  with_reducible repeat' first | apply judged_kept | (refine Kept.upd ?_ rfl rfl rfl rfl rfl rfl rfl; first | assumption | apply judged_kept | apply reply_kept)

theorem execEngineTagRelease_goes {s0 : State} (h : OrderHdr) (host : Nat) (s : State) (hk : Kept s0 s) : Goes s0 (execEngineTagRelease h host s) := by
  unfold execEngineTagRelease
  with_reducible repeat' first | assumption | apply Goes.next | apply withOrder_kept | apply doEngineTagRelease_kept

end Sys2Proof.Machine
end

