-- ==== Sys2Proof/Laws/KeptSystem.lean ====
section
/-! SUPPORT. Every operation on the state keeps what no command undoes, and every meaning goes on: Ownership, SystemOrders, Shutdown, Channels, Stripes. -/

/-! ### Ownership -/

namespace Sys2Proof.Machine

theorem dropHandover_kept {s0 : State} (s : State) (hk : Kept s0 s) : Kept s0 (dropHandover s) := by
  unfold dropHandover
  with_reducible repeat' first | assumption | (refine Kept.upd ?_ rfl rfl rfl rfl rfl rfl rfl; first | assumption | apply finish_kept) | split

theorem joinElection_kept {s0 : State} (s : State) (h : OrderHdr) (priority : Nat) (hk : Kept s0 s) : Kept s0 (joinElection s h priority) := by
  unfold joinElection
  with_reducible repeat' first | assumption | (refine Kept.upd ?_ rfl rfl rfl rfl rfl rfl rfl; first | assumption | apply accept_kept)

theorem doOwnerClaim_kept {s0 : State} (h : OrderHdr) (priority : Nat) (s : State) (hk : Kept s0 s) : Kept s0 (doOwnerClaim h priority s) := by
  unfold doOwnerClaim
  with_reducible repeat' first | assumption | apply judged_kept | apply joinElection_kept

theorem execOwnerClaim_goes {s0 : State} (h : OrderHdr) (priority : Nat) (s : State) (hk : Kept s0 s) : Goes s0 (execOwnerClaim h priority s) := by
  unfold execOwnerClaim
  with_reducible repeat' first | assumption | apply Goes.next | apply withOrder_kept | apply doOwnerClaim_kept

theorem doOwnerRenew_kept {s0 : State} (h : OrderHdr) (s : State) (hk : Kept s0 s) : Kept s0 (doOwnerRenew h s) := by
  unfold doOwnerRenew
  with_reducible repeat' first | assumption | (refine Kept.upd ?_ rfl rfl rfl rfl rfl rfl rfl; first | assumption | apply reply_kept)

theorem execOwnerRenew_goes {s0 : State} (h : OrderHdr) (s : State) (hk : Kept s0 s) : Goes s0 (execOwnerRenew h s) := by
  unfold execOwnerRenew
  with_reducible repeat' first | assumption | apply Goes.next | apply withOrder_kept | apply doOwnerRenew_kept

theorem doOwnerHandover_kept {s0 : State} (h : OrderHdr) (m : Nat) (s : State) (hk : Kept s0 s) : Kept s0 (doOwnerHandover h m s) := by
  unfold doOwnerHandover
  with_reducible repeat' first | apply judged_kept | (refine Kept.upd ?_ rfl rfl rfl rfl rfl rfl rfl; first | assumption | apply judged_kept | apply accept_kept)

theorem execOwnerHandover_goes {s0 : State} (h : OrderHdr) (m : Nat) (s : State) (hk : Kept s0 s) : Goes s0 (execOwnerHandover h m s) := by
  unfold execOwnerHandover
  with_reducible repeat' first | assumption | apply Goes.next | apply withOrder_kept | apply doOwnerHandover_kept

theorem doOwnerAccept_kept {s0 : State} (h : OrderHdr) (s : State) (hk : Kept s0 s) : Kept s0 (doOwnerAccept h s) := by
  unfold doOwnerAccept
  with_reducible repeat' first | apply reply_kept | (refine Kept.upd ?_ rfl rfl rfl rfl rfl rfl rfl; first | assumption | apply reply_kept | apply finish_kept) | split

theorem execOwnerAccept_goes {s0 : State} (h : OrderHdr) (s : State) (hk : Kept s0 s) : Goes s0 (execOwnerAccept h s) := by
  unfold execOwnerAccept
  with_reducible repeat' first | assumption | apply Goes.next | apply withOrder_kept | apply doOwnerAccept_kept

theorem doOwnerRelease_kept {s0 : State} (h : OrderHdr) (s : State) (hk : Kept s0 s) : Kept s0 (doOwnerRelease h s) := by
  unfold doOwnerRelease
  with_reducible repeat' first | apply reply_kept | (refine Kept.upd ?_ rfl rfl rfl rfl rfl rfl rfl; first | assumption | apply reply_kept | apply dropHandover_kept)

theorem execOwnerRelease_goes {s0 : State} (h : OrderHdr) (s : State) (hk : Kept s0 s) : Goes s0 (execOwnerRelease h s) := by
  unfold execOwnerRelease
  with_reducible repeat' first | assumption | apply Goes.next | apply withOrder_kept | apply doOwnerRelease_kept

theorem execElectionWindowClose_goes {s0 : State} (s : State) (hk : Kept s0 s) : Goes s0 (execElectionWindowClose s) := by
  unfold execElectionWindowClose
  with_reducible repeat' first | (intro _) | apply Goes.next | apply Goes.when | (refine Kept.upd ?_ rfl rfl rfl rfl rfl rfl rfl; first | assumption | apply finish_kept | apply foldl_kept) | split

theorem execLeaseExpiry_goes {s0 : State} (s : State) (hk : Kept s0 s) : Goes s0 (execLeaseExpiry s) := by
  unfold execLeaseExpiry
  with_reducible repeat' first | apply Goes.when | apply dropHandover_kept | (refine Kept.upd ?_ rfl rfl rfl rfl rfl rfl rfl; first | assumption | apply dropHandover_kept | apply noteHub_kept)

theorem execHandoverExpiry_goes {s0 : State} (s : State) (hk : Kept s0 s) : Goes s0 (execHandoverExpiry s) := by
  unfold execHandoverExpiry
  with_reducible repeat' first | assumption | apply Goes.when | apply dropHandover_kept

theorem doStatusWindowRead_kept {s0 : State} (h : OrderHdr) (offset length : Nat) (s : State) (hk : Kept s0 s) : Kept s0 (doStatusWindowRead h offset length s) := by
  unfold doStatusWindowRead
  with_reducible repeat' first | assumption | apply judged_kept | apply reply_kept | apply rearmAuth_kept

theorem execStatusWindowRead_goes {s0 : State} (h : OrderHdr) (offset length : Nat) (s : State) (hk : Kept s0 s) : Goes s0 (execStatusWindowRead h offset length s) := by
  unfold execStatusWindowRead
  with_reducible repeat' first | assumption | apply Goes.next | apply withOrder_kept | apply doStatusWindowRead_kept

theorem statusRead_kept {s0 : State} (s : State) (p : Packet) (hk : Kept s0 s) : Kept s0 (statusRead s p) := by
  unfold statusRead
  with_reducible repeat' first | assumption | apply sendDl_kept | apply rearmAuth_kept | split | dsimp only

theorem execStatusRead_goes {s0 : State} (p : Packet) (s : State) (hk : Kept s0 s) : Goes s0 (execStatusRead p s) := by
  unfold execStatusRead
  with_reducible repeat' first | assumption | apply Goes.when | apply statusRead_kept

end Sys2Proof.Machine

/-! ### SystemOrders -/

namespace Sys2Proof.Machine

theorem agreeKey_kept {s0 : State} (s : State) (h : OrderHdr) (m : Nat) (q : Nat × Nat) (qBytes : List Byte) (hk : Kept s0 s) : Kept s0 (agreeKey s h m q qBytes) := by
  unfold agreeKey
  with_reducible repeat' first | assumption | apply reply_kept | (refine Kept.upd ?_ rfl rfl rfl rfl rfl rfl rfl; first | assumption | apply useFreeN_kept | apply reply_kept | apply emptyWindow_kept)

theorem doMgmtKeyAgree_kept {s0 : State} (h : OrderHdr) (key : List Byte) (s : State) (hk : Kept s0 s) : Kept s0 (doMgmtKeyAgree h key s) := by
  unfold doMgmtKeyAgree
  with_reducible repeat' first | assumption | apply reply_kept | apply agreeKey_kept | split

theorem execMgmtKeyAgree_goes {s0 : State} (h : OrderHdr) (key : List Byte) (s : State) (hk : Kept s0 s) : Goes s0 (execMgmtKeyAgree h key s) := by
  unfold execMgmtKeyAgree
  with_reducible repeat' first | assumption | apply Goes.next | apply withOrder_kept | apply doMgmtKeyAgree_kept

theorem execMgmtKeyPreviousExpiry_goes {s0 : State} (m : Nat) (s : State) (hk : Kept s0 s) : Goes s0 (execMgmtKeyPreviousExpiry m s) := by
  unfold execMgmtKeyPreviousExpiry
  with_reducible repeat' first | apply Goes.next | apply Goes.when | (refine Kept.upd ?_ rfl rfl rfl rfl rfl rfl rfl; first | assumption) | split

theorem doAttestReport_kept {s0 : State} (h : OrderHdr) (nonce : BitVec 256) (s : State) (hk : Kept s0 s) : Kept s0 (doAttestReport h nonce s) := by
  unfold doAttestReport
  with_reducible repeat' first | assumption | apply reply_kept | apply useFree_kept

theorem execAttestReport_goes {s0 : State} (h : OrderHdr) (nonce : BitVec 256) (s : State) (hk : Kept s0 s) : Goes s0 (execAttestReport h nonce s) := by
  unfold execAttestReport
  with_reducible repeat' first | assumption | apply Goes.next | apply withOrder_kept | apply doAttestReport_kept

theorem doFwWrite_kept {s0 : State} (h : OrderHdr) (image offset length : Nat) (s : State) (hk : Kept s0 s) : Kept s0 (doFwWrite h image offset length s) := by
  unfold doFwWrite
  with_reducible repeat' first | apply ownRead_kept | apply accept_kept | (refine Kept.upd ?_ rfl rfl rfl rfl rfl rfl rfl; first | assumption | apply ownRead_kept | apply judged_kept | apply accept_kept | apply activate_kept)

theorem execFwWrite_goes {s0 : State} (h : OrderHdr) (image offset length : Nat) (s : State) (hk : Kept s0 s) : Goes s0 (execFwWrite h image offset length s) := by
  unfold execFwWrite
  with_reducible repeat' first | assumption | apply Goes.next | apply withOrder_kept | apply doFwWrite_kept

theorem doFwActivate_kept {s0 : State} (h : OrderHdr) (image : Nat) (s : State) (hk : Kept s0 s) : Kept s0 (doFwActivate h image s) := by
  unfold doFwActivate
  with_reducible repeat' first | assumption | apply accept_kept | (refine Kept.upd ?_ rfl rfl rfl rfl rfl rfl rfl; first | assumption | apply judged_kept | apply accept_kept | apply activate_kept)

theorem execFwActivate_goes {s0 : State} (h : OrderHdr) (image : Nat) (s : State) (hk : Kept s0 s) : Goes s0 (execFwActivate h image s) := by
  unfold execFwActivate
  with_reducible repeat' first | assumption | apply Goes.next | apply withOrder_kept | apply doFwActivate_kept

theorem putFlash_kept {s0 : State} (s : State) (place : Nat) (ok : Bool) (d : List Byte) (hk : Kept s0 s) : Kept s0 (putFlash s place ok d) := by
  unfold putFlash
  with_reducible repeat' first | apply lifeAdd_kept | (refine Kept.upd ?_ rfl rfl rfl rfl rfl rfl rfl; first | assumption | apply lifeAdd_kept | apply useFree_kept) | split

theorem tearPlace_kept {s0 : State} (s : State) (w : FwWork) (hk : Kept s0 s) : Kept s0 (tearPlace s w) := by
  unfold tearPlace
  with_reducible repeat' first | assumption | apply putFlash_kept | (refine Kept.upd ?_ rfl rfl rfl rfl rfl rfl rfl; first | assumption | apply putFlash_kept | apply useFree_kept)

theorem writeDone_kept {s0 : State} (s : State) (w : FwWork) (ok : Bool) (hk : Kept s0 s) : Kept s0 (writeDone s w ok) := by
  unfold writeDone
  with_reducible repeat' first | assumption | apply putFlash_kept | (refine Kept.upd ?_ rfl rfl rfl rfl rfl rfl rfl; first | assumption | apply putFlash_kept | apply finish_kept) | split | dsimp only

theorem execFwWriteDone_goes {s0 : State} (flashOk : Bool) (s : State) (hk : Kept s0 s) : Goes s0 (execFwWriteDone flashOk s) := by
  unfold execFwWriteDone
  with_reducible repeat' first | assumption | apply Goes.next | apply Goes.when | (refine Kept.upd ?_ rfl rfl rfl rfl rfl rfl rfl; first | assumption | apply writeDone_kept) | split

theorem burnRow_kept {s0 : State} (s : State) (hk : Kept s0 s) : Kept s0 (burnRow s) := by
  unfold burnRow
  with_reducible repeat' first | assumption | apply note_kept | (refine Kept.upd ?_ rfl rfl rfl rfl rfl rfl rfl; first | assumption | apply useFree_kept | apply note_kept | apply lifeAdd_kept) | split | dsimp only

theorem burn_kept {s0 : State} (s : State) (i : List Byte) (hk : Kept s0 s) : Kept s0 (burn s i) := by
  unfold burn
  refine foldl_kept (fun s _ h => burnRow_kept s h) ?_
  exact hk.trans { pending := rfl, clock := rfl, free := Nat.le_refl _, wire := List.prefix_rfl, cells := fun w => ⟨w.bytes, w.scratch, w.priv⟩,
                   floor := Nat.le_max_left _ _, revoked := by rw [← BitVec.or_assoc, BitVec.or_self] }

theorem activateImage_kept {s0 : State} (s : State) (w : FwWork) (ok : Bool) (hk : Kept s0 s) : Kept s0 (activateImage s w ok) := by
  unfold activateImage
  with_reducible repeat' first | assumption | apply burn_kept | (refine Kept.upd ?_ rfl rfl rfl rfl rfl rfl rfl; first | assumption | apply burn_kept | apply finish_kept) | split | dsimp only

theorem activateDone_kept {s0 : State} (s : State) (w : FwWork) (ok : Bool) (hk : Kept s0 s) : Kept s0 (activateDone s w ok) := by
  unfold activateDone
  with_reducible repeat' first | assumption | apply finish_kept | apply activateImage_kept | split | dsimp only

theorem execFwActivateDone_goes {s0 : State} (flashOk : Bool) (s : State) (hk : Kept s0 s) : Goes s0 (execFwActivateDone flashOk s) := by
  unfold execFwActivateDone
  with_reducible repeat' first | assumption | apply Goes.next | apply Goes.when | (refine Kept.upd ?_ rfl rfl rfl rfl rfl rfl rfl; first | assumption | apply activateDone_kept) | split

theorem doPortRead_kept {s0 : State} (h : OrderHdr) (plane port : Nat) (s : State) (hk : Kept s0 s) : Kept s0 (doPortRead h plane port s) := by
  unfold doPortRead
  with_reducible repeat' first | assumption | apply judged_kept | apply reply_kept

theorem execPortRead_goes {s0 : State} (h : OrderHdr) (plane port : Nat) (s : State) (hk : Kept s0 s) : Goes s0 (execPortRead h plane port s) := by
  unfold execPortRead
  with_reducible repeat' first | assumption | apply Goes.next | apply withOrder_kept | apply doPortRead_kept

theorem beginChange_kept {s0 : State} (s : State) (pair n : Nat) (h : OrderHdr) (hk : Kept s0 s) : Kept s0 (beginChange s pair n h) := by
  unfold beginChange
  with_reducible repeat' first | apply setFailover_kept | apply accept_kept | (refine Kept.upd ?_ rfl rfl rfl rfl rfl rfl rfl; first | assumption | apply setFailover_kept | apply modPort_kept | apply accept_kept | apply bringUpPartner_kept) | split | dsimp only

theorem doPortSelect_kept {s0 : State} (h : OrderHdr) (pair plane : Nat) (s : State) (hk : Kept s0 s) : Kept s0 (doPortSelect h pair plane s) := by
  unfold doPortSelect
  with_reducible repeat' first | assumption | apply judged_kept | apply reply_kept | apply beginChange_kept | split

theorem execPortSelect_goes {s0 : State} (h : OrderHdr) (pair plane : Nat) (s : State) (hk : Kept s0 s) : Goes s0 (execPortSelect h pair plane s) := by
  unfold execPortSelect
  with_reducible repeat' first | assumption | apply Goes.next | apply withOrder_kept | apply doPortSelect_kept

theorem doPortRetrain_kept {s0 : State} (h : OrderHdr) (plane port : Nat) (s : State) (hk : Kept s0 s) : Kept s0 (doPortRetrain h plane port s) := by
  unfold doPortRetrain
  with_reducible repeat' first | assumption | apply judged_kept | apply beginExchange_kept | apply modPort_kept | apply accept_kept

theorem execPortRetrain_goes {s0 : State} (h : OrderHdr) (plane port : Nat) (s : State) (hk : Kept s0 s) : Goes s0 (execPortRetrain h plane port s) := by
  unfold execPortRetrain
  with_reducible repeat' first | assumption | apply Goes.next | apply withOrder_kept | apply doPortRetrain_kept

theorem doFaultRead_kept {s0 : State} (h : OrderHdr) (sel : Nat) (s : State) (hk : Kept s0 s) : Kept s0 (doFaultRead h sel s) := by
  unfold doFaultRead
  with_reducible repeat' first | assumption | apply reply_kept | apply modMaster_kept | apply accept_kept | split | dsimp only

theorem execFaultRead_goes {s0 : State} (h : OrderHdr) (sel : Nat) (s : State) (hk : Kept s0 s) : Goes s0 (execFaultRead h sel s) := by
  unfold execFaultRead
  with_reducible repeat' first | assumption | apply Goes.next | apply withOrder_kept | apply doFaultRead_kept

theorem execFaultReadWaitExpiry_goes {s0 : State} (m : Nat) (s : State) (hk : Kept s0 s) : Goes s0 (execFaultReadWaitExpiry m s) := by
  unfold execFaultReadWaitExpiry
  with_reducible repeat' first | assumption | apply Goes.next | apply Goes.when | apply finish_kept | apply modMaster_kept | split

theorem ackRecord_kept {s0 : State} (s : State) (cls : Nat) (hub : Bool) (region : Nat) (r : FaultRecord) (hk : Kept s0 s) : Kept s0 (ackRecord s cls hub region r) := by
  unfold ackRecord
  with_reducible repeat' first | assumption | apply modLog_kept | apply setPending_kept | apply modRegFault_kept | apply startWithheld_kept | split

theorem doFaultAck_kept {s0 : State} (h : OrderHdr) (sel cls : Nat) (s : State) (hk : Kept s0 s) : Kept s0 (doFaultAck h sel cls s) := by
  unfold doFaultAck
  with_reducible repeat' first | assumption | apply judged_kept | apply reply_kept | apply ackRecord_kept | split

theorem execFaultAck_goes {s0 : State} (h : OrderHdr) (sel cls : Nat) (s : State) (hk : Kept s0 s) : Goes s0 (execFaultAck h sel cls s) := by
  unfold execFaultAck
  with_reducible repeat' first | assumption | apply Goes.next | apply withOrder_kept | apply doFaultAck_kept

theorem doClockSet_kept {s0 : State} (h : OrderHdr) (calendar : Nat) (s : State) (hk : Kept s0 s) : Kept s0 (doClockSet h calendar s) := by
  unfold doClockSet
  with_reducible repeat' first | assumption | apply judged_kept | (refine Kept.upd ?_ rfl rfl rfl rfl rfl rfl rfl; first | assumption | apply eventRec_kept | apply judged_kept | apply reply_kept)

theorem execClockSet_goes {s0 : State} (h : OrderHdr) (calendar : Nat) (s : State) (hk : Kept s0 s) : Goes s0 (execClockSet h calendar s) := by
  unfold execClockSet
  with_reducible repeat' first | assumption | apply Goes.next | apply withOrder_kept | apply doClockSet_kept

theorem doLifetimeRead_kept {s0 : State} (h : OrderHdr) (g : Nat) (s : State) (hk : Kept s0 s) : Kept s0 (doLifetimeRead h g s) := by
  unfold doLifetimeRead
  with_reducible repeat' first | assumption | apply judged_kept | apply reply_kept

theorem execLifetimeRead_goes {s0 : State} (h : OrderHdr) (g : Nat) (s : State) (hk : Kept s0 s) : Goes s0 (execLifetimeRead h g s) := by
  unfold execLifetimeRead
  with_reducible repeat' first | assumption | apply Goes.next | apply withOrder_kept | apply doLifetimeRead_kept

theorem doBistRead_kept {s0 : State} (h : OrderHdr) (k : Nat) (s : State) (hk : Kept s0 s) : Kept s0 (doBistRead h k s) := by
  unfold doBistRead
  with_reducible repeat' first | assumption | apply judged_kept | apply reply_kept

theorem execBistRead_goes {s0 : State} (h : OrderHdr) (k : Nat) (s : State) (hk : Kept s0 s) : Goes s0 (execBistRead h k s) := by
  unfold execBistRead
  with_reducible repeat' first | assumption | apply Goes.next | apply withOrder_kept | apply doBistRead_kept

theorem doPowerLimit_kept {s0 : State} (h : OrderHdr) (watts : Nat) (s : State) (hk : Kept s0 s) : Kept s0 (doPowerLimit h watts s) := by
  unfold doPowerLimit
  with_reducible repeat' first | apply judged_kept | (refine Kept.upd ?_ rfl rfl rfl rfl rfl rfl rfl; first | assumption | apply judged_kept | apply accept_kept)

theorem execPowerLimit_goes {s0 : State} (h : OrderHdr) (watts : Nat) (s : State) (hk : Kept s0 s) : Goes s0 (execPowerLimit h watts s) := by
  unfold execPowerLimit
  with_reducible repeat' first | assumption | apply Goes.next | apply withOrder_kept | apply doPowerLimit_kept

end Sys2Proof.Machine

/-! ### Shutdown -/

namespace Sys2Proof.Machine

theorem eraseBlock_kept {s0 : State} (s : State) (place : Nat) (hk : Kept s0 s) : Kept s0 (eraseBlock s place) := by
  unfold eraseBlock
  with_reducible repeat' first | assumption | (refine Kept.upd ?_ rfl rfl rfl rfl rfl rfl rfl; first | assumption)

theorem newBlock_kept {s0 : State} (s : State) (place : Nat) (hk : Kept s0 s) : Kept s0 (newBlock s place) := by
  unfold newBlock
  with_reducible repeat' first | assumption | apply eraseBlock_kept | (refine Kept.upd ?_ rfl rfl rfl rfl rfl rfl rfl; first | assumption | apply eraseBlock_kept | apply lifeAdd_kept)

theorem putRecord_kept {s0 : State} (s : State) (r : LogRec) (hk : Kept s0 s) : Kept s0 (putRecord s r) := by
  unfold putRecord
  with_reducible repeat' first | assumption | (refine Kept.upd ?_ rfl rfl rfl rfl rfl rfl rfl; first | assumption | apply lifeAdd_kept)

theorem writeLog_kept {s0 : State} (s : State) (r : LogRec) (hk : Kept s0 s) : Kept s0 (writeLog s r) := by
  unfold writeLog
  with_reducible repeat' first | assumption | apply putRecord_kept | (refine Kept.upd ?_ rfl rfl rfl rfl rfl rfl rfl; first | assumption | apply newBlock_kept) | split

theorem retireBlock_kept {s0 : State} (s : State) (r : LogRec) (hk : Kept s0 s) : Kept s0 (retireBlock s r) := by
  unfold retireBlock
  with_reducible repeat' first | assumption | apply lifeAdd_kept | (refine Kept.upd ?_ rfl rfl rfl rfl rfl rfl rfl; first | assumption | apply eraseBlock_kept) | split

theorem writeBuffer_kept {s0 : State} (s : State) (hk : Kept s0 s) : Kept s0 (writeBuffer s) := by
  unfold writeBuffer
  with_reducible repeat' first | apply writeLog_kept | (refine Kept.upd ?_ rfl rfl rfl rfl rfl rfl rfl; first | assumption | apply writeLog_kept | apply foldl_kept)

theorem checkpointRec_kept {s0 : State} (s : State) (hk : Kept s0 s) : Kept s0 (checkpointRec s) := by
  unfold checkpointRec
  with_reducible repeat' first | assumption | apply eventRec_kept

theorem stopImages_kept {s0 : State} (s : State) (hk : Kept s0 s) : Kept s0 (stopImages s) := by
  unfold stopImages
  with_reducible repeat' first | (intro _) | assumption | apply tearPlace_kept | (refine Kept.upd ?_ rfl rfl rfl rfl rfl rfl rfl; first | assumption | apply tearPlace_kept | apply finish_kept | apply foldl_kept) | split

theorem beginPowerDown_kept {s0 : State} (s : State) (cause : Nat) (hk : Kept s0 s) : Kept s0 (beginPowerDown s cause) := by
  unfold beginPowerDown
  with_reducible repeat' first | apply answerWaits_kept | apply stopWork_kept | apply eventRec_kept | (refine Kept.upd ?_ rfl rfl rfl rfl rfl rfl rfl; first | assumption | apply answerWaits_kept | apply stopImages_kept | apply stopWork_kept | apply checkpointRec_kept | apply eventRec_kept | apply lifeAdd_kept)

theorem keptByReset_kept {s0 : State} (s : State) (hk : Kept s0 s) : Kept s0 (keptByReset s) :=
  hk.trans { pending := rfl, clock := rfl, free := Nat.le_refl _, wire := List.prefix_rfl, cells := fun _ => ⟨⟨List.Pairwise.nil, by intro c h; cases h⟩, ⟨List.Pairwise.nil, by intro c h; cases h⟩, ⟨List.Pairwise.nil, by intro c h; cases h⟩⟩,
             floor := Nat.le_refl _, revoked := BitVec.or_self }

theorem resetModule_kept {s0 : State} (s : State) (cause : Nat) (resetN : Bool) (stage : Stage) (hk : Kept s0 s) : Kept s0 (resetModule s cause resetN stage) := by
  unfold resetModule
  with_reducible repeat' first | assumption | (refine Kept.upd ?_ rfl rfl rfl rfl rfl rfl rfl; first | assumption | apply keptByReset_kept)

theorem powerOff_kept {s0 : State} (s : State) (cause : Nat) (stage : Stage) (hk : Kept s0 s) : Kept s0 (powerOff s cause stage) := by
  unfold powerOff
  with_reducible repeat' first | assumption | (refine Kept.upd ?_ rfl rfl rfl rfl rfl rfl rfl; first | assumption | apply keptByReset_kept)

theorem powerDown_kept {s0 : State} (s : State) (hk : Kept s0 s) : Kept s0 (powerDown s) := by
  unfold powerDown
  with_reducible repeat' first | assumption | apply beginPowerDown_kept | apply powerOff_kept | split

theorem haltWith_kept {s0 : State} (s : State) (cause : Nat) (hk : Kept s0 s) : Kept s0 (haltWith s cause) := by
  unfold haltWith
  with_reducible repeat' first | assumption | apply raise_kept

theorem haltOnce_kept {s0 : State} (s : State) (cause : Nat) (hk : Kept s0 s) : Kept s0 (haltOnce s cause) := by
  unfold haltOnce
  with_reducible repeat' first | assumption | (refine Kept.upd ?_ rfl rfl rfl rfl rfl rfl rfl; first | assumption | apply haltWith_kept) | split

theorem raiseAgain_kept {s0 : State} (s : State) (cause : Nat) (hk : Kept s0 s) : Kept s0 (raiseAgain s cause) := by
  unfold raiseAgain
  with_reducible repeat' first | assumption | (refine Kept.upd ?_ rfl rfl rfl rfl rfl rfl rfl; first | assumption)

theorem warn_kept {s0 : State} (s : State) (hk : Kept s0 s) : Kept s0 (warn s) := by
  unfold warn
  with_reducible repeat' first | assumption | (refine Kept.upd ?_ rfl rfl rfl rfl rfl rfl rfl; first | assumption | apply lifeAdd_kept) | split

theorem trip_kept {s0 : State} (s : State) (hk : Kept s0 s) : Kept s0 (trip s) := by
  unfold trip
  with_reducible repeat' first | apply powerDown_kept | (refine Kept.upd ?_ rfl rfl rfl rfl rfl rfl rfl; first | assumption | apply powerDown_kept | apply lifeAdd_kept) | split

end Sys2Proof.Machine

/-! ### Channels -/

namespace Sys2Proof.Machine

theorem channelCycle_kept {s0 : State} (s : State) (p c pc : Nat) (hk : Kept s0 s) : Kept s0 (channelCycle s p c pc) := by
  unfold channelCycle
  with_reducible repeat' first | apply modChan_kept | (refine Kept.upd ?_ rfl rfl rfl rfl rfl rfl rfl; first | assumption | apply modChan_kept | apply modPchan_kept)

theorem execChannelIssue_goes {s0 : State} (p c pc : Nat) (s : State) (hk : Kept s0 s) : Goes s0 (execChannelIssue p c pc s) := by
  unfold execChannelIssue
  with_reducible repeat' first | assumption | apply Goes.when | apply channelCycle_kept

theorem refreshBank_kept {s0 : State} (s : State) (p c pc bank : Nat) (hk : Kept s0 s) : Kept s0 (refreshBank s p c pc bank) := by
  unfold refreshBank
  with_reducible repeat' first | assumption | apply modPchan_kept | apply modChan_kept

theorem execRefreshDue_goes {s0 : State} (p c pc bank : Nat) (s : State) (hk : Kept s0 s) : Goes s0 (execRefreshDue p c pc bank s) := by
  unfold execRefreshDue
  with_reducible repeat' first | assumption | apply Goes.when | apply refreshBank_kept

theorem goodReading_kept {s0 : State} (s : State) (p t : Nat) (hk : Kept s0 s) : Kept s0 (goodReading s p t) := by
  unfold goodReading
  with_reducible repeat' first | assumption | apply stackLife_kept | apply modStack_kept | split

theorem failedReading_kept {s0 : State} (s : State) (p : Nat) (hk : Kept s0 s) : Kept s0 (failedReading s p) := by
  unfold failedReading
  with_reducible repeat' first | assumption | apply noteR_kept | apply modStack_kept | apply raiseR_kept | split | dsimp only

theorem applyLimit_kept {s0 : State} (s : State) (p : Nat) (hk : Kept s0 s) : Kept s0 (applyLimit s p) := by
  unfold applyLimit
  with_reducible repeat' first | assumption | apply modStack_kept | apply answerLimit_kept | apply foldl_kept | split | dsimp only

theorem execStackTempRead_goes {s0 : State} (p : Nat) (reading : Option Nat) (s : State) (hk : Kept s0 s) : Goes s0 (execStackTempRead p reading s) := by
  unfold execStackTempRead
  with_reducible repeat' first | assumption | apply Goes.when | apply goodReading_kept | apply failedReading_kept | apply warn_kept | apply applyLimit_kept | apply trip_kept | split

theorem writePatterns_kept {s0 : State} (s : State) (p c : Nat) (hk : Kept s0 s) : Kept s0 (writePatterns s p c) := by
  unfold writePatterns
  with_reducible repeat' first | (refine Kept.upd ?_ rfl rfl rfl rfl rfl rfl rfl; first | assumption)

theorem startPause_kept {s0 : State} (s : State) (p c : Nat) (hk : Kept s0 s) : Kept s0 (startPause s p c) := by
  unfold startPause
  with_reducible repeat' first | assumption | apply issueCmds_kept | apply writePatterns_kept | apply modPchan_kept | apply modChan_kept

theorem execRetrainDue_goes {s0 : State} (p c : Nat) (s : State) (hk : Kept s0 s) : Goes s0 (execRetrainDue p c s) := by
  unfold execRetrainDue
  with_reducible repeat' first | assumption | apply Goes.when | apply startPause_kept

theorem execRetrainRerunDue_goes {s0 : State} (p c : Nat) (s : State) (hk : Kept s0 s) : Goes s0 (execRetrainRerunDue p c s) := by
  unfold execRetrainRerunDue
  with_reducible repeat' first | assumption | apply Goes.when | apply startPause_kept

theorem pauseGood_kept {s0 : State} (s : State) (p c : Nat) (hk : Kept s0 s) : Kept s0 (pauseGood s p c) := by
  unfold pauseGood
  with_reducible repeat' first | assumption | apply modChan_kept | apply useFree_kept | apply stackLife_kept | apply modStack_kept | split | dsimp only

theorem execRetrainPauseDone_goes {s0 : State} (p c : Nat) (inMargin : Bool) (s : State) (hk : Kept s0 s) : Goes s0 (execRetrainPauseDone p c inMargin s) := by
  unfold execRetrainPauseDone
  with_reducible repeat' first | assumption | apply Goes.when | apply modChan_kept | apply pauseGood_kept | apply raiseR_kept | split

theorem trainChan_kept {s0 : State} (s : State) (p c : Nat) (hk : Kept s0 s) : Kept s0 (trainChan s p c) := by
  unfold trainChan
  with_reducible repeat' first | assumption | apply modChan_kept | apply writePatterns_kept | apply refreshAll_kept | apply loadTiming_kept | apply useFreeN_kept

theorem execChannelFullTrainDone_goes {s0 : State} (p c : Nat) (passed_ : Bool) (s : State) (hk : Kept s0 s) : Goes s0 (execChannelFullTrainDone p c passed_ s) := by
  unfold execChannelFullTrainDone
  with_reducible repeat' first | assumption | apply Goes.when | apply modChan_kept | apply beginRejoin_kept | apply trainChan_kept | split

theorem execParityAlert_goes {s0 : State} (p c pc : Nat) (s : State) (hk : Kept s0 s) : Goes s0 (execParityAlert p c pc s) := by
  unfold execParityAlert
  with_reducible repeat' first | assumption | apply Goes.when | apply modPchan_kept | apply modChan_kept

theorem execParityReplayDone_goes {s0 : State} (p c pc : Nat) (s : State) (hk : Kept s0 s) : Goes s0 (execParityReplayDone p c pc s) := by
  unfold execParityReplayDone
  with_reducible repeat' first | assumption | apply Goes.when | apply modPchan_kept | apply stackLife_kept | apply modStack_kept | apply noteR_kept | apply raiseR_kept | apply modChan_kept | split

theorem sleepChan_kept {s0 : State} (s : State) (p c : Nat) (hk : Kept s0 s) : Kept s0 (sleepChan s p c) := by
  unfold sleepChan
  with_reducible repeat' first | assumption | apply refreshAll_kept | apply modChan_kept | apply issueCmds_kept

theorem execSelfRefreshEntry_goes {s0 : State} (p c : Nat) (s : State) (hk : Kept s0 s) : Goes s0 (execSelfRefreshEntry p c s) := by
  unfold execSelfRefreshEntry
  with_reducible repeat' first | assumption | apply Goes.when | apply sleepChan_kept

theorem execSelfRefreshExit_goes {s0 : State} (p c : Nat) (s : State) (hk : Kept s0 s) : Goes s0 (execSelfRefreshExit p c s) := by
  unfold execSelfRefreshExit
  with_reducible repeat' first | assumption | apply Goes.when | apply wakeChan_kept

theorem startRate_kept {s0 : State} (s : State) (p : Nat) (hk : Kept s0 s) : Kept s0 (startRate s p) := by
  unfold startRate
  with_reducible repeat' first | assumption | apply modStack_kept

theorem execRateChangeStart_goes {s0 : State} (p : Nat) (s : State) (hk : Kept s0 s) : Goes s0 (execRateChangeStart p s) := by
  unfold execRateChangeStart
  with_reducible repeat' first | assumption | apply Goes.when | apply startRate_kept | apply sliceOver_kept | split | dsimp only

theorem newRate_kept {s0 : State} (s : State) (p : Nat) (hk : Kept s0 s) : Kept s0 (newRate s p) := by
  unfold newRate
  with_reducible repeat' first | (intro _) | assumption | apply modStack_kept | apply wakeChan_kept | apply loadTiming_kept | apply noteR_kept | apply foldl_kept | split

theorem execRateChangeDone_goes {s0 : State} (p : Nat) (s : State) (hk : Kept s0 s) : Goes s0 (execRateChangeDone p s) := by
  unfold execRateChangeDone
  with_reducible repeat' first | assumption | apply Goes.when | apply newRate_kept | apply answerLimit_kept | apply modStack_kept | apply foldl_kept | split

theorem stackTrained_kept {s0 : State} (s : State) (p : Nat) (hk : Kept s0 s) : Kept s0 (stackTrained s p) := by
  unfold stackTrained
  with_reducible repeat' first | (refine Kept.upd ?_ rfl rfl rfl rfl rfl rfl rfl; first | assumption)

theorem firstPasses_kept {s0 : State} (s : State) (p : Nat) (hk : Kept s0 s) : Kept s0 (firstPasses s p) := by
  unfold firstPasses
  with_reducible repeat' first | assumption | apply modBist_kept | split

theorem serveStack_kept {s0 : State} (s : State) (p l : Nat) (hk : Kept s0 s) : Kept s0 (serveStack s p l) := by
  unfold serveStack
  with_reducible repeat' first | (intro _) | assumption | apply modStack_kept | apply trainChan_kept | apply stackTrained_kept | apply firstPasses_kept | apply stackFlags_kept | apply foldl_kept

theorem execStackTrainingDone_goes {s0 : State} (p : Nat) (passed_ : Bool) (s : State) (hk : Kept s0 s) : Goes s0 (execStackTrainingDone p passed_ s) := by
  unfold execStackTrainingDone
  with_reducible repeat' first | assumption | apply Goes.when | apply serveStack_kept | apply raiseR_kept | apply stackTrained_kept | split

theorem execMetadataWriteDone_goes {s0 : State} (l : Nat) (s : State) (hk : Kept s0 s) : Goes s0 (execMetadataWriteDone l s) := by
  unfold execMetadataWriteDone
  dsimp only
  split
  · exact Goes.next hk
  · refine Goes.when hk (hk.trans ?_)
    exact { pending := rfl, clock := rfl, free := Nat.le_refl _, wire := List.prefix_rfl, cells := fun w => ⟨Memory.wf_filter _ w.bytes, w.scratch, w.priv⟩,
            floor := Nat.le_refl _, revoked := BitVec.or_self }

end Sys2Proof.Machine

/-! ### Stripes -/

namespace Sys2Proof.Machine

theorem execStripeEntryHoldExpiry_goes {s0 : State} (l stripe : Nat) (s : State) (hk : Kept s0 s) : Goes s0 (execStripeEntryHoldExpiry l stripe s) := by
  unfold execStripeEntryHoldExpiry
  with_reducible repeat' first | assumption | apply Goes.next | apply Goes.when | apply sabPut_kept | split

theorem execStripeCommit_goes {s0 : State} (l stripe : Nat) (s : State) (hk : Kept s0 s) : Goes s0 (execStripeCommit l stripe s) := by
  unfold execStripeCommit
  with_reducible repeat' first | assumption | apply Goes.next | apply Goes.when | apply commitEntry_kept | split

theorem execStripeLockGrant_goes {s0 : State} (l stripe : Nat) (s : State) (hk : Kept s0 s) : Goes s0 (execStripeLockGrant l stripe s) := by
  unfold execStripeLockGrant
  with_reducible repeat' first | apply Goes.next | apply Goes.when | (refine Kept.upd ?_ rfl rfl rfl rfl rfl rfl rfl; first | assumption | apply commitOpen_kept) | split | dsimp only

theorem execCorrectiveRewrite_goes {s0 : State} (l stripe pos : Nat) (errorAgain : Bool) (s : State) (hk : Kept s0 s) : Goes s0 (execCorrectiveRewrite l stripe pos errorAgain s) := by
  unfold execCorrectiveRewrite
  with_reducible repeat' first | (intro _) | apply Goes.next | apply Goes.when | apply rowTrigger_kept | (refine Kept.upd ?_ rfl rfl rfl rfl rfl rfl rfl; first | assumption | apply putChunk_kept | apply rowTrigger_kept | apply underLock_kept) | split | dsimp only

theorem rewriteChunk_kept {s0 : State} (l p : Nat) (s : State) (x : Nat × Nat) (hk : Kept s0 s) : Kept s0 (rewriteChunk l p s x) := by
  unfold rewriteChunk
  with_reducible repeat' first | assumption | apply commitOpen_kept | apply storeMark_kept | apply rebuildParity_kept | apply storeChunk_kept | apply blotAll_kept | apply readChunk_kept | apply dropLock_kept | split | dsimp only

theorem repairRow_kept {s0 : State} (s : State) (p c place : Nat) (hk : Kept s0 s) : Kept s0 (repairRow s p c place) := by
  unfold repairRow
  with_reducible repeat' first | apply rewriteChunk_kept | apply modStack_kept | (refine Kept.upd ?_ rfl rfl rfl rfl rfl rfl rfl; first | assumption | apply rewriteChunk_kept | apply stackLife_kept | apply modStack_kept | apply eventRec_kept | apply foldl_kept) | split

theorem rowDone_kept {s0 : State} (s : State) (r : RowRef) (hk : Kept s0 s) : Kept s0 (rowDone s r) := by
  unfold rowDone
  with_reducible repeat' first | (refine Kept.upd ?_ rfl rfl rfl rfl rfl rfl rfl; first | assumption)

theorem execRowRepair_goes {s0 : State} (p c place : Nat) (s : State) (hk : Kept s0 s) : Goes s0 (execRowRepair p c place s) := by
  unfold execRowRepair
  with_reducible repeat' first | (intro _) | assumption | apply Goes.next | apply Goes.when | apply noteR_kept | apply modStack_kept | apply rowDone_kept | apply repairRow_kept | apply askLock_kept | apply foldl_kept | split | dsimp only

theorem scrubChunk_kept {s0 : State} (l p stripe : Nat) (s : State) (k : Nat) (hk : Kept s0 s) : Kept s0 (scrubChunk l p stripe s k) := by
  unfold scrubChunk
  with_reducible repeat' first | assumption | apply storeMark_kept | apply readChunk_kept | split

theorem scrubParity_kept {s0 : State} (s : State) (l p stripe : Nat) (hk : Kept s0 s) : Kept s0 (scrubParity s l p stripe) := by
  unfold scrubParity
  with_reducible repeat' first | assumption | apply storeMark_kept | apply blotAll_kept | apply rebuildParity_kept | apply putChunk_kept | apply noteR_kept | apply modStack_kept | apply schedule_kept | split | dsimp only

theorem scrubChunks_kept {s0 : State} (l p stripe : Nat) : ∀ (n : Nat) (s : State), Kept s0 s → Kept s0 (scrubChunks l p stripe n s)
  | 0, _, h => h
  | n + 1, s, h => by
    unfold scrubChunks
    with_reducible repeat' first | assumption | apply scrubChunks_kept | apply modStack_kept | apply scrubParity_kept | apply scrubChunk_kept | apply Kept.ite | split | dsimp only

theorem keepLock_kept {s0 : State} (s : State) (l stripe : Nat) (kind : LockKind) (hk : Kept s0 s) : Kept s0 (keepLock s l stripe kind) := by
  unfold keepLock
  with_reducible repeat' first | assumption | (refine Kept.upd ?_ rfl rfl rfl rfl rfl rfl rfl; first | assumption | apply dropLock_kept)

theorem scrubStripe_kept {s0 : State} (l p stripe : Nat) (s : State) (hk : Kept s0 s) : Kept s0 (scrubStripe l p stripe s) := by
  unfold scrubStripe
  with_reducible repeat' first | assumption | apply askLock_kept | apply scrubChunks_kept | apply commitOpen_kept | apply keepLock_kept | apply modStack_kept | apply dropLock_kept | split | dsimp only

theorem patrolStripe_kept {s0 : State} (s : State) (l ptr : Nat) (hk : Kept s0 s) : Kept s0 (patrolStripe s l ptr).2 := by
  unfold patrolStripe
  with_reducible repeat' first | assumption | (refine Kept.upd ?_ rfl rfl rfl rfl rfl rfl rfl; first | assumption)

theorem passDone_kept {s0 : State} (s : State) (p : Nat) (hk : Kept s0 s) : Kept s0 (passDone s p) := by
  unfold passDone
  with_reducible repeat' first | assumption | apply modStack_kept

theorem execScrubStripe_goes {s0 : State} (p : Nat) (s : State) (hk : Kept s0 s) : Goes s0 (execScrubStripe p s) := by
  unfold execScrubStripe
  with_reducible repeat' first | assumption | apply Goes.when | apply patrolStripe_kept | apply scrubStripe_kept | apply passDone_kept | split

theorem execScrubPeriodEnd_goes {s0 : State} (p : Nat) (s : State) (hk : Kept s0 s) : Goes s0 (execScrubPeriodEnd p s) := by
  unfold execScrubPeriodEnd
  with_reducible repeat' first | assumption | apply Goes.when | apply modStack_kept

theorem execChannelRejoinStep_goes {s0 : State} (p c : Nat) (s : State) (hk : Kept s0 s) : Goes s0 (execChannelRejoinStep p c s) := by
  unfold execChannelRejoinStep
  with_reducible repeat' first | (intro _) | assumption | apply Goes.next | apply Goes.when | apply modChan_kept | apply underLock_kept | apply rejoinStripe_kept | split

theorem execChannelRejoined_goes {s0 : State} (p c : Nat) (s : State) (hk : Kept s0 s) : Goes s0 (execChannelRejoined p c s) := by
  unfold execChannelRejoined
  with_reducible repeat' first | assumption | apply Goes.next | apply Goes.when | apply rejoinDone_kept | split

theorem spendTriggers_kept {s0 : State} (s : State) (p : Nat) (hk : Kept s0 s) : Kept s0 (spendTriggers s p) := by
  unfold spendTriggers
  with_reducible repeat' first | assumption | (refine Kept.upd ?_ rfl rfl rfl rfl rfl rfl rfl; first | assumption | apply modStack_kept) | split | dsimp only

theorem execEvacuationStart_goes {s0 : State} (k : Nat) (s : State) (hk : Kept s0 s) : Goes s0 (execEvacuationStart k s) := by
  unfold execEvacuationStart
  with_reducible repeat' first | assumption | apply Goes.next | apply Goes.when | apply beginEvac_kept | apply triggerEvac_kept | apply spendTriggers_kept | split | dsimp only

theorem execSpareTrained_goes {s0 : State} (k : Nat) (s : State) (hk : Kept s0 s) : Goes s0 (execSpareTrained k s) := by
  unfold execSpareTrained
  with_reducible repeat' first | (intro _) | assumption | apply Goes.next | apply Goes.when | apply modStack_kept | apply firstPasses_kept | apply trainChan_kept | apply setEvac_kept | apply foldl_kept | split

theorem execEvacuationCopyStripe_goes {s0 : State} (k : Nat) (s : State) (hk : Kept s0 s) : Goes s0 (execEvacuationCopyStripe k s) := by
  unfold execEvacuationCopyStripe
  with_reducible repeat' first | assumption | apply Goes.next | apply Goes.when | apply copyStripe_kept | split

theorem execEvacuationCutover_goes {s0 : State} (k : Nat) (s : State) (hk : Kept s0 s) : Goes s0 (execEvacuationCutover k s) := by
  unfold execEvacuationCutover
  with_reducible repeat' first | assumption | apply Goes.next | apply Goes.when | apply cutover_kept | split

theorem execEvacuationAbandon_goes {s0 : State} (k : Nat) (s : State) (hk : Kept s0 s) : Goes s0 (execEvacuationAbandon k s) := by
  unfold execEvacuationAbandon
  with_reducible repeat' first | assumption | apply Goes.next | apply raiseR_kept | split

end Sys2Proof.Machine
end

