-- ==== Sys2Proof/Laws/KeptEvents.lean ====
section
/-! SUPPORT. Every operation on the state keeps what no command undoes, and every meaning goes on: Threads, PoolOps, EngineEvents, LinkEvents, DlEvents, Startup, Power. -/

/-! ### Threads -/

namespace Sys2Proof.Machine

theorem placeItem_kept {s0 : State} (s : State) (n i e : Nat) (p : Spray) (hk : Kept s0 s) : Kept s0 (placeItem s n i e p) := by
  unfold placeItem
  with_reducible repeat' first | (intro _) | assumption | apply endItem_kept | apply setSpray_kept | apply foldl_kept | split

theorem execThreadPlacement_goes {s0 : State} (n i : Nat) (s : State) (hk : Kept s0 s) : Goes s0 (execThreadPlacement n i s) := by
  unfold execThreadPlacement
  with_reducible repeat' first | assumption | apply Goes.next | apply Goes.when | apply placeItem_kept | split

theorem execThreadStart_goes {s0 : State} (e : Nat) (s : State) (hk : Kept s0 s) : Goes s0 (execThreadStart e s) := by
  unfold execThreadStart
  with_reducible repeat' first | assumption | apply Goes.next | apply Goes.when | apply startItem_kept | split

theorem execThreadEnd_goes {s0 : State} (t : ThreadRef) (s : State) (hk : Kept s0 s) : Goes s0 (execThreadEnd t s) := by
  unfold execThreadEnd
  with_reducible repeat' first | assumption | apply Goes.next | apply Goes.when | apply endThread_kept | split

theorem execWatchdogExpiry_goes {s0 : State} (t : ThreadRef) (s : State) (hk : Kept s0 s) : Goes s0 (execWatchdogExpiry t s) := by
  unfold execWatchdogExpiry
  with_reducible repeat' first | assumption | apply Goes.next | apply Goes.when | apply stopThread_kept | split

theorem execSprayComplete_goes {s0 : State} (n : Nat) (s : State) (hk : Kept s0 s) : Goes s0 (execSprayComplete n s) := by
  unfold execSprayComplete
  with_reducible repeat' first | assumption | apply Goes.next | apply Goes.when | apply completeSpray_kept | split

end Sys2Proof.Machine

/-! ### PoolOps -/

namespace Sys2Proof.Machine

theorem issueItem_kept {s0 : State} (s : State) (t : ThreadRef) (x : Tile) (hk : Kept s0 s) : Kept s0 (issueItem s t x) := by
  unfold issueItem
  with_reducible repeat' first | assumption | apply newTile_kept | apply failThread_kept | split

theorem itemStage_kept {s0 : State} (s : State) (t : ThreadRef) (th : Thread) (p : Spray) (hk : Kept s0 s) : Kept s0 (itemStage s t th p) := by
  unfold itemStage
  with_reducible repeat' first | assumption | apply failThread_kept | apply setThread_kept | apply useFree_kept | apply issueItem_kept | split | dsimp only

theorem itemStep_kept {s0 : State} (kind : Nat) (t : ThreadRef) (s : State) (hk : Kept s0 s) : Kept s0 (itemStep kind t s) := by
  unfold itemStep
  with_reducible repeat' first | assumption | apply itemStage_kept | split

theorem execFill_goes {s0 : State} (t : ThreadRef) (s : State) (hk : Kept s0 s) : Goes s0 (execFill t s) := by
  unfold execFill
  with_reducible repeat' first | assumption | apply Goes.next | apply itemStep_kept

theorem execZero_goes {s0 : State} (t : ThreadRef) (s : State) (hk : Kept s0 s) : Goes s0 (execZero t s) := by
  unfold execZero
  with_reducible repeat' first | assumption | apply Goes.next | apply itemStep_kept

theorem execCopy_goes {s0 : State} (t : ThreadRef) (s : State) (hk : Kept s0 s) : Goes s0 (execCopy t s) := by
  unfold execCopy
  with_reducible repeat' first | assumption | apply Goes.next | apply itemStep_kept

theorem execCompare_goes {s0 : State} (t : ThreadRef) (s : State) (hk : Kept s0 s) : Goes s0 (execCompare t s) := by
  unfold execCompare
  with_reducible repeat' first | assumption | apply Goes.next | apply itemStep_kept

theorem execReduce_goes {s0 : State} (t : ThreadRef) (s : State) (hk : Kept s0 s) : Goes s0 (execReduce t s) := by
  unfold execReduce
  with_reducible repeat' first | assumption | apply Goes.next | apply itemStep_kept

theorem execGather_goes {s0 : State} (t : ThreadRef) (s : State) (hk : Kept s0 s) : Goes s0 (execGather t s) := by
  unfold execGather
  with_reducible repeat' first | assumption | apply Goes.next | apply itemStep_kept

theorem execScatter_goes {s0 : State} (t : ThreadRef) (s : State) (hk : Kept s0 s) : Goes s0 (execScatter t s) := by
  unfold execScatter
  with_reducible repeat' first | assumption | apply Goes.next | apply itemStep_kept

theorem execSearch_goes {s0 : State} (t : ThreadRef) (s : State) (hk : Kept s0 s) : Goes s0 (execSearch t s) := by
  unfold execSearch
  with_reducible repeat' first | assumption | apply Goes.next | apply itemStep_kept

theorem execAttend_goes {s0 : State} (t : ThreadRef) (s : State) (hk : Kept s0 s) : Goes s0 (execAttend t s) := by
  unfold execAttend
  with_reducible repeat' first | assumption | apply Goes.next | apply itemStep_kept

theorem execDigest_goes {s0 : State} (t : ThreadRef) (s : State) (hk : Kept s0 s) : Goes s0 (execDigest t s) := by
  unfold execDigest
  with_reducible repeat' first | assumption | apply Goes.next | apply itemStep_kept

theorem mergeUnit_kept {s0 : State} (s : State) (t : ThreadRef) (th : Thread) (p : Spray) (hk : Kept s0 s) : Kept s0 (mergeUnit s t th p) := by
  unfold mergeUnit
  with_reducible repeat' first | assumption | apply markUnit_kept | apply modSpray_kept | apply useFree_kept

theorem commitUnit_kept {s0 : State} (s : State) (t : ThreadRef) (th : Thread) (p : Spray) (hk : Kept s0 s) : Kept s0 (commitUnit s t th p) := by
  unfold commitUnit
  with_reducible repeat' first | assumption | apply mergeUnit_kept | apply issueItem_kept | split

theorem execPoolItemUnitCommit_goes {s0 : State} (t : ThreadRef) (s : State) (hk : Kept s0 s) : Goes s0 (execPoolItemUnitCommit t s) := by
  unfold execPoolItemUnitCommit
  with_reducible repeat' first | assumption | apply Goes.next | apply Goes.when | apply commitUnit_kept | split

end Sys2Proof.Machine

/-! ### EngineEvents -/

namespace Sys2Proof.Machine

theorem execEngineLocalAccess_goes {s0 : State} (id : Nat) (s : State) (hk : Kept s0 s) : Goes s0 (execEngineLocalAccess id s) := by
  unfold execEngineLocalAccess
  with_reducible repeat' first | assumption | apply Goes.next | apply Goes.when | apply issueLocal_kept | split

theorem execEngineQueueRoom_goes {s0 : State} (k : Nat) (s : State) (hk : Kept s0 s) : Goes s0 (execEngineQueueRoom k s) := by
  unfold execEngineQueueRoom
  with_reducible repeat' first | assumption | apply Goes.next | apply Goes.when | apply modRegion_kept | apply enterIngress_kept | apply arrive_kept | split

theorem firstSend_kept {s0 : State} (s : State) (id : Nat) (x : Access) (t : Tile) (p : Spray) (hk : Kept s0 s) : Kept s0 (firstSend s id x t p) := by
  unfold firstSend
  with_reducible repeat' first | apply sendRemote_kept | (refine Kept.upd ?_ rfl rfl rfl rfl rfl rfl rfl; first | assumption | apply sendRemote_kept | apply setAccess_kept) | split | dsimp only

theorem execRemoteAccessSend_goes {s0 : State} (id : Nat) (s : State) (hk : Kept s0 s) : Goes s0 (execRemoteAccessSend id s) := by
  unfold execRemoteAccessSend
  with_reducible repeat' first | assumption | apply Goes.next | apply Goes.when | apply failAccess_kept | apply firstSend_kept | split

theorem execRemoteRetryBackoff_goes {s0 : State} (id : Nat) (s : State) (hk : Kept s0 s) : Goes s0 (execRemoteRetryBackoff id s) := by
  unfold execRemoteRetryBackoff
  with_reducible repeat' first | assumption | apply Goes.next | apply Goes.when | apply sendRemote_kept | apply setAccess_kept | split

theorem execRemoteTimeout_goes {s0 : State} (id : Nat) (s : State) (hk : Kept s0 s) : Goes s0 (execRemoteTimeout id s) := by
  unfold execRemoteTimeout
  with_reducible repeat' first | apply Goes.next | apply Goes.when | apply failAccess_kept | (refine Kept.upd ?_ rfl rfl rfl rfl rfl rfl rfl; first | assumption | apply failAccess_kept | apply closeForwards_kept) | split

theorem execFaultBatchClose_goes {s0 : State} (k : Nat) (s : State) (hk : Kept s0 s) : Goes s0 (execFaultBatchClose k s) := by
  unfold execFaultBatchClose
  with_reducible repeat' first | assumption | apply Goes.when | apply closeBatch_kept

theorem writeLines_kept {s0 : State} (base k tenant : Nat) : ∀ (l : List (Nat × Nat × Line)) (s : State), Kept s0 s → Kept s0 (writeLines base k tenant l s).2
  | [], _, h => h
  | (o, len, d) :: rest, s, h => by
    unfold writeLines
    dsimp only
    split
    · exact writeLines_kept base k tenant rest _ (moduleStore_kept _ _ _ _ _ _ _ _ _ h)
    · exact moduleStore_kept _ _ _ _ _ _ _ _ _ h

theorem withdrawRing_kept {s0 : State} (s : State) (b : Batch) (hk : Kept s0 s) : Kept s0 (withdrawRing s b) := by
  unfold withdrawRing
  with_reducible repeat' first | assumption | (refine Kept.upd ?_ rfl rfl rfl rfl rfl rfl rfl; first | assumption | apply noteR_kept)

theorem execFaultBatchWrite_goes {s0 : State} (k : Nat) (s : State) (hk : Kept s0 s) : Goes s0 (execFaultBatchWrite k s) := by
  unfold execFaultBatchWrite
  with_reducible repeat' first | apply Goes.next | apply Goes.when | apply withdrawRing_kept | (refine Kept.upd ?_ rfl rfl rfl rfl rfl rfl rfl; first | assumption | apply withdrawRing_kept | apply writeLines_kept) | split | dsimp only

theorem execFaultTimeout_goes {s0 : State} (i : Nat) (s : State) (hk : Kept s0 s) : Goes s0 (execFaultTimeout i s) := by
  unfold execFaultTimeout
  with_reducible repeat' first | assumption | apply Goes.next | apply Goes.when | apply failThread_kept | split

theorem endInval_kept {s0 : State} (s : State) (v : Inval) (hk : Kept s0 s) : Kept s0 (endInval s v) := by
  unfold endInval
  with_reducible repeat' first | assumption | (refine Kept.upd ?_ rfl rfl rfl rfl rfl rfl rfl; first | assumption | apply finish_kept) | split

theorem execInvalidateAck_goes {s0 : State} (e : Nat) (s : State) (hk : Kept s0 s) : Goes s0 (execInvalidateAck e s) := by
  unfold execInvalidateAck
  with_reducible repeat' first | apply Goes.next | apply endInval_kept | (refine Kept.upd ?_ rfl rfl rfl rfl rfl rfl rfl; first | assumption | apply endInval_kept | apply foldl_kept)

theorem execPlannedMoveStart_goes {s0 : State} (e : Nat) (s : State) (hk : Kept s0 s) : Goes s0 (execPlannedMoveStart e s) := by
  unfold execPlannedMoveStart
  with_reducible repeat' first | assumption | apply Goes.when | apply beginMove_kept

theorem moveThread_kept {s0 : State} (s : State) (e : Nat) (x : Nat × Nat × Thread) (hk : Kept s0 s) : Kept s0 (moveThread s e x) := by
  unfold moveThread
  refine setThread_kept _ _ _ _ (dropThread_kept _ _ _ (modSpray_kept _ _ _ ?_))
  exact hk.trans { pending := rfl, clock := rfl, free := Nat.le_refl _, wire := List.prefix_rfl,
                   cells := fun w => ⟨w.bytes, Memory.wf_write _ _ (Memory.wf_write _ _ w.scratch), Memory.wf_write _ _ (Memory.wf_write _ _ w.priv)⟩,
                   floor := Nat.le_refl _, revoked := BitVec.or_self }

theorem moveDone_kept {s0 : State} (s : State) (e : Nat) (m : PlannedMove) (hk : Kept s0 s) : Kept s0 (moveDone s e m) := by
  unfold moveDone
  with_reducible repeat' first | (intro _) | assumption | apply modLogEng_kept | apply modPhys_kept | apply replaced_kept | apply moveThread_kept | apply foldl_kept | split | dsimp only

theorem execPlannedMoveDone_goes {s0 : State} (e : Nat) (s : State) (hk : Kept s0 s) : Goes s0 (execPlannedMoveDone e s) := by
  unfold execPlannedMoveDone
  with_reducible repeat' first | assumption | apply Goes.next | apply Goes.when | apply wakeResumed_kept | apply moveDone_kept | split

theorem moveAbandoned_kept {s0 : State} (s : State) (e : Nat) (m : PlannedMove) (hk : Kept s0 s) : Kept s0 (moveAbandoned s e m) := by
  unfold moveAbandoned
  with_reducible repeat' first | assumption | apply modLogEng_kept | apply modPhys_kept | apply modBist_kept | apply sliceEntry_kept | split | dsimp only

theorem execPlannedMoveAbandon_goes {s0 : State} (e : Nat) (s : State) (hk : Kept s0 s) : Goes s0 (execPlannedMoveAbandon e s) := by
  unfold execPlannedMoveAbandon
  with_reducible repeat' first | assumption | apply Goes.next | apply Goes.when | apply wakeResumed_kept | apply moveAbandoned_kept | split

theorem execEngineAbruptFail_goes {s0 : State} (k i : Nat) (s : State) (hk : Kept s0 s) : Goes s0 (execEngineAbruptFail k i s) := by
  unfold execEngineAbruptFail
  with_reducible repeat' first | assumption | apply Goes.next | apply raiseR_kept

end Sys2Proof.Machine

/-! ### LinkEvents -/

namespace Sys2Proof.Machine

theorem linkFailed_kept {s0 : State} (s : State) (n : Nat) (lanes : Nat := 0) (hk : Kept s0 s) : Kept s0 (linkFailed s n lanes) := by
  unfold linkFailed
  with_reducible repeat' first | assumption | apply raiseR_kept

theorem protocolError_kept {s0 : State} (s : State) (n : Nat) (hk : Kept s0 s) : Kept s0 (protocolError s n) := by
  unfold protocolError
  with_reducible repeat' first | assumption | apply modPort_kept | apply linkFailed_kept | split | dsimp only

theorem resetLink_kept {s0 : State} (s : State) (n : Nat) (hk : Kept s0 s) : Kept s0 (resetLink s n) := by
  unfold resetLink
  with_reducible repeat' first | assumption | apply beginExchange_kept | apply dropActive_kept | apply bringUpPartner_kept | apply resetInPlace_kept | apply resolveUnknown_kept | split | dsimp only

theorem requestReset_kept {s0 : State} (s : State) (n reason : Nat) (hk : Kept s0 s) : Kept s0 (requestReset s n reason) := by
  unfold requestReset
  with_reducible repeat' first | assumption | apply sendRepeated_kept | apply modPort_kept | split | dsimp only

theorem onHello_kept {s0 : State} (s : State) (n : Nat) (r : HelloRec) (hk : Kept s0 s) : Kept s0 (onHello s n r) := by
  unfold onHello
  with_reducible repeat' first | assumption | apply modPort_kept | apply resolveKnown_kept | apply resolveUnknown_kept | split | dsimp only

theorem execLinkHello_goes {s0 : State} (n : Nat) (r : HelloRec) (s : State) (hk : Kept s0 s) : Goes s0 (execLinkHello n r s) := by
  unfold execLinkHello
  with_reducible repeat' first | assumption | apply Goes.when | apply onHello_kept

theorem setMgr_kept {s0 : State} (s : State) (plane id : Nat) (hk : Kept s0 s) : Kept s0 (setMgr s plane id) := by
  unfold setMgr
  with_reducible repeat' first | (refine Kept.upd ?_ rfl rfl rfl rfl rfl rfl rfl; first | assumption) | split

theorem judgeAssign_kept {s0 : State} (s : State) (n : Nat) (r : AssignRec) (hk : Kept s0 s) : Kept s0 (judgeAssign s n r).2 := by
  unfold judgeAssign
  with_reducible repeat' first | apply noteR_kept | (refine Kept.upd ?_ rfl rfl rfl rfl rfl rfl rfl; first | assumption | apply noteR_kept | apply setMgr_kept) | split | dsimp only

theorem onAssign_kept {s0 : State} (s : State) (n : Nat) (r : AssignRec) (hk : Kept s0 s) : Kept s0 (onAssign s n r) := by
  unfold onAssign
  with_reducible repeat' first | assumption | apply protocolError_kept | apply sendRepeated_kept | apply judgeAssign_kept | apply modPort_kept | split | dsimp only

theorem execLinkAssign_goes {s0 : State} (n : Nat) (r : AssignRec) (s : State) (hk : Kept s0 s) : Goes s0 (execLinkAssign n r s) := by
  unfold execLinkAssign
  with_reducible repeat' first | assumption | apply Goes.when | apply onAssign_kept

theorem onReady_kept {s0 : State} (s : State) (n gen : Nat) (hk : Kept s0 s) : Kept s0 (onReady s n gen) := by
  unfold onReady
  with_reducible repeat' first | assumption | apply modPort_kept | split | dsimp only

theorem execLinkReady_goes {s0 : State} (n gen : Nat) (s : State) (hk : Kept s0 s) : Goes s0 (execLinkReady n gen s) := by
  unfold execLinkReady
  with_reducible repeat' first | assumption | apply Goes.when | apply onReady_kept

theorem onQuery_kept {s0 : State} (s : State) (n : Nat) (r : RecoverRec) (hk : Kept s0 s) : Kept s0 (onQuery s n r) := by
  unfold onQuery
  with_reducible repeat' first | assumption | apply sendCtrl_kept | apply resolveKnown_kept | split | dsimp only

theorem execRecoverQuery_goes {s0 : State} (n : Nat) (r : RecoverRec) (s : State) (hk : Kept s0 s) : Goes s0 (execRecoverQuery n r s) := by
  unfold execRecoverQuery
  with_reducible repeat' first | assumption | apply Goes.when | apply onQuery_kept

theorem onReply_kept {s0 : State} (s : State) (n : Nat) (r : RecoverRec) (hk : Kept s0 s) : Kept s0 (onReply s n r) := by
  unfold onReply
  with_reducible repeat' first | assumption | apply resolveKnown_kept | split | dsimp only

theorem execRecoverReply_goes {s0 : State} (n : Nat) (r : RecoverRec) (s : State) (hk : Kept s0 s) : Goes s0 (execRecoverReply n r s) := by
  unfold execRecoverReply
  with_reducible repeat' first | assumption | apply Goes.when | apply onReply_kept

theorem onStale_kept {s0 : State} (s : State) (n : Nat) (hk : Kept s0 s) : Kept s0 (onStale s n) := by
  unfold onStale
  with_reducible repeat' first | assumption | apply requestReset_kept | split

theorem execStaleRole_goes {s0 : State} (n _gen _found : Nat) (s : State) (hk : Kept s0 s) : Goes s0 (execStaleRole n _gen _found s) := by
  unfold execStaleRole
  with_reducible repeat' first | assumption | apply Goes.when | apply onStale_kept

theorem onResetRequest_kept {s0 : State} (s : State) (n : Nat) (answer : Bool) (hk : Kept s0 s) : Kept s0 (onResetRequest s n answer) := by
  unfold onResetRequest
  with_reducible repeat' first | assumption | apply resetLink_kept | apply sendCtrl_kept | split | dsimp only

theorem execResetRequest_goes {s0 : State} (n _gen _reason : Nat) (answer : Bool) (s : State) (hk : Kept s0 s) : Goes s0 (execResetRequest n _gen _reason answer s) := by
  unfold execResetRequest
  with_reducible repeat' first | assumption | apply Goes.when | apply onResetRequest_kept

theorem repeatCtrl_kept {s0 : State} (s : State) (n : Nat) (hk : Kept s0 s) : Kept s0 (repeatCtrl s n) := by
  unfold repeatCtrl
  with_reducible repeat' first | (intro _) | assumption | apply modPort_kept | apply sendCtrl_kept | apply resetLink_kept | apply foldl_kept | split | dsimp only

theorem execCtrlRepeatTimer_goes {s0 : State} (n : Nat) (s : State) (hk : Kept s0 s) : Goes s0 (execCtrlRepeatTimer n s) := by
  unfold execCtrlRepeatTimer
  with_reducible repeat' first | assumption | apply Goes.when | apply repeatCtrl_kept

theorem resend_kept {s0 : State} (s : State) (n : Nat) (f : TxFlit) (hk : Kept s0 s) : Kept s0 (resend s n f) := by
  unfold resend
  with_reducible repeat' first | assumption | apply emit_kept | apply modPort_kept

theorem replayExpiry_kept {s0 : State} (s : State) (n : Nat) (f : TxFlit) (hk : Kept s0 s) : Kept s0 (replayExpiry s n f) := by
  unfold replayExpiry
  with_reducible repeat' first | assumption | apply modPort_kept | apply resend_kept | apply linkFailed_kept | split | dsimp only

theorem execReplayTimerExpiry_goes {s0 : State} (n : Nat) (s : State) (hk : Kept s0 s) : Goes s0 (execReplayTimerExpiry n s) := by
  unfold execReplayTimerExpiry
  with_reducible repeat' first | assumption | apply Goes.next | apply Goes.when | apply replayExpiry_kept | split

theorem nameMissing_kept {s0 : State} (s : State) (n : Nat) (hk : Kept s0 s) : Kept s0 (nameMissing s n) := by
  unfold nameMissing
  with_reducible repeat' first | assumption | apply emit_kept | apply modPort_kept | split | dsimp only

theorem execNakRepeatTimer_goes {s0 : State} (n : Nat) (s : State) (hk : Kept s0 s) : Goes s0 (execNakRepeatTimer n s) := by
  unfold execNakRepeatTimer
  with_reducible repeat' first | assumption | apply Goes.when | apply nameMissing_kept

theorem execOrphanResolveTimeout_goes {s0 : State} (pair : Nat) (s : State) (hk : Kept s0 s) : Goes s0 (execOrphanResolveTimeout pair s) := by
  unfold execOrphanResolveTimeout
  with_reducible repeat' first | assumption | apply Goes.next | apply Goes.when | apply resolveUnknown_kept | split

theorem execReceivePointHoldExpiry_goes {s0 : State} (n : Nat) (s : State) (hk : Kept s0 s) : Goes s0 (execReceivePointHoldExpiry n s) := by
  unfold execReceivePointHoldExpiry
  with_reducible repeat' first | apply Goes.next | (refine Kept.upd ?_ rfl rfl rfl rfl rfl rfl rfl; first | assumption)

theorem orLost_kept {s0 : State} (n : Nat) (t : Bool × State) (hk : Kept s0 t.2) : Kept s0 (orLost n t) := by
  unfold orLost
  exact Kept.ite (raiseR_kept _ _ _ _ _ hk) hk

theorem trainFailed_kept {s0 : State} (s : State) (n : Nat) (hk : Kept s0 s) : Kept s0 (trainFailed s n) := by
  unfold trainFailed
  with_reducible repeat' first | assumption | apply raiseR_kept | apply settlePorts_kept | apply portDone_kept | split | dsimp only

theorem holdPort_kept {s0 : State} (s : State) (n : Nat) (hk : Kept s0 s) : Kept s0 (holdPort s n) := by
  unfold holdPort
  with_reducible repeat' first | assumption | apply modPort_kept | apply answerRetrain_kept | apply orLost_kept | apply sideFailed_kept

theorem toResync_kept {s0 : State} (s : State) (n : Nat) (hk : Kept s0 s) : Kept s0 (toResync s n) := by
  unfold toResync
  with_reducible repeat' first | assumption | apply modPort_kept

theorem takeOver_kept {s0 : State} (s : State) (n : Nat) (f : Failover) (hk : Kept s0 s) : Kept s0 (takeOver s n f) := by
  unfold takeOver
  with_reducible repeat' first | assumption | apply orLost_kept | apply sideFailed_kept | apply toResync_kept | apply endChange_kept | apply activatePort_kept | split

theorem helloOver_kept {s0 : State} (s : State) (n : Nat) (hk : Kept s0 s) : Kept s0 (helloOver s n) := by
  unfold helloOver
  with_reducible repeat' first | assumption | apply resolveUnknown_kept

theorem afterTraining_kept {s0 : State} (s : State) (n : Nat) (hk : Kept s0 s) : Kept s0 (afterTraining s n) := by
  unfold afterTraining
  with_reducible repeat' first | assumption | apply orLost_kept | apply settleBoth_kept | apply portDone_kept | apply modPort_kept | apply helloOver_kept | apply holdPort_kept | apply takeOver_kept | apply toResync_kept | apply standBy_kept | split | dsimp only

theorem trainingDone_kept {s0 : State} (s : State) (n : Nat) (good : BitVec 9) (hk : Kept s0 s) : Kept s0 (trainingDone s n good) := by
  unfold trainingDone
  with_reducible repeat' first | assumption | apply afterTraining_kept | apply trained_kept | apply trainFailed_kept | apply lockFec_kept | apply formMap_kept | split | dsimp only

theorem execPortTrainingDone_goes {s0 : State} (n : Nat) (good : BitVec 9) (s : State) (hk : Kept s0 s) : Goes s0 (execPortTrainingDone n good s) := by
  unfold execPortTrainingDone
  with_reducible repeat' first | assumption | apply Goes.when | apply trainingDone_kept

theorem bringupDone_kept {s0 : State} (s : State) (n : Nat) (ok : Bool) (hk : Kept s0 s) : Kept s0 (bringupDone s n ok) := by
  unfold bringupDone
  with_reducible repeat' first | assumption | apply beginExchange_kept | apply noteR_kept | apply lockFec_kept | apply holdPort_kept | apply takeOver_kept | apply activatePort_kept | split | dsimp only

theorem execPortBringupDone_goes {s0 : State} (n : Nat) (ok : Bool) (s : State) (hk : Kept s0 s) : Goes s0 (execPortBringupDone n ok s) := by
  unfold execPortBringupDone
  with_reducible repeat' first | assumption | apply Goes.when | apply bringupDone_kept

theorem changeDrained_kept {s0 : State} (s : State) (pair : Nat) (f : Failover) (hk : Kept s0 s) : Kept s0 (changeDrained s pair f) := by
  unfold changeDrained
  with_reducible repeat' first | apply setFailover_kept | apply bringUpPartner_kept | (refine Kept.upd ?_ rfl rfl rfl rfl rfl rfl rfl; first | assumption | apply setFailover_kept | apply holdOrphans_kept | apply bringUpPartner_kept | apply undoChange_kept) | split | dsimp only

theorem execPlannedChangeDrain_goes {s0 : State} (pair : Nat) (s : State) (hk : Kept s0 s) : Goes s0 (execPlannedChangeDrain pair s) := by
  unfold execPlannedChangeDrain
  with_reducible repeat' first | assumption | apply Goes.next | apply Goes.when | apply changeDrained_kept | split

theorem execPortResyncDone_goes {s0 : State} (n : Nat) (s : State) (hk : Kept s0 s) : Goes s0 (execPortResyncDone n s) := by
  unfold execPortResyncDone
  with_reducible repeat' first | assumption | apply Goes.when | apply answerRetrain_kept | apply standBy_kept

theorem beginRefresh_kept {s0 : State} (s : State) (n : Nat) (hk : Kept s0 s) : Kept s0 (beginRefresh s n) := by
  unfold beginRefresh
  with_reducible repeat' first | assumption | apply modPort_kept | apply beginExchange_kept

theorem execSavedStateExpiry_goes {s0 : State} (n : Nat) (s : State) (hk : Kept s0 s) : Goes s0 (execSavedStateExpiry n s) := by
  unfold execSavedStateExpiry
  with_reducible repeat' first | assumption | apply Goes.when | apply beginRefresh_kept

theorem laneOut_kept {s0 : State} (s : State) (n lane : Nat) (lockLost : Bool) (hk : Kept s0 s) : Kept s0 (laneOut s n lane lockLost) := by
  unfold laneOut
  with_reducible repeat' first | assumption | apply modPort_kept | apply linkFailed_kept | apply beginExchange_kept | apply bringUpPartner_kept | apply sendCtrl_kept | apply dropActive_kept | apply requestReset_kept | split | dsimp only

theorem execLaneDegrade_goes {s0 : State} (n lane : Nat) (lockLost : Bool) (s : State) (hk : Kept s0 s) : Goes s0 (execLaneDegrade n lane lockLost s) := by
  unfold execLaneDegrade
  with_reducible repeat' first | assumption | apply Goes.when | apply laneOut_kept

end Sys2Proof.Machine

/-! ### DlEvents -/

namespace Sys2Proof.Machine

theorem startRecovery_kept {s0 : State} (s : State) (hk : Kept s0 s) : Kept s0 (startRecovery s) := by
  unfold startRecovery
  with_reducible repeat' first | assumption | apply modDl_kept

theorem dlTrained_kept {s0 : State} (s : State) (w : Nat) (hk : Kept s0 s) : Kept s0 (dlTrained s w) := by
  unfold dlTrained
  with_reducible repeat' first | assumption | apply modDl_kept | apply repeatCreditInit_kept | apply emptyWindow_kept

theorem execDlFullTrainingDone_goes {s0 : State} (good : BitVec 16) (s : State) (hk : Kept s0 s) : Goes s0 (execDlFullTrainingDone good s) := by
  unfold execDlFullTrainingDone
  with_reducible repeat' first | assumption | apply Goes.when | apply dlTrained_kept | apply modDl_kept | split

theorem rebindSlot0_kept {s0 : State} (s : State) (hk : Kept s0 s) : Kept s0 (rebindSlot0 s) := by
  unfold rebindSlot0
  with_reducible repeat' first | assumption | apply setSlot_kept | split

theorem dlActivate_kept {s0 : State} (s : State) (hk : Kept s0 s) : Kept s0 (dlActivate s) := by
  unfold dlActivate
  with_reducible repeat' first | assumption | apply flushDl_kept | apply rebindSlot0_kept | apply modDl_kept

theorem onCreditInit_kept {s0 : State} (s : State) (r : DlCtrlRec) (hk : Kept s0 s) : Kept s0 (onCreditInit s r) := by
  unfold onCreditInit
  with_reducible repeat' first | assumption | apply countDiscard_kept | apply modDl_kept | apply repeatCreditInit_kept | apply dlActivate_kept | split | dsimp only

theorem execDlCreditInit_goes {s0 : State} (r : DlCtrlRec) (s : State) (hk : Kept s0 s) : Goes s0 (execDlCreditInit r s) := by
  unfold execDlCreditInit
  with_reducible repeat' first | assumption | apply Goes.when | apply onCreditInit_kept

theorem execDlRecoveryRetrain_goes {s0 : State} (s : State) (hk : Kept s0 s) : Goes s0 (execDlRecoveryRetrain s) := by
  unfold execDlRecoveryRetrain
  with_reducible repeat' first | assumption | apply Goes.when | apply flushDl_kept | apply modDl_kept

theorem onWidth_kept {s0 : State} (s : State) (r : DlCtrlRec) (hk : Kept s0 s) : Kept s0 (onWidth s r) := by
  unfold onWidth
  with_reducible repeat' first | assumption | apply countDiscard_kept | apply startRecovery_kept | apply modDl_kept | apply sendDlCtrl_kept | split | dsimp only

theorem execDlWidth_goes {s0 : State} (r : DlCtrlRec) (s : State) (hk : Kept s0 s) : Goes s0 (execDlWidth r s) := by
  unfold execDlWidth
  with_reducible repeat' first | assumption | apply Goes.when | apply onWidth_kept

theorem execDlWidthRetryTimer_goes {s0 : State} (s : State) (hk : Kept s0 s) : Goes s0 (execDlWidthRetryTimer s) := by
  unfold execDlWidthRetryTimer
  with_reducible repeat' first | assumption | apply Goes.next | apply Goes.when | apply sendDlCtrl_kept | apply modDl_kept | split | dsimp only

theorem dlResendAll_kept {s0 : State} (s : State) (hk : Kept s0 s) : Kept s0 (dlResendAll s) := by
  unfold dlResendAll
  with_reducible repeat' first | assumption | apply emit_kept | apply dlBefore_kept | apply modDl_kept | split

theorem execDlReplayTimerExpiry_goes {s0 : State} (s : State) (hk : Kept s0 s) : Goes s0 (execDlReplayTimerExpiry s) := by
  unfold execDlReplayTimerExpiry
  with_reducible repeat' first | assumption | apply Goes.when | apply modDl_kept | apply dlResendAll_kept | apply startRecovery_kept | split

theorem dlDown_kept {s0 : State} (s : State) (hk : Kept s0 s) : Kept s0 (dlDown s) := by
  unfold dlDown
  with_reducible repeat' first | assumption | apply modDl_kept | apply declareFailed_kept | split | dsimp only

theorem execDarinlinkDown_goes {s0 : State} (s : State) (hk : Kept s0 s) : Goes s0 (execDarinlinkDown s) := by
  unfold execDarinlinkDown
  with_reducible repeat' first | assumption | apply Goes.next | apply Goes.when | apply dlDown_kept | split | dsimp only

theorem execDlTrainRetryTimer_goes {s0 : State} (s : State) (hk : Kept s0 s) : Goes s0 (execDlTrainRetryTimer s) := by
  unfold execDlTrainRetryTimer
  with_reducible repeat' first | assumption | apply Goes.when | apply modDl_kept

end Sys2Proof.Machine

/-! ### Startup -/

namespace Sys2Proof.Machine

theorem openInterval_kept {s0 : State} (s : State) (hk : Kept s0 s) : Kept s0 (openInterval s) := by
  unfold openInterval
  with_reducible repeat' first | apply lifeAdd_kept | (refine Kept.upd ?_ rfl rfl rfl rfl rfl rfl rfl; first | assumption | apply lifeAdd_kept | apply eventRec_kept)

theorem activeStack_kept {s0 : State} (s : State) (l : Nat) (hk : Kept s0 s) : Kept s0 (activeStack s l) := by
  unfold activeStack
  with_reducible repeat' first | assumption | apply modStack_kept | apply modRegFault_kept | split | dsimp only

theorem beginService_kept {s0 : State} (s : State) (hk : Kept s0 s) : Kept s0 (beginService s) := by
  unfold beginService
  with_reducible repeat' first | (intro _) | apply activeStack_kept | (refine Kept.upd ?_ rfl rfl rfl rfl rfl rfl rfl; first | assumption | apply activeStack_kept | apply beginExchange_kept | apply foldl_kept)

theorem releaseHub_kept {s0 : State} (s : State) (hk : Kept s0 s) : Kept s0 (releaseHub s) := by
  unfold releaseHub
  with_reducible repeat' first | assumption | apply useFreeN_kept | apply beginService_kept | (refine Kept.upd ?_ rfl rfl rfl rfl rfl rfl rfl; first | assumption | apply useFreeN_kept | apply raise_kept | apply openInterval_kept) | split | dsimp only

theorem cutOff_kept {s0 : State} (s : State) (hk : Kept s0 s) : Kept s0 (cutOff s) := by
  unfold cutOff
  with_reducible repeat' first | (intro _) | assumption | apply respond_kept | apply finish_kept | apply foldl_kept | split

theorem beginStart_kept {s0 : State} (s : State) (cause : Nat) (hk : Kept s0 s) : Kept s0 (beginStart s cause) := by
  unfold beginStart
  with_reducible repeat' first | (refine Kept.upd ?_ rfl rfl rfl rfl rfl rfl rfl; first | assumption)

theorem resetAfter_kept {s0 : State} (s : State) (hk : Kept s0 s) : Kept s0 (resetAfter s) := by
  unfold resetAfter
  with_reducible repeat' first | assumption | apply resetModule_kept | apply cutOff_kept | split

theorem startAfter_kept {s0 : State} (s : State) (hk : Kept s0 s) : Kept s0 (startAfter s) := by
  unfold startAfter
  with_reducible repeat' first | assumption | apply beginStart_kept | split

theorem timeline_kept {s0 : State} (s : State) (hk : Kept s0 s) : Kept s0 (timeline s) := by
  unfold timeline
  with_reducible repeat' first | assumption | apply startAfter_kept | apply resetAfter_kept

theorem execHubResetRelease_goes {s0 : State} (scanPass : Bool) (s : State) (hk : Kept s0 s) : Goes s0 (execHubResetRelease scanPass s) := by
  unfold execHubResetRelease
  with_reducible repeat' first | assumption | apply Goes.when | apply releaseHub_kept | (refine Kept.upd ?_ rfl rfl rfl rfl rfl rfl rfl; first | assumption | apply timeline_kept | apply raise_kept) | split

theorem execOrderServiceStart_goes {s0 : State} (s : State) (hk : Kept s0 s) : Goes s0 (execOrderServiceStart s) := by
  unfold execOrderServiceStart
  with_reducible repeat' first | apply Goes.when | (refine Kept.upd ?_ rfl rfl rfl rfl rfl rfl rfl; first | assumption | apply modDl_kept)

theorem selfTested_kept {s0 : State} (s : State) (k : Nat) (failing : List Nat) (hk : Kept s0 s) : Kept s0 (selfTested s k failing) := by
  unfold selfTested
  with_reducible repeat' first | (intro _) | apply modBist_kept | (refine Kept.upd ?_ rfl rfl rfl rfl rfl rfl rfl; first | assumption | apply modBist_kept | apply raise_kept | apply foldl_kept)

theorem execStartupSelfTestDone_goes {s0 : State} (k : Nat) (failing : List Nat) (s : State) (hk : Kept s0 s) : Goes s0 (execStartupSelfTestDone k failing s) := by
  unfold execStartupSelfTestDone
  with_reducible repeat' first | assumption | apply Goes.when | apply selfTested_kept

theorem execStartupTimeout_goes {s0 : State} (s : State) (hk : Kept s0 s) : Goes s0 (execStartupTimeout s) := by
  unfold execStartupTimeout
  with_reducible repeat' first | assumption | apply Goes.when | apply timeline_kept | apply haltOnce_kept

theorem execReadyAssert_goes {s0 : State} (s : State) (hk : Kept s0 s) : Goes s0 (execReadyAssert s) := by
  unfold execReadyAssert
  with_reducible repeat' first | apply Goes.when | (refine Kept.upd ?_ rfl rfl rfl rfl rfl rfl rfl; first | assumption)

theorem doModuleReset_kept {s0 : State} (h : OrderHdr) (s : State) (hk : Kept s0 s) : Kept s0 (doModuleReset h s) := by
  unfold doModuleReset
  with_reducible repeat' first | assumption | apply reply_kept | (refine Kept.upd ?_ rfl rfl rfl rfl rfl rfl rfl; first | assumption | apply beginPowerDown_kept | apply reply_kept | apply judged_kept)

theorem execModuleReset_goes {s0 : State} (h : OrderHdr) (s : State) (hk : Kept s0 s) : Goes s0 (execModuleReset h s) := by
  unfold execModuleReset
  with_reducible repeat' first | assumption | apply Goes.next | apply withOrder_kept | apply doModuleReset_kept

theorem execResetNRise_goes {s0 : State} (s : State) (hk : Kept s0 s) : Goes s0 (execResetNRise s) := by
  unfold execResetNRise
  with_reducible repeat' first | apply Goes.when | (refine Kept.upd ?_ rfl rfl rfl rfl rfl rfl rfl; first | assumption | apply beginStart_kept) | split

theorem pinReset_kept {s0 : State} (s : State) (hk : Kept s0 s) : Kept s0 (pinReset s) := by
  unfold pinReset
  with_reducible repeat' first | apply resetModule_kept | (refine Kept.upd ?_ rfl rfl rfl rfl rfl rfl rfl; first | assumption | apply resetModule_kept | apply powerOff_kept) | split

theorem execResetNLow_goes {s0 : State} (ns : Nat) (s : State) (hk : Kept s0 s) : Goes s0 (execResetNLow ns s) := by
  unfold execResetNLow
  with_reducible repeat' first | assumption | apply Goes.next | apply pinReset_kept | apply useFree_kept | split

theorem execPwrOkFall_goes {s0 : State} (s : State) (hk : Kept s0 s) : Goes s0 (execPwrOkFall s) := by
  unfold execPwrOkFall
  with_reducible repeat' first | apply Goes.when | (refine Kept.upd ?_ rfl rfl rfl rfl rfl rfl rfl; first | assumption | apply powerDown_kept)

theorem execPwrOkRise_goes {s0 : State} (s : State) (hk : Kept s0 s) : Goes s0 (execPwrOkRise s) := by
  unfold execPwrOkRise
  with_reducible repeat' first | apply Goes.when | (refine Kept.upd ?_ rfl rfl rfl rfl rfl rfl rfl; first | assumption)

theorem execConvertersStop_goes {s0 : State} (s : State) (hk : Kept s0 s) : Goes s0 (execConvertersStop s) := by
  unfold execConvertersStop
  with_reducible repeat' first | assumption | apply Goes.when | apply cutOff_kept | apply powerOff_kept | split

end Sys2Proof.Machine

/-! ### Power -/

namespace Sys2Proof.Machine

theorem inputSeen_kept {s0 : State} (s : State) (mv ma : Nat) (hk : Kept s0 s) : Kept s0 (inputSeen s mv ma) := by
  unfold inputSeen
  with_reducible repeat' first | assumption | apply haltOnce_kept | (refine Kept.upd ?_ rfl rfl rfl rfl rfl rfl rfl; first | assumption | apply raiseAgain_kept) | split | dsimp only

theorem execInputMonitor_goes {s0 : State} (mv ma : Nat) (s : State) (hk : Kept s0 s) : Goes s0 (execInputMonitor mv ma s) := by
  unfold execInputMonitor
  with_reducible repeat' first | assumption | apply Goes.when | apply powerOff_kept | apply inputSeen_kept | split

theorem setLevel_kept {s0 : State} (s : State) (level : Nat) (hk : Kept s0 s) : Kept s0 (setLevel s level) := by
  unfold setLevel
  with_reducible repeat' first | (intro _) | assumption | (refine Kept.upd ?_ rfl rfl rfl rfl rfl rfl rfl; first | assumption | apply modStack_kept | apply foldl_kept)

theorem takeLimit_kept {s0 : State} (s : State) (hk : Kept s0 s) : Kept s0 (takeLimit s) := by
  unfold takeLimit
  with_reducible repeat' first | (refine Kept.upd ?_ rfl rfl rfl rfl rfl rfl rfl; first | assumption) | split

theorem raiseLevel_kept {s0 : State} (s : State) (p : Nat) (hk : Kept s0 s) : Kept s0 (raiseLevel s p) := by
  unfold raiseLevel
  with_reducible repeat' first | assumption | (refine Kept.upd ?_ rfl rfl rfl rfl rfl rfl rfl; first | assumption | apply setLevel_kept) | split

theorem lowerLevel_kept {s0 : State} (s : State) (p : Nat) (hk : Kept s0 s) : Kept s0 (lowerLevel s p) := by
  unfold lowerLevel
  with_reducible repeat' first | assumption | (refine Kept.upd ?_ rfl rfl rfl rfl rfl rfl rfl; first | assumption | apply setLevel_kept) | split | dsimp only

theorem overPower_kept {s0 : State} (s : State) (p : Nat) (hk : Kept s0 s) : Kept s0 (overPower s p) := by
  unfold overPower
  with_reducible repeat' first | assumption | apply haltOnce_kept | (refine Kept.upd ?_ rfl rfl rfl rfl rfl rfl rfl; first | assumption | apply raiseAgain_kept) | split | dsimp only

theorem evaluate_kept {s0 : State} (s : State) (avg10 avg1 : Nat) (hk : Kept s0 s) : Kept s0 (evaluate s avg10 avg1) := by
  unfold evaluate
  with_reducible repeat' first | (intro _) | assumption | apply lowerLevel_kept | apply takeLimit_kept | (refine Kept.upd ?_ rfl rfl rfl rfl rfl rfl rfl; first | assumption | apply overPower_kept | apply lowerLevel_kept | apply raiseLevel_kept | apply takeLimit_kept | apply finish_kept | apply foldl_kept)

theorem execPowerEvaluation_goes {s0 : State} (avg10 avg1 : Nat) (s : State) (hk : Kept s0 s) : Goes s0 (execPowerEvaluation avg10 avg1 s) := by
  unfold execPowerEvaluation
  with_reducible repeat' first | assumption | apply Goes.when | apply evaluate_kept

theorem dieHub_kept {s0 : State} (s : State) (hk : Kept s0 s) : Kept s0 (dieHub s) := by
  unfold dieHub
  with_reducible repeat' first | assumption | apply warn_kept | (refine Kept.upd ?_ rfl rfl rfl rfl rfl rfl rfl; first | assumption | apply setLevel_kept) | split

theorem dieSeen_kept {s0 : State} (s : State) (die t : Nat) (hk : Kept s0 s) : Kept s0 (dieSeen s die t) := by
  unfold dieSeen
  with_reducible repeat' first | assumption | apply dieHub_kept | (refine Kept.upd ?_ rfl rfl rfl rfl rfl rfl rfl; first | assumption | apply trip_kept) | split | dsimp only

theorem execDieTempRead_goes {s0 : State} (die : Nat) (sensors : List Nat) (s : State) (hk : Kept s0 s) : Goes s0 (execDieTempRead die sensors s) := by
  unfold execDieTempRead
  with_reducible repeat' first | assumption | apply Goes.when | apply dieSeen_kept

theorem execRefClockLoss_goes {s0 : State} (s : State) (hk : Kept s0 s) : Goes s0 (execRefClockLoss s) := by
  unfold execRefClockLoss
  with_reducible repeat' first | apply Goes.when | (refine Kept.upd ?_ rfl rfl rfl rfl rfl rfl rfl; first | assumption)

theorem execRefClockReturn_goes {s0 : State} (s : State) (hk : Kept s0 s) : Goes s0 (execRefClockReturn s) := by
  unfold execRefClockReturn
  with_reducible repeat' first | apply Goes.when | (refine Kept.upd ?_ rfl rfl rfl rfl rfl rfl rfl; first | assumption) | split | dsimp only

theorem execRefClockAbsentTimeout_goes {s0 : State} (s : State) (hk : Kept s0 s) : Goes s0 (execRefClockAbsentTimeout s) := by
  unfold execRefClockAbsentTimeout
  with_reducible repeat' first | assumption | apply Goes.next | apply Goes.when | apply timeline_kept | (refine Kept.upd ?_ rfl rfl rfl rfl rfl rfl rfl; first | assumption | apply timeline_kept | apply haltWith_kept) | split | dsimp only

end Sys2Proof.Machine
end

