-- ==== Sys2Proof/Laws/KeptLinks.lean ====
section
/-! SUPPORT. Every operation on the state keeps what no command undoes, and every meaning goes on: SelfTest, RawOrders, Flits, FaultEvents, Sideband, Held. -/

/-! ### SelfTest -/

namespace Sys2Proof.Machine

theorem leaveService_kept {s0 : State} (s : State) (k unit_ segment : Nat) (hk : Kept s0 s) : Kept s0 (leaveService s k unit_ segment) := by
  unfold leaveService
  with_reducible repeat' first | assumption | apply modChan_kept | apply commitEntry_kept | (refine Kept.upd ?_ rfl rfl rfl rfl rfl rfl rfl; first | assumption | apply modPhys_kept | apply modPchan_kept | apply askWidth_kept | apply foldl_kept) | split | dsimp only

theorem startSlice_kept {s0 : State} (s : State) (k unit_ segment : Nat) (hk : Kept s0 s) : Kept s0 (startSlice s k unit_ segment) := by
  unfold startSlice
  with_reducible repeat' first | apply modBist_kept | (refine Kept.upd ?_ rfl rfl rfl rfl rfl rfl rfl; first | assumption | apply modBist_kept | apply leaveService_kept)

theorem execSliceStart_goes {s0 : State} (k unit_ segment : Nat) (s : State) (hk : Kept s0 s) : Goes s0 (execSliceStart k unit_ segment s) := by
  unfold execSliceStart
  with_reducible repeat' first | assumption | apply Goes.when | apply startSlice_kept | apply modBist_kept | split

theorem spareRow_kept {s0 : State} (s : State) (hub : Bool) (k macro_ row : Nat) (hk : Kept s0 s) : Kept s0 (spareRow s hub k macro_ row).2 := by
  unfold spareRow
  with_reducible repeat' first | apply note_kept | (refine Kept.upd ?_ rfl rfl rfl rfl rfl rfl rfl; first | assumption | apply note_kept | apply lifeAdd_kept) | split | dsimp only

theorem endSlice_kept {s0 : State} (s : State) (k unit_ segment : Nat) (r : SliceResult) (hk : Kept s0 s) : Kept s0 (endSlice s k unit_ segment r) := by
  unfold endSlice
  with_reducible repeat' first | assumption | apply spareRow_kept | apply raise_kept | apply sliceOver_kept | apply askWidth_kept | split | dsimp only

theorem execSliceEnd_goes {s0 : State} (k : Nat) (r : SliceResult) (s : State) (hk : Kept s0 s) : Goes s0 (execSliceEnd k r s) := by
  unfold execSliceEnd
  with_reducible repeat' first | assumption | apply Goes.next | apply endSlice_kept | split

theorem execSliceAbandon_goes {s0 : State} (k : Nat) (cause : AbandonCause) (s : State) (hk : Kept s0 s) : Goes s0 (execSliceAbandon k cause s) := by
  unfold execSliceAbandon
  with_reducible repeat' first | assumption | apply Goes.next | apply Goes.when | apply sliceOver_kept | split

theorem catchUpStripe_kept {s0 : State} (s : State) (k p c l stripe : Nat) (hk : Kept s0 s) : Kept s0 (catchUpStripe s k p c l stripe) := by
  unfold catchUpStripe
  with_reducible repeat' first | (intro _) | assumption | apply underLock_kept | apply modBist_kept | apply rejoinStripe_kept

theorem execCatchupWalkDone_goes {s0 : State} (k : Nat) (s : State) (hk : Kept s0 s) : Goes s0 (execCatchupWalkDone k s) := by
  unfold execCatchupWalkDone
  with_reducible repeat' first | (intro _) | assumption | apply Goes.next | apply Goes.when | apply catchUpStripe_kept | apply sliceEntry_kept | apply modBist_kept | apply foldl_kept | split | dsimp only

theorem execUnitDue_goes {s0 : State} (k unit_ segment : Nat) (s : State) (hk : Kept s0 s) : Goes s0 (execUnitDue k unit_ segment s) := by
  unfold execUnitDue
  with_reducible repeat' first | assumption | apply Goes.when | apply modBist_kept | apply lifeAdd_kept | split

theorem beginExchangeOf_kept {s0 : State} (s : State) (pair n : Nat) (hk : Kept s0 s) : Kept s0 (beginExchangeOf s pair n) := by
  unfold beginExchangeOf
  with_reducible repeat' first | apply modPort_kept | (refine Kept.upd ?_ rfl rfl rfl rfl rfl rfl rfl; first | assumption | apply modPort_kept | apply setFailover_kept)

theorem execPortExchange_goes {s0 : State} (pair : Nat) (s : State) (hk : Kept s0 s) : Goes s0 (execPortExchange pair s) := by
  unfold execPortExchange
  with_reducible repeat' first | assumption | apply Goes.when | apply beginExchangeOf_kept | split

theorem swapPairs_kept {s0 : State} (s : State) (hk : Kept s0 s) : Kept s0 (swapPairs s) := by
  unfold swapPairs
  with_reducible repeat' first | assumption | (refine Kept.upd ?_ rfl rfl rfl rfl rfl rfl rfl; first | assumption)

theorem deferPairs_kept {s0 : State} (s : State) (hk : Kept s0 s) : Kept s0 (deferPairs s) := by
  unfold deferPairs
  with_reducible repeat' first | assumption | (refine Kept.upd ?_ rfl rfl rfl rfl rfl rfl rfl; first | assumption | apply modBist_kept)

theorem execMgmtPairExchange_goes {s0 : State} (s : State) (hk : Kept s0 s) : Goes s0 (execMgmtPairExchange s) := by
  unfold execMgmtPairExchange
  with_reducible repeat' first | assumption | apply Goes.when | apply swapPairs_kept | (refine Kept.upd ?_ rfl rfl rfl rfl rfl rfl rfl; first | assumption | apply deferPairs_kept) | split

theorem endStackTest_kept {s0 : State} (s : State) (k : Nat) (passed_ : Bool) (hk : Kept s0 s) : Kept s0 (endStackTest s k passed_) := by
  unfold endStackTest
  with_reducible repeat' first | apply modStack_kept | (refine Kept.upd ?_ rfl rfl rfl rfl rfl rfl rfl; first | assumption | apply modStack_kept | apply raiseR_kept) | split

theorem beginStackTest_kept {s0 : State} (s : State) (k : Nat) (hk : Kept s0 s) : Kept s0 (beginStackTest s k) := by
  unfold beginStackTest
  with_reducible repeat' first | (intro _) | assumption | apply firstPasses_kept | apply foldl_kept | apply trainChan_kept | apply modStack_kept | (refine Kept.upd ?_ rfl rfl rfl rfl rfl rfl rfl; first | assumption)

theorem execSpareStackTest_goes {s0 : State} (k : Nat) (passed_ : Bool) (s : State) (hk : Kept s0 s) : Goes s0 (execSpareStackTest k passed_ s) := by
  unfold execSpareStackTest
  with_reducible repeat' first | assumption | apply Goes.when | apply endStackTest_kept | apply beginStackTest_kept | split

theorem execFuseBankCheck_goes {s0 : State} (bank : Nat) (_ok : Bool) (s : State) (hk : Kept s0 s) : Goes s0 (execFuseBankCheck bank _ok s) := by
  unfold execFuseBankCheck
  with_reducible repeat' first | apply Goes.when | (refine Kept.upd ?_ rfl rfl rfl rfl rfl rfl rfl; first | assumption)

theorem execCheckpoint_goes {s0 : State} (s : State) (hk : Kept s0 s) : Goes s0 (execCheckpoint s) := by
  unfold execCheckpoint
  with_reducible repeat' first | apply Goes.when | (refine Kept.upd ?_ rfl rfl rfl rfl rfl rfl rfl; first | assumption | apply checkpointRec_kept)

theorem writeWaiting_kept {s0 : State} (s : State) (ok : Bool) (hk : Kept s0 s) : Kept s0 (writeWaiting s ok) := by
  unfold writeWaiting
  with_reducible repeat' first | assumption | apply writeLog_kept | (refine Kept.upd ?_ rfl rfl rfl rfl rfl rfl rfl; first | assumption | apply retireBlock_kept) | split

theorem execEventRecordWrite_goes {s0 : State} (ok : Bool) (s : State) (hk : Kept s0 s) : Goes s0 (execEventRecordWrite ok s) := by
  unfold execEventRecordWrite
  with_reducible repeat' first | assumption | apply Goes.when | apply writeWaiting_kept

end Sys2Proof.Machine

/-! ### RawOrders -/

namespace Sys2Proof.Machine

theorem poolOrders_kept {s0 : State} {h : OrderHdr} : ∀ r ∈ poolOrders h, ∀ a s, Kept s0 s → Kept s0 (r.run a s) := by
  intro r hr a s hk
  simp only [poolOrders, List.mem_cons, List.not_mem_nil, or_false] at hr
  rcases hr with rfl | rfl | rfl | rfl | rfl | rfl | rfl | rfl | rfl | rfl | rfl | rfl | rfl | rfl | rfl | rfl | rfl | rfl | rfl | rfl | rfl <;> dsimp only
  with_reducible all_goals first | (apply doOwnerClaim_kept; assumption) | (apply doOwnerRenew_kept; assumption) | (apply doOwnerHandover_kept; assumption) | (apply doOwnerAccept_kept; assumption) | (apply doOwnerRelease_kept; assumption) | (apply doStatusWindowRead_kept; assumption) | (apply doMgmtKeyAgree_kept; assumption) | (apply doGrant_kept; assumption) | (apply doAccessSet_kept; assumption) | (apply doRevoke_kept; assumption) | (apply doExtentRead_kept; assumption) | (apply doExtentFind_kept; assumption) | (apply doViolationRead_kept; assumption) | (apply doHostShape_kept; assumption) | (apply doHostShapeRead_kept; assumption) | (apply doSlotGrant_kept; assumption) | (apply doSlotRelease_kept; assumption) | (apply doSlotRead_kept; assumption) | (apply doHostFailed_kept; assumption) | (apply doLostRead_kept; assumption) | (apply doDirRead_kept; assumption)

theorem storeOrders_kept {s0 : State} {h : OrderHdr} : ∀ r ∈ storeOrders h, ∀ a s, Kept s0 s → Kept s0 (r.run a s) := by
  intro r hr a s hk
  simp only [storeOrders, List.mem_cons, List.not_mem_nil, or_false] at hr
  rcases hr with rfl | rfl | rfl | rfl | rfl | rfl | rfl | rfl | rfl | rfl | rfl | rfl | rfl | rfl | rfl | rfl <;> dsimp only
  with_reducible all_goals first | (apply doTenantCreate_kept; assumption) | (apply doTenantRemove_kept; assumption) | (apply doRotateKey_kept; assumption) | (apply doRetireKey_kept; assumption) | (apply doAttestReport_kept; assumption) | (apply doFwWrite_kept; assumption) | (apply doFwActivate_kept; assumption) | (apply doStackRead_kept; assumption) | (apply doStackRateLimit_kept; assumption) | (apply doMemIdlePolicy_kept; assumption) | (apply doIntegrityRead_kept; assumption) | (apply doBlotterRead_kept; assumption) | (apply doBlotterClear_kept; assumption) | (apply doPoisonRead_kept; assumption) | (apply doScrubPolicy_kept; assumption) | (apply doEvacuate_kept; assumption)

theorem unitOrders_kept {s0 : State} {h : OrderHdr} : ∀ r ∈ unitOrders h, ∀ a s, Kept s0 s → Kept s0 (r.run a s) := by
  intro r hr a s hk
  simp only [unitOrders, List.mem_cons, List.not_mem_nil, or_false] at hr
  rcases hr with rfl | rfl | rfl | rfl | rfl | rfl | rfl | rfl | rfl | rfl | rfl | rfl | rfl | rfl | rfl | rfl | rfl | rfl | rfl | rfl | rfl | rfl | rfl | rfl | rfl <;> dsimp only
  with_reducible all_goals first | (apply doAccordLoad_kept; assumption) | (apply doAccordUnload_kept; assumption) | (apply doAsidCreate_kept; assumption) | (apply doAsidDestroy_kept; assumption) | (apply doMapRange_kept; assumption) | (apply doUnmapRange_kept; assumption) | (apply doProtectRange_kept; assumption) | (apply doInvalidateRange_kept; assumption) | (apply doMapRead_kept; assumption) | (apply doFaultRingSet_kept; assumption) | (apply doFaultResolve_kept; assumption) | (apply doFaultPolicy_kept; assumption) | (apply doSprayRead_kept; assumption) | (apply doSprayCancel_kept; assumption) | (apply doEngineTagRelease_kept; assumption) | (apply doPortRead_kept; assumption) | (apply doPortSelect_kept; assumption) | (apply doPortRetrain_kept; assumption) | (apply doFaultRead_kept; assumption) | (apply doFaultAck_kept; assumption) | (apply doClockSet_kept; assumption) | (apply doLifetimeRead_kept; assumption) | (apply doBistRead_kept; assumption) | (apply doPowerLimit_kept; assumption) | (apply doModuleReset_kept; assumption)

theorem orderRow_kept {s0 : State} {h : OrderHdr} {code : Nat} {r : OrderRow} (e : orderRow h code = some r) (a : List (List Byte)) (s : State) (hk : Kept s0 s) :
    Kept s0 (r.run a s) := by
  have hm := List.mem_of_find?_eq_some e
  simp only [List.mem_append] at hm
  rcases hm with (hm | hm) | hm
  · exact poolOrders_kept r hm a s hk
  · exact storeOrders_kept r hm a s hk
  · exact unitOrders_kept r hm a s hk

theorem bodyOrder_kept {s0 : State} (s : State) (via : Via) (p : Packet) (body : Line) (prot : Nat → Option Nat) (form : Bool) (hk : Kept s0 s) :
    Kept s0 (bodyOrder s via p body prot form) := by
  unfold bodyOrder
  dsimp only
  split
  · exact checkedOrder_kept _ _ _ _ _ _ _ (fun h => h) hk
  · rename_i e
    exact checkedOrder_kept _ _ _ _ _ _ _ (fun h => orderRow_kept e _ _ h) hk

theorem rawOrder_kept {s0 : State} (s : State) (via : Via) (p : Packet) (hk : Kept s0 s) : Kept s0 (rawOrder s via p) := by
  unfold rawOrder
  with_reducible repeat' first | assumption | apply bodyOrder_kept | apply countDiscard_kept | split | dsimp only

theorem execOrder_goes {s0 : State} (via : Via) (p : Packet) (s : State) (hk : Kept s0 s) : Goes s0 (execOrder via p s) := by
  unfold execOrder
  with_reducible repeat' first | assumption | apply Goes.when | apply rawOrder_kept

end Sys2Proof.Machine

/-! ### Flits -/

namespace Sys2Proof.Machine

theorem handOver_kept {s0 : State} (n : Nat) (s : State) (p : Packet) (hk : Kept s0 s) : Kept s0 (handOver n s p) := by
  unfold handOver
  with_reducible repeat' first | assumption | apply countDiscard_kept | apply packetRequest_kept | apply packetAnswer_kept | apply packetResponse_kept | apply rawOrder_kept | split

theorem onCtrl_kept {s0 : State} (s : State) (n : Nat) (r : Option CtrlRec) (hk : Kept s0 s) : Kept s0 (onCtrl s n r) := by
  unfold onCtrl
  with_reducible repeat' first | assumption | apply protocolError_kept | apply onHello_kept | apply onAssign_kept | apply onReady_kept | apply onQuery_kept | apply onReply_kept | apply onStale_kept | apply onResetRequest_kept | split

theorem crcFailed_kept {s0 : State} (s : State) (n : Nat) (fecOk : Bool) (hk : Kept s0 s) : Kept s0 (crcFailed s n fecOk) := by
  unfold crcFailed
  with_reducible repeat' first | assumption | apply modPort_kept | apply useFree_kept | apply linkFailed_kept | split | dsimp only

theorem takeAck_kept {s0 : State} (s : State) (n a : Nat) (hk : Kept s0 s) : Kept s0 (takeAck s n a) := by
  unfold takeAck
  with_reducible repeat' first | assumption | apply modPort_kept | split | dsimp only

theorem takeNak_kept {s0 : State} (s : State) (n : Nat) (q : Option Nat) (hk : Kept s0 s) : Kept s0 (takeNak s n q) := by
  unfold takeNak
  with_reducible repeat' first | assumption | apply resend_kept | split | dsimp only

theorem markMissing_kept {s0 : State} (s : State) (n q : Nat) (hk : Kept s0 s) : Kept s0 (markMissing s n q) := by
  unfold markMissing
  with_reducible repeat' first | assumption | apply modPort_kept

theorem deliverHeld_kept {s0 : State} : ∀ (fuel : Nat) (s : State) (n : Nat), Kept s0 s → Kept s0 (deliverHeld fuel s n)
  | 0, _, _, h => h
  | fuel + 1, s, n, h => by
    unfold deliverHeld
    dsimp only
    split
    · exact h
    · exact deliverHeld_kept fuel _ n (foldl_kept (fun s x hs => handOver_kept n s x hs) (useEntries_kept _ _ _ _ (modPort_kept _ _ _ h)))

theorem takeFlit_kept {s0 : State} (s : State) (n seq : Nat) (packets : List Packet) (hk : Kept s0 s) : Kept s0 (takeFlit s n seq packets) := by
  unfold takeFlit
  with_reducible repeat' first | assumption | apply modPort_kept | apply protocolError_kept | apply markMissing_kept | apply useEntries_kept | apply deliverHeld_kept | split | dsimp only

theorem takeLinkFlit_kept {s0 : State} (s : State) (n : Nat) (t : Trailer) (b : List Byte) (hk : Kept s0 s) : Kept s0 (takeLinkFlit s n t b) := by
  unfold takeLinkFlit
  with_reducible repeat' first | assumption | apply sendCtrl_kept | apply takeNak_kept | apply takeAck_kept | apply flushPort_kept | apply modPort_kept | apply nameMissing_kept | apply markMissing_kept | apply onCtrl_kept | apply takeFlit_kept | split | dsimp only

theorem receiveFlit_kept {s0 : State} (s : State) (n : Nat) (raw : BitVec 2560) (fecOk : Bool) (hk : Kept s0 s) : Kept s0 (receiveFlit s n raw fecOk) := by
  unfold receiveFlit
  with_reducible repeat' first | assumption | apply modPort_kept | apply crcFailed_kept | apply takeLinkFlit_kept | apply onCtrl_kept | split | dsimp only

theorem execFlitReceive_goes {s0 : State} (n : Nat) (raw : BitVec 2560) (fecOk : Bool) (s : State) (hk : Kept s0 s) : Goes s0 (execFlitReceive n raw fecOk s) := by
  unfold execFlitReceive
  with_reducible repeat' first | assumption | apply Goes.when | apply receiveFlit_kept

theorem dlNakAsk_kept {s0 : State} (s : State) (hk : Kept s0 s) : Kept s0 (dlNakAsk s) := by
  unfold dlNakAsk
  with_reducible repeat' first | assumption | apply sendDlNak_kept | apply modDl_kept | split | dsimp only

theorem dlCrcFailed_kept {s0 : State} (s : State) (hk : Kept s0 s) : Kept s0 (dlCrcFailed s) := by
  unfold dlCrcFailed
  with_reducible repeat' first | assumption | apply modDl_kept | apply startRecovery_kept | split | dsimp only

theorem dlTakeAck_kept {s0 : State} (s : State) (a : Nat) (hk : Kept s0 s) : Kept s0 (dlTakeAck s a) := by
  unfold dlTakeAck
  with_reducible repeat' first | assumption | apply modDl_kept | split | dsimp only

theorem dlTakeCredits_kept {s0 : State} (s : State) (n : Nat) (hk : Kept s0 s) : Kept s0 (dlTakeCredits s n) := by
  unfold dlTakeCredits
  with_reducible repeat' first | assumption | apply modDl_kept

theorem dlDeliver_kept {s0 : State} (s : State) (p : Packet) (hk : Kept s0 s) : Kept s0 (dlDeliver s p) := by
  unfold dlDeliver
  with_reducible repeat' first | assumption | apply rawOrder_kept | apply statusRead_kept | apply packetAnswer_kept | apply countDiscard_kept | apply packetRequest_kept | split

theorem dlTakeMsg_kept {s0 : State} (s : State) (seq : Nat) (b : List Byte) (hk : Kept s0 s) : Kept s0 (dlTakeMsg s seq b) := by
  unfold dlTakeMsg
  with_reducible repeat' first | assumption | apply dlNakAsk_kept | apply modDl_kept | apply dlReturn_kept | apply dlDeliver_kept | apply foldl_kept | split | dsimp only

theorem dlTakeCtrl_kept {s0 : State} (s : State) (b : List Byte) (hk : Kept s0 s) : Kept s0 (dlTakeCtrl s b) := by
  unfold dlTakeCtrl
  with_reducible repeat' first | assumption | apply onCreditInit_kept | apply onWidth_kept | apply dlCrcFailed_kept | split | dsimp only

theorem dlReceive_kept {s0 : State} (s : State) (raw : BitVec 4096) (hk : Kept s0 s) : Kept s0 (dlReceive s raw) := by
  unfold dlReceive
  with_reducible repeat' first | assumption | apply dlNakAsk_kept | apply dlCrcFailed_kept | apply dlTakeCredits_kept | apply dlTakeAck_kept | apply dlResendAll_kept | apply flushDl_kept | apply dlTakeMsg_kept | apply dlTakeCtrl_kept | split | dsimp only

theorem execDlFlitReceive_goes {s0 : State} (raw : BitVec 4096) (s : State) (hk : Kept s0 s) : Goes s0 (execDlFlitReceive raw s) := by
  unfold execDlFlitReceive
  with_reducible repeat' first | assumption | apply Goes.when | apply dlReceive_kept

end Sys2Proof.Machine

/-! ### FaultEvents -/

namespace Sys2Proof.Machine

theorem lineTaken_kept {s0 : State} (s : State) (f : FaultIn) (hk : Kept s0 s) : Kept s0 (lineTaken s f) := by
  unfold lineTaken
  with_reducible repeat' first | (refine Kept.upd ?_ rfl rfl rfl rfl rfl rfl rfl; first | assumption)

theorem errorLine_kept {s0 : State} (s : State) (f : FaultIn) (hk : Kept s0 s) : Kept s0 (errorLine s f) := by
  unfold errorLine
  with_reducible repeat' first | assumption | apply lineTaken_kept | apply spareRow_kept | apply raise_kept | apply note_kept | split | dsimp only

theorem execErrorLine_goes {s0 : State} (hub : Bool) (k u c d : Nat) (s : State) (hk : Kept s0 s) : Goes s0 (execErrorLine hub k u c d s) := by
  unfold execErrorLine
  with_reducible repeat' first | assumption | apply Goes.when | apply errorLine_kept

theorem execReplacementDone_goes {s0 : State} (hub : Bool) (k u : Nat) (s : State) (hk : Kept s0 s) : Goes s0 (execReplacementDone hub k u s) := by
  unfold execReplacementDone
  with_reducible repeat' first | apply Goes.when | apply replaced_kept | (refine Kept.upd ?_ rfl rfl rfl rfl rfl rfl rfl; first | assumption | apply replaced_kept | apply replacing_kept)

theorem takeOverPair_kept {s0 : State} (s : State) (hk : Kept s0 s) : Kept s0 (takeOverPair s) := by
  unfold takeOverPair
  with_reducible repeat' first | (intro _) | apply finish_kept | (refine Kept.upd ?_ rfl rfl rfl rfl rfl rfl rfl; first | assumption | apply finish_kept | apply replaced_kept | apply foldl_kept)

theorem execMgmtPairTakeover_goes {s0 : State} (s : State) (hk : Kept s0 s) : Goes s0 (execMgmtPairTakeover s) := by
  unfold execMgmtPairTakeover
  with_reducible repeat' first | assumption | apply Goes.when | apply takeOverPair_kept

end Sys2Proof.Machine

/-! ### Sideband -/

namespace Sys2Proof.Machine

theorem execI3cPrivateWrite_goes {s0 : State} (bytes : List Byte) (s : State) (hk : Kept s0 s) : Goes s0 (execI3cPrivateWrite bytes s) := by
  unfold execI3cPrivateWrite
  with_reducible repeat' first | apply Goes.when | (refine Kept.upd ?_ rfl rfl rfl rfl rfl rfl rfl; first | assumption)

theorem execI3cPrivateRead_goes {s0 : State} (count : Nat) (s : State) (hk : Kept s0 s) : Goes s0 (execI3cPrivateRead count s) := by
  unfold execI3cPrivateRead
  with_reducible repeat' first | assumption | apply Goes.when | apply emit_kept

theorem takeAddress_goes {s0 : State} (s : State) (a : Nat) (hk : Kept s0 s) : Goes s0 (takeAddress s a) := by
  unfold takeAddress
  with_reducible repeat' first | apply Goes.when | (refine Kept.upd ?_ rfl rfl rfl rfl rfl rfl rfl; first | assumption)

theorem execSetdasa_goes {s0 : State} (a : Nat) (s : State) (hk : Kept s0 s) : Goes s0 (execSetdasa a s) := by
  unfold execSetdasa
  with_reducible repeat' first | assumption | apply takeAddress_goes

theorem execEntdaa_goes {s0 : State} (a : Nat) (s : State) (hk : Kept s0 s) : Goes s0 (execEntdaa a s) := by
  unfold execEntdaa
  with_reducible repeat' first | assumption | apply takeAddress_goes

theorem execRstdaa_goes {s0 : State} (s : State) (hk : Kept s0 s) : Goes s0 (execRstdaa s) := by
  unfold execRstdaa
  with_reducible repeat' first | apply Goes.when | (refine Kept.upd ?_ rfl rfl rfl rfl rfl rfl rfl; first | assumption)

theorem getCcc_goes {s0 : State} (s : State) (n v : Nat) (hk : Kept s0 s) : Goes s0 (getCcc s n v) := by
  unfold getCcc
  with_reducible repeat' first | assumption | apply Goes.when | apply emit_kept

theorem execGetpid_goes {s0 : State} (s : State) (hk : Kept s0 s) : Goes s0 (execGetpid s) := by
  unfold execGetpid
  with_reducible repeat' first | assumption | apply getCcc_goes

theorem execGetbcr_goes {s0 : State} (s : State) (hk : Kept s0 s) : Goes s0 (execGetbcr s) := by
  unfold execGetbcr
  with_reducible repeat' first | assumption | apply getCcc_goes

theorem execGetdcr_goes {s0 : State} (s : State) (hk : Kept s0 s) : Goes s0 (execGetdcr s) := by
  unfold execGetdcr
  with_reducible repeat' first | assumption | apply getCcc_goes

theorem execGetstatus_goes {s0 : State} (s : State) (hk : Kept s0 s) : Goes s0 (execGetstatus s) := by
  unfold execGetstatus
  with_reducible repeat' first | assumption | apply getCcc_goes

theorem execGetmxds_goes {s0 : State} (s : State) (hk : Kept s0 s) : Goes s0 (execGetmxds s) := by
  unfold execGetmxds
  with_reducible repeat' first | assumption | apply getCcc_goes

theorem execEnec_goes {s0 : State} (s : State) (hk : Kept s0 s) : Goes s0 (execEnec s) := by
  unfold execEnec
  with_reducible repeat' first | assumption | apply Goes.next

theorem execDisec_goes {s0 : State} (s : State) (hk : Kept s0 s) : Goes s0 (execDisec s) := by
  unfold execDisec
  with_reducible repeat' first | assumption | apply Goes.next

theorem setJtag_kept {s0 : State} (s : State) (i : JtagInstr) (hk : Kept s0 s) : Kept s0 (setJtag s i) := by
  unfold setJtag
  with_reducible repeat' first | (refine Kept.upd ?_ rfl rfl rfl rfl rfl rfl rfl; first | assumption)

theorem asBypass_kept {s0 : State} (s : State) (i : JtagInstr) (shift : List Bool) (hk : Kept s0 s) : Kept s0 (asBypass s i shift) := by
  unfold asBypass
  with_reducible repeat' first | assumption | apply emit_kept | apply setJtag_kept

theorem boundaryTest_kept {s0 : State} (s : State) (i : JtagInstr) (shift : List Bool) (hk : Kept s0 s) : Kept s0 (boundaryTest s i shift) := by
  unfold boundaryTest
  with_reducible repeat' first | assumption | apply emit_kept | (refine Kept.upd ?_ rfl rfl rfl rfl rfl rfl rfl; first | assumption | apply asBypass_kept | apply useFree_kept) | split

theorem pinInstr_kept {s0 : State} (s : State) (i : JtagInstr) (shift : List Bool) (hk : Kept s0 s) : Kept s0 (pinInstr s i shift) := by
  unfold pinInstr
  with_reducible repeat' first | assumption | (refine Kept.upd ?_ rfl rfl rfl rfl rfl rfl rfl; first | assumption | apply asBypass_kept) | split

theorem samplePins_kept {s0 : State} (s : State) (shift : List Bool) (hk : Kept s0 s) : Kept s0 (samplePins s shift) := by
  unfold samplePins
  with_reducible repeat' first | assumption | apply emit_kept | (refine Kept.upd ?_ rfl rfl rfl rfl rfl rfl rfl; first | assumption | apply useFree_kept)

theorem tapRun_kept {s0 : State} (s : State) (i : JtagInstr) (shift : List Bool) (hk : Kept s0 s) : Kept s0 (tapRun s i shift) := by
  unfold tapRun
  with_reducible repeat' first | assumption | apply emit_kept | apply setJtag_kept | apply samplePins_kept | apply boundaryTest_kept | apply pinInstr_kept | apply asBypass_kept | split

theorem tapAccess_goes {s0 : State} (s : State) (i : JtagInstr) (shift : List Bool) (hk : Kept s0 s) : Goes s0 (tapAccess s i shift) := by
  unfold tapAccess
  with_reducible repeat' first | assumption | apply Goes.when | (refine Kept.upd ?_ rfl rfl rfl rfl rfl rfl rfl; first | assumption | apply tapRun_kept) | split

theorem releaseTap_kept {s0 : State} (s : State) (hk : Kept s0 s) : Kept s0 (releaseTap s) := by
  unfold releaseTap
  with_reducible repeat' first | (intro _) | assumption | (refine Kept.upd ?_ rfl rfl rfl rfl rfl rfl rfl; first | assumption | apply tapRun_kept | apply foldl_kept) | split

theorem execIdcode_goes {s0 : State} (s : State) (hk : Kept s0 s) : Goes s0 (execIdcode s) := by
  unfold execIdcode
  with_reducible repeat' first | assumption | apply tapAccess_goes

theorem execSample_goes {s0 : State} (shift : List Bool) (s : State) (hk : Kept s0 s) : Goes s0 (execSample shift s) := by
  unfold execSample
  with_reducible repeat' first | assumption | apply tapAccess_goes

theorem execExtest_goes {s0 : State} (shift : List Bool) (s : State) (hk : Kept s0 s) : Goes s0 (execExtest shift s) := by
  unfold execExtest
  with_reducible repeat' first | assumption | apply tapAccess_goes

theorem execExtestPulse_goes {s0 : State} (shift : List Bool) (s : State) (hk : Kept s0 s) : Goes s0 (execExtestPulse shift s) := by
  unfold execExtestPulse
  with_reducible repeat' first | assumption | apply tapAccess_goes

theorem execExtestTrain_goes {s0 : State} (shift : List Bool) (s : State) (hk : Kept s0 s) : Goes s0 (execExtestTrain shift s) := by
  unfold execExtestTrain
  with_reducible repeat' first | assumption | apply tapAccess_goes

theorem execClamp_goes {s0 : State} (shift : List Bool) (s : State) (hk : Kept s0 s) : Goes s0 (execClamp s shift) := by
  unfold execClamp
  with_reducible repeat' first | assumption | apply tapAccess_goes

theorem execHighz_goes {s0 : State} (shift : List Bool) (s : State) (hk : Kept s0 s) : Goes s0 (execHighz s shift) := by
  unfold execHighz
  with_reducible repeat' first | assumption | apply tapAccess_goes

theorem execBootStatus_goes {s0 : State} (s : State) (hk : Kept s0 s) : Goes s0 (execBootStatus s) := by
  unfold execBootStatus
  with_reducible repeat' first | assumption | apply tapAccess_goes

theorem execBypass_goes {s0 : State} (code : Nat) (shift : List Bool) (s : State) (hk : Kept s0 s) : Goes s0 (execBypass s code shift) := by
  unfold execBypass
  with_reducible repeat' first | assumption | apply Goes.next | apply tapAccess_goes | split

theorem execTrstNLow_goes {s0 : State} (s : State) (hk : Kept s0 s) : Goes s0 (execTrstNLow s) := by
  unfold execTrstNLow
  with_reducible repeat' first | assumption | apply Goes.when | (refine Kept.upd ?_ rfl rfl rfl rfl rfl rfl rfl; first | assumption | apply setJtag_kept)

end Sys2Proof.Machine

/-! ### Held -/

namespace Sys2Proof.Machine

theorem runOrder_goes {s0 : State} (c : Instr) (s : State) (hk : Kept s0 s) : Goes s0 (runOrder c s) := by
  cases c
  case order => exact execOrder_goes _ _ _ hk
  case ownerClaim => exact execOwnerClaim_goes _ _ _ hk
  case ownerRenew => exact execOwnerRenew_goes _ _ hk
  case ownerHandover => exact execOwnerHandover_goes _ _ _ hk
  case ownerAccept => exact execOwnerAccept_goes _ _ hk
  case ownerRelease => exact execOwnerRelease_goes _ _ hk
  case statusWindowRead => exact execStatusWindowRead_goes _ _ _ _ hk
  case mgmtKeyAgree => exact execMgmtKeyAgree_goes _ _ _ hk
  case grant => exact execGrant_goes _ _ _ _ _ _ _ _ _ _ _ hk
  case accessSet => exact execAccessSet_goes _ _ _ _ _ _ hk
  case revoke => exact execRevoke_goes _ _ _ _ hk
  case extentRead => exact execExtentRead_goes _ _ _ hk
  case extentFind => exact execExtentFind_goes _ _ _ hk
  case violationRead => exact execViolationRead_goes _ _ hk
  case hostShape => exact execHostShape_goes _ _ _ _ _ _ _ _ hk
  case hostShapeRead => exact execHostShapeRead_goes _ _ _ _ hk
  case tenantCreate => exact execTenantCreate_goes _ _ _ _ hk
  case tenantRemove => exact execTenantRemove_goes _ _ _ hk
  case rotateKey => exact execRotateKey_goes _ _ _ _ hk
  case retireKey => exact execRetireKey_goes _ _ _ _ _ hk
  case attestReport => exact execAttestReport_goes _ _ _ hk
  case fwWrite => exact execFwWrite_goes _ _ _ _ _ hk
  case fwActivate => exact execFwActivate_goes _ _ _ hk
  case slotGrant => exact execSlotGrant_goes _ _ _ _ hk
  case slotRelease => exact execSlotRelease_goes _ _ _ _ hk
  case slotRead => exact execSlotRead_goes _ _ _ hk
  case hostFailed => exact execHostFailed_goes _ _ _ hk
  case lostRead => exact execLostRead_goes _ _ hk
  case dirRead => exact execDirRead_goes _ _ _ hk
  case stackRead => exact execStackRead_goes _ _ _ _ hk
  case stackRateLimit => exact execStackRateLimit_goes _ _ _ _ _ hk
  case memIdlePolicy => exact execMemIdlePolicy_goes _ _ _ hk
  case integrityRead => exact execIntegrityRead_goes _ _ _ _ hk
  case blotterRead => exact execBlotterRead_goes _ _ _ _ hk
  case blotterClear => exact execBlotterClear_goes _ _ _ hk
  case poisonRead => exact execPoisonRead_goes _ _ hk
  case scrubPolicy => exact execScrubPolicy_goes _ _ _ hk
  case evacuate => exact execEvacuate_goes _ _ _ _ hk
  case accordLoad => exact execAccordLoad_goes _ _ _ _ _ hk
  case accordUnload => exact execAccordUnload_goes _ _ _ hk
  case asidCreate => exact execAsidCreate_goes _ _ _ _ hk
  case asidDestroy => exact execAsidDestroy_goes _ _ _ hk
  case mapRange => exact execMapRange_goes _ _ _ _ _ _ _ _ hk
  case unmapRange => exact execUnmapRange_goes _ _ _ _ _ hk
  case protectRange => exact execProtectRange_goes _ _ _ _ _ _ hk
  case invalidateRange => exact execInvalidateRange_goes _ _ _ _ _ hk
  case mapRead => exact execMapRead_goes _ _ _ _ hk
  case faultRingSet => exact execFaultRingSet_goes _ _ _ _ hk
  case faultResolve => exact execFaultResolve_goes _ _ _ _ hk
  case faultPolicy => exact execFaultPolicy_goes _ _ _ hk
  case sprayRead => exact execSprayRead_goes _ _ _ hk
  case sprayCancel => exact execSprayCancel_goes _ _ _ hk
  case engineTagRelease => exact execEngineTagRelease_goes _ _ _ hk
  case portRead => exact execPortRead_goes _ _ _ _ hk
  case portSelect => exact execPortSelect_goes _ _ _ _ hk
  case portRetrain => exact execPortRetrain_goes _ _ _ _ hk
  case faultRead => exact execFaultRead_goes _ _ _ hk
  case faultAck => exact execFaultAck_goes _ _ _ _ hk
  case clockSet => exact execClockSet_goes _ _ _ hk
  case lifetimeRead => exact execLifetimeRead_goes _ _ _ hk
  case bistRead => exact execBistRead_goes _ _ _ hk
  case powerLimit => exact execPowerLimit_goes _ _ _ hk
  case moduleReset => exact execModuleReset_goes _ _ hk
  all_goals exact Goes.next hk

theorem afterOrder_kept {s0 : State} (s : State) (c : Instr) (hk : Kept s0 s) : Kept s0 (afterOrder s c) := by
  obtain ⟨t, e, h⟩ := runOrder_goes c s hk
  rw [afterOrder, e]
  exact h

theorem releaseOrders_kept {s0 : State} (s : State) (hk : Kept s0 s) : Kept s0 (releaseOrders s) := by
  unfold releaseOrders
  with_reducible repeat' first | assumption | apply afterOrder_kept | (refine Kept.upd ?_ rfl rfl rfl rfl rfl rfl rfl; first | assumption | apply foldl_kept)

theorem execRefillTick_goes {s0 : State} (s : State) (hk : Kept s0 s) : Goes s0 (execRefillTick s) := by
  unfold execRefillTick
  with_reducible repeat' first | assumption | apply Goes.when | apply refillTick_kept | apply releaseTap_kept | apply releaseOrders_kept

end Sys2Proof.Machine
end

