-- ==== Sys2Proof/Laws/Orders.lean ====
section
/-! SUPPORT. Orders: one whose checks pass acts on the state they leave; a list of refusals answers its first. -/

namespace Sys2Proof.Machine

/-- An order whose checks pass acts, on the state with its number marked. -/
theorem withOrder_passes {s s1 : State} {h : OrderHdr} {code : Nat} (p : Passes s h code s1) (cmd : Instr) (body : State → State) : withOrder s h code cmd body = body s1 := by
  unfold withOrder checkedOrder
  simp [p.runs, p.unheld, p.checks]

/-- A meaning of an order whose checks pass. -/
theorem next_withOrder {s s1 : State} {h : OrderHdr} {code : Nat} (p : Passes s h code s1) (cmd : Instr) (body : State → State) :
    (.next (withOrder s h code cmd body) : Result) = .next (body s1) := by rw [withOrder_passes p]

/-- A refusal that applies is the order's reply. -/
theorem judged_refused {s act : State} {h : OrderHdr} {code st : Nat} {l : List (Bool × Nat)} (e : firstRefusal l = some st) :
    judged s h code l act = reply s h code st := by simp [judged, e]

/-- Where no refusal applies the order acts. -/
theorem judged_acts {s act : State} {h : OrderHdr} {code : Nat} {l : List (Bool × Nat)} (e : firstRefusal l = none) : judged s h code l act = act := by
  simp [judged, e]

@[simp] theorem firstRefusal_nil : firstRefusal [] = none := rfl
@[simp] theorem firstRefusal_true (st : Nat) (l : List (Bool × Nat)) : firstRefusal ((true, st) :: l) = some st := rfl
@[simp] theorem firstRefusal_false (st : Nat) (l : List (Bool × Nat)) : firstRefusal ((false, st) :: l) = firstRefusal l := rfl

end Sys2Proof.Machine
end

