-- ==== Sys2Proof/Laws/PerInstr.lean ====
section
/-! SUPPORT. The operands of a well-formed command, per constructor: the order header, the packet and the thread it names are well formed. -/

namespace Sys2Proof.Laws

/-- The header of an order. -/
def order? : Instr → Option OrderHdr
  | .ownerClaim h _ => some h
  | .ownerRenew h => some h
  | .ownerHandover h _ => some h
  | .ownerAccept h => some h
  | .ownerRelease h => some h
  | .statusWindowRead h _ _ => some h
  | .mgmtKeyAgree h _ => some h
  | .grant h _ _ _ _ _ _ _ _ _ => some h
  | .accessSet h _ _ _ _ => some h
  | .revoke h _ _ => some h
  | .extentRead h _ => some h
  | .extentFind h _ => some h
  | .violationRead h => some h
  | .hostShape h _ _ _ _ _ _ => some h
  | .hostShapeRead h _ _ => some h
  | .tenantCreate h _ _ => some h
  | .tenantRemove h _ => some h
  | .rotateKey h _ _ => some h
  | .retireKey h _ _ _ => some h
  | .attestReport h _ => some h
  | .fwWrite h _ _ _ => some h
  | .fwActivate h _ => some h
  | .slotGrant h _ _ => some h
  | .slotRelease h _ _ => some h
  | .slotRead h _ => some h
  | .hostFailed h _ => some h
  | .lostRead h => some h
  | .dirRead h _ => some h
  | .stackRead h _ _ => some h
  | .stackRateLimit h _ _ _ => some h
  | .memIdlePolicy h _ => some h
  | .integrityRead h _ _ => some h
  | .blotterRead h _ _ => some h
  | .blotterClear h _ => some h
  | .poisonRead h => some h
  | .scrubPolicy h _ => some h
  | .evacuate h _ _ => some h
  | .accordLoad h _ _ _ => some h
  | .accordUnload h _ => some h
  | .asidCreate h _ _ => some h
  | .asidDestroy h _ => some h
  | .mapRange h _ _ _ _ _ _ => some h
  | .unmapRange h _ _ _ => some h
  | .protectRange h _ _ _ _ => some h
  | .invalidateRange h _ _ _ => some h
  | .mapRead h _ _ => some h
  | .faultRingSet h _ _ => some h
  | .faultResolve h _ _ => some h
  | .faultPolicy h _ => some h
  | .sprayRead h _ => some h
  | .sprayCancel h _ => some h
  | .engineTagRelease h _ => some h
  | .portRead h _ _ => some h
  | .portSelect h _ _ => some h
  | .portRetrain h _ _ => some h
  | .faultRead h _ => some h
  | .faultAck h _ _ => some h
  | .clockSet h _ => some h
  | .lifetimeRead h _ => some h
  | .bistRead h _ => some h
  | .powerLimit h _ => some h
  | .moduleReset h => some h
  | _ => none

/-- The packet a command brings. -/
def packet? : Instr → Option Packet
  | .read _ p => some p
  | .write _ p => some p
  | .readNoalloc _ p => some p
  | .writeNoalloc _ p => some p
  | .readShared _ p => some p
  | .readOwn _ p => some p
  | .upgrade _ p => some p
  | .zeroLine _ p => some p
  | .atomicAdd _ p => some p
  | .atomicSwap _ p => some p
  | .atomicCas _ p => some p
  | .atomicAnd _ p => some p
  | .atomicOr _ p => some p
  | .atomicXor _ p => some p
  | .atomicSmax _ p => some p
  | .atomicSmin _ p => some p
  | .writeback _ p => some p
  | .evictClean _ p => some p
  | .sprayLaunch _ p => some p
  | .poolOpLaunch _ p => some p
  | .snoopResp _ p => some p
  | .snoopRespData _ p => some p
  | .resp _ p => some p
  | .respData _ p => some p
  | .completion _ p => some p
  | .order _ p => some p
  | .statusRead p => some p
  | _ => none

/-- The thread that issues an instruction. -/
def thread? : Instr → Option ThreadRef
  | .threadEnd t => some t
  | .watchdogExpiry t => some t
  | .poolItemUnitCommit t => some t
  | .fill t => some t
  | .zero t => some t
  | .copy t => some t
  | .compare t => some t
  | .reduce t => some t
  | .gather t => some t
  | .scatter t => some t
  | .search t => some t
  | .attend t => some t
  | .digest t => some t
  | .alu t _ => some t
  | .addi t _ => some t
  | .andi t _ => some t
  | .ori t _ => some t
  | .xori t _ => some t
  | .shli t _ => some t
  | .shri t _ => some t
  | .srai t _ => some t
  | .slti t _ => some t
  | .li t _ => some t
  | .lis t _ => some t
  | .pop t _ => some t
  | .rds t _ => some t
  | .beq t _ => some t
  | .bne t _ => some t
  | .blt t _ => some t
  | .bge t _ => some t
  | .bltu t _ => some t
  | .bgeu t _ => some t
  | .bp t _ => some t
  | .jmp t _ => some t
  | .jal t _ => some t
  | .jr t _ => some t
  | .endInstr t _ => some t
  | .trap t _ => some t
  | .fence t _ => some t
  | .nop t _ => some t
  | .ld t _ => some t
  | .st t _ => some t
  | .vld t _ => some t
  | .vst t _ => some t
  | .vldg t _ => some t
  | .vstg t _ => some t
  | .atom t _ => some t
  | .tload t _ => some t
  | .tstore t _ => some t
  | .twait t _ => some t
  | .vop t _ => some t
  | .vcmp t _ => some t
  | .vsel t _ => some t
  | .vbcast t _ => some t
  | .vmovs t _ => some t
  | .vsfu t _ => some t
  | .vcvt t _ => some t
  | .vmxq t _ => some t
  | .vmxd t _ => some t
  | .vdot t _ => some t
  | .vdotb t _ => some t
  | .aop t _ => some t
  | .aread t _ => some t
  | .amovs t _ => some t
  | _ => none

end Sys2Proof.Laws

namespace Sys2Proof.Laws.Fields

/-- What a well-formed command names is well formed. -/
def Statement (i : Instr) : Prop :=
  i.wf = true → (∀ h, order? i = some h → h.wf = true) ∧ (∀ p, packet? i = some p → p.wf = true) ∧ (∀ t, thread? i = some t → t.wf = true)

/-- A command that brings none of the three. -/
theorem of_none {i : Instr} (ho : order? i = none) (hp : packet? i = none) (ht : thread? i = none) : Statement i :=
  fun _ => ⟨fun h e => (by rw [ho] at e; cases e), fun p e => (by rw [hp] at e; cases e), fun t e => (by rw [ht] at e; cases e)⟩

/-- A command that brings an order header alone. -/
theorem of_order {i : Instr} {h : OrderHdr} (ho : order? i = some h) (hp : packet? i = none) (ht : thread? i = none) (hw : i.wf = true → h.wf = true) : Statement i :=
  fun w => ⟨fun h' e => (by rw [ho] at e; cases e; exact hw w), fun p e => (by rw [hp] at e; cases e), fun t e => (by rw [ht] at e; cases e)⟩

/-- A command that brings a packet alone. -/
theorem of_packet {i : Instr} {p : Packet} (ho : order? i = none) (hp : packet? i = some p) (ht : thread? i = none) (hw : i.wf = true → p.wf = true) : Statement i :=
  fun w => ⟨fun h e => (by rw [ho] at e; cases e), fun p' e => (by rw [hp] at e; cases e; exact hw w), fun t e => (by rw [ht] at e; cases e)⟩

/-- A command that names a thread alone. -/
theorem of_thread {i : Instr} {t : ThreadRef} (ho : order? i = none) (hp : packet? i = none) (ht : thread? i = some t) (hw : i.wf = true → t.wf = true) : Statement i :=
  fun w => ⟨fun h e => (by rw [ho] at e; cases e), fun p e => (by rw [hp] at e; cases e), fun t' e => (by rw [ht] at e; cases e; exact hw w)⟩

/-- The first part of a conjunction of conditions. -/
theorem first_of {a b : Bool} (h : (a && b) = true) : a = true := by cases a <;> simp_all
/-- Its second part. -/
theorem second_of {a b : Bool} (h : (a && b) = true) : b = true := by cases a <;> simp_all

theorem read : ∀ x0 x1, Statement (.read x0 x1) := fun _ _ => of_packet rfl rfl rfl (fun w => (second_of w))
theorem write : ∀ x0 x1, Statement (.write x0 x1) := fun _ _ => of_packet rfl rfl rfl (fun w => (second_of w))
theorem readNoalloc : ∀ x0 x1, Statement (.readNoalloc x0 x1) := fun _ _ => of_packet rfl rfl rfl (fun w => (second_of w))
theorem writeNoalloc : ∀ x0 x1, Statement (.writeNoalloc x0 x1) := fun _ _ => of_packet rfl rfl rfl (fun w => (second_of w))
theorem readShared : ∀ x0 x1, Statement (.readShared x0 x1) := fun _ _ => of_packet rfl rfl rfl (fun w => (second_of w))
theorem readOwn : ∀ x0 x1, Statement (.readOwn x0 x1) := fun _ _ => of_packet rfl rfl rfl (fun w => (second_of w))
theorem upgrade : ∀ x0 x1, Statement (.upgrade x0 x1) := fun _ _ => of_packet rfl rfl rfl (fun w => (second_of w))
theorem zeroLine : ∀ x0 x1, Statement (.zeroLine x0 x1) := fun _ _ => of_packet rfl rfl rfl (fun w => (second_of w))
theorem atomicAdd : ∀ x0 x1, Statement (.atomicAdd x0 x1) := fun _ _ => of_packet rfl rfl rfl (fun w => (second_of w))
theorem atomicSwap : ∀ x0 x1, Statement (.atomicSwap x0 x1) := fun _ _ => of_packet rfl rfl rfl (fun w => (second_of w))
theorem atomicCas : ∀ x0 x1, Statement (.atomicCas x0 x1) := fun _ _ => of_packet rfl rfl rfl (fun w => (second_of w))
theorem atomicAnd : ∀ x0 x1, Statement (.atomicAnd x0 x1) := fun _ _ => of_packet rfl rfl rfl (fun w => (second_of w))
theorem atomicOr : ∀ x0 x1, Statement (.atomicOr x0 x1) := fun _ _ => of_packet rfl rfl rfl (fun w => (second_of w))
theorem atomicXor : ∀ x0 x1, Statement (.atomicXor x0 x1) := fun _ _ => of_packet rfl rfl rfl (fun w => (second_of w))
theorem atomicSmax : ∀ x0 x1, Statement (.atomicSmax x0 x1) := fun _ _ => of_packet rfl rfl rfl (fun w => (second_of w))
theorem atomicSmin : ∀ x0 x1, Statement (.atomicSmin x0 x1) := fun _ _ => of_packet rfl rfl rfl (fun w => (second_of w))
theorem writeback : ∀ x0 x1, Statement (.writeback x0 x1) := fun _ _ => of_packet rfl rfl rfl (fun w => (second_of w))
theorem evictClean : ∀ x0 x1, Statement (.evictClean x0 x1) := fun _ _ => of_packet rfl rfl rfl (fun w => (second_of w))
theorem sprayLaunch : ∀ x0 x1, Statement (.sprayLaunch x0 x1) := fun _ _ => of_packet rfl rfl rfl (fun w => (second_of w))
theorem poolOpLaunch : ∀ x0 x1, Statement (.poolOpLaunch x0 x1) := fun _ _ => of_packet rfl rfl rfl (fun w => (second_of w))
theorem snoopResp : ∀ x0 x1, Statement (.snoopResp x0 x1) := fun _ _ => of_packet rfl rfl rfl (fun w => (second_of w))
theorem snoopRespData : ∀ x0 x1, Statement (.snoopRespData x0 x1) := fun _ _ => of_packet rfl rfl rfl (fun w => (second_of w))
theorem resp : ∀ x0 x1, Statement (.resp x0 x1) := fun _ _ => of_packet rfl rfl rfl (fun w => (second_of w))
theorem respData : ∀ x0 x1, Statement (.respData x0 x1) := fun _ _ => of_packet rfl rfl rfl (fun w => (second_of w))
theorem completion : ∀ x0 x1, Statement (.completion x0 x1) := fun _ _ => of_packet rfl rfl rfl (fun w => (second_of w))
theorem order : ∀ x0 x1, Statement (.order x0 x1) := fun _ _ => of_packet rfl rfl rfl (fun w => (second_of w))
theorem statusRead : ∀ x0, Statement (.statusRead x0) := fun _ => of_packet rfl rfl rfl (id)
theorem wfqGrant : ∀ x0, Statement (.wfqGrant x0) := fun _ => of_none rfl rfl rfl
theorem homeAgentInput : ∀ x0, Statement (.homeAgentInput x0) := fun _ => of_none rfl rfl rfl
theorem transactionComplete : ∀ x0, Statement (.transactionComplete x0) := fun _ => of_none rfl rfl rfl
theorem snoopTimeout : ∀ x0 x1, Statement (.snoopTimeout x0 x1) := fun _ _ => of_none rfl rfl rfl
theorem failureWalkStep : ∀ x0, Statement (.failureWalkStep x0) := fun _ => of_none rfl rfl rfl
theorem failureWalkDone : ∀ x0, Statement (.failureWalkDone x0) := fun _ => of_none rfl rfl rfl
theorem releaseSweepStep : ∀ x0, Statement (.releaseSweepStep x0) := fun _ => of_none rfl rfl rfl
theorem releaseSweepDone : ∀ x0, Statement (.releaseSweepDone x0) := fun _ => of_none rfl rfl rfl
theorem refillTick : Statement (.refillTick) := of_none rfl rfl rfl
theorem commitTick : Statement (.commitTick) := of_none rfl rfl rfl
theorem revokeDrainDone : ∀ x0, Statement (.revokeDrainDone x0) := fun _ => of_none rfl rfl rfl
theorem revokeRecallDone : ∀ x0, Statement (.revokeRecallDone x0) := fun _ => of_none rfl rfl rfl
theorem extentScrubDone : ∀ x0, Statement (.extentScrubDone x0) := fun _ => of_none rfl rfl rfl
theorem extentZeroingStep : ∀ x0, Statement (.extentZeroingStep x0) := fun _ => of_none rfl rfl rfl
theorem channelIssue : ∀ x0 x1 x2, Statement (.channelIssue x0 x1 x2) := fun _ _ _ => of_none rfl rfl rfl
theorem refreshDue : ∀ x0 x1 x2 x3, Statement (.refreshDue x0 x1 x2 x3) := fun _ _ _ _ => of_none rfl rfl rfl
theorem stackTempRead : ∀ x0 x1, Statement (.stackTempRead x0 x1) := fun _ _ => of_none rfl rfl rfl
theorem retrainDue : ∀ x0 x1, Statement (.retrainDue x0 x1) := fun _ _ => of_none rfl rfl rfl
theorem retrainPauseDone : ∀ x0 x1 x2, Statement (.retrainPauseDone x0 x1 x2) := fun _ _ _ => of_none rfl rfl rfl
theorem retrainRerunDue : ∀ x0 x1, Statement (.retrainRerunDue x0 x1) := fun _ _ => of_none rfl rfl rfl
theorem channelFullTrainDone : ∀ x0 x1 x2, Statement (.channelFullTrainDone x0 x1 x2) := fun _ _ _ => of_none rfl rfl rfl
theorem parityAlert : ∀ x0 x1 x2, Statement (.parityAlert x0 x1 x2) := fun _ _ _ => of_none rfl rfl rfl
theorem parityReplayDone : ∀ x0 x1 x2, Statement (.parityReplayDone x0 x1 x2) := fun _ _ _ => of_none rfl rfl rfl
theorem selfRefreshEntry : ∀ x0 x1, Statement (.selfRefreshEntry x0 x1) := fun _ _ => of_none rfl rfl rfl
theorem selfRefreshExit : ∀ x0 x1, Statement (.selfRefreshExit x0 x1) := fun _ _ => of_none rfl rfl rfl
theorem rateChangeStart : ∀ x0, Statement (.rateChangeStart x0) := fun _ => of_none rfl rfl rfl
theorem rateChangeDone : ∀ x0, Statement (.rateChangeDone x0) := fun _ => of_none rfl rfl rfl
theorem correctiveRewrite : ∀ x0 x1 x2 x3, Statement (.correctiveRewrite x0 x1 x2 x3) := fun _ _ _ _ => of_none rfl rfl rfl
theorem stripeEntryHoldExpiry : ∀ x0 x1, Statement (.stripeEntryHoldExpiry x0 x1) := fun _ _ => of_none rfl rfl rfl
theorem stripeCommit : ∀ x0 x1, Statement (.stripeCommit x0 x1) := fun _ _ => of_none rfl rfl rfl
theorem stripeLockGrant : ∀ x0 x1, Statement (.stripeLockGrant x0 x1) := fun _ _ => of_none rfl rfl rfl
theorem rowRepair : ∀ x0 x1 x2, Statement (.rowRepair x0 x1 x2) := fun _ _ _ => of_none rfl rfl rfl
theorem scrubStripe : ∀ x0, Statement (.scrubStripe x0) := fun _ => of_none rfl rfl rfl
theorem scrubPeriodEnd : ∀ x0, Statement (.scrubPeriodEnd x0) := fun _ => of_none rfl rfl rfl
theorem channelRejoinStep : ∀ x0 x1, Statement (.channelRejoinStep x0 x1) := fun _ _ => of_none rfl rfl rfl
theorem channelRejoined : ∀ x0 x1, Statement (.channelRejoined x0 x1) := fun _ _ => of_none rfl rfl rfl
theorem evacuationStart : ∀ x0, Statement (.evacuationStart x0) := fun _ => of_none rfl rfl rfl
theorem spareTrained : ∀ x0, Statement (.spareTrained x0) := fun _ => of_none rfl rfl rfl
theorem evacuationCopyStripe : ∀ x0, Statement (.evacuationCopyStripe x0) := fun _ => of_none rfl rfl rfl
theorem evacuationCutover : ∀ x0, Statement (.evacuationCutover x0) := fun _ => of_none rfl rfl rfl
theorem evacuationAbandon : ∀ x0, Statement (.evacuationAbandon x0) := fun _ => of_none rfl rfl rfl
theorem threadPlacement : ∀ x0 x1, Statement (.threadPlacement x0 x1) := fun _ _ => of_none rfl rfl rfl
theorem threadStart : ∀ x0, Statement (.threadStart x0) := fun _ => of_none rfl rfl rfl
theorem threadEnd : ∀ x0, Statement (.threadEnd x0) := fun _ => of_thread rfl rfl rfl (id)
theorem watchdogExpiry : ∀ x0, Statement (.watchdogExpiry x0) := fun _ => of_thread rfl rfl rfl (id)
theorem sprayComplete : ∀ x0, Statement (.sprayComplete x0) := fun _ => of_none rfl rfl rfl
theorem engineLocalAccess : ∀ x0, Statement (.engineLocalAccess x0) := fun _ => of_none rfl rfl rfl
theorem engineQueueRoom : ∀ x0, Statement (.engineQueueRoom x0) := fun _ => of_none rfl rfl rfl
theorem remoteAccessSend : ∀ x0, Statement (.remoteAccessSend x0) := fun _ => of_none rfl rfl rfl
theorem remoteRetryBackoff : ∀ x0, Statement (.remoteRetryBackoff x0) := fun _ => of_none rfl rfl rfl
theorem remoteTimeout : ∀ x0, Statement (.remoteTimeout x0) := fun _ => of_none rfl rfl rfl
theorem faultBatchClose : ∀ x0, Statement (.faultBatchClose x0) := fun _ => of_none rfl rfl rfl
theorem faultBatchWrite : ∀ x0, Statement (.faultBatchWrite x0) := fun _ => of_none rfl rfl rfl
theorem faultTimeout : ∀ x0, Statement (.faultTimeout x0) := fun _ => of_none rfl rfl rfl
theorem invalidateAck : ∀ x0, Statement (.invalidateAck x0) := fun _ => of_none rfl rfl rfl
theorem plannedMoveStart : ∀ x0, Statement (.plannedMoveStart x0) := fun _ => of_none rfl rfl rfl
theorem plannedMoveDone : ∀ x0, Statement (.plannedMoveDone x0) := fun _ => of_none rfl rfl rfl
theorem plannedMoveAbandon : ∀ x0, Statement (.plannedMoveAbandon x0) := fun _ => of_none rfl rfl rfl
theorem engineAbruptFail : ∀ x0 x1, Statement (.engineAbruptFail x0 x1) := fun _ _ => of_none rfl rfl rfl
theorem poolItemUnitCommit : ∀ x0, Statement (.poolItemUnitCommit x0) := fun _ => of_thread rfl rfl rfl (id)
theorem fill : ∀ x0, Statement (.fill x0) := fun _ => of_thread rfl rfl rfl (id)
theorem zero : ∀ x0, Statement (.zero x0) := fun _ => of_thread rfl rfl rfl (id)
theorem copy : ∀ x0, Statement (.copy x0) := fun _ => of_thread rfl rfl rfl (id)
theorem compare : ∀ x0, Statement (.compare x0) := fun _ => of_thread rfl rfl rfl (id)
theorem reduce : ∀ x0, Statement (.reduce x0) := fun _ => of_thread rfl rfl rfl (id)
theorem gather : ∀ x0, Statement (.gather x0) := fun _ => of_thread rfl rfl rfl (id)
theorem scatter : ∀ x0, Statement (.scatter x0) := fun _ => of_thread rfl rfl rfl (id)
theorem search : ∀ x0, Statement (.search x0) := fun _ => of_thread rfl rfl rfl (id)
theorem attend : ∀ x0, Statement (.attend x0) := fun _ => of_thread rfl rfl rfl (id)
theorem digest : ∀ x0, Statement (.digest x0) := fun _ => of_thread rfl rfl rfl (id)
theorem alu : ∀ x0 x1, Statement (.alu x0 x1) := fun _ _ => of_thread rfl rfl rfl (id)
theorem addi : ∀ x0 x1, Statement (.addi x0 x1) := fun _ _ => of_thread rfl rfl rfl (id)
theorem andi : ∀ x0 x1, Statement (.andi x0 x1) := fun _ _ => of_thread rfl rfl rfl (id)
theorem ori : ∀ x0 x1, Statement (.ori x0 x1) := fun _ _ => of_thread rfl rfl rfl (id)
theorem xori : ∀ x0 x1, Statement (.xori x0 x1) := fun _ _ => of_thread rfl rfl rfl (id)
theorem shli : ∀ x0 x1, Statement (.shli x0 x1) := fun _ _ => of_thread rfl rfl rfl (id)
theorem shri : ∀ x0 x1, Statement (.shri x0 x1) := fun _ _ => of_thread rfl rfl rfl (id)
theorem srai : ∀ x0 x1, Statement (.srai x0 x1) := fun _ _ => of_thread rfl rfl rfl (id)
theorem slti : ∀ x0 x1, Statement (.slti x0 x1) := fun _ _ => of_thread rfl rfl rfl (id)
theorem li : ∀ x0 x1, Statement (.li x0 x1) := fun _ _ => of_thread rfl rfl rfl (id)
theorem lis : ∀ x0 x1, Statement (.lis x0 x1) := fun _ _ => of_thread rfl rfl rfl (id)
theorem pop : ∀ x0 x1, Statement (.pop x0 x1) := fun _ _ => of_thread rfl rfl rfl (id)
theorem rds : ∀ x0 x1, Statement (.rds x0 x1) := fun _ _ => of_thread rfl rfl rfl (id)
theorem beq : ∀ x0 x1, Statement (.beq x0 x1) := fun _ _ => of_thread rfl rfl rfl (id)
theorem bne : ∀ x0 x1, Statement (.bne x0 x1) := fun _ _ => of_thread rfl rfl rfl (id)
theorem blt : ∀ x0 x1, Statement (.blt x0 x1) := fun _ _ => of_thread rfl rfl rfl (id)
theorem bge : ∀ x0 x1, Statement (.bge x0 x1) := fun _ _ => of_thread rfl rfl rfl (id)
theorem bltu : ∀ x0 x1, Statement (.bltu x0 x1) := fun _ _ => of_thread rfl rfl rfl (id)
theorem bgeu : ∀ x0 x1, Statement (.bgeu x0 x1) := fun _ _ => of_thread rfl rfl rfl (id)
theorem bp : ∀ x0 x1, Statement (.bp x0 x1) := fun _ _ => of_thread rfl rfl rfl (id)
theorem jmp : ∀ x0 x1, Statement (.jmp x0 x1) := fun _ _ => of_thread rfl rfl rfl (id)
theorem jal : ∀ x0 x1, Statement (.jal x0 x1) := fun _ _ => of_thread rfl rfl rfl (id)
theorem jr : ∀ x0 x1, Statement (.jr x0 x1) := fun _ _ => of_thread rfl rfl rfl (id)
theorem endInstr : ∀ x0 x1, Statement (.endInstr x0 x1) := fun _ _ => of_thread rfl rfl rfl (id)
theorem trap : ∀ x0 x1, Statement (.trap x0 x1) := fun _ _ => of_thread rfl rfl rfl (id)
theorem fence : ∀ x0 x1, Statement (.fence x0 x1) := fun _ _ => of_thread rfl rfl rfl (id)
theorem nop : ∀ x0 x1, Statement (.nop x0 x1) := fun _ _ => of_thread rfl rfl rfl (id)
theorem ld : ∀ x0 x1, Statement (.ld x0 x1) := fun _ _ => of_thread rfl rfl rfl (id)
theorem st : ∀ x0 x1, Statement (.st x0 x1) := fun _ _ => of_thread rfl rfl rfl (id)
theorem vld : ∀ x0 x1, Statement (.vld x0 x1) := fun _ _ => of_thread rfl rfl rfl (id)
theorem vst : ∀ x0 x1, Statement (.vst x0 x1) := fun _ _ => of_thread rfl rfl rfl (id)
theorem vldg : ∀ x0 x1, Statement (.vldg x0 x1) := fun _ _ => of_thread rfl rfl rfl (id)
theorem vstg : ∀ x0 x1, Statement (.vstg x0 x1) := fun _ _ => of_thread rfl rfl rfl (id)
theorem atom : ∀ x0 x1, Statement (.atom x0 x1) := fun _ _ => of_thread rfl rfl rfl (id)
theorem tload : ∀ x0 x1, Statement (.tload x0 x1) := fun _ _ => of_thread rfl rfl rfl (id)
theorem tstore : ∀ x0 x1, Statement (.tstore x0 x1) := fun _ _ => of_thread rfl rfl rfl (id)
theorem twait : ∀ x0 x1, Statement (.twait x0 x1) := fun _ _ => of_thread rfl rfl rfl (id)
theorem tilePerformed : ∀ x0, Statement (.tilePerformed x0) := fun _ => of_none rfl rfl rfl
theorem vop : ∀ x0 x1, Statement (.vop x0 x1) := fun _ _ => of_thread rfl rfl rfl (id)
theorem vcmp : ∀ x0 x1, Statement (.vcmp x0 x1) := fun _ _ => of_thread rfl rfl rfl (id)
theorem vsel : ∀ x0 x1, Statement (.vsel x0 x1) := fun _ _ => of_thread rfl rfl rfl (id)
theorem vbcast : ∀ x0 x1, Statement (.vbcast x0 x1) := fun _ _ => of_thread rfl rfl rfl (id)
theorem vmovs : ∀ x0 x1, Statement (.vmovs x0 x1) := fun _ _ => of_thread rfl rfl rfl (id)
theorem vsfu : ∀ x0 x1, Statement (.vsfu x0 x1) := fun _ _ => of_thread rfl rfl rfl (id)
theorem vcvt : ∀ x0 x1, Statement (.vcvt x0 x1) := fun _ _ => of_thread rfl rfl rfl (id)
theorem vmxq : ∀ x0 x1, Statement (.vmxq x0 x1) := fun _ _ => of_thread rfl rfl rfl (id)
theorem vmxd : ∀ x0 x1, Statement (.vmxd x0 x1) := fun _ _ => of_thread rfl rfl rfl (id)
theorem vdot : ∀ x0 x1, Statement (.vdot x0 x1) := fun _ _ => of_thread rfl rfl rfl (id)
theorem vdotb : ∀ x0 x1, Statement (.vdotb x0 x1) := fun _ _ => of_thread rfl rfl rfl (id)
theorem aop : ∀ x0 x1, Statement (.aop x0 x1) := fun _ _ => of_thread rfl rfl rfl (id)
theorem aread : ∀ x0 x1, Statement (.aread x0 x1) := fun _ _ => of_thread rfl rfl rfl (id)
theorem amovs : ∀ x0 x1, Statement (.amovs x0 x1) := fun _ _ => of_thread rfl rfl rfl (id)
theorem ownerClaim : ∀ x0 x1, Statement (.ownerClaim x0 x1) := fun _ _ => of_order rfl rfl rfl (fun w => (first_of w))
theorem ownerRenew : ∀ x0, Statement (.ownerRenew x0) := fun _ => of_order rfl rfl rfl (id)
theorem ownerHandover : ∀ x0 x1, Statement (.ownerHandover x0 x1) := fun _ _ => of_order rfl rfl rfl (fun w => (first_of w))
theorem ownerAccept : ∀ x0, Statement (.ownerAccept x0) := fun _ => of_order rfl rfl rfl (id)
theorem ownerRelease : ∀ x0, Statement (.ownerRelease x0) := fun _ => of_order rfl rfl rfl (id)
theorem electionWindowClose : Statement (.electionWindowClose) := of_none rfl rfl rfl
theorem leaseExpiry : Statement (.leaseExpiry) := of_none rfl rfl rfl
theorem handoverExpiry : Statement (.handoverExpiry) := of_none rfl rfl rfl
theorem statusWindowRead : ∀ x0 x1 x2, Statement (.statusWindowRead x0 x1 x2) := fun _ _ _ => of_order rfl rfl rfl (fun w => (first_of (first_of w)))
theorem mgmtKeyAgree : ∀ x0 x1, Statement (.mgmtKeyAgree x0 x1) := fun _ _ => of_order rfl rfl rfl (fun w => (first_of w))
theorem grant : ∀ x0 x1 x2 x3 x4 x5 x6 x7 x8 x9, Statement (.grant x0 x1 x2 x3 x4 x5 x6 x7 x8 x9) := fun _ _ _ _ _ _ _ _ _ _ => of_order rfl rfl rfl (fun w => (first_of (first_of (first_of (first_of (first_of (first_of (first_of (first_of (first_of w))))))))))
theorem accessSet : ∀ x0 x1 x2 x3 x4, Statement (.accessSet x0 x1 x2 x3 x4) := fun _ _ _ _ _ => of_order rfl rfl rfl (fun w => (first_of (first_of (first_of (first_of w)))))
theorem revoke : ∀ x0 x1 x2, Statement (.revoke x0 x1 x2) := fun _ _ _ => of_order rfl rfl rfl (fun w => (first_of (first_of w)))
theorem extentRead : ∀ x0 x1, Statement (.extentRead x0 x1) := fun _ _ => of_order rfl rfl rfl (fun w => (first_of w))
theorem extentFind : ∀ x0 x1, Statement (.extentFind x0 x1) := fun _ _ => of_order rfl rfl rfl (fun w => (first_of w))
theorem violationRead : ∀ x0, Statement (.violationRead x0) := fun _ => of_order rfl rfl rfl (id)
theorem hostShape : ∀ x0 x1 x2 x3 x4 x5 x6, Statement (.hostShape x0 x1 x2 x3 x4 x5 x6) := fun _ _ _ _ _ _ _ => of_order rfl rfl rfl (fun w => (first_of (first_of (first_of (first_of (first_of (first_of w)))))))
theorem hostShapeRead : ∀ x0 x1 x2, Statement (.hostShapeRead x0 x1 x2) := fun _ _ _ => of_order rfl rfl rfl (fun w => (first_of (first_of w)))
theorem tenantCreate : ∀ x0 x1 x2, Statement (.tenantCreate x0 x1 x2) := fun _ _ _ => of_order rfl rfl rfl (fun w => (first_of w))
theorem tenantRemove : ∀ x0 x1, Statement (.tenantRemove x0 x1) := fun _ _ => of_order rfl rfl rfl (fun w => (first_of w))
theorem rotateKey : ∀ x0 x1 x2, Statement (.rotateKey x0 x1 x2) := fun _ _ _ => of_order rfl rfl rfl (fun w => (first_of w))
theorem retireKey : ∀ x0 x1 x2 x3, Statement (.retireKey x0 x1 x2 x3) := fun _ _ _ _ => of_order rfl rfl rfl (fun w => (first_of (first_of (first_of w))))
theorem attestReport : ∀ x0 x1, Statement (.attestReport x0 x1) := fun _ _ => of_order rfl rfl rfl (id)
theorem fwWrite : ∀ x0 x1 x2 x3, Statement (.fwWrite x0 x1 x2 x3) := fun _ _ _ _ => of_order rfl rfl rfl (fun w => (first_of (first_of (first_of w))))
theorem fwActivate : ∀ x0 x1, Statement (.fwActivate x0 x1) := fun _ _ => of_order rfl rfl rfl (fun w => (first_of w))
theorem slotGrant : ∀ x0 x1 x2, Statement (.slotGrant x0 x1 x2) := fun _ _ _ => of_order rfl rfl rfl (fun w => (first_of (first_of w)))
theorem slotRelease : ∀ x0 x1 x2, Statement (.slotRelease x0 x1 x2) := fun _ _ _ => of_order rfl rfl rfl (fun w => (first_of (first_of w)))
theorem slotRead : ∀ x0 x1, Statement (.slotRead x0 x1) := fun _ _ => of_order rfl rfl rfl (fun w => (first_of w))
theorem hostFailed : ∀ x0 x1, Statement (.hostFailed x0 x1) := fun _ _ => of_order rfl rfl rfl (fun w => (first_of w))
theorem lostRead : ∀ x0, Statement (.lostRead x0) := fun _ => of_order rfl rfl rfl (id)
theorem dirRead : ∀ x0 x1, Statement (.dirRead x0 x1) := fun _ _ => of_order rfl rfl rfl (fun w => (first_of w))
theorem stackRead : ∀ x0 x1 x2, Statement (.stackRead x0 x1 x2) := fun _ _ _ => of_order rfl rfl rfl (fun w => (first_of (first_of w)))
theorem stackRateLimit : ∀ x0 x1 x2 x3, Statement (.stackRateLimit x0 x1 x2 x3) := fun _ _ _ _ => of_order rfl rfl rfl (fun w => (first_of (first_of (first_of w))))
theorem memIdlePolicy : ∀ x0 x1, Statement (.memIdlePolicy x0 x1) := fun _ _ => of_order rfl rfl rfl (fun w => (first_of w))
theorem integrityRead : ∀ x0 x1 x2, Statement (.integrityRead x0 x1 x2) := fun _ _ _ => of_order rfl rfl rfl (fun w => (first_of (first_of w)))
theorem blotterRead : ∀ x0 x1 x2, Statement (.blotterRead x0 x1 x2) := fun _ _ _ => of_order rfl rfl rfl (fun w => (first_of (first_of w)))
theorem blotterClear : ∀ x0 x1, Statement (.blotterClear x0 x1) := fun _ _ => of_order rfl rfl rfl (fun w => (first_of w))
theorem poisonRead : ∀ x0, Statement (.poisonRead x0) := fun _ => of_order rfl rfl rfl (id)
theorem scrubPolicy : ∀ x0 x1, Statement (.scrubPolicy x0 x1) := fun _ _ => of_order rfl rfl rfl (fun w => (first_of w))
theorem evacuate : ∀ x0 x1 x2, Statement (.evacuate x0 x1 x2) := fun _ _ _ => of_order rfl rfl rfl (fun w => (first_of (first_of w)))
theorem accordLoad : ∀ x0 x1 x2 x3, Statement (.accordLoad x0 x1 x2 x3) := fun _ _ _ _ => of_order rfl rfl rfl (fun w => (first_of (first_of (first_of w))))
theorem accordUnload : ∀ x0 x1, Statement (.accordUnload x0 x1) := fun _ _ => of_order rfl rfl rfl (fun w => (first_of w))
theorem asidCreate : ∀ x0 x1 x2, Statement (.asidCreate x0 x1 x2) := fun _ _ _ => of_order rfl rfl rfl (fun w => (first_of (first_of w)))
theorem asidDestroy : ∀ x0 x1, Statement (.asidDestroy x0 x1) := fun _ _ => of_order rfl rfl rfl (fun w => (first_of w))
theorem mapRange : ∀ x0 x1 x2 x3 x4 x5 x6, Statement (.mapRange x0 x1 x2 x3 x4 x5 x6) := fun _ _ _ _ _ _ _ => of_order rfl rfl rfl (fun w => (first_of (first_of (first_of (first_of (first_of (first_of w)))))))
theorem unmapRange : ∀ x0 x1 x2 x3, Statement (.unmapRange x0 x1 x2 x3) := fun _ _ _ _ => of_order rfl rfl rfl (fun w => (first_of (first_of (first_of w))))
theorem protectRange : ∀ x0 x1 x2 x3 x4, Statement (.protectRange x0 x1 x2 x3 x4) := fun _ _ _ _ _ => of_order rfl rfl rfl (fun w => (first_of (first_of (first_of (first_of w)))))
theorem invalidateRange : ∀ x0 x1 x2 x3, Statement (.invalidateRange x0 x1 x2 x3) := fun _ _ _ _ => of_order rfl rfl rfl (fun w => (first_of (first_of (first_of w))))
theorem mapRead : ∀ x0 x1 x2, Statement (.mapRead x0 x1 x2) := fun _ _ _ => of_order rfl rfl rfl (fun w => (first_of (first_of w)))
theorem faultRingSet : ∀ x0 x1 x2, Statement (.faultRingSet x0 x1 x2) := fun _ _ _ => of_order rfl rfl rfl (fun w => (first_of (first_of w)))
theorem faultResolve : ∀ x0 x1 x2, Statement (.faultResolve x0 x1 x2) := fun _ _ _ => of_order rfl rfl rfl (fun w => (first_of w))
theorem faultPolicy : ∀ x0 x1, Statement (.faultPolicy x0 x1) := fun _ _ => of_order rfl rfl rfl (fun w => (first_of w))
theorem sprayRead : ∀ x0 x1, Statement (.sprayRead x0 x1) := fun _ _ => of_order rfl rfl rfl (fun w => (first_of w))
theorem sprayCancel : ∀ x0 x1, Statement (.sprayCancel x0 x1) := fun _ _ => of_order rfl rfl rfl (fun w => (first_of w))
theorem engineTagRelease : ∀ x0 x1, Statement (.engineTagRelease x0 x1) := fun _ _ => of_order rfl rfl rfl (fun w => (first_of w))
theorem portRead : ∀ x0 x1 x2, Statement (.portRead x0 x1 x2) := fun _ _ _ => of_order rfl rfl rfl (fun w => (first_of (first_of w)))
theorem portSelect : ∀ x0 x1 x2, Statement (.portSelect x0 x1 x2) := fun _ _ _ => of_order rfl rfl rfl (fun w => (first_of (first_of w)))
theorem portRetrain : ∀ x0 x1 x2, Statement (.portRetrain x0 x1 x2) := fun _ _ _ => of_order rfl rfl rfl (fun w => (first_of (first_of w)))
theorem faultRead : ∀ x0 x1, Statement (.faultRead x0 x1) := fun _ _ => of_order rfl rfl rfl (fun w => (first_of w))
theorem faultAck : ∀ x0 x1 x2, Statement (.faultAck x0 x1 x2) := fun _ _ _ => of_order rfl rfl rfl (fun w => (first_of (first_of w)))
theorem faultReadWaitExpiry : ∀ x0, Statement (.faultReadWaitExpiry x0) := fun _ => of_none rfl rfl rfl
theorem clockSet : ∀ x0 x1, Statement (.clockSet x0 x1) := fun _ _ => of_order rfl rfl rfl (fun w => (first_of w))
theorem lifetimeRead : ∀ x0 x1, Statement (.lifetimeRead x0 x1) := fun _ _ => of_order rfl rfl rfl (fun w => (first_of w))
theorem bistRead : ∀ x0 x1, Statement (.bistRead x0 x1) := fun _ _ => of_order rfl rfl rfl (fun w => (first_of w))
theorem powerLimit : ∀ x0 x1, Statement (.powerLimit x0 x1) := fun _ _ => of_order rfl rfl rfl (fun w => (first_of w))
theorem moduleReset : ∀ x0, Statement (.moduleReset x0) := fun _ => of_order rfl rfl rfl (id)
theorem flitReceive : ∀ x0 x1 x2, Statement (.flitReceive x0 x1 x2) := fun _ _ _ => of_none rfl rfl rfl
theorem replayTimerExpiry : ∀ x0, Statement (.replayTimerExpiry x0) := fun _ => of_none rfl rfl rfl
theorem nakRepeatTimer : ∀ x0, Statement (.nakRepeatTimer x0) := fun _ => of_none rfl rfl rfl
theorem linkHello : ∀ x0 x1, Statement (.linkHello x0 x1) := fun _ _ => of_none rfl rfl rfl
theorem linkAssign : ∀ x0 x1, Statement (.linkAssign x0 x1) := fun _ _ => of_none rfl rfl rfl
theorem linkReady : ∀ x0 x1, Statement (.linkReady x0 x1) := fun _ _ => of_none rfl rfl rfl
theorem recoverQuery : ∀ x0 x1, Statement (.recoverQuery x0 x1) := fun _ _ => of_none rfl rfl rfl
theorem recoverReply : ∀ x0 x1, Statement (.recoverReply x0 x1) := fun _ _ => of_none rfl rfl rfl
theorem staleRole : ∀ x0 x1 x2, Statement (.staleRole x0 x1 x2) := fun _ _ _ => of_none rfl rfl rfl
theorem resetRequest : ∀ x0 x1 x2 x3, Statement (.resetRequest x0 x1 x2 x3) := fun _ _ _ _ => of_none rfl rfl rfl
theorem ctrlRepeatTimer : ∀ x0, Statement (.ctrlRepeatTimer x0) := fun _ => of_none rfl rfl rfl
theorem orphanResolveTimeout : ∀ x0, Statement (.orphanResolveTimeout x0) := fun _ => of_none rfl rfl rfl
theorem portTrainingDone : ∀ x0 x1, Statement (.portTrainingDone x0 x1) := fun _ _ => of_none rfl rfl rfl
theorem portBringupDone : ∀ x0 x1, Statement (.portBringupDone x0 x1) := fun _ _ => of_none rfl rfl rfl
theorem plannedChangeDrain : ∀ x0, Statement (.plannedChangeDrain x0) := fun _ => of_none rfl rfl rfl
theorem portResyncDone : ∀ x0, Statement (.portResyncDone x0) := fun _ => of_none rfl rfl rfl
theorem savedStateExpiry : ∀ x0, Statement (.savedStateExpiry x0) := fun _ => of_none rfl rfl rfl
theorem laneDegrade : ∀ x0 x1 x2, Statement (.laneDegrade x0 x1 x2) := fun _ _ _ => of_none rfl rfl rfl
theorem dlFlitReceive : ∀ x0, Statement (.dlFlitReceive x0) := fun _ => of_none rfl rfl rfl
theorem dlReplayTimerExpiry : Statement (.dlReplayTimerExpiry) := of_none rfl rfl rfl
theorem dlRecoveryRetrain : Statement (.dlRecoveryRetrain) := of_none rfl rfl rfl
theorem dlCreditInit : ∀ x0, Statement (.dlCreditInit x0) := fun _ => of_none rfl rfl rfl
theorem dlWidth : ∀ x0, Statement (.dlWidth x0) := fun _ => of_none rfl rfl rfl
theorem dlWidthRetryTimer : Statement (.dlWidthRetryTimer) := of_none rfl rfl rfl
theorem dlFullTrainingDone : ∀ x0, Statement (.dlFullTrainingDone x0) := fun _ => of_none rfl rfl rfl
theorem darinlinkDown : Statement (.darinlinkDown) := of_none rfl rfl rfl
theorem dlTrainRetryTimer : Statement (.dlTrainRetryTimer) := of_none rfl rfl rfl
theorem errorLine : ∀ x0 x1 x2 x3 x4, Statement (.errorLine x0 x1 x2 x3 x4) := fun _ _ _ _ _ => of_none rfl rfl rfl
theorem replacementDone : ∀ x0 x1 x2, Statement (.replacementDone x0 x1 x2) := fun _ _ _ => of_none rfl rfl rfl
theorem mgmtPairTakeover : Statement (.mgmtPairTakeover) := of_none rfl rfl rfl
theorem sliceStart : ∀ x0 x1 x2, Statement (.sliceStart x0 x1 x2) := fun _ _ _ => of_none rfl rfl rfl
theorem sliceEnd : ∀ x0 x1, Statement (.sliceEnd x0 x1) := fun _ _ => of_none rfl rfl rfl
theorem sliceAbandon : ∀ x0 x1, Statement (.sliceAbandon x0 x1) := fun _ _ => of_none rfl rfl rfl
theorem catchupWalkDone : ∀ x0, Statement (.catchupWalkDone x0) := fun _ => of_none rfl rfl rfl
theorem unitDue : ∀ x0 x1 x2, Statement (.unitDue x0 x1 x2) := fun _ _ _ => of_none rfl rfl rfl
theorem portExchange : ∀ x0, Statement (.portExchange x0) := fun _ => of_none rfl rfl rfl
theorem mgmtPairExchange : Statement (.mgmtPairExchange) := of_none rfl rfl rfl
theorem spareStackTest : ∀ x0 x1, Statement (.spareStackTest x0 x1) := fun _ _ => of_none rfl rfl rfl
theorem fuseBankCheck : ∀ x0 x1, Statement (.fuseBankCheck x0 x1) := fun _ _ => of_none rfl rfl rfl
theorem checkpoint : Statement (.checkpoint) := of_none rfl rfl rfl
theorem eventRecordWrite : ∀ x0, Statement (.eventRecordWrite x0) := fun _ => of_none rfl rfl rfl
theorem pwrOkFall : Statement (.pwrOkFall) := of_none rfl rfl rfl
theorem resetNRise : Statement (.resetNRise) := of_none rfl rfl rfl
theorem resetNLow : ∀ x0, Statement (.resetNLow x0) := fun _ => of_none rfl rfl rfl
theorem hubResetRelease : ∀ x0, Statement (.hubResetRelease x0) := fun _ => of_none rfl rfl rfl
theorem orderServiceStart : Statement (.orderServiceStart) := of_none rfl rfl rfl
theorem readyAssert : Statement (.readyAssert) := of_none rfl rfl rfl
theorem startupTimeout : Statement (.startupTimeout) := of_none rfl rfl rfl
theorem inputMonitor : ∀ x0 x1, Statement (.inputMonitor x0 x1) := fun _ _ => of_none rfl rfl rfl
theorem powerEvaluation : ∀ x0 x1, Statement (.powerEvaluation x0 x1) := fun _ _ => of_none rfl rfl rfl
theorem dieTempRead : ∀ x0 x1, Statement (.dieTempRead x0 x1) := fun _ _ => of_none rfl rfl rfl
theorem refClockLoss : Statement (.refClockLoss) := of_none rfl rfl rfl
theorem refClockReturn : Statement (.refClockReturn) := of_none rfl rfl rfl
theorem refClockAbsentTimeout : Statement (.refClockAbsentTimeout) := of_none rfl rfl rfl
theorem convertersStop : Statement (.convertersStop) := of_none rfl rfl rfl
theorem i3cPrivateWrite : ∀ x0, Statement (.i3cPrivateWrite x0) := fun _ => of_none rfl rfl rfl
theorem i3cPrivateRead : ∀ x0, Statement (.i3cPrivateRead x0) := fun _ => of_none rfl rfl rfl
theorem setdasa : ∀ x0, Statement (.setdasa x0) := fun _ => of_none rfl rfl rfl
theorem entdaa : ∀ x0, Statement (.entdaa x0) := fun _ => of_none rfl rfl rfl
theorem rstdaa : Statement (.rstdaa) := of_none rfl rfl rfl
theorem getpid : Statement (.getpid) := of_none rfl rfl rfl
theorem getbcr : Statement (.getbcr) := of_none rfl rfl rfl
theorem getdcr : Statement (.getdcr) := of_none rfl rfl rfl
theorem getstatus : Statement (.getstatus) := of_none rfl rfl rfl
theorem getmxds : Statement (.getmxds) := of_none rfl rfl rfl
theorem enec : Statement (.enec) := of_none rfl rfl rfl
theorem disec : Statement (.disec) := of_none rfl rfl rfl
theorem idcode : Statement (.idcode) := of_none rfl rfl rfl
theorem sample : ∀ x0, Statement (.sample x0) := fun _ => of_none rfl rfl rfl
theorem extest : ∀ x0, Statement (.extest x0) := fun _ => of_none rfl rfl rfl
theorem extestPulse : ∀ x0, Statement (.extestPulse x0) := fun _ => of_none rfl rfl rfl
theorem extestTrain : ∀ x0, Statement (.extestTrain x0) := fun _ => of_none rfl rfl rfl
theorem clamp : ∀ x0, Statement (.clamp x0) := fun _ => of_none rfl rfl rfl
theorem highz : ∀ x0, Statement (.highz x0) := fun _ => of_none rfl rfl rfl
theorem bootStatus : Statement (.bootStatus) := of_none rfl rfl rfl
theorem bypass : ∀ x0 x1, Statement (.bypass x0 x1) := fun _ _ => of_none rfl rfl rfl
theorem trstNLow : Statement (.trstNLow) := of_none rfl rfl rfl
theorem pwrOkRise : Statement (.pwrOkRise) := of_none rfl rfl rfl
theorem stackTrainingDone : ∀ x0 x1, Statement (.stackTrainingDone x0 x1) := fun _ _ => of_none rfl rfl rfl
theorem metadataWriteDone : ∀ x0, Statement (.metadataWriteDone x0) := fun _ => of_none rfl rfl rfl
theorem startupSelfTestDone : ∀ x0 x1, Statement (.startupSelfTestDone x0 x1) := fun _ _ => of_none rfl rfl rfl
theorem mgmtKeyPreviousExpiry : ∀ x0, Statement (.mgmtKeyPreviousExpiry x0) := fun _ => of_none rfl rfl rfl
theorem receivePointHoldExpiry : ∀ x0, Statement (.receivePointHoldExpiry x0) := fun _ => of_none rfl rfl rfl
theorem fwWriteDone : ∀ x0, Statement (.fwWriteDone x0) := fun _ => of_none rfl rfl rfl
theorem fwActivateDone : ∀ x0, Statement (.fwActivateDone x0) := fun _ => of_none rfl rfl rfl

end Sys2Proof.Laws.Fields
end

