-- ==== Sys2Proof/Laws/State.lean ====
section
/-! SUPPORT. Reading after an update: tables by number, and every field of the state after each named update (true by unfolding the update once). -/

namespace Sys2Proof.Machine

/-! ### Tables -/

/-- The entry of a key after an entry was set. -/
@[simp] theorem tget?_tset {α : Type} (t : Tab α) (n m : Nat) (v : α) : tget? (tset t n v) m = if n = m then some v else tget? t m := by
  induction t with
  | nil => by_cases h : n = m <;> by_cases g : m < n <;> simp [tset, tget?, h, g]
  | cons e t ih =>
    obtain ⟨k, w⟩ := e
    unfold tset
    by_cases h : k = n
    · subst h
      by_cases g : k = m <;> simp [tget?, g]
    · by_cases l : n < k
      · simp only [h, l, if_true, if_false, tget?]
        by_cases g : n = m
        · simp [g]
        · by_cases b : m < n
          · have c : ¬ k = m := by omega
            have d : m < k := by omega
            simp [g, b, c, d]
          · simp [g, b]
      · simp only [h, l, if_false, tget?]
        by_cases g : k = m
        · have c : ¬ n = m := by omega
          simp [g, c]
        · by_cases b : m < k
          · have c : ¬ n = m := by omega
            simp [g, b, c]
          · simp [g, b, ih]

@[simp] theorem tget_tset {α : Type} (t : Tab α) (n m : Nat) (v d : α) : tget (tset t n v) m d = if n = m then v else tget t m d := by
  unfold tget; rw [tget?_tset]; split <;> rfl

@[simp] theorem tget_tmod {α : Type} (t : Tab α) (n m : Nat) (d : α) (f : α → α) : tget (tmod t n d f) m d = if n = m then f (tget t n d) else tget t m d := tget_tset ..

/-- A removed key has no entry. -/
@[simp] theorem tget?_tdel_same {α : Type} (t : Tab α) (n : Nat) : tget? (tdel t n) n = none := by
  induction t with
  | nil => rfl
  | cons e t ih =>
    unfold tdel at ih ⊢
    by_cases h : e.1 = n
    · simp [h, ih]
    · by_cases g : n < e.1 <;> simp [h, g, tget?, ih]

/-! ### useFreeN -/

@[simp] theorem useFreeN_pending (s : State) (n : Nat) : (useFreeN s n).pending = s.pending := rfl
@[simp] theorem useFreeN_extents (s : State) (n : Nat) : (useFreeN s n).extents = s.extents := rfl
@[simp] theorem useFreeN_revokes (s : State) (n : Nat) : (useFreeN s n).revokes = s.revokes := rfl
@[simp] theorem useFreeN_violations (s : State) (n : Nat) : (useFreeN s n).violations = s.violations := rfl
@[simp] theorem useFreeN_violationOverflow (s : State) (n : Nat) : (useFreeN s n).violationOverflow = s.violationOverflow := rfl
@[simp] theorem useFreeN_violationNoted (s : State) (n : Nat) : (useFreeN s n).violationNoted = s.violationNoted := rfl
@[simp] theorem useFreeN_coh (s : State) (n : Nat) : (useFreeN s n).coh = s.coh := rfl
@[simp] theorem useFreeN_mem (s : State) (n : Nat) : (useFreeN s n).mem = s.mem := rfl
@[simp] theorem useFreeN_eng (s : State) (n : Nat) : (useFreeN s n).eng = s.eng := rfl
@[simp] theorem useFreeN_link (s : State) (n : Nat) : (useFreeN s n).link = s.link := rfl
@[simp] theorem useFreeN_fault (s : State) (n : Nat) : (useFreeN s n).fault = s.fault := rfl
@[simp] theorem useFreeN_hub (s : State) (n : Nat) : (useFreeN s n).hub = s.hub := rfl
@[simp] theorem useFreeN_life (s : State) (n : Nat) : (useFreeN s n).life = s.life := rfl
@[simp] theorem useFreeN_power (s : State) (n : Nat) : (useFreeN s n).power = s.power := rfl
@[simp] theorem useFreeN_wire (s : State) (n : Nat) : (useFreeN s n).wire = s.wire := rfl

/-! ### useFree -/

@[simp] theorem useFree_pending (s : State) : (useFree s).pending = s.pending := rfl
@[simp] theorem useFree_extents (s : State) : (useFree s).extents = s.extents := rfl
@[simp] theorem useFree_revokes (s : State) : (useFree s).revokes = s.revokes := rfl
@[simp] theorem useFree_violations (s : State) : (useFree s).violations = s.violations := rfl
@[simp] theorem useFree_violationOverflow (s : State) : (useFree s).violationOverflow = s.violationOverflow := rfl
@[simp] theorem useFree_violationNoted (s : State) : (useFree s).violationNoted = s.violationNoted := rfl
@[simp] theorem useFree_coh (s : State) : (useFree s).coh = s.coh := rfl
@[simp] theorem useFree_mem (s : State) : (useFree s).mem = s.mem := rfl
@[simp] theorem useFree_eng (s : State) : (useFree s).eng = s.eng := rfl
@[simp] theorem useFree_link (s : State) : (useFree s).link = s.link := rfl
@[simp] theorem useFree_fault (s : State) : (useFree s).fault = s.fault := rfl
@[simp] theorem useFree_hub (s : State) : (useFree s).hub = s.hub := rfl
@[simp] theorem useFree_life (s : State) : (useFree s).life = s.life := rfl
@[simp] theorem useFree_power (s : State) : (useFree s).power = s.power := rfl
@[simp] theorem useFree_wire (s : State) : (useFree s).wire = s.wire := rfl

/-! ### modRegion -/

@[simp] theorem modRegion_pending (s : State) (k : Nat) (f : RegionSt → RegionSt) : (modRegion s k f).pending = s.pending := rfl
@[simp] theorem modRegion_time (s : State) (k : Nat) (f : RegionSt → RegionSt) : (modRegion s k f).time = s.time := rfl
@[simp] theorem modRegion_extents (s : State) (k : Nat) (f : RegionSt → RegionSt) : (modRegion s k f).extents = s.extents := rfl
@[simp] theorem modRegion_revokes (s : State) (k : Nat) (f : RegionSt → RegionSt) : (modRegion s k f).revokes = s.revokes := rfl
@[simp] theorem modRegion_violations (s : State) (k : Nat) (f : RegionSt → RegionSt) : (modRegion s k f).violations = s.violations := rfl
@[simp] theorem modRegion_violationOverflow (s : State) (k : Nat) (f : RegionSt → RegionSt) : (modRegion s k f).violationOverflow = s.violationOverflow := rfl
@[simp] theorem modRegion_violationNoted (s : State) (k : Nat) (f : RegionSt → RegionSt) : (modRegion s k f).violationNoted = s.violationNoted := rfl
@[simp] theorem modRegion_mem (s : State) (k : Nat) (f : RegionSt → RegionSt) : (modRegion s k f).mem = s.mem := rfl
@[simp] theorem modRegion_eng (s : State) (k : Nat) (f : RegionSt → RegionSt) : (modRegion s k f).eng = s.eng := rfl
@[simp] theorem modRegion_link (s : State) (k : Nat) (f : RegionSt → RegionSt) : (modRegion s k f).link = s.link := rfl
@[simp] theorem modRegion_fault (s : State) (k : Nat) (f : RegionSt → RegionSt) : (modRegion s k f).fault = s.fault := rfl
@[simp] theorem modRegion_hub (s : State) (k : Nat) (f : RegionSt → RegionSt) : (modRegion s k f).hub = s.hub := rfl
@[simp] theorem modRegion_life (s : State) (k : Nat) (f : RegionSt → RegionSt) : (modRegion s k f).life = s.life := rfl
@[simp] theorem modRegion_power (s : State) (k : Nat) (f : RegionSt → RegionSt) : (modRegion s k f).power = s.power := rfl
@[simp] theorem modRegion_wire (s : State) (k : Nat) (f : RegionSt → RegionSt) : (modRegion s k f).wire = s.wire := rfl

/-! ### setSlot -/

@[simp] theorem setSlot_pending (s : State) (n : Nat) (v : Slot) : (setSlot s n v).pending = s.pending := rfl
@[simp] theorem setSlot_time (s : State) (n : Nat) (v : Slot) : (setSlot s n v).time = s.time := rfl
@[simp] theorem setSlot_extents (s : State) (n : Nat) (v : Slot) : (setSlot s n v).extents = s.extents := rfl
@[simp] theorem setSlot_revokes (s : State) (n : Nat) (v : Slot) : (setSlot s n v).revokes = s.revokes := rfl
@[simp] theorem setSlot_violations (s : State) (n : Nat) (v : Slot) : (setSlot s n v).violations = s.violations := rfl
@[simp] theorem setSlot_violationOverflow (s : State) (n : Nat) (v : Slot) : (setSlot s n v).violationOverflow = s.violationOverflow := rfl
@[simp] theorem setSlot_violationNoted (s : State) (n : Nat) (v : Slot) : (setSlot s n v).violationNoted = s.violationNoted := rfl
@[simp] theorem setSlot_mem (s : State) (n : Nat) (v : Slot) : (setSlot s n v).mem = s.mem := rfl
@[simp] theorem setSlot_eng (s : State) (n : Nat) (v : Slot) : (setSlot s n v).eng = s.eng := rfl
@[simp] theorem setSlot_link (s : State) (n : Nat) (v : Slot) : (setSlot s n v).link = s.link := rfl
@[simp] theorem setSlot_fault (s : State) (n : Nat) (v : Slot) : (setSlot s n v).fault = s.fault := rfl
@[simp] theorem setSlot_hub (s : State) (n : Nat) (v : Slot) : (setSlot s n v).hub = s.hub := rfl
@[simp] theorem setSlot_life (s : State) (n : Nat) (v : Slot) : (setSlot s n v).life = s.life := rfl
@[simp] theorem setSlot_power (s : State) (n : Nat) (v : Slot) : (setSlot s n v).power = s.power := rfl
@[simp] theorem setSlot_wire (s : State) (n : Nat) (v : Slot) : (setSlot s n v).wire = s.wire := rfl

/-! ### setDir -/

@[simp] theorem setDir_pending (s : State) (w : Nat) (e : DirEntry) : (setDir s w e).pending = s.pending := rfl
@[simp] theorem setDir_time (s : State) (w : Nat) (e : DirEntry) : (setDir s w e).time = s.time := rfl
@[simp] theorem setDir_extents (s : State) (w : Nat) (e : DirEntry) : (setDir s w e).extents = s.extents := rfl
@[simp] theorem setDir_revokes (s : State) (w : Nat) (e : DirEntry) : (setDir s w e).revokes = s.revokes := rfl
@[simp] theorem setDir_violations (s : State) (w : Nat) (e : DirEntry) : (setDir s w e).violations = s.violations := rfl
@[simp] theorem setDir_violationOverflow (s : State) (w : Nat) (e : DirEntry) : (setDir s w e).violationOverflow = s.violationOverflow := rfl
@[simp] theorem setDir_violationNoted (s : State) (w : Nat) (e : DirEntry) : (setDir s w e).violationNoted = s.violationNoted := rfl
@[simp] theorem setDir_mem (s : State) (w : Nat) (e : DirEntry) : (setDir s w e).mem = s.mem := rfl
@[simp] theorem setDir_eng (s : State) (w : Nat) (e : DirEntry) : (setDir s w e).eng = s.eng := rfl
@[simp] theorem setDir_link (s : State) (w : Nat) (e : DirEntry) : (setDir s w e).link = s.link := rfl
@[simp] theorem setDir_fault (s : State) (w : Nat) (e : DirEntry) : (setDir s w e).fault = s.fault := rfl
@[simp] theorem setDir_hub (s : State) (w : Nat) (e : DirEntry) : (setDir s w e).hub = s.hub := rfl
@[simp] theorem setDir_life (s : State) (w : Nat) (e : DirEntry) : (setDir s w e).life = s.life := rfl
@[simp] theorem setDir_power (s : State) (w : Nat) (e : DirEntry) : (setDir s w e).power = s.power := rfl
@[simp] theorem setDir_wire (s : State) (w : Nat) (e : DirEntry) : (setDir s w e).wire = s.wire := rfl

/-! ### setLine -/

@[simp] theorem setLine_pending (s : State) (l : Nat) (v : LineSt) : (setLine s l v).pending = s.pending := rfl
@[simp] theorem setLine_time (s : State) (l : Nat) (v : LineSt) : (setLine s l v).time = s.time := rfl
@[simp] theorem setLine_extents (s : State) (l : Nat) (v : LineSt) : (setLine s l v).extents = s.extents := rfl
@[simp] theorem setLine_revokes (s : State) (l : Nat) (v : LineSt) : (setLine s l v).revokes = s.revokes := rfl
@[simp] theorem setLine_violations (s : State) (l : Nat) (v : LineSt) : (setLine s l v).violations = s.violations := rfl
@[simp] theorem setLine_violationOverflow (s : State) (l : Nat) (v : LineSt) : (setLine s l v).violationOverflow = s.violationOverflow := rfl
@[simp] theorem setLine_violationNoted (s : State) (l : Nat) (v : LineSt) : (setLine s l v).violationNoted = s.violationNoted := rfl
@[simp] theorem setLine_mem (s : State) (l : Nat) (v : LineSt) : (setLine s l v).mem = s.mem := rfl
@[simp] theorem setLine_eng (s : State) (l : Nat) (v : LineSt) : (setLine s l v).eng = s.eng := rfl
@[simp] theorem setLine_link (s : State) (l : Nat) (v : LineSt) : (setLine s l v).link = s.link := rfl
@[simp] theorem setLine_fault (s : State) (l : Nat) (v : LineSt) : (setLine s l v).fault = s.fault := rfl
@[simp] theorem setLine_hub (s : State) (l : Nat) (v : LineSt) : (setLine s l v).hub = s.hub := rfl
@[simp] theorem setLine_life (s : State) (l : Nat) (v : LineSt) : (setLine s l v).life = s.life := rfl
@[simp] theorem setLine_power (s : State) (l : Nat) (v : LineSt) : (setLine s l v).power = s.power := rfl
@[simp] theorem setLine_wire (s : State) (l : Nat) (v : LineSt) : (setLine s l v).wire = s.wire := rfl

/-! ### modStack -/

@[simp] theorem modStack_pending (s : State) (p : Nat) (f : Stack → Stack) : (modStack s p f).pending = s.pending := rfl
@[simp] theorem modStack_time (s : State) (p : Nat) (f : Stack → Stack) : (modStack s p f).time = s.time := rfl
@[simp] theorem modStack_extents (s : State) (p : Nat) (f : Stack → Stack) : (modStack s p f).extents = s.extents := rfl
@[simp] theorem modStack_revokes (s : State) (p : Nat) (f : Stack → Stack) : (modStack s p f).revokes = s.revokes := rfl
@[simp] theorem modStack_violations (s : State) (p : Nat) (f : Stack → Stack) : (modStack s p f).violations = s.violations := rfl
@[simp] theorem modStack_violationOverflow (s : State) (p : Nat) (f : Stack → Stack) : (modStack s p f).violationOverflow = s.violationOverflow := rfl
@[simp] theorem modStack_violationNoted (s : State) (p : Nat) (f : Stack → Stack) : (modStack s p f).violationNoted = s.violationNoted := rfl
@[simp] theorem modStack_coh (s : State) (p : Nat) (f : Stack → Stack) : (modStack s p f).coh = s.coh := rfl
@[simp] theorem modStack_eng (s : State) (p : Nat) (f : Stack → Stack) : (modStack s p f).eng = s.eng := rfl
@[simp] theorem modStack_link (s : State) (p : Nat) (f : Stack → Stack) : (modStack s p f).link = s.link := rfl
@[simp] theorem modStack_fault (s : State) (p : Nat) (f : Stack → Stack) : (modStack s p f).fault = s.fault := rfl
@[simp] theorem modStack_hub (s : State) (p : Nat) (f : Stack → Stack) : (modStack s p f).hub = s.hub := rfl
@[simp] theorem modStack_life (s : State) (p : Nat) (f : Stack → Stack) : (modStack s p f).life = s.life := rfl
@[simp] theorem modStack_power (s : State) (p : Nat) (f : Stack → Stack) : (modStack s p f).power = s.power := rfl
@[simp] theorem modStack_wire (s : State) (p : Nat) (f : Stack → Stack) : (modStack s p f).wire = s.wire := rfl

/-! ### modChan -/

@[simp] theorem modChan_pending (s : State) (p c : Nat) (f : Chan → Chan) : (modChan s p c f).pending = s.pending := rfl
@[simp] theorem modChan_time (s : State) (p c : Nat) (f : Chan → Chan) : (modChan s p c f).time = s.time := rfl
@[simp] theorem modChan_extents (s : State) (p c : Nat) (f : Chan → Chan) : (modChan s p c f).extents = s.extents := rfl
@[simp] theorem modChan_revokes (s : State) (p c : Nat) (f : Chan → Chan) : (modChan s p c f).revokes = s.revokes := rfl
@[simp] theorem modChan_violations (s : State) (p c : Nat) (f : Chan → Chan) : (modChan s p c f).violations = s.violations := rfl
@[simp] theorem modChan_violationOverflow (s : State) (p c : Nat) (f : Chan → Chan) : (modChan s p c f).violationOverflow = s.violationOverflow := rfl
@[simp] theorem modChan_violationNoted (s : State) (p c : Nat) (f : Chan → Chan) : (modChan s p c f).violationNoted = s.violationNoted := rfl
@[simp] theorem modChan_coh (s : State) (p c : Nat) (f : Chan → Chan) : (modChan s p c f).coh = s.coh := rfl
@[simp] theorem modChan_eng (s : State) (p c : Nat) (f : Chan → Chan) : (modChan s p c f).eng = s.eng := rfl
@[simp] theorem modChan_link (s : State) (p c : Nat) (f : Chan → Chan) : (modChan s p c f).link = s.link := rfl
@[simp] theorem modChan_fault (s : State) (p c : Nat) (f : Chan → Chan) : (modChan s p c f).fault = s.fault := rfl
@[simp] theorem modChan_hub (s : State) (p c : Nat) (f : Chan → Chan) : (modChan s p c f).hub = s.hub := rfl
@[simp] theorem modChan_life (s : State) (p c : Nat) (f : Chan → Chan) : (modChan s p c f).life = s.life := rfl
@[simp] theorem modChan_power (s : State) (p c : Nat) (f : Chan → Chan) : (modChan s p c f).power = s.power := rfl
@[simp] theorem modChan_wire (s : State) (p c : Nat) (f : Chan → Chan) : (modChan s p c f).wire = s.wire := rfl

/-! ### modPchan -/

@[simp] theorem modPchan_pending (s : State) (p c pc : Nat) (f : PChan → PChan) : (modPchan s p c pc f).pending = s.pending := rfl
@[simp] theorem modPchan_time (s : State) (p c pc : Nat) (f : PChan → PChan) : (modPchan s p c pc f).time = s.time := rfl
@[simp] theorem modPchan_extents (s : State) (p c pc : Nat) (f : PChan → PChan) : (modPchan s p c pc f).extents = s.extents := rfl
@[simp] theorem modPchan_revokes (s : State) (p c pc : Nat) (f : PChan → PChan) : (modPchan s p c pc f).revokes = s.revokes := rfl
@[simp] theorem modPchan_violations (s : State) (p c pc : Nat) (f : PChan → PChan) : (modPchan s p c pc f).violations = s.violations := rfl
@[simp] theorem modPchan_violationOverflow (s : State) (p c pc : Nat) (f : PChan → PChan) : (modPchan s p c pc f).violationOverflow = s.violationOverflow := rfl
@[simp] theorem modPchan_violationNoted (s : State) (p c pc : Nat) (f : PChan → PChan) : (modPchan s p c pc f).violationNoted = s.violationNoted := rfl
@[simp] theorem modPchan_coh (s : State) (p c pc : Nat) (f : PChan → PChan) : (modPchan s p c pc f).coh = s.coh := rfl
@[simp] theorem modPchan_eng (s : State) (p c pc : Nat) (f : PChan → PChan) : (modPchan s p c pc f).eng = s.eng := rfl
@[simp] theorem modPchan_link (s : State) (p c pc : Nat) (f : PChan → PChan) : (modPchan s p c pc f).link = s.link := rfl
@[simp] theorem modPchan_fault (s : State) (p c pc : Nat) (f : PChan → PChan) : (modPchan s p c pc f).fault = s.fault := rfl
@[simp] theorem modPchan_hub (s : State) (p c pc : Nat) (f : PChan → PChan) : (modPchan s p c pc f).hub = s.hub := rfl
@[simp] theorem modPchan_life (s : State) (p c pc : Nat) (f : PChan → PChan) : (modPchan s p c pc f).life = s.life := rfl
@[simp] theorem modPchan_power (s : State) (p c pc : Nat) (f : PChan → PChan) : (modPchan s p c pc f).power = s.power := rfl
@[simp] theorem modPchan_wire (s : State) (p c pc : Nat) (f : PChan → PChan) : (modPchan s p c pc f).wire = s.wire := rfl

/-! ### modPort -/

@[simp] theorem modPort_pending (s : State) (n : Nat) (f : Port → Port) : (modPort s n f).pending = s.pending := rfl
@[simp] theorem modPort_time (s : State) (n : Nat) (f : Port → Port) : (modPort s n f).time = s.time := rfl
@[simp] theorem modPort_extents (s : State) (n : Nat) (f : Port → Port) : (modPort s n f).extents = s.extents := rfl
@[simp] theorem modPort_revokes (s : State) (n : Nat) (f : Port → Port) : (modPort s n f).revokes = s.revokes := rfl
@[simp] theorem modPort_violations (s : State) (n : Nat) (f : Port → Port) : (modPort s n f).violations = s.violations := rfl
@[simp] theorem modPort_violationOverflow (s : State) (n : Nat) (f : Port → Port) : (modPort s n f).violationOverflow = s.violationOverflow := rfl
@[simp] theorem modPort_violationNoted (s : State) (n : Nat) (f : Port → Port) : (modPort s n f).violationNoted = s.violationNoted := rfl
@[simp] theorem modPort_coh (s : State) (n : Nat) (f : Port → Port) : (modPort s n f).coh = s.coh := rfl
@[simp] theorem modPort_mem (s : State) (n : Nat) (f : Port → Port) : (modPort s n f).mem = s.mem := rfl
@[simp] theorem modPort_eng (s : State) (n : Nat) (f : Port → Port) : (modPort s n f).eng = s.eng := rfl
@[simp] theorem modPort_fault (s : State) (n : Nat) (f : Port → Port) : (modPort s n f).fault = s.fault := rfl
@[simp] theorem modPort_hub (s : State) (n : Nat) (f : Port → Port) : (modPort s n f).hub = s.hub := rfl
@[simp] theorem modPort_life (s : State) (n : Nat) (f : Port → Port) : (modPort s n f).life = s.life := rfl
@[simp] theorem modPort_power (s : State) (n : Nat) (f : Port → Port) : (modPort s n f).power = s.power := rfl
@[simp] theorem modPort_wire (s : State) (n : Nat) (f : Port → Port) : (modPort s n f).wire = s.wire := rfl

/-! ### modMaster -/

@[simp] theorem modMaster_pending (s : State) (m : Nat) (f : Master → Master) : (modMaster s m f).pending = s.pending := rfl
@[simp] theorem modMaster_time (s : State) (m : Nat) (f : Master → Master) : (modMaster s m f).time = s.time := rfl
@[simp] theorem modMaster_extents (s : State) (m : Nat) (f : Master → Master) : (modMaster s m f).extents = s.extents := rfl
@[simp] theorem modMaster_revokes (s : State) (m : Nat) (f : Master → Master) : (modMaster s m f).revokes = s.revokes := rfl
@[simp] theorem modMaster_violations (s : State) (m : Nat) (f : Master → Master) : (modMaster s m f).violations = s.violations := rfl
@[simp] theorem modMaster_violationOverflow (s : State) (m : Nat) (f : Master → Master) : (modMaster s m f).violationOverflow = s.violationOverflow := rfl
@[simp] theorem modMaster_violationNoted (s : State) (m : Nat) (f : Master → Master) : (modMaster s m f).violationNoted = s.violationNoted := rfl
@[simp] theorem modMaster_coh (s : State) (m : Nat) (f : Master → Master) : (modMaster s m f).coh = s.coh := rfl
@[simp] theorem modMaster_mem (s : State) (m : Nat) (f : Master → Master) : (modMaster s m f).mem = s.mem := rfl
@[simp] theorem modMaster_eng (s : State) (m : Nat) (f : Master → Master) : (modMaster s m f).eng = s.eng := rfl
@[simp] theorem modMaster_link (s : State) (m : Nat) (f : Master → Master) : (modMaster s m f).link = s.link := rfl
@[simp] theorem modMaster_fault (s : State) (m : Nat) (f : Master → Master) : (modMaster s m f).fault = s.fault := rfl
@[simp] theorem modMaster_life (s : State) (m : Nat) (f : Master → Master) : (modMaster s m f).life = s.life := rfl
@[simp] theorem modMaster_power (s : State) (m : Nat) (f : Master → Master) : (modMaster s m f).power = s.power := rfl
@[simp] theorem modMaster_wire (s : State) (m : Nat) (f : Master → Master) : (modMaster s m f).wire = s.wire := rfl

/-! ### modRegFault -/

@[simp] theorem modRegFault_pending (s : State) (k : Nat) (f : RegionFault → RegionFault) : (modRegFault s k f).pending = s.pending := rfl
@[simp] theorem modRegFault_time (s : State) (k : Nat) (f : RegionFault → RegionFault) : (modRegFault s k f).time = s.time := rfl
@[simp] theorem modRegFault_extents (s : State) (k : Nat) (f : RegionFault → RegionFault) : (modRegFault s k f).extents = s.extents := rfl
@[simp] theorem modRegFault_revokes (s : State) (k : Nat) (f : RegionFault → RegionFault) : (modRegFault s k f).revokes = s.revokes := rfl
@[simp] theorem modRegFault_violations (s : State) (k : Nat) (f : RegionFault → RegionFault) : (modRegFault s k f).violations = s.violations := rfl
@[simp] theorem modRegFault_violationOverflow (s : State) (k : Nat) (f : RegionFault → RegionFault) : (modRegFault s k f).violationOverflow = s.violationOverflow := rfl
@[simp] theorem modRegFault_violationNoted (s : State) (k : Nat) (f : RegionFault → RegionFault) : (modRegFault s k f).violationNoted = s.violationNoted := rfl
@[simp] theorem modRegFault_coh (s : State) (k : Nat) (f : RegionFault → RegionFault) : (modRegFault s k f).coh = s.coh := rfl
@[simp] theorem modRegFault_mem (s : State) (k : Nat) (f : RegionFault → RegionFault) : (modRegFault s k f).mem = s.mem := rfl
@[simp] theorem modRegFault_eng (s : State) (k : Nat) (f : RegionFault → RegionFault) : (modRegFault s k f).eng = s.eng := rfl
@[simp] theorem modRegFault_link (s : State) (k : Nat) (f : RegionFault → RegionFault) : (modRegFault s k f).link = s.link := rfl
@[simp] theorem modRegFault_hub (s : State) (k : Nat) (f : RegionFault → RegionFault) : (modRegFault s k f).hub = s.hub := rfl
@[simp] theorem modRegFault_life (s : State) (k : Nat) (f : RegionFault → RegionFault) : (modRegFault s k f).life = s.life := rfl
@[simp] theorem modRegFault_power (s : State) (k : Nat) (f : RegionFault → RegionFault) : (modRegFault s k f).power = s.power := rfl
@[simp] theorem modRegFault_wire (s : State) (k : Nat) (f : RegionFault → RegionFault) : (modRegFault s k f).wire = s.wire := rfl

/-! ### setSpray -/

@[simp] theorem setSpray_pending (s : State) (n : Nat) (v : Spray) : (setSpray s n v).pending = s.pending := rfl
@[simp] theorem setSpray_time (s : State) (n : Nat) (v : Spray) : (setSpray s n v).time = s.time := rfl
@[simp] theorem setSpray_extents (s : State) (n : Nat) (v : Spray) : (setSpray s n v).extents = s.extents := rfl
@[simp] theorem setSpray_revokes (s : State) (n : Nat) (v : Spray) : (setSpray s n v).revokes = s.revokes := rfl
@[simp] theorem setSpray_violations (s : State) (n : Nat) (v : Spray) : (setSpray s n v).violations = s.violations := rfl
@[simp] theorem setSpray_violationOverflow (s : State) (n : Nat) (v : Spray) : (setSpray s n v).violationOverflow = s.violationOverflow := rfl
@[simp] theorem setSpray_violationNoted (s : State) (n : Nat) (v : Spray) : (setSpray s n v).violationNoted = s.violationNoted := rfl
@[simp] theorem setSpray_coh (s : State) (n : Nat) (v : Spray) : (setSpray s n v).coh = s.coh := rfl
@[simp] theorem setSpray_mem (s : State) (n : Nat) (v : Spray) : (setSpray s n v).mem = s.mem := rfl
@[simp] theorem setSpray_link (s : State) (n : Nat) (v : Spray) : (setSpray s n v).link = s.link := rfl
@[simp] theorem setSpray_fault (s : State) (n : Nat) (v : Spray) : (setSpray s n v).fault = s.fault := rfl
@[simp] theorem setSpray_hub (s : State) (n : Nat) (v : Spray) : (setSpray s n v).hub = s.hub := rfl
@[simp] theorem setSpray_life (s : State) (n : Nat) (v : Spray) : (setSpray s n v).life = s.life := rfl
@[simp] theorem setSpray_power (s : State) (n : Nat) (v : Spray) : (setSpray s n v).power = s.power := rfl
@[simp] theorem setSpray_wire (s : State) (n : Nat) (v : Spray) : (setSpray s n v).wire = s.wire := rfl

/-! ### modBist -/

@[simp] theorem modBist_pending (s : State) (k : Nat) (f : Bist → Bist) : (modBist s k f).pending = s.pending := rfl
@[simp] theorem modBist_time (s : State) (k : Nat) (f : Bist → Bist) : (modBist s k f).time = s.time := rfl
@[simp] theorem modBist_extents (s : State) (k : Nat) (f : Bist → Bist) : (modBist s k f).extents = s.extents := rfl
@[simp] theorem modBist_revokes (s : State) (k : Nat) (f : Bist → Bist) : (modBist s k f).revokes = s.revokes := rfl
@[simp] theorem modBist_violations (s : State) (k : Nat) (f : Bist → Bist) : (modBist s k f).violations = s.violations := rfl
@[simp] theorem modBist_violationOverflow (s : State) (k : Nat) (f : Bist → Bist) : (modBist s k f).violationOverflow = s.violationOverflow := rfl
@[simp] theorem modBist_violationNoted (s : State) (k : Nat) (f : Bist → Bist) : (modBist s k f).violationNoted = s.violationNoted := rfl
@[simp] theorem modBist_coh (s : State) (k : Nat) (f : Bist → Bist) : (modBist s k f).coh = s.coh := rfl
@[simp] theorem modBist_mem (s : State) (k : Nat) (f : Bist → Bist) : (modBist s k f).mem = s.mem := rfl
@[simp] theorem modBist_eng (s : State) (k : Nat) (f : Bist → Bist) : (modBist s k f).eng = s.eng := rfl
@[simp] theorem modBist_link (s : State) (k : Nat) (f : Bist → Bist) : (modBist s k f).link = s.link := rfl
@[simp] theorem modBist_fault (s : State) (k : Nat) (f : Bist → Bist) : (modBist s k f).fault = s.fault := rfl
@[simp] theorem modBist_hub (s : State) (k : Nat) (f : Bist → Bist) : (modBist s k f).hub = s.hub := rfl
@[simp] theorem modBist_power (s : State) (k : Nat) (f : Bist → Bist) : (modBist s k f).power = s.power := rfl
@[simp] theorem modBist_wire (s : State) (k : Nat) (f : Bist → Bist) : (modBist s k f).wire = s.wire := rfl

/-! ### setExtent -/

@[simp] theorem setExtent_pending (s : State) (n : Nat) (e : Extent) : (setExtent s n e).pending = s.pending := rfl
@[simp] theorem setExtent_time (s : State) (n : Nat) (e : Extent) : (setExtent s n e).time = s.time := rfl
@[simp] theorem setExtent_revokes (s : State) (n : Nat) (e : Extent) : (setExtent s n e).revokes = s.revokes := rfl
@[simp] theorem setExtent_violations (s : State) (n : Nat) (e : Extent) : (setExtent s n e).violations = s.violations := rfl
@[simp] theorem setExtent_violationOverflow (s : State) (n : Nat) (e : Extent) : (setExtent s n e).violationOverflow = s.violationOverflow := rfl
@[simp] theorem setExtent_violationNoted (s : State) (n : Nat) (e : Extent) : (setExtent s n e).violationNoted = s.violationNoted := rfl
@[simp] theorem setExtent_coh (s : State) (n : Nat) (e : Extent) : (setExtent s n e).coh = s.coh := rfl
@[simp] theorem setExtent_mem (s : State) (n : Nat) (e : Extent) : (setExtent s n e).mem = s.mem := rfl
@[simp] theorem setExtent_eng (s : State) (n : Nat) (e : Extent) : (setExtent s n e).eng = s.eng := rfl
@[simp] theorem setExtent_link (s : State) (n : Nat) (e : Extent) : (setExtent s n e).link = s.link := rfl
@[simp] theorem setExtent_fault (s : State) (n : Nat) (e : Extent) : (setExtent s n e).fault = s.fault := rfl
@[simp] theorem setExtent_hub (s : State) (n : Nat) (e : Extent) : (setExtent s n e).hub = s.hub := rfl
@[simp] theorem setExtent_life (s : State) (n : Nat) (e : Extent) : (setExtent s n e).life = s.life := rfl
@[simp] theorem setExtent_power (s : State) (n : Nat) (e : Extent) : (setExtent s n e).power = s.power := rfl
@[simp] theorem setExtent_wire (s : State) (n : Nat) (e : Extent) : (setExtent s n e).wire = s.wire := rfl

/-! ### lifeAdd -/

@[simp] theorem lifeAdd_pending (s : State) (key n : Nat) : (lifeAdd s key n).pending = s.pending := rfl
@[simp] theorem lifeAdd_time (s : State) (key n : Nat) : (lifeAdd s key n).time = s.time := rfl
@[simp] theorem lifeAdd_extents (s : State) (key n : Nat) : (lifeAdd s key n).extents = s.extents := rfl
@[simp] theorem lifeAdd_revokes (s : State) (key n : Nat) : (lifeAdd s key n).revokes = s.revokes := rfl
@[simp] theorem lifeAdd_violations (s : State) (key n : Nat) : (lifeAdd s key n).violations = s.violations := rfl
@[simp] theorem lifeAdd_violationOverflow (s : State) (key n : Nat) : (lifeAdd s key n).violationOverflow = s.violationOverflow := rfl
@[simp] theorem lifeAdd_violationNoted (s : State) (key n : Nat) : (lifeAdd s key n).violationNoted = s.violationNoted := rfl
@[simp] theorem lifeAdd_coh (s : State) (key n : Nat) : (lifeAdd s key n).coh = s.coh := rfl
@[simp] theorem lifeAdd_mem (s : State) (key n : Nat) : (lifeAdd s key n).mem = s.mem := rfl
@[simp] theorem lifeAdd_eng (s : State) (key n : Nat) : (lifeAdd s key n).eng = s.eng := rfl
@[simp] theorem lifeAdd_link (s : State) (key n : Nat) : (lifeAdd s key n).link = s.link := rfl
@[simp] theorem lifeAdd_fault (s : State) (key n : Nat) : (lifeAdd s key n).fault = s.fault := rfl
@[simp] theorem lifeAdd_hub (s : State) (key n : Nat) : (lifeAdd s key n).hub = s.hub := rfl
@[simp] theorem lifeAdd_power (s : State) (key n : Nat) : (lifeAdd s key n).power = s.power := rfl
@[simp] theorem lifeAdd_wire (s : State) (key n : Nat) : (lifeAdd s key n).wire = s.wire := rfl

/-! ### countDiscard -/

@[simp] theorem countDiscard_pending (s : State) : (countDiscard s).pending = s.pending := rfl
@[simp] theorem countDiscard_time (s : State) : (countDiscard s).time = s.time := rfl
@[simp] theorem countDiscard_extents (s : State) : (countDiscard s).extents = s.extents := rfl
@[simp] theorem countDiscard_revokes (s : State) : (countDiscard s).revokes = s.revokes := rfl
@[simp] theorem countDiscard_violations (s : State) : (countDiscard s).violations = s.violations := rfl
@[simp] theorem countDiscard_violationOverflow (s : State) : (countDiscard s).violationOverflow = s.violationOverflow := rfl
@[simp] theorem countDiscard_violationNoted (s : State) : (countDiscard s).violationNoted = s.violationNoted := rfl
@[simp] theorem countDiscard_coh (s : State) : (countDiscard s).coh = s.coh := rfl
@[simp] theorem countDiscard_mem (s : State) : (countDiscard s).mem = s.mem := rfl
@[simp] theorem countDiscard_eng (s : State) : (countDiscard s).eng = s.eng := rfl
@[simp] theorem countDiscard_link (s : State) : (countDiscard s).link = s.link := rfl
@[simp] theorem countDiscard_fault (s : State) : (countDiscard s).fault = s.fault := rfl
@[simp] theorem countDiscard_life (s : State) : (countDiscard s).life = s.life := rfl
@[simp] theorem countDiscard_power (s : State) : (countDiscard s).power = s.power := rfl
@[simp] theorem countDiscard_wire (s : State) : (countDiscard s).wire = s.wire := rfl

/-! ### countMisrouted -/

@[simp] theorem countMisrouted_pending (s : State) : (countMisrouted s).pending = s.pending := rfl
@[simp] theorem countMisrouted_time (s : State) : (countMisrouted s).time = s.time := rfl
@[simp] theorem countMisrouted_extents (s : State) : (countMisrouted s).extents = s.extents := rfl
@[simp] theorem countMisrouted_revokes (s : State) : (countMisrouted s).revokes = s.revokes := rfl
@[simp] theorem countMisrouted_violations (s : State) : (countMisrouted s).violations = s.violations := rfl
@[simp] theorem countMisrouted_violationOverflow (s : State) : (countMisrouted s).violationOverflow = s.violationOverflow := rfl
@[simp] theorem countMisrouted_violationNoted (s : State) : (countMisrouted s).violationNoted = s.violationNoted := rfl
@[simp] theorem countMisrouted_coh (s : State) : (countMisrouted s).coh = s.coh := rfl
@[simp] theorem countMisrouted_mem (s : State) : (countMisrouted s).mem = s.mem := rfl
@[simp] theorem countMisrouted_eng (s : State) : (countMisrouted s).eng = s.eng := rfl
@[simp] theorem countMisrouted_link (s : State) : (countMisrouted s).link = s.link := rfl
@[simp] theorem countMisrouted_fault (s : State) : (countMisrouted s).fault = s.fault := rfl
@[simp] theorem countMisrouted_life (s : State) : (countMisrouted s).life = s.life := rfl
@[simp] theorem countMisrouted_power (s : State) : (countMisrouted s).power = s.power := rfl
@[simp] theorem countMisrouted_wire (s : State) : (countMisrouted s).wire = s.wire := rfl

/-! ### emit -/

@[simp] theorem emit_pending (s : State) (r : WireRec) : (emit s r).pending = s.pending := rfl
@[simp] theorem emit_time (s : State) (r : WireRec) : (emit s r).time = s.time := rfl
@[simp] theorem emit_extents (s : State) (r : WireRec) : (emit s r).extents = s.extents := rfl
@[simp] theorem emit_revokes (s : State) (r : WireRec) : (emit s r).revokes = s.revokes := rfl
@[simp] theorem emit_violations (s : State) (r : WireRec) : (emit s r).violations = s.violations := rfl
@[simp] theorem emit_violationOverflow (s : State) (r : WireRec) : (emit s r).violationOverflow = s.violationOverflow := rfl
@[simp] theorem emit_violationNoted (s : State) (r : WireRec) : (emit s r).violationNoted = s.violationNoted := rfl
@[simp] theorem emit_coh (s : State) (r : WireRec) : (emit s r).coh = s.coh := rfl
@[simp] theorem emit_mem (s : State) (r : WireRec) : (emit s r).mem = s.mem := rfl
@[simp] theorem emit_eng (s : State) (r : WireRec) : (emit s r).eng = s.eng := rfl
@[simp] theorem emit_link (s : State) (r : WireRec) : (emit s r).link = s.link := rfl
@[simp] theorem emit_fault (s : State) (r : WireRec) : (emit s r).fault = s.fault := rfl
@[simp] theorem emit_hub (s : State) (r : WireRec) : (emit s r).hub = s.hub := rfl
@[simp] theorem emit_life (s : State) (r : WireRec) : (emit s r).life = s.life := rfl
@[simp] theorem emit_power (s : State) (r : WireRec) : (emit s r).power = s.power := rfl

/-! ### setThread -/

@[simp] theorem setThread_pending (s : State) (e h : Nat) (v : Thread) : (setThread s e h v).pending = s.pending := rfl
@[simp] theorem setThread_time (s : State) (e h : Nat) (v : Thread) : (setThread s e h v).time = s.time := rfl
@[simp] theorem setThread_extents (s : State) (e h : Nat) (v : Thread) : (setThread s e h v).extents = s.extents := rfl
@[simp] theorem setThread_revokes (s : State) (e h : Nat) (v : Thread) : (setThread s e h v).revokes = s.revokes := rfl
@[simp] theorem setThread_violations (s : State) (e h : Nat) (v : Thread) : (setThread s e h v).violations = s.violations := rfl
@[simp] theorem setThread_violationOverflow (s : State) (e h : Nat) (v : Thread) : (setThread s e h v).violationOverflow = s.violationOverflow := rfl
@[simp] theorem setThread_violationNoted (s : State) (e h : Nat) (v : Thread) : (setThread s e h v).violationNoted = s.violationNoted := rfl
@[simp] theorem setThread_coh (s : State) (e h : Nat) (v : Thread) : (setThread s e h v).coh = s.coh := rfl
@[simp] theorem setThread_mem (s : State) (e h : Nat) (v : Thread) : (setThread s e h v).mem = s.mem := rfl
@[simp] theorem setThread_link (s : State) (e h : Nat) (v : Thread) : (setThread s e h v).link = s.link := rfl
@[simp] theorem setThread_fault (s : State) (e h : Nat) (v : Thread) : (setThread s e h v).fault = s.fault := rfl
@[simp] theorem setThread_hub (s : State) (e h : Nat) (v : Thread) : (setThread s e h v).hub = s.hub := rfl
@[simp] theorem setThread_life (s : State) (e h : Nat) (v : Thread) : (setThread s e h v).life = s.life := rfl
@[simp] theorem setThread_power (s : State) (e h : Nat) (v : Thread) : (setThread s e h v).power = s.power := rfl
@[simp] theorem setThread_wire (s : State) (e h : Nat) (v : Thread) : (setThread s e h v).wire = s.wire := rfl

/-! ### setTile -/

@[simp] theorem setTile_pending (s : State) (i : Nat) (v : Tile) : (setTile s i v).pending = s.pending := rfl
@[simp] theorem setTile_time (s : State) (i : Nat) (v : Tile) : (setTile s i v).time = s.time := rfl
@[simp] theorem setTile_extents (s : State) (i : Nat) (v : Tile) : (setTile s i v).extents = s.extents := rfl
@[simp] theorem setTile_revokes (s : State) (i : Nat) (v : Tile) : (setTile s i v).revokes = s.revokes := rfl
@[simp] theorem setTile_violations (s : State) (i : Nat) (v : Tile) : (setTile s i v).violations = s.violations := rfl
@[simp] theorem setTile_violationOverflow (s : State) (i : Nat) (v : Tile) : (setTile s i v).violationOverflow = s.violationOverflow := rfl
@[simp] theorem setTile_violationNoted (s : State) (i : Nat) (v : Tile) : (setTile s i v).violationNoted = s.violationNoted := rfl
@[simp] theorem setTile_coh (s : State) (i : Nat) (v : Tile) : (setTile s i v).coh = s.coh := rfl
@[simp] theorem setTile_mem (s : State) (i : Nat) (v : Tile) : (setTile s i v).mem = s.mem := rfl
@[simp] theorem setTile_link (s : State) (i : Nat) (v : Tile) : (setTile s i v).link = s.link := rfl
@[simp] theorem setTile_fault (s : State) (i : Nat) (v : Tile) : (setTile s i v).fault = s.fault := rfl
@[simp] theorem setTile_hub (s : State) (i : Nat) (v : Tile) : (setTile s i v).hub = s.hub := rfl
@[simp] theorem setTile_life (s : State) (i : Nat) (v : Tile) : (setTile s i v).life = s.life := rfl
@[simp] theorem setTile_power (s : State) (i : Nat) (v : Tile) : (setTile s i v).power = s.power := rfl
@[simp] theorem setTile_wire (s : State) (i : Nat) (v : Tile) : (setTile s i v).wire = s.wire := rfl

/-! ### setAccess -/

@[simp] theorem setAccess_pending (s : State) (i : Nat) (v : Access) : (setAccess s i v).pending = s.pending := rfl
@[simp] theorem setAccess_time (s : State) (i : Nat) (v : Access) : (setAccess s i v).time = s.time := rfl
@[simp] theorem setAccess_extents (s : State) (i : Nat) (v : Access) : (setAccess s i v).extents = s.extents := rfl
@[simp] theorem setAccess_revokes (s : State) (i : Nat) (v : Access) : (setAccess s i v).revokes = s.revokes := rfl
@[simp] theorem setAccess_violations (s : State) (i : Nat) (v : Access) : (setAccess s i v).violations = s.violations := rfl
@[simp] theorem setAccess_violationOverflow (s : State) (i : Nat) (v : Access) : (setAccess s i v).violationOverflow = s.violationOverflow := rfl
@[simp] theorem setAccess_violationNoted (s : State) (i : Nat) (v : Access) : (setAccess s i v).violationNoted = s.violationNoted := rfl
@[simp] theorem setAccess_coh (s : State) (i : Nat) (v : Access) : (setAccess s i v).coh = s.coh := rfl
@[simp] theorem setAccess_mem (s : State) (i : Nat) (v : Access) : (setAccess s i v).mem = s.mem := rfl
@[simp] theorem setAccess_link (s : State) (i : Nat) (v : Access) : (setAccess s i v).link = s.link := rfl
@[simp] theorem setAccess_fault (s : State) (i : Nat) (v : Access) : (setAccess s i v).fault = s.fault := rfl
@[simp] theorem setAccess_hub (s : State) (i : Nat) (v : Access) : (setAccess s i v).hub = s.hub := rfl
@[simp] theorem setAccess_life (s : State) (i : Nat) (v : Access) : (setAccess s i v).life = s.life := rfl
@[simp] theorem setAccess_power (s : State) (i : Nat) (v : Access) : (setAccess s i v).power = s.power := rfl
@[simp] theorem setAccess_wire (s : State) (i : Nat) (v : Access) : (setAccess s i v).wire = s.wire := rfl

/-! ### modCollect -/

@[simp] theorem modCollect_pending (s : State) (k : Nat) (f : FaultCol → FaultCol) : (modCollect s k f).pending = s.pending := rfl
@[simp] theorem modCollect_time (s : State) (k : Nat) (f : FaultCol → FaultCol) : (modCollect s k f).time = s.time := rfl
@[simp] theorem modCollect_extents (s : State) (k : Nat) (f : FaultCol → FaultCol) : (modCollect s k f).extents = s.extents := rfl
@[simp] theorem modCollect_revokes (s : State) (k : Nat) (f : FaultCol → FaultCol) : (modCollect s k f).revokes = s.revokes := rfl
@[simp] theorem modCollect_violations (s : State) (k : Nat) (f : FaultCol → FaultCol) : (modCollect s k f).violations = s.violations := rfl
@[simp] theorem modCollect_violationOverflow (s : State) (k : Nat) (f : FaultCol → FaultCol) : (modCollect s k f).violationOverflow = s.violationOverflow := rfl
@[simp] theorem modCollect_violationNoted (s : State) (k : Nat) (f : FaultCol → FaultCol) : (modCollect s k f).violationNoted = s.violationNoted := rfl
@[simp] theorem modCollect_coh (s : State) (k : Nat) (f : FaultCol → FaultCol) : (modCollect s k f).coh = s.coh := rfl
@[simp] theorem modCollect_mem (s : State) (k : Nat) (f : FaultCol → FaultCol) : (modCollect s k f).mem = s.mem := rfl
@[simp] theorem modCollect_link (s : State) (k : Nat) (f : FaultCol → FaultCol) : (modCollect s k f).link = s.link := rfl
@[simp] theorem modCollect_fault (s : State) (k : Nat) (f : FaultCol → FaultCol) : (modCollect s k f).fault = s.fault := rfl
@[simp] theorem modCollect_hub (s : State) (k : Nat) (f : FaultCol → FaultCol) : (modCollect s k f).hub = s.hub := rfl
@[simp] theorem modCollect_life (s : State) (k : Nat) (f : FaultCol → FaultCol) : (modCollect s k f).life = s.life := rfl
@[simp] theorem modCollect_power (s : State) (k : Nat) (f : FaultCol → FaultCol) : (modCollect s k f).power = s.power := rfl
@[simp] theorem modCollect_wire (s : State) (k : Nat) (f : FaultCol → FaultCol) : (modCollect s k f).wire = s.wire := rfl

/-! ### modLogEng -/

@[simp] theorem modLogEng_pending (s : State) (e : Nat) (f : LogEng → LogEng) : (modLogEng s e f).pending = s.pending := rfl
@[simp] theorem modLogEng_time (s : State) (e : Nat) (f : LogEng → LogEng) : (modLogEng s e f).time = s.time := rfl
@[simp] theorem modLogEng_extents (s : State) (e : Nat) (f : LogEng → LogEng) : (modLogEng s e f).extents = s.extents := rfl
@[simp] theorem modLogEng_revokes (s : State) (e : Nat) (f : LogEng → LogEng) : (modLogEng s e f).revokes = s.revokes := rfl
@[simp] theorem modLogEng_violations (s : State) (e : Nat) (f : LogEng → LogEng) : (modLogEng s e f).violations = s.violations := rfl
@[simp] theorem modLogEng_violationOverflow (s : State) (e : Nat) (f : LogEng → LogEng) : (modLogEng s e f).violationOverflow = s.violationOverflow := rfl
@[simp] theorem modLogEng_violationNoted (s : State) (e : Nat) (f : LogEng → LogEng) : (modLogEng s e f).violationNoted = s.violationNoted := rfl
@[simp] theorem modLogEng_coh (s : State) (e : Nat) (f : LogEng → LogEng) : (modLogEng s e f).coh = s.coh := rfl
@[simp] theorem modLogEng_mem (s : State) (e : Nat) (f : LogEng → LogEng) : (modLogEng s e f).mem = s.mem := rfl
@[simp] theorem modLogEng_link (s : State) (e : Nat) (f : LogEng → LogEng) : (modLogEng s e f).link = s.link := rfl
@[simp] theorem modLogEng_fault (s : State) (e : Nat) (f : LogEng → LogEng) : (modLogEng s e f).fault = s.fault := rfl
@[simp] theorem modLogEng_hub (s : State) (e : Nat) (f : LogEng → LogEng) : (modLogEng s e f).hub = s.hub := rfl
@[simp] theorem modLogEng_life (s : State) (e : Nat) (f : LogEng → LogEng) : (modLogEng s e f).life = s.life := rfl
@[simp] theorem modLogEng_power (s : State) (e : Nat) (f : LogEng → LogEng) : (modLogEng s e f).power = s.power := rfl
@[simp] theorem modLogEng_wire (s : State) (e : Nat) (f : LogEng → LogEng) : (modLogEng s e f).wire = s.wire := rfl

/-! ### modPhys -/

@[simp] theorem modPhys_pending (s : State) (k i : Nat) (f : PhysEng → PhysEng) : (modPhys s k i f).pending = s.pending := rfl
@[simp] theorem modPhys_time (s : State) (k i : Nat) (f : PhysEng → PhysEng) : (modPhys s k i f).time = s.time := rfl
@[simp] theorem modPhys_extents (s : State) (k i : Nat) (f : PhysEng → PhysEng) : (modPhys s k i f).extents = s.extents := rfl
@[simp] theorem modPhys_revokes (s : State) (k i : Nat) (f : PhysEng → PhysEng) : (modPhys s k i f).revokes = s.revokes := rfl
@[simp] theorem modPhys_violations (s : State) (k i : Nat) (f : PhysEng → PhysEng) : (modPhys s k i f).violations = s.violations := rfl
@[simp] theorem modPhys_violationOverflow (s : State) (k i : Nat) (f : PhysEng → PhysEng) : (modPhys s k i f).violationOverflow = s.violationOverflow := rfl
@[simp] theorem modPhys_violationNoted (s : State) (k i : Nat) (f : PhysEng → PhysEng) : (modPhys s k i f).violationNoted = s.violationNoted := rfl
@[simp] theorem modPhys_coh (s : State) (k i : Nat) (f : PhysEng → PhysEng) : (modPhys s k i f).coh = s.coh := rfl
@[simp] theorem modPhys_mem (s : State) (k i : Nat) (f : PhysEng → PhysEng) : (modPhys s k i f).mem = s.mem := rfl
@[simp] theorem modPhys_link (s : State) (k i : Nat) (f : PhysEng → PhysEng) : (modPhys s k i f).link = s.link := rfl
@[simp] theorem modPhys_fault (s : State) (k i : Nat) (f : PhysEng → PhysEng) : (modPhys s k i f).fault = s.fault := rfl
@[simp] theorem modPhys_hub (s : State) (k i : Nat) (f : PhysEng → PhysEng) : (modPhys s k i f).hub = s.hub := rfl
@[simp] theorem modPhys_life (s : State) (k i : Nat) (f : PhysEng → PhysEng) : (modPhys s k i f).life = s.life := rfl
@[simp] theorem modPhys_power (s : State) (k i : Nat) (f : PhysEng → PhysEng) : (modPhys s k i f).power = s.power := rfl
@[simp] theorem modPhys_wire (s : State) (k i : Nat) (f : PhysEng → PhysEng) : (modPhys s k i f).wire = s.wire := rfl

/-! ### setFailover -/

@[simp] theorem setFailover_pending (s : State) (pair : Nat) (f : Failover) : (setFailover s pair f).pending = s.pending := rfl
@[simp] theorem setFailover_time (s : State) (pair : Nat) (f : Failover) : (setFailover s pair f).time = s.time := rfl
@[simp] theorem setFailover_extents (s : State) (pair : Nat) (f : Failover) : (setFailover s pair f).extents = s.extents := rfl
@[simp] theorem setFailover_revokes (s : State) (pair : Nat) (f : Failover) : (setFailover s pair f).revokes = s.revokes := rfl
@[simp] theorem setFailover_violations (s : State) (pair : Nat) (f : Failover) : (setFailover s pair f).violations = s.violations := rfl
@[simp] theorem setFailover_violationOverflow (s : State) (pair : Nat) (f : Failover) : (setFailover s pair f).violationOverflow = s.violationOverflow := rfl
@[simp] theorem setFailover_violationNoted (s : State) (pair : Nat) (f : Failover) : (setFailover s pair f).violationNoted = s.violationNoted := rfl
@[simp] theorem setFailover_coh (s : State) (pair : Nat) (f : Failover) : (setFailover s pair f).coh = s.coh := rfl
@[simp] theorem setFailover_mem (s : State) (pair : Nat) (f : Failover) : (setFailover s pair f).mem = s.mem := rfl
@[simp] theorem setFailover_eng (s : State) (pair : Nat) (f : Failover) : (setFailover s pair f).eng = s.eng := rfl
@[simp] theorem setFailover_fault (s : State) (pair : Nat) (f : Failover) : (setFailover s pair f).fault = s.fault := rfl
@[simp] theorem setFailover_hub (s : State) (pair : Nat) (f : Failover) : (setFailover s pair f).hub = s.hub := rfl
@[simp] theorem setFailover_life (s : State) (pair : Nat) (f : Failover) : (setFailover s pair f).life = s.life := rfl
@[simp] theorem setFailover_power (s : State) (pair : Nat) (f : Failover) : (setFailover s pair f).power = s.power := rfl
@[simp] theorem setFailover_wire (s : State) (pair : Nat) (f : Failover) : (setFailover s pair f).wire = s.wire := rfl

/-! ### modDl -/

@[simp] theorem modDl_pending (s : State) (f : Darinlink → Darinlink) : (modDl s f).pending = s.pending := rfl
@[simp] theorem modDl_time (s : State) (f : Darinlink → Darinlink) : (modDl s f).time = s.time := rfl
@[simp] theorem modDl_extents (s : State) (f : Darinlink → Darinlink) : (modDl s f).extents = s.extents := rfl
@[simp] theorem modDl_revokes (s : State) (f : Darinlink → Darinlink) : (modDl s f).revokes = s.revokes := rfl
@[simp] theorem modDl_violations (s : State) (f : Darinlink → Darinlink) : (modDl s f).violations = s.violations := rfl
@[simp] theorem modDl_violationOverflow (s : State) (f : Darinlink → Darinlink) : (modDl s f).violationOverflow = s.violationOverflow := rfl
@[simp] theorem modDl_violationNoted (s : State) (f : Darinlink → Darinlink) : (modDl s f).violationNoted = s.violationNoted := rfl
@[simp] theorem modDl_coh (s : State) (f : Darinlink → Darinlink) : (modDl s f).coh = s.coh := rfl
@[simp] theorem modDl_mem (s : State) (f : Darinlink → Darinlink) : (modDl s f).mem = s.mem := rfl
@[simp] theorem modDl_eng (s : State) (f : Darinlink → Darinlink) : (modDl s f).eng = s.eng := rfl
@[simp] theorem modDl_fault (s : State) (f : Darinlink → Darinlink) : (modDl s f).fault = s.fault := rfl
@[simp] theorem modDl_hub (s : State) (f : Darinlink → Darinlink) : (modDl s f).hub = s.hub := rfl
@[simp] theorem modDl_life (s : State) (f : Darinlink → Darinlink) : (modDl s f).life = s.life := rfl
@[simp] theorem modDl_power (s : State) (f : Darinlink → Darinlink) : (modDl s f).power = s.power := rfl
@[simp] theorem modDl_wire (s : State) (f : Darinlink → Darinlink) : (modDl s f).wire = s.wire := rfl

/-! ### A numbered part after its update -/

@[simp] theorem regionOf_modRegion (s : State) (k j : Nat) (f : RegionSt → RegionSt) : regionOf (modRegion s k f) j = if k = j then f (regionOf s k) else regionOf s j := by
  by_cases h : k = j <;> simp [regionOf, modRegion, h]
@[simp] theorem slotOf_setSlot (s : State) (k j : Nat) (f : Slot) : slotOf (setSlot s k f) j = if k = j then f else slotOf s j := by
  by_cases h : k = j <;> simp [slotOf, setSlot, h]
@[simp] theorem stackOf_modStack (s : State) (k j : Nat) (f : Stack → Stack) : stackOf (modStack s k f) j = if k = j then f (stackOf s k) else stackOf s j := by
  by_cases h : k = j <;> simp [stackOf, modStack, h]
@[simp] theorem portOf_modPort (s : State) (k j : Nat) (f : Port → Port) : portOf (modPort s k f) j = if k = j then f (portOf s k) else portOf s j := by
  by_cases h : k = j <;> simp [portOf, modPort, h]
@[simp] theorem masterOf_modMaster (s : State) (k j : Nat) (f : Master → Master) : masterOf (modMaster s k f) j = if k = j then f (masterOf s k) else masterOf s j := by
  by_cases h : k = j <;> simp [masterOf, modMaster, h]
@[simp] theorem regFault_modRegFault (s : State) (k j : Nat) (f : RegionFault → RegionFault) : regFault (modRegFault s k f) j = if k = j then f (regFault s k) else regFault s j := by
  by_cases h : k = j <;> simp [regFault, modRegFault, h]
@[simp] theorem bistOf_modBist (s : State) (k j : Nat) (f : Bist → Bist) : bistOf (modBist s k f) j = if k = j then f (bistOf s k) else bistOf s j := by
  by_cases h : k = j <;> simp [bistOf, modBist, h]
@[simp] theorem collectOf_modCollect (s : State) (k j : Nat) (f : FaultCol → FaultCol) : collectOf (modCollect s k f) j = if k = j then f (collectOf s k) else collectOf s j := by
  by_cases h : k = j <;> simp [collectOf, modCollect, h]
@[simp] theorem sprayOf?_setSpray (s : State) (k j : Nat) (v : Spray) : sprayOf? (setSpray s k v) j = if k = j then some v else sprayOf? s j := by simp [sprayOf?, setSpray]
@[simp] theorem tileOf?_setTile (s : State) (k j : Nat) (v : Tile) : tileOf? (setTile s k v) j = if k = j then some v else tileOf? s j := by simp [tileOf?, setTile]
@[simp] theorem accessOf?_setAccess (s : State) (k j : Nat) (v : Access) : accessOf? (setAccess s k v) j = if k = j then some v else accessOf? s j := by simp [accessOf?, setAccess]
@[simp] theorem failoverOf_setFailover (s : State) (k j : Nat) (v : Failover) : failoverOf (setFailover s k v) j = if k = j then some v else failoverOf s j := by simp [failoverOf, setFailover]
@[simp] theorem modDl_dl (s : State) (f : Darinlink → Darinlink) : (modDl s f).link.dl = f s.link.dl := rfl
@[simp] theorem emit_wire (s : State) (r : WireRec) : (emit s r).wire = s.wire ++ [r] := rfl
@[simp] theorem useFreeN_free (s : State) (n : Nat) : (useFreeN s n).time.free = s.time.free + n := rfl
@[simp] theorem useFreeN_clock (s : State) (n : Nat) : (useFreeN s n).time.clock = s.time.clock := rfl

/-- An extent's record after its update: one with all fields zero is not listed. -/
theorem extentOf_setExtent_same (s : State) (n : Nat) (e : Extent) : extentOf (setExtent s n e) n = e := by
  unfold extentOf setExtent
  by_cases h : e = {}
  · rw [if_pos h, h]
    simp [tget]
  · rw [if_neg h]
    simp

/-- A logical engine after its update. -/
@[simp] theorem logEngOf_modLogEng (s : State) (k j : Nat) (f : LogEng → LogEng) : logEngOf (modLogEng s k f) j = if k = j then f (logEngOf s k) else logEngOf s j := by
  by_cases h : k = j <;> simp [logEngOf, modLogEng, tmod, h]

/-- A directory entry after its update: one in state I is not listed. -/
theorem dirOf_setDir_same (s : State) (w : Nat) (e : DirEntry) : dirOf (setDir s w e) w = e := by
  unfold dirOf setDir
  by_cases h : e = {}
  · simp [h, tget]
  · simp [h]

end Sys2Proof.Machine
end

