-- ==== Sys2Proof/Tests/Slice0.lean ====
section
/-! SUPPORT. The package's own tests: ill-formed terms, results worked out by hand from the spec's tables, and for every statement with hypotheses a state and operands that meet them. -/

set_option Elab.async false

namespace Sys2Proof.Tests
open Sys2Proof Sys2Proof.Machine

/-! ### States and operands that the tests start from -/

/-- An order of master 3, over Darinlink. -/
def order : OrderHdr := { via := .darinlink, master := 3, tag := 4, seq := 6 }
/-- The same of master 0. -/
def order0 : OrderHdr := { order with master := 0 }
def credit : DlCtrlRec := { credits := [1, 2, 3, 4, 5, 6], trainCount := 3 }
/-- One range of all sources with READ, WRITE and COHERENT, enabled (02, Table 2.2). -/
def anyone : List (BitVec 32) := [0xF0FFF000, 0, 0, 0, 0, 0, 0, 0]
/-- An extent of four granules over all stacks, granted to tenant 7. -/
def ext2 : Extent := { access := anyone, physBase := 3, size := 4, base := 2, tenant := 7, kind := 2, st := .granted, coherent := true, generation := 1, grantStamp := 9 }
/-- The module in service: firmware runs, order service open, an owner, a tenant, an extent, Darinlink up, its companion processor in slot 0 and host 9 in slot 1. -/
def live : State := { State.reset with
  time := { clock := 300000000, timebase := 500, timebaseOn := true }
  extents := [(2, ext2)]
  coh := { slots := [(0, { st := .bound }), (1, { st := .bound, gen := 3, host := 9 })] }
  mem := { stackTab := (List.range 16).map (fun l => (l / 4 * 5 + l % 4, { st := .serving, mapped := true, logicalId := l, rate := 1, temp := 60 })) }
  hub := { endpointId := some 5, mgrA := some 900, orderService := true, timeSet := true, owner := some 3, leaseEnd := 400000000, ready := true, tenants := [(7, { key := 1 })] }
  power := { resetN := true, stage := .running }
  link := { dl := { absent := false, st := .active, fullTrainings := 3, trainings := 3, credits := [32, 256, 0, 0, 64, 64] } } }

/-- A request of the companion processor at module offset 4 MiB, in the form its opcode has (03, Table 3.2). -/
def request (op : Nat) : Packet :=
  { opcode := op, tag := 11, tenant := 7, address := 4 * 2 ^ 20, length := if wholeLineOp op then 31 else 0, payload := match requestForm op with | some (_, true) => some 5 | _ => none }
/-- A request of host 9 over Genura, protected, without data. -/
def sealedRequest (op : Nat) : Packet :=
  { opcode := op, encrypted := true, tag := 3, tenant := 7, source := 9, dest := 5, vc := ((requestForm op).map Prod.fst).getD 0, length := if wholeLineOp op then 31 else 0, address := 5 * 2 ^ 40 + 4 * 2 ^ 20, msgCounter := 77 }
/-- A request of host 9 that has passed its checks. -/
def req (op : Nat) : Req := { origin := .packet .darinlink (request op), op := op, offset := 4 * 2 ^ 20 + 16, length := 2, source := 9, tenant := 7, ext := 2, dir := true, roleGen := 3 }

theorem live_serves : Serves live := ⟨rfl, rfl, rfl, rfl⟩
/-- The extent's tenant may make every request at its first byte. -/
theorem live_allows : ∀ row ∈ requestRows, Allowed live 2 row.1 row.2.1 (4 * 2 ^ 20) 5 7 ∧ Allowed live 2 row.1 row.2.1 (4 * 2 ^ 20) 9 7 := by
  intro row h
  simp only [requestRows, List.mem_cons, List.not_mem_nil, or_false] at h
  rcases h with rfl | rfl | rfl | rfl | rfl | rfl | rfl | rfl | rfl | rfl | rfl | rfl | rfl | rfl | rfl | rfl | rfl | rfl | rfl | rfl <;>
    exact ⟨⟨rfl, rfl, rfl, rfl, fun _ => rfl, fun _ => by decide⟩, ⟨rfl, rfl, rfl, rfl, fun _ => rfl, fun _ => by decide⟩⟩
/-- A packet without data opens under the key that sealed it. -/
theorem opens (key : Key) (p : Packet) (h : p.payload = none) : unprotect key (protect key p) = some (protect key p) := by
  have hp : (protect key p).payload = none := by simp only [protect, h, Option.map_none]
  have hi : packetIv (protect key p) = packetIv p := rfl
  have ha : packetAad (protect key p) = packetAad { p with encrypted := true } := rfl
  have ht : gcmTag key (packetIv p) (packetAad { p with encrypted := true }) [] = (protect key p).gcmTag := by simp only [protect, h]; rfl
  rw [← hi, ← ha] at ht
  generalize protect key p = q at *
  unfold unprotect
  simp only [hp, ht, Option.map_none, if_true]
  cases q; cases hp; rfl
/-- So does it at the module, for tenant 7. -/
theorem live_opens (p : Packet) (h : p.payload = none) (ht : p.tenant = 7) (he : p.keyEpoch = 0) : openPacket live (protect 1 p) = .plain (protect 1 p) 0 := by
  have ho := opens 1 p h
  have h1 : (protect 1 p).tenant = p.tenant := rfl
  have h2 : (protect 1 p).keyEpoch = p.keyEpoch := rfl
  have h3 : (protect 1 p).encrypted = true := rfl
  have hk : tenantKey live 7 0 = some (0, 1) := rfl
  unfold openPacket
  simp only [h1, h2, h3, ht, he, hk, ho]; rfl
/-- An order passes Table 11.5 where no check refuses it. -/
theorem passes (s : State) (h : OrderHdr) (code : Nat) (hr : hubRuns s = true) (hw : orderWaits s code = false) (hc : (orderRefusal (orderTaken s h) h code (headerRefusal s h code) true).1 = none) :
    Passes s h code (orderRefusal (orderTaken s h) h code (headerRefusal s h code) true).2 := ⟨hr, hw, Prod.ext hc rfl⟩
theorem no_cells : Memory.wf [] := by decide
/-! ### Well-formedness: each check refuses an ill-formed term (the bounds are those of the tables that WellFormed cites) -/

theorem test_wf_packet_fields :
    ([{ opcode := 256 }, { keyEpoch := 2 }, { tag := 65536 }, { source := 4096 }, { dest := 4096 }, { tenant := 1024 }, { vc := 8 }, { hops := 8 }, { roleGen := 256 },
      { sillage := 256 }, { status := 256 }, { length := 32 }, { aux := 65536 }, { address := 2 ^ 52 }, { msgCounter := 2 ^ 64 }, { rsvLow := 256 }, { rsvMid := 2048 },
      { rsvHigh := 2 ^ 44 }] : List Packet).all (fun p => !p.wf) = true := by decide
theorem test_wf_records :
    ([{ order with via := .genura 32 }, { order with source := 4096 }, { order with master := 4 }, { order with tag := 65536 }, { order with seq := 2 ^ 32 }, { order with keyEpoch := 2 }]
      : List OrderHdr).all (fun h => !h.wf) ∧
    ([{ serial := 2 ^ 64 }, { port := 65536 }, { prevRecvPoint := 65536 }, { prevPortGen := 256 }, { proposedGen := 256 }, { nodeKind := 4 }, { width := 2 }, { plane := 2 }]
      : List HelloRec).all (fun r => !r.wf) ∧
    ([{ managerId := 4096 }, { endpointId := 4096 }, { switchPort := 65536 }, { portGen := 256 }, { plane := 2 }, { switchSerial := 2 ^ 48 }] : List AssignRec).all (fun r => !r.wf) ∧
    ([{ recvPoint := 65536 }, { failedSwitchPort := 65536 }, { failedPortGen := 256 }, { queryId := 256 }] : List RecoverRec).all (fun r => !r.wf) ∧
    ([{ credit with credits := [] }, { credit with credits := [0, 0, 0, 0, 0, 65536] }, { credit with width := 256 }, { credit with trainCount := 256 }] : List DlCtrlRec).all (fun r => !r.wf) ∧
    ([⟨512, 0⟩, ⟨0, 64⟩] : List ThreadRef).all (fun t => !t.wf) := by decide

theorem test_wf_packets :
    ([.read, .write, .readNoalloc, .writeNoalloc, .readShared, .readOwn, .upgrade, .zeroLine, .atomicAdd, .atomicSwap, .atomicCas, .atomicAnd, .atomicOr, .atomicXor, .atomicSmax,
     .atomicSmin, .writeback, .evictClean, .sprayLaunch, .poolOpLaunch, .snoopResp, .snoopRespData, .resp, .respData, .completion, .order] : List (Via → Packet → Instr)).all
      (fun c => !(c (.genura 32) {}).wf && !(c .darinlink { opcode := 256 }).wf && (c (.genura 31) {}).wf) = true := by decide

theorem test_wf_threads :
    ([.threadEnd, .watchdogExpiry, .poolItemUnitCommit, .fill, .zero, .copy, .compare, .reduce, .gather, .scatter, .search, .attend, .digest] : List (ThreadRef → Instr)).all
      (fun c => !(c ⟨512, 0⟩).wf && !(c ⟨0, 64⟩).wf && (c ⟨511, 63⟩).wf) ∧
    ([.alu, .addi, .andi, .ori, .xori, .shli, .shri, .srai, .slti, .li, .lis, .pop, .rds, .beq, .bne, .blt, .bge, .bltu, .bgeu, .bp, .jmp, .jal, .jr, .endInstr, .trap, .fence, .nop,
     .ld, .st, .vld, .vst, .vldg, .vstg, .atom, .tload, .tstore, .twait, .vop, .vcmp, .vsel, .vbcast, .vmovs, .vsfu, .vcvt, .vmxq, .vmxd, .vdot, .vdotb, .aop, .aread, .amovs] : List (ThreadRef → Fields → Instr)).all
      (fun c => !(c ⟨512, 0⟩ {}).wf && !(c ⟨0, 64⟩ {}).wf && (c ⟨511, 63⟩ {}).wf) := by decide

theorem test_wf_orders_0 :
    ([fun h => .ownerClaim h 0, fun h => .ownerRenew h, fun h => .ownerHandover h 0, fun h => .ownerAccept h, fun h => .ownerRelease h, fun h => .statusWindowRead h 0 0,
     fun h => .mgmtKeyAgree h (List.replicate 97 0), fun h => .grant h 0 0 0 0 0 0 0 0 anyone, fun h => .accessSet h 0 0 anyone 0, fun h => .revoke h 0 0,
     fun h => .extentRead h 0, fun h => .extentFind h 0, fun h => .violationRead h, fun h => .hostShape h 0 0 0 0 0 0, fun h => .hostShapeRead h 0 0, fun h => .tenantCreate h 0 0,
     fun h => .tenantRemove h 0, fun h => .rotateKey h 0 0, fun h => .retireKey h 0 0 0, fun h => .attestReport h 0, fun h => .fwWrite h 0 0 0, fun h => .fwActivate h 0,
     fun h => .slotGrant h 0 0, fun h => .slotRelease h 0 0] : List (OrderHdr → Instr)).all
      (fun c => !(c { order with master := 4 }).wf && (c order).wf) = true := by decide

theorem test_wf_orders_1 :
    ([fun h => .slotRead h 0, fun h => .hostFailed h 0, fun h => .lostRead h, fun h => .dirRead h 0, fun h => .stackRead h 0 0, fun h => .stackRateLimit h 0 0 0,
     fun h => .memIdlePolicy h 0, fun h => .integrityRead h 0 0, fun h => .blotterRead h 0 0, fun h => .blotterClear h 0, fun h => .poisonRead h, fun h => .scrubPolicy h 0,
     fun h => .evacuate h 0 0, fun h => .accordLoad h 0 0 0, fun h => .accordUnload h 0, fun h => .asidCreate h 0 0, fun h => .asidDestroy h 0, fun h => .mapRange h 0 0 0 0 0 0,
     fun h => .unmapRange h 0 0 0, fun h => .protectRange h 0 0 0 0, fun h => .invalidateRange h 0 0 0, fun h => .mapRead h 0 0, fun h => .faultRingSet h 0 0,
     fun h => .faultResolve h 0 0] : List (OrderHdr → Instr)).all
      (fun c => !(c { order with master := 4 }).wf && (c order).wf) = true := by decide

theorem test_wf_orders_2 :
    ([fun h => .faultPolicy h 0, fun h => .sprayRead h 0, fun h => .sprayCancel h 0, fun h => .engineTagRelease h 0, fun h => .portRead h 0 0, fun h => .portSelect h 0 0,
     fun h => .portRetrain h 0 0, fun h => .faultRead h 0, fun h => .faultAck h 0 0, fun h => .clockSet h 0, fun h => .lifetimeRead h 0, fun h => .bistRead h 0,
     fun h => .powerLimit h 0, fun h => .moduleReset h] : List (OrderHdr → Instr)).all
      (fun c => !(c { order with master := 4 }).wf && (c order).wf) = true := by decide

theorem test_wf_operands_0 :
    ([.statusRead { opcode := 256 }, .wfqGrant 4, .homeAgentInput 4, .transactionComplete 4294967296, .snoopTimeout 4294967296 0, .snoopTimeout 0 256, .failureWalkStep 256,
     .failureWalkDone 256, .releaseSweepStep 256, .releaseSweepDone 256, .revokeDrainDone 65536, .revokeRecallDone 65536, .extentScrubDone 65536, .extentZeroingStep 65536,
     .channelIssue 20 0 0, .channelIssue 0 32 0, .channelIssue 0 0 2, .refreshDue 20 0 0 0, .refreshDue 0 32 0 0, .refreshDue 0 0 2 0, .refreshDue 0 0 0 64,
     .stackTempRead 20 none, .stackTempRead 0 (some 256), .retrainDue 20 0, .retrainDue 0 32, .retrainPauseDone 20 0 true, .retrainPauseDone 0 32 true, .retrainRerunDue 20 0,
     .retrainRerunDue 0 32, .channelFullTrainDone 20 0 true] : List Instr).all (fun c => !c.wf) = true := by decide

theorem test_wf_operands_1 :
    ([.channelFullTrainDone 0 32 true, .parityAlert 20 0 0, .parityAlert 0 32 0, .parityAlert 0 0 2, .parityReplayDone 20 0 0, .parityReplayDone 0 32 0, .parityReplayDone 0 0 2,
     .selfRefreshEntry 20 0, .selfRefreshEntry 0 32, .selfRefreshExit 20 0, .selfRefreshExit 0 32, .rateChangeStart 20, .rateChangeDone 20, .correctiveRewrite 16 0 0 true,
     .correctiveRewrite 0 15790304 0 true, .correctiveRewrite 0 0 17 true, .stripeEntryHoldExpiry 16 0, .stripeEntryHoldExpiry 0 15790304, .stripeCommit 16 0,
     .stripeCommit 0 15790304, .stripeLockGrant 16 0, .stripeLockGrant 0 15790304, .rowRepair 20 0 0, .rowRepair 0 32 0, .rowRepair 0 0 8388608, .scrubStripe 20,
     .scrubPeriodEnd 20, .channelRejoinStep 20 0, .channelRejoinStep 0 32, .channelRejoined 20 0] : List Instr).all (fun c => !c.wf) = true := by decide

theorem test_wf_operands_2 :
    ([.channelRejoined 0 32, .evacuationStart 4, .spareTrained 4, .evacuationCopyStripe 4, .evacuationCutover 4, .evacuationAbandon 4, .threadPlacement 65536 0,
     .threadPlacement 0 16777216, .threadStart 512, .sprayComplete 65536, .engineQueueRoom 4, .faultBatchClose 4, .faultBatchWrite 4, .invalidateAck 512, .plannedMoveStart 512,
     .plannedMoveDone 512, .plannedMoveAbandon 512, .engineAbruptFail 4 0, .engineAbruptFail 0 144, .ownerClaim order 256, .ownerHandover order 256,
     .statusWindowRead order 18446744073709551616 0, .statusWindowRead order 0 4294967296, .mgmtKeyAgree order (List.replicate 96 0), .grant order 65536 0 0 0 0 0 0 0 anyone,
     .grant order 0 4294967296 0 0 0 0 0 0 anyone, .grant order 0 0 4294967296 0 0 0 0 0 anyone, .grant order 0 0 0 256 0 0 0 0 anyone, .grant order 0 0 0 0 256 0 0 0 anyone,
     .grant order 0 0 0 0 0 4294967296 0 0 anyone] : List Instr).all (fun c => !c.wf) = true := by decide

theorem test_wf_operands_3 :
    ([.grant order 0 0 0 0 0 0 65536 0 anyone, .grant order 0 0 0 0 0 0 0 256 anyone, .grant order 0 0 0 0 0 0 0 0 [0], .accessSet order 65536 0 anyone 0,
     .accessSet order 0 256 anyone 0, .accessSet order 0 0 [0] 0, .accessSet order 0 0 anyone 256, .revoke order 65536 0, .revoke order 0 256, .extentRead order 65536,
     .extentFind order 18446744073709551616, .hostShape order 65536 0 0 0 0 0, .hostShape order 0 256 0 0 0 0, .hostShape order 0 0 4294967296 0 0 0,
     .hostShape order 0 0 0 4294967296 0 0, .hostShape order 0 0 0 0 65536 0, .hostShape order 0 0 0 0 0 65536, .hostShapeRead order 65536 0, .hostShapeRead order 0 256,
     .tenantCreate order 65536 0, .tenantRemove order 65536, .rotateKey order 65536 0, .retireKey order 65536 0 0, .retireKey order 0 4294967296 0, .retireKey order 0 0 256,
     .fwWrite order 256 0 0, .fwWrite order 0 18446744073709551616 0, .fwWrite order 0 0 4294967296, .fwActivate order 256, .slotGrant order 256 0] : List Instr).all (fun c => !c.wf) = true := by decide

theorem test_wf_operands_4 :
    ([.slotGrant order 0 65536, .slotRelease order 256 0, .slotRelease order 0 256, .slotRead order 256, .hostFailed order 65536, .dirRead order 18446744073709551616,
     .stackRead order 256 0, .stackRead order 0 256, .stackRateLimit order 256 0 0, .stackRateLimit order 0 256 0, .stackRateLimit order 0 0 256, .memIdlePolicy order 4294967296,
     .integrityRead order 256 0, .integrityRead order 0 256, .blotterRead order 256 0, .blotterRead order 0 256, .blotterClear order 256, .scrubPolicy order 4294967296,
     .evacuate order 256 0, .evacuate order 0 256, .accordLoad order 18446744073709551616 0 0, .accordLoad order 0 4294967296 0, .accordLoad order 0 0 65536,
     .accordUnload order 65536, .asidCreate order 65536 0, .asidCreate order 0 65536, .asidDestroy order 65536, .mapRange order 65536 0 0 0 0 0,
     .mapRange order 0 18446744073709551616 0 0 0 0, .mapRange order 0 0 18446744073709551616 0 0 0] : List Instr).all (fun c => !c.wf) = true := by decide

theorem test_wf_operands_5 :
    ([.mapRange order 0 0 0 256 0 0, .mapRange order 0 0 0 0 4294967296 0, .mapRange order 0 0 0 0 0 256, .unmapRange order 65536 0 0, .unmapRange order 0 18446744073709551616 0,
     .unmapRange order 0 0 4294967296, .protectRange order 65536 0 0 0, .protectRange order 0 18446744073709551616 0 0, .protectRange order 0 0 4294967296 0,
     .protectRange order 0 0 0 256, .invalidateRange order 65536 0 0, .invalidateRange order 0 18446744073709551616 0, .invalidateRange order 0 0 4294967296,
     .mapRead order 65536 0, .mapRead order 0 18446744073709551616, .faultRingSet order 18446744073709551616 0, .faultRingSet order 0 4294967296, .faultResolve order 4294967296 0,
     .faultPolicy order 4294967296, .sprayRead order 65536, .sprayCancel order 65536, .engineTagRelease order 65536, .portRead order 256 0, .portRead order 0 256,
     .portSelect order 256 0, .portSelect order 0 256, .portRetrain order 256 0, .portRetrain order 0 256, .faultRead order 256, .faultAck order 256 0] : List Instr).all (fun c => !c.wf) = true := by decide

theorem test_wf_operands_6 :
    ([.faultAck order 0 256, .faultReadWaitExpiry 4, .clockSet order 18446744073709551616, .lifetimeRead order 256, .bistRead order 256, .powerLimit order 4294967296,
     .flitReceive 32 0 true, .replayTimerExpiry 32, .nakRepeatTimer 32, .linkHello 32 {}, .linkHello 0 { plane := 2 }, .linkAssign 32 {}, .linkAssign 0 { plane := 2 },
     .linkReady 32 0, .linkReady 0 256, .recoverQuery 32 {}, .recoverQuery 0 { queryId := 256 }, .recoverReply 32 {}, .recoverReply 0 { queryId := 256 }, .staleRole 32 0 0,
     .staleRole 0 256 0, .staleRole 0 0 256, .resetRequest 32 0 0 true, .resetRequest 0 256 0 true, .resetRequest 0 0 256 true, .ctrlRepeatTimer 32, .orphanResolveTimeout 16,
     .portTrainingDone 32 0, .portBringupDone 32 true, .plannedChangeDrain 16] : List Instr).all (fun c => !c.wf) = true := by decide

theorem test_wf_operands_7 :
    ([.portResyncDone 32, .savedStateExpiry 32, .laneDegrade 32 0 true, .laneDegrade 0 9 true, .dlCreditInit { credit with credits := [] }, .dlWidth { credit with credits := [] },
     .errorLine true 4 0 0 0, .errorLine true 0 65536 0 0, .errorLine true 0 0 256 0, .errorLine true 0 0 0 18446744073709551616, .replacementDone true 4 0,
     .replacementDone true 0 65536, .sliceStart 5 0 0, .sliceStart 0 65536 0, .sliceStart 0 0 256, .sliceEnd 5 {}, .sliceAbandon 5 .spare, .catchupWalkDone 5, .unitDue 5 0 0,
     .unitDue 0 65536 0, .unitDue 0 0 256, .portExchange 16, .spareStackTest 4 true, .fuseBankCheck 256 true, .dieTempRead 5 [], .dieTempRead 0 [65536],
     .i3cPrivateWrite (List.replicate 257 0), .i3cPrivateRead 257, .setdasa 128, .entdaa 128] : List Instr).all (fun c => !c.wf) = true := by decide +kernel

theorem test_wf_operands_8 :
    ([.stackTrainingDone 20 true, .metadataWriteDone 16, .startupSelfTestDone 5 [], .startupSelfTestDone 0 [65536], .mgmtKeyPreviousExpiry 4, .receivePointHoldExpiry 32] : List Instr).all (fun c => !c.wf) = true := by decide

/-! ### Witnesses: reset, packets, mapping, memory, requests (O4 to O12) -/

theorem witness_EmptyQueueLetsTimePass : live.pending = [] ∧ live.time.timebaseOn = true ∧ { live with time := { live.time with timebase := 249999999 } }.time.timebase + 1 = 250000000 := ⟨rfl, rfl, rfl⟩
theorem witness_time_acts :
    (let s := { live with power := { resetN := true, stage := .held, pwrOkSince := 295000001 } }
     s.power.stage = .held ∧ s.power.resetN = true ∧ s.power.pwrOk = true ∧ s.power.tripped = false ∧ s.power.pwrOkSince + 5000000 ≤ s.time.clock + 1 ∧ ¬(s.power.pwrOkSince + 5000000 ≤ s.time.clock)) ∧
    ∀ x ∈ [([], 299000000), ([order], 298000001)], let s := { live with power := { live.power with stage := .poweringDown, resetting := true, downAt := x.2 }, hub := { live.hub with accepted := x.1.map (fun h => (h, 3, 0x0155)) } }
      let u := { s with time := { s.time with clock := s.time.clock + 1, timebase := 501 } }
      s.power.stage = .poweringDown ∧ s.power.resetting = true ∧ downComplete u = true ∧ workDrained u = decide (x.1 = []) := by decide +kernel
theorem witness_StepKeepsInvariant : ({ live with pending := [.pwrOkRise] } : State).pending ≠ [] ∧ State.reset.CellsWf ∧ live.CellsWf := ⟨nofun, ⟨no_cells, no_cells, no_cells⟩, ⟨no_cells, no_cells, no_cells⟩⟩
theorem witness_ResetClearsExtents : 10000 ≤ 10000 ∧ live.power.pwrOk = true ∧ live.power.stage ≠ .unpowered ∧ validAt live (4 * 2 ^ 20) = false := by decide
theorem witness_PacketsRoundTrip : (sealedRequest 1).wf = true ∧ (sealedRequest 1).rsvLow < 32 ∧ ({ rsvLow := 31, payload := some 9 } : Packet).wf = true := by decide
theorem witness_MappingIsInjective : ext2.kind ≤ 2 ∧ (ext2.kind = 2 → ext2.target < 16) ∧ ext2.base * 2 ^ 21 ≤ 4 * 2 ^ 20 ∧ ext2.base * 2 ^ 21 ≤ 4 * 2 ^ 20 + 255 ∧
    ({ ext2 with kind := 1, target := 3 } : Extent).target < 4 := by decide
theorem witness_MemoryReadsBack (poison : Bool) :
    (writeLine live 2 (4 * 2 ^ 20 + 256) 0xABCD 0 32 poison).isSome = true ∧ (4 * 2 ^ 20 + 256) % 256 = 0 ∧
    (live.mem.sab.filter (fun e => e.region == (mapOffset (extentOf live 2) (4 * 2 ^ 20 + 256)).lstack / 4)).length < sabRoom live ((mapOffset (extentOf live 2) (4 * 2 ^ 20 + 256)).lstack / 4) ∧
    (∀ e ∈ live.mem.sab, e.data.length = 16 ∧ e.mask.length = 16) ∧ Memory.wf live.eng.priv ∧ 1048568 + ([1, 2, 3, 4, 5, 6, 7, 8] : List Byte).length ≤ 2 ^ 20 :=
  ⟨by cases poison <;> decide +kernel, rfl, by decide, nofun, no_cells, by decide⟩
theorem witness_DarinlinkRequestsQueue :
    Serves live ∧ ∀ row ∈ requestRows, (request row.1).opcode = row.1 ∧ (tenantOf? live (request row.1).tenant).isSome = true ∧ formatOk true (request row.1) (4 * 2 ^ 20) = true ∧
      Allowed live 2 row.1 row.2.1 (4 * 2 ^ 20) (selfId live) 7 :=
  ⟨live_serves, fun row h => ⟨rfl, by rw [show (request row.1).tenant = 7 from rfl]; rfl, (by decide +kernel : ∀ row ∈ requestRows, formatOk true (request row.1) (4 * 2 ^ 20) = true) row h, (live_allows row h).1⟩⟩
/-- The requests without data; the others differ in their payload alone. -/
theorem witness_FabricRequestsAreAdmitted :
    Serves live ∧ ∀ row ∈ requestRows, (requestForm row.1).map Prod.snd = some false →
      let p := protect 1 (sealedRequest row.1)
      p.opcode = row.1 ∧ p.dest = selfId live ∧ p.address / 2 ^ 40 = p.dest ∧ (tenantOf? live p.tenant).isSome = true ∧ openPacket live p = .plain p 0 ∧
      Allowed live 2 row.1 row.2.1 (p.address % 2 ^ 40) p.source p.tenant := by
  refine ⟨live_serves, fun row h _ => ?_⟩
  have hd : (protect 1 (sealedRequest row.1)).dest = 5 := rfl
  have ha : (protect 1 (sealedRequest row.1)).address = 5 * 2 ^ 40 + 4 * 2 ^ 20 := rfl
  have hs : (protect 1 (sealedRequest row.1)).source = 9 := rfl
  have hn : (protect 1 (sealedRequest row.1)).tenant = 7 := rfl
  refine ⟨rfl, hd, ?_, by rw [hn]; rfl, live_opens _ rfl rfl rfl, ?_⟩
  · exact ((congrArg (· / 2 ^ 40) ha).trans (show (5 * 2 ^ 40 + 4 * 2 ^ 20) / 2 ^ 40 = (5 : Nat) by decide)).trans hd.symm
  · rw [ha, hs, hn]; exact (live_allows row h).2
/-- Buckets, rates and queue of host 9 in region 1, at each bound of R81 and R82. -/
def shaped (weight tc tp queued : Nat) : State :=
  modRegion { live with coh := { live.coh with hosts := [(9, { weight := weight, pbs := 8, cbs := 4, pir := 2, cir := 1 })] } } 1
    (fun x => { x with buckets := [(9, { tc := tc, tp := tp, fh := 100 })], ingressQ := List.replicate queued (req 1) })
theorem witness_colours :
    let at_ := fun (w tc tp q : Nat) => ((hostOf (shaped w tc tp q) 9).weight, (bucketOf (regionOf (shaped w tc tp q) 1) 9).tc, (bucketOf (regionOf (shaped w tc tp q) 1) 9).tp,
      (regionOf (shaped w tc tp q) 1).ingressQ.length)
    at_ 10 64 15 0 = (10, 64, 15, 0) ∧ at_ 10 16 16 3 = (10, 16, 16, 3) ∧ at_ 10 15 16 3 = (10, 15, 16, 3) ∧ at_ 0 15 16 3 = (0, 15, 16, 3) := by decide
theorem witness_long_queues : (List.replicate 8192 (req 1)).length = 8192 ∧ (List.replicate 7168 (req 1)).length = 7168 := ⟨List.length_replicate, List.length_replicate⟩
theorem witness_RefusedRequestsAreAnswered :
    hubRuns live = true ∧ live.fault.halted = false ∧ live.hub.ready = true ∧ tenantOf? live 8 = none ∧ tenantKey live 7 1 = none ∧ extentAt live (8 * 2 ^ 30) = none ∧ extentAt live (12 * 2 ^ 20 - 8) = some 2 ∧
    formatOk true { request 1 with length := 32 } (4 * 2 ^ 20) = false ∧ extentRefusal (setExtent live 2 { ext2 with st := .revoking }) 1 (4 * 2 ^ 20) 5 7 = some 0x11 ∧
    extentRefusal live 1 (4 * 2 ^ 20) 5 8 = some 0x12 ∧ extentRefusal (setExtent live 2 { ext2 with access := [] }) 1 (4 * 2 ^ 20) 5 7 = some 0x13 ∧
    extentRefusal (setExtent live 2 { ext2 with coherent := false }) 5 (4 * 2 ^ 20) 5 7 = some 0x14 ∧ slotHeld live 12 false = none ∧ extentRefusal live 5 (4 * 2 ^ 20) 12 7 = some 0x15 ∧
    recallWriteback live 1 (4 * 2 ^ 20) 5 = false ∧ ({ request 1 with vc := 2 } : Packet).vc = 2 ∧ ({ request 1 with vc := 7 } : Packet).vc = 7 := by decide
/-- Sealed requests of wrong length, and outside every extent. -/
theorem witness_refused_fabric : ∀ p ∈ [{ sealedRequest 1 with length := 32 }, { sealedRequest 1 with address := 5 * 2 ^ 40 + 8 * 2 ^ 30 }],
    openPacket live (protect 1 p) = .plain (protect 1 p) 0 := by
  intro p h
  simp only [List.mem_cons, List.not_mem_nil, or_false] at h
  rcases h with rfl | rfl <;> exact live_opens _ rfl rfl rfl
theorem witness_refused_checks :
    formatOk false { sealedRequest 1 with length := 32 } (4 * 2 ^ 20) = false ∧ formatOk false (sealedRequest 1) (8 * 2 ^ 30) = true ∧ extentRefusal live 1 (8 * 2 ^ 30) 9 7 = some 0x10 ∧ recallWriteback live 1 (8 * 2 ^ 30) 9 = false := by decide
/-- Three requests whose sources tie but for the pointer; and one request on each path. -/
def queues : State := modRegion live 1 (fun x => { x with ingressQ := [{ req 1 with finish := 5 }, { req 1 with finish := 3, source := 4, offset := 2 ^ 22 + 2 ^ 13, arrival := 1 }], wfqPtr := 5 })
theorem witness_GrantsReachTheHomeAgent :
    (pickGrant queues 1).isSome = true ∧ (regionOf queues 1).engineQ = [] ∧ (regionOf queues 1).darinQ = [] ∧ (∀ q ∈ wfqHeads queues 1, q.finish < 2 ^ 47) ∧ (wfqHeads queues 1).length = 2 ∧
    (∀ i < 3, let s := modRegion live 1 (fun x => { x with granted := [req 1], vc1 := [req 0x18], vc3 := [{ slot := 0, line := 3, answer := 0 }], haPtr := i })
     (regionOf s 1).granted ≠ [] ∧ (regionOf s 1).vc1 ≠ [] ∧ (regionOf s 1).vc3 ≠ [] ∧ reservedUsed s 1 < 256 ∧ ((regionOf s 1).haPtr + 0) % 3 = i) ∧
    (let x := regionOf (modRegion live 1 (fun x => { x with granted := [req 1], haPtr := 1 })) 1
     x.vc1 = [] ∧ x.vc3 = [] ∧ x.granted ≠ [] ∧ (x.haPtr + 2) % 3 = 0) := by decide

/-- A line whose request has a snoop of slot 1 outstanding. -/
def snooping (st : SnoopState) : State := setLine live (req 6).line { active := some { req := { req 6 with source := 4 }, snoops := [{ slot := 1, gen := 3, invalidate := true, tag := 8, st := st, sentAt := 299999000 }] } }
theorem witness_crossings : ∀ st ∈ [SnoopState.waiting, .unsent, .awaitWb], ∀ op ∈ [0x18, 0x19],
    let r := req op
    requestSlot (snooping st) r = some 1 ∧ (slotOf (snooping st) 1).gen = r.roleGen ∧ ((lineOf (snooping st) r.line).active.bind (fun t => t.snoops.find? (fun y => y.slot == 1))).map Snoop.st = some st := by decide +kernel
theorem witness_answers_close : ∀ st ∈ [SnoopState.waiting, .awaitWb],
    let s := snooping st
    (lineOf s (req 6).line).active.isSome = true ∧ s.coh.closing.contains (1, (req 6).line, 8) = false ∧ ({ s with coh := { s.coh with closing := [(1, (req 6).line, 8)] } } : State).coh.closing.contains (1, (req 6).line, 8) = true ∧
      ((lineOf s (req 6).line).active.bind (fun t => t.snoops.find? (fun x => x.slot == 1 && x.tag == 8 && x.st == .waiting))).isSome = decide (st = .waiting) := by decide +kernel

/-! ### Witnesses: coherence, ticks, extents (O13 to O21) -/

/-- The line of the test request, its entry held by slots 0 and 1. -/
def shared : State := setDir live ((lineWindow live (req 6).line).getD 0) { st := .s, sharers := [0, 1] }
theorem witness_TransactionsBeginAndComplete :
    (lineOf (setLine live (req 1).line { active := some { req := req 1 } }) (req 1).line).active = some { req := req 1 } ∧
    (lineOf live (2 ^ 22)).active = none ∧ lineWindow live (2 ^ 22) = none ∧
    (lineOf shared (req 6).line).active = none ∧ (lineWindow shared (req 6).line).isSome = true ∧ isVc1 6 = false ∧
    roleRefusal shared (req 6) = none ∧ (req 6).dir = true ∧ shared.coh.rebuild = [] ∧
    (let s := setLine live (req 1).line { active := some { req := { req 1 with dir := false } } }
     transReady s (req 1).line = true ∧ isAlloc 1 = false ∧ isVc1 1 = false) := by decide +kernel
/-- A request that the directory orders, its snoops answered, at the end of its transaction. -/
def finishing (e : DirEntry) (op : Nat) (data : Option Line) (r : Req) : State :=
  setLine (setDir live ((lineWindow live (req 6).line).getD 0) e) (req 6).line { active := some { req := { r with op := op }, slot := some 1, data := data } }
theorem witness_ordered_requests : ∀ x ∈ [(({} : DirEntry), 0x05, none), ({ st := .s, sharers := [0, 1] }, 0x07, none), ({ st := .em, sharers := [1], ownerSlot := 1, ownerGen := 3 }, 0x07, none),
      ({ st := .em, sharers := [0], ownerSlot := 0 }, 0x06, some (9 : Line)), ({ st := .lost, lostSource := 9 }, 0x01, none), ({ st := .lost, lostSource := 9 }, 0x08, none)],
    let s := finishing x.1 x.2.1 x.2.2 (req 6)
    let t : Trans := { req := { req 6 with op := x.2.1 }, slot := some 1, data := x.2.2 }
    (lineOf s (req 6).line).active = some t ∧ transReady s (req 6).line = true ∧ t.rebuilding = false ∧ t.refusal = none ∧ t.req.dir = true ∧ isVc1 t.req.op = false ∧ (lineWindow s (req 6).line).isSome = true ∧
      extentAt s ((req 6).line * 256) = some 2 ∧ fullLineWrite t.req = decide (x.2.1 = 0x08) ∧ failEntry s x.1 = x.1 ∧ dirOf s ((lineWindow live (req 6).line).getD 0) = x.1 := by decide +kernel
theorem witness_owned_writebacks : ∀ op ∈ [0x18, 0x19], ∀ counted ∈ [true, false],
    let e : DirEntry := { st := .em, sharers := [1], ownerSlot := 1, ownerGen := 3 }
    let s := finishing e op none { req 6 with counted := counted }
    transReady s (req 6).line = true ∧ lineWindow s (req 6).line = lineWindow live (req 6).line ∧ (lineWindow live (req 6).line).isSome = true ∧ failEntry s e = e ∧ dirOf s ((lineWindow live (req 6).line).getD 0) = e ∧ e.ownerSlot = 1 := by decide +kernel
theorem witness_DirectoryRows : ([1, 4] : List Nat) ≠ [] ∧ 1 ∈ ([1, 4] : List Nat) ∧ (1 : Nat) ≠ 4 ∧ 1 < 4 ∧ 1 < 255 ∧ (2 : Nat) ≠ 1 ∧ 2 ∉ ([1, 4] : List Nat) ∧ ([1, 4] : List Nat).Pairwise (· < ·) ∧ ([1] : List Nat).filter (· ≠ 1) = [] ∧ ([1, 4] : List Nat).filter (· ≠ 1) ≠ [] := by decide
theorem witness_ForeignWritebackIsRefused :
    let t : Trans := { req := req 0x18, slot := some 1 }
    let s := setLine (setDir live ((lineWindow live (req 6).line).getD 0) { st := .em, sharers := [0], ownerSlot := 0 }) (req 6).line { active := some t }
    let u := setLine live (req 6).line { active := some t }
    let w := (lineWindow live (req 6).line).getD 0
    (lineOf s (req 6).line).active = some t ∧ transReady s (req 6).line = true ∧ lineWindow s (req 6).line = some w ∧ t.slot = some 1 ∧ t.refusal = none ∧ t.rebuilding = false ∧ (slotOf s 1).st ≠ .failed ∧
    failEntry s (dirOf s w) = dirOf s w ∧ (dirOf s w).ownerSlot ≠ 1 ∧ t.req.counted = true ∧ ({ t with req := { t.req with counted := false } } : Trans).req.counted = false ∧
    (lineOf u (req 6).line).active = some t ∧ transReady u (req 6).line = true ∧ (slotOf u 1).st ≠ .failed ∧ lineWindow u (req 6).line = some w ∧ failEntry u (dirOf u w) = dirOf u w ∧ (dirOf u w).st ≠ .em := by decide +kernel
/-- The extent's first line written. -/
def written : State := (writeLine live 2 (4 * 2 ^ 20) (BitVec.allOnes 2048) 0 32 false).getD live
theorem witness_MemoryPerformsRequests :
    (readLine written 2 (4 * 2 ^ 20)).1 = some (BitVec.allOnes 2048) ∧ (req 1).bytes = none ∧ (req 1).offset % 256 / 8 + ((req 1).length + 1) ≤ 32 ∧
    (∀ op ∈ [0x02, 0x04, 0x08], (writeLine written 2 ((req op).offset / 256 * 256) (req op).payload 2 3 false).isSome = true) ∧
    (writeLine (readLine written 2 (4 * 2 ^ 20)).2 2 (4 * 2 ^ 20) (setLineWord (BitVec.allOnes 2048) 2 7) 2 1 false).isSome = true := by decide +kernel
/-- An answer of host 9 to a snoop of slot 1. -/
def snoopPacket (op answer gen : Nat) : Packet := { sealedRequest 1 with opcode := op, vc := 3, roleGen := gen, aux := answer, payload := if op = 0x2D then some 6 else none }
theorem witness_snoop_answers :
    hubRuns live = true ∧ (tenantOf? live 7).isSome = true ∧ slotHeld live (selfId live) true = some 0 ∧ (slotOf live 0).gen = (snoopPacket 0x2D 3 0).roleGen ∧
    slotHeld live 9 true = some 1 ∧ (slotOf live 1).gen = (snoopPacket 0x2C 3 3).roleGen ∧ (slotOf live 1).gen ≠ (snoopPacket 0x2C 0 2).roleGen ∧ slotHeld live 12 true = none ∧
    (snoopPacket 0x2D 3 0).payload.isSome = ((0x2D : Nat) == 0x2D) ∧ (snoopPacket 0x2C 3 0).payload.isSome = ((0x2C : Nat) == 0x2D) ∧ (duplicate live 9 77).1 = false ∧
    reservedStatus (snoopPacket 0x2C 3 3).status = false ∧ (∀ st ∈ [0x48, 0x5F, 0x95, 0xF3, 0xFE, 0xFF], reservedStatus st = true) ∧ 3 < (snoopPacket 0x2C 4 3).aux % 16 := by decide +kernel
theorem witness_sealed_snoop_answer : openPacket live (protect 1 (snoopPacket 0x2C 3 3)) = .plain (protect 1 (snoopPacket 0x2C 3 3)) 0 := live_opens _ rfl rfl rfl
theorem witness_snoop_timeout :
    let t : Trans := { req := req 6, snoops := [{ slot := 1, gen := 3, invalidate := true, sentAt := 299499999 }] }
    let s := setLine live (req 6).line { active := some t }
    (∃ x, snoopTo s (req 6).line 1 = some x ∧ x.st ≠ .unsent ∧ x.sentAt = 299499999) ∧ (299499999 : Nat) + 500000 < s.time.clock := ⟨⟨_, rfl, by decide, rfl⟩, by decide⟩
/-- Two entries of the extent's window: host 9 owns one, shares the other. -/
def entries : State := setDir (setDir live 3 { st := .em, sharers := [1], ownerSlot := 1, ownerGen := 3 }) 5 { st := .s, sharers := [0, 1] }
/-- A walk over the entries of slot 1. -/
def walking (failure : Bool) (next : Nat) (e : Nat × DirEntry) : State :=
  setWalk (setDir live e.1 e.2) { slot := 1, failure := failure, gen := 3, next := next }
theorem witness_WalksPassUnitsAndEnd :
    (let s := setWalk entries { slot := 1, failure := true }
     (walkOf s 1).isSome = true ∧ nextUnit s 0 = some 0 ∧ (unitEntries s 0 1).length = 2 ∧ nextUnit s 3 = some 3 ∧ nextUnit s 4 = none ∧ s.coh.lost.length < 1024) ∧
    (let s := walking false 0 (5, { st := .s, sharers := [0, 1] })
     (walkOf s 1).isSome = true ∧ nextUnit s 0 = some 0 ∧ unitEntries s 0 1 = [(5, { st := .s, sharers := [0, 1] })] ∧ unitEntries s 1 1 = [] ∧
     dirOf s 5 = { st := .s, sharers := [0, 1] } ∧ (windowOffset s 5).isSome = true ∧ (lineOf s (((windowOffset s 5).getD (0, 0)).2 / 256)).active = none) ∧
    (let s := walking false 0 (5, { st := .em, sharers := [1], ownerSlot := 1, ownerGen := 3 })
     unitEntries s 0 1 = [(5, { st := .em, sharers := [1], ownerSlot := 1, ownerGen := 3 })] ∧ (dirOf s 5).sharers.contains 1 = true) ∧
    heldCount (setWalk live { slot := 1, failure := false }) 1 = 0 ∧ nextUnit (walking false 4 (5, {})) 4 = none ∧ sweepRuns (walking false 4 (5, {})) 1 = false := by decide +kernel
/-- The failure walk over the entries of slot 1, which has failed, with some lines already in its open batch. -/
def failing (listed : List Nat) : State := setWalk (setSlot entries 1 { slotOf entries 1 with st := .failed }) { slot := 1, failure := true, gen := 3, openLines := listed }
theorem witness_walk_lists_lost :
    let s := failing [77]
    nextUnit s 0 = some 0 ∧ (unitEntries s 0 1).length = 2 ∧ ((unitEntries s 0 1).map Prod.fst).Nodup ∧
    (∀ x ∈ unitEntries s 0 1, dirOf s x.1 = x.2 ∧ (windowOffset s x.1).map Prod.snd = some (4 * 2 ^ 20 + x.1 * 256)) ∧
    (unitEntries s 0 1).map (fun x => (failEntry s x.2).st) = [DirState.lost, DirState.s] ∧ failEntry s (dirOf s 3) ≠ dirOf s 3 := by decide +kernel
theorem witness_walk_batch_full : ((walkOf (failing (List.range 55)) 1).map (fun w => w.failure && decide (w.openLines.length = 55))) = some true ∧ (failing (List.range 55)).coh.lost.length < 1024 := by decide +kernel
theorem witness_TicksRefillAndCommit :
    let s := { live with coh := { live.coh with hosts := [(4, { weight := 3, pbs := 8, cbs := 4, pir := 2, cir := 1 }), (9, { weight := 10, pbs := 8, cbs := 4, pir := 200, cir := 100 })] } }
    s.time.timebaseOn = true ∧ s.time.timebase % 250 = 0 ∧ s.time.refilled ≠ some s.time.timebase ∧ s.hub.prepared = [] ∧ s.hub.heldOrders = [] ∧ s.power.jtagHeld = [] ∧ s.link.dl.stepFive = false ∧ (s.coh.hosts.map Prod.fst).Nodup ∧
    (∀ r ∈ s.coh.hosts, r.2.weight ≠ 0) ∧ s.time.committed ≠ some s.time.timebase ∧ s.fault.takeover = false ∧
    { s with fault := { s.fault with takeover := true } }.fault.takeover = true := by decide
theorem witness_orders_at_ticks : (∃ c, ({ live with hub := { live.hub with heldOrders := [.extentRead order 2] } } : State).hub.heldOrders = [c]) ∧
    ∃ h n r, ({ live with hub := { live.hub with prepared := [.hostShape order 4 {}] } } : State).hub.prepared = [.hostShape h n r] := ⟨⟨_, rfl⟩, _, _, _, rfl⟩
/-- A grant of two granules beside the extent, to sources without COHERENT. -/
def grantee : Extent := { access := [0xB0FFF000, 0, 0, 0, 0, 0, 0, 0], physBase := 900, size := 2, base := 20, tenant := 7, kind := 2 }
/-- The module with three tenants, one holding a previous key, an address space with one leaf, and an extent of tenant 8 that no source uses coherently. -/
def prepared : State := { live with
  hub := { live.hub with tenants := [(7, { key := 1 }), (8, { epoch := 3, key := 2, previous := some 9 }), (9, { key := 4, removing := true })] }
  extents := live.extents ++ [(3, { ext2 with access := grantee.access, coherent := false, tenant := 8, base := 40, physBase := 90, dirBase := 0 })]
  eng := { live.eng with asids := [(5, { tenant := 7, leaves := [(64, { level := 1, frame := 99, read := true, write := true })] })] } }
theorem witness_more_prepared_orders :
    let s := prepared
    accessCoherent anyone = true ∧ firstRefusal (grantRefusals s 9 { grantee with access := anyone }) = none ∧ (findWindow s 2).isSome = true ∧ findWindow s 32768 = none ∧
    (firstRefusal (accessSetRefusals s 2 9 anyone 0)).isSome = true ∧ firstRefusal (accessSetRefusals s 2 1 anyone 1) = none ∧ firstRefusal (accessSetRefusals s 3 1 anyone 0) = none ∧
    (firstRefusal (tenantState s 9)).isSome = true ∧ (∃ x, tenantOf? s 7 = some x ∧ x.removing = false) ∧ (s.extents.map Prod.fst).Nodup ∧
    (firstRefusal (retireRefusals s 7 0 0)).isSome = true ∧ firstRefusal (retireRefusals s 8 2 0) = none ∧ firstRefusal (retireRefusals s 8 2 1) = none ∧
    (tenantOf? (if (1 : Nat) = 1 then forceRetire s 8 2 else s) 8).isSome = true ∧
    (firstRefusal (asidCreateRefusals s 5 7)).isSome = true ∧ firstRefusal (asidCreateRefusals s 6 7) = none ∧ (firstRefusal (asidDestroyRefusals s 6)).isSome = true ∧ firstRefusal (asidDestroyRefusals s 5) = none ∧
    (firstRefusal (mapRefusals s 5 (64 * 65536) 0 0 1 3)).isSome = true ∧ firstRefusal (mapRefusals s 5 (65 * 65536) 65536 0 2 3) = none ∧
    (firstRefusal (rangeRefusals s 6 (64 * 65536) 65536 true)).isSome = true ∧ firstRefusal (rangeRefusals s 5 (64 * 65536) 1 true) = none ∧ (firstRefusal (rangeRefusals s 5 (64 * 65536) 65536 (decide (4 ≤ 3)))).isSome = true ∧
    (firstRefusal (invalidateRefusals s 6 0 65536)).isSome = true ∧ firstRefusal (invalidateRefusals s 5 (64 * 65536) 1) = none := by
  refine ⟨?_, ?_, ?_, ?_, ?_, ?_, ?_, ?_, ⟨_, rfl, rfl⟩, ?_, ?_, ?_, ?_, ?_, ?_, ?_, ?_, ?_, ?_, ?_, ?_, ?_, ?_, ?_, ?_⟩ <;> decide +kernel
theorem witness_PreparedOrdersTakeEffect :
    (firstRefusal (grantRefusals live 2 grantee)).isSome = true ∧ firstRefusal (grantRefusals live 9 grantee) = none ∧ accessCoherent grantee.access = false ∧
    (extentOf live 3).st ≠ .granted ∧ (extentOf live 2).st = .granted ∧ (extentOf live 2).generation ≠ 2 ∧ (extentOf live 2).generation = 1 ∧ (tenantOf? live 7).isSome = true ∧
    (∃ x, tenantOf? live 7 = some x ∧ x.removing = false ∧ x.previous = none) ∧ tenantOf? live 1023 = none ∧ (1023 : Nat) < 1024 :=
  ⟨by decide +kernel, by decide +kernel, by decide +kernel, by decide, by decide, by decide, by decide, by decide, ⟨_, rfl, rfl, rfl⟩, by decide, by decide⟩
/-- The extent while its REVOKE waits. -/
def revoking (e : Extent) (recalling : Bool) : State := { live with extents := [(2, e)], revokes := [{ ext := 2, waits := .order order, recalling := recalling }] }
/-- A recall of the test line whose last holder has answered. -/
def recallDone : State := setLine (revoking { ext2 with st := .revoking } true) (4 * 2 ^ 12) { active := some { req := { req 0 with origin := .recallFor 2 } } }
theorem witness_recalls :
    (let s := setDir (revoking { ext2 with st := .revoking } false) 3 { st := .em, sharers := [1], ownerSlot := 1, ownerGen := 3 }
     s.revokes.any (fun r => r.ext == 2 && !r.recalling) = true ∧ (extentOf s 2).inFlight = 0 ∧ (extentOf s 2).coherent = true ∧
     ((extentEntries s (extentOf s 2)).foldl (fun (acc : Bool × State) w => if acc.1 then reportRecalled acc.2 w else acc) (true, s)).1 = true ∧
     (dirOf s 3).st ≠ .lost ∧ (windowOffset s 3).isSome = true ∧ (lineOf s (((windowOffset s 3).getD (0, 0)).2 / 256)).active = none ∧ lineWindow s (((windowOffset s 3).getD (0, 0)).2 / 256) = some 3 ∧ 3 ∉ s.coh.rebuild) ∧
    (let s := setWalk (setDir (revoking { ext2 with st := .revoking } false) 3 { st := .lost, ownerSlot := 1 }) { slot := 1, failure := true, openLines := List.range 56 }
     let s := { s with coh := { s.coh with lost := List.replicate 1024 {} } }
     (dirOf s 3).st = .lost ∧ ((extentEntries s (extentOf s 2)).foldl (fun (acc : Bool × State) w => if acc.1 then reportRecalled acc.2 w else acc) (true, s)).1 = false) ∧
    ((lineOf recallDone (4 * 2 ^ 12)).active.map (fun t => (t.rebuilding, t.req.origin))) = some (false, .recallFor 2) ∧ transReady recallDone (4 * 2 ^ 12) = true ∧ (lineWindow recallDone (4 * 2 ^ 12)).isSome = true ∧
    (let s : State := { revoking { ext2 with st := .revoking } true with revokes := [{ ext := 2, waits := .removal 7, recalling := true }] }
     let erased := fun (t : State) => (tenantOf? (if tenantQuiet t 7 then eraseKeys t 7 else t) 7).map (·.keysErased)
     recalled s 2 = true ∧ erased s = some true ∧ erased { s with eng := { s.eng with sprays := [(3, { id := 3, pool := false, desc := 0, via := .darinlink, pkt := {}, source := 5, tenant := 7, epoch := none, region := 0, total := 1 })] } } = some false) := by
  refine ⟨by decide +kernel, by decide +kernel, by decide +kernel, by decide +kernel, by decide +kernel, by decide +kernel⟩
theorem witness_ExtentEndsInSteps :
    (let s := revoking { ext2 with st := .revoking, coherent := false } false
     s.revokes.any (fun r => r.ext == 2 && !r.recalling) = true ∧ (extentOf s 2).inFlight = 0 ∧ (extentOf s 2).coherent = false) ∧
    (let s := revoking { ext2 with st := .revoking } true
     s.revokes.find? (fun r => r.ext == 2) = some { ext := 2, waits := .order order, recalling := true } ∧ recalled s 2 = true ∧ (extentOf s 2).coherent = true ∧
     (extentOf s 2).base * 2 ^ 21 ≤ 12 * 2 ^ 20 - 1 ∧ 12 * 2 ^ 20 - 1 < ((extentOf s 2).base + (extentOf s 2).size) * 2 ^ 21 ∧ (extentOf s 2).dirBase ≤ 32767 / 8192 ∧ 32767 / 8192 < (extentOf s 2).dirBase + (extentOf s 2).size) ∧
    (let s := setExtent { live with mem := { live.mem with chans := (List.range 32).map (fun c => (c, { selfRefresh := true })) } } 2 { ext2 with st := .scrubbing, scrubDone := 3 }
     (extentOf s 2).st = .scrubbing ∧ (extentOf s 2).scrubDone < (extentOf s 2).size ∧ zeroOpen s (extentOf s 2) = true ∧ servedBy s 0 = some 0) ∧
    (extentOf (setExtent live 2 { ext2 with st := .scrubbing, scrubDone := 4 }) 2).st = .scrubbing ∧
    (extentOf (setExtent live 2 { ext2 with st := .scrubbing, scrubDone := 4 }) 2).scrubDone = ext2.size := by decide +kernel

/-! ### Witnesses: channels, stacks, stripes (O22 to O27) -/

def burst : Burst := { place := 20, column := 3, write := false, since := 299999800 }
/-- Two reads wait at pseudo-channel 0 of channel 2 of stack 1; one has waited longer. -/
def waiting (rows : Tab Nat) : State := modPchan live 1 2 0 (fun q => { q with reads := [burst, { burst with since := 299999900, place := 77 }], openRows := rows })
theorem witness_ChannelIssuesBursts : ∀ rows ∈ ([[], [(placeBank 20, placeRow 20)], [(placeBank 20, 9)]] : List (Tab Nat)),
    let s := waiting rows
    let q := turn { pchanOf s 1 2 0 with retry := retryLive s 1 (pchanOf s 1 2 0) }
    pcIssues s 1 2 0 = true ∧ hasBursts s 1 2 0 = true ∧ s.mem.stripeWait = [] ∧ q.retry.length < 64 ∧ pickBurst s.time.clock q = some burst ∧ q.openRows = rows := by decide +kernel
theorem witness_turns_of_16 :
    let q : PChan := { sinceTurn := 16, writes := List.replicate 48 { burst with write := true } }
    let u : PChan := { sinceTurn := 16, writing := true, writes := List.replicate 16 { burst with write := true }, reads := [burst] }
    (turn q).writing ≠ q.writing ∧ q.writes.length = 48 ∧ u.writing = true ∧ u.writes.length = 16 ∧ u.reads ≠ [] ∧
    burst.since + 500 ≤ 299999800 + 500 ∧ pickBurst (299999800 + 500) { reads := [burst] } = some burst ∧
    pickBurst 299999801 { reads := [burst, { burst with place := 77, since := 299999801 }], openRows := [(placeBank 77, placeRow 77)] } = some { burst with place := 77, since := 299999801 } := by decide +kernel
/-- Channel 2 of stack 1 in a state of its own. -/
def chan (f : Chan → Chan) : State := modChan live 1 2 f
theorem witness_pause_fits : ∀ x ∈ [(false, 1), (true, 3), (false, 0)],
    let s := chan (fun y => { y with rerun := x.1, pauseNext := x.2, retrainForced := decide (x.2 = 0), refreshBy := 300000375 })
    pauseFits s 1 2 = true ∧ (chanOf s 1 2).rerun = x.1 ∧ ((chanOf s 1 2).pauseNext ≠ 0 ∨ (chanOf s 1 2).retrainForced = true) := by decide +kernel
theorem witness_retrain_period : let s := chan (fun y => { y with lastRetrain := 287500000, refreshBy := 300000375 })
    pauseFits s 1 2 = true ∧ (chanOf s 1 2).lastRetrain + 12500000 ≤ s.time.clock := by decide +kernel
theorem witness_refresh_due : chanRuns live 1 2 = true ∧ replays live 1 2 = false ∧ (chanOf live 1 2).pausing = false ∧ (retryLive live 1 (pchanOf live 1 2 0)).length < 64 ∧
    refreshAt (chan (fun x => { x with refreshBy := 300000000 })) 1 2 0 63 ≤ live.time.clock := by decide +kernel
theorem witness_pauses_end :
    (chanOf (chan (fun x => { x with pausing := true, pauseNext := 2 })) 1 2).pauseNext < 3 ∧ (chanOf (chan (fun x => { x with pausing := true, pauseNext := 3, rerun := true })) 1 2).pauseNext = 3 ∧
    (chanOf (chan (fun x => { x with pausing := true, rerun := true })) 1 2).rerun = true ∧
    (let s := { chan (fun x => { x with fullTraining := true }) with fault := { regions := [(0, { spareStackFree := false })] } }
     (chanOf s 1 2).fullTraining = true ∧ (stackOf s 1).mapped = true ∧ spareUsable s 0 = false ∧ tget? s.mem.evacs 0 = none ∧ (chanOf s 1 2).rejoined = false) := by decide +kernel
theorem witness_parity_replay :
    chanRuns (chan (fun x => { x with alerts := [3] })) 1 2 = true ∧ (pchanOf live 1 2 0).replaying = false ∧
    (∀ k ∈ [2, 3], let s := modPchan (chan (fun x => { x with replays := [0, 1], alertsSince := 2, alerts := List.replicate k 299999999 })) 1 2 0 (fun q => { q with replaying := true, retry := [(.column burst, 299999999), (.refresh 9, 299999999)] })
      (pchanOf s 1 2 0).replaying = true ∧ (chanOf s 1 2).replays = [0, 1] ∧ (chanOf s 1 2).alertsSince < 3 ∧ (chanOf s 1 2).alerts.length = k) ∧
    (let s := modPchan (chan (fun x => { x with replays := [1, 0] })) 1 2 0 (fun q => { q with replaying := true })
     (pchanOf s 1 2 0).replaying = true ∧ (chanOf s 1 2).replays.head? ≠ some 0) := by decide +kernel
theorem witness_temperatures :
    (∀ x ∈ [(104, 2, 0), (100, 2, 0), (99, 0, 0), (95, 2, 0), (94, 1, 5), (91, 1, 5), (90, 1, 98), (90, 1, 99)], ∀ b ∈ [false, true],
      let s := modStack live 1 (fun y => { y with thermalLimit := x.2.1, coolReadings := x.2.2, tempFenced := b })
      (stackOf s 1).st ≠ .off ∧ (stackOf s 1).st ≠ .fenced ∧ x.1 < 105 ∧ (stackOf s 1).tempFenced = b ∧ (stackOf s 1).coolReadings = x.2.2) ∧
    105 ≤ 105 ∧ live.power.stage = .running ∧ live.power.thermtrip = false ∧
    (stackOf (modStack live 1 (fun y => { y with tempFails := 9 })) 1).tempFails + 1 = 10 ∧ (stackOf (modStack live 1 (fun y => { y with tempFails := 9 })) 1).tempFenced = false := by decide +kernel
theorem witness_self_refresh :
    (let s := chan (fun x => { x with lastRetrain := 299000000, refreshBy := 300000375 })
     let s := { s with mem := { s.mem with idleMs := 1 } }
     chanRuns s 1 2 = true ∧ chanIdle s 1 2 = true ∧ retrainDue s 1 2 = false ∧ refreshWaits s 1 2 = false ∧ (∀ pc < 2, (retryLive s 1 (pchanOf s 1 2 pc)).length + 3 ≤ 64) ∧ idleLimit s 1 = some 250000 ∧ (chanOf s 1 2).lastActivity + 250000 ≤ s.time.clock) ∧
    (let s := modPchan (chan (fun x => { x with selfRefresh := true })) 1 2 0 (fun q => { q with reads := [burst] })
     (chanOf s 1 2).selfRefresh = true ∧ chanIdle s 1 2 = false ∧ chanTested s 1 2 = false) := by decide +kernel
theorem witness_sliced_stacks :
    stackSliced (modBist live 0 (fun b => { b with walking := some (unitId Kind.channel 32, 3, 4) })) 1 = some false ∧
    (let s := modBist live 0 (fun b => { b with current := some (unitId Kind.channel 32, 0, 3, 4) }); stackSliced s 1 = some true ∧ rateLimit (stackOf s 1) ≤ (stackOf s 1).rate) := by decide +kernel
theorem witness_StackStatesAndTemperatures :
    (∀ x ∈ [(0, 2, 300000000), (2, 0, 275000000)], let s := modStack live 1 (fun y => { y with rate := x.1, thermalLimit := x.2.1, lastRateChange := some x.2.2 })
      stackRuns (stackOf s 1) = true ∧ stackQuiet s 1 = true ∧ stackSliced s 1 = none ∧
        ((stackOf s 1).rate < rateLimit (stackOf s 1) ∨ rateLimit (stackOf s 1) < (stackOf s 1).rate ∧ x.2.2 + 25000000 ≤ s.time.clock)) ∧
    stackRuns (stackOf live 4) = false ∧ stackQuiet (chan (fun x => { x with pausing := true })) 1 = false ∧ rateLimit (stackOf (modStack live 1 (fun y => { y with rate := 0 })) 1) = 0 ∧
    (let s := modStack live 1 (fun y => { y with st := .rateChange, rateTarget := 2 })
     (stackOf s 1).st = .rateChange ∧ tget? s.mem.evacs 0 = none ∧ 1 < 20 ∧ chanTested s 1 31 = false) ∧
    (stackOf (modStack live 1 (fun y => { y with st := .training, mapped := false })) 1).st = .training ∧
    (let s := { live with hub := { live.hub with ready := false } }
     servedBy s 2 = some 2 ∧ 2 ∉ s.mem.metadataDone ∧ chunkAddr 2 14680064 0 < chunkAddr 2 15790304 0) := by decide +kernel
/-- A stripe of logical stack 2 held whole in region 0's stripe buffer. -/
def entry : SabEntry :=
  { region := 0, lstack := 2, stripe := 77, ext := 2, offset := 0, data := (List.range 16).map (fun i => BitVec.ofNat 2048 (i * i + 5)), mask := List.replicate 16 (BitVec.allOnes 32), oldValid := 0,
    openedAt := 299975000 }
def held (e : SabEntry) : State := { live with mem := { live.mem with sab := [e] } }
theorem witness_StripesCommit :
    sabAt (held entry) 2 77 = some entry ∧ entry.openedAt + 25000 ≤ (held entry).time.clock ∧ sabAt (held { entry with due := true }) 2 77 = some { entry with due := true } ∧
    stripeLocked (held { entry with due := true }) 2 77 = false ∧
    (let s := { held entry with mem := { (held entry).mem with locks := [{ lstack := 2, stripe := 77, kind := .rejoin }] } }
     stripeLocked s 2 77 = false ∧ (rotate 6 (tget s.mem.lockPtrs (2 * 2 ^ 24 + 77) 0) (fun i => s.mem.locks.any (fun k => k.lstack == 2 && k.stripe == 77 && k.kind == lockKinds.getD i .scrub))).isSome = true) ∧
    servedBy (held entry) 2 = some 2 ∧ tget? (held entry).mem.evacs 0 = none ∧ (stackOf (held entry) 2).fencedChans = [] ∧ (bistOf (held entry) 0).current = none ∧
    (bistOf (held entry) 0).walking = none ∧ (∀ k < 16, entry.mask.getD k 0 = BitVec.allOnes 32 ∧ entry.bad.getD k 0 = 0) ∧ entry.poison = 0 ∧ (held entry).mem.bytes = [] := by decide +kernel
theorem witness_StoredDataUpkeep :
    (let s := modChan { live with mem := { live.mem with rewrites := [{ lstack := 2, stripe := 77, pos := 4, data := 9 }] } } 2 (chanOfPos 77 4) (fun x => { x with refreshBy := 300000001, lastRetrain := 300000000 })
     (s.mem.rewrites.find? (fun r => r.lstack == 2 && r.stripe == 77 && r.pos == 4)).isSome = true ∧ readStack s 2 77 = some 2 ∧ zeroingOn s 2 = false ∧ stackRuns (stackOf s 2) = true ∧ windowOpen s 2 (chanOfPos 77 4) = true ∧ lockFree s 2 77 .rewrite = true ∧ sabAt s 2 77 = none) ∧
    (stackOf live 2).mapped = true ∧ stackRuns (stackOf live 2) = true ∧ (stackOf live 2).logicalId = 2 ∧ (∀ k ∈ live.mem.locks, k.lstack = 2 → k.kind = .scrub → k.held = false) ∧ reservedRoom live 0 1 = true ∧ patrolWaits live 2 2 (nextUsed live 2 0) 0 = false ∧
    (let s := { live with mem := { live.mem with rewrites := [{ lstack := 2, stripe := 14680064, pos := 3, data := 9 }] } }
     patrolWaits s 2 2 (nextUsed s 2 0) 0 = true ∧ nextUsed s 2 0 < 15790304) ∧ nextUsed live 2 0 < 15790304 ∧
    lockFree live 2 (nextUsed live 2 0) .scrub = true ∧ sabAt live 2 (nextUsed live 2 0) = none ∧ 15790304 ≤ nextUsed live 2 15790304 ∧
    (stackOf live 2).scrubStart + ({ live with mem := { live.mem with scrubMin := 0 } } : State).mem.scrubMin * 60 * 250000000 ≤ live.time.clock := by decide +kernel
/-- A row repair is due; the row's bank has so many rows repaired. -/
def rowDue (repaired : Nat) : State :=
  modChan { live with mem := { live.mem with rowsDue := [{ stack := 2, chan := 4, row := 4000 >>> 2 }], repairs := [(bankNo 2 4 4000, repaired)] } } 2 4 (fun x => { x with refreshBy := 300001000, lastRetrain := 300000000 })
theorem witness_row_repair :
    (rowDue 0).mem.rowsDue.contains { stack := 2, chan := 4, row := 4000 >>> 2 } = true ∧ Config.spareRows ≤ tget (rowDue Config.spareRows).mem.repairs (bankNo 2 4 4000) 0 ∧ tget (rowDue 0).mem.repairs (bankNo 2 4 4000) 0 < Config.spareRows ∧
    windowFor (rowDue 0) 2 4 (placePc 4000) 1000 = true ∧ zeroingOn (rowDue 0) 2 = false ∧ reservedRoom (rowDue 0) 0 4 = true ∧ stackServes (rowDue 0) 2 = some 2 ∧ heldChunks (rowDue 0) 2 4 (4000 >>> 2) ≠ [] ∧ ∀ x ∈ heldChunks (rowDue 0) 2 4 (4000 >>> 2), lockFree (rowDue 0) 2 x.1 .rowRepair = true := by
  refine ⟨by decide +kernel, ?_, Nat.zero_lt_succ _, by decide +kernel, by decide +kernel, by decide +kernel, by decide +kernel, by decide +kernel, by decide +kernel⟩
  exact Nat.le_of_eq (show Config.spareRows = tget (rowDue Config.spareRows).mem.repairs (bankNo 2 4 4000) 0 from rfl)
/-- A rejoin and an evacuation under way in region 0. -/
def rejoining (ptr : Nat) : State := modStack (modChan live 2 5 (fun x => { x with rejoin := some ptr })) 2 (fun x => { x with fencedChans := [5, 6] })
def evac (e : Evac) (f : Stack → Stack) : State := modStack { live with mem := { live.mem with evacs := [(0, e)] } } 4 f
theorem witness_RejoinAndEvacuation :
    (chanOf (rejoining 3) 2 5).rejoin = some 3 ∧ stackRuns (stackOf (rejoining 3) 2) = true ∧ (stackOf (rejoining 3) 2).mapped = true ∧ reservedRoom (rejoining 3) 0 1 = true ∧ nextUsed (rejoining 3) 2 3 < 15790304 ∧ (posOfChan 5 (nextUsed (rejoining 3) 2 3)).isSome = true ∧
    posOfChan 30 (nextUsed (rejoining 3) 2 3) = none ∧ (chanOf (modChan (rejoining 3) 2 30 (fun x => { x with rejoin := some 3 })) 2 30).rejoin = some 3 ∧
    lockFree (rejoining 3) 2 (nextUsed (rejoining 3) 2 3) .rejoin = true ∧ sabAt (rejoining 3) 2 (nextUsed (rejoining 3) 2 3) = none ∧ 15790304 ≤ nextUsed (rejoining 15790304) 2 15790304 ∧
    (let e : Evac := { old := 2, spare := 4, lstack := 2, waits := [order] }
     let c : Evac := { e with copying := true }
     e.old ≠ e.spare ∧ (stackOf (evac e id) 4).evacState = .none ∧ (stackOf (evac e id) 4).st ≠ .serving ∧ (stackOf (evac e (fun x => { x with st := .serving })) 4).st = .serving ∧ (stackOf (evac e id) 2).st = .serving ∧
     (stackOf (evac e (fun x => { x with evacState := .trainingSpare })) 4).evacState ≠ .none ∧ (stackOf (evac c id) 2).st ≠ .rateChange ∧ (stackOf (evac c id) 4).st ≠ .rateChange ∧
     e.copying = false ∧ reservedRoom (evac c id) 0 1 = true ∧ nextUsed (evac c id) 2 0 < 15790304 ∧ lockFree (evac c id) 2 (nextUsed (evac c id) 2 0) .copier = true ∧ sabAt (evac c id) 2 (nextUsed (evac c id) 2 0) = none ∧
     15790304 ≤ nextUsed (evac { c with pointer := 15790304 } id) 2 15790304) := by decide +kernel

/-! ### Witnesses: instructions of engine threads (O28 to O39) -/

/-- Thread 2 of engine 5, at the second word of its accord, with a value in s4, s5 and s6. -/
def tr : ThreadRef := { engine := 5, thread := 2 }
def thread (s4 s5 s6 : Word) : Thread :=
  { spray := 3, item := 0, placed := 5, sregs := [0, 0, 0, 0, s4, s5, s6] ++ List.replicate 25 0, vregs := List.replicate 16 0, accs := List.replicate 4 (List.replicate 16 0), preds := List.replicate 8 0,
    pc := 1, scratchBytes := 4096 }
/-- Its launch: accord 256, ASID 3, ten items, 4 KiB of scratch window. -/
def spray : Spray :=
  { id := 3, pool := false, desc := BitVec.ofNat 2048 (256 * 2 ^ 8 + 3 * 2 ^ 24 + 9 * 2 ^ 40 + 4 * 2 ^ 104), via := .darinlink, pkt := {}, source := 5, tenant := 7, epoch := none, region := 1, total := 10 }
def prog (op : Nat) (f : Fields) (th : Thread) : State :=
  { live with eng := { live.eng with accords := [(256, { id := 256, tenant := 0xFFFF, code := [0, wordOf op f, 0], measurement := 0, signer := 0 })], sprays := [(3, spray)], threads := [(322, th)] } }
theorem its_accord : spray.field 23 8 = 256 := by decide +kernel
/-- Every instruction with every operand is ready to issue somewhere. -/
theorem ready (op : Nat) (f : Fields) (s4 s5 s6 : Word) (regs : List Nat) : Ready (prog op f (thread s4 s5 s6)) tr op f regs spray (thread s4 s5 s6) :=
  ⟨rfl, rfl, rfl, rfl, by unfold fetchWord; rw [its_accord]; rfl, fun _ _ h => nomatch h⟩
theorem may_access (op : Nat) (f : Fields) (s4 s5 s6 : Word) (pool release : Bool) : memHeld (prog op f (thread s4 s5 s6)) tr pool release = false := by cases pool <;> cases release <;> rfl
theorem no_tiles (op : Nat) (f : Fields) (s4 s5 s6 : Word) : threadTiles (prog op f (thread s4 s5 s6)) tr.engine tr.thread = [] := rfl
def fl (d a b : BitVec 5) (fn : BitVec 11) : Fields := { d := d, a := a, b := b, fn := fn }

theorem seven : (7 : BitVec 5).toNat < 8 := by decide
theorem fifteen : (15 : BitVec 5).toNat < 16 := by decide
/-- Immediates with b = 0 and a shift by 63; each function of POP and RDS, at the last predicate register and at p0. -/
theorem witness_ScalarInstructions (op : Nat) (s4 : Word) :
    (let f := fl 31 4 0 63; Ready (prog op f (thread s4 0 0)) tr op f [f.d.toNat, f.a.toNat] spray (thread s4 0 0) ∧ f.b = 0 ∧ f.fn.toNat < 64) ∧
    (∀ fn : BitVec 11, let f := fl 0 4 0 fn; Ready (prog 0x0C f (thread s4 0 0)) tr 0x0C f [f.a.toNat] spray (thread s4 0 0) ∧ f.d.toNat < 8 ∧ f.b = 0) ∧
    (∀ fn : BitVec 11, let f := fl 7 7 7 fn; Ready (prog 0x0C f (thread s4 0 0)) tr 0x0C f [] spray (thread s4 0 0) ∧ f.d.toNat < 8 ∧ f.a.toNat < 8 ∧ f.b.toNat < 8) ∧
    (∀ fn : BitVec 11, let f := fl 31 0 0 fn; Ready (prog 0x0D f (thread s4 0 0)) tr 0x0D f [f.d.toNat] spray (thread s4 0 0) ∧ f.a = 0 ∧ f.b = 0) :=
  ⟨⟨ready .., rfl, by decide⟩, fun _ => ⟨ready .., (by decide : (0 : BitVec 5).toNat < 8), rfl⟩, fun _ => ⟨ready .., seven, seven, seven⟩, fun _ => ⟨ready .., rfl, rfl⟩⟩
theorem witness_AluFunctions (s4 s5 : Word) : ∀ n < 19, let f := fl 3 4 5 (BitVec.ofNat 11 n)
    Ready (prog 0x01 f (thread s4 s5 0)) tr 0x01 f [f.d.toNat, f.a.toNat, f.b.toNat] spray (thread s4 s5 0) ∧ f.fn.toNat ≤ 0x12 :=
  fun n h => ⟨ready .., by simp only [fl, BitVec.toNat_ofNat]; omega⟩
theorem witness_ControlTransfers (op : Nat) (s4 s5 : Word) (fn : BitVec 11) :
    (let f := fl 0 4 5 fn; Ready (prog op f (thread s4 s5 0)) tr op f [f.a.toNat, f.b.toNat] spray (thread s4 s5 0) ∧ f.d = 0) ∧
    (let f := fl 0 4 0 0; Ready (prog 0x19 f (thread s4 s5 0)) tr 0x19 f [f.a.toNat] spray (thread s4 s5 0) ∧ f.b = 0 ∧ f.fn = 0) ∧
    ∀ d < 32, let f := fl (BitVec.ofNat 5 d) 4 5 fn; Ready (prog 0x16 f (thread s4 s5 0)) tr 0x16 f [] spray (thread s4 s5 0) ∧ f.d.toNat / 8 < 4 :=
  ⟨⟨ready .., rfl⟩, ⟨ready .., rfl, rfl⟩, fun d _ => ⟨ready .., by simp only [fl, BitVec.toNat_ofNat]; omega⟩⟩
theorem witness_ThreadControl (op : Nat) (s4 : Word) :
    (Ready (prog op (fl 0 0 0 0) (thread s4 0 0)) tr op (fl 0 0 0 0) [] spray (thread s4 0 0) ∧ threadTiles (prog op (fl 0 0 0 0) (thread s4 0 0)) tr.engine tr.thread = []) ∧
    (Ready (prog 0x1B (fl 0 0 0 255) (thread s4 0 0)) tr 0x1B (fl 0 0 0 255) [] spray (thread s4 0 0) ∧ (fl 0 0 0 255).fn.toNat < 256) ∧
    (Ready (prog 0x29 (fl 0 0 0 7) (thread s4 0 0)) tr 0x29 (fl 0 0 0 7) [] spray (thread s4 0 0) ∧ (fl 0 0 0 7).fn.toNat < 8) :=
  ⟨⟨ready .., rfl⟩, ⟨ready .., by decide⟩, ⟨ready .., by decide⟩⟩
theorem witness_IllegalWords :
    let th : Thread := { thread 0 0 0 with pc := 3 }
    threadOf? (prog 0x1D (fl 0 0 0 0) th) 5 2 = some th ∧ mayIssue (prog 0x1D (fl 0 0 0 0) th) tr th = true ∧ fetchWord (prog 0x1D (fl 0 0 0 0) th) spray th = none ∧
    (∀ op ∈ [0, 0x0E, 0x3F], fetchWord (prog op (fl 1 2 3 4) (thread 0 0 0)) spray (thread 0 0 0) = some (wordOf op (fl 1 2 3 4)) ∧ (wordOf op (fl 1 2 3 4)).toNat / 2 ^ 26 ∉ listedOps) ∧
    fetchWord (prog 0x1D (fl 0 0 0 1) (thread 0 0 0)) spray (thread 0 0 0) = some (wordOf 0x1D (fl 0 0 0 1)) ∧ (fl 0 0 0 1).fn ≠ 0 ∧ (fl 1 2 1 4).b ≠ 0 ∧ 0x12 < (fl 1 2 3 0x13).fn.toNat := by decide +kernel
/-- Eight and sixteen bytes at the end of the scratch window and of private memory, and beyond them. -/
theorem witness_local_bounds : ∀ x ∈ [(14, 4088, 4096), (22, 1048568, 1048576)], let f := fl 3 4 (BitVec.ofNat 5 x.1) 0
    (f.b.toNat / 8 = 1 ∧ x.2.2 = 4096 ∨ f.b.toNat / 8 = 2 ∧ x.2.2 = 2 ^ 20) ∧ 2 ^ (f.b.toNat / 2 % 4) = 8 ∧ f.b.toNat % 2 = 0 ∧ f.d.toNat < 16 ∧
    x.2.1 / 8 * 8 + 8 ≤ x.2.2 ∧ x.2.2 < x.2.2 / 8 * 8 + 8 ∧ x.2.1 - 8 + (64 - 16 * (f.b.toNat / 2 % 4)) ≤ x.2.2 ∧ x.2.2 < x.2.1 + (64 - 16 * (f.b.toNat / 2 % 4)) := by decide
theorem witness_local_accesses (op : Nat) (f : Fields) (a : Word) :
    Ready (prog op f (thread a 0 0)) tr op f [f.d.toNat, f.a.toNat] spray (thread a 0 0) ∧ memHeld (prog op f (thread a 0 0)) tr false false = false := ⟨ready .., may_access ..⟩
/-- Private memory gives data while its stack serves, and none to a chunk in use once no stack serves. -/
def unserved (s : State) : State := { s with mem := { s.mem with stackTab := [] } }
theorem witness_private_memory (op : Nat) (f : Fields) (th : Thread) :
    (∀ write, localFails (prog op f th) tr th 1 0 8 write = false) ∧ (th.privValid.getLsbD 0 = false → localFails (prog op f th) tr th 2 0 64 false = false) ∧
    localFails (unserved (prog op f th)) tr th 2 0 64 true = true := by
  refine ⟨fun _ => rfl, fun h => ?_, ?_⟩
  · unfold localFails privFails; rw [show List.range ((0 + 64 - 1) / 256 + 1) = [0] from rfl]; simp only [List.any_cons, List.any_nil, h]; rfl
  · unfold localFails privFails; simp [List.range_succ]; exact .inl rfl
theorem witness_scratch_groups (op : Nat) (s4 s5 : Word) :
    (let f := fl 3 4 5 512; Ready (prog op f (thread s4 s5 0)) tr op f [32 + f.d.toNat, f.a.toNat, f.b.toNat] spray (thread s4 s5 0) ∧ memHeld (prog op f (thread s4 s5 0)) tr false false = false ∧
      f.d.toNat < 16 ∧ f.fn.toNat / 512 = 1 ∧ f.fn.getLsbD 8 = false) ∧
    (let f := fl 3 4 5 (7 * 256 + 64); Ready (prog 0x26 f (thread s4 s5 0)) tr 0x26 f [f.d.toNat, f.a.toNat, f.b.toNat] spray (thread s4 s5 0) ∧ f.fn.toNat % 16 = 0 ∧ f.fn.toNat / 64 % 4 = 1) ∧
    (∀ l < 16, 4092 - 15 * 272 + l * 272 + 4 ≤ 4096) ∧ (∃ l < 16, 4096 < 4093 - 15 * 272 + l * 272 + 4) ∧ 4095 / 8 * 8 + 8 ≤ 4096 ∧ 4096 < 4096 / 8 * 8 + 8 :=
  ⟨⟨ready .., may_access .., by decide, by decide, by decide⟩, ⟨ready .., by decide, by decide⟩, by decide, ⟨15, by decide, by decide⟩, by decide, by decide⟩
theorem witness_PoolAccessesIssueTiles (op : Nat) (s4 s5 s6 : Word) (pool release : Bool) :
    memHeld (prog op (fl 3 4 6 1024) (thread s4 s5 s6)) tr pool release = false ∧
    (let f := fl 3 4 6 1024; Ready (prog op f (thread s4 s5 s6)) tr op f [f.d.toNat, f.a.toNat] spray (thread s4 s5 s6) ∧ f.b.toNat / 8 = 0 ∧ f.b.toNat % 2 = 0 ∧ f.d.toNat < 16) ∧
    (let f := fl 15 4 5 511; Ready (prog op f (thread s4 s5 s6)) tr op f [32 + f.d.toNat, f.a.toNat, f.b.toNat] spray (thread s4 s5 s6) ∧ f.fn.toNat / 512 = 0 ∧ f.d.toNat < 16) ∧
    (let f := fl 3 4 5 (7 * 256 + 48); Ready (prog 0x26 f (thread s4 s5 s6)) tr 0x26 f [f.d.toNat, f.a.toNat, f.b.toNat] spray (thread s4 s5 s6) ∧ f.fn.toNat % 16 = 0 ∧ f.fn.toNat / 64 % 4 = 0) ∧
    (let f := fl 3 4 6 1024; Ready (prog op f (thread s4 s5 s6)) tr op f [f.d.toNat, f.a.toNat, f.b.toNat] spray (thread s4 s5 s6) ∧ f.fn.toNat % 1024 = 0 ∧ (thread s4 s5 s6).tiles < 8) ∧
    (let b := 63 * 2 ^ 16 + 63 + 1000 * 2 ^ 32; bits b 31 22 = 0 ∧ bits b 15 9 = 0 ∧ 0 + (bits b 21 16 + 1) * (bits b 8 0 + 1) ≤ (thread s4 s5 s6).scratchBytes) :=
  ⟨may_access .., ⟨ready .., by decide, by decide, by decide⟩, ⟨ready .., by decide, by decide⟩, ⟨ready .., by decide, by decide⟩, ⟨ready .., by decide, (by decide : 0 < 8)⟩, (by decide +kernel : let b := 63 * 2 ^ 16 + 63 + 1000 * 2 ^ 32; bits b 31 22 = 0 ∧ bits b 15 9 = 0 ∧ 0 + (bits b 21 16 + 1) * (bits b 8 0 + 1) ≤ 4096)⟩
/-- A tile of one line at a PVA; the last byte of the canonical range. -/
def tile (base op : Nat) : Tile := { engine := 5, thread := 2, spray := 3, asid := 3, base := base, rows := 1, rowBytes := 8, stride := 0, op := op, use := .scalarLoad 3 8 false, bytes := List.replicate 8 0 }
theorem witness_canonical_tiles : (tile (2 ^ 57 - 8) 3).canonical = true ∧ (tile (2 ^ 57 - 7) 3).canonical = false := by decide +kernel
/-- ASID 3 maps unit 64, for reading. -/
def mapped (t : Tile) : State :=
  { live with eng := { live.eng with asids := [(3, { tenant := 7, leaves := [(64, { level := 1, frame := 5 * 2 ^ 24 + 64, read := true, write := false })] })], sprays := [(3, spray)], threads := [(322, thread 0 0 0)], tiles := [(4, t)], nextTile := 5, nextAccess := 9 } }
theorem witness_TilesTranslate : ∀ x ∈ [(64 * 65536 + 16, 3), (64 * 65536 + 16, 4), (65 * 65536 + 16, 3)], let t := tile x.1 x.2
    t.direct = false ∧ (t.pieces.map Piece.pva) = [x.1] ∧ (tget (mapped t).eng.tlb 5 []).find? (fun c => c.covers 3 (x.1 / 65536)) = none ∧ (collectOf (mapped t) 0).openRecs.length < 256 ∧
    (x.1 / 65536 = 64 → ((walk (mapped t) 3 64).map (fun w => (w.1, t.permitted w.2))) = some (64, decide (x.2 = 3))) ∧ (x.1 / 65536 = 65 → walk (mapped t) 3 65 = none) := by decide +kernel
theorem witness_TilesArePerformed : ∀ use ∈ [TileUse.tileLoad 100, .tileStore], let t := { tile 4194320 3 with use := use }
    tileOf? (mapped t) 4 = some t ∧ t.waitsOnFault = false ∧ t.left = 0 ∧ threadOf? (mapped t) t.engine t.thread = some (thread 0 0 0) := by decide +kernel
/-- FP32 and I32, every operation, and the formats and parts at their ends. -/
theorem witness_VectorArithmetic (s4 : Word) (op c : Nat) (h : op ≤ 9) (hc : c = 6 ∨ c = 7 ∨ c = 8 ∨ c = 9) :
    let f := fl 15 15 (if 8 ≤ op then 0 else 5) (BitVec.ofNat 11 (c * 128 + 7 * 16 + op))
    Ready (prog 0x30 f (thread s4 0 0)) tr 0x30 f [32 + f.d.toNat, 32 + f.a.toNat, 32 + f.b.toNat] spray (thread s4 0 0) ∧ f.fn.toNat / 128 = c ∧ f.fn.toNat % 16 = op ∧ f.d.toNat < 16 ∧ f.a.toNat < 16 ∧ f.b.toNat < 16 ∧ (8 ≤ op → f.b = 0) := by
  refine ⟨ready .., ?_, ?_, fifteen, fifteen, ?_, fun h => if_pos h⟩
  · simp only [fl, BitVec.toNat_ofNat]; omega
  · simp only [fl, BitVec.toNat_ofNat]; omega
  · simp only [fl]; split <;> decide
theorem witness_compare (s4 : Word) : let f := fl 7 15 15 (9 * 128 + 5); Ready (prog 0x31 f (thread s4 0 0)) tr 0x31 f [32 + f.a.toNat, 32 + f.b.toNat] spray (thread s4 0 0) ∧ f.d.toNat < 8 ∧ f.fn.toNat / 128 = 9 ∧ f.fn.toNat % 16 = 5 :=
  ⟨ready .., by decide, by decide, by decide⟩
theorem witness_VectorMoves (op : Nat) (s4 : Word) :
    (let f := fl 15 15 15 (9 * 128); Ready (prog 0x32 f (thread s4 0 0)) tr 0x32 f [32 + f.d.toNat, 32 + f.a.toNat, 32 + f.b.toNat] spray (thread s4 0 0) ∧ f.fn.toNat / 128 = 9 ∧ f.fn.toNat % 16 = 0) ∧
    (let f := fl 15 4 0 (9 * 128); Ready (prog 0x33 f (thread s4 0 0)) tr 0x33 f [32 + f.d.toNat, f.a.toNat] spray (thread s4 0 0) ∧ f.b = 0 ∧ f.fn.toNat / 128 < 10 ∧ f.fn.toNat % 128 = 0) ∧
    (let f := fl 15 4 0 (1 * 128 + 64 + 63); Ready (prog op f (thread s4 0 0)) tr op f [32 + f.d.toNat, f.a.toNat] spray (thread s4 0 0) ∧ f.fn.getLsbD 6 = true ∧ f.fn.toNat % 64 < elemCount (fmtD 1)) ∧
    (let f := fl 31 15 0 (9 * 128 + 15); Ready (prog op f (thread s4 0 0)) tr op f [f.d.toNat, 32 + f.a.toNat] spray (thread s4 0 0) ∧ f.fn.getLsbD 6 = false ∧ f.fn.toNat % 64 < elemCount (fmtD 9)) ∧
    (let f := fl 15 15 0 4; Ready (prog 0x35 f (thread s4 0 0)) tr 0x35 f [32 + f.d.toNat, 32 + f.a.toNat] spray (thread s4 0 0) ∧ f.fn.toNat < 5) ∧
    0x7F800000 < (0x7F800001 : BitVec 32).toNat % 2 ^ 31 ∧ 0x80000000 < (0x80000001 : BitVec 32).toNat ∧ (0xFF800000 : BitVec 32).toNat ≤ 0xFF800000 :=
  ⟨⟨ready .., by decide, by decide⟩, ⟨ready .., rfl, by decide, by decide⟩, ⟨ready .., by decide, by decide +kernel⟩, ⟨ready .., by decide, by decide +kernel⟩, ⟨ready .., by decide⟩, by decide, by decide, by decide⟩
theorem witness_ConversionsAndMxBlocks (s4 : Word) :
    (let f := fl 15 15 13 (1 * 128 + 1 * 8 + 3); Ready (prog 0x36 f (thread s4 0 0)) tr 0x36 f [32 + f.d.toNat, 32 + f.a.toNat] spray (thread s4 0 0) ∧ f.fn.toNat / 128 < 10 ∧ f.fn.toNat / 8 % 16 < 10 ∧
      f.b.toNat / 4 < elemCount (fmtD (f.fn.toNat / 128)) / 16 ∧ f.fn.toNat % 8 < elemCount (fmtD (f.fn.toNat / 8 % 16)) / 16) ∧
    (∀ n < 5, (mxFormat n).isSome = true → let f := fl 15 15 15 (BitVec.ofNat 11 (11 * 64 + (mxBlocks n - 1) * 16 + n)); f.fn.toNat % 8 = n ∧ f.fn.toNat / 16 % 4 < mxBlocks n ∧ f.fn.getLsbD 3 = false) ∧
    (mxFormat 0).isSome = true ∧ (∀ fn, Ready (prog 0x37 (fl 15 15 15 fn) (thread s4 0 0)) tr 0x37 (fl 15 15 15 fn) [32 + 15, 32 + 15, 32 + 15, fn.toNat / 64] spray (thread s4 0 0)) ∧
    ∀ fn, Ready (prog 0x38 (fl 15 15 0 fn) (thread s4 0 0)) tr 0x38 (fl 15 15 0 fn) [32 + 15, 32 + 15, fn.toNat / 64] spray (thread s4 0 0) :=
  ⟨⟨ready .., by decide, by decide, by decide +kernel, by decide +kernel⟩, by decide +kernel, by decide +kernel, fun _ => ready .., fun _ => ready ..⟩
theorem witness_RoundingAndExtension :
    (∀ c < 4, 2 ^ c ≤ 8) ∧ ∀ x ∈ [(1, (-1022 : Int)), (2 ^ 48 - 1, -1069), (1, 1023), (2 ^ 48 - 1, 976)], 0 < x.1 ∧ x.1 < 2 ^ 48 ∧ -1069 ≤ topExp x.1 x.2 - 47 ∧ topExp x.1 x.2 - 47 ≤ 0x7FE - 1070 := by decide +kernel
theorem witness_AccumulatorInstructions (op : Nat) (s4 : Word) :
    (∀ fmt < 16, ∀ d, dotFmt fmt = some d → let f := fl 3 15 15 (BitVec.ofNat 11 (fmt * 128 + 7 * 16)); f.fn.toNat / 128 = fmt ∧ f.fn.toNat % 16 = 0 ∧ f.a.toNat < 16 ∧ f.b.toNat < 16 ∧ f.d.toNat / 4 = 0) ∧
    (dotFmt 0).isSome = true ∧ (∀ f regs, Ready (prog 0x39 f (thread s4 0 0)) tr 0x39 f regs spray (thread s4 0 0)) ∧
    (∀ n < 9, n ≠ 7 → let f := fl 3 (if n = 0 then 0 else 3) 0 (BitVec.ofNat 11 ((if n = 1 ∨ n = 2 ∨ n = 3 then 8 else 0) * 128 + n)); f.fn.toNat % 16 = n ∧ (f.fn.toNat / 128 = 0 ∨ f.fn.toNat / 128 = 8) ∧ f.d.toNat < 4 ∧ f.a.toNat < 4 ∧ f.b = 0) ∧
    (∀ fmt ∈ [0, 1, 6, 7, 8, 9], let b := BitVec.ofNat 5 ((elemCount (fmtD fmt) / 16 - 1) * 4 + 3); b.toNat / 4 < elemCount (fmtD fmt) / 16) ∧
    (let f := fl 15 3 3 (9 * 128 + 31); Ready (prog op f (thread s4 0 0)) tr op f [32 + f.d.toNat] spray (thread s4 0 0) ∧ f.fn.toNat / 128 = 9 ∧ f.fn.toNat / 32 % 4 = 0) ∧
    (let f := fl 3 31 0 31; Ready (prog 0x3D f (thread s4 0 0)) tr 0x3D f [f.a.toNat] spray (thread s4 0 0) ∧ 16 ≤ f.fn.toNat ∧ f.fn.toNat < 32) ∧
    (let f := fl 31 3 0 15; Ready (prog 0x3D f (thread s4 0 0)) tr 0x3D f [f.d.toNat] spray (thread s4 0 0) ∧ f.fn.toNat < 16) :=
  ⟨fun fmt h d _ => (by decide : ∀ fmt < 16, let f := fl 3 15 15 (BitVec.ofNat 11 (fmt * 128 + 7 * 16)); f.fn.toNat / 128 = fmt ∧ f.fn.toNat % 16 = 0 ∧ f.a.toNat < 16 ∧ f.b.toNat < 16 ∧ f.d.toNat / 4 = 0) fmt h,
   by decide +kernel, fun _ _ => ready .., by decide +kernel, by decide +kernel, ⟨ready .., by decide, by decide⟩, ⟨ready .., by decide, by decide⟩, ⟨ready .., by decide⟩⟩

/-! ### Witnesses: launches, pool operations, accesses, faults, moves (O40 to O45) -/

/-- A launch of ten items of one group each, with affinity k: 0 by data, 2 by item, 3 by region (07, Table 7.2). -/
def launchDesc (k : Nat) : Line :=
  BitVec.ofNat 2048 (0x01 + 256 * 2 ^ 8 + 3 * 2 ^ 24 + 9 * 2 ^ 40 + 1 * 2 ^ 64 + 100 * 2 ^ 88 + 4 * 2 ^ 104 + 5 * 2 ^ 114 + k * 2 ^ 121 + (if k = 3 then 2 ^ 123 else 0) + (5 * 2 ^ 40 + 4 * 2 ^ 20 + 4096) * 2 ^ 128 +
    (64 * 65536) * 2 ^ 192 + 256 * 2 ^ 256 + 0x1111 * 2 ^ 512 + 0x2222 * 2 ^ 576)
def launchPacket : Packet := { opcode := 0x20, tenant := 7, address := 4 * 2 ^ 20, tag := 6 }
def launched (k : Nat) : Spray := { id := 3, pool := false, desc := launchDesc k, via := .darinlink, pkt := launchPacket, source := 5, tenant := 7, epoch := none, region := 1, total := 10, startStamp := 44 }
/-- Its accord and its address space are there, and the launch. -/
def pooled (p : Spray) : State :=
  { live with eng := { live.eng with
    accords := [(256, { id := 256, tenant := 0xFFFF, code := [0, 0, 0], measurement := 0, signer := 0 })]
    sprays := [(3, p)]
    asids := [(3, { tenant := 7, leaves := [(64, { level := 2, frame := 5 * 2 ^ 24 + 64, read := true, write := true })] })] } }
theorem witness_launches :
    sprayRefusal (pooled (launched 2)) 5 7 (launchDesc 2) = none ∧ 256 ≤ bits (launchDesc 2).toNat 23 8 ∧ (sprayRefusal (pooled (launched 2)) 5 8 (launchDesc 2)).isSome = true ∧
    sprayOf? (pooled (launched 2)) 3 = some (launched 2) ∧ tget? (launched 2).items 0 = none ∧ placedAhead (launched 2) 0 + (List.range (placedTogether (pooled (launched 2)) (launched 2) 0)).length ≤ 65536 ∧ (regFault (pooled (launched 3)) 1).fenced = false ∧
    placeEngine (pooled (launched 3)) (launched 3) 0 / 128 = 1 ∧ (regFault { pooled (launched 3) with fault := { regions := [(1, { fenced := true })] } } 1).fenced = true ∧
    (launched 3).field 122 121 = 3 ∧ (launched 2).field 122 121 = 2 ∧ (launched 0).field 122 121 = 0 ∧
    (let a := ((launched 0).field 248 192 + 1 * (launched 0).field 287 256) % 2 ^ 64
     a < 2 ^ 57 ∧ (ppaOf (pooled (launched 0)) (launched 0).asid a).isSome = true ∧ ((ppaOf (pooled (launched 0)) (launched 0).asid a).map (fun q => (q / 2 ^ 40, extentAt (pooled (launched 0)) (q % 2 ^ 40)))) = some (5, some 2)) ∧
    ppaOf (pooled (launched 0)) 4 0 = none := by decide +kernel
theorem all_placed (l : List Nat) : (l.map (fun i => (i, ItemState.placed 0))).filter (fun x => match x.2 with | .placed e => engRegion e == 0 | _ => false) = l.map (fun i => (i, ItemState.placed 0)) := by
  rw [List.filter_eq_self]
  intro x h
  obtain ⟨i, _, rfl⟩ := List.mem_map.mp h
  rfl
theorem placed_ahead (l : List Nat) : placedAhead { launched 2 with items := l.map (fun i => (i, .placed 0)) } 0 = l.length :=
  (congrArg List.length (all_placed l)).trans (List.length_map _)
theorem witness_placement_waits (s : State) : let p : Spray := { launched 2 with items := (List.range 65536).map (fun i => (i, .placed 0)) }
    65536 < placedAhead p 0 + (List.range (placedTogether s p 9)).length := by
  have h := (placed_ahead (List.range 65536)).trans List.length_range
  intro p
  show 65536 < placedAhead p 0 + 1
  rw [show placedAhead p 0 = 65536 from h]; omega
def placed0 : Spray := { launched 2 with items := [(0, .placed 0)] }
theorem witness_starts :
    freeThread (pooled placed0) 0 = some 0 ∧ nextStart (pooled placed0) 0 = some (3, placed0, 0) ∧ engineRuns (pooled placed0) 0 = true ∧
    scratchUsed (pooled placed0) 0 + scratchNeed placed0 ≤ 524288 := by decide +kernel
theorem witness_ends : ∀ ph ∈ [Phase.running, .ending, .failing { status := 0x84 }],
    let th := { thread 0 0 0 with phase := ph, startAt := 275000000 }
    let s := { pooled (launched 2) with eng := { (pooled (launched 2)).eng with threads := [(0, th)] } }
    threadOf? s 0 0 = some th ∧ sprayOf? s th.spray = some (launched 2) ∧ threadTiles s 0 0 = [] ∧ th.items = 1 ∧ (launched 2).field 103 88 = 100 ∧ th.startAt + 100 * 250000 ≤ s.time.clock := by decide +kernel
/-- All items ended, one failed; with its record written. -/
def ended (r : Option Line) : Spray :=
  { launched 2 with items := (List.range 10).map (fun i => (i, .ended 0)), completed := 9, failedCount := 1, firstFail := some (4, { status := 0x84, detail := 3, pva := 0x123456 }), endStamp := 66, record := r, recordWritten := r.isSome,
                    work := { resultsWritten := r.isSome } }
theorem witness_completion :
    sprayOf? (pooled (ended none)) 3 = some (ended none) ∧ sprayEnded (pooled (ended none)) 3 (ended none) = true ∧ (ended none).recordWritten = false ∧
    sprayEnded (pooled (ended (some 77))) 3 (ended (some 77)) = true ∧ (ended (some 77)).record = some 77 ∧ (ended (some 77)).answered = false ∧ (ended (some 77)).cancelWaits = [] := by decide +kernel
/-- A pool operation of a kind: destination, source, second source and index 64 KiB, 0, 4 KiB and 8 KiB into unit 64. -/
def poolDesc (kind extra : Nat) : Line :=
  BitVec.ofNat 2048 (kind + 3 * 2 ^ 24 + 9 * 2 ^ 40 + (64 * 65536 + 2 ^ 16) * 2 ^ 192 + (64 * 65536) * 2 ^ 256 + (64 * 65536 + 4096) * 2 ^ 320 + (64 * 65536 + 8192) * 2 ^ 384 + extra)
def poolOp (kind extra : Nat) : Spray := { launched 2 with pool := true, desc := poolDesc kind extra, pkt := { launchPacket with opcode := 0x21 } }
def item (computed : Bool) (items : Nat) (got : Tab Line) (units : List (Nat × Nat × Line)) : Thread := { thread 0 0 0 with item := 2, computed := computed, items := items, got := got, units := units }
def running (p : Spray) (th : Thread) : State := { pooled p with eng := { (pooled p).eng with threads := [(322, th)] } }
theorem witness_pool_items : ∀ kind ∈ [0x10, 0x11, 0x12, 0x13, 0x14, 0x15, 0x16, 0x17, 0x18, 0x19],
    let s := running (poolOp kind 0) (item false 1 [] [])
    threadOf? s 5 2 = some (item false 1 [] []) ∧ sprayOf? s 3 = some (poolOp kind 0) ∧ mayIssue s tr (item false 1 [] []) = true ∧ threadTiles s 5 2 = [] ∧ bits (poolDesc kind 0).toNat 7 0 = kind ∧
    itemOutOfRange (poolDesc kind 0) 2 [] = false := by decide +kernel
theorem witness_pool_lines : itemLacks (poolDesc 0x11 0) (4 * 2 ^ 20) 2 [] = [] ∧ itemLacks (poolDesc 0x12 0) (4 * 2 ^ 20) 2 [] = [16386] ∧ itemOutOfRange (poolDesc 0x18 0) 2 [(16416, BitVec.allOnes 2048)] = true := by decide +kernel
/-- A descriptor with no bit set that its kind does not use; and an ended operation of a kind. -/
def plainDesc (kind extra : Nat) : Line := BitVec.ofNat 2048 (kind + 3 * 2 ^ 24 + (64 * 65536 + 2 ^ 16) * 2 ^ 192 + (64 * 65536) * 2 ^ 256 + extra)
def digestDesc : Line := BitVec.ofNat 2048 (0x19 + 2 * 2 ^ 192 + 2 ^ 208)
def endedPool (kind extra : Nat) (done : Bool) : Spray :=
  { ended none with pool := true, desc := poolDesc kind extra, base := 4 * 2 ^ 20, work := { resultsWritten := done, merged := [true, false, true, false], values := [5, 0, 7, 0] } }
theorem witness_pool_launches :
    (∀ kind ∈ [0x12], poolRefusal (pooled (launched 2)) 5 7 (plainDesc kind 0) = none ∧ bits (plainDesc kind 0).toNat 7 0 = kind) ∧
    poolRefusal (pooled (launched 2)) 5 7 (poolDesc 0x12 0) = some 0x40 ∧ poolRefusal (pooled (launched 2)) 5 8 (plainDesc 0x12 0) = some 0x44 ∧
    poolRefusal (pooled (launched 2)) 5 7 (plainDesc 0x12 (2 ^ 192)) = some 0x60 ∧ poolRefusal (pooled (launched 2)) 5 7 (plainDesc 0x12 (300 * 2 ^ 448)) = some 0x61 ∧
    poolRefusal (pooled (launched 2)) 5 7 digestDesc = some 0x63 ∧ poolRefusal (setExtent (pooled (launched 2)) 2 { ext2 with measured := true }) 5 7 digestDesc = none ∧ descOk (plainDesc 0x1A 0) = false := by decide +kernel
theorem witness_pool_records : ∀ x ∈ [(0x13, 0), (0x14, 2 ^ 482 + 6 * 2 ^ 476), (0x14, 2 ^ 482 + 7 * 2 ^ 476), (0x14, 0), (0x17, 0), (0x19, 0)], let p := endedPool x.1 x.2 true
    sprayEnded (pooled p) 3 p = true ∧ p.record = none ∧ p.recordWritten = false ∧ bits p.desc.toNat 7 0 = x.1 ∧ p.base % 2 ^ 21 = 0 ∧ bit p.desc.toNat 482 = decide (2 ^ 482 ≤ x.2) ∧ p.completed ≠ p.total ∧
    (let q := { p with completed := 10, failedCount := 0 }; sprayEnded (pooled q) 3 q = true ∧ q.completed = q.total) := by decide +kernel
theorem witness_search_lists :
    let p := endedPool 0x17 0 false
    let s := setDir (pooled p) 16 { st := .em, sharers := [1], ownerSlot := 1 }
    let u := modSpray s 3 (fun p => { p with work := { p.work with resultsWritten := true } })
    sprayEnded s 3 p = true ∧ p.work.resultsWritten = false ∧ bits p.desc.toNat 468 465 + 1 = 1 ∧ p.work.queryInvalid.getLsbD 0 = false ∧
    ((sprayOf? (storeAt u 3 p (bits p.desc.toNat 376 320) (listBytes 1 (mergedList p.desc p.work 0))) 3).map (fun q => decide (q.stores ≠ 0))) = some true ∧
    writableOffset s p.asid (64 * 65536 + 16) = some (4 * 2 ^ 20 + 16) ∧ (4 * 2 ^ 20 + 16) % 256 = (64 * 65536 + 16) % 256 ∧ writableOffset s p.asid 16 = none := by decide +kernel
theorem witness_scores :
    quantizeQuery 0 [.nan] = none ∧ (quantizeQuery 0 [.fin false 3 0]).isSome = true ∧ (quantizeQuery 7 [.fin false 3 0]).isSome = true ∧
    gotWord [(16416, 5)] (16416 * 256) = some 5 ∧ bit (poolDesc 0x17 (2 ^ 464)).toNat 464 = true ∧ bit (poolDesc 0x17 0).toNat 464 = false ∧
    (∀ x ∈ (List.range 4).flatMap (fun a => tget ([(0, [(0x3F800000, 7)]), (16, [(0x40000000, 9)])] : Tab (List (BitVec 32 × Nat))) (a * 16) []), decodeElem fp32 x.1.toNat ≠ .nan) ∧
    (let d := poolDesc 0x18 0; gotWord [(16416, 3)] (bits d.toNat 440 384 + 4 * (0 / (bits d.toNat 709 704 + 1))) = some 3 ∧ gotWord [(16416, 0)] (bits d.toNat 440 384) = some 0) := by decide +kernel
theorem witness_merges :
    (∀ kind ∈ [0x13, 0x14, 0x17, 0x19], let th := item true 1 [] []
      let s := running (poolOp kind (2 ^ 482 + 6 * 2 ^ 476)) th
      mergesItems (poolDesc kind (2 ^ 482 + 6 * 2 ^ 476)) = true ∧ th.item ∉ (poolOp kind 0).commits ∧ mayIssue s tr th = true ∧ threadTiles s 5 2 = [] ∧ th.computed = true) ∧
    (tget? ([(16386, 5), (16402, 6)] : Tab Line) (bits (poolDesc 0x13 0).toNat 312 256 / 256 + 2) = some 5 ∧ tget? ([(16386, 5), (16402, 6)] : Tab Line) (bits (poolDesc 0x13 0).toNat 376 320 / 256 + 2) = some 6) := by decide +kernel
/-- What items of COPY, GATHER, SCATTER and REDUCE have read. -/
theorem witness_pool_units :
    (let d := poolDesc 0x12 0; bits d.toNat 312 256 % 256 = 0 ∧ (tget? ([(16386, 5)] : Tab Line) (bits d.toNat 312 256 / 256 + 2)).isSome = true) ∧
    (let d := poolDesc 0x15 (2 * 2 ^ 472)
     let g : Tab Line := [(16386, 5555), (16416, BitVec.ofNat 2048 12), (16384 + 12 * 3 + 2 % 3, 1234)]
     bits d.toNat 440 384 % 4 = 0 ∧ bits d.toNat 475 472 + 1 = 3 ∧ tget? g ((bits d.toNat 440 384 + 4 * (2 / 3)) / 256) = some (BitVec.ofNat 2048 12) ∧ tget? g (bits d.toNat 312 256 / 256 + (12 * 3 + 2 % 3)) = some 1234 ∧
      tget? g (bits d.toNat 312 256 / 256 + 2) = some 5555) ∧
    (∀ m ∈ [6, 7, 8, 9], let d := poolDesc 0x14 (m * 2 ^ 476)
     bits d.toNat 482 482 = 0 ∧ bits d.toNat 479 476 = m ∧ bits d.toNat 376 320 % 256 = 0 ∧ (tget? ([(16386, 5), (16402, 6)] : Tab Line) (bits d.toNat 376 320 / 256 + 2)).isSome = true) := by decide +kernel
theorem witness_pool_commits :
    (∀ x ∈ [(0x10, 512, 1), (0x12, 2 ^ 57, 1)], let th := item true x.2.2 [] [(2, x.2.1, 99)]
      mergesItems (poolDesc x.1 0) = false ∧ unitsLeft (poolOp x.1 0) th = [(4, x.2.1, 99)] ∧ x.2.1 % 256 = 0 ∧ mayIssue (running (poolOp x.1 0) th) tr th = true) ∧
    unitsLeft (poolOp 0x10 0) (item true 1 [] []) = [] ∧
    (let th := { item true 16 [] [] with item := 16 }
     (unitsLeft (poolOp 0x11 0) th).length = 16 ∧ (unitsLeft (poolOp 0x11 0) th).head? = some (16, 64 * 65536 + 2 ^ 16 + 4096, 0) ∧ (64 * 65536 + 2 ^ 16 + 4096) % 4096 = 0) ∧
    (∀ kind ∈ [0x13, 0x17, 0x19], mergesItems (poolDesc kind 0) = true) ∧ (item true 1 [] []).item ∉ (poolOp 0x13 0).commits ∧
    (item true 1 [] []).item ∈ ({ poolOp 0x13 0 with commits := [2] } : Spray).commits := by decide +kernel
/-- One access of a tile of a thread. -/
def access (op ppa : Nat) (st : AccState) : Access := { tile := 4, ppa := ppa, pva := 64 * 65536 + 16, op := op, count := 8, payload := 77, st := st }
def accessing (t : Tile) (a : Access) : State :=
  { pooled spray with eng := { (pooled spray).eng with threads := [(322, thread 0 0 0)], tiles := [(4, t)], accesses := [(9, a)], nextTile := 5, nextAccess := 10 } }
def oneLine : Tile := { tile (64 * 65536 + 16) 3 with left := 1 }
theorem witness_local_access : ∀ x ∈ [(0x03, 1), (0x04, 2), (0x08, 2), (0x10, 3), (0x17, 3)],
    let s := accessing oneLine (access x.1 (5 * 2 ^ 40 + 4 * 2 ^ 20 + 16) .waiting)
    accessOf? s 9 = some (access x.1 (5 * 2 ^ 40 + 4 * 2 ^ 20 + 16) .waiting) ∧ tileOf? s 4 = some oneLine ∧ oneLine.waitsOnFault = false ∧ mustFollow s 9 (access x.1 (5 * 2 ^ 40 + 4 * 2 ^ 20 + 16) .waiting) oneLine false = false ∧
    (regionOf s (homeRegion s (4 * 2 ^ 20 + 16))).engineQ.length < 1024 ∧ extentAt s (4 * 2 ^ 20 + 16) = some 2 ∧ (extentRefusal s x.1 (2 ^ 30) 5 7).isSome = true ∧
    (rightsOf (extentOf s 2).access (fun _ => true) 5) &&& x.2 = x.2 ∧ extentRefusal s x.1 (4 * 2 ^ 20) 5 7 = none := by decide +kernel
theorem witness_zero_block :
    let x := { access 0x08 (5 * 2 ^ 40 + 4 * 2 ^ 20 + 4096) .waiting with count := 4096 }
    let t := { oneLine with op := 8, rows := 16, rowBytes := 256, use := .zeroBlock 32, base := 64 * 65536 }
    let s := setExtent (accessing t x) 2 { ext2 with coherent := false }
    (extentOf s 2).coherent = false ∧ mustFollow s 9 x t false = false ∧ (∀ i < 16, quietLine s (4 * 2 ^ 20 + 4096 + 256 * i) = true) ∧
    sabAt s (mapOffset (extentOf s 2) (4 * 2 ^ 20 + 4096)).lstack (mapOffset (extentOf s 2) (4 * 2 ^ 20 + 4096)).stripe = none := by decide +kernel
theorem witness_queue_room :
    let q : Req := { origin := .engine 9, op := 3, offset := 4 * 2 ^ 20 + 16, source := 5, tenant := 7, counted := false }
    let u : Req := { q with origin := .sprayStore 3 1 }
    let s := modRegion (accessing oneLine (access 3 (5 * 2 ^ 40 + 4 * 2 ^ 20 + 16) .inModule)) (homeRegion live (4 * 2 ^ 20 + 16)) (fun y => { y with engineHeld := [q, u] })
    (regionOf s (homeRegion live (4 * 2 ^ 20 + 16))).engineHeld = [q, u] ∧ q.access = some 9 ∧ extentRefusal s 3 (4 * 2 ^ 20 + 16) 5 7 = none ∧ homeRegion s q.offset = homeRegion live (4 * 2 ^ 20 + 16) ∧
    (extentRefusal s 3 (2 ^ 30) 5 7).isSome = true ∧ u.access = none := by decide +kernel
def forward : Forward := { region := 0, tag := 4, endpoint := 6, engine := 5, thread := 2, gen := 0, access := 9 }
theorem witness_remote_access :
    (let s := accessing oneLine (access 3 (6 * 2 ^ 40 + 64) .waiting)
     (access 3 (6 * 2 ^ 40 + 64) .waiting).ppa / 2 ^ 40 ≠ selfId s ∧ mustFollow s 9 (access 3 (6 * 2 ^ 40 + 64) .waiting) oneLine true = false ∧ freeTag s 0 6 = some 0 ∧ (tenantOf? s spray.tenant).isSome = true ∧
     (access 3 (6 * 2 ^ 40 + 64) .waiting).ppa % 8 = 0 ∧ (access 3 (6 * 2 ^ 40 + 64) .waiting).count % 8 = 0) ∧
    accessOf? (accessing oneLine (access 3 (6 * 2 ^ 40 + 64) (.backoff 4 77 300000000))) 9 = some (access 3 (6 * 2 ^ 40 + 64) (.backoff 4 77 300000000)) ∧ 300000000 ≤ live.time.clock ∧
    accessOf? (accessing oneLine (access 3 (6 * 2 ^ 40 + 64) (.remote 4 287500000))) 9 = some (access 3 (6 * 2 ^ 40 + 64) (.remote 4 287500000)) ∧ 287500000 + 12500000 ≤ live.time.clock ∧
    ({ oneLine with use := .itemUnit 3 } : Tile).waitsOnFault = false := by decide +kernel
theorem no_free (p : Nat → Bool) (n i : Nat) (h : ∀ j < i + n, p j = false) : firstFree n i p = none := by
  induction n generalizing i with
  | zero => rfl
  | succ n ih =>
    unfold firstFree
    rw [h i (by omega), ih (i + 1) (fun j hj => h j (by omega))]; rfl
theorem witness_no_free_tag : freeTag { live with eng := { live.eng with forwards := (List.range 16384).map (fun n => { forward with tag := n }) } } 0 6 = none := by
  unfold freeTag
  rw [no_free _ 16384 0]
  · rfl
  · intro j hj
    simp only [List.any_map, Bool.not_eq_false', List.any_eq_true]
    exact ⟨j, List.mem_range.mpr (by omega), by simp [forward]⟩
theorem witness_remote_answers :
    let s := { accessing oneLine (access 3 (6 * 2 ^ 40 + 64) (.remote 4 77)) with eng := { (accessing oneLine (access 3 (6 * 2 ^ 40 + 64) (.remote 4 77))).eng with forwards := [forward] } }
    hubRuns s = true ∧ (duplicate s 6 99).1 = false ∧ s.eng.forwards.find? (fun f => f.tag == 4 && f.endpoint == 6) = some forward ∧ s.eng.forwards.find? (fun f => f.tag == 5 && f.endpoint == 6) = none ∧
    forward.held = false ∧ (logEngOf s 5).gen = 0 ∧ unprotectedStatus 3 = true ∧ accessOf? s forward.access = some (access 3 (6 * 2 ^ 40 + 64) (.remote 4 77)) ∧
    oneLine.thread ≠ 64 ∧ oneLine.use = .scalarLoad 3 8 false ∧ oneLine.op = 3 ∧ oneLine.left = 1 ∧ oneLine.failed = false ∧ oneLine.bytes.length = 8 ∧ (thread 0 0 0).phase = .running ∧ oneLine.direct = false := by decide +kernel
theorem witness_sealed_answer (op st gen : Nat) :
    let p : Packet := { opcode := op, encrypted := true, tag := 4, tenant := 7, source := 6, dest := 5, vc := 4, roleGen := gen, status := st, msgCounter := 99 }
    openPacket live (protect 1 p) = .plain (protect 1 p) 0 := live_opens _ rfl rfl rfl
/-- A tile that waits on its fault. -/
def faulted (since : Nat) : Tile := { oneLine with st := .faulted none since false 99 }
def faultRecord : FaultRec := faultRec 4 (faulted 100) 99 1 false
def faulting (since : Nat) (b : List Batch) (ring : Option FaultRing) : State :=
  { pooled spray with eng := { (pooled spray).eng with threads := [(322, thread 0 0 0)], tiles := [(4, faulted since)], collect := [(0, { openRecs := [faultRecord], openSince := 299995000, waiting := [faultRecord] })], batches := b, batchSeq := 7, ring := ring } }
theorem witness_fault_batches :
    (let s := faulting 100 [] none
     (collectOf s 0).openRecs.length ≤ 256 ∧ (collectOf s 0).openRecs ≠ [] ∧ (collectOf s 0).openSince + 5000 ≤ s.time.clock ∧ ((collectOf s 0).openRecs.map (·.tile)).Nodup ∧ tileOf? s faultRecord.tile = some (faulted 100)) ∧
    (let b : Batch := { seq := 7, region := 0, firstStamp := 3, recs := [faultRecord] }
     ∀ o ∈ [4 * 2 ^ 20, 2 ^ 30], let s := faulting 100 [b] (some { offset := o, slots := 4, head := 1 })
      nextBatch s = some b ∧ (∀ x ∈ s.eng.batches, x.slot ≠ some 1) ∧ (∀ l ∈ batchLines s b, quietLine s (o + 16384 * 1 + l.1) = true) ∧
      (o = 4 * 2 ^ 20 → extentAt s (o + 16384) = some 2 ∧ (extentOf s 2).st = .granted ∧ rightsOf (extentOf s 2).access (fun _ => true) (selfId s) &&& 3 = 3) ∧ (o = 2 ^ 30 → extentAt s (o + 16384) = none)) ∧
    (∀ since ∈ [275000000, 275000001], tileOf? (faulting since [] none) 4 = some (faulted since) ∧ (faulting since [] none).eng.timeouts = [] ∧
      (since = 275000000 → since + timeoutAt (faulting since [] none) since * 250000 ≤ live.time.clock) ∧ (since = 275000001 → live.time.clock < since + timeoutAt (faulting since [] none) since * 250000)) := by decide +kernel
theorem witness_invalidation :
    let v : Inval := { id := 3, asid := 3, pva := 0, size := 65536, waits := some order, acked := List.range 511, destroy := true }
    let s := { live with eng := { live.eng with invals := [v] } }
    511 ∉ v.acked ∧ drained s 511 3 = true ∧ v.acked.length = 511 ∧ ({ v with acked := [1] } : Inval).acked.length < 512 := by decide +kernel
/-- A move of engine 5 under way; and no spare left in region 0. -/
def moving (since : Nat) : State := modPhys (modLogEng live 5 (fun l => { l with move := some { spare := 4, since := since } })) 0 4 (fun p => { p with active := true })
def noSpare : State := (List.range 144).foldl (fun s i => if (servedLogical s 0 i).isNone then modPhys s 0 i (fun p => { p with fenced := true }) else s) live
theorem witness_moves :
    (logEngOf live 5).move = none ∧ (physOf live 0 (logEngOf live 5).phys).fenced = false ∧ moveRetry live 5 ≤ live.time.clock ∧ (spareFor live 0 (logEngOf live 5).phys).isSome = true ∧ spareFor noSpare 0 (logEngOf noSpare 5).phys = none ∧
    (logEngOf (moving 300000000) 5).move = some { spare := 4, since := 300000000 } ∧ movesafe (moving 300000000) 5 = true ∧ (logEngOf (moving 300000000) 5).adoptedBy = none ∧
    (let s := { moving 299987500 with eng := { (moving 299987500).eng with threads := [(322, thread 0 0 0)], tiles := [(4, oneLine)] } }
     299987500 + 12500 ≤ s.time.clock ∧ movesafe s 5 = false) := by decide +kernel
theorem witness_moves_that_wait :
    (let s := { modLogEng live 5 (fun l => { l with adoptedBy := some 6 }) with fault := { live.fault with out := [{ hub := false, region := 0, unit := unitId Kind.engine (logEngOf live 5).phys, withheld := true }] } }
     (logEngOf s 5).adoptedBy.isSome = true ∧ moveWithheld s 5 = true ∧ moveWithheld (modLogEng live 5 (fun l => { l with adoptedBy := some 6 })) 5 = false) ∧
    (let s := { live with fault := { live.fault with drydown := some { seq := 4, unit := 7, cause := 0x40, cls := 2 } } }
     (logEngOf s 5).adoptedBy = none ∧ recordPending s = true ∧ recordPending live = false) := by decide +kernel
theorem witness_failures : ∀ s ∈ [live, noSpare], let i := (logEngOf s 5).phys
    let s1 := modPhys s 0 i (fun p => { p with fenced := true, active := false, underTest := false })
    i < 144 ∧ (physOf s 0 i).fenced = false ∧ servedLogical s 0 i = some 5 ∧ (regFault s 0).fence = none ∧ engineThreads s 5 = [] ∧ ((spareFor s1 0 i).isSome = true ∨ (spareFor s1 0 i = none ∧ (adopterOf s1 5).isSome = true)) := by decide +kernel

/-! ### Witnesses: orders (O46 to O52) -/

/-- An order of the manager of plane A, without protection: only MGMT_KEY_AGREE passes so. -/
def order1 : OrderHdr := { via := .genura 0, source := 900, master := 1, tag := 4, seq := 6, encrypted := false }
theorem witness_OrderChecksInOrder :
    senderMaster live order = some 3 ∧ senderMaster live { order with master := 1 } = none ∧ ({ live with hub := { live.hub with orderService := false } } : State).hub.orderService = false ∧
    (masterOf (modMaster live 3 (fun m => { m with outstanding := 16 })) 3).outstanding = 16 ∧ (masterOf live 3).outstanding < 16 ∧
    takeSeq (masterOf (modMaster live 3 (fun m => { m with highest := some 6 })) 3) order.seq = none ∧ (takeSeq (masterOf live 3) order.seq).isSome = true ∧
    orderRight 0x9999 = none ∧ orderRight 0x0100 = some .owner ∧ live.hub.owner = some 3 ∧ live.hub.owner ≠ some 0 ∧ (senderMaster live order1 = some 1) ∧
    servedInHalt 0x0100 = false ∧ servedInHalt 0x0180 = true := by decide +kernel
theorem witness_sequence_numbers :
    (2 ^ 32 - 3 + (2 ^ 31 - 1)) % 2 ^ 32 < 2 ^ 32 ∧ (2 ^ 32 - 3 + 64) % 2 ^ 32 = 61 ∧ 2 ^ 32 - 3 = ((2 ^ 32 - 67) + 64) % 2 ^ 32 ∧
    (takeSeq { highest := some (2 ^ 32 - 3), marks := [2 ^ 32 - 67] } (2 ^ 32 - 67)).isSome = false ∧ (takeSeq { highest := some (2 ^ 32 - 3) } (2 ^ 32 - 67)).isSome = true ∧
    (takeSeq { highest := some (2 ^ 32 - 3) } ((2 ^ 32 - 3 + (2 ^ 31 - 1)) % 2 ^ 32)).isSome = true := by decide
/-- A Darinlink order of master 3, number 6, by its first 16 bytes and its parameters. -/
def low (code reserved : Nat) : Nat := code + 3 * 2 ^ 32 + 6 * 2 ^ 96 + reserved * 2 ^ 34
def params : List Byte := [9, 0, 0x34, 0x02] ++ List.replicate 236 0
theorem witness_OrderMessages :
    (∀ x ∈ [(0x130, 0), (0x130, 1), (0x999, 0)], low x.1 x.2 < 2 ^ 128 ∧ params.length = 240 ∧ bits (low x.1 x.2) 15 0 = x.1 ∧ bits (low x.1 x.2) 33 32 = 3 ∧ (bits (low x.1 x.2) 95 34 = 0 ↔ x.2 = 0)) ∧
    (orderRow order 0x130).isSome = true ∧ (orderRow order 0x999).isNone = true ∧ ((orderRow order 0x130).map (fun r => unusedZero params r.sizes)) = some true ∧
    (orderRefusal live order 0x130 (fun _ => none) true).1 = none ∧ (orderRefusal live order 0x130 (fun _ => none) false).1 = some 0x16 ∧ (orderRefusal live order 0x999 (fun _ => none) false).1 = some 0xC2 ∧
    (∀ i < 240, i ≠ 0 → i ≠ 2 → i ≠ 3 → params.getD i 0 = 0) ∧ order.via = .darinlink ∧ order.seq < 2 ^ 32 ∧
    (∀ x ∈ [(0x100, 31), (0xFFF8, 0)], x.1 % 8 = 0 ∧ x.1 % 256 + 8 * (x.2 + 1) ≤ 256 ∧ x.1 + 8 * (x.2 + 1) ≤ 65536) ∧ ¬(0x108 % 256 + 8 * (31 + 1) ≤ 256) := by decide +kernel
/-- Order packets of the manager of plane A, and the module holding a key of that manager. -/
def orderPacket (vc : Nat) : Packet := { opcode := 0x38, vc := vc, tag := 4, source := 900, dest := 5, length := 31, payload := some (bytesLine (leBytes 2 0x0007)) }
def keyed : State := { live with hub := { live.hub with mgmtKeys := [(1, { key := 5, wrap := 6, epoch := 2, agreedAt := 3 })] } }
theorem fails_to_open (key : Key) (p : Packet) (h : p.payload = none) : unprotect key { protect key p with gcmTag := (protect key p).gcmTag + 1 } = none := by
  have hp : (protect key p).payload = none := by simp only [protect, h, Option.map_none]
  have hi : packetIv (protect key p) = packetIv p := rfl
  have ha : packetAad (protect key p) = packetAad { p with encrypted := true } := rfl
  have ht : gcmTag key (packetIv p) (packetAad { p with encrypted := true }) [] = (protect key p).gcmTag := by simp only [protect, h]; rfl
  rw [← hi, ← ha] at ht
  generalize protect key p = q at *
  refine if_neg ?_
  show gcmTag key (packetIv q) (packetAad q) (match q.payload with | some l => lineBytes l | none => []) ≠ q.gcmTag + 1
  simp only [hp, ht]
  intro e
  have h1 : q.gcmTag + 1 - q.gcmTag = 1 := by rw [BitVec.add_comm, BitVec.add_sub_cancel]
  rw [← e, BitVec.sub_self] at h1
  exact absurd h1 (by decide)
theorem witness_fabric_orders :
    let sealed := protect 5 { orderPacket 6 with payload := none }
    hubRuns keyed = true ∧ (orderPacket 6).opcode = 0x38 ∧ (orderPacket 5).vc ≠ 6 ∧ (orderPacket 6).encrypted = false ∧ bits ((orderPacket 6).payload.getD 0).toNat 15 0 = 0x0007 ∧
    senderMaster keyed order1 = some 1 ∧ senderMaster keyed { order1 with source := 901 } = none ∧ mgmtKey keyed 1 1 = none ∧ mgmtKey keyed 1 0 = some 5 ∧ sealed.vc = 6 ∧ sealed.encrypted = true ∧
    unprotect 5 sealed = some sealed ∧ unprotect 5 { sealed with gcmTag := sealed.gcmTag + 1 } = none :=
  ⟨rfl, rfl, by decide, rfl, by decide +kernel, by decide +kernel, by decide +kernel, by decide +kernel, by decide +kernel, rfl, rfl, opens 5 _ rfl, fails_to_open 5 _ rfl⟩
theorem witness_orders_held :
    orderWaits { live with hub := { live.hub with exchangeSince := some 299999000 } } 0x0100 = true ∧
    (let s := modBist live 4 (fun b => { b with current := some (unitId Kind.securityCore 0, 0, 3, 4) }); orderWaits s 0x0120 = true ∧ orderWaits s 0x0100 = false) := by decide +kernel
/-- Every order of the statements passes its checks where its master has the right to it. -/
def orderCodes : List Nat :=
  [0x0001, 0x0002, 0x0003, 0x0004, 0x0005, 0x0006, 0x0100, 0x0101, 0x0102, 0x0103, 0x0104, 0x0105, 0x0110, 0x0111, 0x0120, 0x0121, 0x0122, 0x0123, 0x0124, 0x0125, 0x0126, 0x0130, 0x0131, 0x0132, 0x0133, 0x0134, 0x0135,
   0x0140, 0x0141, 0x0142, 0x0150, 0x0151, 0x0152, 0x0153, 0x0154, 0x0155, 0x0160, 0x0161, 0x0162, 0x0163, 0x0164, 0x0165, 0x0166, 0x0167, 0x0168, 0x0169, 0x016A, 0x016B, 0x016C, 0x016D, 0x016E, 0x0170, 0x0171, 0x0172,
   0x0180, 0x0181, 0x0190, 0x0191, 0x0192, 0x01A0, 0x01A1]
theorem codes_pass : ∀ code ∈ orderCodes, (orderRefusal live order code (headerRefusal live order code) true).1 = none := by decide +kernel
theorem codes_wait : ∀ code ∈ orderCodes, orderWaits live code = false := by decide +kernel
theorem witness_orders_pass : ∀ code ∈ orderCodes, ∃ s1, Passes live order code s1 := fun code h => ⟨_, passes live order code rfl (codes_wait code h) (codes_pass code h)⟩
theorem witness_master1_passes : (∃ s1, Passes live order1 0x0007 s1) ∧ senderMaster live order1 = some 1 := ⟨⟨_, passes live order1 0x0007 rfl (by decide +kernel) (by decide +kernel)⟩, by decide +kernel⟩
theorem witness_ReadingOrders :
    (extentAt live (4 * 2 ^ 20)).isSome = true ∧ extentAt live (2 ^ 30) = none ∧ extentAt live (896 * 2 ^ 30 - 1) = none ∧ (extentOf live 2).coherent = true ∧ (extentOf (setExtent live 2 { ext2 with coherent := false }) 2).coherent = false ∧
    asidLive (mapped (tile 0 3)) 3 = true ∧ asidLive live 3 = false ∧ (leafAt (spaceOf (mapped (tile 0 3)) 3) 64).isSome = true ∧ (5 * 2 ^ 24 + 64 : Nat) < 2 ^ 36 ∧ (sprayOf? (mapped (tile 0 3)) 3).isSome = true ∧ sprayOf? live 3 = none ∧
    senderMaster live order = some 3 ∧ (masterOf live 3).wait = none ∧ (masterOf (modMaster live 3 (fun x => { x with wait := some (order, 50000000) })) 3).wait = some (order, 50000000) ∧ 50000000 + 250000000 ≤ live.time.clock ∧
    64 + 960 ≤ 65536 ∧ ¬(4 % 8 = 0) ∧ ¬(flashOut live = true) := by decide +kernel
theorem witness_OrdersWaitForTheTick :
    let x : Extent := { access := anyone, physBase := 900, size := 2, base := 20, tenant := 7, kind := 2, measured := true }
    let s := { live with eng := { live.eng with asids := [(3, { tenant := 7, leaves := [] })] } }
    firstRefusal ((!grantFieldsOk x 1, 0x16) :: grantRefusals live 9 x) = none ∧ (firstRefusal ((!grantFieldsOk { x with size := 0 } 1, 0x16) :: grantRefusals live 9 { x with size := 0 })).isSome = true ∧
    firstRefusal (accessSetRefusals live 2 1 anyone 0) = none ∧ (firstRefusal (accessSetRefusals live 2 2 anyone 0)).isSome = true ∧ firstRefusal (revokeRefusals live 2 1) = none ∧ (firstRefusal (revokeRefusals live 3 1)).isSome = true ∧
    shapeFieldsOk 9 { weight := 10, pbs := 8, cbs := 4, pir := 2, cir := 1 } = true ∧ firstRefusal (asidCreateRefusals s 4 7) = none ∧ firstRefusal (asidDestroyRefusals s 3) = none ∧
    firstRefusal (mapRefusals s 3 (2 * 65536) (5 * 2 ^ 40 + 4 * 2 ^ 20) 0 2 3) = none ∧ firstRefusal (rangeRefusals s 3 (2 * 65536) 2 true) = none ∧ (firstRefusal (rangeRefusals s 3 (2 * 65536) 2 (decide (4 ≤ 3)))).isSome = true ∧
    firstRefusal (invalidateRefusals s 3 (2 * 65536) 2) = none ∧ firstRefusal [(decide (1000 < 1000), 0x16)] = none ∧ firstRefusal [(decide (10000 < 1 ∨ 10000 < 10000), 0x16)] = none ∧ senderMaster live order = some 3 := by decide +kernel
/-- The module without an owner, with an election window or with a handover. -/
def electing (x : Option Election) : State := { live with hub := { live.hub with owner := none, election := x } }
def handing (x : Option Handover) (lease : Nat) : State := { live with hub := { live.hub with handover := x, leaseEnd := lease } }
theorem witness_OwnershipChanges :
    live.hub.owner.isSome = true ∧ (electing none).hub.owner = none ∧ (electing none).hub.election = none ∧ (∃ c ∈ [(3, 8, order)], c.1 = 3) ∧ (∀ c ∈ [((0 : Nat), (9 : Nat), order0)], c.1 ≠ 3) ∧
    hasPath live 0 = true ∧ hasPath live 2 = false ∧ live.hub.owner ≠ some 0 ∧ (handing (some { target := 0, expires := 300000000, order := order }) 300000000).hub.handover.isSome = true ∧
    senderMaster live order0 = some 0 ∧ (∀ code ∈ [0x0001, 0x0004], (orderRefusal live order0 code (headerRefusal live order0 code) true).1 = none) ∧
    (orderRefusal (electing none) order 0x0001 (headerRefusal (electing none) order 0x0001) true).1 = none ∧
    (let l := [(3, 8, order), (0, 9, order0), (1, 9, order1)]
     (∀ q ∈ l, q.2.1 < 9 ∨ q.2.1 = 9 ∧ 0 ≤ q.1) ∧ (l.map Prod.fst).Nodup ∧ (electing (some { closes := 300000000, claims := l })).hub.election = some { closes := 300000000, claims := l }) ∧
    300000000 ≤ live.time.clock ∧ live.time.clock < 300000001 ∧ (handing none 300000000).hub.leaseEnd ≤ live.time.clock ∧ live.time.clock < live.hub.leaseEnd := by decide +kernel
theorem witness_slots_and_memory_orders :
    (slotOf live 4).st = .free ∧ hostHolds live 33 = false ∧ hostHolds live 9 = true ∧ (slotOf live 1).st = .bound ∧ (slotOf live 1).gen = 3 ∧ (slotOf (setSlot live 2 { st := .sweeping }) 2).st = .sweeping ∧
    (let s := setSlot live 2 { st := .failed, gen := 3 }; (slotOf s 2).st = .failed ∧ walkOf s 2 = none ∧ (walkOf (setWalk s { slot := 2, failure := true }) 2).isSome = true) ∧
    failableSlot live 9 = some 1 ∧ failableSlot live 77 = none ∧ live.coh.lost = [] ∧ ({ live with coh := { live.coh with lost := [{ entries := [3], seq := 6 }] } } : State).coh.lost ≠ [] ∧
    stackPowered (stackOf live 1) = true ∧ stackPowered (stackOf live 4) = false ∧ (∀ q < 20, order ∉ (stackOf live q).limitWaits) ∧
    servedBy live 2 = some 2 ∧ (stackOf live 2).st = .serving ∧ outOfService live 2 = false ∧ tget? live.mem.evacs 0 = none ∧ spareUsable live 0 = true ∧ servedBy (modStack live 2 (fun _ => {})) 2 = none ∧
    ({ live with mem := { live.mem with poison := [{ timestamp := 2 }] } } : State).mem.poison ≠ [] := by decide +kernel
theorem witness_engine_orders :
    ownReadable live (2 ^ 30) 9 = false ∧ ownReadable live (4 * 2 ^ 20) 256 = true ∧ tenantLive live 7 = true ∧ (let s := pooled (launched 2); (tget? s.eng.accords 256).isSome = true ∧ accordUsed s 256 = true ∧ accordUsed { s with eng := { s.eng with sprays := [] } } 256 = false) ∧
    ringOk live (5 * 2 ^ 40 + 4 * 2 ^ 20) 64 = true ∧ ringOk live (5 * 2 ^ 40 + 4 * 2 ^ 20) 15 = false ∧ live.eng.ring.isSome = false ∧
    (let t := { oneLine with st := .faulted (some (7, 0)) 100 false 99 }
     let b : Batch := { seq := 7, region := 0, firstStamp := 3, recs := [faultRec 4 t 99 1 false] }
     let s := { live with eng := { live.eng with batches := [b], tiles := [(4, t)] } }
     s.eng.batches.find? (fun x => x.seq == 7) = some b ∧ tileOf? s 4 = some t ∧ Sys2Proof.Machine.moving s 5 2 = false ∧ (tileOf? live 4).isNone = true ∧ (BitVec.ofNat 256 1).getLsbD 0 = true ∧ (BitVec.ofNat 256 2).getLsbD 0 = false) ∧
    (sprayOf? (pooled (launched 2)) 3).isSome = true ∧ (4095 : Nat) < 4096 := by decide +kernel
theorem witness_system_orders :
    bytesPoint [] = none ∧ bytesPoint (pointBytes ecG) = some ecG ∧ (let k : MgmtKey := { key := 5, wrap := 6, epoch := 3, previous := some (2, 4), agreedAt := 50000000 }; k.previous.isSome = true ∧ k.agreedAt + 250000000 ≤ live.time.clock) ∧
    firstRefusal [(decide (2 < 1), 0x16), (!ownReadable live (4 * 2 ^ 20) 256, 0x10), (decide (256 < 256 ∨ imgRoom 1 < 256), 0x16), (decide (1 < 2 ∧ live.hub.runSlot = 1), 0xEA), (imageBusy live 1, 0xE8)] = none ∧
    (decide (0 < 2 ∧ live.hub.runSlot = 0)) = true ∧ (decide (255 < 256 ∨ imgRoom 1 < 255)) = true ∧ (decide (1 < 2)) = true ∧
    (∀ image ∈ [0, 1, 2], ∀ activate, let w : FwWork := { order := order, image := image, activate := activate, data := [1, 2, 3] }
      [w].find? (fun w => w.activate == activate) = some w) ∧
    (let s := modPort (modPort live 3 (fun p => { p with st := .cold })) 19 (fun p => { p with st := .active })
     portNamed 0 3 = true ∧ failoverOf s 3 = none ∧ (portOf s 3).st = .cold ∧ narrowBarred s 3 = false ∧ portActive s (partner 3) = true ∧ (portOf s 19).st = .active) ∧ portNamed 0 16 = false ∧
    (let r : FaultRecord := { seq := 4, unit := 7, cause := 0x40, cls := 1 }
     let s := { live with fault := { live.fault with regions := [(1, { fence := some r })], log := [r] } }
     pendingOf s 1 false 1 = some r ∧ pendingOf live 3 true 4 = none) ∧
    (1704067200000000 : Nat) ≤ 1704067200000000 ∧ (800 : Nat) ≤ 800 ∧ (1900 : Nat) ≤ 1900 ∧ live.hub.fwWork = [] := by decide +kernel
/-! ### The links -/

/-- A Genura flit of empty slots, by its trailer; the trailers' CRCs were computed outside Lean. -/
def flitOf (trailer : Nat) : BitVec 2560 := BitVec.ofNat 2560 (trailer * 2 ^ 2432)
def idleFlit : BitVec 2560 := flitOf 0x41c1fa860000ffff0000000100000000
def otherGen : BitVec 2560 := flitOf 0x2794fac90000ffff0000000180000000
def oldFlit : BitVec 2560 := flitOf 0x7d166adaffffffff0000000120000000
def nextFlit : BitVec 2560 := flitOf 0xc33078250000ffff0000000120000000
/-- Port 3 in service with generation 2. -/
def served3 : State := modPort live 3 (fun p => { p with st := .active, gen := 2, switchPort := 44 })
def answer3 : Packet := { opcode := 0x30, tag := 4, tenant := 7, source := 6, dest := 5, vc := 4, status := 3, msgCounter := 99 }
def orphans3 : OrphanSet := { port := 19, since := 299990000, queryId := 9, seqs := [(5, [answer3]), (6, []), (7, [])] }
def failover3 : Failover := { from_ := 19, since := 299990000, sets := [orphans3] }
def resolving : State :=
  let s := modPort (modPort live 3 (fun p => { p with st := .training })) 16 (fun p => { p with st := .active })
  { s with link := { s.link with failovers := [(3, failover3)] } }
theorem witness_LinksCarryFlits :
    hubRuns served3 = true ∧ linkUp (portOf served3 3) = true ∧ (portOf served3 3).crcTimes.length < 1024 ∧
    (let p := modPort served3 3 (fun p => { p with replay := [{ seq := 7, packets := [answer3] }], timerFrom := 299999000, expiries := 6 })
     (portOf p 3).replay = [{ seq := 7, packets := [answer3] }] ∧ awaitsReset (portOf p 3) = false ∧ (portOf p 3).expiries < 7 ∧ (portOf p 3).timerFrom + 1000 ≤ p.time.clock ∧ ¬((portOf p 3).timerFrom + 1001 ≤ p.time.clock)) ∧
    (let p := modPort served3 3 (fun p => { p with missing := [5, 6], naked := [(5, 299999500)] })
     (portOf p 3).missing = [5, 6] ∧ ∀ x ∈ (portOf p 3).naked, x.1 = 5 → x.2 + 500 ≤ p.time.clock) ∧
    canFail (portOf served3 3) = true ∧ awaitsReset (portOf served3 3) = false ∧ failoverOf served3 3 = none ∧
    (let r : Repeated := { rec_ := .reset 2 0 false, first := 299900000, last := 299999750 }
     let p := modPort served3 3 (fun p => { p with repeats := [r] })
     awaitsReset (portOf p 3) = true ∧ canFail (portOf p 3) = true ∧ ∀ r ∈ (portOf p 3).repeats, p.time.clock < r.first + 250000 ∧ r.last + 250 ≤ p.time.clock) ∧
    (let r : Repeated := { rec_ := .ready 2, first := 299750000, last := 299999750 }
     ∀ x ∈ [r], live.time.clock ≥ x.first + 250000) ∧
    (let q : RecoverRec := { failedSwitchPort := 44, failedPortGen := 1, queryId := 9 }
     let s := { served3 with link := { served3.link with points := [{ port := 3, switchPort := 44, gen := 1, point := 77, since := 299000000 }] } }
     (portOf served3 3).st = .active ∧ heldPoint served3 3 q = none ∧ ((heldPoint s 3 q).map (fun x => x.point)) = some 77 ∧ failoverOf s 3 = none) ∧
    (let asked := fun (o : OrphanSet) => o.queryId == 9 && !o.byHello && o.port / 16 == 16 / 16 && decide (resolving.time.clock < o.since + 37500)
     resolving.link.failovers.find? (fun x => x.2.sets.any (fun o => asked o && !o.done)) = some (3, failover3) ∧ failoverOf resolving 3 = some failover3 ∧ (portOf resolving 16).st = .active ∧
      inTraining (portOf resolving failover3.to) = true ∧ resolving.time.clock < orphans3.since + 37500 ∧ orphans3.done = false ∧ orphans3.byHello = false ∧ 299962500 + 37500 ≤ live.time.clock) ∧
    (portOf live 3).st ≠ .active ∧ 8 ∉ (portOf live 3).badLanes ∧ (portOf live 19).st ≠ .cold := by decide +kernel
/-- A lane of port 3 in use, and the spare lane free or taken. -/
def lanes3 (bad : List Nat) : State := modPort served3 3 (fun p => { p with laneMap := if bad = [] then [0, 1, 2, 3, 4, 5, 6, 7] else [0, 2, 3, 4, 5, 6, 7, 8], badLanes := bad })
theorem witness_lanes : ∀ bad ∈ [[], [1]], let p := portOf (lanes3 bad) 3
    p.st = .active ∧ 0 ∈ p.laneMap ∧ 0 ∉ p.badLanes ∧ p.lockLost = [] ∧ spareLane p = decide (bad = []) ∧ (portOf (lanes3 bad) (partner 3)).st ≠ .cold ∧ awaitsReset p = false := by decide +kernel
theorem witness_failing_over :
    (let s := modPort (lanes3 []) 19 (fun p => { p with st := .cold, savedAt := some 299999000 }); partnerFit s 3 = true ∧ (portOf s 3).lockLost = [] ∧ spareLane (portOf s 3) = true) ∧
    (let s := modPort (lanes3 []) 3 (fun p => { p with st := .resync, lockLost := [5], repeats := [{ rec_ := .reset 2 1 false, first := 299999900, last := 299999900 }] })
     (portOf s 3).st = .resync ∧ awaitsReset (portOf s 3) = true ∧ b2n (spareLane (portOf s 3)) < (((portOf s 3).lockLost ++ [0]).filter (fun x => (portOf s 3).laneMap.contains x)).length) ∧
    (let s := modPort served3 3 (fun p => { p with replay := [{ seq := 7, packets := [answer3] }] })
     let f : Failover := { from_ := 3, since := 299990000, sets := [{ orphans3 with port := 3, gen := 2 }] }
     suspended { s with link := { s.link with failovers := [(3, f)] } } 3 = true ∧ suspended s 3 = false) ∧
    (let s := modPort live 3 (fun p => { p with st := .resync, trainedLanes := true, since := 299750000, repeats := [{ rec_ := .reset 2 1 false, first := 299999900, last := 299999900 }] })
     awaitsReset (portOf s 3) = true ∧ (portOf s 3).since + 250000 ≤ s.time.clock ∧ failoverOf s 3 = none) := by decide +kernel
/-- The same value as f n; the kernel evaluates n first. -/
def forced {α : Type} (n : Nat) (f : Nat → α) : α := match n with
  | 0 => f 0
  | k + 1 => f (k + 1)
theorem forced_eq {α : Type} (n : Nat) (f : Nat → α) : forced n f = f n := by cases n <;> rfl
def crcFrom : List Byte → Nat → Nat
  | [], c => c
  | b :: l, c => forced (crcByte c b) (crcFrom l)
theorem crc32_from (l : List Byte) : crc32 l = crcFrom l 0xFFFFFFFF ^^^ 0xFFFFFFFF := by
  have h : ∀ (l : List Byte) (c : Nat), l.foldl crcByte c = crcFrom l c := by
    intro l
    induction l with
    | nil => intro c; rfl
    | cons b l ih => intro c; rw [List.foldl_cons, ih, crcFrom, forced_eq]
  rw [crc32, h]
theorem witness_received_flits :
    (∀ f ∈ [(idleFlit, 2, 0, 0), (otherGen, 3, 0, 0), (oldFlit, 2, 2, 65535), (nextFlit, 2, 2, 0)],
      let t := trailerOf (ofLe ((leBytes 320 f.1.toNat).drop 304))
      crc32 ((leBytes 320 f.1.toNat).take 316) = t.crc ∧ t.gen = f.2.1 ∧ t.type = f.2.2.1 ∧ t.seq = f.2.2.2 ∧ t.nak = none) ∧
    crc32 ((leBytes 320 (idleFlit ^^^ 1).toNat).take 316) ≠ (trailerOf (ofLe ((leBytes 320 (idleFlit ^^^ 1).toNat).drop 304))).crc ∧
    (let p := portOf served3 3; p.gen = 2 ∧ p.expected = 0 ∧ p.waiting = [] ∧ p.missing = [] ∧ p.naked = [] ∧ p.held = [] ∧ p.replay = []) ∧ flitPackets 2 (leBytes 320 nextFlit.toNat) = [] ∧
    32768 ≤ (65535 + 65536 - 0) % 65536 := by
  simp only [crc32_from]
  decide +kernel
/-- Port 3 in its first exchange, with an assignment that suits it and with one of another plane. -/
def exchanging : State := modPort live 3 (fun p => { p with st := .training, gen := 2, since := 299999000, fecLock := true })
def assignment : AssignRec := { managerId := 900, endpointId := 5, switchPort := 61, portGen := 3, plane := 0, switchSerial := 0xABC }
def after (r : Result) : State := match r with | .next t => t | _ => {}
def assigned : State := after (exec (.linkAssign 3 assignment) exchanging)
/-- So, its start-up training over. -/
def settled (s : State) (f : Port → Port) : State := modPort { s with power := { s.power with portsDone := [3] } } 3 f
def draining (since : Nat) (l : List TxFlit) : State :=
  let s := modPort (modPort live 19 (fun p => { p with st := .active, replay := l })) 3 (fun p => { p with st := .cold, savedAt := some 299999000, savedSwitch := some (1, 2) })
  { s with link := { s.link with failovers := [(3, { from_ := 19, since := since, draining := true })] } }
theorem witness_LinksTrainAndChange :
    (inExchange (portOf exchanging 3) = true ∧ inExchange (portOf served3 3) = false ∧ (portOf exchanging 3).assigned = false ∧ failoverOf exchanging 3 = none ∧ assignment.portGen = ((portOf exchanging 3).gen + 1) % 256 ∧
      exchanging.hub.endpointId = some assignment.endpointId) ∧
    ((portOf assigned 3).assigned = true ∧ (portOf assigned 3).gen = 3 ∧ (portOf assigned 3).readyTx = true ∧ (portOf assigned 3).readyRx = false ∧ (portOf assigned 3).offeredHeld = false ∧ assigned.time.clock < (portOf assigned 3).since + 12500000) ∧
    (∀ lock ready, let s := settled assigned (fun p => { p with readyRx := ready, fecLock := lock })
     (portOf s 3).st = .training ∧ startupTraining s 3 = false ∧ failoverOf s 3 = none ∧ (portOf s 3).refresh = false ∧ (portOf s 3).readyTx = true ∧ (portOf s 3).readyRx = ready ∧ (portOf s 3).fecLock = lock ∧ (portOf s 3).offeredHeld = false ∧
      (portOf s 3).since + 12500000 > s.time.clock) ∧
    (let s := settled assigned (fun p => { p with fecLock := true, since := 287500000 }); (portOf s 3).since + 12500000 ≤ s.time.clock ∧ (portOf s 3).readyRx = false) ∧
    (let s := settled (after (exec (.linkAssign 3 { assignment with plane := 1 }) exchanging)) (fun p => { p with fecLock := true })
     (portOf s 3).offeredHeld = true ∧ (portOf s 3).assigned = true ∧ (portOf s 3).retrainWaits = [] ∧ startupTraining s 3 = false) ∧
    laneMapOf 0x1FF [] = some [0, 1, 2, 3, 4, 5, 6, 7] ∧ laneMapOf 0x00F [] = some [0, 1, 2, 3] ∧ laneMapOf 0x007 [] = none ∧
    (∀ lock, let s := modPort assigned 3 (fun p => { p with st := .bringup, fecLock := lock, readyRx := true })
     (portOf s 3).st = .bringup ∧ (portOf s 3).fecLock = lock ∧ (portOf s 3).readyTx = true ∧ (portOf s 3).readyRx = true ∧ (portOf s 3).offeredHeld = false ∧ failoverOf s 3 = none) ∧
    (let s := draining 299990000 []; (failoverOf s 3).any (fun f => f.from_ == 19 && f.draining) = true ∧ (portOf s 19).st = .active ∧ (portOf s 19).replay = [] ∧ (portOf s (partner 19)).st = .cold ∧ savedValid s (portOf s (partner 19)) = true) ∧
    (let s := draining 299995000 [{ seq := 3, packets := [] }]; (portOf s 19).replay ≠ [] ∧ 299995000 + 5000 ≤ s.time.clock ∧ s.time.clock < 299995001 + 5000 ∧ (portOf s (partner 19)).st = .cold) ∧
    (∀ errors ∈ [[], [299750000], [299750001]], let s := modPort live 3 (fun p => { p with st := .resync, trainedLanes := true, since := 299750000, protoTimes := errors })
     (portOf s 3).st = .resync ∧ (portOf s 3).trainedLanes = true ∧ (portOf s 3).since + 250000 ≤ s.time.clock ∧ failoverOf s 3 = none ∧ (portOf s 3).retrainWaits = [] ∧ (portOf s 19).st ≠ .active ∧
      (errors = [299750001] ↔ ∃ x ∈ (portOf s 3).crcTimes ++ (portOf s 3).protoTimes, s.time.clock < x + 250000)) ∧
    (let s := modPort live 3 (fun p => { p with st := .cold }); (portOf s 3).st = .cold ∧ ∀ i ∈ List.range 8, (portOf s (regionPort 0 i)).st ≠ .resync) := by decide +kernel

/-- Darinlink flits of empty slots, by their last 32 bytes (trailer and check bytes computed outside Lean). -/
def dlFlit (last : Nat) : BitVec 4096 := BitVec.ofNat 4096 (last * 2 ^ 3840)
def dlIdle : BitVec 4096 := dlFlit 0xef99c55c00c083e316fba97200e06c1cf9322c2e0000ffff0050400000201000
def dlAck : BitVec 4096 := dlFlit 0xf76a059000000010025f89d800000018f5358c48000000080000000000000000
def dlEarly : BitVec 4096 := dlFlit 0xfa0bf7f8000ae3e3a7800284000f1c1c4d8bf57c0005ffff1000000000000000
def dlNext : BitVec 4096 := dlFlit 0xe502720000e3e32019034b00001c1c30fc01390000ffff1000000000000000
def dlWith (f : Darinlink → Darinlink) : State := modDl live f
theorem witness_DarinlinkEventsAct :
    hubRuns live = true ∧ live.link.dl.st = .active ∧ live.link.dl.nakAt = none ∧ live.link.dl.crcTimes.length < 255 ∧ live.link.dl.replay = [] ∧ live.link.dl.waiting = [] ∧
    (let s := dlWith (fun d => { d with replay := [(7, 0), (8, 0), (9, 0)], timerFrom := 299999500, expiries := 6 })
     s.link.dl.replay = [(7, 0), (8, 0), (9, 0)] ∧ (8 + 65536 - 7) % 65536 < 3 ∧ 3 ≤ (6 + 65536 - 7) % 65536 ∧ s.link.dl.timerFrom + 500 ≤ s.time.clock ∧ s.time.clock < 299999501 + 500 ∧ s.link.dl.expiries < 7) ∧
    (let s := dlWith (fun d => { d with st := .training, stepFive := true }); s.link.dl.stepFive = true ∧ credit.trainCount = s.link.dl.trainings % 256 ∧ live.link.dl.stepFive = false ∧ s.time.timebaseOn = true ∧ s.time.timebase % 250 = 0 ∧ s.time.refilled ≠ some s.time.timebase ∧ s.hub.prepared = [] ∧ s.link.dl.waiting = []) ∧
    (let s := dlWith (fun d => { d with st := .training }); s.link.dl.st = .training ∧ s.link.dl.recovering = false ∧ dlWidthOf 0 [] = none ∧ dlWidthOf 0xFF00 [] = some 2 ∧ dlWidthOf 0xFFFF [] = some 0) ∧
    (let s := dlWith (fun d => { d with widthAsked := some (1, 299975000, 9) }); s.link.dl.widthAsked = some (1, 299975000, 9) ∧ 299975000 + 25000 ≤ s.time.clock ∧ live.link.dl.widthAsked = none) ∧
    (let s := dlWith (fun d => { d with st := .training, recovering := true, leftActiveAt := some 299750000 })
     s.link.dl.leftActiveAt = some 299750000 ∧ s.link.dl.st ≠ .active ∧ 299750000 + 250000 ≤ s.time.clock ∧ s.time.clock < 299750001 + 250000 ∧ s.link.dl.recovering = true ∧ (slotOf s 0).st = .bound) ∧
    (let s := dlWith (fun d => { d with st := .down, lastTry := 275000000 }); s.link.dl.st ≠ .active ∧ s.link.dl.recovering = false ∧ s.link.dl.lastTry + 25000000 ≤ s.time.clock ∧ s.time.clock < 275000001 + 25000000) := by decide +kernel
def rsFrom : List Nat → Nat → Nat → Nat × Nat
  | [], a, b => (a, b)
  | c :: l, a, b => forced (a ^^^ c) (fun a => forced (rsMul 8 b 2 ^^^ c) (fun b => rsFrom l a b))
theorem rsSyndromes_from (w : List Nat) : rsSyndromes w = rsFrom w 0 0 := by
  have h : ∀ (w : List Nat) (a b : Nat), w.foldl (fun (s : Nat × Nat) c => (s.1 ^^^ c, rsMul 8 s.2 2 ^^^ c)) (a, b) = rsFrom w a b := by
    intro w
    induction w with
    | nil => intro a b; rfl
    | cons c l ih => intro a b; rw [List.foldl_cons, ih, rsFrom, forced_eq, forced_eq]
  rw [rsSyndromes, h]
def byteAt (v j : Nat) : Nat := v >>> (8 * j) % 256
def codeword (raw : BitVec 4096) (k : Nat) : List Nat := (List.range 64).map (fun i => byteAt raw.toNat (8 * i + k))
theorem leBytes_get : ∀ (n v j : Nat), j < n → (leBytes n v).getD j 0 = BitVec.ofNat 8 (v >>> (8 * j))
  | 0, _, _, h => absurd h (Nat.not_lt_zero _)
  | n + 1, v, 0, _ => by simp [leBytes]
  | n + 1, v, j + 1, h => by
    rw [leBytes, List.getD_cons_succ, leBytes_get n (v >>> 8) j (by omega), ← Nat.shiftRight_add, Nat.mul_add, Nat.add_comm]
/-- A flit whose codewords check decodes to its bytes. -/
theorem dlDecode_clean (raw : BitVec 4096) (h : ∀ k < 8, rsFrom (codeword raw k) 0 0 = (0, 0)) :
    dlDecode raw = some ((List.range 496).map (fun j => BitVec.ofNat 8 (byteAt raw.toNat j))) := by
  have hc : ∀ k < 8, (List.range 64).map (fun i => ((leBytes 512 raw.toNat).getD (8 * i + k) 0).toNat) = codeword raw k := by
    intro k hk
    apply List.map_congr_left
    intro i hi
    have hi := List.mem_range.mp hi
    simp only [leBytes_get 512 raw.toNat (8 * i + k) (by omega), BitVec.toNat_ofNat, byteAt]
  have hd : ∀ k < 8, rsDecode (codeword raw k) = some (codeword raw k) := by
    intro k hk
    simp only [rsDecode, rsSyndromes_from, h k hk, and_self, if_true]
  have hw : (List.range 8).map (fun k => rsDecode ((List.range 64).map (fun i => ((leBytes 512 raw.toNat).getD (8 * i + k) 0).toNat))) = (List.range 8).map (fun k => some (codeword raw k)) := by
    apply List.map_congr_left
    intro k hk
    rw [hc k (List.mem_range.mp hk), hd k (List.mem_range.mp hk)]
  unfold dlDecode
  simp only [hw]
  have hn : ((List.range 8).map (fun k => some (codeword raw k))).any (·.isNone) = false := by
    rw [List.any_map]; exact List.any_eq_false.2 (fun _ _ => by simp only [Function.comp, Option.isNone_some]; decide)
  rw [hn, if_neg Bool.false_ne_true]
  refine congrArg some (List.map_congr_left ?_)
  intro j hj
  have hj : j < 496 := List.mem_range.mp hj
  have h1 : j % 8 < 8 := Nat.mod_lt _ (by decide)
  have h2 : j / 8 < 64 := by omega
  have h3 : 8 * (j / 8) + j % 8 = j := by omega
  have h4 : (((List.range 8).map (fun k => some (codeword raw k))).getD (j % 8) none) = some (codeword raw (j % 8)) := by
    rw [List.getD_eq_getElem?_getD, List.getElem?_map, List.getElem?_range h1]; rfl
  have h5 : (codeword raw (j % 8)).getD (j / 8) 0 = byteAt raw.toNat j := by
    rw [codeword, List.getD_eq_getElem?_getD, List.getElem?_map, List.getElem?_range h2]
    simp only [Option.map_some, Option.getD_some, h3]
  rw [h4, Option.getD_some, h5]
def clean (f : BitVec 4096) : Bool := (List.range 8).all (fun k => decide (rsFrom (codeword f k) 0 0 = (0, 0)))
theorem darinlink_flits_check : [dlIdle, dlAck, dlEarly, dlNext].all clean = true := by decide +kernel
/-- A clean flit, its CRC, type and number. -/
theorem clean_flit (f : BitVec 4096) (ty sq : Nat) (hc : clean f = true)
    (h : (let b := (List.range 496).map (fun j => BitVec.ofNat 8 (byteAt f.toNat j)); let n := ofLe (b.drop 480)
      ((crcFrom (b.take 492) 0xFFFFFFFF ^^^ 0xFFFFFFFF) == bits n 127 96) && (bits n 62 60 == ty) && (bits n 95 80 == sq)) = true) :
    ∃ b, dlDecode f = some b ∧ (let n := ofLe (b.drop 480); crc32 (b.take 492) = bits n 127 96 ∧ bits n 62 60 = ty ∧ bits n 95 80 = sq) := by
  refine ⟨_, dlDecode_clean f ?_, ?_⟩
  · intro k hk
    have := List.all_eq_true.mp hc k (List.mem_range.mpr hk)
    exact of_decide_eq_true this
  · simp only [Bool.and_eq_true, beq_iff_eq] at h
    simp only [crc32_from]
    exact ⟨h.1.1, h.1.2, h.2⟩
theorem witness_received_darinlink_flits :
    ∀ f ∈ [(dlIdle, 0, 0), (dlAck, 0, 0), (dlEarly, 1, 5), (dlNext, 1, 0)], ∃ b, dlDecode f.1 = some b ∧ (let n := ofLe (b.drop 480); crc32 (b.take 492) = bits n 127 96 ∧ bits n 62 60 = f.2.1 ∧ bits n 95 80 = f.2.2) := by
  have hc := darinlink_flits_check
  simp only [List.all_cons, List.all_nil, Bool.and_true, Bool.and_eq_true] at hc
  intro f hf
  simp only [List.mem_cons, List.not_mem_nil, or_false] at hf
  rcases hf with rfl | rfl | rfl | rfl
  · exact clean_flit dlIdle 0 0 hc.1 (by decide +kernel)
  · exact clean_flit dlAck 0 0 hc.2.1 (by decide +kernel)
  · exact clean_flit dlEarly 1 5 hc.2.2.1 (by decide +kernel)
  · exact clean_flit dlNext 1 0 hc.2.2.2 (by decide +kernel)
/-- One byte of a codeword in error is mended, two are not (11, R299). -/
theorem test_darinlink_fec : rsDecode (codeword (dlIdle ^^^ 0xFF00) 1) = some (codeword dlIdle 1) ∧ rsDecode (codeword (dlIdle ^^^ (1 + 2 ^ 64)) 0) = none := by
  decide +kernel
/-! ### Faults, self-test, power and the sideband -/

theorem witness_FaultsLatchAndReact :
    hubRuns live = true ∧ (regFault live 1).fence = none ∧ live.fault.drydown = none ∧ live.fault.haltRec = none ∧ live.fault.halted = false ∧ tget live.fault.sramRows (3 * 2048 + 2047) 0 < 4 ∧
    lineFault { hub := false, region := 0, unit := 0x1800, cause := 0xC1, detail := 0 } = false ∧
    (∀ q ∈ ([{ unit := 0x1803, cause := 0x40, region := 1, seq := 9 }] : List FaultRecord), q.seq ≠ live.fault.nextSeq ∧ (regFault { live with fault := { live.fault with regions := [(1, { fence := some q })] } } 1).fence = some q ∧
      sameUnit q { region := 1, unit := 0x1803, cause := 0x40, detail := 5 } = true ∧ sameUnit q { region := 1, unit := 0x1804, cause := 0x40, detail := 5 } = false) ∧
    (let u := 1 * 0 + 0x1804; let s := { live with mem := { live.mem with stackTab := tset live.mem.stackTab (spareOf 1) { st := .serving, mapped := true } }, fault := { live.fault with replacing := [(false, 1, u)] } }
     (false, 1, u) ∈ s.fault.replacing ∧ (false, 2, u) ∉ s.fault.replacing) ∧
    (∃ s hub k u, (hub, k, u) ∈ s.fault.replacing ∧ replacementReady s hub k u = true) ∧
    ({ live with fault := { live.fault with takeover := true } } : State).fault.takeover = true ∧ live.fault.takeover = false := by
  refine ⟨rfl, rfl, rfl, rfl, rfl, by decide +kernel, by decide +kernel, by decide +kernel, by decide +kernel, ?_, rfl, rfl⟩
  exact ⟨{ live with fault := { live.fault with replacing := [(true, 4, 0xC000)] } }, true, 4, 0xC000, by decide +kernel, by decide +kernel⟩
theorem witness_fault_rows :
    4 ≤ tget ({ live with fault := { live.fault with sramRows := [(3 * 2048 + 5, 4)] } } : State).fault.sramRows (3 * 2048 + 5) 0 ∧
    (stackOf live 6).fencedChans = [] ∧ (stackOf live 6).mapped = true ∧ tget? live.mem.evacs 1 = none ∧ evacuable live 6 = true ∧ spareUsable live 1 = true ∧
    spareUsable { live with fault := { live.fault with regions := [(1, { spareStackFree := false })] } } 1 = false ∧
    (let s := modPort (modPort live 3 (fun p => { p with st := .active })) 19 (fun p => { p with st := .cold, savedAt := some 299999000 }); (portOf s 3).st = .active ∧ (portOf s (partner 3)).st = .cold ∧ savedValid s (portOf s (partner 3)) = true) ∧
    (tget live.fault.waysLost 7 (0, 0)).2 = 0 ∧ (tget ({ live with fault := { live.fault with waysLost := [(7, (1, 1))] } } : State).fault.waysLost 7 (0, 0)).2 ≠ 0 ∧
    3 < (railPhases 0).1 + (railPhases 0).2.1 ∧ phaseServes live 0 3 = true ∧ railShort live 0 = false ∧ freePhases live 0 = [20, 21] ∧
    live.fault.hubFence = none ∧ live.fault.pairActive = 0 ∧ live.fault.pairSpareFree = true ∧ live.fault.pllActive = 0 ∧ live.fault.pllSpareFree = true ∧
    ({ live with fault := { live.fault with pairSpareFree := false, pllSpareFree := false } } : State).fault.haltRec = none ∧ (regFault live 1).fenced = false := by decide +kernel
/-- A unit of region 0 whose replacement is withheld. -/
def withheld (s : State) (u : Nat) : State := { s with fault := { s.fault with out := [{ hub := false, region := 0, unit := u, withheld := true }] } }
theorem witness_withheld :
    (let s := withheld (modLogEng live 5 (fun l => { l with adoptedBy := some 6 })) (unitId Kind.engine (logEngOf live 5).phys)
     (unitId Kind.engine (logEngOf live 5).phys) / 2048 = 4 ∧ (logEngOf s 5).adoptedBy.isSome = true ∧ (spareFor s 0 (logEngOf s 5).phys).isSome = true ∧ ∀ d < 128, d ≠ 5 → (logEngOf s d).adoptedBy.isSome = false) ∧
    (let s := withheld (modPort live 19 (fun p => { p with st := .cold, savedAt := some 299999000 })) 0x3003; (0x3003 : Nat) / 2048 = 6 ∧ (portOf s (partner (0x3003 % 2048))).st = .cold ∧ savedValid s (portOf s (partner (0x3003 % 2048))) = true) ∧
    (let s := withheld { modStack live 1 (fun x => { x with fencedChans := [5] }) with fault := { regions := [(0, { spareStackFree := false })] } } (0x0800 + 37)
     (0x0800 + 37) / 2048 = 1 ∧ (stackOf s (5 * 0 + (0x0800 + 37) % 2048 / 32)).fencedChans.contains ((0x0800 + 37) % 2048 % 32) = true ∧ spareUsable s 0 = false ∧ tget? s.mem.evacs 0 = none) := by decide +kernel
/-- Region 1 at a time base of 30 000 s, with the unit tested so many units of time ago. -/
def aged (u g n : Nat) : State := modBist { live with time := { live.time with timebase := 200000000000000 } } 1 (fun b => { b with lastPass := [(u * 256 + g, 200000000000000 - n)] })
def timed : State := { live with time := { live.time with timebase := 200000000000000 } }
def slice (u g : Nat) : State := modBist timed 1 (fun b => { b with current := some (u, g, 199999999000000, 3), due := [(u, g)], overdue := [(u, g)] })
def exchangePair : State :=
  let act := fun (s : State) n => modPort s n (fun p => { p with st := .active, savedAt := some 299999000 })
  let cold := fun (s : State) n => modPort s n (fun p => { p with st := .cold, savedAt := some 299999000 })
  modBist (cold (act (cold (act timed 3) 19) 17) 1) 0
    (fun b => { b with lastPass := ([19, 1].flatMap (fun n => (List.range 4).map (fun g => portUnit n * 256 + g))).foldl (fun l k => tset l k 200000000000000) [] })
def oldRecord : LogRec := { timebase := 3, calendarUs := 0, seq := 0, boot := 0, type := 2, timeSet := false, body := [1, 2] }
theorem witness_SelfTestsAndRecords :
    firmwareRuns live = true ∧ (0x5800, 0) ∈ testUnits live 1 ∧
    (∀ n ∈ [17999999999999, 18000000000000, 21600000000000], (aged 0x5800 0 n).time.timebase - tget (bistOf (aged 0x5800 0 n) 1).lastPass (0x5800 * 256 + 0) 0 = n) ∧
    (0x5800, 0) ∉ (bistOf (aged 0x5800 0 1) 1).due ∧ (0x5800, 0) ∉ (bistOf (aged 0x5800 0 1) 1).overdue ∧
    (let s := modBist timed 1 (fun b => { b with due := [(0x5800, 0)] }); (0x5800, 0) ∈ (bistOf s 1).due ∧ nextSlice s 1 = some (0x5800, 0) ∧ (bistOf s 1).current = none ∧ (0x5800, 1) ∉ (bistOf s 1).due ∧ (0x5800, 1) ∉ (bistOf s 1).overdue ∧ regionTurn s 1 = true) ∧
    (let s := modBist (modBist timed 1 (fun b => { b with due := [(0x5800, 0)], lastPass := [(0x5800 * 256, 5)] })) 2 (fun b => { b with due := [(0x5800, 0)] }); nextSlice s 1 = some (0x5800, 0) ∧ regionTurn s 1 = false) ∧
    (let s := modBist { timed with fault := { timed.fault with halted := true } } 1 (fun b => { b with due := [(0x5800, 0)] }); (bistOf s 1).current = none ∧ (0x5800, 0) ∈ (bistOf s 1).due ∧ startable s 1 0x5800 0 = false) := by decide +kernel
theorem witness_slices_end :
    (bistOf (slice 0x5800 2) 1).current = some (0x5800, 2, 199999999000000, 3) ∧ (0x5800 : Nat) / 2048 ≠ 1 ∧ (0x5800 : Nat) / 2048 ≠ 0x1C ∧ (regFault (slice 0x5800 2) 1).fence = none ∧
    (let s := modBist timed 1 (fun b => { b with walking := some (0x800, 3, 199999999000000), catchUp := [(4, 9)], listed := 5 })
     let t := { s with mem := { s.mem with locks := [{ lstack := 4, stripe := 9, kind := .scrub, held := true }] } }
     (bistOf t 1).walking = some (0x800, 3, 199999999000000) ∧ (bistOf t 1).catchUp = [(4, 9)] ∧ lockFree t 4 9 .catchUp = false) ∧
    (portOf exchangePair 3).st = .active ∧ exchangeDue exchangePair 3 = true ∧
    (let s := modBist timed 4 (fun b => { b with due := [(0xC000, 0)], lastPass := [(0xC001 * 256, 200000000000000)] }); pairsDue s = true ∧ s.hub.prepared = []) := by decide +kernel
theorem witness_slice_causes :
    abandonCause (slice 0x5800 2) 1 0x5800 .drain = false ∧ abandonCause { slice 0x5800 2 with fault := { halted := true } } 1 0x5800 .other = true ∧
    reservedRoom (slice 0x5800 2) 1 1 = true ∧ exchangeDue live 3 = false ∧
    (let s := modBist timed 4 (fun b => { b with due := [(0xC000, 0)], lastPass := [(0xC001 * 256, 200000000000000)] })
     ∀ x ∈ [none, some 297500000, some 297500001], let t := { s with hub := { s.hub with prepared := [.idlePolicy order 3], exchangeSince := x } }
      firmwareRuns t = true ∧ pairsDue t = true ∧ t.hub.prepared ≠ [] ∧ t.hub.exchangeSince = x) ∧ (297500000 : Nat) + 2500000 ≤ live.time.clock ∧ live.time.clock < 297500001 + 2500000 := by decide +kernel
theorem witness_log_places :
    let s := { live with life := { live.life with buffer := [oldRecord], blockUsed := 0, blockPlace := 3, badPlaces := [4] } }
    nextPlace s = some 5 ∧ 1 < 1024 - recUnits oldRecord := by decide +kernel
theorem no_place (bad : List Nat) (h : ∀ p < 767, p ∈ bad) : ∀ n p, placeFrom bad p n = none
  | 0, _ => rfl
  | n + 1, p => by simp only [placeFrom, List.contains_iff_mem.mpr (h (p % 767) (Nat.mod_lt _ (by decide))), no_place bad h n, if_true]
theorem witness_no_place (bad : List Nat) (h : bad = List.range 767) : nextPlace { live with life := { live.life with badPlaces := bad } } = none := by
  have hb : ∀ p < 767, p ∈ bad := fun p hp => h ▸ List.mem_range.mpr hp
  exact no_place bad hb 767 _
theorem witness_records :
    timed.life.stackTest = none ∧ ({ timed with life := { timed.life with stackTest := some 1 } } : State).life.stackTest = some 1 ∧ stackTestDue timed 1 = true ∧ 21600000000000 ≤ timed.time.timebase - tget timed.life.fuseChecked 1 0 ∧
    (let s := { timed with life := { timed.life with counters := [(0, 700)], lastCheckpoint := 100 } }; s.life.lastCheckpoint + 600 ≤ tget s.life.counters 0x000 0 ∧ (s.life.buffer.map recUnits).sum ≤ 990 ∧ 699 < s.life.lastCheckpoint + 600) ∧
    (let s := { live with life := { live.life with buffer := [oldRecord, oldRecord], blockUsed := 1024 - recUnits oldRecord } }
     flashOut s = false ∧ flashTested s = false ∧ s.hub.fwWork = [] ∧ s.life.buffer = oldRecord :: [oldRecord] ∧ s.life.blockUsed ≠ 0 ∧ s.life.blockUsed + recUnits oldRecord ≤ 1024) := by decide +kernel
/-- A module with its power changed. -/
def powered (f : PowerSt → PowerSt) : State := { live with power := f live.power }
theorem witness_ResetAndStartUp :
    live.power.pwrOk = true ∧ live.power.stage = .running ∧ (powered (fun p => { p with stage := .held })).power.pwrOk = true ∧
    (let s := powered (fun p => { p with pwrOk := false, tripped := true, stage := .unpowered, lowSince := some 297500000 })
     s.power.pwrOk = false ∧ s.power.stage = .unpowered ∧ s.power.lowSince = some 297500000 ∧ 297500000 + 2500000 ≤ s.time.clock ∧ s.time.clock < 297500001 + 2500000) ∧
    (let s := powered (fun p => { p with stage := .held, pwrOkSince := 295000000 }); s.power.stage = .held ∧ s.power.pwrOk = true ∧ s.power.pwrOkSince + 5000000 ≤ s.time.clock ∧ s.time.clock < 295000001 + 5000000) ∧
    (let s := powered (fun p => { p with stage := .securityTest }); s.power.stage = .securityTest ∧ s.power.refPresent = true ∧ s.fault.haltRec = none ∧ s.fault.halted = false) ∧
    ({ live with hub := { live.hub with orderService := false } } : State).hub.orderService = false ∧ 3 ∉ live.power.selfTested ∧ (regFault live 3).fence = none ∧
    (let s := { live with hub := { live.hub with ready := false }, power := { live.power with selfTested := [0, 1, 2, 3, 4], stacksTrained := List.range 20, portsDone := List.range 32 }, mem := { live.mem with metadataDone := List.range 16 } }
     let t := modPort s 3 (fun p => { p with st := .active })
     t.fault.halted = false ∧ t.hub.ready = false ∧ hardwareDone t = true ∧ t.hub.endpointId.isSome = true ∧ (∃ n < 32, (portOf t n).st = .active) ∧ t.hub.owner.isSome = true ∧ t.hub.timeSet = true ∧ (∃ x ∈ t.extents, x.2.st = .granted)) ∧
    hardwareDone live = false ∧ (powered (fun p => { p with startAt := 0 })).power.startAt + 300000000 ≤ live.time.clock ∧
    (let s := { live with time := { live.time with clock := 500000000 } }; s.power.startAt + 500000000 ≤ s.time.clock ∧ live.time.clock < live.power.startAt + 500000000) ∧
    (∀ r ∈ [true, false], let s := powered (fun p => { p with stage := .poweringDown, resetting := r }); s.power.stage = .poweringDown ∧ s.power.resetting = r ∧ s.life.buffer = [] ∧ s.power.refPresent = true ∧ workDrained s = true) ∧
    (let s := powered (fun p => { p with stage := .poweringDown, downAt := 298000000 }); s.power.downAt + 2000000 ≤ s.time.clock ∧ s.time.clock < 298000001 + 2000000 ∧ workDrained { s with eng := { s.eng with sprays := [(3, spray)] } } = false) ∧
    (let s := modStack live 6 (fun x => { x with retired := true }); (stackOf s 6).retired = true ∧ (stackOf s 9).retired = false ∧ (stackOf s 0).retired = false) ∧ (∀ n < 4, checkPlace { live with hub := { live.hub with flash := [(0, []), (1, []), (2, []), (3, [])] } } n ≠ 1) ∧
    (let s := { live with life := { live.life with buffer := [oldRecord] } }; s.life.buffer ≠ [] ∧ flashOut s = false) := by decide +kernel
/-- A start whose stacks and ports have all trained, in the middle of its self-test. -/
def trainedAll : State := { live with power := { live.power with portsDone := List.range 32 }, mem := { live.mem with metadataDone := List.range 16 } }
theorem witness_self_tests_at_start :
    allTrained trainedAll = true ∧ allTrained live = false ∧ (∃ u ∈ [0], testFails trainedAll 1 u = false) ∧ 3 ∉ trainedAll.power.selfTested ∧ (0x5800, 0) ∈ testUnits trainedAll 3 ∧
    0xCB ∉ live.power.raisedCauses ∧ (powered (fun p => { p with raisedCauses := [0xCB] })).power.raisedCauses = [0xCB] ∧
    (let s := powered (fun p => { p with stage := .poweringDown, pwrOk := true, tripped := false }); s.power.stage = .poweringDown ∧ s.power.resetting = false ∧ workDrained s = true) ∧
    (let s := powered (fun p => { p with resetN := false, stage := .held, pwrOkSince := 295000000 }); s.power.resetN = false ∧ s.power.tripped = false ∧ s.power.pwrOkSince + 5000000 ≤ s.time.clock) ∧
    (powered (fun p => { p with stage := .held })).power.stage ≠ .unpowered := by
  refine ⟨by decide +kernel, by decide +kernel, ⟨0, by decide, by decide +kernel⟩, by decide +kernel, by decide +kernel, by decide, rfl, ?_, ?_, by decide⟩ <;> decide +kernel
theorem witness_power_again :
    outputsDriven live = true ∧ outputsDriven (powered (fun p => { p with stage := .held })) = false ∧ 0xC8 ∉ live.power.raisedCauses ∧ 0xC9 ∉ live.power.raisedCauses ∧
    (let r : FaultRecord := { seq := 4, unit := 7, cause := 0xC1, cls := 3 }
     let s := { powered (fun p => { p with rangeSince := some 297500000 }) with fault := { halted := true, haltRec := some r } }
     s.power.rangeSince = some 297500000 ∧ s.fault.halted = true ∧ s.fault.haltRec = some r ∧ 0xC8 ∉ s.power.raisedCauses) ∧
    (powered (fun p => { p with rangeSince := some 3, raisedCauses := [0xC8] })).power.raisedCauses.contains 0xC8 = true := by decide +kernel
theorem witness_PowerAndTemperature :
    live.power.stage ≠ .unpowered ∧ (∀ x ∈ [41999, 62001], x < 42000 ∨ 62000 < x) ∧ (∀ x ∈ [42000, 45999, 58001, 62000], (42000 ≤ x ∧ x < 46000) ∨ (58000 < x ∧ x ≤ 62000)) ∧ live.power.rangeSince = none ∧
    (let s := powered (fun p => { p with rangeSince := some 297500000 }); s.power.rangeSince = some 297500000 ∧ 297500000 + 2500000 ≤ s.time.clock ∧ s.time.clock < 297500001 + 2500000 ∧ s.power.stage = .running ∧ s.fault.halted = false ∧ s.fault.haltRec = none) ∧
    hubRuns live = true ∧ live.power.newLimits = [] ∧
    (∀ l < 4, let s := powered (fun p => { p with level := l, lastRaise := some 297500000, ownerLimit := 1000 })
      s.power.newLimits = [] ∧ powerCeiling s < 1001 ∧ s.power.level < 4 ∧ 297500000 + 2500000 ≤ s.time.clock ∧ s.time.clock < 297500001 + 2500000) ∧
    (let s := powered (fun p => { p with level := 1, below90Since := some 275000000, ownerLimit := 1000 })
     10 * 899 < 9 * powerCeiling s ∧ s.power.below90Since = some 275000000 ∧ 275000000 + 25000000 ≤ s.time.clock ∧ leastLevel s < s.power.level ∧ 900 ≤ powerCeiling s ∧ 9 * powerCeiling s ≤ 10 * 900 ∧ 1000 ≤ powerCeiling s ∧ live.power.below90Since = none) ∧
    (let s := powered (fun p => { p with newLimits := [(900, order)] }); s.power.newLimits = [(900, order)] ∧ s.power.level = 0) ∧
    (let s := powered (fun p => { p with level := 4, overSince := some 275000000 }); s.power.newLimits = [] ∧ s.power.level = 4 ∧ s.power.overSince = some 275000000 ∧ 275000000 + 25000000 ≤ s.time.clock ∧ s.time.clock < 275000001 + 25000000) ∧
    largest [105, 114] = 114 ∧ largest [99] = 99 ∧ largest [115] = 115 ∧ (∀ d < 5, dieTempOf live d < 100) ∧ live.power.thermtrip = false ∧ live.power.refPresent = true ∧
    (let s := powered (fun p => { p with refPresent := false, refLostAt := some 297500000 }); s.power.refPresent = false ∧ s.power.refLostAt = some 297500000 ∧ s.time.clock ≤ 297500000 + 2500000 ∧ 297499999 + 2500000 < s.time.clock) := by decide +kernel
theorem witness_sideband_tests :
    (let s := modBist live 4 (fun b => { b with current := some (unitId Kind.flash 0, 2, 3, 4) }); sideTest s 2 = true ∧ s.power.stage ≠ .unpowered) ∧ sideTest live 2 = false ∧
    i3cAnswers (modBist live 4 (fun b => { b with current := some (unitId Kind.flash 0, 1, 3, 4) })) = false ∧ 0xFF ∉ [0x01, 0x02, 0x03, 0x04, 0x05, 0x06, 0x07, 0x10] := by decide +kernel
theorem witness_SidebandAnswers :
    i3cAnswers live = true ∧ i3cAnswers (powered (fun p => { p with stage := .unpowered })) = false ∧ live.power.i3cAddress = none ∧ live.power.i3cOffset % 256 + 256 ≤ 256 ∧ live.power.resetN = true ∧
    (let s := powered (fun p => { p with resetN := false }); s.power.resetN = false) ∧ live.power.stage ≠ .unpowered := by decide +kernel
/-! ### The spec's own worked examples and tables -/

/-- 02, Table 2.5: the placement of offset 0x3A2B_5F40. -/
def extent42 : Extent := { access := [0xB02C72C0, 0x9033F300, 0, 0, 0, 0, 0, 0], base := 0x1C8, size := 0x20, kind := 0, physBase := 0xA00, tenant := 0x11F, st := .granted, generation := 7 }
theorem test_placement : mapOffset extent42 0x3A2B5F40 = { lstack := 5, stripe := 0x1412B, index := 15 } ∧ extentUnits extent42 = 0x20 := by decide +kernel
/-- And back: the first chunk of that stripe is at 0x3A2B_5000. -/
theorem test_stripe_owner : stripeOwner { live with extents := [(0x42, extent42)] } 5 0x1412B = some (0x42, 0x3A2B5000) := by decide +kernel
/-- 02: ACCESS_0 gives hosts 0x2C0 to 0x2C7 READ and WRITE, ACCESS_1 hosts 0x300 to 0x33F READ. -/
theorem test_rights : [0x2BF, 0x2C0, 0x2C7, 0x2C8, 0x300, 0x305, 0x33F, 0x340].map (rightsOf extent42.access (fun _ => true)) = [0, 3, 3, 0, 1, 1, 1, 0] := by decide +kernel
/-- 05, Table 5.5: the DRAM address of that byte. -/
theorem test_dram_address : chanOfPos 0x1412B 15 = 26 ∧ chanOfPos 0x1412B 16 = 27 ∧ placeOf 0x1412B 15 = 43688 ∧ placeRow 43688 = 0x55 ∧ placeBank 43688 = 16 * 1 + 4 * 1 + 1 ∧ placePc 43688 = 0 := by decide +kernel
/-- 04, Table 4.3: the directory entry of offset 0x4812_3400. -/
theorem test_directory_entry :
    let e : Extent := { access := [], base := 0x240, size := 0x10, kind := 1, target := 2, dirBase := 0x030, physBase := 0, tenant := 0x11F }
    (mapOffset e 0x48123400).lstack = 4 * 2 + 3 ∧ windowIndex e 0x48123400 = 0x61234 := by decide +kernel
/-- 01, Table 1.4: a 2 MiB leaf maps PVA 0x101_7409_ABCD. -/
theorem test_walk : leafAt { tenant := 7, leaves := [(0x10174000000 / 65536 / 32 * 32, { level := 2, frame := 0x106314E600000 / 65536, read := true, write := false })] } (0x1017409ABCD / 65536) =
    some (0x10174000000 / 65536, { level := 2, frame := 0x106314E600000 / 65536, read := true, write := false }) ∧
    0x106314E600000 + (0x1017409ABCD - 0x10174000000) = 0x106314E69ABCD := by decide +kernel
/-- 08, Table 8.18: VDOTB a0, v1, v2, E4M3_E4M3, p0, 5. -/
theorem test_encoding : wordOf 0x3A { d := 0, a := 1, b := 2, fn := 5 } = 0xE8011005 := by decide
/-- 08: 300.5 in a lane, and Table 8.19's eight readings of it. -/
theorem test_w48 : round48 (.fin false 601 (-1)) = 0x4079640000000000 := by decide +kernel
theorem test_aread :
    let r := fun (f : Fmt) k rtz sat => readLane f 0x4079640000000000 k rtz sat
    [r fp32 0 false false, r bf16 0 false false, r e4m3 0 false false, r e4m3 (-1) false false, r e4m3 1 false false, r e4m3 1 false true, r e4m3 1 true false, r (fmtD 6) 0 false false] =
      [0x43964000, 0x4396, 0x79, 0x71, 0x7F, 0x7E, 0x7E, 0x7F] := by decide +kernel
/-- 08, R220: NaN, infinity and values beyond the range, by target. -/
theorem test_conversions :
    [0, 1, 2, 3, 4, 7, 8].map (fun c => encodeElem (fmtD c) .nan false false) = [0x7F, 0x7E, 0, 0, 0, 0x7FC0, 0x7FC00000] ∧
    [0, 1, 2, 3, 4, 7, 8].map (fun c => encodeElem (fmtD c) (.inf true) false false) = [0x7F, 0xFC, 0x3F, 0x3F, 0xF, 0xFF80, 0xFF800000] := by decide +kernel
/-- 08, R217: the special cases of integer and floating arithmetic. -/
theorem test_element_arithmetic :
    vopElem 6 0 0x7F 1 = 0x80 ∧ vopElem 6 8 0x80 0 = 0x80 ∧ vopElem 8 0 0x7F7FFFFF 0x7F7FFFFF = 0x7F800000 ∧ vopElem 8 1 0x7F800000 0x7F800000 = 0x7FC00000 ∧ vopElem 8 3 0x7FC00000 0x40000000 = 0x40000000 ∧
    vopElem 7 2 0x3F80 0x4040 = 0x4040 := by decide +kernel
/-- 10, R254: the check value of CRC-32 of IEEE 802.3. -/
theorem test_crc32 : crc32 [0x31, 0x32, 0x33, 0x34, 0x35, 0x36, 0x37, 0x38, 0x39] = 0xCBF43926 := by decide +kernel
/-- 13: the first block of FIPS 197, appendix C.3 (AES-256). -/
theorem test_aes : (aesEncrypt (aesRoundKeys 0x000102030405060708090a0b0c0d0e0f101112131415161718191a1b1c1d1e1f) [0x00, 0x11, 0x22, 0x33, 0x44, 0x55, 0x66, 0x77, 0x88, 0x99, 0xaa, 0xbb, 0xcc, 0xdd, 0xee, 0xff]) =
    [0x8e, 0xa2, 0xb7, 0xca, 0x51, 0x67, 0x45, 0xbf, 0xea, 0xfc, 0x49, 0x90, 0x4b, 0x49, 0x60, 0x89] := by decide +kernel
/-- 13: SHA-384 of "abc" (FIPS 180-4). -/
theorem test_sha384 : sha384 [0x61, 0x62, 0x63] =
    0xcb00753f45a35e8bb5a03d699ac65007272c32ab0eded1631a8b605a43ff5bed8086072ba1e7cc2358baeca134c825a7 := by decide +kernel
/-- The table gives its rows no bits. -/
theorem test_decode : decodeTableWord 0 0 = none ∧ decodeTableWord 8 0xFF = none ∧ (live.withFetchWord 8 0xFF) = live := ⟨rfl, rfl, rfl⟩
/-- Right after reset the queue is empty and the block idles (one clock of 4 ns). -/
theorem test_reset_idles : State.reset.pending = [] ∧ ∃ t, step State.reset = .next t ∧ t.time.clock = State.reset.time.clock + 1 := ⟨rfl, _, rfl, by decide +kernel⟩
/-! ### Single commands -/

/-- 08, Table 8.4: SRA shifts by sb [5:0]; the high product of −1 and −1 is 0 signed; division by zero. -/
theorem test_alu : (threadOf? (after (exec (.alu tr (fl 3 4 5 7)) (prog 1 (fl 3 4 5 7) (thread 0x8000000000000000 65 0)))) 5 2).map (fun th => (sreg th 3, th.pc)) = some (0xC000000000000000, 2) := by decide +kernel
theorem test_alu_functions :
    [aluOp 8 (-1) (-1), aluOp 9 (-1) (-1), aluOp 10 (-1) (-1), aluOp 10 (-1) 1, aluOp 11 (-1) 1, aluOp 13 (-1) 1, aluOp 15 (-1) 1, aluOp 16 (-1) 1, aluOp 17 5 0, aluOp 18 5 0, aluOp 19 0 0] =
      [some 1, some 0xFFFFFFFFFFFFFFFE, some 0, some 0xFFFFFFFFFFFFFFFF, some 0xFFFFFFFFFFFFFFFF, some 1, some 1, some 0, some 0xFFFFFFFFFFFFFFFF, some 5, none] := by decide +kernel
/-- 01, R23: an offset at 896 GiB is answered ADDRESS_INVALID. -/
theorem test_address_invalid : (after (exec (.read .darinlink { request 0x01 with address := 0xE000000000 }) live)).link.dl.waiting.map (fun p => (p.opcode, p.status, p.tag)) = [(0x30, 0x09, 11)] := by decide +kernel
/-- 11: POWER_LIMIT below 800 W is answered 0xFC, with the order's code and number. -/
theorem test_power_limit : (after (exec (.powerLimit order 799) live)).wire.map (fun w => match w with | WireRec.message p _ => (p.opcode, p.status, p.tag) | _ => (0, 0, 0)) = [(0x39, 0xFC, 4)] := by decide +kernel
/-- 12, Table 12.3: HUB_FAILED halts the module. -/
theorem test_halt : (after (exec (.errorLine true 0 0xC800 0xC1 5) live)).fault.halted = true ∧ (after (exec (.errorLine true 0 0xC800 0xC1 5) live)).hub.ready = false := by decide +kernel
/-- 15: 999 ns of RESET_N do nothing, 10 µs reset the module. -/
theorem test_reset_pin : (after (exec (.resetNLow 999) live)).power.stage = .running ∧ (after (exec (.resetNLow 10000) live)).power.stage = .held ∧ (after (exec (.resetNLow 10000) live)).power.resetCause = 1 := by decide +kernel
/-- 15: the device code. -/
theorem test_idcode : (after (exec .idcode live)).wire = [.jtag ((List.range 32).map (fun i => (0x11604C95 : Nat).testBit i))] := by decide +kernel
/-- 10: eight lanes that work, from the lowest; four where eight do not. -/
theorem test_lane_map : laneMapOf 0x1FE [] = some [1, 2, 3, 4, 5, 6, 7, 8] ∧ laneMapOf 0x1FF [2] = some [0, 1, 3, 4, 5, 6, 7, 8] := by decide +kernel
/-- 11: a sequence number is taken once. -/
theorem test_sequence : (takeSeq {} 6).isSome = true ∧ ((takeSeq {} 6).bind (fun m => takeSeq m 6)) = none := by decide +kernel
end Sys2Proof.Tests
end

/-! Pool accesses of the engines (07, R184, R193; 08, R210 to R214; 01, R25): what an instruction of space 0 does is one tile. -/

namespace Sys2Proof.Machine

@[simp] theorem leBytes_length (n v : Nat) : (leBytes n v).length = n := by
  induction n generalizing v with
  | zero => rfl
  | succ n ih => simp [leBytes, ih]

/-- An instruction in the pool: a canonical footprint becomes one new tile and the thread goes on; any other ends the thread NON_CANONICAL (01, R25; 07, R193). -/
def IssuesTile (s : State) (t : ThreadRef) (i : Instr) (th : Thread) (x : Tile) : Prop :=
  (x.canonical = true → exec i s = .next (passPointer (setThread (newTile s x) t.engine t.thread { th with pc := nextPc th }) t)) ∧
  (x.canonical = false → exec i s = .next (passPointer (failThread s t.engine t.thread { status := 0x83, pva := x.badPva }) t))

/-- A legal word whose effect on its thread is the pool access of a tile issues that tile. -/
theorem issuesTile_of_poolAccess {s : State} {t : ThreadRef} {op : Nat} {f : Fields} {regs : List Nat} {p : Spray} {th th' : Thread}
    {i : Instr} {x : Tile} {legal : Bool} {act : Spray → Thread → Act} (r : Ready s t op f regs p th)
    (hexec : exec i s = issue s t op f legal regs act) (hlegal : legal = true) (hact : act p th = .go (poolAccess s t th' x)) :
    IssuesTile s t i th' x := by
  have step : exec i s = .next (passPointer (poolAccess s t th' x) t) := by
    rw [hexec, hlegal, issue_ready r, hact]
  constructor
  · intro hc
    rw [step, poolAccess, if_pos hc]
    rfl
  · intro hc
    rw [step, poolAccess, if_neg (by simp [hc])]

/-! ### One row (08, R210) -/

/-- A load of one row from the pool that nothing holds. -/
theorem loadRow_pool {s : State} {t : ThreadRef} {p : Spray} {th : Thread} {at_ n : Nat} {acquire : Bool} {use : TileUse}
    (hheld : memHeld s t true false = false) :
    loadRow s t p th 0 at_ n acquire use =
      .go (poolAccess s t th (threadTile t th p at_ 1 n 0 Op.readNoalloc use (List.replicate n 0) acquire)) := by
  simp [loadRow, hheld]

/-- A store of one row to the pool that nothing holds. -/
theorem storeRow_pool {s : State} {t : ThreadRef} {p : Spray} {th : Thread} {at_ : Nat} {bs : List Byte} {release : Bool}
    (hheld : memHeld s t true release = false) :
    storeRow s t p th 0 at_ bs release =
      .go (poolAccess s t th (threadTile t th p at_ 1 bs.length 0 Op.writeNoalloc .store bs false)) := by
  simp [storeRow, hheld]

/-- Bit [11] of the B field is clear where the field is even (08, Table 8.7). -/
theorem bLow_of_even {f : Fields} (h : f.b.toNat % 2 = 0) : bLow f = false := by
  simp [bLow, BitVec.getLsbD, Nat.testBit_zero, h]

section
variable {s : State} {t : ThreadRef} {f : Fields} {p : Spray} {th : Thread}

theorem ld_issuesTile (hspace : bSpace f = 0) (hheld : memHeld s t true false = false) (r : Ready s t 0x20 f [rS f.d, rS f.a] p th) :
    IssuesTile s t (.ld t f) th (threadTile t th p (memAddr th f / 2 ^ bSize f * 2 ^ bSize f) 1 (2 ^ bSize f) 0 Op.readNoalloc
      (.scalarLoad f.d.toNat (2 ^ bSize f) (bLow f)) (List.replicate (2 ^ bSize f) 0) (fnMark f)) := by
  refine issuesTile_of_poolAccess r rfl ?_ ?_
  · simp [hspace]
  · simp only [hspace, loadRow_pool hheld]

theorem st_issuesTile (hspace : bSpace f = 0) (heven : f.b.toNat % 2 = 0) (hheld : memHeld s t true (fnMark f) = false)
    (r : Ready s t 0x21 f [rS f.d, rS f.a] p th) :
    IssuesTile s t (.st t f) th (threadTile t th p (memAddr th f / 2 ^ bSize f * 2 ^ bSize f) 1 (2 ^ bSize f) 0 Op.writeNoalloc .store
      (leBytes (2 ^ bSize f) (sreg th f.d.toNat).toNat) false) := by
  refine issuesTile_of_poolAccess r rfl ?_ ?_
  · simp [hspace, bLow_of_even heven]
  · simp only [hspace, storeRow_pool hheld, leBytes_length]

theorem vld_issuesTile (hspace : bSpace f = 0) (heven : f.b.toNat % 2 = 0) (hd : f.d.toNat < 16) (hheld : memHeld s t true false = false)
    (r : Ready s t 0x22 f [rV f.d, rS f.a] p th) :
    IssuesTile s t (.vld t f) th (threadTile t th p (memAddr th f) 1 (lenBytes (bSize f)) 0 Op.readNoalloc
      (.vectorLoad f.d.toNat (lenBytes (bSize f))) (List.replicate (lenBytes (bSize f)) 0) (fnMark f)) := by
  refine issuesTile_of_poolAccess r rfl ?_ ?_
  · simp [hspace, bLow_of_even heven, isV, hd]
  · simp only [hspace, loadRow_pool hheld]

theorem vst_issuesTile (hspace : bSpace f = 0) (heven : f.b.toNat % 2 = 0) (hd : f.d.toNat < 16) (hheld : memHeld s t true (fnMark f) = false)
    (r : Ready s t 0x23 f [rV f.d, rS f.a] p th) :
    IssuesTile s t (.vst t f) th (threadTile t th p (memAddr th f) 1 (lenBytes (bSize f)) 0 Op.writeNoalloc .store
      (leBytes (lenBytes (bSize f)) (vreg th f.d.toNat).toNat) false) := by
  refine issuesTile_of_poolAccess r rfl ?_ ?_
  · simp [hspace, bLow_of_even heven, isV, hd]
  · simp only [hspace, storeRow_pool hheld, leBytes_length]

/-! ### Groups, atomics and tiles (08, R212 to R214) -/

theorem vldg_issuesTile (hspace : gSpace f = 0) (hd : f.d.toNat < 16) (hstride : (sreg th f.b.toNat).toNat < 2 ^ 32)
    (hheld : memHeld s t true false = false) (r : Ready s t 0x24 f [rV f.d, rS f.a, rS f.b] p th) :
    IssuesTile s t (.vldg t f) th (threadTile t th p (gBase th f) 16 (gBytes f) (sreg th f.b.toNat).toNat Op.readNoalloc
      (.gather f.d.toNat (gBytes f)) (List.replicate (16 * gBytes f) 0) (gMark f)) := by
  refine issuesTile_of_poolAccess r rfl ?_ ?_
  · simp [hspace, isV, hd]
  · simpa [hspace, hheld] using hstride

theorem vstg_issuesTile (hspace : gSpace f = 0) (hd : f.d.toNat < 16) (hstride : (sreg th f.b.toNat).toNat < 2 ^ 32)
    (hheld : memHeld s t true (gMark f) = false) (r : Ready s t 0x25 f [rV f.d, rS f.a, rS f.b] p th) :
    IssuesTile s t (.vstg t f) th (threadTile t th p (gBase th f) 16 (gBytes f) (sreg th f.b.toNat).toNat Op.writeNoalloc .store
      (leBytes (16 * gBytes f) (vreg th f.d.toNat).toNat) false) := by
  refine issuesTile_of_poolAccess r rfl ?_ ?_
  · simp [hspace, isV, hd]
  · simpa [hspace, hheld] using hstride

theorem atom_issuesTile (hlow : f.fn.toNat % 16 = 0) (hspace : f.fn.toNat / 64 % 4 = 0) (hheld : memHeld s t true (f.fn.getLsbD 4) = false)
    (r : Ready s t 0x26 f [rS f.d, rS f.a, rS f.b] p th) :
    IssuesTile s t (.atom t f) th (threadTile t th p ((sreg th f.a.toNat).toNat / 8 * 8) 1 8 0 (Op.atomicAdd + f.fn.toNat / 256)
      (.atomic f.d.toNat (Op.atomicAdd + f.fn.toNat / 256))
      (leBytes 8 (sreg th f.b.toNat).toNat ++ (if Op.atomicAdd + f.fn.toNat / 256 = Op.atomicCas then leBytes 8 (sreg th f.d.toNat).toNat else []))
      (f.fn.getLsbD 5)) := by
  refine issuesTile_of_poolAccess r rfl ?_ ?_
  · simp [hlow, hspace]
  · simpa [hspace] using hheld

/-- The tile of a transfer of a shape, by its direction (08, R214). -/
def moveTile (s : State) (t : ThreadRef) (f : Fields) (load : Bool) (p : Spray) (th : Thread) (rows rowBytes stride : Nat) : Tile :=
  let on := (sreg th f.d.toNat).toNat
  let base := (sreg th f.a.toNat).toNat
  if load then threadTile t th p base rows rowBytes stride Op.readNoalloc (.tileLoad on) (List.replicate (rows * rowBytes) 0) (fnMark f)
  else threadTile t th p base rows rowBytes stride Op.writeNoalloc .tileStore (readScratch s t.engine t.thread on (rows * rowBytes)) false

/-- A transfer that has room, whose shape is valid and whose scratch side is in the window. -/
theorem tileMove_go {load : Bool} {rows rowBytes stride : Nat} (hshape : tileShape (sreg th f.b.toNat) = some (rows, rowBytes, stride))
    (hroom : th.tiles < 8) (hheld : memHeld s t true (!load && fnMark f) = false) (hwindow : (sreg th f.d.toNat).toNat + rows * rowBytes ≤ th.scratchBytes) :
    tileMove s t f load p th =
      .go (poolAccess s t { th with tiles := th.tiles + 1 } (moveTile s t f load p th rows rowBytes stride)) := by
  unfold tileMove
  simp only [hshape, hheld, Bool.or_false, decide_eq_true_eq, if_neg (Nat.not_le.mpr hroom), if_neg (Nat.not_lt.mpr hwindow)]
  rfl

/-- A shape register whose reserved bits are clear. -/
theorem tileShape_eq {x : Word} (hhigh : bits x.toNat 31 22 = 0) (hlow : bits x.toNat 15 9 = 0) :
    tileShape x = some (bits x.toNat 21 16 + 1, bits x.toNat 8 0 + 1, bits x.toNat 63 32) := if_pos ⟨hhigh, hlow⟩

theorem tload_issuesTile {rows rowBytes stride : Nat} (hfn : f.fn.toNat % 1024 = 0)
    (hshape : tileShape (sreg th f.b.toNat) = some (rows, rowBytes, stride)) (hroom : th.tiles < 8)
    (hwindow : (sreg th f.d.toNat).toNat + rows * rowBytes ≤ th.scratchBytes) (hheld : memHeld s t true false = false)
    (r : Ready s t 0x27 f [rS f.d, rS f.a, rS f.b] p th) :
    IssuesTile s t (.tload t f) { th with tiles := th.tiles + 1 } (moveTile s t f true p th rows rowBytes stride) := by
  refine issuesTile_of_poolAccess r rfl ?_ (tileMove_go hshape hroom hheld hwindow)
  simp [hfn]

theorem tstore_issuesTile {rows rowBytes stride : Nat} (hfn : f.fn.toNat % 1024 = 0)
    (hshape : tileShape (sreg th f.b.toNat) = some (rows, rowBytes, stride)) (hroom : th.tiles < 8)
    (hwindow : (sreg th f.d.toNat).toNat + rows * rowBytes ≤ th.scratchBytes) (hheld : memHeld s t true (fnMark f) = false)
    (r : Ready s t 0x28 f [rS f.d, rS f.a, rS f.b] p th) :
    IssuesTile s t (.tstore t f) { th with tiles := th.tiles + 1 } (moveTile s t f false p th rows rowBytes stride) := by
  refine issuesTile_of_poolAccess r rfl ?_ (tileMove_go hshape hroom hheld hwindow)
  simp [hfn]

end

end Sys2Proof.Machine

section
open Sys2Proof Sys2Proof.Machine

/-- Settles O33: each instruction's effect in space 0 is the pool access of one tile. -/
theorem poolAccessesIssueTiles : Obligations.PoolAccessesIssueTiles := by
  unfold Obligations.PoolAccessesIssueTiles
  intro s t f p th
  refine ⟨fun hspace => ⟨fun hheld => ⟨?ld, ?vld⟩, fun hheld heven => ⟨?st, ?vst⟩⟩, fun hspace hd hstride => ⟨?vldg, ?vstg⟩, ?atom, ?tiles⟩
  case ld => exact fun r => ld_issuesTile hspace hheld r
  case vld => exact fun hd heven r => vld_issuesTile hspace heven hd hheld r
  case st => exact fun r => st_issuesTile hspace heven hheld r
  case vst => exact fun hd r => vst_issuesTile hspace heven hd hheld r
  case vldg => exact fun hheld r => vldg_issuesTile hspace hd hstride hheld r
  case vstg => exact fun hheld r => vstg_issuesTile hspace hd hstride hheld r
  case atom => exact fun hlow hspace hheld r => atom_issuesTile hlow hspace hheld r
  case tiles =>
    intro hfn hroom hhigh hlow rows rowBytes stride on th1 hwindow
    have hshape := tileShape_eq hhigh hlow
    exact ⟨fun hheld r => tload_issuesTile hfn hshape hroom hwindow hheld r, fun hheld r => tstore_issuesTile hfn hshape hroom hwindow hheld r⟩

end

/-! What the operations on ports, failovers and the fault log leave unchanged (10; 12, R311). -/

namespace Sys2Proof.Machine

/-! ### Events and ports -/

theorem when_true {c : Bool} {s t : State} (h : c = true) : when c s t = .next t := by rw [when, if_pos h]
theorem when_false {c : Bool} {s t : State} (h : c = false) : when c s t = .next s := by subst h; rfl

theorem isPort_of_lt {n : Nat} (h : n < 32) : isPort n = true := decide_eq_true h

theorem passed_iff {s : State} {t d : Nat} : passed s t d = true ↔ t + d ≤ s.time.clock := decide_eq_true_iff
theorem passed_eq_false_iff {s : State} {t d : Nat} : passed s t d = false ↔ s.time.clock < t + d := by
  rw [← Bool.not_eq_true, passed_iff, Nat.not_le]

/-- The partner of a port is another port of its pair (01, R14). -/
theorem partner_ne (n : Nat) : partner n ≠ n := by unfold partner; omega

/-- A second entry of a key replaces the first. -/
theorem tset_tset {α : Type} (t : Tab α) (n : Nat) (v w : α) : tset (tset t n v) n w = tset t n w := by
  induction t with
  | nil => simp [tset]
  | cons e t ih =>
    obtain ⟨k, x⟩ := e
    unfold tset
    by_cases h : k = n
    · simp [h, tset]
    · by_cases l : n < k <;> simp [h, l, tset, ih]

/-- Two updates of a port are one. -/
theorem modPort_modPort (s : State) (n : Nat) (f g : Port → Port) : modPort (modPort s n f) n g = modPort s n (fun p => g (f p)) := by
  simp [modPort, tmod, tset_tset]

theorem portOf_modPort_same (s : State) (n : Nat) (f : Port → Port) : portOf (modPort s n f) n = f (portOf s n) :=
  (portOf_modPort ..).trans (if_pos rfl)

@[simp] theorem failoverOf_modPort (s : State) (n m : Nat) (f : Port → Port) : failoverOf (modPort s n f) m = failoverOf s m := rfl
@[simp] theorem portOf_setFailover (s : State) (pair n : Nat) (f : Failover) : portOf (setFailover s pair f) n = portOf s n := rfl

/-! ### The ports and failovers stand -/

/-- The ports and the failovers of their pairs stand as they were, and no time has passed. -/
structure SameLinks (s t : State) : Prop where
  ports : t.link.ports = s.link.ports
  failovers : t.link.failovers = s.link.failovers
  clock : t.time.clock = s.time.clock

namespace SameLinks

theorem refl (s : State) : SameLinks s s := ⟨rfl, rfl, rfl⟩

theorem trans {s t u : State} (h : SameLinks s t) (k : SameLinks t u) : SameLinks s u :=
  ⟨k.ports.trans h.ports, k.failovers.trans h.failovers, k.clock.trans h.clock⟩

theorem ite {s t u : State} {c : Prop} [Decidable c] (ht : SameLinks s t) (hu : SameLinks s u) : SameLinks s (if c then t else u) := by
  split <;> assumption

theorem foldl {α : Type} {f : State → α → State} (hf : ∀ s x, SameLinks s (f s x)) : ∀ (l : List α) (s : State), SameLinks s (l.foldl f s)
  | [], s => .refl s
  | x :: l, s => (hf s x).trans (foldl hf l (f s x))

/-- An update of parts that hold neither links nor time. -/
theorem of_eq {s t : State} (hlink : t.link = s.link) (htime : t.time = s.time) : SameLinks s t :=
  ⟨by rw [hlink], by rw [hlink], by rw [htime]⟩

theorem portOf {s t : State} (h : SameLinks s t) (n : Nat) : portOf t n = Machine.portOf s n := by
  rw [Machine.portOf, Machine.portOf, h.ports]

theorem failoverOf {s t : State} (h : SameLinks s t) (pair : Nat) : failoverOf t pair = Machine.failoverOf s pair := by
  rw [Machine.failoverOf, Machine.failoverOf, h.failovers]

theorem savedValid {s t : State} (h : SameLinks s t) (p : Port) : savedValid t p = Machine.savedValid s p := by
  simp only [Machine.savedValid, now, h.clock]
  rfl

end SameLinks

/-! ### NOTE faults (12, R311) -/

/-- A NOTE fault enters the fault log and the lifetime record, and touches nothing else. -/
theorem note_eq (s : State) (hub : Bool) (region unit cause detail : Nat) :
    ∃ fault life, note s hub region unit cause detail = { s with fault := fault, life := life } := by
  unfold note
  extract_lets _ timed counted same
  have hcounted : ∃ fault, counted = { s with fault := fault } := by
    unfold counted
    split <;> exact ⟨_, rfl⟩
  obtain ⟨_, hcounted⟩ := hcounted
  split <;> rw [hcounted] <;> exact ⟨_, _, rfl⟩

section
variable (s : State) (region unit cause detail : Nat)

@[simp] theorem noteR_link : (noteR s region unit cause detail).link = s.link := by
  obtain ⟨_, _, h⟩ := note_eq s false region unit cause detail
  rw [noteR, h]

@[simp] theorem noteR_time : (noteR s region unit cause detail).time = s.time := by
  obtain ⟨_, _, h⟩ := note_eq s false region unit cause detail
  rw [noteR, h]

@[simp] theorem noteR_hub : (noteR s region unit cause detail).hub = s.hub := by
  obtain ⟨_, _, h⟩ := note_eq s false region unit cause detail
  rw [noteR, h]

@[simp] theorem noteR_wire : (noteR s region unit cause detail).wire = s.wire := by
  obtain ⟨_, _, h⟩ := note_eq s false region unit cause detail
  rw [noteR, h]

theorem noteR_sameLinks : SameLinks s (noteR s region unit cause detail) := .of_eq (noteR_link ..) (noteR_time ..)

end

/-- A replacement that completes is a NOTE fault, and its unit leaves the list of those that are out (12, R320). -/
theorem replaced_eq (s : State) (hub : Bool) (region unit : Nat) :
    ∃ fault life, replaced s hub region unit = { s with fault := fault, life := life } := by
  obtain ⟨_, _, h⟩ := note_eq (unitBack s hub region unit) hub region unit Cause.replacementDone unit
  exact ⟨_, _, h⟩

/-! ### Self-test slices (14, R345, R349) -/

theorem dlBefore_sameLinks (s : State) (n : Nat) : SameLinks s (dlBefore s n) := by
  unfold dlBefore
  exact .ite ⟨rfl, rfl, rfl⟩ ⟨rfl, rfl, rfl⟩

theorem askWidth_sameLinks (s : State) (w : Nat) : SameLinks s (askWidth s w) := by
  unfold askWidth sendDlCtrl
  refine .ite ?_ (.refl s)
  exact SameLinks.trans (t := modDl s _) ⟨rfl, rfl, rfl⟩ ((dlBefore_sameLinks _ 1).trans (.of_eq rfl rfl))

theorem sliceEntry_sameLinks (s : State) (k : Nat) (e : SliceEntry) : SameLinks s (sliceEntry s k e) := by
  unfold sliceEntry
  exact .ite (.of_eq rfl rfl) (.of_eq rfl rfl)

theorem wakeChan_sameLinks (s : State) (p c : Nat) : SameLinks s (wakeChan s p c) :=
  .of_eq (by simp only [wakeChan, refreshAll, issueCmds, modChan_link, modPchan_link])
    (by simp only [wakeChan, refreshAll, issueCmds, modChan_time, modPchan_time])

theorem loadTiming_sameLinks (s : State) (p c : Nat) : SameLinks s (loadTiming s p c) := .of_eq rfl rfl

/-- The end of a slice touches the unit, its stack and the lifetime record; Darinlink may ask for a width. -/
theorem sliceOver_sameLinks (s : State) (k outcome : Nat) : SameLinks s (sliceOver s k outcome) := by
  unfold sliceOver
  extract_lets b
  split
  · exact .refl s
  next u seg since _ _ =>
    extract_lets closed counted freed awake asked
    have hclosed : SameLinks s closed := .of_eq rfl rfl
    clear_value closed
    have hcounted : SameLinks closed counted := .ite (.of_eq rfl rfl) (.ite (.of_eq rfl rfl) (.refl _))
    clear_value counted
    have hfreed : SameLinks counted freed := .ite (.of_eq rfl rfl) (.refl _)
    clear_value freed
    have hawake : SameLinks freed awake := by
      unfold awake
      split
      · exact (loadTiming_sameLinks ..).trans (wakeChan_sameLinks ..)
      · exact .refl _
    clear_value awake
    have hasked : SameLinks awake asked := .ite (askWidth_sameLinks _ 0) (.refl _)
    exact ((((hclosed.trans hcounted).trans hfreed).trans hawake).trans hasked).trans (.ite (.of_eq rfl rfl) (sliceEntry_sameLinks ..))

theorem yieldSlice_sameLinks (s : State) (k unit : Nat) : SameLinks s (yieldSlice s k unit) := by
  unfold yieldSlice
  split
  · exact .ite (sliceOver_sameLinks ..) (.refl s)
  · exact .refl s

end Sys2Proof.Machine
/-! Sending (03, R77; 10, R256; 11, R281): what a packet or a reply that leaves changes of a port. -/

namespace Sys2Proof.Machine

/-- A port without what sending changes: its next SEQ, replay buffer, packets that wait, and replay timer (10, R256). -/
def Port.unsent (p : Port) : Port := { p with nextSeq := 0, replay := [], waiting := [], timerFrom := 0 }

/-- Packets may have left or wait on the ports; else the ports and the failovers of their pairs stand. -/
structure OnlySends (s t : State) : Prop where
  ports : ∀ n, (portOf t n).unsent = (portOf s n).unsent
  failovers : t.link.failovers = s.link.failovers

namespace OnlySends

theorem refl (s : State) : OnlySends s s := ⟨fun _ => rfl, rfl⟩

theorem trans {s t u : State} (h : OnlySends s t) (k : OnlySends t u) : OnlySends s u :=
  ⟨fun n => (k.ports n).trans (h.ports n), k.failovers.trans h.failovers⟩

theorem of_ports {s t : State} (hports : t.link.ports = s.link.ports) (hfailovers : t.link.failovers = s.link.failovers) : OnlySends s t :=
  ⟨fun n => by rw [portOf, portOf, hports], hfailovers⟩

/-- A port is changed in what sending changes alone. -/
theorem of_modPort (s : State) (n : Nat) {f : Port → Port} (hf : ∀ p, (f p).unsent = p.unsent) : OnlySends s (modPort s n f) := by
  refine ⟨fun m => ?_, rfl⟩
  rw [portOf_modPort]
  split
  next h => rw [hf, h]
  · rfl

theorem foldl {α : Type} {f : State → α → State} (hf : ∀ s x, OnlySends s (f s x)) : ∀ (l : List α) (s : State), OnlySends s (l.foldl f s)
  | [], s => .refl s
  | x :: l, s => (hf s x).trans (foldl hf l (f s x))

section
variable {s t : State} (h : OnlySends s t) (n : Nat)
include h

theorem st : (portOf t n).st = (portOf s n).st := by
  have unsent := congrArg Port.st (h.ports n)
  exact unsent
theorem stopped : (portOf t n).stopped = (portOf s n).stopped := by
  have unsent := congrArg Port.stopped (h.ports n)
  exact unsent
theorem failoverOf (pair : Nat) : failoverOf t pair = Machine.failoverOf s pair := by
  rw [Machine.failoverOf, Machine.failoverOf, h.failovers]

end
end OnlySends

/-! ### Packets on ports and on Darinlink -/

theorem pump_onlySends (n : Nat) : ∀ (l kept : List Packet) (s : State), OnlySends s (pump s n l kept)
  | [], _, s => .of_modPort s n fun _ => rfl
  | pk :: rest, kept, s => by
    unfold pump
    extract_lets p sent
    split
    · have hsent : OnlySends s sent := .of_modPort s n fun _ => rfl
      have hemit : ∀ r, OnlySends sent (emit sent r) := fun _ => .of_ports rfl rfl
      exact (hsent.trans (hemit _)).trans (pump_onlySends n rest kept _)
    · exact pump_onlySends n rest _ s

theorem flushPort_onlySends (s : State) (n : Nat) : OnlySends s (flushPort s n) := pump_onlySends ..

theorem sendOn_onlySends (s : State) (n : Nat) (pk : Packet) : OnlySends s (sendOn s n pk) := by
  unfold sendOn
  refine OnlySends.trans ?_ (flushPort_onlySends ..)
  exact .of_modPort s n fun _ => rfl

theorem replyPort_onlySends (s : State) (n : Nat) : OnlySends s (replyPort s n).2 := by
  unfold replyPort
  dsimp only
  repeat' split
  all_goals exact .of_ports rfl rfl

theorem dlPump_onlySends : ∀ (l kept : List Packet) (s : State), OnlySends s (dlPump s l kept)
  | [], _, _ => .of_ports rfl rfl
  | m :: rest, kept, s => by
    unfold dlPump
    extract_lets d c raw sent
    split
    · have hbefore := dlBefore_sameLinks s 1
      have hsent : OnlySends s (emit sent (.message m raw)) := .of_ports hbefore.ports hbefore.failovers
      exact hsent.trans (dlPump_onlySends rest kept _)
    · exact dlPump_onlySends rest _ s

theorem sendDl_onlySends (s : State) (m : Packet) : OnlySends s (sendDl s m) := by
  unfold sendDl flushDl
  extract_lets d
  split
  · exact .of_ports rfl rfl
  · refine OnlySends.trans ?_ (dlPump_onlySends ..)
    exact .of_ports rfl rfl

/-! ### Replies to orders (11, R281, R285) -/

theorem replyParts_onlySends (h : OrderHdr) (code status : Nat) (res : List Byte) (parts : Nat) :
    ∀ (l : List Nat) (s : State), OnlySends s (replyParts s h code status res parts l)
  | [], s => .refl s
  | i :: rest, s => by
    unfold replyParts
    refine OnlySends.trans ?_ (replyParts_onlySends h code status res parts rest _)
    split
    · exact sendDl_onlySends ..
    next n _ =>
      have hcount : OnlySends s (nextCounter s 4).2 := .of_ports rfl rfl
      exact (hcount.trans (replyPort_onlySends _ n)).trans (sendOn_onlySends ..)

theorem settleOrder_onlySends (s : State) (h : OrderHdr) : OnlySends s (settleOrder s h) := by
  unfold settleOrder
  split <;> exact .of_ports rfl rfl

theorem finish_onlySends (s : State) (h : OrderHdr) (code status : Nat) (res : List Byte) : OnlySends s (finish s h code status res) :=
  (settleOrder_onlySends s h).trans (replyParts_onlySends ..)

/-- The orders that wait for a retraining are answered and wait no more (10, Table 10.12). -/
theorem answerRetrain_onlySends (s : State) (n st : Nat) : OnlySends (modPort s n (fun p => { p with retrainWaits := [] })) (answerRetrain s n st) :=
  .foldl (fun s h => finish_onlySends s h ..) _ _

theorem answerRetrain_of_none {s : State} {n : Nat} (st : Nat) (h : (portOf s n).retrainWaits = []) :
    answerRetrain s n st = modPort s n (fun p => { p with retrainWaits := [] }) := by
  rw [answerRetrain, h]
  rfl

end Sys2Proof.Machine
/-! The exchange of a training or bring-up (10, R263 to R265; 01, R19). -/

namespace Sys2Proof.Machine

/-! ### Control flits -/

/-- The trailer of a control flit tells its port's receive point, missing SEQs, generation and next SEQ, and its pair's XOFF (10, Table 10.3). -/
theorem ctrlFlit_congr {s t : State} {n : Nat} (r : CtrlRec) (hclock : t.time.clock = s.time.clock) (hpairs : t.link.pairs = s.link.pairs)
    (hnaked : (portOf t n).naked = (portOf s n).naked) (hexpected : (portOf t n).expected = (portOf s n).expected)
    (hgen : (portOf t n).gen = (portOf s n).gen) (hseq : (portOf t n).nextSeq = (portOf s n).nextSeq) :
    ctrlFlit t n r = ctrlFlit s n r := by
  simp only [ctrlFlit, flitRaw, recvPoint, pairBuf, now, hclock, hpairs, hnaked, hexpected, hgen, hseq]

theorem portOf_sendRepeated (s : State) (n m : Nat) (r : CtrlRec) : portOf (sendRepeated s n r) m =
    if n = m then { portOf s n with repeats := (portOf s n).repeats ++ [{ rec_ := r, first := now s, last := now s }] } else portOf s m :=
  portOf_modPort ..

/-- The port whose lanes are in FEC lock repeats its LINK_HELLO (10, R263). -/
theorem portOf_lockFec (s : State) (n : Nat) : portOf (lockFec s n) n =
    { portOf s n with fecLock := true, repeats := (portOf s n).repeats ++ [{ rec_ := helloOf n (portOf s n), first := now s, last := now s }] } := by
  rw [lockFec, portOf_sendRepeated, if_pos rfl, portOf_modPort_same]
  rfl

/-- LINK_HELLO does not tell the lock that lets it out. -/
theorem helloOf_lockFec (s : State) (n : Nat) : helloOf n (portOf (lockFec s n) n) = helloOf n (portOf s n) := by
  simp only [helloOf, portOf_lockFec]

theorem ctrlFlit_lockFec (s : State) (n : Nat) (r : CtrlRec) : ctrlFlit (lockFec s n) n r = ctrlFlit s n r := by
  refine ctrlFlit_congr (s := s) (t := lockFec s n) r rfl rfl ?_ ?_ ?_ ?_ <;> rw [portOf_lockFec]

/-- The lanes are in FEC lock: LINK_HELLO goes out (10, R263, R265). -/
theorem lockFec_wire (s : State) (n : Nat) :
    (lockFec s n).wire = s.wire ++ [.ctrl n (helloOf n (portOf s n)) (ctrlFlit s n (helloOf n (portOf s n)))] := by
  rw [← ctrlFlit_lockFec]
  rfl

/-! ### A new exchange -/

theorem useEntries_sameLinks (s : State) (n : Nat) (vcs : List Nat) (take : Bool) : SameLinks s (useEntries s n vcs take) := ⟨rfl, rfl, rfl⟩

/-- Flits held beyond a gap give back their buffer entries (10, R261, R270). -/
theorem giveBack_sameLinks (n : Nat) (l : List RxFlit) (s : State) : SameLinks s (l.foldl (fun s f => useEntries s n (flitVcs f.packets) false) s) :=
  .foldl (fun s _ => useEntries_sameLinks s n _ false) l s

theorem portOf_dropHeldFlits (s : State) (n m : Nat) :
    portOf (dropHeldFlits s n) m = if n = m then { portOf s n with held := [], missing := [], naked := [] } else portOf s m := by
  have hgiven := giveBack_sameLinks n (portOf s n).held s
  rw [dropHeldFlits, portOf_modPort, hgiven.portOf, hgiven.portOf]

theorem failoverOf_dropHeldFlits (s : State) (n pair : Nat) : failoverOf (dropHeldFlits s n) pair = failoverOf s pair :=
  (giveBack_sameLinks n (portOf s n).held s).failoverOf pair

section
variable (s : State) (n : Nat) (st : PortState) (prev : Option (Nat × Nat))

/-- The port of a new exchange: its state, its receive point before, lanes without lock. -/
theorem beginExchange_port : (portOf (beginExchange s n st prev) n).st = st ∧ (portOf (beginExchange s n st prev) n).prevRecvPoint = prev ∧
    (portOf (beginExchange s n st prev) n).trainedLanes = false := by
  rw [beginExchange, portOf_modPort_same]
  exact ⟨rfl, rfl, rfl⟩

theorem portOf_beginExchange_of_ne {m : Nat} (h : n ≠ m) : portOf (beginExchange s n st prev) m = portOf s m := by
  rw [beginExchange, portOf_modPort, if_neg h, portOf_dropHeldFlits, if_neg h]

theorem failoverOf_beginExchange (pair : Nat) : failoverOf (beginExchange s n st prev) pair = failoverOf s pair :=
  failoverOf_dropHeldFlits s n pair

end

/-! ### LINK_HELLO and LINK_READY (10, R263) -/

theorem resolveKnown_of_none {s : State} {pair : Nat} (pick : OrphanSet → Bool) (point : Nat) (h : failoverOf s pair = none) : resolveKnown s pair pick point = s := by
  rw [resolveKnown, h]

theorem resolveUnknown_of_none {s : State} {pair : Nat} (pick : OrphanSet → Bool) (h : failoverOf s pair = none) : resolveUnknown s pair pick = s := by
  rw [resolveUnknown, h]

section
variable {s : State} {n : Nat}

theorem exec_linkHello (hn : n < 32) (hruns : hubRuns s = true) (r : HelloRec) : exec (.linkHello n r) s = .next (onHello s n r) :=
  when_true (by rw [isPort_of_lt hn, hruns]; rfl)

theorem exec_linkAssign (hn : n < 32) (hruns : hubRuns s = true) (r : AssignRec) : exec (.linkAssign n r) s = .next (onAssign s n r) :=
  when_true (by rw [isPort_of_lt hn, hruns]; rfl)

theorem exec_linkReady (hn : n < 32) (hruns : hubRuns s = true) (gen : Nat) : exec (.linkReady n gen) s = .next (onReady s n gen) :=
  when_true (by rw [isPort_of_lt hn, hruns]; rfl)

theorem onHello_of_outside (r : HelloRec) (h : inExchange (portOf s n) = false) : onHello s n r = s := by
  simp [onHello, h]

/-- Where no failover of the pair runs, LINK_HELLO ends the repeats of this end's own alone. -/
theorem onHello_of_none (r : HelloRec) (h : inExchange (portOf s n) = true) (hnone : failoverOf s (n % 16) = none) :
    onHello s n r = modPort s n (fun p => { p with helloRx := true, repeats := p.repeats.filter (fun x => !isHello x.rec_) }) := by
  simp only [onHello, h, Bool.not_true, Bool.false_eq_true, if_false]
  split
  · exact resolveKnown_of_none _ _ hnone
  · exact resolveUnknown_of_none _ hnone

theorem onReady_of_agreed (hexchange : inExchange (portOf s n) = true) (hassigned : (portOf s n).assigned = true) :
    onReady s n (portOf s n).gen = modPort s n (fun p => { p with readyRx := true, repeats := [] }) := by
  simp [onReady, hexchange, hassigned]

theorem onReady_of_other {gen : Nat} (h : gen ≠ (portOf s n).gen) : onReady s n gen = s := by
  simp [onReady, h]

end

/-! ### LINK_ASSIGN (10, R263, R264; 01, R19, R22) -/

/-- What a LINK_ASSIGN offers suits a port: it names the port's plane, and the manager recorded for the plane, or one may change there (01, R22). -/
def assignSuits (s : State) (n : Nat) (r : AssignRec) : Prop :=
  r.plane = n / 16 ∧ ((∀ m, mgrOf s (n / 16) = some m → m = r.managerId) ∨ mgrMayChange s n = true)

/-- The state whose endpoint ID is the one that a LINK_ASSIGN offers. -/
def withEndpoint (s : State) (r : AssignRec) : State := { s with hub := { s.hub with endpointId := some r.endpointId } }

section
variable {s : State} {n : Nat} {r : AssignRec}

/-- The manager that an assignment names is not another one than the plane's, unless it may change. -/
theorem managerSuits_iff : ((mgrOf s (n / 16)).any (· != r.managerId) && !mgrMayChange s n) = false ↔
    (∀ m, mgrOf s (n / 16) = some m → m = r.managerId) ∨ mgrMayChange s n = true := by
  cases mgrOf s (n / 16) <;> cases mgrMayChange s n <;> simp

/-- An assignment with the module's endpoint ID, or the first one: what it offers is recorded, or noted. -/
theorem judgeAssign_eq (hid : ∀ i, s.hub.endpointId = some i → i = r.endpointId) : judgeAssign s n r =
    if r.plane ≠ n / 16 then (true, noteR (withEndpoint s r) (portRegion n) (portUnit n) Cause.planeMismatch)
    else if ((mgrOf s (n / 16)).any (· != r.managerId) && !mgrMayChange s n) = true then
      (true, noteR (withEndpoint s r) (portRegion n) (portUnit n) Cause.managerMismatch)
    else (false, setMgr (withEndpoint s r) (n / 16) r.managerId) := by
  unfold judgeAssign
  extract_lets k u idBad _ offered mgrBad
  have hidBad : idBad = false := by
    unfold idBad
    split
    next i hi => simp [hid i hi]
    · rfl
  have hoffered : offered = withEndpoint s r := if_neg (by simp [hidBad])
  rw [hidBad, hoffered]
  refine ite_congr rfl (fun _ => rfl) (fun _ => ?_)
  have hmgrBad : mgrBad = ((mgrOf s (n / 16)).any (· != r.managerId) && !mgrMayChange s n) := by
    have hsame : mgrOf (withEndpoint s r) (n / 16) = mgrOf s (n / 16) := rfl
    unfold mgrBad
    rw [hoffered, hsame]
    cases mgrOf s (n / 16) <;> rfl
  rw [hmgrBad]
  rfl

/-- One that suits the port: the manager is recorded. -/
theorem judgeAssign_of_suits (hid : ∀ i, s.hub.endpointId = some i → i = r.endpointId) (h : assignSuits s n r) :
    judgeAssign s n r = (false, setMgr (withEndpoint s r) (n / 16) r.managerId) := by
  obtain ⟨hplane, hmanager⟩ := h
  rw [judgeAssign_eq hid, if_neg (not_not_intro hplane), managerSuits_iff.mpr hmanager]
  rfl

/-- One that does not suit it is noted, and the port is to be held. -/
theorem judgeAssign_of_not_suits (hid : ∀ i, s.hub.endpointId = some i → i = r.endpointId) (h : ¬ assignSuits s n r) :
    ∃ cause, judgeAssign s n r = (true, noteR (withEndpoint s r) (portRegion n) (portUnit n) cause) := by
  rw [judgeAssign_eq hid]
  by_cases hplane : r.plane = n / 16
  · have hbad := mt managerSuits_iff.mp (fun hmanager => h ⟨hplane, hmanager⟩)
    rw [if_neg (not_not_intro hplane), if_pos (by simpa using hbad)]
    exact ⟨_, rfl⟩
  · rw [if_pos hplane]
    exact ⟨_, rfl⟩

/-- The assignment is taken, with the port to be held or not, and answered (10, R263). -/
def takeAssign (s : State) (n : Nat) (r : AssignRec) (held : Bool) : State :=
  sendRepeated (modPort s n (fun p => { p with
    assigned := true, offeredHeld := held, gen := r.portGen, switchPort := r.switchPort, savedSwitch := some (r.switchSerial, r.switchPort), readyTx := true })) n (.ready r.portGen)

theorem onAssign_of_proposed (hexchange : inExchange (portOf s n) = true) (hassigned : (portOf s n).assigned = false)
    (hgen : r.portGen = ((portOf s n).gen + 1) % 256) : onAssign s n r = takeAssign (judgeAssign s n r).2 n r (judgeAssign s n r).1 := by
  unfold onAssign
  extract_lets p
  rw [if_neg (by simp [p, hexchange]), if_neg (by simp [p, hassigned]), if_neg (not_not_intro hgen)]
  rfl

theorem takeAssign_wire (held : Bool) : (takeAssign s n r held).wire = s.wire ++ [.ctrl n (.ready r.portGen) (ctrlFlit (takeAssign s n r held) n (.ready r.portGen))] := rfl

/-- The port of an assignment taken: its new generation and switch, LINK_READY sent. -/
theorem takeAssign_port (held : Bool) : let p := portOf (takeAssign s n r held) n
    p.assigned = true ∧ p.gen = r.portGen ∧ p.switchPort = r.switchPort ∧ p.savedSwitch = some (r.switchSerial, r.switchPort) ∧ p.readyTx = true ∧ p.offeredHeld = held := by
  rw [takeAssign, portOf_sendRepeated, if_pos rfl, portOf_modPort_same]
  exact ⟨rfl, rfl, rfl, rfl, rfl, rfl⟩

theorem mgrOf_setMgr (plane id : Nat) : mgrOf (setMgr s plane id) plane = some id := by
  by_cases h : plane = 0 <;> simp [mgrOf, setMgr, h]
theorem setMgr_endpointId (plane id : Nat) : (setMgr s plane id).hub.endpointId = s.hub.endpointId := by
  by_cases h : plane = 0 <;> simp [setMgr, h]

/-- LINK_ASSIGN of the generation proposed, with the module's endpoint ID or its first one (10, R263, R264): it is taken and answered, and where it does not suit the port, the port is to be held (01, R19). -/
theorem linkAssign_taken (hn : n < 32) (hruns : hubRuns s = true) (hexchange : inExchange (portOf s n) = true) (hassigned : (portOf s n).assigned = false)
    (hgen : r.portGen = ((portOf s n).gen + 1) % 256) (hid : ∀ i, s.hub.endpointId = some i → i = r.endpointId) :
    ∃ u held, exec (.linkAssign n r) s = .next (takeAssign u n r held) ∧ u.wire = s.wire ∧ u.hub.endpointId = some r.endpointId ∧
      (held = false ↔ assignSuits s n r) ∧ (held = false → mgrOf u (n / 16) = some r.managerId) ∧
      (held = true → u.hub.mgrA = s.hub.mgrA ∧ u.hub.mgrB = s.hub.mgrB) := by
  rw [exec_linkAssign hn hruns, onAssign_of_proposed hexchange hassigned hgen]
  by_cases h : assignSuits s n r
  · rw [judgeAssign_of_suits hid h]
    exact ⟨_, _, rfl, rfl, setMgr_endpointId .., by simp [h], fun _ => mgrOf_setMgr .., by simp⟩
  · obtain ⟨cause, hjudge⟩ := judgeAssign_of_not_suits hid h
    rw [hjudge]
    exact ⟨_, _, rfl, noteR_wire .., by rw [noteR_hub]; rfl, by simp [h], by simp, fun _ => by simp only [noteR_hub]; exact ⟨rfl, rfl⟩⟩

end

end Sys2Proof.Machine
/-! Training, bring-up and changes of side (10, R252, R253, R265, R266, R269, R273, R274). -/

namespace Sys2Proof.Machine

/-! ### Lane maps (10, R252, R253) -/

/-- A lane map has 8 or 4 lanes, each found good and not known to be bad. -/
theorem laneMapOf_some {good : BitVec 9} {bad map : List Nat} (h : laneMapOf good bad = some map) :
    (map.length = 8 ∨ map.length = 4) ∧ ∀ l ∈ map, l < 9 ∧ good.getLsbD l = true ∧ l ∉ bad := by
  have hgood : ∀ (k : Nat), ∀ l ∈ ((List.range 9).filter (fun i => good.getLsbD i && !bad.contains i)).take k, l < 9 ∧ good.getLsbD l = true ∧ l ∉ bad := by
    intro k l hl
    simpa using List.mem_of_mem_take hl
  unfold laneMapOf at h
  extract_lets lanes at h
  split at h
  next h8 =>
    cases h
    exact ⟨.inl (List.length_take_of_le h8), hgood 8⟩
  · split at h
    next h4 =>
      cases h
      exact ⟨.inr (List.length_take_of_le h4), hgood 4⟩
    · cases h

/-! ### What a port becomes -/

section
variable {s : State} {n : Nat}

theorem endFailover_of_none {pair : Nat} (h : failoverOf s pair = none) : endFailover s pair = s := by
  rw [endFailover, h]

/-- A port of a pair without a failover begins to carry traffic, but while it awaits a reset (10, R259, R269). -/
theorem activatePort_of_none (h : failoverOf s (n % 16) = none) :
    (portOf (activatePort s n) n).st = .active ∧ (portOf (activatePort s n) n).stopped = awaitsReset (portOf s n) := by
  unfold activatePort
  extract_lets active _ found settled
  have hsettled : settled = found := by
    unfold settled
    split
    next f hf => cases hf.symm.trans h
    · rfl
  have hport : (portOf found n).st = .active ∧ (portOf found n).stopped = awaitsReset (portOf s n) := by
    have hactive : portOf found n = portOf active n := rfl
    rw [hactive, portOf_modPort_same]
    exact ⟨rfl, rfl⟩
  have hsends := (answerRetrain_onlySends settled n Sts.success).trans (flushPort_onlySends _ n)
  have hnone : failoverOf (flushPort (answerRetrain settled n Sts.success) n) (n % 16) = none := by
    rw [hsends.failoverOf, failoverOf_modPort, hsettled]
    exact h
  rw [endFailover_of_none hnone, hsends.st, hsends.stopped, portOf_modPort_same, hsettled]
  exact hport

theorem sideFailed_of_none (st : Nat) (h : failoverOf s (n % 16) = none) : sideFailed s n st = (false, s) := by
  rw [sideFailed, h]

/-- A port of a pair without a failover is held (01, R19; 10, R264). -/
theorem holdPort_of_none (h : failoverOf s (n % 16) = none) : (portOf (holdPort s n) n).st = .held := by
  unfold holdPort
  extract_lets held answered
  have hanswered : OnlySends (modPort held n (fun p => { p with retrainWaits := [] })) answered := answerRetrain_onlySends ..
  have hnone : failoverOf answered (n % 16) = none := (hanswered.failoverOf _).trans h
  rw [sideFailed_of_none _ hnone]
  refine (hanswered.st n).trans ?_
  rw [portOf_modPort_same, portOf_modPort_same]

/-! ### The end of a training (10, R252, R253, R265, R266, R274) -/

theorem inTraining_of_st (h : (portOf s n).st = .training) : inTraining (portOf s n) = true := by
  rw [inTraining, h]

theorem exec_portTrainingDone (hn : n < 32) (hruns : hubRuns s = true) (h : (portOf s n).st = .training) (good : BitVec 9) :
    exec (.portTrainingDone n good) s = .next (trainingDone s n good) :=
  when_true (by rw [isPort_of_lt hn, hruns, inTraining_of_st h, h]; rfl)

/-- The lane map of a training stands at its port, whose lanes have not yet lost lock. -/
theorem portOf_formMap (map : List Nat) : let p := portOf (formMap s n map) n
    p.laneMap = map ∧ p.narrow = decide (map.length = 4) ∧ p.st = (portOf s n).st ∧ p.gen = (portOf s n).gen := by
  rw [formMap, portOf_modPort_same]
  exact ⟨rfl, rfl, rfl, rfl⟩

/-- Good lanes form the map of a training, FEC locks, and LINK_HELLO goes out (10, R265, steps 3 to 5). -/
theorem trainingDone_of_map {good : BitVec 9} {map : List Nat} (hlock : (portOf s n).fecLock = false) (hmap : laneMapOf good (portOf s n).badLanes = some map) :
    trainingDone s n good = lockFec (formMap s n map) n := by
  simp [trainingDone, hlock, hmap]

theorem trainingDone_of_no_map {good : BitVec 9} (hlock : (portOf s n).fecLock = false) (hmap : laneMapOf good (portOf s n).badLanes = none) :
    trainingDone s n good = trainFailed s n := by
  simp [trainingDone, hlock, hmap]

theorem trainingDone_of_exchanged (good : BitVec 9) (hlock : (portOf s n).fecLock = true) (hover : exchanged (portOf s n) = true) :
    trainingDone s n good = afterTraining (trained s n) n := by
  simp [trainingDone, hlock, hover]

/-- An exchange that goes on for 50 ms fails the training (10, R265). -/
theorem trainingDone_of_exchanging (good : BitVec 9) (hlock : (portOf s n).fecLock = true) (hover : exchanged (portOf s n) = false) :
    trainingDone s n good = if passed s (portOf s n).since (ms 50) = true then trainFailed s n else s := by
  simp [trainingDone, hlock, hover]

/-- A training that has passed saves the port's state and that of its lanes; a lane newly replaced is counted and noted (10, R265, R266). -/
theorem trained_eq : ∃ fault life, trained s n =
    modPort (useFree { s with fault := fault, life := life }) n (fun p => { p with
      spareServes := p.laneMap.contains 8, trainedLanes := true, savedAt := some (now s), lanes := (List.range 9).map (Config.laneSettings (freeNo s)), repeats := [] }) := by
  unfold trained
  extract_lets p counted
  have hcounted : ∃ fault life, counted = { s with fault := fault, life := life } := by
    unfold counted
    split
    · obtain ⟨_, _, hreplaced⟩ := replaced_eq (lifeAdd s 0x040 1) false (portRegion n) (unitId Kind.lane (16 * n + p.spareFor))
      exact ⟨_, _, hreplaced⟩
    · exact ⟨_, _, rfl⟩
  obtain ⟨fault, life, hcounted⟩ := hcounted
  rw [hcounted]
  exact ⟨fault, life, rfl⟩

/-- The port of a training that has passed. -/
theorem portOf_trained : ∃ spare lanes, lanes.length = 9 ∧ portOf (trained s n) n = { portOf s n with
    spareServes := spare, trainedLanes := true, savedAt := some s.time.clock, lanes := lanes, repeats := [] } := by
  obtain ⟨_, _, h⟩ := trained_eq (s := s) (n := n)
  rw [h, portOf_modPort_same]
  exact ⟨_, _, by rw [List.length_map, List.length_range], rfl⟩

theorem failoverOf_trained (pair : Nat) : failoverOf (trained s n) pair = failoverOf s pair := by
  obtain ⟨_, _, h⟩ := trained_eq (s := s) (n := n)
  rw [h]
  rfl

theorem startupTraining_trained : startupTraining (trained s n) n = startupTraining s n := by
  obtain ⟨_, _, h⟩ := trained_eq (s := s) (n := n)
  rw [h]
  rfl

/-- After start-up, where no failover of the pair runs, a trained port that is not refreshed is held or resynchronises (10, R264, R274). -/
theorem afterTraining_of_none (hstart : startupTraining s n = false) (hnone : failoverOf s (n % 16) = none) (hrefresh : (portOf s n).refresh = false) :
    afterTraining s n = if (portOf s n).offeredHeld = true then holdPort s n else toResync s n := by
  simp [afterTraining, hstart, helloOver, resolveUnknown_of_none _ hnone, hnone, hrefresh]

theorem portOf_toResync : portOf (toResync s n) n = { portOf s n with st := .resync, since := now s, refresh := false } :=
  portOf_modPort_same ..

/-! ### Bring-up (10, R269, R273) -/

theorem exec_portBringupDone (hn : n < 32) (h : (portOf s n).st = .bringup) (ok : Bool) :
    exec (.portBringupDone n ok) s = .next (bringupDone s n ok) :=
  when_true (by rw [isPort_of_lt hn, h]; rfl)

/-- A bring-up that fails becomes a full training (10, R269). -/
theorem bringupDone_failed : bringupDone s n false = beginExchange (noteR s (portRegion n) (portUnit n) Cause.savedStateFail) n .training none := rfl

theorem bringupDone_of_lock (hlock : (portOf s n).fecLock = false) : bringupDone s n true = lockFec s n := by
  simp [bringupDone, hlock]

theorem bringupDone_of_exchanged (hlock : (portOf s n).fecLock = true) (hover : exchanged (portOf s n) = true) (hheld : (portOf s n).offeredHeld = false)
    (hnone : failoverOf s (n % 16) = none) : bringupDone s n true = activatePort s n := by
  simp [bringupDone, hlock, hover, hheld, hnone]

theorem exchanged_of_ready (htx : (portOf s n).readyTx = true) (hrx : (portOf s n).readyRx = true) : exchanged (portOf s n) = true := by
  simp [exchanged, htx, hrx]

/-! ### Changes of side (10, R269, R273) -/

/-- A partner that is COLD is brought up, from valid saved state without a full training (10, R269). -/
theorem bringUpPartner_of_cold (h : (portOf s (partner n)).st = .cold) :
    ∃ u st, SameLinks s u ∧ bringUpPartner s n = (true, beginExchange u (partner n) st none) ∧ (savedValid s (portOf s (partner n)) = true → st = .bringup) := by
  have hyield := yieldSlice_sameLinks s (portRegion (partner n)) (portUnit (partner n))
  unfold bringUpPartner
  extract_lets m yielded p
  have hp : p = portOf s (partner n) := hyield.portOf m
  rw [hp, h]
  dsimp only
  rw [hyield.savedValid]
  split
  · exact ⟨_, _, hyield, rfl, fun _ => rfl⟩
  next hinvalid => exact ⟨_, _, hyield.trans (noteR_sameLinks ..), rfl, fun hvalid => absurd hvalid hinvalid⟩

theorem exec_plannedChangeDrain {pair : Nat} {f : Failover} (h : failoverOf s pair = some f) :
    exec (.plannedChangeDrain pair) s =
      when (f.draining && portActive s f.from_ && ((portOf s f.from_).replay.isEmpty || passed s f.since (us 20))) s (changeDrained s pair f) := by
  show execPlannedChangeDrain pair s = _
  rw [execPlannedChangeDrain, h]

/-- A change of side whose old port has no flit to be acknowledged brings up the partner. -/
theorem changeDrained_of_empty {pair : Nat} {f : Failover} (hreplay : (portOf s f.from_).replay = []) (hcold : (portOf s (partner f.from_)).st = .cold)
    (hvalid : savedValid s (portOf s (partner f.from_)) = true) :
    ∃ u, SameLinks (setFailover s pair { f with draining := false }) u ∧ changeDrained s pair f = beginExchange u (partner f.from_) .bringup none := by
  obtain ⟨u, st, hsame, hbring, hst⟩ := bringUpPartner_of_cold (s := setFailover s pair { f with draining := false }) (n := f.from_) hcold
  refine ⟨u, hsame, ?_⟩
  have hvalid' : savedValid (setFailover s pair { f with draining := false }) (portOf s (partner f.from_)) = true := hvalid
  simp only [changeDrained, hreplay, List.isEmpty_nil, if_true, hbring, hst hvalid']

/-- A query changes no port's state, and no failover. -/
theorem sendQuery_keeps (id m : Nat) : (portOf (sendQuery s n id) m).st = (portOf s m).st ∧ (sendQuery s n id).link.failovers = s.link.failovers := by
  unfold sendQuery
  split
  · rw [portOf_sendRepeated]
    split
    next h => exact ⟨by rw [h], rfl⟩
    · exact ⟨rfl, rfl⟩
  · exact ⟨rfl, rfl⟩

/-- The flits that a port has not seen acknowledged join its pair's failover, and the far end is asked for its receive point (10, R270). -/
theorem holdOrphans_asked (f : Failover) : (∀ m, (portOf (holdOrphans s n f false) m).st = (portOf s m).st) ∧
    ∃ o : OrphanSet, failoverOf (holdOrphans s n f false) (n % 16) = some { f with sets := f.sets ++ [o] } ∧ o.port = n ∧
      o.seqs = (portOf s n).replay.map (fun x => (x.seq, x.packets)) ∧ o.done = (portOf s n).replay.isEmpty ∧ o.byHello = false := by
  unfold holdOrphans
  extract_lets p id point orphans _ held
  refine ⟨fun m => (sendQuery_keeps id m).1, orphans, ?_, rfl, rfl, rfl, rfl⟩
  have hheld : failoverOf held (n % 16) = some { f with sets := f.sets ++ [orphans] } := by
    simp [held, failoverOf]
  exact (congrArg (fun t => tget? t (n % 16)) (sendQuery_keeps (s := held) (n := n) id 0).2).trans hheld

/-- One whose old port has such flits makes them orphans, asked of the far end, and brings up the partner (10, R270, R273). -/
theorem changeDrained_of_orphans {f : Failover} (hreplay : (portOf s f.from_).replay ≠ []) (hcold : (portOf s (partner f.from_)).st = .cold) :
    ∃ o : OrphanSet, failoverOf (changeDrained s (f.from_ % 16) f) (f.from_ % 16) =
        some { f with draining := false, since := now s, sets := f.sets ++ [o] } ∧ o.port = f.from_ ∧
      o.seqs = (portOf s f.from_).replay.map (fun x => (x.seq, x.packets)) ∧ o.done = false ∧ o.byHello = false := by
  obtain ⟨hst, o, hfailover, hport, hseqs, hdone, hhello⟩ := holdOrphans_asked (s := s) (n := f.from_) { f with draining := false, since := now s }
  have hfull : (portOf s f.from_).replay.isEmpty = false := List.isEmpty_eq_false_iff.mpr hreplay
  obtain ⟨u, st, hsame, hbring, -⟩ := bringUpPartner_of_cold ((hst (partner f.from_)).trans hcold)
  refine ⟨o, ?_, hport, hseqs, hdone.trans hfull, hhello⟩
  simp only [changeDrained, hfull, Bool.false_eq_true, if_false, hbring, if_true]
  rw [failoverOf_beginExchange, hsame.failoverOf, hfailover]

/-! ### Resynchronisation and refresh (10, R266, R274) -/

/-- What PORT_RESYNC_DONE waits for: 1 ms of IDLE without error, and no request for a reset nor failover of the pair (10, R274). -/
def resyncOver (s : State) (n : Nat) : Bool :=
  let p := portOf s n
  p.st == .resync && p.trainedLanes && !awaitsReset p && passed s p.since (ms 1) && (p.crcTimes ++ p.protoTimes).all (fun t => passed s t (ms 1)) && (failoverOf s (n % 16)).isNone

theorem exec_portResyncDone : exec (.portResyncDone n) s = when (resyncOver s n) s (answerRetrain (standBy s n) n Sts.success) := rfl

theorem exec_savedStateExpiry (hn : n < 32) (hruns : hubRuns s = true) (hcold : (portOf s n).st = .cold) (hfree : refreshing s (portRegion n) = false) :
    exec (.savedStateExpiry n) s = .next (beginRefresh s n) :=
  when_true (by rw [isPort_of_lt hn, hruns, hcold, hfree]; rfl)

/-- A COLD port that begins the refresh of its saved state trains fully; no other port changes (10, R266). -/
theorem portOf_beginRefresh (m : Nat) : portOf (beginRefresh s n) m =
    if n = m then { portOf (beginExchange s n .resync none) n with refresh := true } else portOf s m := by
  rw [beginRefresh, portOf_modPort]
  split
  · rfl
  next h => exact portOf_beginExchange_of_ne _ _ _ _ h

end

end Sys2Proof.Machine
/-! The events of training, bring-up, change of side, resynchronisation and refresh (10, R265, R266, R269, R273, R274). -/

namespace Sys2Proof.Machine

section
variable {s : State} {n : Nat}

/-! ### PORT_TRAINING_DONE (10, R265) -/

section
variable (hn : n < 32) (hruns : hubRuns s = true) (hst : (portOf s n).st = .training) (good : BitVec 9)
include hn hruns hst

theorem portTrainingDone_of_map {map : List Nat} (hlock : (portOf s n).fecLock = false) (hmap : laneMapOf good (portOf s n).badLanes = some map) :
    ∃ t, exec (.portTrainingDone n good) s = .next t ∧ (portOf t n).laneMap = map ∧ (portOf t n).narrow = decide (map.length = 4) ∧
      (portOf t n).fecLock = true ∧ (portOf t n).st = .training ∧ (portOf t n).gen = (portOf s n).gen ∧
      t.wire = s.wire ++ [.ctrl n (helloOf n (portOf t n)) (ctrlFlit t n (helloOf n (portOf t n)))] := by
  obtain ⟨hlanes, hnarrow, hstate, hgen⟩ := portOf_formMap (s := s) (n := n) map
  refine ⟨lockFec (formMap s n map) n, ?_, ?_⟩
  · rw [exec_portTrainingDone hn hruns hst, trainingDone_of_map hlock hmap]
  · rw [lockFec_wire, helloOf_lockFec, ctrlFlit_lockFec, portOf_lockFec]
    exact ⟨hlanes, hnarrow, rfl, hstate.trans hst, hgen, rfl⟩

/-- What follows the exchange of a training that no failover awaits (10, R264, R274). -/
theorem portTrainingDone_of_exchanged (hstart : startupTraining s n = false) (hnone : failoverOf s (n % 16) = none) (hrefresh : (portOf s n).refresh = false)
    (hlock : (portOf s n).fecLock = true) (hover : exchanged (portOf s n) = true) :
    exec (.portTrainingDone n good) s = .next (if (portOf s n).offeredHeld = true then holdPort (trained s n) n else toResync (trained s n) n) := by
  obtain ⟨spare, lanes, -, hport⟩ := portOf_trained (s := s) (n := n)
  rw [exec_portTrainingDone hn hruns hst, trainingDone_of_exchanged good hlock hover,
    afterTraining_of_none (startupTraining_trained.trans hstart) ((failoverOf_trained _).trans hnone) (by rw [hport]; exact hrefresh), hport]

theorem portTrainingDone_of_ready (hstart : startupTraining s n = false) (hnone : failoverOf s (n % 16) = none) (hrefresh : (portOf s n).refresh = false)
    (hlock : (portOf s n).fecLock = true) (htx : (portOf s n).readyTx = true) (hrx : (portOf s n).readyRx = true) (hheld : (portOf s n).offeredHeld = false) :
    ∃ t, exec (.portTrainingDone n good) s = .next t ∧ (portOf t n).st = .resync ∧ (portOf t n).trainedLanes = true ∧
      (portOf t n).savedAt = some s.time.clock ∧ (portOf t n).laneMap = (portOf s n).laneMap ∧ (portOf t n).lanes.length = 9 := by
  obtain ⟨spare, lanes, hlanes, hport⟩ := portOf_trained (s := s) (n := n)
  refine ⟨toResync (trained s n) n, ?_, ?_⟩
  · rw [portTrainingDone_of_exchanged hn hruns hst good hstart hnone hrefresh hlock (exchanged_of_ready htx hrx), hheld]
    rfl
  · rw [portOf_toResync, hport]
    exact ⟨rfl, rfl, rfl, rfl, hlanes⟩

theorem portTrainingDone_of_held (hstart : startupTraining s n = false) (hnone : failoverOf s (n % 16) = none) (hrefresh : (portOf s n).refresh = false)
    (hlock : (portOf s n).fecLock = true) (hassigned : (portOf s n).assigned = true) (hheld : (portOf s n).offeredHeld = true) :
    ∃ t, exec (.portTrainingDone n good) s = .next t ∧ (portOf t n).st = .held := by
  refine ⟨holdPort (trained s n) n, ?_, holdPort_of_none ((failoverOf_trained _).trans hnone)⟩
  rw [portTrainingDone_of_exchanged hn hruns hst good hstart hnone hrefresh hlock (by simp [exchanged, hassigned, hheld]), hheld]
  rfl

/-- An exchange under way ends the training once it has taken 50 ms (10, R265). -/
theorem portTrainingDone_of_exchanging (hlock : (portOf s n).fecLock = true) (hrx : (portOf s n).readyRx = false) (hheld : (portOf s n).offeredHeld = false) :
    (s.time.clock < (portOf s n).since + 12500000 → exec (.portTrainingDone n good) s = .next s) ∧
    ((portOf s n).since + 12500000 ≤ s.time.clock → exec (.portTrainingDone n good) s = .next (trainFailed s n)) := by
  rw [exec_portTrainingDone hn hruns hst, trainingDone_of_exchanging good hlock (by simp [exchanged, hrx, hheld])]
  constructor
  · intro hbefore
    rw [if_neg (by rw [passed_iff]; exact Nat.not_le.mpr hbefore)]
  · intro hafter
    have hpassed : passed s (portOf s n).since (ms 50) = true := passed_iff.mpr hafter
    rw [if_pos hpassed]

end

/-! ### PORT_BRINGUP_DONE (10, R269) -/

section
variable (hn : n < 32) (hst : (portOf s n).st = .bringup)
include hn hst

theorem portBringupDone_failed : ∃ t, exec (.portBringupDone n false) s = .next t ∧ (portOf t n).st = .training ∧ (portOf t n).prevRecvPoint = none := by
  obtain ⟨hstate, hprev, -⟩ := beginExchange_port (noteR s (portRegion n) (portUnit n) Cause.savedStateFail) n .training none
  exact ⟨_, by rw [exec_portBringupDone hn hst, bringupDone_failed], hstate, hprev⟩

theorem portBringupDone_of_lock (hlock : (portOf s n).fecLock = false) :
    ∃ t, exec (.portBringupDone n true) s = .next t ∧ (portOf t n).fecLock = true ∧ (portOf t n).st = .bringup ∧
      t.wire = s.wire ++ [.ctrl n (helloOf n (portOf s n)) (ctrlFlit s n (helloOf n (portOf s n)))] := by
  refine ⟨lockFec s n, by rw [exec_portBringupDone hn hst, bringupDone_of_lock hlock], ?_⟩
  rw [portOf_lockFec, lockFec_wire]
  exact ⟨rfl, hst, rfl⟩

theorem portBringupDone_of_ready (hlock : (portOf s n).fecLock = true) (htx : (portOf s n).readyTx = true) (hrx : (portOf s n).readyRx = true)
    (hheld : (portOf s n).offeredHeld = false) (hnone : failoverOf s (n % 16) = none) :
    ∃ t, exec (.portBringupDone n true) s = .next t ∧ (portOf t n).st = .active ∧ (portOf t n).stopped = awaitsReset (portOf s n) :=
  ⟨_, by rw [exec_portBringupDone hn hst, bringupDone_of_exchanged hlock (exchanged_of_ready htx hrx) hheld hnone], activatePort_of_none hnone⟩

end

/-! ### PLANNED_CHANGE_DRAIN (10, R273) -/

section
variable {f : Failover} (hf : failoverOf s n = some f) (hdraining : f.draining = true) (hactive : (portOf s f.from_).st = .active)
include hf hdraining hactive

/-- The change goes on once the old port's flits are acknowledged, or 20 µs have passed. -/
theorem plannedChangeDrain_eq : exec (.plannedChangeDrain n) s =
    when ((portOf s f.from_).replay.isEmpty || passed s f.since 5000) s (changeDrained s n f) := by
  have hold : portActive s f.from_ = true := by simp [portActive, hactive]
  rw [exec_plannedChangeDrain hf, hdraining, hold]
  rfl

theorem plannedChangeDrain_waits (hreplay : (portOf s f.from_).replay ≠ []) (hclock : s.time.clock < f.since + 5000) :
    exec (.plannedChangeDrain n) s = .next s := by
  rw [plannedChangeDrain_eq hf hdraining hactive, when_false]
  rw [List.isEmpty_eq_false_iff.mpr hreplay, passed_eq_false_iff.mpr hclock]
  rfl

theorem plannedChangeDrain_of_empty (hreplay : (portOf s f.from_).replay = []) (hcold : (portOf s (partner f.from_)).st = .cold)
    (hvalid : savedValid s (portOf s (partner f.from_)) = true) :
    ∃ t, exec (.plannedChangeDrain n) s = .next t ∧ failoverOf t n = some { f with draining := false } ∧
      (portOf t (partner f.from_)).st = .bringup ∧ portOf t f.from_ = portOf s f.from_ := by
  obtain ⟨u, hsame, hchange⟩ := changeDrained_of_empty (pair := n) hreplay hcold hvalid
  refine ⟨beginExchange u (partner f.from_) .bringup none, ?_, ?_, (beginExchange_port ..).1, ?_⟩
  · rw [plannedChangeDrain_eq hf hdraining hactive, hreplay, hchange]
    rfl
  · rw [failoverOf_beginExchange, hsame.failoverOf, failoverOf_setFailover, if_pos rfl]
  · rw [portOf_beginExchange_of_ne _ _ _ _ (partner_ne _), hsame.portOf, portOf_setFailover]

theorem plannedChangeDrain_of_orphans (hpair : f.from_ % 16 = n) (hreplay : (portOf s f.from_).replay ≠ []) (hclock : f.since + 5000 ≤ s.time.clock)
    (hcold : (portOf s (partner f.from_)).st = .cold) :
    ∃ (t : State) (g : Failover) (o : OrphanSet), exec (.plannedChangeDrain n) s = .next t ∧ failoverOf t n = some g ∧ g.draining = false ∧
      g.sets = f.sets ++ [o] ∧ o.port = f.from_ ∧ o.seqs = (portOf s f.from_).replay.map (fun x => (x.seq, x.packets)) ∧ o.done = false ∧ o.byHello = false := by
  obtain ⟨o, hfailover, hport, hseqs, hdone, hhello⟩ := changeDrained_of_orphans hreplay hcold
  rw [hpair] at hfailover
  refine ⟨_, _, o, ?_, hfailover, rfl, rfl, hport, hseqs, hdone, hhello⟩
  rw [plannedChangeDrain_eq hf hdraining hactive, when_true]
  rw [passed_iff.mpr hclock, Bool.or_true]

end

/-! ### PORT_RESYNC_DONE (10, R274) -/

theorem portResyncDone_of_error (h : ∃ x ∈ (portOf s n).crcTimes ++ (portOf s n).protoTimes, s.time.clock < x + 250000) :
    exec (.portResyncDone n) s = .next s := by
  obtain ⟨x, hx, hclock⟩ := h
  have herror : ((portOf s n).crcTimes ++ (portOf s n).protoTimes).all (fun t => passed s t (ms 1)) = false :=
    List.all_eq_false.mpr ⟨x, hx, by rw [passed_iff]; exact Nat.not_le.mpr hclock⟩
  rw [exec_portResyncDone, when_false]
  simp only [resyncOver, herror, Bool.and_false, Bool.false_and]

theorem portResyncDone_of_reset (h : awaitsReset (portOf s n) = true) : exec (.portResyncDone n) s = .next s := by
  rw [exec_portResyncDone, when_false]
  simp only [resyncOver, h, Bool.not_true, Bool.and_false, Bool.false_and]

/-- After 1 ms without error the port stands by, or becomes active where its pair has no active port. -/
theorem portResyncDone_of_quiet (hst : (portOf s n).st = .resync) (htrained : (portOf s n).trainedLanes = true) (hsince : (portOf s n).since + 250000 ≤ s.time.clock)
    (hnone : failoverOf s (n % 16) = none) (hreset : awaitsReset (portOf s n) = false)
    (hquiet : ∀ x ∈ (portOf s n).crcTimes ++ (portOf s n).protoTimes, x + 250000 ≤ s.time.clock) :
    exec (.portResyncDone n) s = .next (answerRetrain (standBy s n) n Sts.success) := by
  have hall : ((portOf s n).crcTimes ++ (portOf s n).protoTimes).all (fun t => passed s t (ms 1)) = true :=
    List.all_eq_true.mpr fun x hx => passed_iff.mpr (hquiet x hx)
  have hpassed : passed s (portOf s n).since (ms 1) = true := passed_iff.mpr hsince
  rw [exec_portResyncDone, when_true]
  simp only [resyncOver, hst, htrained, hreset, hpassed, hall, hnone]
  rfl

theorem standBy_answered_of_active (h : (portOf s (partner n)).st = .active) (hwaits : (portOf s n).retrainWaits = []) :
    answerRetrain (standBy s n) n Sts.success =
      modPort s n (fun p => { p with st := .cold, savedAt := some s.time.clock, since := s.time.clock, refresh := false, retrainWaits := [] }) := by
  have hstandBy : standBy s n = modPort s n (fun p => { p with st := .cold, savedAt := some (now s), since := now s, refresh := false }) :=
    if_pos (by simp [portActive, h])
  rw [hstandBy, answerRetrain_of_none _ (by rw [portOf_modPort_same]; exact hwaits), modPort_modPort]
  rfl

theorem standBy_answered_of_none (h : (portOf s (partner n)).st ≠ .active) (hnone : failoverOf s (n % 16) = none) :
    (portOf (answerRetrain (standBy s n) n Sts.success) n).st = .active := by
  have hstandBy : standBy s n = activatePort s n := if_neg (by simp [portActive, h])
  rw [hstandBy, (answerRetrain_onlySends ..).st, portOf_modPort_same]
  exact (activatePort_of_none hnone).1

/-! ### SAVED_STATE_EXPIRY (10, R266) -/

theorem savedStateExpiry_refreshes (hn : n < 32) (hruns : hubRuns s = true) (hcold : (portOf s n).st = .cold)
    (hfree : ∀ i < 8, (portOf s (regionPort (portRegion n) i)).st = .resync → (portOf s (regionPort (portRegion n) i)).refresh = false) :
    ∃ t, exec (.savedStateExpiry n) s = .next t ∧ (portOf t n).st = .resync ∧ (portOf t n).refresh = true ∧ (portOf t n).trainedLanes = false ∧
      ∀ m, m ≠ n → portOf t m = portOf s m := by
  have hnone : refreshing s (portRegion n) = false := by
    simpa [refreshing] using hfree
  obtain ⟨hst, -, htrained⟩ := beginExchange_port s n .resync none
  refine ⟨_, exec_savedStateExpiry hn hruns hcold hnone, ?_, ?_, ?_, fun m hm => ?_⟩
  · rw [portOf_beginRefresh, if_pos rfl]
    exact hst
  · rw [portOf_beginRefresh, if_pos rfl]
  · rw [portOf_beginRefresh, if_pos rfl]
    exact htrained
  · rw [portOf_beginRefresh, if_neg (Ne.symm hm)]

end

end Sys2Proof.Machine

section
open Sys2Proof Sys2Proof.Machine

/-- Settles O54: each event of an exchange, training, bring-up, change of side, resynchronisation and refresh, by its lemma on the operation it runs. -/
theorem linksTrainAndChange : Obligations.LinksTrainAndChange := by
  unfold Obligations.LinksTrainAndChange
  intro s n hn hruns p
  refine ⟨?hello, ?assign, ?ready, ?training, fun good map bad => laneMapOf_some, ?bringup, ?change, ?resync, ?refresh⟩
  case hello =>
    refine fun r => ⟨fun houtside => ?_, fun hexchange hnone => ?_⟩
    · rw [exec_linkHello hn hruns, onHello_of_outside r houtside]
    · rw [exec_linkHello hn hruns, onHello_of_none r hexchange hnone]
  case assign =>
    intro r hexchange hassigned hgen hid
    obtain ⟨u, held, hexec, hwire, hendpoint, hsuits, hmgr, hkeep⟩ := linkAssign_taken hn hruns hexchange hassigned hgen hid
    obtain ⟨hport, hnewGen, hswitch, hsaved, hready, hheld⟩ := takeAssign_port (s := u) (n := n) (r := r) held
    refine ⟨_, hexec, hendpoint, ?_, hport, hnewGen, hswitch, hsaved, hready, ?_⟩
    · rw [takeAssign_wire, hwire]
    · rw [hheld]
      exact ⟨hsuits, hmgr, hkeep⟩
  case ready =>
    refine fun g => ⟨fun hexchange hassigned hg => ?_, fun hg => ?_⟩
    · rw [exec_linkReady hn hruns, hg, onReady_of_agreed hexchange hassigned]
    · rw [exec_linkReady hn hruns, onReady_of_other hg]
  case training =>
    intro good hst hstart hnone hrefresh
    refine ⟨fun map => portTrainingDone_of_map hn hruns hst good, fun hlock hmap => ?_, portTrainingDone_of_ready hn hruns hst good hstart hnone hrefresh,
      fun hlock hassigned hheld _ => portTrainingDone_of_held hn hruns hst good hstart hnone hrefresh hlock hassigned hheld,
      portTrainingDone_of_exchanging hn hruns hst good⟩
    rw [exec_portTrainingDone hn hruns hst, trainingDone_of_no_map hlock hmap]
    rfl
  case bringup =>
    exact fun hst => ⟨portBringupDone_failed hn hst, portBringupDone_of_lock hn hst, portBringupDone_of_ready hn hst⟩
  case change =>
    intro f _ hf hpair _ hdraining hactive q
    exact ⟨plannedChangeDrain_waits hf hdraining hactive, plannedChangeDrain_of_empty hf hdraining hactive,
      plannedChangeDrain_of_orphans hf hdraining hactive hpair⟩
  case resync =>
    refine fun hst htrained hsince hnone => ⟨portResyncDone_of_error, portResyncDone_of_reset, fun hreset hquiet hwaits => ?_⟩
    have hexec := portResyncDone_of_quiet hst htrained hsince hnone hreset hquiet
    refine ⟨fun hactive => ?_, fun hpartner => ⟨_, hexec, standBy_answered_of_none hpartner hnone⟩⟩
    rw [hexec, standBy_answered_of_active hactive hwaits]
  case refresh =>
    exact fun hcold hfree => savedStateExpiry_refreshes hn hruns hcold hfree

end
/-! Numbers, bytes, lines and bit fields (00, R6): each layout reads back what it was made from. -/

namespace Sys2Proof.Machine

/-! ### Numbers and lines as bytes -/

theorem ofLe_lt : ∀ l : List Byte, ofLe l < 2 ^ (8 * l.length)
  | [] => by simp [ofLe]
  | b :: t => by
    have ht := ofLe_lt t
    have hb := b.isLt
    rw [ofLe, List.length_cons, Nat.mul_add, Nat.pow_add]
    omega

theorem ofLe_leBytes (n v : Nat) : ofLe (leBytes n v) = v % 2 ^ (8 * n) := by
  induction n generalizing v with
  | zero => simp [leBytes, ofLe, Nat.mod_one]
  | succ n ih =>
    rw [leBytes, ofLe, ih, BitVec.toNat_ofNat, Nat.shiftRight_eq_div_pow, Nat.mul_add, Nat.pow_add, Nat.mul_comm (2 ^ (8 * n)), Nat.mod_mul]

/-- A word of so many bytes is read back from them. -/
theorem ofLe_leBytes_toNat {n w : Nat} (h : 8 * n = w) (v : BitVec w) : ofLe (leBytes n v.toNat) = v.toNat := by
  rw [ofLe_leBytes, h, Nat.mod_eq_of_lt v.isLt]

theorem leBytes_ofLe : ∀ l : List Byte, leBytes l.length (ofLe l) = l
  | [] => rfl
  | b :: t => by
    have hb := b.isLt
    have hhead : BitVec.ofNat 8 (b.toNat + 256 * ofLe t) = b := BitVec.eq_of_toNat_eq (by rw [BitVec.toNat_ofNat]; omega)
    have htail : (b.toNat + 256 * ofLe t) >>> 8 = ofLe t := by rw [Nat.shiftRight_eq_div_pow]; omega
    rw [List.length_cons, ofLe, leBytes, hhead, htail, leBytes_ofLe t]

@[simp] theorem beBytes_length (n v : Nat) : (beBytes n v).length = n := by simp [beBytes]

theorem ofBe_beBytes (n v : Nat) : ofBe (beBytes n v) = v % 2 ^ (8 * n) := by
  rw [ofBe, beBytes, List.reverse_reverse, ofLe_leBytes]

@[simp] theorem lineBytes_length (l : Line) : (lineBytes l).length = 256 := leBytes_length ..

@[simp] theorem bytesLine_lineBytes (l : Line) : bytesLine (lineBytes l) = l := by
  have htake : (lineBytes l).take 256 = lineBytes l := List.take_of_length_le (Nat.le_of_eq (lineBytes_length l))
  rw [bytesLine, htake, lineBytes, ofLe_leBytes_toNat rfl, BitVec.ofNat_toNat, BitVec.setWidth_eq]

theorem toNat_ofNat_ofLe {n : Nat} {l : List Byte} (h : 8 * l.length = n) : (BitVec.ofNat n (ofLe l)).toNat = ofLe l := by
  rw [BitVec.toNat_ofNat, Nat.mod_eq_of_lt (h ▸ ofLe_lt l)]

theorem lineBytes_bytesLine {l : List Byte} (h : l.length = 256) : lineBytes (bytesLine l) = l := by
  rw [bytesLine, List.take_of_length_le (Nat.le_of_eq h), lineBytes, toNat_ofNat_ofLe (by rw [h]), ← h, leBytes_ofLe]

/-! ### Bit fields -/

/-- The width of a record. -/
def recWidth (t : List (Nat × Nat)) : Nat := (t.map Prod.fst).sum

@[simp] theorem recWidth_nil : recWidth [] = 0 := by rw [recWidth, List.map_nil, List.sum_nil]
@[simp] theorem recWidth_cons (w v : Nat) (t : List (Nat × Nat)) : recWidth ((w, v) :: t) = w + recWidth t := by rw [recWidth, List.map_cons, List.sum_cons, recWidth]

theorem packBits_lt : ∀ t : List (Nat × Nat), packBits t < 2 ^ recWidth t
  | [] => Nat.one_pos
  | (w, v) :: t => by
    have hhead : (v % 2 ^ w) <<< recWidth t < 2 ^ (w + recWidth t) := by
      rw [Nat.shiftLeft_eq, Nat.pow_add]
      exact Nat.mul_lt_mul_of_pos_right (Nat.mod_lt _ (Nat.two_pow_pos w)) (Nat.two_pow_pos _)
    have htail : packBits t < 2 ^ (w + recWidth t) := Nat.lt_of_lt_of_le (packBits_lt t) (Nat.pow_le_pow_right Nat.two_pos (Nat.le_add_left ..))
    exact Nat.or_lt_two_pow hhead htail

theorem packBits_lt_of_recWidth {t : List (Nat × Nat)} {w : Nat} (h : recWidth t = w) : packBits t < 2 ^ w := h ▸ packBits_lt t

/-- A record is its first field over the rest. -/
theorem packBits_cons (w v : Nat) (t : List (Nat × Nat)) : packBits ((w, v) :: t) = v % 2 ^ w * 2 ^ recWidth t + packBits t := by
  rw [packBits, ← recWidth, Nat.shiftLeft_eq, Nat.mul_comm, Nat.two_pow_add_eq_or_of_lt (packBits_lt t)]

/-- The highest field of a record. -/
theorem bits_packBits_head {w v hi : Nat} {t : List (Nat × Nat)} {lo : Nat} (hlo : recWidth t = lo) (hhi : hi + 1 = w + lo) :
    bits (packBits ((w, v) :: t)) hi lo = v % 2 ^ w := by
  have hwidth : hi + 1 - lo = w := by omega
  have hlt := packBits_lt t
  rw [hlo] at hlt
  rw [bits, packBits_cons, hlo, hwidth, Nat.shiftRight_eq_div_pow, Nat.mul_comm, Nat.mul_add_div (Nat.two_pow_pos lo), Nat.div_eq_of_lt hlt, Nat.add_zero, Nat.mod_mod]

theorem testBit_bits (n hi lo j : Nat) : (bits n hi lo).testBit j = (decide (j < hi + 1 - lo) && n.testBit (lo + j)) := by
  rw [bits, Nat.testBit_mod_two_pow, Nat.testBit_shiftRight]

/-- A lower field of a record lies in the rest. -/
theorem bits_packBits_tail {w v hi lo : Nat} {t : List (Nat × Nat)} (h : hi < recWidth t) :
    bits (packBits ((w, v) :: t)) hi lo = bits (packBits t) hi lo := by
  refine Nat.eq_of_testBit_eq fun j => ?_
  rw [testBit_bits, testBit_bits]
  by_cases hj : j < hi + 1 - lo
  · have hbelow : ¬ recWidth t ≤ lo + j := by omega
    rw [packBits, ← recWidth, Nat.testBit_or, Nat.testBit_shiftLeft, decide_eq_false hbelow, Bool.false_and, Bool.false_or]
  · simp [hj]

theorem bit_eq_bits (n i : Nat) : bit n i = (bits n i i == 1) := by
  rw [bit, bits, Nat.testBit_eq_decide_div_mod_eq]
  simp [Nat.shiftRight_eq_div_pow]
  rfl

@[simp] theorem b2n_mod_two (b : Bool) : b2n b % 2 = b2n b := by cases b <;> rfl
@[simp] theorem b2n_beq_one (b : Bool) : (b2n b == 1) = b := by cases b <;> rfl

end Sys2Proof.Machine
/-! Packet headers and protected packets (03, Table 3.1, R71, R76). -/

namespace Sys2Proof.Machine

/-! ### The header (03, Table 3.1) -/

theorem headerLow_lt (p : Packet) : headerLow p < 2 ^ (8 * 36) := by
  rw [headerLow]
  exact packBits_lt_of_recWidth (by simp only [recWidth_cons, recWidth_nil])

theorem headerBytes_length (p : Packet) : (headerBytes p).length = 48 := by simp [headerBytes]

theorem ofLe_take_headerBytes (p : Packet) : ofLe ((headerBytes p).take 36) = headerLow p := by
  rw [headerBytes, List.take_left' (leBytes_length ..), ofLe_leBytes, Nat.mod_eq_of_lt (headerLow_lt p)]

theorem ofBe_tag_headerBytes (p : Packet) : BitVec.ofNat 96 (ofBe (((headerBytes p).drop 36).take 12)) = p.gcmTag := by
  rw [headerBytes, List.drop_left' (leBytes_length ..), List.take_of_length_le (Nat.le_of_eq (beBytes_length ..)), ofBe_beBytes, Nat.mod_eq_of_lt p.gcmTag.isLt,
    BitVec.ofNat_toNat, BitVec.setWidth_eq]

/-- The header bytes spell every field within its width (03, Table 3.1). -/
theorem packetOf_headerBytes {p : Packet} (hwf : p.wf = true) (hlow : p.rsvLow < 32) : packetOf (headerBytes p) p.payload = p := by
  rw [packetOf, ofLe_take_headerBytes, ofBe_tag_headerBytes]
  simp only [Packet.wf, natOk, Bool.and_eq_true, decide_eq_true_eq] at hwf
  simp (disch := simp) only [headerLow, bit_eq_bits, bits_packBits_tail, bits_packBits_head, Nat.pow_one, b2n_mod_two, b2n_beq_one]
  simp (disch := omega) only [Nat.mod_eq_of_lt]

/-! ### Protection (03, R71, R76) -/

/-- The key stream covers the data. -/
theorem gcmCrypt_eq (key : Key) (iv : Nat) (data : List Byte) :
    ∃ ks : List Byte, data.length ≤ ks.length ∧ gcmCrypt key iv data = List.zipWith (· ^^^ ·) data ks ∧
      ∀ ct : List Byte, ct.length = data.length → gcmCrypt key iv ct = List.zipWith (· ^^^ ·) ct ks := by
  refine ⟨_, ?_, rfl, fun ct h => by rw [gcmCrypt, h]⟩
  have hblocks : ∀ l : List Nat, ((l.map fun i => beBytes 16 (gcmStream (aesRoundKeys key) iv (2 + i))).flatten).length = l.length * 16 := by
    intro l
    induction l with
    | nil => rfl
    | cons i l ih => rw [List.map_cons, List.flatten_cons, List.length_append, ih, beBytes_length, List.length_cons]; omega
  rw [hblocks, List.length_range]
  omega

@[simp] theorem gcmCrypt_length (key : Key) (iv : Nat) (data : List Byte) : (gcmCrypt key iv data).length = data.length := by
  obtain ⟨ks, hlen, hdata, -⟩ := gcmCrypt_eq key iv data
  rw [hdata, List.length_zipWith, Nat.min_eq_left hlen]

theorem zipWith_xor_xor : ∀ {data ks : List Byte}, data.length ≤ ks.length → List.zipWith (· ^^^ ·) (List.zipWith (· ^^^ ·) data ks) ks = data
  | [], _, _ => rfl
  | b :: data, k :: ks, h => by
    simp only [List.zipWith_cons_cons, BitVec.xor_assoc, BitVec.xor_self, BitVec.xor_zero, zipWith_xor_xor (Nat.le_of_succ_le_succ h)]

/-- The same key stream encrypts and decrypts. -/
theorem gcmCrypt_gcmCrypt (key : Key) (iv : Nat) (data : List Byte) : gcmCrypt key iv (gcmCrypt key iv data) = data := by
  obtain ⟨ks, hlen, hdata, hcipher⟩ := gcmCrypt_eq key iv data
  rw [hcipher _ (gcmCrypt_length ..), hdata, zipWith_xor_xor hlen]

/-- What the tag and the key stream are made over knows neither payload nor tag (03, R71). -/
theorem packetIv_protect (key : Key) (p : Packet) : packetIv (protect key p) = packetIv p := rfl
theorem packetAad_protect (key : Key) (p : Packet) : packetAad (protect key p) = packetAad { p with encrypted := true } := rfl

/-- A protected packet opens under its key (03, R76). -/
theorem unprotect_protect (key : Key) (p : Packet) : unprotect key (protect key p) = some { p with encrypted := true, gcmTag := (protect key p).gcmTag } := by
  rw [unprotect, packetIv_protect, packetAad_protect]
  cases hpayload : p.payload with
  | none => simp [protect, hpayload, packetIv]
  | some l =>
    have hcipher : ∀ iv, lineBytes (bytesLine (gcmCrypt key iv (lineBytes l))) = gcmCrypt key iv (lineBytes l) := fun iv => lineBytes_bytesLine (by simp)
    simp [protect, hpayload, packetIv, hcipher, gcmCrypt_gcmCrypt]

end Sys2Proof.Machine

section
open Sys2Proof Sys2Proof.Machine

/-- Settles O6: the fields of Table 3.1 lie where they are read, and the key stream of a packet is its own inverse. -/
theorem packetsRoundTrip : Obligations.PacketsRoundTrip := by
  unfold Obligations.PacketsRoundTrip
  exact ⟨fun p hwf hlow => ⟨headerBytes_length p, packetOf_headerBytes hwf hlow⟩, unprotect_protect⟩

end
/-! Words of a line (03, R59): what masking and merging words leave of each bit. -/

namespace Sys2Proof.Machine

theorem getLsbD_maskWords (l : Line) (first : Nat) {count : Nat} (h : count ≤ 32) (i : Nat) :
    (maskWords l first count).getLsbD i = (decide (64 * first ≤ i ∧ i < 64 * (first + count)) && l.getLsbD i) := by
  by_cases hi : i < 2048
  · simp only [maskWords, BitVec.getLsbD_shiftLeft, BitVec.getLsbD_ushiftRight]
    by_cases hin : 64 * first ≤ i ∧ i < 64 * (first + count)
    · have hplace : 64 * first + (2048 - 64 * count + (i - 64 * first) - (2048 - 64 * count)) = i := by omega
      rw [hplace]
      have hstart : ¬ i < 64 * first := by omega
      have hroom : 2048 - 64 * count + (i - 64 * first) < 2048 := by omega
      simp [hi, hin, hstart, hroom]
    · simp [hi, hin]
      omega
  · simp [BitVec.getLsbD_of_ge _ _ (Nat.le_of_not_lt hi)]

theorem getLsbD_mergeWords (old new : Line) (first : Nat) {count : Nat} (h : count ≤ 32) (i : Nat) :
    (mergeWords old new first count).getLsbD i = if 64 * first ≤ i ∧ i < 64 * (first + count) then new.getLsbD i else old.getLsbD i := by
  rw [mergeWords, BitVec.getLsbD_xor, getLsbD_maskWords _ _ h, BitVec.getLsbD_xor]
  split
  next hin => simp [hin]
  next hout => simp [hout]

/-- Every word of a line merged is the new line. -/
theorem mergeWords_whole (old new : Line) : mergeWords old new 0 32 = new := by
  refine BitVec.eq_of_getLsbD_eq fun i hi => ?_
  rw [getLsbD_mergeWords _ _ _ (Nat.le_refl 32), if_pos (by omega)]

theorem lineWord_maskWords (l : Line) (first : Nat) {count : Nat} (h : count ≤ 32) (w : Nat) :
    lineWord (maskWords l first count) w = if first ≤ w ∧ w < first + count then lineWord l w else 0 := by
  refine BitVec.eq_of_getLsbD_eq fun i hi => ?_
  have hplace : (64 * first ≤ 64 * w + i ∧ 64 * w + i < 64 * (first + count)) ↔ first ≤ w ∧ w < first + count := by omega
  simp only [lineWord, BitVec.getLsbD_extractLsb', getLsbD_maskWords _ _ h, hplace]
  split
  next hin => simp [hin, BitVec.getLsbD_extractLsb']
  next hout => simp [hout]

end Sys2Proof.Machine
/-! What memory does for a request (03, R58, R59, R66, Table 3.2). -/

namespace Sys2Proof.Machine

/-! ### What an atomic stores (03, Table 3.2) -/

section
variable (old x cmp : Word)

theorem atomicResult_add : (atomicResult 0x10 old x cmp).toNat = (old.toNat + x.toNat) % 2 ^ 64 := BitVec.toNat_add ..

theorem atomicResult_swap : atomicResult 0x11 old x cmp = x := rfl

theorem atomicResult_cas : atomicResult 0x12 old x cmp = if old = cmp then x else old := rfl

theorem atomicResult_and (i : Nat) : (atomicResult 0x13 old x cmp).getLsbD i = (old.getLsbD i && x.getLsbD i) := BitVec.getLsbD_and ..

theorem atomicResult_or (i : Nat) : (atomicResult 0x14 old x cmp).getLsbD i = (old.getLsbD i || x.getLsbD i) := BitVec.getLsbD_or ..

theorem atomicResult_xor (i : Nat) : (atomicResult 0x15 old x cmp).getLsbD i = (old.getLsbD i ^^ x.getLsbD i) := BitVec.getLsbD_xor ..

theorem atomicResult_smax : (atomicResult 0x16 old x cmp).toInt = max old.toInt x.toInt := by
  show (if x.slt old then old else x).toInt = _
  rw [BitVec.slt_eq_decide]
  by_cases h : x.toInt < old.toInt
  · simp only [h, decide_true, if_true]
    omega
  · simp only [h, decide_false, Bool.false_eq_true, if_false]
    omega

theorem atomicResult_smin : (atomicResult 0x17 old x cmp).toInt = min old.toInt x.toInt := by
  show (if old.slt x then old else x).toInt = _
  rw [BitVec.slt_eq_decide]
  by_cases h : old.toInt < x.toInt
  · simp only [h, decide_true, if_true]
    omega
  · simp only [h, decide_false, Bool.false_eq_true, if_false]
    omega

end

/-! ### Reads, writes and atomics of a packet -/

/-- The requests that are answered with the line as it is (03, Table 3.2; 04, Table 4.6). -/
theorem readsLine_iff {op : Nat} : (isPlainRead op || isAlloc op) = true ↔ op = 0x01 ∨ op = 0x03 ∨ op = 0x05 ∨ op = 0x06 ∨ op = 0x07 := by
  simp [isPlainRead, isAlloc, or_assoc]

theorem isAtomic_iff {op : Nat} : isAtomic op = true ↔ 0x10 ≤ op ∧ op ≤ 0x17 := by simp [isAtomic]

section
variable {s s1 s2 : State} {r : Req} {d : Line} {line w : Nat} (hline : r.offset / 256 * 256 = line) (hw : reqFirst r = w)
include hline hw

theorem perform_read (hop : isPlainRead r.op = true) (hread : readLine s r.ext line = (some d, s1)) :
    perform s r none false = ({ data := some (maskWords d w (r.length + 1)) }, s1) := by
  simp [perform, hop, hline, hread, hw, reqCount]

/-- An atomic stores its result in its word and answers the old one. -/
theorem perform_atomic (hop : isAtomic r.op = true) (hread : readLine s r.ext line = (some d, s1))
    (hwrite : writeLine s1 r.ext line (setLineWord d w (atomicResult r.op (lineWord d w) (lineWord r.payload 0) (lineWord r.payload 1))) w 1 false = some s2) :
    perform s r none false = ({ data := some ((lineWord d w).zeroExtend 2048) }, s2) := by
  have hrange := isAtomic_iff.mp hop
  have hother : (isPlainRead r.op || isAlloc r.op) = false := by rw [← Bool.not_eq_true, readsLine_iff]; omega
  simp [perform, hother, hop, hline, hread, hw, hwrite]

/-- A store of whole words that came as a packet: the words of its payload, zero for ZERO_LINE. -/
theorem perform_store {via : Via} {p : Packet} (horigin : r.origin = .packet via p) (hwhole : r.bytes = none) (hop : r.op = 0x02 ∨ r.op = 0x04 ∨ r.op = 0x08)
    (hwrite : writeLine s r.ext line (if r.op = 0x08 then 0 else r.payload) w (r.length + 1) (r.poison && r.op != 0x08) = some s2) :
    perform s r none false = ({}, s2) := by
  have hother : (isPlainRead r.op || isAlloc r.op) = false := by rw [← Bool.not_eq_true, readsLine_iff]; omega
  have hatomic : isAtomic r.op = false := by rw [← Bool.not_eq_true, isAtomic_iff]; omega
  simp only [perform, hother, hatomic, horigin, storeReq, hwhole, hline, hw, reqCount, Bool.false_eq_true, if_false, hwrite]

end

end Sys2Proof.Machine

section
open Sys2Proof Sys2Proof.Machine

/-- Settles O16: a read masks the line it finds, a store merges its words, an atomic stores its exact result and answers the old word. -/
theorem memoryPerformsRequests : Obligations.MemoryPerformsRequests := by
  unfold Obligations.MemoryPerformsRequests
  intro s s1 s2 r d via p horigin hwhole first line
  refine ⟨?read, ?write, ?zero, ?atomic⟩
  case read =>
    intro hop hfits hread
    refine ⟨_, perform_read rfl rfl hop hread, fun w _ => lineWord_maskWords d first (by omega) w⟩
  case write =>
    intro hop hwrite
    have hzero : r.op ≠ 0x08 := by omega
    refine perform_store rfl rfl horigin hwhole (by omega) ?_
    rw [if_neg hzero, bne_iff_ne.mpr hzero, Bool.and_true]
    exact hwrite
  case zero =>
    intro hop hwrite
    refine perform_store rfl rfl horigin hwhole (by omega) ?_
    rw [if_pos hop, bne_eq_false_iff_eq.mpr hop, Bool.and_false]
    exact hwrite
  case atomic =>
    intro hop hread old x
    refine ⟨atomicResult r.op old x (lineWord r.payload 1), perform_atomic rfl rfl hop hread, ?_, ?_, ?_, ?_, ?_, ?_, ?_, ?_⟩ <;> intro hop <;> rw [hop]
    · exact atomicResult_add ..
    · exact atomicResult_swap ..
    · exact atomicResult_cas ..
    · exact fun i _ => atomicResult_and ..
    · exact fun i _ => atomicResult_or ..
    · exact fun i _ => atomicResult_xor ..
    · exact atomicResult_smax ..
    · exact atomicResult_smin ..

end
/-! Bytes in the canonical form (06, R143; 07, R182): what an address reads as after a write. -/

namespace Sys2Proof.Machine

/-! ### One byte -/

theorem getD_of_lt {α : Type} {l : List α} {i : Nat} {d : α} (h : i < l.length) : l.getD i d = l[i] := by
  rw [List.getD_eq_getElem?_getD, List.getElem?_eq_getElem h, Option.getD_some]

@[simp] theorem readByte_nil (a : Nat) : readByte [] a = 0 := rfl

theorem readByte_cons (c : Host.Cell) (m : List Host.Cell) (a : Nat) : readByte (c :: m) a = if c.1 = a then c.2 else readByte m a := by
  by_cases h : c.1 = a <;> simp [readByte, h]

/-- An address that is not listed reads as zero. -/
theorem readByte_of_unlisted {m : List Host.Cell} {a : Nat} (h : ∀ c ∈ m, c.1 ≠ a) : readByte m a = 0 := by
  have hnone : m.find? (fun c => c.1 == a) = none := by simpa using h
  rw [readByte, hnone]

theorem readByte_append_of_unlisted {m : List Host.Cell} {a : Nat} (h : ∀ c ∈ m, c.1 ≠ a) (n : List Host.Cell) : readByte (m ++ n) a = readByte n a := by
  have hnone : m.find? (fun c => c.1 == a) = none := by simpa using h
  rw [readByte, readByte, List.find?_append, hnone, Option.none_or]

theorem readByte_append_left {n : List Host.Cell} {a : Nat} (h : ∀ c ∈ n, c.1 ≠ a) (m : List Host.Cell) : readByte (m ++ n) a = readByte m a := by
  have hnone : n.find? (fun c => c.1 == a) = none := by simpa using h
  rw [readByte, readByte, List.find?_append, hnone, Option.or_none]

/-- Dropping other addresses leaves what one reads as. -/
theorem readByte_filter {q : Nat → Bool} {a : Nat} (h : q a = true) (m : List Host.Cell) : readByte (m.filter (fun c => q c.1)) a = readByte m a := by
  induction m with
  | nil => rfl
  | cons c m ih =>
    rw [List.filter_cons, readByte_cons]
    split
    · rw [readByte_cons, ih]
    next hdrop => rw [ih, if_neg (by rintro rfl; exact hdrop h)]

theorem readByte_newCells : ∀ (bs : List Byte) (a x : Nat), readByte (newCells a bs) x = if a ≤ x ∧ x < a + bs.length then bs.getD (x - a) 0 else 0
  | [], a, x => by simp [newCells]
  | b :: t, a, x => by
    rcases Nat.lt_trichotomy x a with h | h | h
    · rw [if_neg (by omega)]
      exact readByte_of_unlisted fun c hc => by have := newCells_mem hc; omega
    · subst h
      rw [if_pos ⟨Nat.le_refl _, by simp⟩, Nat.sub_self, List.getD_cons_zero, newCells]
      split
      next hb => rw [hb]; exact readByte_of_unlisted fun c hc => by have := newCells_mem hc; omega
      next => rw [readByte_cons, if_pos rfl]
    · have hrest : readByte (newCells a (b :: t)) x = readByte (newCells (a + 1) t) x := by
        rw [newCells]
        split
        · rfl
        · rw [readByte_cons, if_neg (by omega)]
      have hindex : x - a = x - (a + 1) + 1 := by omega
      have hrange : (a + 1 ≤ x ∧ x < a + 1 + t.length) ↔ (a ≤ x ∧ x < a + (b :: t).length) := by rw [List.length_cons]; omega
      rw [hrest, readByte_newCells t (a + 1) x, hindex, List.getD_cons_succ]
      simp only [hrange]

/-- What was written reads back, every other address reads as before. -/
theorem readByte_writeRange (m : List Host.Cell) (a : Nat) (bs : List Byte) (x : Nat) :
    readByte (writeRange m a bs) x = if a ≤ x ∧ x < a + bs.length then bs.getD (x - a) 0 else readByte m x := by
  have hbelow : ∀ c ∈ m.filter (fun c => decide (c.1 < a)), c.1 < a := fun c hc => by simpa using (List.mem_filter.mp hc).2
  have habove : ∀ c ∈ m.filter (fun c => decide (a + bs.length ≤ c.1)), a + bs.length ≤ c.1 := fun c hc => by simpa using (List.mem_filter.mp hc).2
  have hnew : ∀ c ∈ newCells a bs, a ≤ c.1 ∧ c.1 < a + bs.length := fun c hc => ⟨(newCells_mem hc).1, (newCells_mem hc).2.1⟩
  rw [writeRange]
  by_cases hlow : x < a
  · rw [if_neg (by omega), List.append_assoc, readByte_append_left, readByte_filter (q := fun b => decide (b < a)) (by simpa using hlow)]
    intro c hc
    rcases List.mem_append.mp hc with hc | hc
    · have := hnew c hc; omega
    · have := habove c hc; omega
  · by_cases hhigh : a + bs.length ≤ x
    · rw [if_neg (by omega), readByte_append_of_unlisted, readByte_filter (q := fun b => decide (a + bs.length ≤ b)) (by simpa using hhigh)]
      intro c hc
      rcases List.mem_append.mp hc with hc | hc
      · have := hbelow c hc; omega
      · have := hnew c hc; omega
    · rw [if_pos (by omega), readByte_append_left, readByte_append_of_unlisted, readByte_newCells, if_pos (by omega)]
      · intro c hc; have := hbelow c hc; omega
      · intro c hc; have := habove c hc; omega

/-! ### A range -/

theorem dropBelow_eq_filter : ∀ {m : List Host.Cell}, m.Pairwise (fun x y => x.1 < y.1) → ∀ a, dropBelow a m = m.filter (fun c => decide (a ≤ c.1))
  | [], _, _ => rfl
  | c :: t, h, a => by
    obtain ⟨hfirst, hrest⟩ := List.pairwise_cons.mp h
    rw [dropBelow]
    split
    next hc => rw [dropBelow_eq_filter hrest, List.filter_cons_of_neg (by simpa using hc)]
    next hc =>
      refine (List.filter_eq_self.mpr fun x hx => ?_).symm
      rcases List.mem_cons.mp hx with rfl | hx
      · simpa using hc
      · have := hfirst x hx; exact decide_eq_true (by omega)

/-- Bytes taken from cells in order, none below the first, are what the addresses read as. -/
theorem takeCells_eq : ∀ (n a : Nat) {m : List Host.Cell}, m.Pairwise (fun x y => x.1 < y.1) → (∀ c ∈ m, a ≤ c.1) →
    takeCells n a m = (List.range' a n).map (readByte m)
  | 0, _, _, _, _ => rfl
  | n + 1, a, [], h, _ => by rw [takeCells, takeCells_eq n (a + 1) h (by simp), List.range'_succ, List.map_cons, readByte_nil]
  | n + 1, a, c :: t, h, hfrom => by
    obtain ⟨hfirst, hrest⟩ := List.pairwise_cons.mp h
    rw [takeCells, List.range'_succ, List.map_cons, readByte_cons]
    split
    next hc =>
      rw [takeCells_eq n (a + 1) hrest (fun x hx => by have := hfirst x hx; omega)]
      refine congrArg _ (List.map_congr_left fun x hx => ?_)
      have := List.mem_range'_1.mp hx
      rw [readByte_cons, if_neg (by omega)]
    next hc =>
      have hc' := hfrom c List.mem_cons_self
      have hnext : ∀ x ∈ c :: t, a + 1 ≤ x.1 := by
        intro x hx
        rcases List.mem_cons.mp hx with rfl | hx
        · omega
        · have := hfirst x hx; omega
      rw [takeCells_eq n (a + 1) h hnext, readByte_of_unlisted fun x hx => by have := hfirst x hx; omega]

theorem readRange_eq {m : List Host.Cell} (h : Memory.wf m) (a n : Nat) : readRange m a n = (List.range' a n).map (readByte m) := by
  obtain ⟨hsorted, -⟩ := h
  rw [readRange, dropBelow_eq_filter hsorted, takeCells_eq n a (hsorted.filter _) fun c hc => by simpa using (List.mem_filter.mp hc).2]
  refine List.map_congr_left fun x hx => ?_
  exact readByte_filter (q := fun b => decide (a ≤ b)) (by have := List.mem_range'_1.mp hx; simpa using this.1) m

theorem readRange_writeRange {m : List Host.Cell} (h : Memory.wf m) (a : Nat) (bs : List Byte) : readRange (writeRange m a bs) a bs.length = bs := by
  rw [readRange_eq (Memory.wf_write a bs h)]
  refine List.ext_getElem (by simp) fun i hi hi' => ?_
  rw [List.getElem_map, List.getElem_range', Nat.one_mul, readByte_writeRange, if_pos (by omega), Nat.add_sub_cancel_left, getD_of_lt hi']

end Sys2Proof.Machine
/-! A line through the stripe buffer (03, R61; 05, R120, R121; 06, R150, R151). -/

namespace Sys2Proof.Machine

/-! ### The valid map and the buffer -/

theorem validBlock_setValidBlock (s : State) (offset : Nat) (v : BitVec 16) : validBlock (setValidBlock s offset v) offset = v := by
  unfold validBlock setValidBlock
  by_cases h : v = 0
  · rw [if_pos h, h]
    simp [tget]
  · rw [if_neg h]
    simp

/-- A line's valid bit after it was set (05, R121). -/
theorem validAt_setValid (s : State) (offset : Nat) : validAt (setValid s offset) offset = true := by
  have hbit : (offset >>> 8) % 16 < 16 := Nat.mod_lt _ (by decide)
  rw [validAt, setValid, validBlock_setValidBlock, BitVec.getLsbD_or]
  simp [hbit]

theorem mapOffset_index_lt (e : Extent) (offset : Nat) : (mapOffset e offset).index < 16 := Nat.mod_lt _ (by decide)

theorem sabAt_of_some {s : State} {l stripe : Nat} {e : SabEntry} (h : sabAt s l stripe = some e) : e ∈ s.mem.sab ∧ e.lstack = l ∧ e.stripe = stripe := by
  have hfound := List.find?_some h
  simp only [Bool.and_eq_true, beq_iff_eq] at hfound
  exact ⟨List.mem_of_find?_eq_some h, hfound⟩

/-- The entry of a stripe after it was put. -/
theorem sabAt_sabPut (s : State) (e : SabEntry) : sabAt (sabPut s e) e.lstack e.stripe = some e := by
  cases h : sabAt s e.lstack e.stripe with
  | none => 
    rw [sabPut, h]
    simp only [sabAt, Option.isSome_none, Bool.false_eq_true, if_false] at h ⊢
    rw [List.find?_append, h]
    simp
  | some old =>
    have hplace : (fun x : SabEntry => x.lstack == e.lstack && x.stripe == e.stripe) ∘ (fun x => if x.lstack == e.lstack && x.stripe == e.stripe then e else x) =
        fun x => x.lstack == e.lstack && x.stripe == e.stripe := by
      funext x
      by_cases hx : (x.lstack == e.lstack && x.stripe == e.stripe) = true
      · rw [Function.comp_apply, if_pos hx, hx, beq_self_eq_true, beq_self_eq_true, Bool.true_and]
      · rw [Function.comp_apply, if_neg hx]
    obtain ⟨-, hl, hstripe⟩ := sabAt_of_some h
    rw [sabPut, h]
    simp only [sabAt, Option.isSome_some, if_true] at h ⊢
    rw [List.find?_map, hplace, h, Option.map_some, if_pos (by simp [hl, hstripe])]

/-- Where the buffer has room, opening an entry commits none (06, R150, R152). -/
theorem sabOpen_of_room {s : State} {k l stripe : Nat} (hroom : (s.mem.sab.filter (fun e => e.region == k)).length < sabRoom s k)
    (hlengths : ∀ e ∈ s.mem.sab, e.data.length = 16 ∧ e.mask.length = 16) (ext base : Nat) (old : BitVec 16) :
    ∃ e, sabOpen s k l stripe ext base old = (e, s) ∧ e.lstack = l ∧ e.stripe = stripe ∧ e.data.length = 16 ∧ e.mask.length = 16 := by
  cases h : sabAt s l stripe with
  | some e =>
    obtain ⟨hmem, hl, hstripe⟩ := sabAt_of_some h
    exact ⟨e, by rw [sabOpen, h], hl, hstripe, hlengths e hmem⟩
  | none =>
    simp only [sabOpen, h, if_pos hroom]
    exact ⟨_, rfl, rfl, rfl, List.length_replicate, List.length_replicate⟩

/-! ### A line written whole -/

theorem getD_set_same {α : Type} {l : List α} {i : Nat} (h : i < l.length) (v d : α) : (l.set i v).getD i d = v := by
  rw [getD_of_lt (by rwa [List.length_set]), List.getElem_set_self]

/-- An entry holds a chunk whole: the line, or the line with POISON. -/
structure SabEntry.HoldsWhole (e : SabEntry) (i : Nat) (d : Line) (poison : Bool) : Prop where
  data : e.data.getD i 0 = d
  mask : e.mask.getD i 0 = BitVec.allOnes 32
  bad : e.bad.getD i 0 = 0
  poison : e.poison.getLsbD i = poison

section
variable {s t : State} {ext off : Nat} {pl : Place} {d : Line} {poison : Bool}

/-- A line written whole, where the buffer has room, stands in its entry and its valid bit is set (06, R151; 05, R121). -/
theorem writeLine_whole (hpl : mapOffset (extentOf s ext) off = pl) (hwrite : writeLine s ext off d 0 32 poison = some t)
    (hroom : (s.mem.sab.filter (fun e => e.region == pl.lstack / 4)).length < sabRoom s (pl.lstack / 4))
    (hlengths : ∀ e ∈ s.mem.sab, e.data.length = 16 ∧ e.mask.length = 16) :
    ∃ e : SabEntry, t = setValid (sabPut s e) off ∧ e.lstack = pl.lstack ∧ e.stripe = pl.stripe ∧ e.HoldsWhole pl.index d poison := by
  subst hpl
  have hi := mapOffset_index_lt (extentOf s ext) off
  revert hwrite
  unfold writeLine
  extract_lets e pl whole base o en i bit_ en1 en2
  obtain ⟨old, hopen, hl, hstripe, hdata, hmask⟩ := sabOpen_of_room hroom hlengths (l := pl.lstack) (stripe := pl.stripe) ext (off - pl.index * 256) (validBlock s base)
  have ho : o = (old, s) := hopen
  have hen : en = old := congrArg Prod.fst ho
  intro hwrite
  split at hwrite
  · cases hwrite
  · cases hwrite
    rw [← hen] at hl hstripe hdata hmask
    have hones : BitVec.allOnes 32 >>> (32 - 32) <<< 0 = BitVec.allOnes 32 := rfl
    refine ⟨en2, by rw [ho], hl, hstripe, ?data, ?mask, ?bad, ?poison⟩
    case data => exact (getD_set_same (hdata ▸ hi) ..).trans (mergeWords_whole ..)
    case mask =>
      refine (getD_set_same (hmask ▸ hi) ..).trans ?_
      rw [hones, BitVec.or_allOnes]
    case bad =>
      show (en.bad.set i _).getD i 0 = 0
      rw [hones, BitVec.not_allOnes, BitVec.and_zero]
      by_cases hlen : i < en.bad.length
      · exact getD_set_same hlen ..
      · rw [List.set_eq_of_length_le (Nat.le_of_not_lt hlen), List.getD_eq_getElem?_getD, List.getElem?_eq_none (Nat.le_of_not_lt hlen), Option.getD_none]
    case poison =>
      show (if poison = true then en.poison ||| 1#16 <<< i else if 0 = 0 ∧ 32 = 32 then en.poison &&& ~~~(1#16 <<< i) else en.poison).getLsbD i = poison
      have hi' : i < 16 := hi
      cases poison <;> simp [hi']

/-- What an entry holds whole is read from it (06, R151). -/
theorem readLine_of_holdsWhole {e : SabEntry} (hpl : mapOffset (extentOf s ext) off = pl) (hvalid : validAt s off = true)
    (hentry : sabAt s pl.lstack pl.stripe = some e) (h : e.HoldsWhole pl.index d poison) : (readLine s ext off).1 = if poison then none else some d := by
  simp only [readLine, hpl, hvalid, hentry, SabEntry.full, h.poison, h.bad, h.mask, h.data]
  cases poison <;> rfl

/-- A line written whole reads back as written, or as DATA_ERROR where it was written with POISON (03, R61). -/
theorem readLine_writeLine_whole (hpl : mapOffset (extentOf s ext) off = pl) (hwrite : writeLine s ext off d 0 32 poison = some t)
    (hroom : (s.mem.sab.filter (fun e => e.region == pl.lstack / 4)).length < sabRoom s (pl.lstack / 4))
    (hlengths : ∀ e ∈ s.mem.sab, e.data.length = 16 ∧ e.mask.length = 16) : (readLine t ext off).1 = if poison then none else some d := by
  obtain ⟨e, rfl, hl, hstripe, hholds⟩ := writeLine_whole hpl hwrite hroom hlengths
  have hentry : sabAt (setValid (sabPut s e) off) pl.lstack pl.stripe = some e := by
    rw [← hl, ← hstripe]
    exact sabAt_sabPut s e
  exact readLine_of_holdsWhole hpl (validAt_setValid ..) hentry hholds

end

end Sys2Proof.Machine
/-! A thread's own memory (07, R182, R183): a write reads back, the other bytes read as before. -/

namespace Sys2Proof.Machine

/-- What a byte of a thread's own memory reads as, of cells and valid bits. -/
def privByte (e h : Nat) (x : List Host.Cell × BitVec 4096) (at_ : Nat) : Byte :=
  if x.2.getLsbD (at_ / 256) then readByte x.1 (privAddr e h at_) else 0

theorem readPriv_one (s : State) (e h : Nat) (valid : BitVec 4096) (at_ : Nat) : readPriv s e h valid at_ 1 = [privByte e h (s.eng.priv, valid) at_] := rfl

/-! ### Chunks that become valid -/

/-- A chunk becomes valid: its bytes are zero where it was not. -/
def validateChunk (e h : Nat) (x : List Host.Cell × BitVec 4096) (c : Nat) : List Host.Cell × BitVec 4096 :=
  if x.2.getLsbD c then x else (writeRange x.1 (privAddr e h (256 * c)) (List.replicate 256 0), x.2 ||| (1#4096 <<< c))

/-- The chunks that a write of some bytes touches. -/
def touchedChunks (at_ : Nat) (bs : List Byte) : List Nat :=
  (List.range ((at_ + bs.length - 1) / 256 + 1)).filter (fun c => decide (at_ / 256 ≤ c) && !bs.isEmpty)

theorem writePriv_eq (s : State) (e h : Nat) (th : Thread) (at_ : Nat) (bs : List Byte) :
    writePriv s e h th at_ bs =
      let x := (touchedChunks at_ bs).foldl (validateChunk e h) (s.eng.priv, th.privValid)
      ({ s with eng := { s.eng with priv := writeRange x.1 (privAddr e h at_) bs } }, { th with privValid := x.2 }) := rfl

theorem mem_touchedChunks {at_ c : Nat} {bs : List Byte} : c ∈ touchedChunks at_ bs ↔ bs ≠ [] ∧ at_ / 256 ≤ c ∧ c ≤ (at_ + bs.length - 1) / 256 := by
  simp only [touchedChunks, List.mem_filter, List.mem_range, Bool.and_eq_true, decide_eq_true_eq, Bool.not_eq_true', List.isEmpty_eq_false_iff, Nat.lt_succ_iff]
  exact ⟨fun ⟨hlast, hfirst, hbs⟩ => ⟨hbs, hfirst, hlast⟩, fun ⟨hbs, hfirst, hlast⟩ => ⟨hlast, hfirst, hbs⟩⟩

section
variable {e h : Nat} {x : List Host.Cell × BitVec 4096}

theorem getLsbD_validateChunk {c : Nat} (hc : c < 4096) (k : Nat) : (validateChunk e h x c).2.getLsbD k = (x.2.getLsbD k || decide (k = c)) := by
  unfold validateChunk
  split
  next hvalid =>
    by_cases hk : k = c
    · rw [hk, hvalid, Bool.true_or]
    · simp [hk]
  next =>
    rw [BitVec.getLsbD_or, BitVec.getLsbD_shiftLeft, BitVec.getLsbD_one]
    by_cases hk : k = c
    · simp [hk, hc]
    · have : ¬ (c ≤ k ∧ k - c = 0) := by omega
      congr 1
      simp [hk]
      omega

/-- A chunk that becomes valid changes no byte of another address. -/
theorem readByte_validateChunk {c y : Nat} (hy : ¬ (privAddr e h (256 * c) ≤ y ∧ y < privAddr e h (256 * c) + 256)) :
    readByte (validateChunk e h x c).1 y = readByte x.1 y := by
  unfold validateChunk
  split
  · rfl
  · rw [readByte_writeRange, List.length_replicate, if_neg hy]

/-- A chunk that becomes valid leaves what each byte of the thread reads as. -/
theorem privByte_validateChunk {c : Nat} (hc : c < 4096) (y : Nat) : privByte e h (validateChunk e h x c) y = privByte e h x y := by
  rw [privByte, privByte, getLsbD_validateChunk hc]
  by_cases hy : y / 256 = c
  · by_cases hvalid : x.2.getLsbD c = true
    · simp [hy, hvalid, validateChunk]
    · have hin : privAddr e h (256 * c) ≤ privAddr e h y ∧ privAddr e h y < privAddr e h (256 * c) + (List.replicate 256 (0 : Byte)).length := by
        rw [List.length_replicate, privAddr, privAddr]; omega
      rw [if_pos (by simp [hy]), hy, if_neg hvalid, validateChunk, if_neg hvalid, readByte_writeRange, if_pos hin]
      rw [getD_of_lt (by rw [List.length_replicate, privAddr, privAddr]; omega), List.getElem_replicate]
  · have hout : ¬ (privAddr e h (256 * c) ≤ privAddr e h y ∧ privAddr e h y < privAddr e h (256 * c) + 256) := by
      rw [privAddr, privAddr]; omega
    rw [decide_eq_false hy, Bool.or_false, readByte_validateChunk hout]

end

section
variable {e h : Nat}

/-- Chunks of a thread that become valid: their bits are set and none is cleared, and every byte reads as before. -/
theorem validateChunks {l : List Nat} (hl : ∀ c ∈ l, c < 4096) (x : List Host.Cell × BitVec 4096) :
    (∀ c, c ∈ l ∨ x.2.getLsbD c = true → (l.foldl (validateChunk e h) x).2.getLsbD c = true) ∧
    (∀ y, privByte e h (l.foldl (validateChunk e h) x) y = privByte e h x y) ∧
    ∀ y, y < (e * 64 + h) * 2 ^ 20 ∨ (e * 64 + h + 1) * 2 ^ 20 ≤ y → readByte (l.foldl (validateChunk e h) x).1 y = readByte x.1 y := by
  induction l generalizing x with
  | nil => exact ⟨fun c hc => hc.resolve_left List.not_mem_nil, fun _ => rfl, fun _ _ => rfl⟩
  | cons c l ih =>
    obtain ⟨hc, hrest⟩ := List.forall_mem_cons.mp hl
    obtain ⟨hbits, hbytes, hothers⟩ := ih hrest (validateChunk e h x c)
    rw [List.foldl_cons]
    refine ⟨fun k hk => hbits k ?_, fun y => ?_, fun y hy => ?_⟩
    · rw [getLsbD_validateChunk hc, Bool.or_eq_true, decide_eq_true_eq]
      rcases hk with hk | hk
      · rcases List.mem_cons.mp hk with hk | hk
        · exact .inr (.inr hk)
        · exact .inl hk
      · exact .inr (.inl hk)
    · rw [hbytes, privByte_validateChunk hc]
    · rw [hothers y hy, readByte_validateChunk (by rw [privAddr]; omega)]

end

/-! ### Writes -/

section
variable (s : State) (e h : Nat) (th : Thread) {a : Nat} {bs : List Byte} (hfits : a + bs.length ≤ 2 ^ 20)
include hfits

theorem touchedChunks_lt : ∀ c ∈ touchedChunks a bs, c < 4096 := by
  intro c hc
  obtain ⟨hbs, -, hlast⟩ := mem_touchedChunks.mp hc
  have := List.length_pos_iff.mpr hbs
  omega

/-- A byte written reads back, every other byte of the thread reads as before (07, R183). -/
theorem readPriv_writePriv (x : Nat) : readPriv (writePriv s e h th a bs).1 e h (writePriv s e h th a bs).2.privValid x 1 =
    if a ≤ x ∧ x < a + bs.length then [bs.getD (x - a) 0] else readPriv s e h th.privValid x 1 := by
  obtain ⟨hbits, hbytes, -⟩ := validateChunks (e := e) (h := h) (touchedChunks_lt hfits) (s.eng.priv, th.privValid)
  have hin : (privAddr e h a ≤ privAddr e h x ∧ privAddr e h x < privAddr e h a + bs.length) ↔ a ≤ x ∧ x < a + bs.length := by
    rw [privAddr, privAddr]; omega
  have hindex : privAddr e h x - privAddr e h a = x - a := by rw [privAddr, privAddr]; omega
  rw [readPriv_one, readPriv_one, writePriv_eq, ← hbytes x]
  simp only [privByte, readByte_writeRange, hin, hindex]
  by_cases hx : a ≤ x ∧ x < a + bs.length
  · have hbs : bs ≠ [] := List.ne_nil_of_length_pos (by omega)
    rw [hbits (x / 256) (.inl (mem_touchedChunks.mpr ⟨hbs, by omega, by omega⟩))]
    simp only [hx, and_self, if_true]
  · simp only [hx, if_false]

/-- No byte of another thread changes (07, R183). -/
theorem readByte_writePriv {y : Nat} (hy : y < (e * 64 + h) * 2 ^ 20 ∨ (e * 64 + h + 1) * 2 ^ 20 ≤ y) :
    readByte (writePriv s e h th a bs).1.eng.priv y = readByte s.eng.priv y := by
  obtain ⟨-, -, hothers⟩ := validateChunks (e := e) (h := h) (touchedChunks_lt hfits) (s.eng.priv, th.privValid)
  rw [writePriv_eq]
  show readByte (writeRange _ _ _) y = _
  rw [readByte_writeRange, if_neg (by rw [privAddr]; omega), hothers y hy]

end

end Sys2Proof.Machine

section
open Sys2Proof Sys2Proof.Machine

/-- Settles O8: what a write leaves at each address, in each chunk of the stripe buffer and in each byte of a thread's own memory. -/
theorem memoryReadsBack : Obligations.MemoryReadsBack := by
  unfold Obligations.MemoryReadsBack
  refine ⟨?cells, ?lines, ?priv⟩
  case cells => exact fun m a bs hwf => ⟨Memory.wf_write a bs hwf, readRange_writeRange hwf a bs, readByte_writeRange m a bs⟩
  case lines => exact fun s t ext off d poison hwrite _ hroom hlengths => readLine_writeLine_whole rfl hwrite hroom hlengths
  case priv => exact fun s e h a th bs _ hfits => ⟨fun x _ => readPriv_writePriv s e h th hfits x, fun y hy => readByte_writePriv s e h th hfits hy⟩

end
/-! The grant slot and the inputs of the home agent (03, R84, R85; 04, R92, R94; 07, R188). -/

namespace Sys2Proof.Machine

/-! ### Rotating pointers (04, R92) -/

/-- The pointer finds an eligible requester. -/
theorem eligible_of_rotate {n ptr i : Nat} {ok : Nat → Bool} (h : rotate n ptr ok = some i) : ok i = true := List.find?_some h

theorem rotate_lt {n ptr i : Nat} {ok : Nat → Bool} (h : rotate n ptr ok = some i) : i < n := by
  obtain ⟨j, hj, rfl⟩ := List.mem_map.mp (List.mem_of_find?_eq_some h)
  exact Nat.mod_lt _ (Nat.zero_lt_of_lt (List.mem_range.mp hj))

/-- The first requester that is eligible, counting upward from the pointer. -/
theorem rotate_of_first {n ptr d : Nat} {ok : Nat → Bool} (hd : d < n) (hbefore : ∀ c < d, ok ((ptr + c) % n) = false) (hok : ok ((ptr + d) % n) = true) :
    rotate n ptr ok = some ((ptr + d) % n) := by
  have hfirst : (List.range n).find? (ok ∘ fun i => (ptr + i) % n) = some d :=
    List.find?_range_eq_some.mpr ⟨hok, List.mem_range.mpr hd, fun c hc => by simpa using hbefore c hc⟩
  rw [rotate, List.find?_map, hfirst, Option.map_some]

/-! ### Least finish tag (03, R84, R85) -/

theorem laterTag_eq_left_iff {a b : Nat} (ha : a < 2 ^ 47) (hb : b < 2 ^ 47) : laterTag a b = a ↔ b ≤ a := by
  unfold laterTag
  split <;> omega

/-- Of the best head so far and the next one, the one that WFQ prefers. -/
def wfqBetter (ptr : Nat) (best : Option Req) (r : Req) : Option Req :=
  match best with
  | none => some r
  | some b =>
    if b.finish = r.finish then (if (r.source + 4096 - ptr) % 4096 < (b.source + 4096 - ptr) % 4096 then some r else best)
    else if laterTag b.finish r.finish = b.finish then some r else best

theorem wfqPick_cons (ptr : Nat) (q : Req) (l : List Req) : wfqPick ptr (q :: l) = l.foldl (wfqBetter ptr) (some q) := rfl

/-- WFQ prefers the lesser tag. -/
theorem wfqBetter_some (ptr : Nat) (b r : Req) :
    (wfqBetter ptr (some b) r = some b ∧ (b.finish < 2 ^ 47 → r.finish < 2 ^ 47 → b.finish ≤ r.finish)) ∨
    (wfqBetter ptr (some b) r = some r ∧ (b.finish < 2 ^ 47 → r.finish < 2 ^ 47 → r.finish ≤ b.finish)) := by
  by_cases htie : b.finish = r.finish
  · by_cases hptr : (r.source + 4096 - ptr) % 4096 < (b.source + 4096 - ptr) % 4096
    · exact .inr ⟨by rw [wfqBetter, if_pos htie, if_pos hptr], fun _ _ => Nat.le_of_eq htie.symm⟩
    · exact .inl ⟨by rw [wfqBetter, if_pos htie, if_neg hptr], fun _ _ => Nat.le_of_eq htie⟩
  · by_cases hlater : laterTag b.finish r.finish = b.finish
    · exact .inr ⟨by rw [wfqBetter, if_neg htie, if_pos hlater], fun hb hr => (laterTag_eq_left_iff hb hr).mp hlater⟩
    · exact .inl ⟨by rw [wfqBetter, if_neg htie, if_neg hlater], fun hb hr => by have := (not_congr (laterTag_eq_left_iff hb hr)).mp hlater; omega⟩

/-- From a best head on WFQ picks it or one of the rest, one of the least tag where no tag has wrapped. -/
theorem foldl_wfqBetter (ptr : Nat) (l : List Req) (b : Req) :
    ∃ r, l.foldl (wfqBetter ptr) (some b) = some r ∧ r ∈ b :: l ∧ ((∀ q ∈ b :: l, q.finish < 2 ^ 47) → ∀ q ∈ b :: l, r.finish ≤ q.finish) := by
  induction l generalizing b with
  | nil => exact ⟨b, rfl, List.mem_cons_self, fun _ q hq => Nat.le_of_eq (by rw [List.mem_singleton.mp hq])⟩
  | cons q l ih =>
    obtain ⟨c, hbest, hmem, hle⟩ : ∃ c, wfqBetter ptr (some b) q = some c ∧ (c = b ∨ c = q) ∧
        (b.finish < 2 ^ 47 → q.finish < 2 ^ 47 → c.finish ≤ b.finish ∧ c.finish ≤ q.finish) := by
      rcases wfqBetter_some ptr b q with ⟨hpick, hle⟩ | ⟨hpick, hle⟩
      · exact ⟨b, hpick, .inl rfl, fun hb hq => ⟨Nat.le_refl _, hle hb hq⟩⟩
      · exact ⟨q, hpick, .inr rfl, fun hb hq => ⟨hle hb hq, Nat.le_refl _⟩⟩
    obtain ⟨r, hr, hrmem, hleast⟩ := ih c
    refine ⟨r, by rw [List.foldl_cons, hbest, hr], ?_, fun hlow => ?_⟩
    · simp only [List.mem_cons] at hrmem ⊢
      rcases hrmem with rfl | hrest
      · exact hmem.imp_right .inl
      · exact .inr (.inr hrest)
    · have hb := hlow b List.mem_cons_self
      have hq := hlow q (List.mem_cons_of_mem _ List.mem_cons_self)
      obtain ⟨hcb, hcq⟩ := hle hb hq
      have hrest : ∀ p ∈ l, p.finish < 2 ^ 47 := fun p hp => hlow p (List.mem_cons_of_mem _ (List.mem_cons_of_mem _ hp))
      have hall := hleast (List.forall_mem_cons.mpr ⟨Nat.lt_of_le_of_lt hcb hb, hrest⟩)
      have hrc := hall c List.mem_cons_self
      exact List.forall_mem_cons.mpr ⟨Nat.le_trans hrc hcb, List.forall_mem_cons.mpr ⟨Nat.le_trans hrc hcq, fun p hp => hall p (List.mem_cons_of_mem _ hp)⟩⟩

/-- WFQ picks one of the heads, one of the least tag where no tag has wrapped. -/
theorem wfqPick_some {ptr : Nat} {l : List Req} {r : Req} (h : wfqPick ptr l = some r) :
    r ∈ l ∧ ((∀ q ∈ l, q.finish < 2 ^ 47) → ∀ q ∈ l, r.finish ≤ q.finish) := by
  cases l with
  | nil => cases h
  | cons q l =>
    obtain ⟨c, hpick, hspec⟩ := foldl_wfqBetter ptr l q
    rw [wfqPick_cons, hpick] at h
    cases h
    exact hspec

/-! ### The grant slot (03, R85; 07, R188) -/

section
variable {s : State} {k : Nat} {r : Req} {x : RegionSt}

theorem mem_of_mem_without {l : List Req} {q : Req} (h : q ∈ without l r) : q ∈ l := (List.mem_filter.mp h).1

theorem eligibleHead_some {l : List Req} (h : eligibleHead s k l = some r) : r ∈ l ∧ eligible s k r = true := by
  cases l with
  | nil => cases h
  | cons q l =>
    rw [eligibleHead] at h
    split at h
    next hq => cases h; exact ⟨List.mem_cons_self, hq⟩
    next => cases h

theorem mem_wfqHeads (h : r ∈ wfqHeads s k) : r ∈ (regionOf s k).ingressQ ∧ eligible s k r = true := by
  obtain ⟨hmem, hpick⟩ := List.mem_filter.mp h
  exact ⟨hmem, (Bool.and_eq_true_iff.mp hpick).1⟩

/-- The grant slot takes the head of one of the three queues; of fabric requests, the one that WFQ picks. -/
theorem pickGrant_cases (h : pickGrant s k = some (r, x)) :
    (eligibleHead s k (regionOf s k).engineQ = some r ∧ x = { regionOf s k with engineQ := without (regionOf s k).engineQ r, grantPtr := 1 }) ∨
    (eligibleHead s k (regionOf s k).darinQ = some r ∧ x = { regionOf s k with darinQ := without (regionOf s k).darinQ r, grantPtr := 2 }) ∨
    (wfqPick (regionOf s k).wfqPtr (wfqHeads s k) = some r ∧
      x = { regionOf s k with ingressQ := without (regionOf s k).ingressQ r, grantPtr := 0, vtag := r.finish, wfqPtr := (r.source + 1) % 4096 }) := by
  rw [pickGrant] at h
  split at h
  · obtain ⟨q, hq, hx⟩ := Option.map_eq_some_iff.mp h
    cases hx
    exact .inl ⟨hq, rfl⟩
  · obtain ⟨q, hq, hx⟩ := Option.map_eq_some_iff.mp h
    cases hx
    exact .inr (.inl ⟨hq, rfl⟩)
  · obtain ⟨q, hq, hx⟩ := Option.map_eq_some_iff.mp h
    cases hx
    exact .inr (.inr ⟨hq, rfl⟩)
  · cases h

/-- What is granted was queued and eligible, and nothing joins the queues. -/
theorem pickGrant_queued (h : pickGrant s k = some (r, x)) :
    r ∈ queued (regionOf s k) ∧ eligible s k r = true ∧ ∀ q ∈ queued x, q ∈ queued (regionOf s k) := by
  simp only [queued, List.mem_append]
  rcases pickGrant_cases h with ⟨hhead, rfl⟩ | ⟨hhead, rfl⟩ | ⟨hpick, rfl⟩
  · obtain ⟨hmem, helig⟩ := eligibleHead_some hhead
    exact ⟨.inl (.inl hmem), helig, fun q hq => hq.imp_left (Or.imp_left mem_of_mem_without)⟩
  · obtain ⟨hmem, helig⟩ := eligibleHead_some hhead
    exact ⟨.inl (.inr hmem), helig, fun q hq => hq.imp_left (Or.imp_right mem_of_mem_without)⟩
  · obtain ⟨hmem, helig⟩ := mem_wfqHeads (wfqPick_some hpick).1
    exact ⟨.inr hmem, helig, fun q hq => hq.imp_right mem_of_mem_without⟩

/-- Of fabric requests alone one of the least finish tag is granted (03, R85). -/
theorem pickGrant_least (h : pickGrant s k = some (r, x)) (hengine : (regionOf s k).engineQ = []) (hdarin : (regionOf s k).darinQ = []) :
    x.vtag = r.finish ∧ x.wfqPtr = (r.source + 1) % 4096 ∧ ((∀ q ∈ wfqHeads s k, q.finish < 2 ^ 47) → ∀ q ∈ wfqHeads s k, r.finish ≤ q.finish) := by
  rcases pickGrant_cases h with ⟨hhead, -⟩ | ⟨hhead, -⟩ | ⟨hpick, rfl⟩
  · rw [hengine] at hhead
    cases hhead
  · rw [hdarin] at hhead
    cases hhead
  · exact ⟨rfl, rfl, (wfqPick_some hpick).2⟩

theorem exec_wfqGrant (h : pickGrant s k = some (r, x)) :
    exec (.wfqGrant k) s = .next (if r.launch then admitLaunch (grantReturn (modRegion s k (fun _ => x)) r) k r
      else modRegion (grantReturn (modRegion s k (fun _ => x)) r) k (fun y => { y with granted := y.granted ++ [r] })) := by
  show execWfqGrant k s = _
  rw [execWfqGrant, h]
  dsimp only
  split <;> rfl

end

/-! ### The inputs of the home agent (04, R94) -/

/-- A message waits at an input of the home agent: ingress grants 0, VC1 1, while a reserved entry is free, VC3 2. -/
def inputWaits (s : State) (k i : Nat) : Bool :=
  if i = 0 then !(regionOf s k).granted.isEmpty
  else if i = 1 then !(regionOf s k).vc1.isEmpty && decide (reservedUsed s k < 256)
  else !(regionOf s k).vc3.isEmpty

theorem inputWaits_eq_false_iff {s : State} {k i : Nat} : inputWaits s k i = false ↔
    if i = 0 then (regionOf s k).granted = [] else if i = 1 then (regionOf s k).vc1 = [] ∨ 256 ≤ reservedUsed s k else (regionOf s k).vc3 = [] := by
  unfold inputWaits
  split
  · simp
  · split
    · simp [Classical.or_iff_not_imp_left]
    · simp

/-- The home agent takes the first message of the input whose turn it is, and the pointer passes that input. -/
theorem exec_homeAgentInput {s : State} {k i : Nat} (hturn : rotate 3 (regionOf s k).haPtr (inputWaits s k) = some i) :
    (∀ r l, i = 0 → (regionOf s k).granted = r :: l →
      exec (.homeAgentInput k) s = .next (homeEnter (modRegion s k (fun y => { y with granted := l, haPtr := 1 })) k r false)) ∧
    (∀ r l, i = 1 → (regionOf s k).vc1 = r :: l →
      exec (.homeAgentInput k) s = .next (homeVc1 (modRegion s k (fun y => { y with vc1 := l, haPtr := 2 })) k r)) ∧
    (∀ a l, i = 2 → (regionOf s k).vc3 = a :: l →
      exec (.homeAgentInput k) s = .next (snoopAnswer (modRegion s k (fun y => { y with vc3 := l, haPtr := 0 })) k a)) := by
  have hexec : exec (.homeAgentInput k) s = execHomeAgentInput k s := rfl
  unfold inputWaits at hturn
  rw [hexec, execHomeAgentInput]
  dsimp only
  rw [hturn]
  refine ⟨?_, ?_, ?_⟩ <;> rintro _ _ rfl hqueue <;> rw [hqueue] <;> rfl

end Sys2Proof.Machine
/-! Snoops that a message or an answer closes (04, R95, R98, R100, R103, R104, R108). -/

namespace Sys2Proof.Machine

/-! ### What closing a snoop leaves unchanged (03, R74) -/

/-- A line's state after its update: an idle line is not listed. -/
theorem lineOf_setLine_same (s : State) (l : Nat) (v : LineSt) : lineOf (setLine s l v) l = v := by
  unfold lineOf setLine
  by_cases h : v = {}
  · simp [h, tget]
  · simp [h]

/-- A snoop that is closed changes a count of its tenant, and touches nothing else. -/
theorem closeSnoop_eq (s : State) (x : Snoop) : ∃ tenants, closeSnoop s x = { s with hub := { s.hub with tenants := tenants } } := by
  unfold closeSnoop epochSub modTenant
  split
  · split <;> exact ⟨_, rfl⟩
  · exact ⟨_, rfl⟩

theorem eventRec_fault (s : State) (type : Nat) (body : List Byte) : (eventRec s type body).fault = s.fault := rfl

theorem regFault_logFault (s : State) (r : FaultRecord) (k : Nat) : regFault (logFault s r).1 k = regFault s k := by
  rw [logFault, regFault, lifeAdd_fault, eventRec_fault]
  rfl

/-- A snoop is closed, and the transaction goes on as given. -/
def snoopClosed (s : State) (line : Nat) (l : LineSt) (x : Snoop) (t : Trans) : State := setLine (closeSnoop s x) line { l with active := some t }

theorem lineOf_snoopClosed (s : State) (line : Nat) (l : LineSt) (x : Snoop) (t : Trans) :
    lineOf (snoopClosed s line l x t) line = { l with active := some t } := lineOf_setLine_same ..

theorem snoopClosed_spec (s : State) (line : Nat) (l : LineSt) (x : Snoop) (t : Trans) :
    let u := snoopClosed s line l x t
    u.wire = s.wire ∧ u.mem = s.mem ∧ u.coh.closing = s.coh.closing ∧ u.coh.dir = s.coh.dir ∧ u.hub.staleSnoops = s.hub.staleSnoops ∧ u.fault = s.fault := by
  obtain ⟨_, hclosed⟩ := closeSnoop_eq s x
  rw [snoopClosed, hclosed]
  exact ⟨rfl, rfl, rfl, rfl, rfl, rfl⟩

/-- The last NOTE of a region (12, R311). -/
theorem lastNote_noteR (s : State) (k unit cause detail : Nat) : (regFault (noteR s k unit cause detail) k).lastNote = cause := by
  unfold noteR note
  extract_lets _ timed counted same
  have hcounted : (regFault counted k).lastNote = cause := congrArg RegionFault.lastNote ((regFault_modRegFault ..).trans (if_pos rfl))
  clear_value counted
  split
  · exact hcounted
  · rw [regFault_logFault]
    exact hcounted

theorem satInc_eq (w n : Nat) : satInc w n = min (2 ^ w - 1) (n + 1) := by
  unfold satInc
  split <;> omega

/-! ### Crossings (04, R95, R103, R104) -/

section
variable {s : State} {k : Nat} {r : Req} {t : Trans} {n : Nat} {x : Snoop}

/-- A message of VC1 crosses a snoop of its slot: the active transaction of its line has it outstanding. -/
structure Crosses (s : State) (r : Req) (t : Trans) (n : Nat) (x : Snoop) : Prop where
  active : (lineOf s r.line).active = some t
  slot : requestSlot s r = some n
  gen : (slotOf s n).gen = r.roleGen
  snoop : t.snoops.find? (fun y => y.slot == n) = some x

/-- A message that crosses no snoop enters as any other (04, R95). -/
theorem homeVc1_of_not_crosses (h : ¬ ∃ t n x, Crosses s r t n x) : homeVc1 s k r = homeEnter s k r true := by
  have hfold : fold? s r = none := by
    unfold fold?
    split
    next t n hactive hslot =>
      split
      · rfl
      next hgen =>
        split
        · rfl
        next x hsnoop => exact absurd ⟨t, n, x, hactive, hslot, by simpa using hgen, hsnoop⟩ h
    · rfl
  rw [homeVc1, hfold]

/-- A crossed snoop is closed, and its own answer, where one is on its way, will change nothing else (04, R103, R104). -/
def crossed (s : State) (r : Req) (n : Nat) (x : Snoop) (t : Trans) : State :=
  let u := snoopClosed s r.line (lineOf s r.line) x t
  if x.st = .waiting then { u with coh := { u.coh with closing := u.coh.closing ++ [(n, r.line, x.tag)] } } else u

theorem crossed_spec (s : State) (r : Req) (n : Nat) (x : Snoop) (t : Trans) :
    (crossed s r n x t).wire = s.wire ∧ (crossed s r n x t).mem = s.mem ∧
    (crossed s r n x t).coh.closing = (if x.st = .waiting then s.coh.closing ++ [(n, r.line, x.tag)] else s.coh.closing) ∧
    lineOf (crossed s r n x t) r.line = { lineOf s r.line with active := some t } := by
  have hline := lineOf_snoopClosed s r.line (lineOf s r.line) x t
  obtain ⟨hwire, hmem, hclosing, -, -⟩ := snoopClosed_spec s r.line (lineOf s r.line) x t
  rw [crossed]
  split
  · exact ⟨hwire, hmem, by rw [← hclosing], hline⟩
  · exact ⟨hwire, hmem, hclosing, hline⟩

/-- A message that crosses closes the snoop: a writeback gives its data, an eviction is answered at once, unless its slot awaits the writeback. -/
theorem fold?_of_crosses (h : Crosses s r t n x) : fold? s r =
    if r.op = 0x18 then
      some (crossed s r n x { t with snoops := t.snoops.filter (fun y => y.slot != n), data := some r.payload, dataPoison := r.poison, foldedReqs := t.foldedReqs ++ [r] }, none)
    else if x.st ≠ .awaitWb then some (crossed s r n x { t with snoops := t.snoops.filter (fun y => y.slot != n) }, some r)
    else none := by
  unfold fold?
  simp only [h.active, h.slot, h.gen, h.snoop, bne_self_eq_false, Bool.false_eq_true, if_false]
  rfl

end

/-! ### Snoop answers (04, R98, R100, R103, R108) -/

section
variable {s : State} {k : Nat} {a : SnoopAns} {t : Trans} {x : Snoop}

/-- The snoop of a transaction that an answer is for. -/
def answered (t : Trans) (a : SnoopAns) : Option Snoop := t.snoops.find? (fun x => x.slot == a.slot && x.tag == a.tag && x.st == .waiting)

/-- The answer of a snoop that a folded message closed. -/
theorem snoopAnswer_of_closing (h : s.coh.closing.contains (a.slot, a.line, a.tag) = true) : snoopAnswer s k a =
    sendWaiting { s with coh := { s.coh with closing := s.coh.closing.filter (· != (a.slot, a.line, a.tag)) } } k a.slot := by
  rw [snoopAnswer, if_pos h]

/-- A stale answer is counted and noted (04, R108). -/
def noteStale (s : State) (k : Nat) (a : SnoopAns) : State :=
  if a.stale then noteR { s with hub := { s.hub with staleSnoops := satInc 64 s.hub.staleSnoops } } k (unitId Kind.homeAgent 0) Cause.staleSnoop else s

/-- What a transaction keeps of an answer that closes its snoop: its data, and that a shared copy stayed. -/
def takeAnswer (t : Trans) (a : SnoopAns) (x : Snoop) : Trans :=
  { t with
    snoops := t.snoops.filter (fun y => y.slot != a.slot)
    data := if a.data.isSome then a.data else t.data
    dataPoison := if a.data.isSome then a.poison else t.dataPoison
    downgraded := t.downgraded || (!a.stale && a.answer == 2 && !x.invalidate) }

/-- The state once an answer has closed its snoop. -/
def answerTaken (s : State) (k : Nat) (a : SnoopAns) (t : Trans) (x : Snoop) : State :=
  snoopClosed (noteStale s k a) a.line (lineOf s a.line) x (takeAnswer t a x)

section
variable (hlate : s.coh.closing.contains (a.slot, a.line, a.tag) = false)
include hlate

/-- An answer that nothing awaits. -/
theorem snoopAnswer_of_none (h : ∀ t, (lineOf s a.line).active = some t → answered t a = none) : snoopAnswer s k a = countDiscard s := by
  cases hactive : (lineOf s a.line).active with
  | none => simp only [snoopAnswer, hlate, hactive, Bool.false_eq_true, if_false]
  | some t =>
    have hnone := h t hactive
    rw [answered] at hnone
    simp only [snoopAnswer, hlate, hactive, hnone, Bool.false_eq_true, if_false]

variable (hactive : (lineOf s a.line).active = some t) (hwaits : answered t a = some x)
include hactive hwaits

/-- EVICT_IN_FLIGHT: the WRITEBACK is awaited (04, R98). -/
theorem snoopAnswer_of_evict (hstale : a.stale = false) (hans : a.answer = 3) : snoopAnswer s k a =
    setLine s a.line { lineOf s a.line with active := some { t with
      snoops := t.snoops.map (fun y => if y.tag = x.tag ∧ y.slot = x.slot then { y with st := .awaitWb } else y) } } := by
  rw [answered] at hwaits
  simp only [snoopAnswer, hlate, hactive, hwaits, hstale, hans, Bool.false_eq_true, if_false, if_true]

/-- Every other answer closes its snoop (04, R98, R100). -/
theorem snoopAnswer_of_other (hother : a.stale = true ∨ a.answer ≠ 3) : snoopAnswer s k a = sendWaiting (answerTaken s k a t x) k a.slot := by
  rw [answered] at hwaits
  simp only [snoopAnswer, hlate, hactive, hwaits, Bool.false_eq_true, if_false]
  cases hstale : a.stale with
  | true => simp [answerTaken, snoopClosed, noteStale, takeAnswer, hstale]
  | false =>
    have hans : a.answer ≠ 3 := by simpa [hstale] using hother
    simp [answerTaken, snoopClosed, noteStale, takeAnswer, hstale, hans]

end

theorem noteStale_eq (s : State) (k : Nat) (a : SnoopAns) : ∃ fault life hub, noteStale s k a = { s with fault := fault, life := life, hub := hub } := by
  unfold noteStale
  split
  · obtain ⟨fault, life, hnote⟩ := note_eq { s with hub := { s.hub with staleSnoops := satInc 64 s.hub.staleSnoops } } false k (unitId Kind.homeAgent 0) Cause.staleSnoop 0
    exact ⟨fault, life, _, hnote⟩
  · exact ⟨_, _, _, rfl⟩

theorem noteStale_counts (s : State) (k : Nat) (h : a.stale = true) :
    (noteStale s k a).hub.staleSnoops = min (2 ^ 64 - 1) (s.hub.staleSnoops + 1) ∧ (regFault (noteStale s k a) k).lastNote = 0x07 := by
  rw [noteStale, if_pos h]
  exact ⟨by rw [noteR_hub, satInc_eq], lastNote_noteR ..⟩

theorem answerTaken_spec (s : State) (k : Nat) (a : SnoopAns) (t : Trans) (x : Snoop) :
    (answerTaken s k a t x).mem = s.mem ∧ (answerTaken s k a t x).coh.dir = s.coh.dir ∧
    (a.stale = true → (answerTaken s k a t x).hub.staleSnoops = min (2 ^ 64 - 1) (s.hub.staleSnoops + 1) ∧ (regFault (answerTaken s k a t x) k).lastNote = 0x07) ∧
    lineOf (answerTaken s k a t x) a.line = { lineOf s a.line with active := some (takeAnswer t a x) } := by
  obtain ⟨-, hmem, -, hdir, hstale, hfault⟩ := snoopClosed_spec (noteStale s k a) a.line (lineOf s a.line) x (takeAnswer t a x)
  obtain ⟨_, _, _, hnoted⟩ := noteStale_eq s k a
  refine ⟨hmem.trans (by rw [hnoted]), hdir.trans (by rw [hnoted]), fun h => ?_, lineOf_snoopClosed ..⟩
  obtain ⟨hcount, hnote⟩ := noteStale_counts s k h
  exact ⟨hstale.trans hcount, by rw [answerTaken, regFault, hfault]; exact hnote⟩

end

end Sys2Proof.Machine

section
open Sys2Proof Sys2Proof.Machine

/-- Settles O12: the grant slot by its three queues, the inputs by the pointer, and each message or answer by the snoop it closes. -/
theorem grantsReachTheHomeAgent : Obligations.GrantsReachTheHomeAgent := by
  unfold Obligations.GrantsReachTheHomeAgent
  refine ⟨?grant, ?input, ?crossing, ?answer⟩
  case grant =>
    intro s k r x hpick s1
    obtain ⟨hmem, helig, hsub⟩ := pickGrant_queued hpick
    exact ⟨exec_wfqGrant hpick, hmem, helig, hsub, pickGrant_least hpick⟩
  case input =>
    intro s k d x idle i hd hbefore hwaits
    exact exec_homeAgentInput (rotate_of_first hd (fun c hc => inputWaits_eq_false_iff.mpr (hbefore c hc)) (by simpa using (not_congr inputWaits_eq_false_iff).mpr hwaits))
  case crossing =>
    intro s k r l crosses
    refine ⟨fun hnone => homeVc1_of_not_crosses fun ⟨t, n, x, h⟩ => hnone ⟨t, n, x, h.active, h.slot, h.gen, h.snoop⟩, ?_⟩
    rintro t n x ⟨hactive, hslot, hgen, hsnoop⟩ rest closing
    have hfold := fold?_of_crosses ⟨hactive, hslot, hgen, hsnoop⟩
    refine ⟨fun hop => ?_, fun hop hst => ?_, fun hop hst => ?_⟩
    · rw [if_pos hop] at hfold
      exact ⟨_, by rw [homeVc1, hfold], crossed_spec ..⟩
    · rw [if_neg (by omega), if_pos hst] at hfold
      exact ⟨_, by rw [homeVc1, hfold], crossed_spec ..⟩
    · rw [if_neg (by omega), if_neg (fun h => h hst)] at hfold
      rw [homeVc1, hfold]
  case answer =>
    intro s k a l late waits
    refine ⟨snoopAnswer_of_closing, snoopAnswer_of_none, fun t x hlate hactive hwaits => ⟨snoopAnswer_of_evict hlate hactive hwaits, fun hother => ?_⟩⟩
    exact ⟨_, snoopAnswer_of_other hlate hactive hwaits hother, answerTaken_spec ..⟩

end
/-! The rows of the directory (04, Table 4.6, R99 to R101, R105, R390): the snoops and the entry of each class of requests. -/

namespace Sys2Proof.Machine

/-! ### Lists in order -/

theorem insertBy_eq_orderedInsert (n : Nat) (l : List Nat) : insertBy (fun a b => decide (a ≤ b)) n l = l.orderedInsert (· ≤ ·) n := by
  induction l with
  | nil => rfl
  | cons m l ih => simp [insertBy, ih]

theorem sortBy_eq_insertionSort (l : List Nat) : sortBy (fun a b => decide (a ≤ b)) l = l.insertionSort (· ≤ ·) := by
  induction l with
  | nil => rfl
  | cons n l ih =>
    rw [List.insertionSort_cons, ← ih, ← insertBy_eq_orderedInsert]
    rfl

theorem filter_bne (l : List Nat) (n : Nat) : l.filter (· != n) = l.filter (· ≠ n) :=
  List.filter_congr fun q _ => by by_cases hq : q = n <;> simp [hq]

/-! ### Holders of a line (04, R90) -/

/-- The entry of a line that some slots share; I where none does. -/
def sharedEntry (l : List Nat) : DirEntry := if l.isEmpty then {} else { st := .s, sharers := l }

/-- A slot joins the sharers, which stand in order. -/
def joinSharers (l : List Nat) (n : Nat) : List Nat := if l.contains n then l else sortBy (fun a b => decide (a ≤ b)) (l ++ [n])

/-- The slots that share a line beside the requester of READ_SHARED: an owner only where it kept a copy (04, R100). -/
def otherSharers (e : DirEntry) (n : Nat) (down : Bool) : List Nat :=
  match e.st with
  | .s => e.sharers
  | .em => if e.ownerSlot ≠ n ∧ down then [e.ownerSlot] else []
  | _ => []

@[simp] theorem sharedEntry_nil : sharedEntry [] = {} := rfl

theorem sharedEntry_of_ne_nil {l : List Nat} (h : l ≠ []) : sharedEntry l = { st := .s, sharers := l } :=
  if_neg (by simpa using h)

@[simp] theorem joinSharers_nil (n : Nat) : joinSharers [] n = [n] := rfl

theorem joinSharers_before {m n : Nat} (h : n < m) : joinSharers [m] n = [n, m] := by
  have hne : n ≠ m := Nat.ne_of_lt h
  simp [joinSharers, sortBy, insertBy, hne, Nat.not_le.mpr h]

theorem joinSharers_behind {m n : Nat} (h : m < n) : joinSharers [m] n = [m, n] := by
  have hne : n ≠ m := Nat.ne_of_gt h
  simp [joinSharers, sortBy, insertBy, hne, Nat.le_of_lt h]

theorem joinSharers_of_mem {l : List Nat} {n : Nat} (h : n ∈ l) : joinSharers l n = l := if_pos (List.contains_iff_mem.mpr h)

section
variable {l : List Nat} {n : Nat} (h : n ∉ l)
include h

theorem joinSharers_of_not_mem : joinSharers l n = (l ++ [n]).insertionSort (· ≤ ·) := by
  rw [joinSharers, if_neg (by simpa using h), sortBy_eq_insertionSort]

theorem mem_joinSharers (q : Nat) : q ∈ joinSharers l n ↔ q = n ∨ q ∈ l := by
  rw [joinSharers_of_not_mem h, List.mem_insertionSort, List.mem_append, List.mem_singleton, or_comm]

theorem length_joinSharers : (joinSharers l n).length = l.length + 1 := by
  rw [joinSharers_of_not_mem h, List.length_insertionSort, List.length_append, List.length_singleton]

/-- Sharers in order stay in order when one joins. -/
theorem pairwise_joinSharers (hl : l.Pairwise (· < ·)) : (joinSharers l n).Pairwise (· < ·) := by
  have hnodup : (l ++ [n]).Nodup := List.nodup_append.mpr ⟨hl.imp Nat.ne_of_lt, List.nodup_singleton n, by simpa using fun q hq => ne_of_mem_of_not_mem hq h⟩
  rw [joinSharers_of_not_mem h]
  have hsorted := List.pairwise_insertionSort (· ≤ ·) (l ++ [n])
  have hdistinct := ((List.perm_insertionSort (· ≤ ·) (l ++ [n])).nodup_iff).mpr hnodup
  exact hsorted.imp₂ (fun _ _ hle hne => Nat.lt_of_le_of_ne hle hne) hdistinct

end

/-! ### The rows (04, Table 4.6) -/

/-- The requests that leave no holder of their line. -/
theorem isPlainWrite_or_isAtomic_iff {op : Nat} : (isPlainWrite op || isAtomic op) = true ↔ op = 0x02 ∨ op = 0x04 ∨ op = 0x08 ∨ 0x10 ≤ op ∧ op ≤ 0x17 := by
  simp [isPlainWrite, isAtomic, or_assoc]

theorem isPlainRead_of_clears {op : Nat} (h : (isPlainWrite op || isAtomic op) = true) : isPlainRead op = false := by
  have hop := isPlainWrite_or_isAtomic_iff.mp h
  simp only [isPlainRead, Op.read, Op.readNoalloc, Bool.or_eq_false_iff, beq_eq_false_iff_ne]
  omega

section
variable {op : Nat} (e : DirEntry) (r : Option Nat) (n gen : Nat) (failed down : Bool)

theorem rowAfter_plainRead (h : isPlainRead op = true) :
    rowAfter op e r gen failed down = if e.st = .em then (if down then sharedEntry [e.ownerSlot] else {}) else e := by
  simp [rowAfter, h, sharedEntry]

theorem rowAfter_readShared : rowAfter 0x05 e (some n) gen failed down =
    sharedEntry (if failed then (otherSharers e n down).filter (· ≠ n) else joinSharers (otherSharers e n down) n) := by
  rw [← filter_bne]
  cases failed <;> rfl

theorem rowAfter_owned (h : op = 0x06 ∨ op = 0x07) : rowAfter op e (some n) gen failed down =
    if failed then {} else { st := .em, sharers := [n], ownerSlot := n, ownerGen := gen } := by
  rcases h with rfl | rfl <;> rfl

theorem rowAfter_clears (h : (isPlainWrite op || isAtomic op) = true) : rowAfter op e r gen failed down = {} := by
  simp only [rowAfter, isPlainRead_of_clears h, h, Bool.false_eq_true, if_false, if_true]

theorem rowSnoops_plainRead (h : isPlainRead op = true) : rowSnoops op e r = if e.st = .em then [(e.ownerSlot, false)] else [] := by
  simp only [rowSnoops, h, if_true]

theorem rowSnoops_readShared : rowSnoops 0x05 e r = if e.st = .em ∧ some e.ownerSlot ≠ r then [(e.ownerSlot, false)] else [] := rfl

theorem rowSnoops_owned (h : op = 0x06 ∨ op = 0x07) : rowSnoops op e r =
    if e.st = .s then (e.sharers.filter (fun q => some q != r)).map (fun q => (q, true))
    else if e.st = .em ∧ some e.ownerSlot ≠ r then [(e.ownerSlot, true)] else [] := by
  rcases h with rfl | rfl <;> rfl

theorem rowSnoops_clears (h : (isPlainWrite op || isAtomic op) = true) : rowSnoops op e r =
    if e.st = .s then e.sharers.map (fun q => (q, true)) else if e.st = .em then [(e.ownerSlot, true)] else [] := by
  have hop := isPlainWrite_or_isAtomic_iff.mp h
  have hshared : op ≠ 0x05 := by omega
  have howned : ¬ (op = 0x06 ∨ op = 0x07) := by omega
  simp only [rowSnoops, isPlainRead_of_clears h, h, hshared, howned, Bool.false_eq_true, if_false, if_true]

/-- A lost line has no holder to snoop (04, R101). -/
theorem rowSnoops_lost (op : Nat) (h : e.st = .lost) : rowSnoops op e r = [] := by
  simp [rowSnoops, h]

theorem dropHolder_shared (h : e.st = .s) :
    dropHolder e n = if e.sharers.filter (· ≠ n) = [] then {} else { e with sharers := e.sharers.filter (· ≠ n) } := by
  simp only [dropHolder, h, filter_bne, List.isEmpty_iff]

theorem dropHolder_owned (h : e.st = .em) : dropHolder e n = if e.ownerSlot = n then {} else e := by
  simp only [dropHolder, h]

theorem dropHolder_of_unheld (hs : e.st ≠ .s) (hem : e.st ≠ .em) : dropHolder e n = e := by
  unfold dropHolder
  split
  next h => exact absurd h hs
  next h => exact absurd h hem
  next => rfl

end

end Sys2Proof.Machine

section
open Sys2Proof Sys2Proof.Machine

/-- Settles O14: the rows by the class of their requests, plain reads, READ_SHARED, requests for ownership, and those that leave no holder. -/
theorem directoryRows : Obligations.DirectoryRows := by
  unfold Obligations.DirectoryRows
  intro n m gen sharers hne i sh em own after failing
  refine ⟨?reads, ?shared, ?owned, ?clears, ?failing, ?drop, ?lost⟩
  case reads =>
    intro op hop
    have hread : isPlainRead op = true := (by decide : ∀ op ∈ [0x01, 0x03], isPlainRead op = true) op hop
    simp [after, rowAfter_plainRead _ _ _ _ _ hread, rowSnoops_plainRead _ _ hread, i, sh, em, sharedEntry]
  case shared =>
    simp only [after, rowAfter_readShared, rowSnoops_readShared, Bool.false_eq_true, if_false, i, sh, em, own, otherSharers]
    refine ⟨rfl, fun hmem => ?held, fun hnm => ?alone, fun hmem => ?joins, fun hlt => ?before, fun hlt => ?behind, fun down => ?own, ?snoops⟩
    case held => rw [joinSharers_of_mem hmem, sharedEntry_of_ne_nil hne]
    case alone => simp [sharedEntry]
    case joins =>
      exact ⟨_, sharedEntry_of_ne_nil (List.ne_nil_of_mem ((mem_joinSharers hmem n).mpr (.inl rfl))),
        mem_joinSharers hmem, length_joinSharers hmem, pairwise_joinSharers hmem⟩
    case before =>
      have hne : m ≠ n := Nat.ne_of_gt hlt
      simp [hne, joinSharers_before hlt, sharedEntry]
    case behind =>
      have hne : m ≠ n := Nat.ne_of_lt hlt
      simp [hne, joinSharers_behind hlt, sharedEntry]
    case own => simp [sharedEntry]
    case snoops => simp
  case owned =>
    intro op hop
    have hown : op = 0x06 ∨ op = 0x07 := by simpa using hop
    simp only [after, rowAfter_owned _ _ _ _ _ hown, rowSnoops_owned _ _ hown, i, sh, em, own]
    have hfilter : sharers.filter (fun q => some q != some n) = sharers.filter (· ≠ n) := filter_bne sharers n
    simp [hfilter]
  case clears =>
    intro op hop
    have hclears : (isPlainWrite op || isAtomic op) = true := by rw [isPlainWrite_or_isAtomic_iff]; simp at hop; omega
    simp [after, rowAfter_clears _ _ _ _ _ hclears, rowSnoops_clears _ _ hclears, i, sh, em]
  case failing =>
    refine ⟨fun op hop e _ => ?_, ?_⟩
    · have hown : op = 0x06 ∨ op = 0x07 := by simpa using hop
      simp only [failing, rowAfter_owned _ _ _ _ _ hown, if_true, i]
    · simp only [failing, rowAfter_readShared, if_true, i, sh, em, own, otherSharers]
      refine ⟨rfl, fun down => by simp, by simp only [sharedEntry, List.isEmpty_iff], fun hne => ?_⟩
      simp [sharedEntry, hne.symm]
  case drop =>
    refine ⟨dropHolder_of_unheld _ _ (by simp [i]) (by simp [i]), dropHolder_shared _ _ rfl, ?_, fun hne => ?_, fun src => dropHolder_of_unheld _ _ (by simp) (by simp)⟩
    · exact (dropHolder_owned _ _ rfl).trans (if_pos rfl)
    · exact (dropHolder_owned _ _ rfl).trans (if_neg hne.symm)
  case lost => exact fun op r src => rowSnoops_lost _ _ _ rfl

end

/-! The state around the home agent: what its caches, its entries and its NOTEs leave unchanged, and how a transaction ends (04, R89, R93, R111). -/

namespace Sys2Proof.Machine

/-! ### NOTE faults of a region (12, R311) -/

section
variable (s : State) (region unit cause detail : Nat)

@[simp] theorem noteR_coh : (noteR s region unit cause detail).coh = s.coh := by
  obtain ⟨_, _, h⟩ := note_eq s false region unit cause detail
  rw [noteR, h]

@[simp] theorem noteR_mem : (noteR s region unit cause detail).mem = s.mem := by
  obtain ⟨_, _, h⟩ := note_eq s false region unit cause detail
  rw [noteR, h]

@[simp] theorem noteR_extents : (noteR s region unit cause detail).extents = s.extents := by
  obtain ⟨_, _, h⟩ := note_eq s false region unit cause detail
  rw [noteR, h]

/-- The region of a NOTE shows its cause and counts it, modulo 256. -/
theorem regFault_noteR : regFault (noteR s region unit cause detail) region =
    { regFault s region with lastNote := cause, noteCount := ((regFault s region).noteCount + 1) % 256 } := by
  unfold noteR note
  extract_lets _ timed counted same
  have hcounted : regFault counted region = { regFault s region with lastNote := cause, noteCount := ((regFault s region).noteCount + 1) % 256 } :=
    (regFault_modRegFault ..).trans (if_pos rfl)
  clear_value counted
  split
  · exact hcounted
  · rw [regFault_logFault]
    exact hcounted

end

/-! ### The caches of a home agent (04, R89; 05, R120) -/

theorem cachePut_eq (s : State) (l : List (Nat × Bool)) (places key : Nat) (written : Bool) :
    ∃ time, (cachePut s l places key written).2 = { s with time := time } := by
  unfold cachePut
  split
  · exact ⟨_, rfl⟩
  · split <;> exact ⟨_, rfl⟩

/-- A slice that caches an entry changes what it caches, and may use a free value. -/
theorem cacheEntry_eq (s : State) (k w : Nat) (written : Bool) :
    ∃ cached time, cacheEntry s k w written = { s with coh := { s.coh with dirCache := cached }, time := time } := by
  unfold cacheEntry
  split
  · exact ⟨_, _, rfl⟩
  · obtain ⟨time, hput⟩ := cachePut_eq s (tget s.coh.dirCache (cacheSet k w) []) (setWays s (cacheSet k w)) w written
    dsimp only
    rw [hput]
    exact ⟨_, _, rfl⟩

section
variable (s : State) (k w : Nat) (written : Bool)

@[simp] theorem cacheEntry_mem : (cacheEntry s k w written).mem = s.mem := by
  obtain ⟨_, _, h⟩ := cacheEntry_eq s k w written
  rw [h]

@[simp] theorem cacheEntry_extents : (cacheEntry s k w written).extents = s.extents := by
  obtain ⟨_, _, h⟩ := cacheEntry_eq s k w written
  rw [h]

@[simp] theorem cacheEntry_fault : (cacheEntry s k w written).fault = s.fault := by
  obtain ⟨_, _, h⟩ := cacheEntry_eq s k w written
  rw [h]

@[simp] theorem cacheEntry_dir : (cacheEntry s k w written).coh.dir = s.coh.dir := by
  obtain ⟨_, _, h⟩ := cacheEntry_eq s k w written
  rw [h]

end

theorem writeBackValid_foldl_eq (l : List Nat) (s : State) : ∃ mem, l.foldl writeBackValid s = { s with mem := mem } := by
  induction l generalizing s with
  | nil => exact ⟨_, rfl⟩
  | cons m l ih =>
    obtain ⟨mem, h⟩ := ih (writeBackValid s m)
    exact ⟨mem, by rw [List.foldl_cons, h]; rfl⟩

/-- A home agent that uses a block of the valid map changes the copies of the map, and may use a free value. -/
theorem cacheValid_eq (s : State) (k offset : Nat) (written : Bool) :
    ∃ mem time, cacheValid s k offset written = { s with mem := mem, time := time } := by
  unfold cacheValid
  obtain ⟨time, hput⟩ := cachePut_eq s (tget s.mem.validCache k []) 2048 (offset >>> 20) written
  dsimp only
  rw [hput]
  obtain ⟨mem, hback⟩ := writeBackValid_foldl_eq _ _
  exact ⟨mem, time, hback⟩

@[simp] theorem cacheValid_coh (s : State) (k offset : Nat) (written : Bool) : (cacheValid s k offset written).coh = s.coh := by
  obtain ⟨_, _, h⟩ := cacheValid_eq s k offset written
  rw [h]

/-! ### Entries that the home agent touches (04, R111) -/

/-- A touched entry stands as the failure rule leaves it; of the rest only the stamp of a loss may change. -/
theorem touchDir_eq (s : State) (w : Nat) :
    ∃ stamps, touchDir s w = (failEntry s (dirOf s w), setDir { s with coh := { s.coh with lostStamps := stamps } } w (failEntry s (dirOf s w))) := by
  unfold touchDir
  dsimp only
  split <;> exact ⟨_, rfl⟩

section
variable (s : State) (w : Nat)

@[simp] theorem touchDir_mem : (touchDir s w).2.mem = s.mem := by
  obtain ⟨_, h⟩ := touchDir_eq s w
  rw [h, setDir_mem]

@[simp] theorem touchDir_extents : (touchDir s w).2.extents = s.extents := by
  obtain ⟨_, h⟩ := touchDir_eq s w
  rw [h, setDir_extents]

@[simp] theorem touchDir_fault : (touchDir s w).2.fault = s.fault := by
  obtain ⟨_, h⟩ := touchDir_eq s w
  rw [h, setDir_fault]

@[simp] theorem touchDir_slots : (touchDir s w).2.coh.slots = s.coh.slots := by
  obtain ⟨_, h⟩ := touchDir_eq s w
  rw [h]
  rfl

@[simp] theorem touchDir_walks : (touchDir s w).2.coh.walks = s.coh.walks := by
  obtain ⟨_, h⟩ := touchDir_eq s w
  rw [h]
  rfl

theorem dirOf_touchDir_same : dirOf (touchDir s w).2 w = failEntry s (dirOf s w) := by
  obtain ⟨_, h⟩ := touchDir_eq s w
  rw [h, dirOf_setDir_same]

end

/-! ### The end of a transaction (04, R93) -/

section
variable {s : State} {line : Nat} {t : Trans}

theorem exec_transactionComplete {k : Nat} {x : List Done × State} (hk : homeRegion s (line * 256) = k) (hactive : (lineOf s line).active = some t)
    (hready : transReady s line = true) (hrebuilt : t.rebuilding = false) (hx : completeTrans s k line t = x) :
    exec (.transactionComplete line) s =
      .next (nextInChain (cacheValid (x.1.foldl (fun s d => answerDone s k d) x.2) k (line * 256) (writesLine t.req.op || t.data.isSome)) k line) := by
  subst hk hx
  show execTransactionComplete line s = _
  simp only [execTransactionComplete, hactive, completeLine, hrebuilt, when, hready, advanceLine, Bool.false_and, Bool.false_eq_true, if_false, if_true]

/-- A message of VC1 that came as a packet is answered with what its row gives (04, Table 4.6). -/
theorem completeTrans_vc1 {k w n : Nat} {via : Via} {p : Packet} (horigin : t.req.origin = .packet via p) (hrefusal : t.refusal = none)
    (hvc1 : isVc1 t.req.op = true) (hwindow : lineWindow s line = some w) (hslot : t.slot = some n) :
    completeTrans s k line t = ([{ req := t.req, ans := { status := (completeVc1 s k line w n t.req).1 } }], cacheEntry (completeVc1 s k line w n t.req).2 k w true) := by
  have huses : usesDir t.req = true := by simp only [usesDir, horigin, hvc1, Bool.true_or]
  simp only [completeTrans, horigin, hrefusal, hvc1, hwindow, hslot, huses, if_true]

theorem answerDone_packet {r : Req} {via : Via} {p : Packet} (horigin : r.origin = .packet via p) (s : State) (k : Nat) (a : Answer) :
    answerDone s k { req := r, ans := a } = answerPacket s k r a := by
  simp only [answerDone, horigin]

end

/-! ### A WRITEBACK of a slot that does not own its line (04, R102) -/

/-- It is judged by R102, on the state in which its entry has been touched. -/
theorem completeVc1_of_foreign {s : State} {k line w n : Nat} {r : Req} (hop : r.op = 0x18) (hslot : (slotOf s n).st ≠ .failed)
    (hforeign : (failEntry s (dirOf s w)).st ≠ .em ∨ (failEntry s (dirOf s w)).ownerSlot ≠ n) :
    completeVc1 s k line w n r = vc1Astray (touchDir s w).2 k r := by
  have hevict : r.op ≠ 0x19 := by omega
  have hother : ¬ ((touchDir s w).1.st = .em ∧ (touchDir s w).1.ownerSlot = n) := by
    rintro ⟨hst, howner⟩
    exact hforeign.elim (fun h => h hst) (fun h => h howner)
  have hkept : (slotOf (touchDir s w).2 n).st ≠ .failed := by rwa [slotOf, touchDir_slots]
  unfold completeVc1
  dsimp only
  rw [if_neg hevict, if_neg hkept, if_neg hother]

end Sys2Proof.Machine

section
open Sys2Proof Sys2Proof.Machine

/-- Settles O15: the entry touched is what it was, and the message falls to R102. -/
theorem foreignWritebackIsRefused : Obligations.ForeignWritebackIsRefused := by
  unfold Obligations.ForeignWritebackIsRefused
  intro s line w n t via p hactive hready hrebuilt horigin hop hwindow hslot hrefusal hfailed hentry hforeign k answers
  have hvc1 : isVc1 t.req.op = true := by rw [hop]; rfl
  have hwrites : (writesLine t.req.op || t.data.isSome) = true := by rw [hop]; rfl
  have hdone := (completeTrans_vc1 (k := k) horigin hrefusal hvc1 hwindow hslot).trans (by rw [completeVc1_of_foreign hop hfailed (by rwa [hentry])])
  have hexec := exec_transactionComplete rfl hactive hready hrebuilt hdone
  simp only [List.foldl_cons, List.foldl_nil, answerDone_packet horigin, hwrites] at hexec
  have hdir : ∀ u, u.coh.dir = (touchDir s w).2.coh.dir → dirOf (cacheEntry u k w true) w = dirOf s w := fun u hu => by
    rw [dirOf, cacheEntry_dir, hu, ← dirOf, dirOf_touchDir_same, hentry]
  constructor <;> intro hcounted
  · rw [vc1Astray, if_pos hcounted] at hexec
    refine ⟨_, ⟨hdir _ (by rw [noteR_coh]), by simp, by simp, hexec⟩, ?_⟩
    rw [regFault, cacheEntry_fault, ← regFault, regFault_noteR, regFault, touchDir_fault]
    exact ⟨rfl, rfl⟩
  · rw [vc1Astray, if_neg (by simp [hcounted])] at hexec
    exact ⟨_, ⟨hdir _ rfl, by simp, by simp, hexec⟩, by simp⟩

end

/-! Snoop answers as packets, and snoops that go without one (00, R7; 04, R94, R110 to R112, R389). -/

namespace Sys2Proof.Machine

/-! ### Snoop answers as packets (00, R7; 04, R389; 10, R272; 11, R303) -/

theorem unprotect_some {key : Key} {p q : Packet} (h : unprotect key p = some q) :
    ∃ payload, q = { p with payload := payload } ∧ payload.isSome = p.payload.isSome := by
  obtain ⟨-, hq⟩ := Option.ite_none_right_eq_some.mp h
  exact ⟨_, (Option.some.inj hq).symm, Option.isSome_map⟩

/-- An opened packet differs from the sealed one in its payload alone, and carries one exactly where that does (03, R76). -/
theorem openPacket_plain {s : State} {p q : Packet} {e : Nat} (h : openPacket s p = .plain q e) :
    ∃ payload, q = { p with payload := payload } ∧ payload.isSome = p.payload.isSome := by
  unfold openPacket at h
  split at h
  · cases h
  · split at h
    · cases h
    · split at h
      next hopened => cases h; exact unprotect_some hopened
      · cases h

/-- An answer that repeats none is remembered, and of the state nothing else changes. -/
theorem duplicate_fresh {s : State} {source counter : Nat} (h : (duplicate s source counter).1 = false) :
    ∃ link, (duplicate s source counter).2 = { s with link := link } := by
  unfold duplicate at h ⊢
  dsimp only at h ⊢
  split at h
  · cases h
  next hfresh => rw [if_neg hfresh]; exact ⟨_, rfl⟩

/-- The answer that waits at the home agent (04, R98). -/
def answerOf (n : Nat) (p : Packet) : SnoopAns :=
  { slot := n, line := p.address % 2 ^ 40 / 256, tag := p.tag, answer := p.aux % 16, stale := p.status == 0x17,
    data := if p.aux % 16 = 1 ∨ p.aux % 16 = 2 then p.payload else none, poison := p.poison }

section
variable {s : State} {k src : Nat} {p : Packet}

theorem openedAnswer_reserved (h : reservedStatus p.status = true) : openedAnswer s k src p = countDiscard s := by
  simp [openedAnswer, h]

variable (hform : p.payload.isSome = (p.opcode == 0x2D)) (hstatus : reservedStatus p.status = false)
include hform hstatus

theorem openedAnswer_unknown (h : 3 < p.aux % 16) : openedAnswer s k src p = noteR (countDiscard s) k (unitId Kind.homeAgent 0) 0x06 := by
  simp [openedAnswer, hform, hstatus, h]

theorem openedAnswer_unheld (haux : p.aux % 16 ≤ 3) (h : slotHeld s src true = none ∨ ∃ n, slotHeld s src true = some n ∧ (slotOf s n).gen ≠ p.roleGen) :
    openedAnswer s k src p = countDiscard s := by
  rcases h with h | ⟨n, h, hgen⟩
  · simp [openedAnswer, hform, hstatus, Nat.not_lt.mpr haux, h]
  · simp [openedAnswer, hform, hstatus, Nat.not_lt.mpr haux, h, hgen]

theorem openedAnswer_held {n : Nat} (haux : p.aux % 16 ≤ 3) (h : slotHeld s src true = some n) (hgen : (slotOf s n).gen = p.roleGen) :
    openedAnswer s k src p = modRegion s (homeRegion s (p.address % 2 ^ 40)) (fun x => { x with vc3 := x.vc3 ++ [answerOf n p] }) := by
  simp [openedAnswer, hform, hstatus, Nat.not_lt.mpr haux, h, hgen, answerOf]

end

section
variable {s : State} {p : Packet} (hruns : hubRuns s = true) (htenant : (tenantOf? s p.tenant).isSome = true)
include hruns htenant

theorem packetAnswer_darinlink : packetAnswer s .darinlink p = openedAnswer s (darinRegion s (p.address % 2 ^ 40)) (selfId s) p := by
  simp [packetAnswer, hruns, Option.ne_none_iff_isSome.mpr htenant]

theorem packetAnswer_genura {m e : Nat} {q : Packet} (hdest : p.dest = selfId s) (hvc : p.vc = 3) (hopen : openPacket s p = .plain q e)
    (hfresh : (duplicate s q.source q.msgCounter).1 = false) :
    packetAnswer s (.genura m) p = openedAnswer (duplicate s q.source q.msgCounter).2 (portRegion m) q.source q := by
  simp [packetAnswer, hruns, Option.ne_none_iff_isSome.mpr htenant, hdest, hvc, hopen, hfresh]

end

/-- The command of a snoop answer of an opcode. -/
theorem exec_snoopAnswer {row : Nat × (Via → Packet → Instr)} (hrow : row ∈ [(0x2C, Instr.snoopResp), (0x2D, Instr.snoopRespData)]) {p : Packet}
    (hop : p.opcode = row.1) (via : Via) (s : State) : exec (row.2 via p) s = .next (packetAnswer s via p) := by
  have hown : (p.opcode == row.1) = true := beq_iff_eq.mpr hop
  simp only [List.mem_cons, List.not_mem_nil, or_false] at hrow
  rcases hrow with rfl | rfl <;> exact when_true hown

/-- What becomes of an answer that has been opened (00, R7; 04, R94, R389). -/
theorem openedAnswer_spec (s : State) (k src : Nat) {p : Packet} (hform : p.payload.isSome = (p.opcode == 0x2D)) :
    (reservedStatus p.status = true → openedAnswer s k src p = countDiscard s) ∧
    (reservedStatus p.status = false → 3 < p.aux % 16 →
      ∃ u, openedAnswer s k src p = u ∧ u.coh = s.coh ∧ u.wire = s.wire ∧ u.hub = (countDiscard s).hub ∧ (regFault u k).lastNote = 0x06) ∧
    (reservedStatus p.status = false → p.aux % 16 ≤ 3 →
      (∀ n, slotHeld s src true = some n → (slotOf s n).gen = p.roleGen →
        openedAnswer s k src p = modRegion s (homeRegion s (p.address % 2 ^ 40)) (fun x => { x with vc3 := x.vc3 ++ [answerOf n p] })) ∧
      (slotHeld s src true = none ∨ (∃ n, slotHeld s src true = some n ∧ (slotOf s n).gen ≠ p.roleGen) → openedAnswer s k src p = countDiscard s)) := by
  refine ⟨openedAnswer_reserved, fun hstatus haux => ⟨_, openedAnswer_unknown hform hstatus haux, ?_⟩,
    fun hstatus haux => ⟨fun n => openedAnswer_held hform hstatus haux, openedAnswer_unheld hform hstatus haux⟩⟩
  rw [noteR_coh, noteR_wire, noteR_hub, lastNote_noteR]
  exact ⟨rfl, rfl, rfl, rfl⟩

/-! ### SNOOP_TIMEOUT (04, R110 to R112) -/

/-- The slots and the walks stand as they were. -/
structure SameSlots (s t : State) : Prop where
  slots : t.coh.slots = s.coh.slots
  walks : t.coh.walks = s.coh.walks

namespace SameSlots

theorem refl (s : State) : SameSlots s s := ⟨rfl, rfl⟩

theorem trans {s t u : State} (h : SameSlots s t) (k : SameSlots t u) : SameSlots s u := ⟨k.slots.trans h.slots, k.walks.trans h.walks⟩

theorem of_coh {s t : State} (h : t.coh = s.coh) : SameSlots s t := ⟨by rw [h], by rw [h]⟩

theorem foldl {α : Type} {f : State → α → State} (hf : ∀ s x, SameSlots s (f s x)) : ∀ (l : List α) (s : State), SameSlots s (l.foldl f s)
  | [], s => .refl s
  | x :: l, s => (hf s x).trans (foldl hf l (f s x))

end SameSlots

theorem setDir_sameSlots (s : State) (w : Nat) (e : DirEntry) : SameSlots s (setDir s w e) := ⟨rfl, rfl⟩

theorem touchDir_sameSlots (s : State) (w : Nat) : SameSlots s (touchDir s w).2 := ⟨touchDir_slots s w, touchDir_walks s w⟩

theorem closeSnoop_sameSlots (s : State) (x : Snoop) : SameSlots s (closeSnoop s x) := by
  obtain ⟨_, h⟩ := closeSnoop_eq s x
  exact .of_coh (by rw [h])

theorem dropRecalled_sameSlots (s : State) (slot : Nat) : SameSlots s (dropRecalled s slot) := by
  refine .foldl (fun s r => .foldl (fun s w => ?_) _ s) _ s
  split
  · exact setDir_sameSlots ..
  · exact .refl s

theorem dropSnoops_sameSlots (s : State) (slot : Nat) : SameSlots s (dropSnoops s slot) := by
  unfold dropSnoops
  refine SameSlots.trans (t := { s with coh := { s.coh with closing := s.coh.closing.filter (fun c => c.1 != slot) } }) ⟨rfl, rfl⟩ (.foldl (fun s e => ?_) _ _)
  split
  · exact .refl s
  · split
    · exact .refl s
    next t _ _ x _ =>
      have hclosed : SameSlots s (snoopClosed s e.1 e.2 x { t with snoops := t.snoops.filter (fun y => y.slot != slot) }) :=
        (closeSnoop_sameSlots s x).trans ⟨rfl, rfl⟩
      refine hclosed.trans ?_
      dsimp only
      split
      · split
        · exact setDir_sameSlots ..
        · exact .refl _
      · exact touchDir_sameSlots ..
      · exact .refl _

/-- The walk that begins with the failure of a slot (04, R112). -/
def failureWalk (s : State) (slot causeCode : Nat) (waits : List (OrderHdr × Nat)) : Walk :=
  let old := s.coh.walks.find? (fun w => w.slot == slot && !w.failure)
  { slot := slot, failure := true, cause := causeCode, source := if slot = 0 then selfId s else (slotOf s slot).host, gen := (slotOf s slot).gen,
    waits := waits ++ (old.map (·.waits)).getD [], thenFree := old.isSome }

/-- The slots and walks after a slot is declared failed: its own alone have changed (04, R110, R112). -/
theorem declareFailed_spec (s : State) (slot cause causeCode region : Nat) (waits : List (OrderHdr × Nat)) :
    (declareFailed s slot cause causeCode region waits).coh.slots = tset s.coh.slots slot { slotOf s slot with st := .failed } ∧
    (declareFailed s slot cause causeCode region waits).coh.walks = s.coh.walks.filter (fun w => w.slot != slot) ++ [failureWalk s slot causeCode waits] := by
  unfold declareFailed
  extract_lets sl old w failed _ walked
  have hkept : SameSlots walked (dropSnoops (dropRecalled (noteR walked region (unitId Kind.homeAgent 0) cause) slot) slot) :=
    (SameSlots.of_coh (noteR_coh ..)).trans ((dropRecalled_sameSlots ..).trans (dropSnoops_sameSlots ..))
  exact ⟨hkept.slots, hkept.walks⟩

theorem exec_snoopTimeout {s : State} {line slot : Nat} {x : Snoop} (hx : snoopTo s line slot = some x) (hsent : x.st ≠ .unsent)
    (hlate : x.sentAt + 500000 < s.time.clock) :
    exec (.snoopTimeout line slot) s = .next (declareFailed s slot Cause.hostSnoopTimeout 1 (homeRegion s (line * 256)) []) := by
  show execSnoopTimeout line slot s = _
  rw [execSnoopTimeout, hx]
  exact when_true (by rw [bne_iff_ne.mpr hsent, Bool.true_and]; exact decide_eq_true hlate)

end Sys2Proof.Machine

section
open Sys2Proof Sys2Proof.Machine

/-- Settles O17: an answer is opened and taken or discarded; a timeout changes the slot it fails and that slot's walk alone. -/
theorem snoopAnswersAndTimeouts : Obligations.SnoopAnswersAndTimeouts := by
  unfold Obligations.SnoopAnswersAndTimeouts
  refine ⟨?answers, ?timeout⟩
  case answers =>
    intro s p row hrow hop hruns htenant hform off go
    rw [← hop] at hform
    refine ⟨?darinlink, fun m q e hdest hvc hopen hfresh => ?genura⟩
    case darinlink =>
      have hexec : exec (row.2 .darinlink p) s = _ := (exec_snoopAnswer hrow hop ..).trans (by rw [packetAnswer_darinlink hruns htenant])
      simp only [go, hexec, Host.Outcome.next.injEq]
      exact openedAnswer_spec s _ _ hform
    case genura =>
      obtain ⟨payload, rfl, hsome⟩ := openPacket_plain hopen
      have hexec : exec (row.2 (.genura m) p) s = _ := (exec_snoopAnswer hrow hop ..).trans (by rw [packetAnswer_genura hruns htenant hdest hvc hopen hfresh])
      obtain ⟨link, hdup⟩ := duplicate_fresh hfresh
      simp only [go, hexec, Host.Outcome.next.injEq, hdup]
      exact openedAnswer_spec { s with link := link } (portRegion m) p.source (p := { p with payload := payload }) (hsome.trans hform)
  case timeout =>
    intro s line slot x hx hsent hlate
    obtain ⟨hslots, hwalks⟩ := declareFailed_spec s slot Cause.hostSnoopTimeout 1 (homeRegion s (line * 256)) []
    refine ⟨_, failureWalk s slot 1 [], exec_snoopTimeout hx hsent hlate, ?_, fun n hn => ?_, ?_, rfl, rfl, rfl⟩
    · rw [slotOf, hslots, tget_tset, if_pos rfl]
    · rw [slotOf, hslots, tget_tset, if_neg hn.symm, slotOf]
    · have hnone : (s.coh.walks.filter (fun w => w.slot != slot)).find? (fun w => w.slot == slot) = none := by simp
      rw [walkOf, hwalks, List.find?_append, hnone, Option.none_or]
      exact List.find?_cons_of_pos (beq_self_eq_true slot)

end

/-! Directories whose entries do not stand in order of their numbers. A lookup stops at the first greater number, so an entry behind one is hidden by it, and is found
once that one has become I and has left the list. The model's updates of a table keep its order, but O13 and O18 are about every state. -/

namespace Sys2Proof.Machine

/-! ### What follows a transaction (04, R93) -/

theorem activate_begins (s : State) (k line : Nat) (r : Req) : ∃ u t l, activate s k line r = beginTrans u k line t l := by
  unfold activate
  dsimp only
  repeat' split
  all_goals exact ⟨_, _, _, rfl⟩

theorem lineOf_activate_active (s : State) (k line : Nat) (r : Req) : (lineOf (activate s k line r) line).active ≠ none := by
  obtain ⟨u, t, l, h⟩ := activate_begins s k line r
  rw [h, beginTrans, lineOf_setLine_same]
  nofun

/-- A line that is idle after a transaction had nothing in its chain. -/
theorem nextInChain_of_idle {s : State} {k line : Nat} (h : (lineOf (nextInChain s k line) line).active = none) : nextInChain s k line = setLine s line {} := by
  unfold nextInChain at h ⊢
  split at h
  · rfl
  · exact (lineOf_activate_active _ _ _ _ h).elim

@[simp] theorem epochSub_coh (s : State) (tenant : Nat) (epoch : Option Nat) : (epochSub s tenant epoch).coh = s.coh := by
  unfold epochSub modTenant
  split
  · split <;> rfl
  · rfl

/-- Counts of an extent and of an epoch fall; the home agents stand. -/
@[simp] theorem settle_coh (s : State) (r : Req) : (settle s r).coh = s.coh := by
  unfold settle
  dsimp only
  rw [epochSub_coh]
  split <;> rfl

theorem answerPacket_of_answered {s : State} {k : Nat} {r : Req} {via : Via} {p : Packet} (horigin : r.origin = .packet via p) (h : r.answered = true) (a : Answer) :
    answerPacket s k r a = settle s r := by
  simp only [answerPacket, horigin, h, if_true]

/-- Where the line is idle after a request answered before, the directory is the one in which it was answered. -/
theorem dirOf_nextInChain_of_idle {v : State} {k line offset : Nat} {r : Req} {via : Via} {p : Packet} {a : Answer} {written : Bool}
    (horigin : r.origin = .packet via p) (hanswered : r.answered = true)
    (hidle : (lineOf (nextInChain (cacheValid (answerPacket v k r a) k offset written) k line) line).active = none) (j : Nat) :
    dirOf (nextInChain (cacheValid (answerPacket v k r a) k offset written) k line) j = dirOf v j := by
  have hdir : (cacheValid (answerPacket v k r a) k offset written).coh.dir = v.coh.dir := by
    rw [cacheValid_coh, answerPacket_of_answered horigin hanswered, settle_coh]
  rw [nextInChain_of_idle hidle]
  exact congrArg (fun d => tget d j {}) hdir

/-! ### The counterexamples -/

/-- A coherent extent whose directory lists line 5, which slot 1 shares, before line 3, which slot 2 shares: the lookup of line 3 finds nothing. -/
def outOfOrder : State :=
  { State.reset with
    extents := [(0, { st := .granted, coherent := true, size := 1 })]
    coh := { dir := [(5, { st := .s, sharers := [1] }), (3, { st := .s, sharers := [2] })] } }

/-- An EVICT_CLEAN of slot 1 for line 5, whose answer has been sent before. -/
def evicting : Trans :=
  { req := { origin := .packet .darinlink { opcode := 0x19 }, op := 0x19, offset := 1280, counted := false, answered := true }, slot := some 1 }

/-- The EVICT_CLEAN is the active transaction of line 5. -/
def evictOutOfOrder : State :=
  { outOfOrder with coh := { outOfOrder.coh with slots := [(1, { st := .bound })], lines := [(5, { active := some evicting })] } }

/-- The EVICT_CLEAN takes line 5 from the directory, and line 3 is found. -/
theorem evictOutOfOrder_reveals : dirOf evictOutOfOrder 3 = {} ∧
    ∃ t, exec (.transactionComplete 5) evictOutOfOrder = .next t ∧ (lineOf t 5).active = none ∧ dirOf t 3 = { st := .s, sharers := [2] } :=
  ⟨by decide, _, rfl, by decide, by decide⟩

/-- Slot 1 has failed, and its walk is about to take the unit. -/
def walkOutOfOrder : State :=
  { outOfOrder with coh := { outOfOrder.coh with slots := [(1, { st := .failed })], walks := [{ slot := 1, failure := true }] } }

/-- The walk meets the entry of line 5 alone. -/
theorem walkOutOfOrder_entries : ∀ x ∈ unitEntries walkOutOfOrder 0 1,
    dirOf walkOutOfOrder x.1 = x.2 ∧ ∃ n, windowOffset walkOutOfOrder x.1 = some (n, x.1 * 256) := by
  have hunit : unitEntries walkOutOfOrder 0 1 = [(5, { st := .s, sharers := [1] })] := by decide
  rw [hunit]
  exact List.forall_mem_singleton.mpr ⟨by decide, 0, by decide⟩

/-- The walk takes line 5, which slot 1 alone shared, from the directory, and line 3 is found. -/
theorem walkOutOfOrder_reveals : dirOf walkOutOfOrder 3 = {} ∧
    ∃ t, exec (.failureWalkStep 1) walkOutOfOrder = .next t ∧ dirOf t 3 = { st := .s, sharers := [2] } :=
  ⟨by decide, _, rfl, by decide⟩

end Sys2Proof.Machine

section
open Sys2Proof Sys2Proof.Machine

/-- Refutes O13: in a directory out of order, an EVICT_CLEAN that leaves line 5 in I changes the entry found for line 3. -/
theorem not_transactionsBeginAndComplete : ¬ Obligations.TransactionsBeginAndComplete := by
  unfold Obligations.TransactionsBeginAndComplete
  rintro ⟨-, -, -, hvc1⟩
  obtain ⟨hevict, -⟩ := hvc1 evictOutOfOrder 5 5 1 evicting .darinlink { opcode := 0x19 } rfl (by decide) rfl rfl rfl (by decide) rfl
  obtain ⟨v, ⟨hframe, hexec⟩, -, -⟩ := hevict rfl
  obtain ⟨hhidden, t, ht, hidle, hfound⟩ := evictOutOfOrder_reveals
  have hnext := Host.Outcome.next.inj (ht.symm.trans hexec)
  rw [hnext] at hidle hfound
  rw [dirOf_nextInChain_of_idle rfl rfl hidle, hframe 3 (by decide), hhidden] at hfound
  exact absurd hfound (by decide)

/-- Refutes O18: in a directory out of order, a failure walk that leaves line 5 in I changes the entry found for line 3. -/
theorem not_walksPassUnitsAndEnd : ¬ Obligations.WalksPassUnitsAndEnd := by
  unfold Obligations.WalksPassUnitsAndEnd
  intro h
  obtain ⟨-, hwalk, -⟩ := h walkOutOfOrder 1 _ rfl
  obtain ⟨t, v, hexec, -, -, -, hframe⟩ := hwalk 0 (fun w => w * 256) rfl rfl (by decide) (by decide) walkOutOfOrder_entries
  obtain ⟨hhidden, u, hu, hfound⟩ := walkOutOfOrder_reveals
  rw [Host.Outcome.next.inj (hu.symm.trans hexec), hframe 3 (by decide), hhidden] at hfound
  exact absurd hfound (by decide)

end

/-! What the operations on stacks, channels and pseudo-channels change of each other (05). -/

namespace Sys2Proof.Machine

/-! ### Parts of a stack after an update -/

section
variable (s : State) (p c pc : Nat)

@[simp] theorem chanOf_modChan_same (f : Chan → Chan) : chanOf (modChan s p c f) p c = f (chanOf s p c) := by
  simp [chanOf, modChan]
@[simp] theorem chanOf_modPchan (q d : Nat) (f : PChan → PChan) : chanOf (modPchan s p c pc f) q d = chanOf s q d := rfl
@[simp] theorem chanOf_modStack (q d : Nat) (f : Stack → Stack) : chanOf (modStack s p f) q d = chanOf s q d := rfl

theorem pchanOf_modPchan (q d i : Nat) (f : PChan → PChan) :
    pchanOf (modPchan s p c pc f) q d i = if (p * 32 + c) * 2 + pc = (q * 32 + d) * 2 + i then f (pchanOf s p c pc) else pchanOf s q d i :=
  tget_tmod ..
@[simp] theorem pchanOf_modPchan_same (f : PChan → PChan) : pchanOf (modPchan s p c pc f) p c pc = f (pchanOf s p c pc) := by
  rw [pchanOf_modPchan, if_pos rfl]
theorem pchanOf_modPchan_of_ne {i : Nat} (h : i ≠ pc) (f : PChan → PChan) : pchanOf (modPchan s p c pc f) p c i = pchanOf s p c i := by
  rw [pchanOf_modPchan, if_neg (by omega)]
@[simp] theorem pchanOf_modChan (q d i : Nat) (f : Chan → Chan) : pchanOf (modChan s p c f) q d i = pchanOf s q d i := rfl
@[simp] theorem pchanOf_modStack (q d i : Nat) (f : Stack → Stack) : pchanOf (modStack s p f) q d i = pchanOf s q d i := rfl

theorem stackOf_modStack_same (f : Stack → Stack) : stackOf (modStack s p f) p = f (stackOf s p) :=
  (stackOf_modStack ..).trans (if_pos rfl)
@[simp] theorem stackOf_modChan (q : Nat) (f : Chan → Chan) : stackOf (modChan s p c f) q = stackOf s q := rfl
@[simp] theorem stackOf_modPchan (q : Nat) (f : PChan → PChan) : stackOf (modPchan s p c pc f) q = stackOf s q := rfl

end

end Sys2Proof.Machine

/-! The issue of bursts (05, R123 to R126). -/

namespace Sys2Proof.Machine

/-! ### Direction (05, R124) -/

/-- The queue of the current direction. -/
def currentQueue (q : PChan) : List Burst := if q.writing then q.writes else q.reads

section
variable {q : PChan}

theorem turn_of_writing (h : q.writing = true) :
    turn q = if (16 ≤ q.sinceTurn ∨ q.writes.length = 0) ∧ ((q.writes.length ≤ 16 ∧ 0 < q.reads.length) ∨ q.writes.length = 0)
      then { q with writing := false, sinceTurn := 0 } else q := by
  simp only [turn, h, if_true]

theorem turn_of_reading (h : q.writing = false) :
    turn q = if (16 ≤ q.sinceTurn ∨ q.reads.length = 0) ∧ (48 ≤ q.writes.length ∨ (q.reads.length = 0 ∧ 0 < q.writes.length))
      then { q with writing := true, sinceTurn := 0 } else q := by
  simp only [turn, h, Bool.false_eq_true, if_false]

/-- A turn waits for 16 bursts, or until the queue of the current direction is empty. -/
theorem turns_after (h : (turn q).writing ≠ q.writing) : 16 ≤ q.sinceTurn ∨ currentQueue q = [] := by
  cases hw : q.writing with
  | true =>
    rw [turn_of_writing hw] at h
    split at h
    next hturn => simpa [currentQueue, hw] using hturn.1
    · exact absurd rfl h
  | false =>
    rw [turn_of_reading hw] at h
    split at h
    next hturn => simpa [currentQueue, hw] using hturn.1
    · exact absurd rfl h

theorem turn_to_writes (hw : q.writing = false) (hmany : 48 ≤ q.writes.length) (hturn : 16 ≤ q.sinceTurn) : (turn q).writing = true := by
  rw [turn_of_reading hw, if_pos ⟨.inl hturn, .inl hmany⟩]

theorem turn_to_reads (hw : q.writing = true) (hfew : q.writes.length ≤ 16) (hreads : q.reads ≠ []) (hturn : 16 ≤ q.sinceTurn) :
    (turn q).writing = false := by
  rw [turn_of_writing hw, if_pos ⟨.inl hturn, .inl ⟨hfew, List.length_pos_of_ne_nil hreads⟩⟩]

/-! ### Order of bursts (05, R125) -/

theorem foldl_min_le (l : List Burst) : ∀ m : Nat, (l.foldl (fun m b => min m b.since) m) ≤ m ∧ ∀ b ∈ l, (l.foldl (fun m b => min m b.since) m) ≤ b.since := by
  induction l with
  | nil => exact fun m => ⟨Nat.le_refl m, nofun⟩
  | cons x l ih =>
    intro m
    obtain ⟨hm, hl⟩ := ih (min m x.since)
    refine ⟨by simp only [List.foldl_cons]; omega, fun b hb => ?_⟩
    rcases List.mem_cons.mp hb with rfl | hb
    · simp only [List.foldl_cons]; omega
    · exact hl b hb

/-- The oldest of some bursts is one of them, and none has waited longer. -/
theorem oldest_spec {l : List Burst} {b : Burst} (h : oldest q l = some b) : b ∈ l ∧ ∀ x ∈ l, b.since ≤ x.since := by
  obtain ⟨_, -, hfind⟩ := Option.bind_eq_some_iff.mp h
  obtain ⟨hmem, hsince⟩ := List.mem_filter.mp (List.mem_of_find?_eq_some hfind)
  rw [beq_iff_eq.mp hsince]
  exact ⟨hmem, (foldl_min_le l _).2⟩

/-- The burst has waited 2 µs. -/
def isLate (t : Nat) (b : Burst) : Bool := decide (b.since + us 2 ≤ t)

variable {t : Nat}

theorem isLate_iff {b : Burst} : isLate t b = true ↔ b.since + 500 ≤ t := decide_eq_true_iff

theorem pickBurst_eq : pickBurst t q =
    if !((currentQueue q).filter (isLate t)).isEmpty then oldest q ((currentQueue q).filter (isLate t))
    else if !((currentQueue q).filter (rowHit q)).isEmpty then oldest q ((currentQueue q).filter (rowHit q)) else oldest q (currentQueue q) := rfl

theorem oldest_filter_spec {p : Burst → Bool} {b : Burst} (h : oldest q ((currentQueue q).filter p) = some b) :
    b ∈ currentQueue q ∧ p b = true ∧ ∀ x ∈ currentQueue q, p x = true → b.since ≤ x.since := by
  obtain ⟨hmem, hold⟩ := oldest_spec h
  obtain ⟨hmem, hp⟩ := List.mem_filter.mp hmem
  exact ⟨hmem, hp, fun x hx hpx => hold x (List.mem_filter.mpr ⟨hx, hpx⟩)⟩

theorem filter_not_isEmpty_iff {p : Burst → Bool} {l : List Burst} : (!(l.filter p).isEmpty) = true ↔ ∃ x ∈ l, p x = true := by
  simp

/-- What the order of R125 picks: the oldest late burst, else the oldest hit on an open row, else the oldest. -/
theorem pickBurst_spec {b : Burst} (h : pickBurst t q = some b) : b ∈ currentQueue q ∧
    ((∃ x ∈ currentQueue q, isLate t x = true) → isLate t b = true ∧ ∀ x ∈ currentQueue q, isLate t x = true → b.since ≤ x.since) ∧
    ((∀ x ∈ currentQueue q, ¬isLate t x = true) → (∃ x ∈ currentQueue q, rowHit q x = true) →
      rowHit q b = true ∧ ∀ x ∈ currentQueue q, rowHit q x = true → b.since ≤ x.since) ∧
    ((∀ x ∈ currentQueue q, ¬isLate t x = true) → (∀ x ∈ currentQueue q, rowHit q x = false) → ∀ x ∈ currentQueue q, b.since ≤ x.since) := by
  rw [pickBurst_eq] at h
  split at h
  next hlate =>
    obtain ⟨x, hx, hxlate⟩ := filter_not_isEmpty_iff.mp hlate
    obtain ⟨hmem, hb⟩ := oldest_filter_spec h
    exact ⟨hmem, fun _ => hb, fun hnone => absurd hxlate (hnone x hx), fun hnone => absurd hxlate (hnone x hx)⟩
  next hlate =>
    have hnone := mt filter_not_isEmpty_iff.mpr hlate
    split at h
    next hhit =>
      obtain ⟨x, hx, hxhit⟩ := filter_not_isEmpty_iff.mp hhit
      obtain ⟨hmem, hb⟩ := oldest_filter_spec h
      exact ⟨hmem, fun hsome => absurd hsome hnone, fun _ _ => hb, fun _ hno => absurd hxhit (by simp [hno x hx])⟩
    next hhit =>
      obtain ⟨hmem, hold⟩ := oldest_spec h
      exact ⟨hmem, fun hsome => absurd hsome hnone, fun _ hsome => absurd (filter_not_isEmpty_iff.mpr hsome) hhit, fun _ _ => hold⟩

end

/-! ### One cycle (05, R123, R126) -/

section
variable (s : State) (q : PChan) (b : Burst)

theorem issueBurst_closed (h : tget? q.openRows (placeBank b.place) = none) : issueBurst s q b =
    { q with bankPtr := (placeBank b.place + 1) % 64, openRows := tset q.openRows (placeBank b.place) (placeRow b.place),
             retry := q.retry ++ [(.row (placeBank b.place), s.time.clock)] } := by
  simp only [issueBurst, h]
  rfl

theorem issueBurst_hit (h : tget? q.openRows (placeBank b.place) = some (placeRow b.place)) : issueBurst s q b =
    { q with bankPtr := (placeBank b.place + 1) % 64, reads := q.reads.filter (· ≠ b), writes := q.writes.filter (· ≠ b), sinceTurn := q.sinceTurn + 1,
             retry := q.retry ++ [(.column b, s.time.clock)] } := by
  have hne : (fun x => decide (x ≠ b)) = (fun x => x != b) := funext fun _ => decide_not
  simp only [issueBurst, h, if_true, hne]
  rfl

theorem issueBurst_miss {r : Nat} (h : tget? q.openRows (placeBank b.place) = some r) (hr : r ≠ placeRow b.place) : issueBurst s q b =
    { q with bankPtr := (placeBank b.place + 1) % 64, openRows := tdel q.openRows (placeBank b.place),
             retry := q.retry ++ [(.row (placeBank b.place), s.time.clock)] } := by
  simp only [issueBurst, h, if_neg hr]
  rfl

end

/-- The pseudo-channel as its next cycle finds it, where no burst waits in the stripe layer. -/
def readyToIssue (s : State) (p c pc : Nat) : PChan := turn { pchanOf s p c pc with retry := retryLive s p (pchanOf s p c pc) }

/-- One cycle of a pseudo-channel that has room in its retry buffer and a burst to take. -/
theorem channelCycle_of_pick {s : State} {p c pc : Nat} {b : Burst} (hwait : ∀ w ∈ s.mem.stripeWait, w.1 ≠ (p * 32 + c) * 2 + pc)
    (hroom : (readyToIssue s p c pc).retry.length < 64) (hpick : pickBurst s.time.clock (readyToIssue s p c pc) = some b) :
    channelCycle s p c pc = modPchan (modChan s p c (fun x => { x with lastActivity := s.time.clock })) p c pc
      (fun _ => issueBurst s (readyToIssue s p c pc) b) := by
  have hmine : s.mem.stripeWait.filter (fun w => w.1 == (p * 32 + c) * 2 + pc) = [] := List.filter_eq_nil_iff.mpr (by simpa using hwait)
  have hothers : s.mem.stripeWait.filter (fun w => w.1 != (p * 32 + c) * 2 + pc) = s.mem.stripeWait := List.filter_eq_self.mpr (by simpa using hwait)
  have hready : turn { pchanOf s p c pc with retry := retryLive s p (pchanOf s p c pc) } = readyToIssue s p c pc := rfl
  have hnow : now s = s.time.clock := rfl
  unfold channelCycle
  simp only [hmine, List.map_nil, admitBursts, hready, hnow, if_neg (Nat.not_le.mpr hroom), hpick, modChan, hothers, List.append_nil]

end Sys2Proof.Machine

section
open Sys2Proof Sys2Proof.Machine

/-- Settles O22: a cycle by the state of the burst's bank, the direction by the lengths of the queues, and the burst by the order of R125. -/
theorem channelIssuesBursts : Obligations.ChannelIssuesBursts := by
  unfold Obligations.ChannelIssuesBursts
  refine ⟨?issue, ?order⟩
  case issue =>
    intro s p c pc b hissues hbursts key q now bank hwait hroom hpick q1
    have hexec : exec (.channelIssue p c pc) s = .next (channelCycle s p c pc) := when_true (by rw [hissues, hbursts]; rfl)
    rw [channelCycle_of_pick hwait hroom hpick] at hexec
    refine ⟨_, hexec, rfl, fun n m i hne => ?_, fun hclosed => ?_, fun hhit => ?_, fun r hopen hmiss => ?_⟩
    · rw [pchanOf_modPchan, if_neg (Ne.symm hne), pchanOf_modChan]
    · rw [pchanOf_modPchan_same]; exact issueBurst_closed s q b hclosed
    · rw [pchanOf_modPchan_same]; exact issueBurst_hit s q b hhit
    · rw [pchanOf_modPchan_same]; exact issueBurst_miss s q b hopen hmiss
  case order =>
    intro t q l late
    refine ⟨turns_after, turn_to_writes, turn_to_reads, fun b hb => ?_⟩
    have hspec := pickBurst_spec hb
    simp only [isLate_iff] at hspec
    exact hspec

end


/-! Refresh, retraining and parity replay of a channel (05, R126 to R134). -/

namespace Sys2Proof.Machine

/-! ### Nothing but channels changes -/

/-- A state with other channels and pseudo-channels. -/
def withChans (s : State) (chans : Tab Chan) (pchans : Tab PChan) : State := { s with mem := { s.mem with chans := chans, pchans := pchans } }

/-- Nothing but channels and pseudo-channels has changed. -/
def OnlyChans (s t : State) : Prop := withChans t s.mem.chans s.mem.pchans = s

theorem OnlyChans.trans {s t u : State} (h : OnlyChans s t) (k : OnlyChans t u) : OnlyChans s u :=
  calc withChans u s.mem.chans s.mem.pchans
    _ = withChans (withChans u t.mem.chans t.mem.pchans) s.mem.chans s.mem.pchans := rfl
    _ = withChans t s.mem.chans s.mem.pchans := by rw [k]
    _ = s := h

section
variable (s : State) (p c : Nat)

theorem modChan_onlyChans (f : Chan → Chan) : OnlyChans s (modChan s p c f) := rfl
theorem modPchan_onlyChans (pc : Nat) (f : PChan → PChan) : OnlyChans s (modPchan s p c pc f) := rfl
theorem issueCmds_onlyChans (pc : Nat) (l : List ChanCmd) : OnlyChans s (issueCmds s p c pc l) := rfl
theorem loadTiming_onlyChans : OnlyChans s (loadTiming s p c) := rfl

theorem refreshAll_onlyChans : OnlyChans s (refreshAll s p c) :=
  ((modPchan_onlyChans ..).trans (modPchan_onlyChans ..)).trans (modChan_onlyChans ..)

end

/-! ### Lifetime counters and NOTEs -/

section
variable (s : State) (p c pc off n region unit cause detail : Nat)

@[simp] theorem chanOf_stackLife : chanOf (stackLife s n off detail) p c = chanOf s p c := rfl
@[simp] theorem pchanOf_stackLife : pchanOf (stackLife s n off detail) p c pc = pchanOf s p c pc := rfl
@[simp] theorem stackOf_stackLife : stackOf (stackLife s n off detail) p = stackOf s p := rfl

@[simp] theorem chanOf_noteR : chanOf (noteR s region unit cause detail) p c = chanOf s p c := by rw [chanOf, noteR_mem, chanOf]
@[simp] theorem pchanOf_noteR : pchanOf (noteR s region unit cause detail) p c pc = pchanOf s p c pc := by rw [pchanOf, noteR_mem, pchanOf]
@[simp] theorem stackOf_noteR : stackOf (noteR s region unit cause detail) p = stackOf s p := by rw [stackOf, noteR_mem, stackOf]

end

/-! ### Commands and the retry buffer (05, R133) -/

section
variable (s : State) (p c pc : Nat) (l : List ChanCmd)

@[simp] theorem chanOf_issueCmds (q d : Nat) : chanOf (issueCmds s p c pc l) q d = chanOf s q d := rfl

theorem pchanOf_issueCmds_same : pchanOf (issueCmds s p c pc l) p c pc =
    { pchanOf s p c pc with retry := retryLive s p (pchanOf s p c pc) ++ l.map (fun y => (y, s.time.clock)) } :=
  pchanOf_modPchan_same ..

theorem pchanOf_issueCmds_of_ne {i : Nat} (h : i ≠ pc) : pchanOf (issueCmds s p c pc l) p c i = pchanOf s p c i :=
  pchanOf_modPchan_of_ne _ _ _ _ h _

end

section
variable {s : State} {p c pc : Nat}

/-! ### Refresh (05, R115, R126 to R129, R133) -/

theorem exec_refreshDue {bank : Nat} (hruns : chanRuns s p c = true) (hreplays : replays s p c = false)
    (hpause : (chanOf s p c).pausing = true → (chanOf s p c).pauseNext % 2 ≠ pc) (hroom : (retryLive s p (pchanOf s p c pc)).length < 64)
    (hfalls : refreshAt s p c pc bank ≤ s.time.clock ∨ Config.refreshManaged (((p * 32 + c) * 2 + pc) * 64 + bank) s.time.clock = true) :
    exec (.refreshDue p c pc bank) s = .next (refreshBank s p c pc bank) := by
  have hfree : ((chanOf s p c).pausing && pausePc (chanOf s p c) == pc) = false := by simpa [pausePc] using hpause
  have hfits : retryRoom s p c pc 1 = true := decide_eq_true hroom
  have hdue : refreshFalls s p c pc bank = true := (Bool.or_eq_true ..).mpr (hfalls.imp_left decide_eq_true)
  refine when_true ?_
  rw [hruns, hreplays, hfree, hfits, hdue]
  rfl

/-! ### Retraining (05, R131, R132) -/

theorem retrainDue_iff : retrainDue s p c = true ↔
    (chanOf s p c).rerun = true ∨ (chanOf s p c).pauseNext ≠ 0 ∨ (chanOf s p c).retrainForced = true ∨ (chanOf s p c).lastRetrain + 12500000 ≤ s.time.clock := by
  simp [retrainDue, passed_iff, ms, or_assoc]

theorem exec_retrainDue (hfits : pauseFits s p c = true) (hrerun : (chanOf s p c).rerun = false)
    (hdue : (chanOf s p c).pauseNext ≠ 0 ∨ (chanOf s p c).retrainForced = true ∨ (chanOf s p c).lastRetrain + 12500000 ≤ s.time.clock) :
    exec (.retrainDue p c) s = .next (startPause s p c) :=
  when_true (by rw [retrainDue_iff.mpr (.inr hdue), hrerun, hfits]; rfl)

theorem exec_retrainRerunDue (hfits : pauseFits s p c = true) (hrerun : (chanOf s p c).rerun = true) :
    exec (.retrainRerunDue p c) s = .next (startPause s p c) :=
  when_true (by rw [hrerun, hfits]; rfl)

theorem exec_pauseDone_good (hpausing : (chanOf s p c).pausing = true) : exec (.retrainPauseDone p c true) s = .next (pauseGood s p c) :=
  when_true hpausing

/-- A pause outside its margin for the first time is to run again. -/
theorem exec_pauseDone_again (hpausing : (chanOf s p c).pausing = true) (hrerun : (chanOf s p c).rerun = false) :
    exec (.retrainPauseDone p c false) s = .next (modChan s p c (fun x => { x with pausing := false, rerun := true })) := by
  refine (when_true hpausing).trans ?_
  rw [hrerun]
  rfl

/-- Outside its margin for the second time, it fences the channel. -/
theorem exec_pauseDone_fails (hpausing : (chanOf s p c).pausing = true) (hrerun : (chanOf s p c).rerun = true) :
    exec (.retrainPauseDone p c false) s =
      .next (raiseR (modChan s p c (fun x => { x with pausing := false, rerun := true })) (p / 5) (unitId 0x01 (p % 5 * 32 + c)) Cause.retrainFail) := by
  refine (when_true hpausing).trans ?_
  rw [hrerun]
  rfl

/-- A channel whose pause has set the centre of its number. -/
def setCentre (x : Chan) (centre : Nat) : Chan :=
  { x with pausing := false, rerun := false, centres := x.centres.set x.pauseNext centre, shadow := tset x.shadow x.timing (x.centres.set x.pauseNext centre),
           pauseNext := (x.pauseNext + 1) % 4 }

/-- A pause before the last sets its centre, and the next one follows. -/
theorem pauseGood_next (h : (chanOf s p c).pauseNext < 3) :
    ∃ centre, pauseGood s p c = modChan (useFree s) p c (fun x => setCentre x centre) :=
  ⟨_, if_neg (by omega)⟩

/-- The fourth centre ends the retraining. -/
theorem pauseGood_last (h : (chanOf s p c).pauseNext = 3) : ∃ centre forced alerts,
    chanOf (pauseGood s p c) p c =
      { setCentre (chanOf s p c) centre with lastRetrain := s.time.clock, retrainForced := false, forcedDone := forced, alertsSince := alerts } ∧
    stackOf (pauseGood s p c) p = { stackOf s p with retrains := satInc 32 (stackOf s p).retrains } := by
  have hlast : pauseGood s p c = _ := if_pos h
  rw [hlast, chanOf_stackLife, chanOf_modStack, chanOf_modChan_same, chanOf_modChan_same]
  exact ⟨_, _, _, rfl, stackOf_modStack_same ..⟩

/-! ### Training of a channel (05, R132, R139) -/

/-- A channel whose timing set and centres are those of a rate, its banks due at a time. -/
def loaded (x : Chan) (rate due : Nat) : Chan := { x with timing := rate, centres := tget x.shadow rate x.centres, refreshBy := due }

theorem chanOf_loadTiming_refreshAll (s : State) (p c : Nat) : chanOf (refreshAll (loadTiming s p c) p c) p c =
    loaded (chanOf s p c) (stackOf s p).rate (s.time.clock + refreshEvery (stackOf s p)) := by
  rw [refreshAll, chanOf_modChan_same, chanOf_modPchan, chanOf_modPchan, loadTiming, chanOf_modChan_same]
  rfl

/-- A trained channel has the timing set of its stack's rate, with the centres found, and every bank fresh (05, R115, R118, R132, R139). -/
theorem chanOf_trainChan (s : State) (p c : Nat) : ∃ sets lanes, chanOf (trainChan s p c) p c =
    loaded { chanOf s p c with shadow := sets, laneRepair := lanes, modes := {}, lastRetrain := s.time.clock, lastActivity := s.time.clock }
      (stackOf s p).rate (s.time.clock + refreshEvery (stackOf s p)) := by
  have hpatterns : ∀ t, chanOf (writePatterns t p c) p c = chanOf t p c := fun _ => rfl
  have hfree : ∀ t n, chanOf (useFreeN t n) p c = chanOf t p c := fun _ _ => rfl
  rw [trainChan, hpatterns, chanOf_loadTiming_refreshAll, hfree, chanOf_modChan_same]
  exact ⟨_, _, rfl⟩

/-- What a training may change, as it stands in an earlier state. -/
def untrained (s t : State) : State := { t with time := s.time, mem := { t.mem with chans := s.mem.chans, pchans := s.mem.pchans, patterns := s.mem.patterns } }

/-- A training changes the channel, its pseudo-channels and its patterns, and uses free values. -/
theorem untrained_trainChan (s : State) (p c : Nat) : untrained s (trainChan s p c) = s := by
  obtain ⟨u, htrain, hu⟩ : ∃ u, trainChan s p c = writePatterns (refreshAll (loadTiming u p c) p c) p c ∧ untrained s u = s := ⟨_, rfl, rfl⟩
  have hloaded : OnlyChans u (refreshAll (loadTiming u p c) p c) := (loadTiming_onlyChans ..).trans (refreshAll_onlyChans ..)
  calc untrained s (trainChan s p c)
    _ = untrained s (withChans (refreshAll (loadTiming u p c) p c) u.mem.chans u.mem.pchans) := by rw [htrain]; rfl
    _ = untrained s u := by rw [hloaded]
    _ = s := hu

theorem untrained_trainChan_modChan (s : State) (p c : Nat) (f : Chan → Chan) : untrained s (trainChan (modChan s p c f) p c) = s :=
  calc untrained s (trainChan (modChan s p c f) p c)
    _ = untrained s (untrained (modChan s p c f) (trainChan (modChan s p c f) p c)) := rfl
    _ = untrained s (modChan s p c f) := by rw [untrained_trainChan]
    _ = s := rfl

theorem exec_fullTrain_failed (htraining : (chanOf s p c).fullTraining = true) :
    exec (.channelFullTrainDone p c false) s = .next (modChan s p c (fun x => { x with fullTraining := false })) :=
  when_true htraining

/-- A channel that has rejoined before is trained, and no more (06, R164). -/
theorem exec_fullTrain_trained (htraining : (chanOf s p c).fullTraining = true) (hrejoined : (chanOf s p c).rejoined = true) :
    exec (.channelFullTrainDone p c true) s = .next (trainChan (modChan s p c (fun x => { x with fullTraining := false })) p c) := by
  refine (when_true htraining).trans ?_
  rw [hrejoined, Bool.not_true, Bool.and_false]
  rfl

/-- One that has not rejoins, where its stack stays (05, R132; 06, R164). -/
theorem exec_fullTrain_rejoins (htraining : (chanOf s p c).fullTraining = true) (hmapped : (stackOf s p).mapped = true)
    (hspare : spareUsable s (p / 5) = false) (hevac : tget? s.mem.evacs (p / 5) = none) (hrejoined : (chanOf s p c).rejoined = false) :
    exec (.channelFullTrainDone p c true) s = .next (beginRejoin (trainChan (modChan s p c (fun x => { x with fullTraining := false })) p c) p c) := by
  refine (when_true htraining).trans ?_
  rw [hmapped, hspare, hevac, hrejoined]
  rfl

/-! ### Parity alerts (05, R133, R134) -/

theorem exec_parityAlert (hruns : chanRuns s p c = true) (hreplaying : (pchanOf s p c pc).replaying = false) :
    ∃ since, exec (.parityAlert p c pc) s = .next (modPchan (modChan s p c (fun x => { x with
      pausing := false, alerts := x.alerts.filter (fun a => now s ≤ a + 2500) ++ [now s], alertsSince := x.alertsSince + since, lastActivity := now s,
      replays := x.replays ++ [pc] })) p c pc (fun q => { q with replaying := true, retry := retryLive s p q })) :=
  ⟨_, when_true (by rw [hruns, hreplaying]; rfl)⟩

/-- The suspect commands are issued again, the window passes on, and the replay is counted and noted (05, Table 5.8). -/
def replayEnds (s : State) (p c pc : Nat) : State :=
  noteR (stackLife (modStack (modChan (modPchan s p c pc (reissue s p)) p c (fun x => { x with replays := x.replays.drop 1 })) p
    (fun x => { x with parityReplays := satInc 32 x.parityReplays })) p 0x028 1) (p / 5) (chanUnit p c) Cause.parityReplay

theorem exec_parityReplayDone (hreplaying : (pchanOf s p c pc).replaying = true) (hwindow : ∃ rest, (chanOf s p c).replays = pc :: rest)
    (hsince : (chanOf s p c).alertsSince < 3) : exec (.parityReplayDone p c pc) s =
      .next (if 3 ≤ (chanOf s p c).alerts.length then modChan (replayEnds s p c pc) p c (fun x => { x with retrainForced := true }) else replayEnds s p c pc) := by
  obtain ⟨rest, hrest⟩ := hwindow
  refine (when_true ?_).trans ?_
  · rw [hreplaying, hrest]
    simp
  · rw [if_neg (Nat.not_le.mpr hsince)]
    rfl

/-- A replay that waits for the window does not end. -/
theorem exec_parityReplayDone_waits (hwindow : ∀ rest, (chanOf s p c).replays ≠ pc :: rest) : exec (.parityReplayDone p c pc) s = .next s := by
  refine when_false ?_
  cases h : (chanOf s p c).replays with
  | nil => simp
  | cons i rest =>
    have hi : i ≠ pc := fun heq => hwindow rest (heq ▸ h)
    simp [hi]

/-- What the end of a replay leaves of its pseudo-channel, channel and stack. -/
theorem replayEnds_spec (s : State) (p c pc : Nat) : pchanOf (replayEnds s p c pc) p c pc = reissue s p (pchanOf s p c pc) ∧
    chanOf (replayEnds s p c pc) p c = { chanOf s p c with replays := (chanOf s p c).replays.drop 1 } ∧
    stackOf (replayEnds s p c pc) p = { stackOf s p with parityReplays := satInc 32 (stackOf s p).parityReplays } := by
  refine ⟨?_, ?_, ?_⟩
  · rw [replayEnds, pchanOf_noteR, pchanOf_stackLife, pchanOf_modStack, pchanOf_modChan, pchanOf_modPchan_same]
  · rw [replayEnds, chanOf_noteR, chanOf_stackLife, chanOf_modStack, chanOf_modChan_same, chanOf_modPchan]
  · rw [replayEnds, stackOf_noteR, stackOf_stackLife, stackOf_modStack_same, stackOf_modChan, stackOf_modPchan]

end

end Sys2Proof.Machine

section
open Sys2Proof Sys2Proof.Machine

/-- Settles O23: each event of a channel's upkeep by the lemma on what it does. -/
theorem channelUpkeep : Obligations.ChannelUpkeep := by
  unfold Obligations.ChannelUpkeep
  intro s p c pc bank x q now busy training pattern paused interval trained
  refine ⟨?refresh, ?issued, ?pause, ?pauseDone, ?fullTrain, ?alert, ?replay, ?forced, ?waits⟩
  case refresh => exact exec_refreshDue
  case issued => exact fun i l hi => ⟨pchanOf_issueCmds_same .., pchanOf_issueCmds_of_ne _ _ _ _ _ hi⟩
  case pause => exact fun hfits => ⟨exec_retrainDue hfits, exec_retrainRerunDue hfits⟩
  case pauseDone =>
    intro hpausing
    refine ⟨fun hnext => ?_, fun hlast => ?_, exec_pauseDone_again hpausing, exec_pauseDone_fails hpausing⟩
    · obtain ⟨centre, hgood⟩ := pauseGood_next hnext
      refine ⟨_, centre, (exec_pauseDone_good hpausing).trans (congrArg _ hgood), rfl, ?_⟩
      have hmod : (x.pauseNext + 1) % 4 = x.pauseNext + 1 := by omega
      rw [chanOf_modChan_same, ← hmod]
      rfl
    · obtain ⟨centre, forced, alerts, hchan, hstack⟩ := pauseGood_last hlast
      refine ⟨_, centre, exec_pauseDone_good hpausing, ?_⟩
      rw [hchan]
      have hwraps : (x.pauseNext + 1) % 4 = 0 := by omega
      exact ⟨rfl, hwraps, rfl, congrArg (x.centres.set · centre) hlast, rfl, hstack⟩
  case fullTrain =>
    intro htraining
    obtain ⟨sets, lanes, hchan⟩ := chanOf_trainChan (modChan s p c (fun x => { x with fullTraining := false })) p c
    rw [chanOf_modChan_same] at hchan
    refine ⟨exec_fullTrain_failed htraining, fun hmapped hspare hevac hrejoined => ?_, fun hrejoined => ?_⟩
    · refine ⟨_, exec_fullTrain_rejoins htraining hmapped hspare hevac hrejoined, ?_⟩
      have hframe := untrained_trainChan_modChan s p c (fun x => { x with fullTraining := false })
      rw [beginRejoin, chanOf_modChan_same, hchan]
      exact ⟨⟨sets, lanes, rfl⟩, rfl, rfl, hframe⟩
    · refine ⟨_, exec_fullTrain_trained htraining hrejoined, ?_⟩
      rw [hchan]
      exact ⟨⟨sets, lanes, rfl⟩, rfl, rfl⟩
  case alert =>
    intro hruns hreplaying
    obtain ⟨since, hexec⟩ := exec_parityAlert hruns hreplaying
    refine ⟨_, hexec, ?_⟩
    rw [pchanOf_modPchan_same, pchanOf_modChan, chanOf_modPchan, chanOf_modChan_same]
    exact ⟨rfl, rfl, rfl, rfl, rfl⟩
  case replay =>
    intro hreplaying hwindow hsince hfew
    have hexec := exec_parityReplayDone hreplaying hwindow hsince
    rw [if_neg (Nat.not_le.mpr hfew)] at hexec
    obtain ⟨hpchan, hchan, hstack⟩ := replayEnds_spec s p c pc
    exact ⟨_, hexec, hpchan, by rw [hpchan]; rfl, by rw [hchan], by rw [hpchan]; rfl, hstack⟩
  case forced =>
    intro hreplaying hwindow hsince hmany
    have hexec := exec_parityReplayDone hreplaying hwindow hsince
    rw [if_pos hmany] at hexec
    exact ⟨_, hexec, by rw [chanOf_modChan_same]⟩
  case waits => exact fun _ => exec_parityReplayDone_waits

end


/-! What answers leave unchanged: stored data, faults, power and READY (03; 11, R285). -/

namespace Sys2Proof.Machine

/-- Stored data and stacks, faults, power and READY stand; packets, threads and counts of items may have changed. -/
structure SameStores (s t : State) : Prop where
  mem : t.mem = s.mem
  fault : t.fault = s.fault
  power : t.power = s.power
  ready : t.hub.ready = s.hub.ready

namespace SameStores

theorem refl (s : State) : SameStores s s := ⟨rfl, rfl, rfl, rfl⟩

theorem trans {s t u : State} (h : SameStores s t) (k : SameStores t u) : SameStores s u :=
  ⟨k.mem.trans h.mem, k.fault.trans h.fault, k.power.trans h.power, k.ready.trans h.ready⟩

theorem ite {s t u : State} {c : Prop} [Decidable c] (ht : SameStores s t) (hu : SameStores s u) : SameStores s (if c then t else u) := by
  split <;> assumption

theorem foldl {α : Type} {f : State → α → State} (hf : ∀ s x, SameStores s (f s x)) : ∀ (l : List α) (s : State), SameStores s (l.foldl f s)
  | [], s => .refl s
  | x :: l, s => (hf s x).trans (foldl hf l (f s x))

end SameStores

/-! ### Packets that leave (03, R77; 10, R256; 11, R303) -/

theorem dlBefore_sameStores (s : State) (n : Nat) : SameStores s (dlBefore s n) := by
  unfold dlBefore
  exact .ite ⟨rfl, rfl, rfl, rfl⟩ ⟨rfl, rfl, rfl, rfl⟩

theorem dlPump_sameStores : ∀ (l kept : List Packet) (s : State), SameStores s (dlPump s l kept)
  | [], _, _ => ⟨rfl, rfl, rfl, rfl⟩
  | m :: rest, kept, s => by
    unfold dlPump
    extract_lets d c raw sent
    split
    · have hsent : SameStores (dlBefore s 1) (emit sent (.message m raw)) := ⟨rfl, rfl, rfl, rfl⟩
      exact ((dlBefore_sameStores s 1).trans hsent).trans (dlPump_sameStores rest kept _)
    · exact dlPump_sameStores rest _ s

theorem sendDl_sameStores (s : State) (m : Packet) : SameStores s (sendDl s m) := by
  unfold sendDl flushDl
  extract_lets d
  refine .ite ⟨rfl, rfl, rfl, rfl⟩ (SameStores.trans ?_ (dlPump_sameStores ..))
  exact ⟨rfl, rfl, rfl, rfl⟩

theorem pump_sameStores (n : Nat) : ∀ (l kept : List Packet) (s : State), SameStores s (pump s n l kept)
  | [], _, _ => ⟨rfl, rfl, rfl, rfl⟩
  | pk :: rest, kept, s => by
    unfold pump
    extract_lets p sent
    split
    · have hsent : SameStores s (emit sent (.flit n p.nextSeq false [pk] (seqFlit sent n p.nextSeq [pk]))) := ⟨rfl, rfl, rfl, rfl⟩
      exact hsent.trans (pump_sameStores n rest kept _)
    · exact pump_sameStores n rest _ s

theorem sendOn_sameStores (s : State) (n : Nat) (pk : Packet) : SameStores s (sendOn s n pk) :=
  SameStores.trans (t := modPort s n _) ⟨rfl, rfl, rfl, rfl⟩ (pump_sameStores ..)

theorem replyPort_sameStores (s : State) (n : Nat) : SameStores s (replyPort s n).2 := by
  unfold replyPort
  dsimp only
  repeat' split
  all_goals exact ⟨rfl, rfl, rfl, rfl⟩

/-- A packet leaves on a port chosen for it, with the next counter of its unit. -/
theorem reply_sameStores (s : State) (unit n : Nat) (pk : Packet) :
    SameStores s (sendOn (replyPort (nextCounter s unit).2 n).2 (replyPort (nextCounter s unit).2 n).1 pk) := by
  have hcounter : SameStores s (nextCounter s unit).2 := ⟨rfl, rfl, rfl, rfl⟩
  exact (hcounter.trans (replyPort_sameStores ..)).trans (sendOn_sameStores ..)

theorem respond_sameStores (s : State) (k : Nat) (via : Via) (p : Packet) (a : Answer) : SameStores s (respond s k via p a) := by
  unfold respond
  extract_lets data
  split
  · exact sendDl_sameStores ..
  · exact reply_sameStores ..

/-! ### Replies to orders (11, R281, R285) -/

theorem replyParts_sameStores (h : OrderHdr) (code status : Nat) (res : List Byte) (parts : Nat) :
    ∀ (l : List Nat) (s : State), SameStores s (replyParts s h code status res parts l)
  | [], s => .refl s
  | i :: rest, s => by
    unfold replyParts
    refine SameStores.trans ?_ (replyParts_sameStores h code status res parts rest _)
    split
    · exact sendDl_sameStores ..
    · exact reply_sameStores ..

theorem settleOrder_sameStores (s : State) (h : OrderHdr) : SameStores s (settleOrder s h) := by
  unfold settleOrder
  split <;> exact ⟨rfl, rfl, rfl, rfl⟩

theorem finish_sameStores (s : State) (h : OrderHdr) (code status : Nat) (res : List Byte) : SameStores s (finish s h code status res) :=
  (settleOrder_sameStores s h).trans (replyParts_sameStores ..)

theorem answerLimit_sameStores (s : State) (h : OrderHdr) : SameStores s (answerLimit s h) :=
  .ite (finish_sameStores ..) (.refl s)

theorem answerLimits_sameStores (l : List OrderHdr) (s : State) : SameStores s (l.foldl answerLimit s) :=
  .foldl answerLimit_sameStores l s

theorem answerWaits_sameStores (s : State) : SameStores s (answerWaits s) := by
  refine .foldl (fun s m => ?_) _ s
  split
  · exact SameStores.trans (t := modMaster s m _) ⟨rfl, rfl, rfl, rfl⟩ (finish_sameStores ..)
  · exact .refl s

/-! ### Answers of requests (03; 07, R178, R187) -/

theorem modSpray_sameStores (s : State) (n : Nat) (f : Spray → Spray) : SameStores s (modSpray s n f) := by
  unfold modSpray
  split <;> exact ⟨rfl, rfl, rfl, rfl⟩

theorem settle_sameStores (s : State) (r : Req) : SameStores s (settle s r) := by
  unfold settle
  extract_lets counted
  have hcounted : SameStores s counted := .ite ⟨rfl, rfl, rfl, rfl⟩ (.refl s)
  refine hcounted.trans ?_
  unfold epochSub modTenant
  split
  · split <;> exact ⟨rfl, rfl, rfl, rfl⟩
  · exact .refl _

theorem dropFaulted_sameStores (s : State) (e h : Nat) : SameStores s (dropFaulted s e h) := by
  unfold dropFaulted
  refine .foldl (fun s t => ?_) _ s
  exact ⟨rfl, rfl, rfl, rfl⟩

theorem failThread_sameStores (s : State) (e h : Nat) (f : Failure) : SameStores s (failThread s e h f) := by
  unfold failThread
  split
  · exact .refl s
  · split
    · exact .refl s
    · exact SameStores.trans (t := setThread s e h _) ⟨rfl, rfl, rfl, rfl⟩ (dropFaulted_sameStores ..)

theorem stopThread_sameStores (s : State) (e h : Nat) (f : Failure) : SameStores s (stopThread s e h f) := by
  unfold stopThread
  split
  · exact .ite (failThread_sameStores ..) (.refl s)
  · exact .refl s

theorem modThread_sameStores (s : State) (e h : Nat) (f : Thread → Thread) : SameStores s (modThread s e h f) := by
  unfold modThread
  split <;> exact ⟨rfl, rfl, rfl, rfl⟩

theorem tileDone_sameStores (s : State) (i : Nat) (t : Tile) : SameStores s (tileDone s i t) := by
  have hset : SameStores s (setTile s i t) := ⟨rfl, rfl, rfl, rfl⟩
  have hdel : SameStores s (delTile s i) := ⟨rfl, rfl, rfl, rfl⟩
  have hthread : ∀ f, SameStores s (modThread (delTile s i) t.engine t.thread f) := fun f => hdel.trans (modThread_sameStores ..)
  unfold tileDone
  refine .ite hset (.ite hdel ?_)
  split
  · exact .ite (hthread _) hset
  · exact .ite (hthread _) hset
  · exact .ite hdel (hthread _)

theorem deliver_sameStores (s : State) (id : Nat) (a : Answer) : SameStores s (deliver s id a) := by
  unfold deliver
  split
  · exact .refl s
  · extract_lets gone
    have hgone : SameStores s gone := ⟨rfl, rfl, rfl, rfl⟩
    refine hgone.trans ?_
    split
    · exact .refl gone
    · exact .ite ((tileDone_sameStores ..).trans (failThread_sameStores ..)) (tileDone_sameStores ..)

theorem answerPacket_sameStores (s : State) (k : Nat) (r : Req) (a : Answer) : SameStores s (answerPacket s k r a) := by
  unfold answerPacket
  split
  · exact SameStores.trans (.ite (.refl s) (respond_sameStores ..)) (settle_sameStores ..)
  · exact settle_sameStores ..

theorem answerDone_sameStores (s : State) (k : Nat) (d : Done) : SameStores s (answerDone s k d) := by
  unfold answerDone
  split
  · exact answerPacket_sameStores ..
  · exact (settle_sameStores ..).trans (deliver_sameStores ..)
  · exact (settle_sameStores ..).trans (deliver_sameStores ..)
  · exact (settle_sameStores ..).trans (modSpray_sameStores ..)
  · exact .refl s
  · exact .refl s

theorem answerHeld_sameStores (s : State) (k st : Nat) : SameStores s (answerHeld s k st) :=
  SameStores.trans (t := modRegion s k _) ⟨rfl, rfl, rfl, rfl⟩ (.foldl (fun s _ => answerDone_sameStores s k _) _ _)

end Sys2Proof.Machine

/-! What work on stored data leaves unchanged of the stacks: all but its counts of errors (05, Table 5.12; 06, R143 to R160). -/

namespace Sys2Proof.Machine

/-- A stack without what errors of its stored data change: their counts, stamps and triggers (06, R147, R148, R157, R159). -/
def Stack.uncounted (x : Stack) : Stack := { x with ceWords := 0, ueRebuilt := 0, poisoned := 0, ueStamps := [], repairTrigger := false }

/-- Errors of stored data may have been counted; else the stacks stand, and so do power and READY. -/
structure StacksStand (s t : State) : Prop where
  stack : ∀ p, (stackOf t p).uncounted = (stackOf s p).uncounted
  power : t.power = s.power
  ready : t.hub.ready = s.hub.ready

namespace StacksStand

theorem refl (s : State) : StacksStand s s := ⟨fun _ => rfl, rfl, rfl⟩

theorem trans {s t u : State} (h : StacksStand s t) (k : StacksStand t u) : StacksStand s u :=
  ⟨fun p => (k.stack p).trans (h.stack p), k.power.trans h.power, k.ready.trans h.ready⟩

theorem ite {s t u : State} {c : Prop} [Decidable c] (ht : StacksStand s t) (hu : StacksStand s u) : StacksStand s (if c then t else u) := by
  split <;> assumption

theorem ite_snd {β : Type} {s : State} {a b : β × State} {c : Prop} [Decidable c] (ha : StacksStand s a.2) (hb : StacksStand s b.2) :
    StacksStand s (if c then a else b).2 := by
  split <;> assumption

theorem foldl {α : Type} {f : State → α → State} (hf : ∀ s x, StacksStand s (f s x)) : ∀ (l : List α) (s : State), StacksStand s (l.foldl f s)
  | [], s => .refl s
  | x :: l, s => (hf s x).trans (foldl hf l (f s x))

/-- Steps that hand on a value beside the state. -/
theorem foldl_snd {α β : Type} {f : β × State → α → β × State} (hf : ∀ a x, StacksStand a.2 (f a x).2) :
    ∀ (l : List α) (a : β × State), StacksStand a.2 (l.foldl f a).2
  | [], a => .refl a.2
  | x :: l, a => (hf a x).trans (foldl_snd hf l (f a x))

/-- An update of parts that hold neither stacks nor power nor READY. -/
theorem of_eq {s t : State} (hstacks : t.mem.stackTab = s.mem.stackTab) (hpower : t.power = s.power) (hready : t.hub.ready = s.hub.ready) : StacksStand s t :=
  ⟨fun p => by rw [stackOf, stackOf, hstacks], hpower, hready⟩

theorem of_sameStores {s t : State} (h : SameStores s t) : StacksStand s t := .of_eq (by rw [h.mem]) h.power h.ready

theorem of_onlyChans {s t : State} (h : OnlyChans s t) : StacksStand s t :=
  .of_eq (congrArg (fun u => u.mem.stackTab) h) (congrArg (fun u => u.power) h) (congrArg (fun u => u.hub.ready) h)

/-- A stack is changed in its counts alone. -/
theorem of_modStack (s : State) (p : Nat) {f : Stack → Stack} (hf : ∀ x, (f x).uncounted = x.uncounted) : StacksStand s (modStack s p f) := by
  refine ⟨fun q => ?_, rfl, rfl⟩
  rw [stackOf_modStack]
  split
  next h => rw [hf, h]
  · rfl

end StacksStand

section
variable (s : State)

/-! ### Records and NOTEs (12, R311; 14, R355) -/

theorem note_stacksStand (hub : Bool) (region unit cause detail : Nat) : StacksStand s (note s hub region unit cause detail) := by
  obtain ⟨_, _, h⟩ := note_eq s hub region unit cause detail
  rw [h]
  exact .of_eq rfl rfl rfl

theorem askWidth_stacksStand (w : Nat) : StacksStand s (askWidth s w) := by
  have hasked : ∀ f, SameStores s (modDl s f) := fun _ => ⟨rfl, rfl, rfl, rfl⟩
  have hsent : ∀ t r, SameStores t (emit t r) := fun _ _ => ⟨rfl, rfl, rfl, rfl⟩
  exact .of_sameStores (.ite ((hasked _).trans ((dlBefore_sameStores ..).trans (hsent ..))) (.refl s))

theorem sliceEntry_stacksStand (k : Nat) (e : SliceEntry) : StacksStand s (sliceEntry s k e) := by
  unfold sliceEntry
  exact .ite (.of_eq rfl rfl rfl) (.of_eq rfl rfl rfl)

theorem wakeChan_onlyChans (p c : Nat) : OnlyChans s (wakeChan s p c) :=
  (((issueCmds_onlyChans ..).trans (issueCmds_onlyChans ..)).trans (refreshAll_onlyChans ..)).trans (modChan_onlyChans ..)

/-- The end of a slice touches the unit, its channel and the lifetime record (14, R345, R349). -/
theorem sliceOver_stacksStand (k outcome : Nat) : StacksStand s (sliceOver s k outcome) := by
  unfold sliceOver
  extract_lets b
  split
  · exact .refl s
  next u seg since _ _ =>
    extract_lets closed counted freed awake asked
    have hclosed : StacksStand s closed := .of_eq rfl rfl rfl
    clear_value closed
    have hcounted : StacksStand closed counted := .ite (.of_eq rfl rfl rfl) (.ite (.of_eq rfl rfl rfl) (.refl _))
    clear_value counted
    have hfreed : StacksStand counted freed := .ite (.of_eq rfl rfl rfl) (.refl _)
    clear_value freed
    have hawake : StacksStand freed awake := by
      unfold awake
      split
      · exact .of_onlyChans ((loadTiming_onlyChans ..).trans (wakeChan_onlyChans ..))
      · exact .refl _
    clear_value awake
    have hasked : StacksStand awake asked := .ite (askWidth_stacksStand _ 0) (.refl _)
    exact ((((hclosed.trans hcounted).trans hfreed).trans hawake).trans hasked).trans (.ite (.of_eq rfl rfl rfl) (sliceEntry_stacksStand ..))

/-! ### Errors of stored data (06, R148, R157 to R160) -/

theorem stackLife_stacksStand (p off n : Nat) : StacksStand s (stackLife s p off n) := .of_eq rfl rfl rfl

theorem rowTrigger_stacksStand (p c place : Nat) : StacksStand s (rowTrigger s p c place) := by
  unfold rowTrigger
  extract_lets r triggered
  have htriggered : StacksStand s triggered := .ite (.of_modStack s p fun _ => rfl) (.refl s)
  exact htriggered.trans (.ite (.refl _) (.of_eq rfl rfl rfl))

theorem blot_stacksStand (p c place word bit source : Nat) : StacksStand s (blot s p c place word bit source) := by
  unfold blot
  extract_lets k pos counted b same fresh put least old oldest i replaced entered entries
  have hcounted : StacksStand s counted := (StacksStand.of_modStack s p (f := fun x => { x with ceWords := satInc 32 x.ceWords }) fun _ => rfl).trans (stackLife_stacksStand ..)
  have hput : ∀ b, StacksStand counted (put counted b) := fun _ => .of_eq rfl rfl rfl
  have hentered : StacksStand counted entered := .ite (hput _) (.ite (hput _) (.ite (hput _) ((hput _).trans (note_stacksStand ..))))
  exact (hcounted.trans hentered).trans (.ite (rowTrigger_stacksStand ..) (.refl _))

theorem blotAll_stacksStand (p stripe pos source : Nat) (fixed : List (Nat × Nat)) : StacksStand s (blotAll s p stripe pos source fixed) :=
  .foldl (fun s _ => blot_stacksStand s ..) fixed s

theorem logPoison_stacksStand (e : PoisonEntry) : StacksStand s (logPoison s e) := by
  unfold logPoison
  refine .ite (.of_eq rfl rfl rfl) (.ite (.of_eq rfl rfl rfl) (StacksStand.trans ?_ (note_stacksStand ..)))
  exact .of_eq rfl rfl rfl

theorem loseChunk_stacksStand (l p stripe pos cause : Nat) : StacksStand s (loseChunk s l p stripe pos cause) := by
  unfold loseChunk
  extract_lets own e logged counted
  have hlogged : StacksStand s logged := logPoison_stacksStand ..
  have hcounted : StacksStand logged counted := (StacksStand.of_modStack logged p (f := fun x => { x with poisoned := satInc 32 x.poisoned }) fun _ => rfl).trans (stackLife_stacksStand ..)
  exact (hlogged.trans hcounted).trans (note_stacksStand ..)

/-! ### Chunks written (06, R143, R145, R153) -/

theorem burstsTo_stacksStand (p stripe pos : Nat) (write : Option Line) : StacksStand s (burstsTo s p stripe pos write) := .of_eq rfl rfl rfl

theorem storeChunk_stacksStand (p stripe pos : Nat) (d : Line) : StacksStand s (storeChunk s p stripe pos d) := .of_eq rfl rfl rfl

theorem storeMark_stacksStand (p stripe pos : Nat) : StacksStand s (storeMark s p stripe pos) := by
  have hmarked : ∀ t : State, StacksStand t { t with mem := { t.mem with ecc := tset t.mem.ecc (chunkNo p stripe pos) { marked := BitVec.allOnes 32 } } } :=
    fun _ => .of_eq rfl rfl rfl
  exact (storeChunk_stacksStand ..).trans (hmarked _)

theorem putChunk_stacksStand (l stripe pos : Nat) (d : Option Line) : StacksStand s (putChunk s l stripe pos d) := by
  refine .foldl (fun s p => .ite (.refl s) ?_) _ s
  split
  · exact storeChunk_stacksStand ..
  · exact storeMark_stacksStand ..

theorem putParity_stacksStand (l stripe : Nat) (d : Line) (noValue : Nat → Bool) : StacksStand s (putParity s l stripe d noValue) :=
  .foldl (fun s _ => .ite (.refl s) (.ite (storeMark_stacksStand ..) (storeChunk_stacksStand ..))) _ s

theorem stripeLoss_stacksStand (l p stripe : Nat) : StacksStand s (stripeLoss s l p stripe) := by
  unfold stripeLoss
  extract_lets lost old marked parity
  have hmarked : StacksStand s marked := .foldl (fun s k => putChunk_stacksStand s ..) lost s
  have hparity : StacksStand marked parity := putParity_stacksStand ..
  exact (hmarked.trans hparity).trans (.foldl (fun s k => loseChunk_stacksStand s ..) _ _)

/-! ### Chunks read (06, R147; 14, R351) -/

theorem rebuild_stacksStand (l p stripe pos source : Nat) : StacksStand s (rebuild s l p stripe pos source).2 := by
  unfold rebuild
  extract_lets v par read x
  refine .ite_snd (.refl s) ?_
  have hread : StacksStand s read := (burstsTo_stacksStand ..).trans (blotAll_stacksStand ..)
  have hx : StacksStand read x.2 := by
    refine .foldl_snd (fun a k => ?_) (List.range 16) (some par.data, read)
    obtain ⟨y, t⟩ := a
    cases y with
    | none => exact .refl t
    | some y =>
      refine .ite_snd (.refl t) (.ite_snd (.refl t) ?_)
      extract_lets r met blotted
      have hmet : StacksStand t met := burstsTo_stacksStand ..
      have hblotted : StacksStand met blotted := blotAll_stacksStand ..
      exact hmet.trans (.ite_snd (.refl met) (hblotted.trans (.ite_snd (.refl blotted) (.refl blotted))))
  clear_value x
  exact hread.trans hx

theorem rebuildOrLose_stacksStand (l p stripe pos source : Nat) : StacksStand s (rebuildOrLose s l p stripe pos source).2 := by
  unfold rebuildOrLose
  extract_lets x
  have hx : StacksStand s x.2 := rebuild_stacksStand ..
  split
  · exact hx
  · exact hx.trans (stripeLoss_stacksStand ..)

theorem schedule_stacksStand (l stripe pos : Nat) (d : Line) : StacksStand s (schedule s l stripe pos d) := by
  unfold schedule
  exact .ite (.refl s) (.ite (.of_eq rfl rfl rfl) (.of_eq rfl rfl rfl))

theorem readDirect_stacksStand (l p stripe pos source : Nat) : StacksStand s (readDirect s l p stripe pos source).2 := by
  unfold readDirect
  extract_lets read r blotted kept tested x stamps
  have hread : StacksStand s read := burstsTo_stacksStand ..
  have hblotted : StacksStand read blotted := blotAll_stacksStand ..
  have htested : StacksStand blotted tested := .ite (sliceOver_stacksStand ..) (.refl _)
  have hx : StacksStand tested x.2 := rebuildOrLose_stacksStand ..
  clear_value stamps x tested blotted read
  refine hread.trans (.ite_snd (.refl read) (hblotted.trans (.ite_snd (htested.trans ?_) (.ite_snd (.refl _) (schedule_stacksStand ..)))))
  split
  · have hcounted : StacksStand x.2 (modStack x.2 p (fun x => { x with ueRebuilt := satInc 32 x.ueRebuilt, ueStamps := stamps })) :=
      .of_modStack _ p fun _ => rfl
    exact ((hx.trans hcounted).trans (stackLife_stacksStand ..)).trans (schedule_stacksStand ..)
  · exact hx

theorem readChunk_stacksStand (l stripe pos source : Nat) : StacksStand s (readChunk s l stripe pos source).2 := by
  unfold readChunk
  refine .ite_snd (.refl s) ?_
  split
  · exact .refl s
  · refine .ite_snd (readDirect_stacksStand ..) (.ite_snd (.refl s) (.ite_snd ?_ (.ite_snd (.refl s) (rebuildOrLose_stacksStand ..))))
    exact (sliceOver_stacksStand ..).trans (readDirect_stacksStand ..)

/-! ### Commits (06, R152 to R154) -/

theorem listCatchUp_stacksStand (l stripe : Nat) : StacksStand s (listCatchUp s l stripe) := by
  refine .foldl (fun s p => ?_) _ s
  extract_lets k listed
  have hlisted : StacksStand s listed := .of_eq rfl rfl rfl
  exact .ite (.ite (hlisted.trans (sliceOver_stacksStand ..)) hlisted) (.refl s)

theorem newChunks_stacksStand (e : SabEntry) (p : Nat) : StacksStand s (newChunks s e p).2 := by
  refine StacksStand.foldl_snd (fun a k => ?_) (List.range 16) ([], s)
  refine .ite_snd (.refl _) (.ite_snd (.refl _) (.ite_snd (loseChunk_stacksStand ..) (.ite_snd (loseChunk_stacksStand ..) (.ite_snd (.refl _) ?_))))
  have hread := readChunk_stacksStand a.2 e.lstack e.stripe k 2
  split
  next h => rwa [h] at hread
  next h => rwa [h] at hread

theorem oldSum_stacksStand (e : SabEntry) (new : List NewChunk) (pick : Nat → Bool) : StacksStand s (oldSum s e new pick).2 := by
  refine StacksStand.foldl_snd (fun a k => .ite_snd ?_ (.refl _)) (List.range 16) (0, s)
  split
  · exact .refl _
  · exact readChunk_stacksStand ..

theorem commitWrite_stacksStand (e : SabEntry) (p : Nat) (new : List NewChunk) (par : Option Line) : StacksStand s (commitWrite s e p new par) := by
  have hwrite : ∀ s, StacksStand s (new.foldl (fun s c => putChunk s e.lstack e.stripe c.pos c.new) s) := .foldl (fun s c => putChunk_stacksStand s ..) new
  unfold commitWrite
  split
  · exact hwrite s
  · exact (hwrite s).trans (putParity_stacksStand ..)

theorem commitEntry_stacksStand (e : SabEntry) : StacksStand s (commitEntry s e) := by
  unfold commitEntry
  extract_lets l st
  split
  · exact .of_eq rfl rfl rfl
  · extract_lets method nc new sum reconstruct read par blotted x written
    have hread : StacksStand s read := newChunks_stacksStand ..
    have hreconstruct : ∀ t, StacksStand t (reconstruct t) := fun t => (oldSum_stacksStand ..).trans (commitWrite_stacksStand ..)
    refine StacksStand.trans (t := sabDrop written l st) (hread.trans (StacksStand.trans (t := written) ?_ (.of_eq rfl rfl rfl))) (listCatchUp_stacksStand ..)
    clear_value method
    cases method with
    | fresh => exact commitWrite_stacksStand ..
    | leave => exact commitWrite_stacksStand ..
    | reconstruct => exact hreconstruct _
    | delta =>
      have hblotted : StacksStand read blotted := (burstsTo_stacksStand ..).trans (blotAll_stacksStand ..)
      exact hblotted.trans (.ite (hreconstruct _) ((oldSum_stacksStand ..).trans (commitWrite_stacksStand ..)))

/-! ### Lines read and written (05, R121; 06, R151) -/

theorem sabOpen_stacksStand (k l stripe ext base : Nat) (old : BitVec 16) : StacksStand s (sabOpen s k l stripe ext base old).2 := by
  unfold sabOpen
  split
  · exact .refl s
  · extract_lets mine room
    refine .ite (.refl s) ?_
    split
    · exact commitEntry_stacksStand ..
    · exact .refl s

theorem writeLine_stacksStand {t : State} {ext offset first count : Nat} {d : Line} {poison : Bool} (h : writeLine s ext offset d first count poison = some t) :
    StacksStand s t := by
  unfold writeLine at h
  extract_lets e pl whole base o en i bit_ en1 en2 at h
  split at h
  · cases h
  · cases h
    have hopened : StacksStand s o.2 := sabOpen_stacksStand ..
    exact hopened.trans (.of_eq rfl rfl rfl)

theorem readLine_stacksStand (ext offset : Nat) : StacksStand s (readLine s ext offset).2 := by
  unfold readLine
  refine .ite_snd (.refl s) ?_
  extract_lets pl
  split
  · refine .ite_snd (.refl s) (.ite_snd (.refl s) (.ite_snd (.refl s) ?_))
    have hread := readChunk_stacksStand s pl.lstack pl.stripe pl.index 0
    split
    next h => rwa [h] at hread
    next h => rwa [h] at hread
  · exact readChunk_stacksStand ..

theorem storeReq_stacksStand {t : State} {r : Req} {d : Line} {poison : Bool} (h : storeReq s r d poison = some t) : StacksStand s t := by
  unfold storeReq at h
  extract_lets line at h
  split at h
  · exact writeLine_stacksStand s h
  · have hread := readLine_stacksStand s r.ext line
    split at h
    next hline => rw [hline] at hread; exact hread.trans (writeLine_stacksStand _ h)
    · cases h

/-- Whatever a request does is done by reads and writes of its line. -/
theorem perform_stacksStand (r : Req) (returned : Option Line) (returnedPoison : Bool) : StacksStand s (perform s r returned returnedPoison).2 := by
  unfold perform
  extract_lets dataError line got
  have hgot : StacksStand s got.2 := by
    unfold got
    split
    · exact .refl s
    · exact readLine_stacksStand ..
  clear_value got
  refine .ite_snd ?read (.ite_snd ?atomic ?write)
  case read => split <;> exact hgot
  case atomic =>
    split
    · exact hgot
    · extract_lets
      split
      next h => exact hgot.trans (writeLine_stacksStand _ h)
      · exact hgot
  case write =>
    extract_lets
    split
    · refine .ite_snd (.refl s) ?_
      split
      next h => exact (storeReq_stacksStand s h).trans (.of_sameStores (modSpray_sameStores ..))
      · exact .refl s
    · split
      next h => exact storeReq_stacksStand s h
      · exact .refl s

/-! ### Stores of the module's own (07, R181; 09) -/

theorem cacheValid_stacksStand (k offset : Nat) (written : Bool) : StacksStand s (cacheValid s k offset written) := by
  unfold cacheValid
  extract_lets old x out
  obtain ⟨time, hput⟩ := cachePut_eq s old 2048 (offset >>> 20) written
  have hx : StacksStand s x.2 := by
    simp only [x, hput]
    exact .of_eq rfl rfl rfl
  have hback : ∀ s m, StacksStand s (writeBackValid s m) := fun _ _ => .of_eq rfl rfl rfl
  refine hx.trans (StacksStand.trans ?_ (.foldl hback out _))
  exact .of_eq rfl rfl rfl

theorem logViolation_stacksStand (v : Violation) : StacksStand s (logViolation s v) := by
  unfold logViolation
  extract_lets same
  refine .ite (.of_eq rfl rfl rfl) (.ite (.of_eq rfl rfl rfl) (.ite (.of_eq rfl rfl rfl) (StacksStand.trans ?_ (note_stacksStand ..))))
  exact .of_eq rfl rfl rfl

theorem moduleStore_stacksStand (origin : Origin) (k offset length : Nat) (payload : Line) (mask : Option (BitVec 256)) (source tenant : Nat) :
    StacksStand s (moduleStore s origin k offset length payload mask source tenant).2 := by
  unfold moduleStore
  split
  · exact logViolation_stacksStand ..
  · extract_lets n r x h counted _
    have hx : StacksStand s x.2 := perform_stacksStand ..
    have hcounted : StacksStand s counted := .of_eq rfl rfl rfl
    exact .ite_snd (hx.trans (cacheValid_stacksStand ..)) (hcounted.trans (.ite_snd (.of_eq rfl rfl rfl) (.of_eq rfl rfl rfl)))

theorem sprayStore_stacksStand (n what offset length : Nat) (payload : Line) (mask : Option (BitVec 256)) :
    StacksStand s (sprayStore s n what offset length payload mask) := by
  unfold sprayStore
  split
  · exact .refl s
  next p _ =>
    have hstore := moduleStore_stacksStand s (.sprayStore n what) p.region offset length payload mask p.source p.tenant
    split
    next h => rw [h] at hstore; exact hstore.trans (.of_sameStores (modSpray_sameStores ..))
    next h => rw [h] at hstore; exact hstore.trans (.of_sameStores (modSpray_sameStores ..))

theorem endItem_stacksStand (n i : Nat) (f : Option Failure) : StacksStand s (endItem s n i f) := by
  unfold endItem
  split
  · exact .refl s
  · split
    · exact .refl s
    · extract_lets st sooner p
      have hset : StacksStand s (setSpray s n p) := .of_eq rfl rfl rfl
      refine hset.trans ?_
      unfold writeStatus
      split
      · exact .refl _
      · exact sprayStore_stacksStand ..

/-! ### Work that stops (12, R325; 15, R376) -/

theorem stopSpray_stacksStand (n st : Nat) : StacksStand s (stopSpray s n st) := by
  unfold stopSpray
  split
  · exact .refl s
  · extract_lets idle ended
    have hended : StacksStand s ended := .foldl (fun s i => endItem_stacksStand s ..) idle s
    exact hended.trans (.foldl (fun s t => .of_sameStores (stopThread_sameStores s ..)) _ _)

/-- READY falls before work stops. -/
theorem stopWork_stacksStand (st : Nat) : StacksStand { s with hub := { s.hub with ready := false } } (stopWork s st) := by
  unfold stopWork
  extract_lets hub unready stopped answered
  have hstopped : StacksStand unready stopped := .foldl (fun s x => stopSpray_stacksStand s ..) _ _
  have hanswered : StacksStand stopped answered := .foldl (fun s k => .of_sameStores (answerHeld_sameStores s ..)) _ _
  exact (hstopped.trans hanswered).trans (.foldl (fun s k => sliceOver_stacksStand s ..) _ _)

end

end Sys2Proof.Machine

/-! Self-refresh, changes of rate and the start of a stack (05, R135 to R141). -/

namespace Sys2Proof.Machine

namespace OnlyChans

theorem refl (s : State) : OnlyChans s s := rfl

theorem foldl {α : Type} {f : State → α → State} (hf : ∀ s x, OnlyChans s (f s x)) : ∀ (l : List α) (s : State), OnlyChans s (l.foldl f s)
  | [], s => .refl s
  | x :: l, s => (hf s x).trans (foldl hf l (f s x))

section
variable {s t : State} (h : OnlyChans s t)
include h

theorem clock : t.time.clock = s.time.clock := congrArg (fun u => u.time.clock) h
theorem fault : t.fault = s.fault := congrArg (fun u => u.fault) h
theorem stackOf (p : Nat) : stackOf t p = Machine.stackOf s p := by
  have hstack := congrArg (fun u => Machine.stackOf u p) h
  exact hstack
theorem chanTested (p c : Nat) : chanTested t p c = Machine.chanTested s p c := by
  have htested := congrArg (fun u => Machine.chanTested u p c) h
  exact htested

end
end OnlyChans

namespace SameStores

section
variable {s t : State} (h : SameStores s t) (p c pc k : Nat)
include h

theorem stackOf : stackOf t p = Machine.stackOf s p := by rw [Machine.stackOf, h.mem, Machine.stackOf]
theorem chanOf : chanOf t p c = Machine.chanOf s p c := by rw [Machine.chanOf, h.mem, Machine.chanOf]
theorem pchanOf : pchanOf t p c pc = Machine.pchanOf s p c pc := by rw [Machine.pchanOf, h.mem, Machine.pchanOf]
theorem regFault : regFault t k = Machine.regFault s k := by rw [Machine.regFault, h.fault, Machine.regFault]

end
end SameStores

/-! ### Both pseudo-channels of a channel -/

section
variable (s : State) (p c : Nat)

/-- An update of both pseudo-channels. -/
theorem pchanOf_modPchan_both (f : PChan → PChan) {pc : Nat} (h : pc < 2) :
    pchanOf (modPchan (modPchan s p c 0 f) p c 1 f) p c pc = f (pchanOf s p c pc) := by
  obtain rfl | rfl : pc = 0 ∨ pc = 1 := by omega
  · rw [pchanOf_modPchan_of_ne _ _ _ _ (by omega), pchanOf_modPchan_same]
  · rw [pchanOf_modPchan_same, pchanOf_modPchan_of_ne _ _ _ _ (by omega)]

theorem pchanOf_issueCmds_both (l : List ChanCmd) {pc : Nat} (h : pc < 2) : pchanOf (issueCmds (issueCmds s p c 0 l) p c 1 l) p c pc =
    { pchanOf s p c pc with retry := retryLive s p (pchanOf s p c pc) ++ l.map (fun y => (y, s.time.clock)) } :=
  pchanOf_modPchan_both s p c _ h

theorem pchanOf_refreshAll {pc : Nat} (h : pc < 2) : pchanOf (refreshAll s p c) p c pc = { pchanOf s p c pc with refreshBy := [], openRows := [] } :=
  pchanOf_modPchan_both s p c _ h

theorem chanOf_refreshAll : chanOf (refreshAll s p c) p c = { chanOf s p c with refreshBy := s.time.clock + refreshEvery (stackOf s p) } :=
  chanOf_modChan_same ..

/-- Both pseudo-channels issue commands and are refreshed as a whole. -/
theorem refreshAll_issueCmds (l : List ChanCmd) : let t := refreshAll (issueCmds (issueCmds s p c 0 l) p c 1 l) p c
    chanOf t p c = { chanOf s p c with refreshBy := s.time.clock + refreshEvery (stackOf s p) } ∧
    ∀ pc < 2, pchanOf t p c pc =
      { pchanOf s p c pc with refreshBy := [], openRows := [], retry := retryLive s p (pchanOf s p c pc) ++ l.map (fun y => (y, s.time.clock)) } :=
  ⟨chanOf_refreshAll .., fun pc h => by rw [pchanOf_refreshAll _ _ _ h, pchanOf_issueCmds_both _ _ _ _ h]⟩

/-! ### Self-refresh (05, R135, R136, Table 5.9) -/

theorem sleepChan_spec : chanOf (sleepChan s p c) p c = { chanOf s p c with selfRefresh := true, refreshBy := s.time.clock + refreshEvery (stackOf s p) } ∧
    ∀ pc < 2, pchanOf (sleepChan s p c) p c pc = { pchanOf s p c pc with
      refreshBy := [], openRows := [],
      retry := retryLive s p (pchanOf s p c pc) ++ [(.closeAll, s.time.clock), (.refreshAll, s.time.clock), (.sleep, s.time.clock)] } := by
  obtain ⟨hchan, hpchan⟩ := refreshAll_issueCmds s p c [.closeAll, .refreshAll, .sleep]
  rw [sleepChan, chanOf_modChan_same, hchan]
  exact ⟨rfl, hpchan⟩

theorem sleepChan_onlyChans : OnlyChans s (sleepChan s p c) :=
  (((issueCmds_onlyChans ..).trans (issueCmds_onlyChans ..)).trans (refreshAll_onlyChans ..)).trans (modChan_onlyChans ..)

theorem wakeChan_spec : chanOf (wakeChan s p c) p c =
      { chanOf s p c with selfRefresh := false, lastActivity := s.time.clock, refreshBy := s.time.clock + refreshEvery (stackOf s p) } ∧
    ∀ pc < 2, (pchanOf (wakeChan s p c) p c pc).refreshBy = [] ∧ (pchanOf (wakeChan s p c) p c pc).openRows = [] := by
  obtain ⟨hchan, hpchan⟩ := refreshAll_issueCmds s p c [.wake]
  rw [wakeChan, chanOf_modChan_same, hchan]
  refine ⟨rfl, fun pc h => ?_⟩
  rw [pchanOf_modChan, hpchan pc h]
  exact ⟨rfl, rfl⟩

end

section
variable {s : State} {p c : Nat}

theorem exec_selfRefreshEntry {d : Nat} (hruns : chanRuns s p c = true) (hidle : chanIdle s p c = true) (hretrain : retrainDue s p c = false)
    (hrefresh : refreshWaits s p c = false) (hroom : ∀ pc < 2, (retryLive s p (pchanOf s p c pc)).length + 3 ≤ 64)
    (hlimit : idleLimit s p = some d) (hlong : (chanOf s p c).lastActivity + d ≤ s.time.clock) :
    exec (.selfRefreshEntry p c) s = .next (sleepChan s p c) := by
  have hfits : ∀ pc < 2, retryRoom s p c pc 3 = true := fun pc h => decide_eq_true (hroom pc h)
  refine when_true ?_
  rw [hruns, hidle, hretrain, hrefresh, hfits 0 (by omega), hfits 1 (by omega), hlimit]
  exact passed_iff.mpr hlong

theorem exec_selfRefreshExit (hasleep : (chanOf s p c).selfRefresh = true) (hidle : chanIdle s p c = false) (htested : chanTested s p c = false) :
    exec (.selfRefreshExit p c) s = .next (wakeChan s p c) :=
  when_true (by rw [hasleep, hidle, htested]; rfl)

/-! ### A change of rate begins (05, R138; 14, R349) -/

theorem exec_rateChangeStart (hruns : stackRuns (stackOf s p) = true) (hquiet : stackQuiet s p = true) (hsliced : stackSliced s p = none)
    (hlimit : (stackOf s p).rate < rateLimit (stackOf s p) ∨
      rateLimit (stackOf s p) < (stackOf s p).rate ∧ ∀ u, (stackOf s p).lastRateChange = some u → u + 25000000 ≤ s.time.clock) :
    exec (.rateChangeStart p) s = .next (startRate s p) := by
  have hup : (decide ((stackOf s p).rate < rateLimit (stackOf s p)) ||
      (match (stackOf s p).lastRateChange with | some t => passed s t (ms 100) | none => true)) = true := by
    rcases hlimit with hdown | ⟨-, hlate⟩
    · simp [hdown]
    · cases hlast : (stackOf s p).lastRateChange with
      | none => simp
      | some u => simp [passed_iff, ms, hlate u hlast]
  have hother : (rateLimit (stackOf s p) != (stackOf s p).rate) = true := bne_iff_ne.mpr (by omega)
  refine (when_true ?_).trans ?_
  · rw [hruns, hother, hquiet]
    exact hup
  · rw [hsliced]

/-- A slice's catch-up comes first, and a change up waits for a slice. -/
theorem exec_rateChangeStart_sliced (h : stackSliced s p = some false ∨ stackSliced s p = some true ∧ rateLimit (stackOf s p) ≤ (stackOf s p).rate) :
    exec (.rateChangeStart p) s = .next s := by
  refine congrArg Host.Outcome.next ((ite_congr rfl (fun _ => ?_) (fun _ => rfl)).trans (ite_self s))
  rcases h with h | ⟨h, hup⟩
  · rw [h]
  · rw [h, decide_eq_false (Nat.not_lt.mpr hup)]
    rfl

theorem exec_rateChangeStart_stays (h : rateLimit (stackOf s p) = (stackOf s p).rate ∨ stackRuns (stackOf s p) = false ∨ stackQuiet s p = false) :
    exec (.rateChangeStart p) s = .next s := by
  refine when_false ?_
  rcases h with h | h | h <;> simp [h]

end

/-! ### A change of rate ends (05, R138, Table 5.11) -/

section
variable (s : State) (p : Nat) {c d : Nat}

theorem chanOf_modChan_of_ne (h : c ≠ d) (f : Chan → Chan) : chanOf (modChan s p d f) p c = chanOf s p c := by
  rw [chanOf, modChan, tget_tmod, if_neg (by omega), chanOf]

theorem pchanOf_modPchan_of_chan_ne (h : c ≠ d) {pc i : Nat} (hpc : pc < 2) (hi : i < 2) (f : PChan → PChan) :
    pchanOf (modPchan s p d i f) p c pc = pchanOf s p c pc := by
  rw [pchanOf_modPchan, if_neg (by omega)]

/-- A channel that leaves self-refresh changes no other. -/
theorem wakeChan_of_ne (h : c ≠ d) : chanOf (wakeChan s p d) p c = chanOf s p c ∧ ∀ pc < 2, pchanOf (wakeChan s p d) p c pc = pchanOf s p c pc := by
  refine ⟨?_, fun pc hpc => ?_⟩
  · rw [wakeChan, chanOf_modChan_of_ne _ _ h, refreshAll, chanOf_modChan_of_ne _ _ h]
    rfl
  · have hother : ∀ s f, ∀ i < 2, pchanOf (modPchan s p d i f) p c pc = pchanOf s p c pc := fun s f i hi => pchanOf_modPchan_of_chan_ne s p h hpc hi f
    simp only [wakeChan, refreshAll, issueCmds, pchanOf_modChan, hother _ _ 0 (by omega), hother _ _ 1 (by omega)]

/-- A channel, where it is not under test, leaves self-refresh on the timing set of its stack's rate. -/
def wakeUntested (p : Nat) (s : State) (c : Nat) : State := if chanTested s p c then s else wakeChan (loadTiming s p c) p c

theorem wakeUntested_onlyChans (s : State) (p c : Nat) : OnlyChans s (wakeUntested p s c) := by
  unfold wakeUntested
  split
  · exact .refl s
  · exact (loadTiming_onlyChans ..).trans (wakeChan_onlyChans ..)

/-- A channel awake on the timing set of a rate, its banks fresh. -/
def awake (x : Chan) (rate now due : Nat) : Chan := { loaded x rate due with selfRefresh := false, lastActivity := now }

theorem wakeUntested_same (h : chanTested s p c = false) :
    chanOf (wakeUntested p s c) p c = awake (chanOf s p c) (stackOf s p).rate s.time.clock (s.time.clock + refreshEvery (stackOf s p)) ∧
    ∀ pc < 2, (pchanOf (wakeUntested p s c) p c pc).openRows = [] := by
  obtain ⟨hchan, hpchan⟩ := wakeChan_spec (loadTiming s p c) p c
  rw [wakeUntested, h, if_neg Bool.false_ne_true, hchan, loadTiming, chanOf_modChan_same]
  exact ⟨rfl, fun pc hpc => (hpchan pc hpc).2⟩

theorem wakeUntested_of_ne (h : c ≠ d) :
    chanOf (wakeUntested p s d) p c = chanOf s p c ∧ ∀ pc < 2, pchanOf (wakeUntested p s d) p c pc = pchanOf s p c pc := by
  unfold wakeUntested
  split
  · exact ⟨rfl, fun _ _ => rfl⟩
  · obtain ⟨hchan, hpchan⟩ := wakeChan_of_ne (loadTiming s p d) p h
    exact ⟨hchan.trans (chanOf_modChan_of_ne _ _ h _), hpchan⟩

theorem foldl_wakeUntested_of_not_mem {l : List Nat} (h : c ∉ l) :
    chanOf (l.foldl (wakeUntested p) s) p c = chanOf s p c ∧ ∀ pc < 2, pchanOf (l.foldl (wakeUntested p) s) p c pc = pchanOf s p c pc := by
  induction l generalizing s with
  | nil => exact ⟨rfl, fun _ _ => rfl⟩
  | cons d l ih =>
    obtain ⟨hchan, hpchan⟩ := wakeUntested_of_ne s p (List.ne_of_not_mem_cons h)
    obtain ⟨hchans, hpchans⟩ := ih (wakeUntested p s d) (List.not_mem_of_not_mem_cons h)
    exact ⟨hchans.trans hchan, fun pc hpc => (hpchans pc hpc).trans (hpchan pc hpc)⟩

/-- Of some channels woken in turn, each that is not under test is awake. -/
theorem foldl_wakeUntested {l : List Nat} (hmem : c ∈ l) (hnodup : l.Nodup) (htested : chanTested s p c = false) :
    chanOf (l.foldl (wakeUntested p) s) p c = awake (chanOf s p c) (stackOf s p).rate s.time.clock (s.time.clock + refreshEvery (stackOf s p)) ∧
    ∀ pc < 2, (pchanOf (l.foldl (wakeUntested p) s) p c pc).openRows = [] := by
  induction l generalizing s with
  | nil => cases hmem
  | cons d l ih =>
    obtain ⟨hd, hl⟩ := List.nodup_cons.mp hnodup
    rw [List.foldl_cons]
    by_cases h : c = d
    · subst h
      obtain ⟨hchan, hpchan⟩ := wakeUntested_same s p htested
      obtain ⟨hchans, hpchans⟩ := foldl_wakeUntested_of_not_mem (wakeUntested p s c) p hd
      exact ⟨hchans.trans hchan, fun pc hpc => by rw [hpchans pc hpc, hpchan pc hpc]⟩
    · have hstep := wakeUntested_onlyChans s p d
      obtain ⟨hchan, -⟩ := wakeUntested_of_ne s p h
      have hwoken := ih (wakeUntested p s d) (List.mem_of_ne_of_mem h hmem) hl (by rw [hstep.chanTested, htested])
      rwa [hchan, hstep.stackOf, hstep.clock] at hwoken

/-- The stack's state after a change of rate: under evacuation where that has begun. -/
def stateAfterRate (s : State) (p : Nat) : StackState :=
  if (match tget? s.mem.evacs (p / 5) with | some e => (e.old == p || e.spare == p) && evacBegun s e | none => false) then .evacuating else .serving

theorem stateAfterRate_cases : (stateAfterRate s p = .serving ∨ stateAfterRate s p = .evacuating) ∧ (tget? s.mem.evacs (p / 5) = none → stateAfterRate s p = .serving) := by
  refine ⟨?_, fun h => ?_⟩
  · exact (ite_eq_or_eq ..).symm
  · rw [stateAfterRate, h]
    rfl

/-- The new rate is in force on the stack and on its channels, with a NOTE. -/
theorem newRate_spec : stackOf (newRate s p) p = { stackOf s p with rate := (stackOf s p).rateTarget, st := stateAfterRate s p, lastRateChange := some s.time.clock } ∧
    (∀ c < 32, chanTested s p c = false →
      (∃ due, chanOf (newRate s p) p c = awake (chanOf s p c) (stackOf s p).rateTarget s.time.clock due) ∧ ∀ pc < 2, (pchanOf (newRate s p) p c pc).openRows = []) ∧
    regFault (newRate s p) (p / 5) = { regFault s (p / 5) with lastNote := 0x0D, noteCount := ((regFault s (p / 5)).noteCount + 1) % 256 } := by
  obtain ⟨u, hu, hrate⟩ : ∃ u, u = modStack s p (fun x => { x with rate := x.rateTarget, st := stateAfterRate s p, lastRateChange := some s.time.clock }) ∧
      newRate s p = noteR ((List.range 32).foldl (wakeUntested p) u) (p / 5) (stackUnit p) Cause.rateChange := ⟨_, rfl, rfl⟩
  have hwoken : OnlyChans u ((List.range 32).foldl (wakeUntested p) u) := .foldl (fun s c => wakeUntested_onlyChans s p c) _ u
  have hstack : stackOf u p = { stackOf s p with rate := (stackOf s p).rateTarget, st := stateAfterRate s p, lastRateChange := some s.time.clock } := by
    rw [hu, stackOf_modStack_same]
  rw [hrate]
  refine ⟨by rw [stackOf_noteR, hwoken.stackOf, hstack], fun c hc htested => ?_, ?_⟩
  · obtain ⟨hchan, hpchan⟩ := foldl_wakeUntested u p (List.mem_range.mpr hc) List.nodup_range (by rw [hu]; exact htested)
    rw [hstack] at hchan
    rw [chanOf_noteR, hchan, hu]
    exact ⟨⟨_, rfl⟩, fun pc hpc => by rw [pchanOf_noteR, ← hu, hpchan pc hpc]⟩
  · rw [regFault_noteR, regFault, hwoken.fault, hu]
    rfl

variable {s p}

/-- The change of rate ends with the new rate, and the orders that wait for it may be answered (05, R138). -/
theorem exec_rateChangeDone (h : (stackOf s p).st = .rateChange) : ∃ t w, exec (.rateChangeDone p) s = .next t ∧
    stackOf t p = { stackOf (newRate s p) p with limitWaits := w } ∧ (w = (stackOf s p).limitWaits ∨ w = []) ∧
    (∀ c, chanOf t p c = chanOf (newRate s p) p c) ∧ (∀ c pc, pchanOf t p c pc = pchanOf (newRate s p) p c pc) ∧
    regFault t (p / 5) = regFault (newRate s p) (p / 5) := by
  obtain ⟨served, hexec⟩ : ∃ served : Bool, exec (.rateChangeDone p) s = .next (if served = true
      then (stackOf s p).limitWaits.foldl answerLimit (modStack (newRate s p) p (fun x => { x with limitWaits := [] })) else newRate s p) :=
    ⟨_, when_true (beq_iff_eq.mpr h)⟩
  rw [hexec]
  split
  · have hanswered := answerLimits_sameStores (stackOf s p).limitWaits (modStack (newRate s p) p (fun x => { x with limitWaits := [] }))
    refine ⟨_, [], rfl, ?_, .inr rfl, fun c => ?_, fun c pc => ?_, ?_⟩
    · rw [hanswered.stackOf, stackOf_modStack_same]
    · rw [hanswered.chanOf, chanOf_modStack]
    · rw [hanswered.pchanOf, pchanOf_modStack]
    · rw [hanswered.regFault, regFault, modStack_fault, regFault]
  · obtain ⟨hstack, -, -⟩ := newRate_spec s p
    exact ⟨_, (stackOf s p).limitWaits, rfl, by rw [hstack], .inl rfl, fun _ => rfl, fun _ _ => rfl, rfl⟩

end

/-! ### The start of a stack (05, R139 to R141) -/

theorem trainChan_stackTab (s : State) (p c : Nat) : (trainChan s p c).mem.stackTab = s.mem.stackTab := by
  have hstacks := congrArg (fun u => u.mem.stackTab) (untrained_trainChan s p c)
  exact hstacks

theorem trainChans_stackTab (p : Nat) (l : List Nat) : ∀ s : State, (l.foldl (fun s c => trainChan s p c) s).mem.stackTab = s.mem.stackTab := by
  induction l with
  | nil => exact fun _ => rfl
  | cons c l ih => exact fun s => (ih _).trans (trainChan_stackTab s p c)

theorem mem_stackTrained (s : State) (p : Nat) : p ∈ (stackTrained s p).power.stacksTrained := List.mem_append_right _ (List.mem_singleton_self p)

/-- A trained stack serves at 8.0 Gb/s under its logical name, its channels trained. -/
theorem serveStack_spec (s : State) (p l : Nat) :
    stackOf (serveStack s p l) p = { stackOf s p with st := .serving, mapped := true, logicalId := l, rate := 0, scrubStart := s.time.clock, scrubPointer := 0 } ∧
    p ∈ (serveStack s p l).power.stacksTrained := by
  unfold serveStack
  extract_lets serving trained
  refine ⟨?_, mem_stackTrained ..⟩
  have hflags : ∀ t b, stackOf (stackFlags t p b true) p = stackOf t p := fun _ _ => rfl
  have hpasses : ∀ t, stackOf (stackTrained (firstPasses t p) p) p = stackOf t p := fun t => by
    unfold firstPasses
    split <;> rfl
  have hserving : stackOf serving p = _ := stackOf_modStack_same ..
  have htrained : stackOf trained p = stackOf serving p := by rw [stackOf, trainChans_stackTab, stackOf]
  rw [hpasses, hflags, htrained, hserving]
  rfl

section
variable {s : State} {p : Nat}

theorem exec_stackTrained (h : (stackOf s p).st = .training) : exec (.stackTrainingDone p true) s = .next (serveStack s p (stackOf s p).logicalId) :=
  when_true (beq_iff_eq.mpr h)

/-- A stack that fails its training is fenced (05, R140). -/
theorem exec_stackUntrained (h : (stackOf s p).st = .training) : exec (.stackTrainingDone p false) s =
    .next (raiseR { s with power := { s.power with stacksTrained := s.power.stacksTrained.filter (· ≠ p) ++ [p] } } (p / 5) (unitId 0x02 (p % 5)) Cause.stackTrainFail) := by
  have hne : (fun q => decide (q ≠ p)) = (fun q => q != p) := funext fun _ => decide_not
  rw [hne]
  exact when_true (beq_iff_eq.mpr h)

/-! ### Metadata (05, R141) -/

/-- The bytes outside a range of addresses. -/
def bytesOutside (m : List Host.Cell) (lo hi : Nat) : List Host.Cell := m.filter (fun c => decide (c.1 < lo) || decide (hi ≤ c.1))

theorem readByte_bytesOutside_of_mem (m : List Host.Cell) {lo hi a : Nat} (hlo : lo ≤ a) (hhi : a < hi) : readByte (bytesOutside m lo hi) a = 0 := by
  refine readByte_of_unlisted fun c hc heq => ?_
  obtain ⟨-, hout⟩ := List.mem_filter.mp hc
  simp only [Bool.or_eq_true, decide_eq_true_eq] at hout
  omega

theorem readByte_bytesOutside_of_not_mem (m : List Host.Cell) {lo hi a : Nat} (h : a < lo ∨ hi ≤ a) : readByte (bytesOutside m lo hi) a = readByte m a := by
  have hfind : (bytesOutside m lo hi).find? (fun c => c.1 == a) = m.find? (fun c => c.1 == a) := by
    rw [bytesOutside, List.find?_filter]
    refine congrArg (List.find? · m) (funext fun c => ?_)
    by_cases hc : c.1 = a
    · simp [hc, h]
    · simp [hc]
  rw [readByte, hfind, readByte]

/-- The metadata stripes of a logical stack's physical one hold zeros. -/
theorem exec_metadataWriteDone {l : Nat} (hserved : servedBy s l = some p) (hready : s.hub.ready = false) (hdone : l ∉ s.mem.metadataDone) :
    exec (.metadataWriteDone l) s = .next { s with mem := { s.mem with
      bytes := bytesOutside s.mem.bytes (chunkAddr p metaStripe 0) (chunkAddr p stripeCount 0)
      ecc := s.mem.ecc.filter (fun e => decide (e.1 * 256 < chunkAddr p metaStripe 0) || decide (chunkAddr p stripeCount 0 ≤ e.1 * 256))
      metadataDone := s.mem.metadataDone ++ [l] } } := by
  have hdue : (!s.hub.ready && !s.mem.metadataDone.contains l) = true := by simp [hready, hdone]
  show execMetadataWriteDone l s = _
  rw [execMetadataWriteDone, hserved]
  exact when_true hdue

end

end Sys2Proof.Machine

/-! Readings of a stack's temperature (05, R129, R130, R137; 15, R367, R368). -/

namespace Sys2Proof.Machine

/-! ### Faults that are latched (12, R309 to R315) -/

section
variable (s : State)

theorem setPending_stacksStand (cls : Nat) (hub : Bool) (region : Nat) (r : Option FaultRecord) : StacksStand s (setPending s cls hub region r) := by
  unfold setPending
  exact .ite (.ite (.of_eq rfl rfl rfl) (.of_eq rfl rfl rfl)) (.ite (.of_eq rfl rfl rfl) (.of_eq rfl rfl rfl))

theorem modLog_stacksStand (seq : Nat) (f : FaultRecord → FaultRecord) : StacksStand s (modLog s seq f) := .of_eq rfl rfl rfl

theorem logFault_stacksStand (r : FaultRecord) : StacksStand s (logFault s r).1 := by
  unfold logFault
  extract_lets r log fault logged
  have hlogged : StacksStand s logged := .of_eq rfl rfl rfl
  clear_value logged
  exact hlogged.trans (.of_eq rfl rfl rfl)

theorem latchAt_stacksStand (f : FaultIn) (fuel cls : Nat) (r : FaultRecord) : StacksStand s (latchAt fuel s f cls r).st := by
  have hescalated : ∀ (s : State) (cls : Nat) (f : FaultIn),
      StacksStand s (if cls == 1 && !f.hub then modRegFault s f.region (fun x => { x with escalation := true }) else s) :=
    fun s _ _ => .ite (.of_eq rfl rfl rfl) (.refl s)
  fun_induction latchAt fuel s f cls r with
  | case1 => exact (logFault_stacksStand ..).trans (setPending_stacksStand ..)
  | case2 => exact ((logFault_stacksStand ..).trans (setPending_stacksStand ..)).trans (modLog_stacksStand ..)
  | case3 => exact hescalated ..
  | case4 s f cls r q _ _ _ n ih => exact (hescalated s cls f).trans ih

theorem amend_stacksStand (f : FaultIn) (seq : Nat) (g : FaultRecord → FaultRecord) : StacksStand s (amend s f seq g) := by
  unfold amend
  extract_lets put copy life copied
  have hcopied : StacksStand s copied := .of_eq rfl rfl rfl
  exact (hcopied.trans (modLog_stacksStand ..)).trans (.foldl (fun s c => setPending_stacksStand s ..) _ _)

theorem latch_stacksStand (f : FaultIn) : StacksStand s (latch s f).st := by
  unfold latch
  extract_lets cls r l held
  have hl : StacksStand s l.st := latchAt_stacksStand ..
  exact .ite (hl.trans (amend_stacksStand ..)) hl

/-- HALT changes no stack but in its counts. -/
theorem uncounted_halt (p : Nat) : (stackOf (halt s) p).uncounted = (stackOf s p).uncounted :=
  (stopWork_stacksStand (lifeAdd { s with fault := { s.fault with halted := true } } 0x0B0 1) Sts.moduleHalted).stack p

/-! ### The loss of the temperature path (05, R130; 12, Table 12.10) -/

/-- A stack without its temperature path: the lowest rate, the halved refresh interval. -/
def pathLost (x : Stack) : Stack := { x with tempFenced := true, thermalLimit := 2, refresh2x := true }

theorem reaction_tempPathFail (again : State → FaultIn → State) {f : FaultIn} (h : f.cause = Cause.tempPathFail) (seq : Nat) (held : Bool) :
    reaction again s f seq held = unitOut (modStack s (5 * f.region + f.unit % 2048) pathLost) f held := by
  unfold reaction
  rw [if_pos h]
  rfl

/-- A fault has been latched, and HALT with it where it was escalated so far. -/
def latched (s : State) (f : FaultIn) : State := if (latch s f).halt && !s.fault.halted then halt (latch s f).st else (latch s f).st

theorem uncounted_latched (f : FaultIn) (p : Nat) : (stackOf (latched s f) p).uncounted = (stackOf s p).uncounted := by
  unfold latched
  split
  · rw [uncounted_halt, (latch_stacksStand s f).stack]
  · exact (latch_stacksStand s f).stack p

theorem raise_eq (f : FaultIn) : raise s f =
    answerWaits (tagWithheld (reaction (raiseN 4) (latched s f) f (latch s f).seq (latch s f).escalated) (latch s f).record) := by
  have hfuel : raiseN 5 s f = raiseN (4 + 1) s f := rfl
  rw [raise, hfuel, raiseN, latched]

theorem uncounted_tempPathFail (p : Nat) :
    (stackOf (raiseR s (p / 5) (unitId Kind.stackTemp (p % 5)) Cause.tempPathFail) p).uncounted = pathLost (stackOf s p).uncounted := by
  have hnamed : 5 * (p / 5) + unitId Kind.stackTemp (p % 5) % 2048 = p := by simp only [unitId]; omega
  have hstack : ∀ t f held record, stackOf (tagWithheld (unitOut t f held) record) p = stackOf t p := fun _ _ _ _ => rfl
  rw [raiseR, raise_eq, (answerWaits_sameStores _).stackOf, reaction_tempPathFail _ _ rfl, hstack, hnamed, stackOf_modStack_same]
  exact congrArg pathLost (uncounted_latched ..)

/-! ### Readings (05, R129, R130) -/

/-- What a reading makes of the thermal limit and of the run of cool readings (05, Table 5.10). -/
theorem thermalAfter_spec (x : Stack) (t : Nat) : (x.tempFenced = true → (thermalAfter x t).1 = 2) ∧ (x.tempFenced = false →
    (100 ≤ t → (thermalAfter x t).1 = 2) ∧ (95 ≤ t → t < 100 → (thermalAfter x t).1 = max 1 x.thermalLimit) ∧
    (90 < t → t < 95 → (thermalAfter x t).1 = x.thermalLimit ∧ (thermalAfter x t).2 = 0) ∧
    (t ≤ 90 → x.coolReadings + 1 < 100 → (thermalAfter x t).1 = x.thermalLimit ∧ (thermalAfter x t).2 = x.coolReadings + 1) ∧
    (t ≤ 90 → 100 ≤ x.coolReadings + 1 → (thermalAfter x t).1 = x.thermalLimit - 1 ∧ (thermalAfter x t).2 = 0)) := by
  unfold thermalAfter
  refine ⟨fun h => by simp [h], fun h => ⟨fun h100 => ?hot, fun h95 h100 => ?warm, fun h90 h95 => ?middle, fun h90 hrun => ?cool, fun h90 hrun => ?step⟩⟩
  case hot => simp [h, h100]
  case warm => simp [h, h95, Nat.not_le.mpr h100]
  case middle => simp [h, Nat.not_le.mpr h90, Nat.not_le.mpr h95, show ¬100 ≤ t by omega]
  case cool => simp [h, h90, Nat.not_le.mpr hrun, show ¬100 ≤ t by omega, show ¬95 ≤ t by omega]
  case step => simp [h, h90, hrun, show ¬100 ≤ t by omega, show ¬95 ≤ t by omega]

theorem stackOf_goodReading (p t : Nat) : stackOf (goodReading s p t) p = { stackOf s p with
    temp := t, tempFails := 0, refresh2x := (stackOf s p).tempFenced || decide (85 < t), thermalLimit := (thermalAfter (stackOf s p) t).1,
    coolReadings := (thermalAfter (stackOf s p) t).2, lastHot := decide (95 ≤ t) } := by
  unfold goodReading
  extract_lets x counted
  have hcounted : stackOf counted p = stackOf s p := by
    unfold counted
    split <;> rfl
  rw [stackOf_modStack_same, hcounted]

theorem goodReading_power (p t : Nat) : (goodReading s p t).power = s.power := by
  unfold goodReading
  extract_lets x counted
  have hcounted : counted.power = s.power := by
    unfold counted
    split <;> rfl
  rw [modStack_power, hcounted]

/-- A stack after one more failed reading: the halved refresh interval. -/
def readingFailed (x : Stack) : Stack := { x with refresh2x := true, tempFails := x.tempFails + 1 }

/-- A failed reading, of which the tenth in a row takes the temperature path. -/
theorem uncounted_failedReading (p : Nat) : (stackOf (failedReading s p) p).uncounted =
    if (stackOf s p).tempFails + 1 = 10 ∧ (stackOf s p).tempFenced = false then pathLost (readingFailed (stackOf s p).uncounted)
    else readingFailed (stackOf s p).uncounted := by
  unfold failedReading
  extract_lets noted
  have hnoted : stackOf noted p = readingFailed (stackOf s p) := by
    unfold noted
    rw [stackOf_noteR, stackOf_modStack_same]
    rfl
  clear_value noted
  rw [hnoted]
  split
  next htenth => rw [if_pos ⟨htenth.1, (Bool.not_eq_true' _).mp htenth.2⟩, uncounted_tempPathFail, hnoted]; rfl
  next hearlier => rw [if_neg (fun htenth => hearlier ⟨htenth.1, (Bool.not_eq_true' _).mpr htenth.2⟩), hnoted]; rfl

/-! ### Owner limits (05, Table 5.13) -/

/-- An owner limit that waits applies, but during a change of rate. -/
def ownerLimited (x : Stack) : Stack := if x.st = .rateChange then x else { x with ownerLimit := x.newLimit.getD x.ownerLimit, newLimit := none }

theorem ownerLimited_limitWaits (x : Stack) : (ownerLimited x).limitWaits = x.limitWaits := by
  unfold ownerLimited
  split <;> rfl

theorem applyLimit_spec (p : Nat) : (∃ w, stackOf (applyLimit s p) p = { ownerLimited (stackOf s p) with limitWaits := w } ∧ (w = (stackOf s p).limitWaits ∨ w = [])) ∧
    (applyLimit s p).power = s.power := by
  unfold applyLimit
  extract_lets x limited
  by_cases hst : x.st = .rateChange
  · have howner : stackOf s p = ownerLimited (stackOf s p) := (if_pos hst).symm
    rw [if_pos hst]
    exact ⟨⟨(ownerLimited (stackOf s p)).limitWaits, howner, .inl (ownerLimited_limitWaits _)⟩, rfl⟩
  · have hlimited : stackOf limited p = ownerLimited (stackOf s p) := by rw [ownerLimited, if_neg hst]; exact stackOf_modStack_same ..
    have hpower : limited.power = s.power := rfl
    clear_value limited
    rw [if_neg hst]
    split
    · exact ⟨⟨(ownerLimited (stackOf s p)).limitWaits, hlimited, .inl (ownerLimited_limitWaits _)⟩, hpower⟩
    · have hanswered := answerLimits_sameStores x.limitWaits (modStack limited p (fun x => { x with limitWaits := [] }))
      exact ⟨⟨[], by rw [hanswered.stackOf, stackOf_modStack_same, hlimited], .inr rfl⟩, hanswered.power.trans hpower⟩

/-! ### Warnings and trips (15, R367, R368) -/

theorem warn_spec : (warn s).mem = s.mem ∧ (warn s).power.stage = s.power.stage ∧ (warn s).power.thermtrip = s.power.thermtrip := by
  unfold warn
  repeat' split
  all_goals exact ⟨rfl, rfl, rfl⟩

theorem tearPlace_sameStores (w : FwWork) : SameStores s (tearPlace s w) := by
  unfold tearPlace putFlash
  exact ⟨rfl, rfl, rfl, rfl⟩

theorem stopImages_sameStores : SameStores s (stopImages s) := by
  unfold stopImages
  extract_lets torn
  have htorn : SameStores s torn := by
    unfold torn
    split
    · exact .ite (.refl s) (tearPlace_sameStores ..)
    · exact .refl s
  clear_value torn
  have hstopped : SameStores torn { torn with hub := { torn.hub with fwWork := [] } } := ⟨rfl, rfl, rfl, rfl⟩
  exact (htorn.trans hstopped).trans (.foldl (fun s w => finish_sameStores s ..) _ _)

/-- Power goes down with READY released. -/
theorem beginPowerDown_spec (cause : Nat) : (beginPowerDown s cause).power = { s.power with halting := true, stage := .poweringDown, downAt := s.time.clock } ∧
    (beginPowerDown s cause).hub.ready = false := by
  unfold beginPowerDown
  extract_lets hub power begun answered
  have hbegun : begun.power = { s.power with halting := true, stage := .poweringDown, downAt := s.time.clock } := rfl
  have hstopped := stopWork_stacksStand begun Sts.notReady
  have hanswered : SameStores (stopWork begun Sts.notReady) answered := (stopImages_sameStores _).trans (answerWaits_sameStores _)
  have hrecorded : ∀ t, (checkpointRec (eventRec (lifeAdd t 0x010 1) 0x04 (leBytes 1 cause))).power = t.power ∧
      (checkpointRec (eventRec (lifeAdd t 0x010 1) 0x04 (leBytes 1 cause))).hub = t.hub := fun _ => ⟨rfl, rfl⟩
  obtain ⟨hpower, hhub⟩ := hrecorded answered
  clear_value answered begun
  rw [hpower, hhub, hanswered.power, hanswered.ready, hstopped.power, hstopped.ready]
  exact ⟨hbegun, rfl⟩

/-- A trip while the firmware runs: THERMTRIP_N is asserted, and power goes down. -/
theorem trip_spec (hruns : s.power.stage = .running) :
    (trip s).power.thermtrip = true ∧ (s.power.thermtrip = false → (trip s).power.stage = .poweringDown ∧ (trip s).hub.ready = false) := by
  by_cases h : s.power.thermtrip = true
  · rw [trip, if_pos h]
    exact ⟨h, fun hno => absurd h (by simp [hno])⟩
  · obtain ⟨t, hstage, hterm, htrip⟩ : ∃ t : State, t.power.stage = .running ∧ t.power.thermtrip = true ∧ trip s = powerDown t :=
      ⟨lifeAdd { s with power := { s.power with thermtrip := true, tripped := true, resetting := false } } 0x038 1, hruns, rfl, if_neg h⟩
    have hdown : powerDown t = beginPowerDown t 1 := by rw [powerDown, hstage]
    obtain ⟨hpower, hready⟩ := beginPowerDown_spec t 1
    rw [htrip, hdown, hpower]
    exact ⟨hterm, fun _ => ⟨rfl, hready⟩⟩

end

/-! ### STACK_TEMP_READ (05, R129, R130, R137) -/

section
variable {s : State} {p : Nat}

theorem exec_stackTempRead (hoff : (stackOf s p).st ≠ .off) (hfenced : (stackOf s p).st ≠ .fenced) (reading : Option Nat) :
    exec (.stackTempRead p reading) s =
      .next (if 105 ≤ reading.getD 0 then trip (warn (applyLimit (match reading with | some t => goodReading s p t | none => failedReading s p) p))
        else warn (applyLimit (match reading with | some t => goodReading s p t | none => failedReading s p) p)) :=
  when_true (by rw [stackPowered, bne_iff_ne.mpr hoff, bne_iff_ne.mpr hfenced]; rfl)

theorem ownerLimited_eq (x : Stack) : ownerLimited x = { x with
    ownerLimit := if x.st = .rateChange then x.ownerLimit else x.newLimit.getD x.ownerLimit, newLimit := if x.st = .rateChange then x.newLimit else none } := by
  unfold ownerLimited
  split <;> rfl

/-- What a reading leaves of its stack, once waiting limits and the warning have followed it. -/
theorem stackOf_warn_applyLimit (s : State) (p : Nat) : ∃ w, (w = (stackOf s p).limitWaits ∨ w = []) ∧
    stackOf (warn (applyLimit s p)) p = { stackOf s p with
      ownerLimit := if (stackOf s p).st = .rateChange then (stackOf s p).ownerLimit else (stackOf s p).newLimit.getD (stackOf s p).ownerLimit
      newLimit := if (stackOf s p).st = .rateChange then (stackOf s p).newLimit else none
      limitWaits := w } := by
  obtain ⟨⟨w, hstack, hw⟩, -⟩ := applyLimit_spec s p
  obtain ⟨hmem, -, -⟩ := warn_spec (applyLimit s p)
  refine ⟨w, hw, ?_⟩
  rw [stackOf, hmem, ← stackOf, hstack, ownerLimited_eq]

/-- A reading below the trip value is held (05, R129, Table 5.10). -/
theorem exec_stackTempRead_good (hoff : (stackOf s p).st ≠ .off) (hfenced : (stackOf s p).st ≠ .fenced) {t : Nat} (ht : t < 105) :
    ∃ u w, exec (.stackTempRead p (some t)) s = .next u ∧ (w = (stackOf s p).limitWaits ∨ w = []) ∧ stackOf u p = { stackOf s p with
      temp := t, tempFails := 0, refresh2x := (stackOf s p).tempFenced || decide (85 < t), lastHot := decide (95 ≤ t),
      coolReadings := (thermalAfter (stackOf s p) t).2, thermalLimit := (thermalAfter (stackOf s p) t).1,
      ownerLimit := if (stackOf s p).st = .rateChange then (stackOf s p).ownerLimit else (stackOf s p).newLimit.getD (stackOf s p).ownerLimit
      newLimit := if (stackOf s p).st = .rateChange then (stackOf s p).newLimit else none
      limitWaits := w } := by
  obtain ⟨w, hw, hstack⟩ := stackOf_warn_applyLimit (goodReading s p t) p
  rw [stackOf_goodReading] at hw hstack
  exact ⟨_, w, (exec_stackTempRead hoff hfenced (some t)).trans (congrArg _ (if_neg (Nat.not_le.mpr ht))), hw, hstack⟩

/-- A reading of 105 °C trips (15, R368). -/
theorem exec_stackTempRead_trips (hoff : (stackOf s p).st ≠ .off) (hfenced : (stackOf s p).st ≠ .fenced) {t : Nat} (ht : 105 ≤ t)
    (hruns : s.power.stage = .running) : ∃ u, exec (.stackTempRead p (some t)) s = .next u ∧ u.power.thermtrip = true ∧
      (s.power.thermtrip = false → u.power.stage = .poweringDown ∧ u.hub.ready = false) := by
  obtain ⟨-, hpower⟩ := applyLimit_spec (goodReading s p t) p
  obtain ⟨-, hstage, hterm⟩ := warn_spec (applyLimit (goodReading s p t) p)
  rw [hpower, goodReading_power] at hstage hterm
  obtain ⟨htrip, hdown⟩ := trip_spec (warn (applyLimit (goodReading s p t) p)) (hstage.trans hruns)
  rw [hterm] at hdown
  exact ⟨_, (exec_stackTempRead hoff hfenced (some t)).trans (congrArg _ (if_pos ht)), htrip, hdown⟩

/-- What errors of stored data do not change. -/
theorem temps_of_uncounted {x y : Stack} (h : x.uncounted = y.uncounted) : x.temp = y.temp ∧ x.tempFails = y.tempFails ∧ x.refresh2x = y.refresh2x ∧
    x.tempFenced = y.tempFenced ∧ x.thermalLimit = y.thermalLimit := by
  have htemp := congrArg Stack.temp h
  have hfails := congrArg Stack.tempFails h
  have hrefresh := congrArg Stack.refresh2x h
  have hfenced := congrArg Stack.tempFenced h
  have hlimit := congrArg Stack.thermalLimit h
  exact ⟨htemp, hfails, hrefresh, hfenced, hlimit⟩

/-- A stack after one more failed reading, the tenth in a row of which takes its temperature path. -/
def afterFailure (x : Stack) : Stack := if x.tempFails + 1 = 10 ∧ x.tempFenced = false then pathLost (readingFailed x) else readingFailed x

theorem uncounted_afterFailure (x : Stack) : (afterFailure x).uncounted =
    if x.tempFails + 1 = 10 ∧ x.tempFenced = false then pathLost (readingFailed x.uncounted) else readingFailed x.uncounted := by
  unfold afterFailure
  split <;> rfl

theorem afterFailure_spec (x : Stack) : (afterFailure x).temp = x.temp ∧ (afterFailure x).tempFails = x.tempFails + 1 ∧ (afterFailure x).refresh2x = true ∧
    (x.tempFails + 1 = 10 → (afterFailure x).tempFenced = true) ∧ (x.tempFails + 1 = 10 → x.tempFenced = false → (afterFailure x).thermalLimit = 2) ∧
    (x.tempFails + 1 ≠ 10 → (afterFailure x).tempFenced = x.tempFenced ∧ (afterFailure x).thermalLimit = x.thermalLimit) := by
  unfold afterFailure
  split
  next htenth => exact ⟨rfl, rfl, rfl, fun _ => rfl, fun _ _ => rfl, fun hearlier => absurd htenth.1 hearlier⟩
  next hother =>
    have hstays : x.tempFails + 1 = 10 → x.tempFenced = true := fun htenth => Bool.of_not_eq_false fun hno => hother ⟨htenth, hno⟩
    exact ⟨rfl, rfl, rfl, hstays, fun htenth hno => absurd ⟨htenth, hno⟩ hother, fun _ => ⟨rfl, rfl⟩⟩

/-- A failed reading halves the refresh interval; the tenth in a row fences the temperature path (05, R130). -/
theorem exec_stackTempRead_failed (hoff : (stackOf s p).st ≠ .off) (hfenced : (stackOf s p).st ≠ .fenced) : ∃ u, exec (.stackTempRead p none) s = .next u ∧
    (stackOf u p).temp = (afterFailure (stackOf s p)).temp ∧ (stackOf u p).tempFails = (afterFailure (stackOf s p)).tempFails ∧
    (stackOf u p).refresh2x = (afterFailure (stackOf s p)).refresh2x ∧ (stackOf u p).tempFenced = (afterFailure (stackOf s p)).tempFenced ∧
    (stackOf u p).thermalLimit = (afterFailure (stackOf s p)).thermalLimit := by
  obtain ⟨w, -, hstack⟩ := stackOf_warn_applyLimit (failedReading s p) p
  have htemps := temps_of_uncounted ((uncounted_failedReading s p).trans (uncounted_afterFailure _).symm)
  refine ⟨_, (exec_stackTempRead hoff hfenced none).trans (congrArg _ (if_neg (by decide))), ?_⟩
  rw [hstack]
  exact htemps

end

end Sys2Proof.Machine

section
open Sys2Proof Sys2Proof.Machine

/-- Settles O24: readings by their temperature, self-refresh and changes of rate by what they leave of the channels, and the start of a stack. -/
theorem stackStatesAndTemperatures : Obligations.StackStatesAndTemperatures := by
  unfold Obligations.StackStatesAndTemperatures
  refine ⟨?readings, ?states⟩
  case readings =>
    intro s p t x hoff hfenced
    refine ⟨fun ht => ?_, exec_stackTempRead_trips hoff hfenced, ?_⟩
    · obtain ⟨u, w, hexec, hw, hstack⟩ := exec_stackTempRead_good hoff hfenced ht
      obtain ⟨hlost, hlimit⟩ := thermalAfter_spec x t
      exact ⟨u, _, _, w, hexec, hstack, hw, hlost, hlimit⟩
    · obtain ⟨u, hexec, htemp, hfails, hrefresh, hpath, hlimit⟩ := exec_stackTempRead_failed hoff hfenced
      refine ⟨u, hexec, ?_⟩
      rw [htemp, hfails, hrefresh, hpath, hlimit]
      exact afterFailure_spec x
  case states =>
    intro s p c l now x interval
    refine ⟨?entry, ?exit, exec_rateChangeStart, exec_rateChangeStart_sliced, exec_rateChangeStart_stays, ?rate, ?training, ?metadata⟩
    case entry =>
      intro d hruns hidle hretrain hrefresh hroom hlimit hlong
      obtain ⟨hchan, hpchan⟩ := sleepChan_spec s p c
      exact ⟨_, exec_selfRefreshEntry hruns hidle hretrain hrefresh hroom hlimit hlong, hchan, hpchan, sleepChan_onlyChans s p c⟩
    case exit =>
      intro hasleep hidle htested
      obtain ⟨hchan, hpchan⟩ := wakeChan_spec s p c
      refine ⟨_, exec_selfRefreshExit hasleep hidle htested, hchan, fun pc hpc b _ => ?_, wakeChan_onlyChans s p c⟩
      rw [refreshAt, (hpchan pc hpc).1, hchan]
      rfl
    case rate =>
      intro hrate
      obtain ⟨t, w, hexec, hstack, hw, hchan, hpchan, hfault⟩ := exec_rateChangeDone hrate
      obtain ⟨hnew, hawake, hnote⟩ := newRate_spec s p
      obtain ⟨hcases, hserving⟩ := stateAfterRate_cases s p
      rw [hnew] at hstack
      rw [hnote] at hfault
      refine ⟨t, stateAfterRate s p, w, hexec, hstack, hcases, hserving, hw, fun _ c hc htested => ?_, by rw [hfault], by rw [hfault]⟩
      obtain ⟨⟨due, hchan'⟩, hrows⟩ := hawake c hc htested
      rw [hchan c, hchan']
      exact ⟨rfl, rfl, rfl, fun pc hpc => by rw [hpchan, hrows pc hpc]⟩
    case training =>
      intro htraining
      obtain ⟨hstack, htrained⟩ := serveStack_spec s p (stackOf s p).logicalId
      exact ⟨⟨_, exec_stackTrained htraining, hstack, htrained⟩, exec_stackUntrained htraining⟩
    case metadata =>
      intro hserved hready hdone
      exact ⟨_, exec_metadataWriteDone hserved hready hdone, List.mem_append_right _ (List.mem_singleton_self l), rfl,
        fun a hlo hhi => readByte_bytesOutside_of_mem _ hlo hhi, fun a h => readByte_bytesOutside_of_not_mem _ h⟩

end

/-! Chunks of a stripe as they are stored (05, R116; 06, R143): what each reads as after some of them were written. -/

namespace Sys2Proof.Machine

/-! ### One chunk -/

theorem chunkAddr_eq (p stripe pos : Nat) : chunkAddr p stripe pos = chunkAddr p stripe 0 + 256 * pos := by
  simp only [chunkAddr, chunkNo]
  omega

section
variable {s : State} {p stripe pos : Nat}

theorem storedLine_storeChunk_same (hwf : Memory.wf s.mem.bytes) (d : Line) : storedLine (storeChunk s p stripe pos d) p stripe pos = d := by
  have hread := readRange_writeRange hwf (chunkAddr p stripe pos) (lineBytes d)
  rw [lineBytes_length] at hread
  exact (congrArg bytesLine hread).trans (bytesLine_lineBytes d)

@[simp] theorem storedLine_sabDrop (l other : Nat) : storedLine (sabDrop s l other) p stripe pos = storedLine s p stripe pos := rfl
@[simp] theorem sabDrop_bytes (l : Nat) : (sabDrop s l stripe).mem.bytes = s.mem.bytes := rfl

theorem storeChunk_wf (hwf : Memory.wf s.mem.bytes) (d : Line) : Memory.wf (storeChunk s p stripe pos d).mem.bytes := Memory.wf_write _ _ hwf

/-- Bytes outside a chunk read as before it was stored. -/
theorem readByte_storeChunk {a : Nat} (h : a < chunkAddr p stripe pos ∨ chunkAddr p stripe (pos + 1) ≤ a) (d : Line) :
    readByte (storeChunk s p stripe pos d).mem.bytes a = readByte s.mem.bytes a := by
  refine (readByte_writeRange ..).trans (if_neg ?_)
  rw [chunkAddr_eq p stripe (pos + 1), chunkAddr_eq p stripe pos] at h
  rw [lineBytes_length, chunkAddr_eq p stripe pos]
  omega

theorem storedLine_storeChunk_of_ne (hwf : Memory.wf s.mem.bytes) {other : Nat} (h : other ≠ pos) (d : Line) :
    storedLine (storeChunk s p stripe pos d) p stripe other = storedLine s p stripe other := by
  rw [storedLine, storedLine, readRange_eq (storeChunk_wf hwf d), readRange_eq hwf]
  refine congrArg bytesLine (List.map_congr_left fun a ha => readByte_storeChunk ?_ d)
  have hplace := List.mem_range'_1.mp ha
  rw [chunkAddr_eq p stripe other] at hplace
  rw [chunkAddr_eq p stripe (pos + 1), chunkAddr_eq p stripe pos]
  omega

end

/-! ### Some chunks of a stripe -/

/-- Chunks of one stripe are stored, each at its position. -/
def storeChunks (p stripe : Nat) (xs : List (Nat × Line)) (s : State) : State := xs.foldl (fun s x => storeChunk s p stripe x.1 x.2) s

section
variable {p stripe : Nat} {xs : List (Nat × Line)} {s : State}

theorem storeChunks_cons (x : Nat × Line) : storeChunks p stripe (x :: xs) s = storeChunks p stripe xs (storeChunk s p stripe x.1 x.2) := List.foldl_cons ..

theorem storedLine_storeChunks_of_not_mem {pos : Nat} (hwf : Memory.wf s.mem.bytes) (h : pos ∉ xs.map Prod.fst) :
    storedLine (storeChunks p stripe xs s) p stripe pos = storedLine s p stripe pos := by
  induction xs generalizing s with
  | nil => rfl
  | cons x xs ih =>
    rw [List.map_cons, List.mem_cons, not_or] at h
    rw [storeChunks_cons, ih (storeChunk_wf hwf x.2) h.2, storedLine_storeChunk_of_ne hwf h.1]

/-- Each chunk stored reads back. -/
theorem storedLine_storeChunks {x : Nat × Line} (hwf : Memory.wf s.mem.bytes) (hnodup : (xs.map Prod.fst).Nodup) (h : x ∈ xs) :
    storedLine (storeChunks p stripe xs s) p stripe x.1 = x.2 := by
  induction xs generalizing s with
  | nil => cases h
  | cons y xs ih =>
    obtain ⟨hy, hxs⟩ := List.nodup_cons.mp hnodup
    rw [storeChunks_cons]
    rcases List.mem_cons.mp h with rfl | h
    · rw [storedLine_storeChunks_of_not_mem (storeChunk_wf hwf x.2) hy, storedLine_storeChunk_same hwf]
    · exact ih (storeChunk_wf hwf y.2) hxs h

/-- Bytes outside the chunks stored read as before. -/
theorem readByte_storeChunks {n a : Nat} (ha : a < chunkAddr p stripe 0 ∨ chunkAddr p stripe n ≤ a) (h : ∀ x ∈ xs, x.1 < n) :
    readByte (storeChunks p stripe xs s).mem.bytes a = readByte s.mem.bytes a := by
  induction xs generalizing s with
  | nil => rfl
  | cons x xs ih =>
    obtain ⟨hx, hxs⟩ := List.forall_mem_cons.mp h
    rw [storeChunks_cons, ih hxs]
    refine readByte_storeChunk ?_ x.2
    rw [chunkAddr_eq p stripe n] at ha
    rw [chunkAddr_eq p stripe (x.1 + 1), chunkAddr_eq p stripe x.1]
    omega

end

end Sys2Proof.Machine

/-! A stripe written whole (06, R144, R153): it commits without reading, where its stack serves alone and every channel of it can be used. -/

namespace Sys2Proof.Machine

/-! ### A stack that serves alone (06, R147, R149, R167; 14, R350) -/

/-- A stack alone serves a logical stack, and each of its channels can be used: no copy runs, no channel is fenced, under test or in its walk. -/
structure ServesAlone (s : State) (l p : Nat) : Prop where
  served : servedBy s l = some p
  alone : tget? s.mem.evacs (l / 4) = none
  unfenced : (stackOf s p).fencedChans = []
  untested : (bistOf s (p / 5)).current = none
  unwalked : (bistOf s (p / 5)).walking = none

namespace ServesAlone

theorem storeChunk {s : State} {l p : Nat} (h : ServesAlone s l p) (stripe pos : Nat) (d : Line) : ServesAlone (storeChunk s p stripe pos d) l p :=
  ⟨h.served, h.alone, h.unfenced, h.untested, h.unwalked⟩

theorem storeChunks {s : State} {l p : Nat} (h : ServesAlone s l p) (stripe : Nat) (xs : List (Nat × Line)) : ServesAlone (storeChunks p stripe xs s) l p := by
  induction xs generalizing s with
  | nil => exact h
  | cons x xs ih => rw [storeChunks_cons]; exact ih (h.storeChunk ..)

theorem sabDrop {s : State} {l p : Nat} (h : ServesAlone s l p) (k stripe : Nat) : ServesAlone (sabDrop s k stripe) l p :=
  ⟨h.served, h.alone, h.unfenced, h.untested, h.unwalked⟩

section
variable {s : State} {l p : Nat} (h : ServesAlone s l p) (stripe pos : Nat)
include h

theorem evacOf : evacOf s l = none := by rw [Machine.evacOf, h.alone]
theorem readStack : readStack s l stripe = some p := by rw [Machine.readStack, h.served, h.evacOf]
theorem writeStacks : writeStacks s l stripe = [p] := by rw [Machine.writeStacks, h.served, h.evacOf]
theorem chanFenced (c : Nat) : chanFenced s p c stripe = false := by simp [Machine.chanFenced, h.unfenced]
theorem chanTested (c : Nat) : chanTested s p c = false := by rw [Machine.chanTested, h.untested]
theorem chanListed (c : Nat) : chanListed s p c l stripe = false := by simp [Machine.chanListed, h.untested, h.unwalked]
theorem posGone : posGone s l p stripe pos = false := by simp [Machine.posGone, chanAside, h.chanFenced, h.chanTested, h.chanListed]
theorem doubleFenced : doubleFenced s p stripe = false := by simp [Machine.doubleFenced, h.chanFenced]

theorem putChunk (d : Line) : putChunk s l stripe pos (some d) = Machine.storeChunk s p stripe pos d := by
  simp [Machine.putChunk, h.writeStacks, h.posGone]

theorem putParity (d : Line) (noValue : Nat → Bool) : putParity s l stripe d noValue = Machine.storeChunk s p stripe 16 d := by
  simp [Machine.putParity, h.writeStacks, h.posGone]

theorem listCatchUp : listCatchUp s l stripe = s := by
  simp [Machine.listCatchUp, h.writeStacks, h.chanTested]

end
end ServesAlone

/-! ### An entry that holds its stripe whole (06, R150, R153) -/

/-- Words merged one after another from the first on. -/
theorem getLsbD_foldl_mergeWords (old new : Line) (i : Nat) : ∀ n,
    ((List.range n).foldl (fun d w => mergeWords d new w 1) old).getLsbD i = if i < 64 * n then new.getLsbD i else old.getLsbD i
  | 0 => by simp
  | n + 1 => by
    rw [List.range_succ, List.foldl_append, List.foldl_cons, List.foldl_nil, getLsbD_mergeWords _ _ _ (by decide), getLsbD_foldl_mergeWords old new i n]
    by_cases hlast : 64 * n ≤ i ∧ i < 64 * (n + 1)
    · rw [if_pos hlast, if_pos hlast.2]
    · rw [if_neg hlast]
      exact ite_congr (by rw [eq_iff_iff]; omega) (fun _ => rfl) (fun _ => rfl)

/-- An entry holds all 16 chunks of its stripe, whole and without POISON. -/
structure SabEntry.Whole (e : SabEntry) : Prop where
  mask : ∀ k < 16, e.mask.getD k 0 = BitVec.allOnes 32
  bad : ∀ k < 16, e.bad.getD k 0 = 0
  poison : e.poison = 0

/-- The new parity of a stripe that an entry holds whole (06, R144). -/
def SabEntry.parity (e : SabEntry) : Line := (List.range 16).foldl (fun x k => x ^^^ e.data.getD k 0) 0

/-- The data chunks of a stripe that an entry holds whole, as a commit makes them, and by position. -/
def SabEntry.newWhole (e : SabEntry) : List NewChunk := (List.range 16).map fun k => { pos := k, new := some (e.data.getD k 0) }
def SabEntry.dataChunks (e : SabEntry) : List (Nat × Line) := (List.range 16).map fun k => (k, e.data.getD k 0)

/-- All 17 chunks of the stripe. -/
def SabEntry.chunks (e : SabEntry) : List (Nat × Line) := e.dataChunks ++ [(16, e.parity)]

theorem SabEntry.data_mem_chunks (e : SabEntry) {k : Nat} (hk : k < 16) : (k, e.data.getD k 0) ∈ e.chunks := by
  rw [chunks, dataChunks]
  exact List.mem_append_left _ (List.mem_map_of_mem (List.mem_range.mpr hk))

theorem SabEntry.parity_mem_chunks (e : SabEntry) : (16, e.parity) ∈ e.chunks := by
  rw [chunks]
  exact List.mem_append_right _ (List.mem_singleton_self _)

theorem SabEntry.map_fst_chunks (e : SabEntry) : e.chunks.map Prod.fst = List.range 17 := by
  rw [chunks, List.map_append, dataChunks, List.map_map]
  rfl

theorem SabEntry.beyond_of_mask {e : SabEntry} {k : Nat} (h : e.mask.getD k 0 = BitVec.allOnes 32) (old : Line) : e.beyond k old = e.data.getD k 0 := by
  have hall : e.beyond k old = (List.range 32).foldl (fun d w => mergeWords d (e.data.getD k 0) w 1) old := by
    refine List.foldl_ext _ _ _ fun d w hw => if_pos ?_
    rw [h, BitVec.testBit_toNat, BitVec.getLsbD_allOnes]
    exact decide_eq_true (List.mem_range.mp hw)
  refine BitVec.eq_of_getLsbD_eq fun i hi => ?_
  rw [hall, getLsbD_foldl_mergeWords, if_pos hi]

/-- Steps that each append an item and leave the state build the list of the items. -/
theorem foldl_append_fixed {α β σ : Type} {f : List α × σ → β → List α × σ} {g : β → α} {s : σ} : ∀ {l : List β} {acc : List α},
    (∀ acc, ∀ x ∈ l, f (acc, s) x = (acc ++ [g x], s)) → l.foldl f (acc, s) = (acc ++ l.map g, s)
  | [], acc, _ => by simp
  | x :: l, acc, h => by
    obtain ⟨hx, hl⟩ : (∀ acc, f (acc, s) x = (acc ++ [g x], s)) ∧ ∀ acc, ∀ y ∈ l, f (acc, s) y = (acc ++ [g y], s) :=
      ⟨fun acc => h acc x List.mem_cons_self, fun acc y hy => h acc y (List.mem_cons_of_mem x hy)⟩
    rw [List.foldl_cons, hx, foldl_append_fixed hl, List.map_cons, List.append_assoc, List.singleton_append]

/-- The new chunks of a stripe written whole, and its parity, are stored. -/
theorem commitWrite_of_servesAlone {s : State} {e : SabEntry} {p : Nat} (hserves : ServesAlone s e.lstack p) :
    commitWrite s e p e.newWhole (some e.parity) = storeChunks p e.stripe e.chunks s := by
  have hput : ∀ (ks : List Nat) {t : State}, ServesAlone t e.lstack p →
      (ks.map fun k => ({ pos := k, new := some (e.data.getD k 0) } : NewChunk)).foldl (fun s c => putChunk s e.lstack e.stripe c.pos c.new) t =
        storeChunks p e.stripe (ks.map fun k => (k, e.data.getD k 0)) t := by
    intro ks
    induction ks with
    | nil => exact fun _ => rfl
    | cons k ks ih =>
      intro t ht
      rw [List.map_cons, List.foldl_cons, ht.putChunk, ih (ht.storeChunk ..), List.map_cons, storeChunks_cons]
  have hchunks : storeChunks p e.stripe e.chunks s = storeChunk (storeChunks p e.stripe e.dataChunks s) p e.stripe 16 e.parity := List.foldl_append
  rw [hchunks, ← (hserves.storeChunks ..).putParity, SabEntry.dataChunks, ← hput _ hserves]
  rfl

section
variable {s : State} {e : SabEntry} {p : Nat} (hserves : ServesAlone s e.lstack p) (hwhole : e.Whole)
include hwhole

theorem SabEntry.Whole.full {k : Nat} (hk : k < 16) : e.full k = true := by rw [SabEntry.full, hwhole.mask k hk]; rfl

theorem SabEntry.Whole.touched {k : Nat} (hk : k < 16) : e.touched k = true := by rw [SabEntry.touched, hwhole.mask k hk]; rfl

theorem methodOf_of_whole : methodOf s e p = .fresh := by
  have hall : (List.range 16).all e.full = true := List.all_eq_true.mpr fun k hk => hwhole.full (List.mem_range.mp hk)
  simp only [methodOf, hall, Bool.true_or, if_true]

include hserves

/-- Nothing is read: each chunk is new, of the entry's own data. -/
theorem newChunks_of_whole : newChunks s e p = (e.newWhole, s) := by
  unfold newChunks
  refine foldl_append_fixed (g := fun k => ({ pos := k, new := some (e.data.getD k 0) } : NewChunk)) (acc := []) fun acc k hk => ?_
  replace hk := List.mem_range.mp hk
  simp only [hserves.doubleFenced, hwhole.touched hk, hwhole.full hk, hwhole.bad k hk, hwhole.poison, SabEntry.beyond_of_mask (hwhole.mask k hk)]
  simp

theorem commitEntry_of_whole : commitEntry s e = sabDrop (storeChunks p e.stripe e.chunks s) e.lstack e.stripe := by
  have hsum : e.newWhole.foldl (fun x c => x ^^^ c.new.getD 0) 0 = e.parity := List.foldl_map
  simp only [commitEntry, hserves.readStack, methodOf_of_whole hwhole, newChunks_of_whole hserves hwhole, hsum]
  rw [commitWrite_of_servesAlone hserves, ((hserves.storeChunks ..).sabDrop ..).listCatchUp]

/-- The data chunks hold the entry's data, the parity chunk their exclusive or, and no other byte changes (06, R144, R153). -/
theorem commitEntry_stores_whole (hwf : Memory.wf s.mem.bytes) : (∀ k < 16, storedLine (commitEntry s e) p e.stripe k = e.data.getD k 0) ∧
    storedLine (commitEntry s e) p e.stripe 16 = e.parity ∧
    ∀ a, a < chunkAddr p e.stripe 0 ∨ chunkAddr p e.stripe 17 ≤ a → readByte (commitEntry s e).mem.bytes a = readByte s.mem.bytes a := by
  have hnodup : (e.chunks.map Prod.fst).Nodup := by rw [e.map_fst_chunks]; exact List.nodup_range
  have hpos : ∀ x ∈ e.chunks, x.1 < 17 := fun x hx => List.mem_range.mp (by rw [← e.map_fst_chunks]; exact List.mem_map_of_mem hx)
  have hstored : ∀ {k d}, (k, d) ∈ e.chunks → storedLine (commitEntry s e) p e.stripe k = d := fun h => by
    rw [commitEntry_of_whole hserves hwhole, storedLine_sabDrop]
    exact (storedLine_storeChunks hwf hnodup h :)
  refine ⟨fun k hk => hstored (e.data_mem_chunks hk), hstored e.parity_mem_chunks, fun a ha => ?_⟩
  rw [commitEntry_of_whole hserves hwhole, sabDrop_bytes]
  exact readByte_storeChunks ha hpos

end

end Sys2Proof.Machine

/-! What work on stored data leaves of stripe locks and of the stripe buffer (06, R150, R156): no lock falls, and no entry opens. -/

namespace Sys2Proof.Machine

/-- No stripe lock falls and no entry of the stripe buffer opens. -/
structure LocksStand (s t : State) : Prop where
  locks : s.mem.locks ⊆ t.mem.locks
  entries : ∀ l stripe, sabAt s l stripe = none → sabAt t l stripe = none

namespace LocksStand

theorem refl (s : State) : LocksStand s s := ⟨List.Subset.refl _, fun _ _ h => h⟩

theorem trans {s t u : State} (h : LocksStand s t) (k : LocksStand t u) : LocksStand s u :=
  ⟨List.Subset.trans h.locks k.locks, fun l stripe hs => k.entries l stripe (h.entries l stripe hs)⟩

theorem ite {s t u : State} {c : Prop} [Decidable c] (ht : LocksStand s t) (hu : LocksStand s u) : LocksStand s (if c then t else u) := by
  split <;> assumption

theorem ite_snd {β : Type} {s : State} {a b : β × State} {c : Prop} [Decidable c] (ha : LocksStand s a.2) (hb : LocksStand s b.2) :
    LocksStand s (if c then a else b).2 := by
  split <;> assumption

theorem foldl {α : Type} {f : State → α → State} (hf : ∀ s x, LocksStand s (f s x)) : ∀ (l : List α) (s : State), LocksStand s (l.foldl f s)
  | [], s => .refl s
  | x :: l, s => (hf s x).trans (foldl hf l (f s x))

/-- Steps that hand on a value beside the state. -/
theorem foldl_snd {α β : Type} {f : β × State → α → β × State} (hf : ∀ a x, LocksStand a.2 (f a x).2) :
    ∀ (l : List α) (a : β × State), LocksStand a.2 (l.foldl f a).2
  | [], a => .refl a.2
  | x :: l, a => (hf a x).trans (foldl_snd hf l (f a x))

/-- An update of parts that hold neither locks nor entries. -/
theorem of_eq {s t : State} (hlocks : t.mem.locks = s.mem.locks) (hsab : t.mem.sab = s.mem.sab) : LocksStand s t :=
  ⟨fun _ h => hlocks ▸ h, fun l stripe h => by rw [sabAt, hsab]; exact h⟩

theorem of_onlyChans {s t : State} (h : OnlyChans s t) : LocksStand s t :=
  .of_eq (congrArg (fun u => u.mem.locks) h) (congrArg (fun u => u.mem.sab) h)

theorem of_mem {s t : State} (h : t.mem = s.mem) : LocksStand s t := .of_eq (by rw [h]) (by rw [h])

end LocksStand

section
variable (s : State)

/-! ### Slices and NOTEs (12, R311; 14, R345) -/

theorem askWidth_mem (w : Nat) : (askWidth s w).mem = s.mem := by
  have hasked : ∀ f, SameStores s (modDl s f) := fun _ => ⟨rfl, rfl, rfl, rfl⟩
  have hsent : ∀ t r, SameStores t (emit t r) := fun _ _ => ⟨rfl, rfl, rfl, rfl⟩
  have hstores : SameStores s (askWidth s w) := .ite ((hasked _).trans ((dlBefore_sameStores ..).trans (hsent ..))) (.refl s)
  exact hstores.mem

theorem noteR_locksStand (region unit cause detail : Nat) : LocksStand s (noteR s region unit cause detail) := .of_mem (noteR_mem ..)

/-- The end of a slice touches its own channel of the stacks (14, R345, R349). -/
theorem sliceOver_locksStand (k outcome : Nat) : LocksStand s (sliceOver s k outcome) := by
  unfold sliceOver
  extract_lets b
  split
  · exact .refl s
  next u seg since _ _ =>
    extract_lets closed counted freed awake asked
    have hclosed : closed.mem = s.mem := rfl
    clear_value closed
    have hcounted : counted.mem = closed.mem := by
      unfold counted
      repeat' split
      all_goals rfl
    clear_value counted
    have hfreed : freed.mem = counted.mem := by unfold freed; split <;> rfl
    clear_value freed
    have hawake : LocksStand freed awake := by
      unfold awake
      split
      · exact .of_onlyChans ((loadTiming_onlyChans ..).trans (wakeChan_onlyChans ..))
      · exact .refl _
    clear_value awake
    have hasked : LocksStand awake asked := .ite (.of_mem (askWidth_mem ..)) (.refl _)
    clear_value asked
    have hended : ∀ e f, LocksStand asked (if (channelUnit u).isSome && !b.catchUp.isEmpty then modBist asked k f else sliceEntry asked k e) := fun e f => by
      refine .ite (.of_mem rfl) ?_
      unfold sliceEntry
      exact .ite (.of_mem rfl) (.of_mem rfl)
    exact (((LocksStand.of_mem (hfreed.trans (hcounted.trans hclosed))).trans hawake).trans hasked).trans (hended ..)

/-! ### Errors of stored data (06, R148, R157 to R160) -/

theorem rowTrigger_locksStand (p c place : Nat) : LocksStand s (rowTrigger s p c place) := by
  unfold rowTrigger
  extract_lets r triggered
  have htriggered : LocksStand s triggered := .ite (.of_eq rfl rfl) (.refl s)
  exact htriggered.trans (.ite (.refl _) (.of_eq rfl rfl))

theorem blot_locksStand (p c place word bit source : Nat) : LocksStand s (blot s p c place word bit source) := by
  unfold blot
  extract_lets k pos counted b same fresh put least old oldest i replaced entered entries
  have hcounted : LocksStand s counted := .of_eq rfl rfl
  have hput : ∀ b, LocksStand counted (put counted b) := fun _ => .of_eq rfl rfl
  have hentered : LocksStand counted entered := .ite (hput _) (.ite (hput _) (.ite (hput _) ((hput _).trans (noteR_locksStand ..))))
  exact (hcounted.trans hentered).trans (.ite (rowTrigger_locksStand ..) (.refl _))

theorem blotAll_locksStand (p stripe pos source : Nat) (fixed : List (Nat × Nat)) : LocksStand s (blotAll s p stripe pos source fixed) :=
  .foldl (fun s _ => blot_locksStand s ..) fixed s

theorem logPoison_locksStand (e : PoisonEntry) : LocksStand s (logPoison s e) := by
  unfold logPoison
  obtain ⟨_, _, hnote⟩ := note_eq { s with mem := { s.mem with poisonOverflow := satInc 32 s.mem.poisonOverflow, poisonNoted := true } } true 0 0 Cause.poisonLogFull 0
  refine .ite (.of_eq rfl rfl) (.ite (.of_eq rfl rfl) ?_)
  rw [noteHub, hnote]
  exact .of_eq rfl rfl

theorem loseChunk_locksStand (l p stripe pos cause : Nat) : LocksStand s (loseChunk s l p stripe pos cause) := by
  unfold loseChunk
  extract_lets own e logged counted
  have hlogged : LocksStand s logged := logPoison_locksStand ..
  have hcounted : LocksStand logged counted := .of_eq rfl rfl
  exact (hlogged.trans hcounted).trans (noteR_locksStand ..)

/-! ### Chunks written (06, R143, R145, R153) -/

theorem burstsTo_locksStand (p stripe pos : Nat) (write : Option Line) : LocksStand s (burstsTo s p stripe pos write) := .of_eq rfl rfl
theorem storeChunk_locksStand (p stripe pos : Nat) (d : Line) : LocksStand s (storeChunk s p stripe pos d) := .of_eq rfl rfl
theorem storeMark_locksStand (p stripe pos : Nat) : LocksStand s (storeMark s p stripe pos) := .of_eq rfl rfl

theorem putChunk_locksStand (l stripe pos : Nat) (d : Option Line) : LocksStand s (putChunk s l stripe pos d) := by
  refine .foldl (fun s p => .ite (.refl s) ?_) _ s
  cases d with
  | some d => exact storeChunk_locksStand ..
  | none => exact storeMark_locksStand ..

theorem putParity_locksStand (l stripe : Nat) (d : Line) (noValue : Nat → Bool) : LocksStand s (putParity s l stripe d noValue) :=
  .foldl (fun s _ => .ite (.refl s) (.ite (storeMark_locksStand ..) (storeChunk_locksStand ..))) _ s

theorem stripeLoss_locksStand (l p stripe : Nat) : LocksStand s (stripeLoss s l p stripe) := by
  unfold stripeLoss
  extract_lets lost old marked parity
  have hmarked : LocksStand s marked := .foldl (fun s k => putChunk_locksStand s ..) lost s
  have hparity : LocksStand marked parity := putParity_locksStand ..
  exact (hmarked.trans hparity).trans (.foldl (fun s k => loseChunk_locksStand s ..) _ _)

/-- A corrective rewrite that is scheduled asks for a lock and makes an entry due (06, R147, R152, R156). -/
theorem schedule_locksStand (l stripe pos : Nat) (d : Line) : LocksStand s (schedule s l stripe pos d) := by
  unfold schedule
  extract_lets kept sab _ scheduled
  have hscheduled : LocksStand s scheduled := by
    refine ⟨List.Subset.refl _, fun l' stripe' h => ?_⟩
    have hsame : (fun e : SabEntry => e.lstack == l' && e.stripe == stripe') ∘ (fun e => if e.lstack == l && e.stripe == stripe then { e with due := true } else e) =
        fun e => e.lstack == l' && e.stripe == stripe' := funext fun e => by rw [Function.comp_apply]; split <;> rfl
    show sab.find? _ = none
    rw [List.find?_map, hsame]
    exact Option.map_eq_none_iff.mpr h
  exact .ite (.refl s) (.ite hscheduled (hscheduled.trans ⟨List.subset_append_left _ _, fun _ _ h => h⟩))

/-! ### Chunks read (06, R147, R393; 14, R351) -/

theorem rebuild_locksStand (l p stripe pos source : Nat) : LocksStand s (rebuild s l p stripe pos source).2 := by
  unfold rebuild
  extract_lets v par read x
  have hread : LocksStand s read := (burstsTo_locksStand ..).trans (blotAll_locksStand ..)
  have hx : LocksStand read x.2 := by
    refine .foldl_snd (fun a k => ?_) (List.range 16) (some par.data, read)
    obtain ⟨y, t⟩ := a
    cases y with
    | none => exact .refl t
    | some y =>
      refine .ite_snd (.refl t) (.ite_snd (.refl t) ?_)
      extract_lets r met blotted
      have hmet : LocksStand t met := burstsTo_locksStand ..
      have hblotted : LocksStand met blotted := blotAll_locksStand ..
      exact hmet.trans (.ite_snd (.refl met) (hblotted.trans (.ite_snd (.refl blotted) (.refl blotted))))
  clear_value x
  exact .ite_snd (.refl s) (hread.trans hx)

theorem rebuildOrLose_locksStand (l p stripe pos source : Nat) : LocksStand s (rebuildOrLose s l p stripe pos source).2 := by
  unfold rebuildOrLose
  extract_lets x
  have hx : LocksStand s x.2 := rebuild_locksStand ..
  split
  · exact hx
  · exact hx.trans (stripeLoss_locksStand ..)

theorem readDirect_locksStand (l p stripe pos source : Nat) : LocksStand s (readDirect s l p stripe pos source).2 := by
  unfold readDirect
  extract_lets read r blotted kept tested x stamps
  have hread : LocksStand s read := burstsTo_locksStand ..
  have hblotted : LocksStand read blotted := blotAll_locksStand ..
  have htested : LocksStand blotted tested := .ite (sliceOver_locksStand ..) (.refl _)
  have hx : LocksStand tested x.2 := rebuildOrLose_locksStand ..
  clear_value stamps x tested blotted read
  refine hread.trans (.ite_snd (.refl read) (hblotted.trans (.ite_snd (htested.trans ?_) (.ite_snd (.refl _) (schedule_locksStand ..)))))
  split
  · have hcounted : LocksStand x.2 (stackLife (modStack x.2 p (fun x => { x with ueRebuilt := satInc 32 x.ueRebuilt, ueStamps := stamps })) p 0x008 1) := .of_eq rfl rfl
    exact (hx.trans hcounted).trans (schedule_locksStand ..)
  · exact hx

theorem readChunk_locksStand (l stripe pos source : Nat) : LocksStand s (readChunk s l stripe pos source).2 := by
  unfold readChunk
  refine .ite_snd (.refl s) ?_
  split
  · exact .refl s
  · refine .ite_snd (readDirect_locksStand ..) (.ite_snd (.refl s) (.ite_snd ?_ (.ite_snd (.refl s) (rebuildOrLose_locksStand ..))))
    exact (sliceOver_locksStand ..).trans (readDirect_locksStand ..)

theorem rebuildParity_locksStand (l p stripe source : Nat) : LocksStand s (rebuildParity s l p stripe source).2 := by
  unfold rebuildParity
  exact .ite_snd (stripeLoss_locksStand ..) (.foldl_snd (β := Line) (fun a k => readChunk_locksStand a.2 l stripe k source) (List.range 16) (0, s))

/-! ### Commits (06, R152, R153; 14, R350) -/

theorem listCatchUp_locksStand (l stripe : Nat) : LocksStand s (listCatchUp s l stripe) := by
  refine .foldl (fun s p => ?_) _ s
  extract_lets k listed
  have hlisted : LocksStand s listed := .of_eq rfl rfl
  exact .ite (.ite (hlisted.trans (sliceOver_locksStand ..)) hlisted) (.refl s)

theorem sabAt_sabDrop (l stripe : Nat) : sabAt (sabDrop s l stripe) l stripe = none := by
  refine List.find?_eq_none.mpr fun e he => ?_
  obtain ⟨-, hkept⟩ := List.mem_filter.mp he
  exact Bool.not_eq_true _ ▸ (Bool.not_eq_true' _).mp hkept

/-- An entry that commits is gone (06, R152). -/
theorem sabAt_commitEntry (e : SabEntry) : sabAt (commitEntry s e) e.lstack e.stripe = none := by
  unfold commitEntry
  extract_lets l st
  split
  · exact sabAt_sabDrop ..
  · exact (listCatchUp_locksStand ..).entries _ _ (sabAt_sabDrop ..)

/-! ### Patrol (06, R145, R161, R163, R393) -/

theorem scrubChunk_locksStand (l p stripe k : Nat) : LocksStand s (scrubChunk l p stripe s k) := by
  unfold scrubChunk
  extract_lets e marked
  have hmarked : LocksStand s marked := .ite (storeMark_locksStand ..) (.refl s)
  exact .ite (.refl s) (hmarked.trans (readChunk_locksStand ..))

theorem scrubParity_locksStand (l p stripe : Nat) : LocksStand s (scrubParity s l p stripe) := by
  unfold scrubParity
  extract_lets par blotted x
  have hblotted : LocksStand s blotted := blotAll_locksStand ..
  have hx : LocksStand blotted x.2 := rebuildParity_locksStand ..
  have hrewritten : ∀ d f, LocksStand blotted (modStack (putChunk blotted l stripe 16 d) p f) := fun d _ =>
    (putChunk_locksStand blotted l stripe 16 d).trans (.of_eq rfl rfl)
  clear_value x blotted
  refine .ite (.refl s) (.ite (.ite (storeMark_locksStand ..) (.refl s)) (hblotted.trans (.ite (hx.trans ?rebuilt) (.ite ?mismatch (.ite (.refl _) ?corrected)))))
  case rebuilt =>
    split
    · exact putChunk_locksStand ..
    · exact .refl _
  case mismatch => exact (hrewritten ..).trans (noteR_locksStand ..)
  case corrected => exact schedule_locksStand ..

theorem scrubChunks_locksStand (l p stripe : Nat) : ∀ (n : Nat) (s : State), LocksStand s (scrubChunks l p stripe n s)
  | 0, s => .refl s
  | n + 1, s => by
    unfold scrubChunks
    extract_lets i
    have hpassed : ∀ t f, LocksStand t (modStack t p f) := fun _ _ => .of_eq rfl rfl
    have hread : LocksStand s (if i < 16 then scrubChunk l p stripe s i else scrubParity s l p stripe) := .ite (scrubChunk_locksStand ..) (scrubParity_locksStand ..)
    exact .ite (.refl s) ((hread.trans (hpassed ..)).trans (scrubChunks_locksStand l p stripe n _))

end

end Sys2Proof.Machine

/-! Stripe entries and stripe locks (06, R152, R153, R156). -/

namespace Sys2Proof.Machine

section
variable {s : State} {l stripe : Nat}

theorem exec_stripeEntryHoldExpiry {e : SabEntry} (hentry : sabAt s l stripe = some e) (hdue : e.openedAt + 25000 ≤ s.time.clock) :
    exec (.stripeEntryHoldExpiry l stripe) s = .next (sabPut s { e with due := true }) := by
  show execStripeEntryHoldExpiry l stripe s = _
  rw [execStripeEntryHoldExpiry, hentry]
  exact when_true (passed_iff.mpr hdue)

theorem exec_stripeCommit {e : SabEntry} (hentry : sabAt s l stripe = some e) (hdue : e.due = true) (hunlocked : stripeLocked s l stripe = false) :
    exec (.stripeCommit l stripe) s = .next (commitEntry s e) := by
  show execStripeCommit l stripe s = _
  rw [execStripeCommit, hentry]
  exact when_true (by rw [hdue, hunlocked]; rfl)

/-- A request for a stripe's lock, by the number of its requester (04, Table 4.15). -/
def asksLock (s : State) (l stripe i : Nat) : Bool := s.mem.locks.any (fun k => k.lstack == l && k.stripe == stripe && k.kind == lockKinds.getD i .scrub)

/-- A free lock goes to the request that the pointer finds, once the open entry has committed. -/
theorem exec_stripeLockGrant {i : Nat} (hunlocked : stripeLocked s l stripe = false)
    (hnext : rotate 6 (tget s.mem.lockPtrs (l * 2 ^ 24 + stripe) 0) (asksLock s l stripe) = some i) :
    exec (.stripeLockGrant l stripe) s = .next { commitOpen s l stripe with mem := { (commitOpen s l stripe).mem with
      lockPtrs := tset (commitOpen s l stripe).mem.lockPtrs (l * 2 ^ 24 + stripe) ((i + 1) % 6)
      locks := (commitOpen s l stripe).mem.locks.map (fun k =>
        if k.lstack == l && k.stripe == stripe && k.kind == lockKinds.getD i .scrub then { k with held := true } else k) } } := by
  unfold asksLock at hnext
  show execStripeLockGrant l stripe s = _
  simp only [execStripeLockGrant, hnext]
  exact when_true (by rw [hunlocked]; rfl)

end

end Sys2Proof.Machine

section
open Sys2Proof Sys2Proof.Machine

/-- Settles O25: each event by what it does to the entry and the lock, and a stripe written whole by the 17 chunks that its commit stores. -/
theorem stripesCommit : Obligations.StripesCommit := by
  unfold Obligations.StripesCommit
  refine ⟨?events, ?whole⟩
  case events =>
    refine fun s l stripe e => ⟨exec_stripeEntryHoldExpiry, fun hentry hdue hunlocked => ?commit, fun i hunlocked => exec_stripeLockGrant hunlocked⟩
    obtain ⟨-, hl, hstripe⟩ := sabAt_of_some hentry
    refine ⟨_, exec_stripeCommit hentry hdue hunlocked, rfl, ?_⟩
    rw [← hl, ← hstripe]
    exact sabAt_commitEntry s e
  case whole =>
    intro s e p hserved halone hunfenced huntested hunwalked hchunks hpoison hwf
    exact commitEntry_stores_whole ⟨hserved, halone, hunfenced, huntested, hunwalked⟩
      ⟨fun k hk => (hchunks k hk).1, fun k hk => (hchunks k hk).2, hpoison⟩ hwf

end

/-! Corrective rewrites, row repair and scrubbing (06, R147, R156, R158, R159, R161 to R163). -/

namespace Sys2Proof.Machine

section
variable {s : State} {l stripe : Nat}

theorem commitOpen_of_none (h : sabAt s l stripe = none) : commitOpen s l stripe = s := by rw [commitOpen, h]

/-- Work on a stripe that no other holder wants and that has no open entry (06, R156). -/
theorem underLock_of_free {kind : LockKind} (hfree : lockFree s l stripe kind = true) (hentry : sabAt s l stripe = none) (act : State → State) :
    underLock s l stripe kind act = dropLock (act s) l stripe kind := by
  rw [underLock, if_pos hfree, commitOpen_of_none hentry]

@[simp] theorem stackOf_dropLock (s : State) (l stripe : Nat) (kind : LockKind) (p : Nat) : stackOf (dropLock s l stripe kind) p = stackOf s p := rfl
@[simp] theorem chanOf_dropLock (s : State) (l stripe : Nat) (kind : LockKind) (p c : Nat) : chanOf (dropLock s l stripe kind) p c = chanOf s p c := rfl

/-! ### Corrective rewrites (06, R147, R158) -/

/-- A scheduled rewrite, taken from its list, writes a chunk that still errs. -/
def rewriteDone (s : State) (l p stripe pos : Nat) (r : Rewrite) : State :=
  let t := { s with mem := { s.mem with rewrites := s.mem.rewrites.filter (· ≠ r) } }
  if showsError t p stripe pos then putChunk t l stripe pos (some r.data) else t

theorem exec_correctiveRewrite {p pos : Nat} {err : Bool} {r : Rewrite}
    (hfound : s.mem.rewrites.find? (fun r => r.lstack == l && r.stripe == stripe && r.pos == pos) = some r) (hread : readStack s l stripe = some p)
    (hzeroing : zeroingOn s l = false) (hruns : stackRuns (stackOf s p) = true) (hwindow : windowOpen s p (chanOfPos stripe pos) = true)
    (hfree : lockFree s l stripe .rewrite = true) (hentry : sabAt s l stripe = none) :
    exec (.correctiveRewrite l stripe pos err) s = .next (dropLock
      (if err then rowTrigger (rewriteDone s l p stripe pos r) p (chanOfPos stripe pos) (placeOf stripe pos) else rewriteDone s l p stripe pos r) l stripe .rewrite) := by
  have hne : (fun x => decide (x ≠ r)) = (fun x => x != r) := funext fun _ => decide_not
  show execCorrectiveRewrite l stripe pos err s = _
  simp only [execCorrectiveRewrite, hfound, hread, rewriteDone, hne]
  rw [underLock_of_free hfree hentry]
  exact when_true (by rw [hzeroing, hruns, hwindow]; rfl)

/-! ### Row repair (06, R158, R159) -/

section
variable {p c place : Nat} (hdue : ({ stack := p, chan := c, row := place >>> 2 } : RowRef) ∈ s.mem.rowsDue)
include hdue

/-- A row of a bank without a spare row is noted. -/
theorem exec_rowRepair_exhausted (hspare : Config.spareRows ≤ tget s.mem.repairs (bankNo p c place) 0) : exec (.rowRepair p c place) s =
    .next (noteR (modStack (rowDone s { stack := p, chan := c, row := place >>> 2 }) p (fun x => { x with repairExhausted := true })) (p / 5) (stackUnit p) Cause.rowRepairExhausted) := by
  have hlisted := List.contains_iff_mem.mpr hdue
  show execRowRepair p c place s = _
  simp only [execRowRepair, hlisted, Bool.not_true, Bool.false_eq_true, if_false, if_pos hspare]

theorem exec_rowRepair (hspare : tget s.mem.repairs (bankNo p c place) 0 < Config.spareRows) (hwindow : windowFor s p c (placePc place) 1000 = true)
    (hzeroing : zeroingOn s ((stackServes s p).getD 16) = false) (hroom : reservedRoom s (p / 5) 4 = true)
    (hfree : ∀ x ∈ heldChunks s p c (place >>> 2), lockFree s ((stackServes s p).getD 16) x.1 .rowRepair = true) :
    exec (.rowRepair p c place) s = .next (repairRow (rowDone s { stack := p, chan := c, row := place >>> 2 }) p c place) := by
  have hlisted := List.contains_iff_mem.mpr hdue
  have hunblocked : (heldChunks s p c (place >>> 2)).filter (fun x => !lockFree s ((stackServes s p).getD 16) x.1 .rowRepair) = [] :=
    List.filter_eq_nil_iff.mpr fun x hx => by simp [hfree x hx]
  have hopen : windowFor s p c (placePc place) (us 4) = true := hwindow
  show execRowRepair p c place s = _
  simp only [execRowRepair, hlisted, hunblocked, Bool.not_true, Bool.false_eq_true, if_false, if_neg (Nat.not_le.mpr hspare)]
  exact when_true (by rw [hopen, hzeroing, hroom]; rfl)

end

/-! ### Scrubbing (06, R161 to R163) -/

theorem patrolHolds_of_unheld (hunheld : ∀ k ∈ s.mem.locks, k.lstack = l → k.kind = .scrub → k.held = false) : patrolHolds s l stripe = false := by
  refine List.any_eq_false.mpr fun k hk hholds => ?_
  simp only [Bool.and_eq_true, beq_iff_eq] at hholds
  obtain ⟨⟨⟨hl, -⟩, hkind⟩, hheld⟩ := hholds
  rw [hunheld k hk hl hkind] at hheld
  cases hheld

/-- A patrol that holds no lock goes on to the next stripe in use. -/
theorem patrolStripe_of_unheld (hunheld : ∀ k ∈ s.mem.locks, k.lstack = l → k.kind = .scrub → k.held = false) (ptr : Nat) :
    patrolStripe s l ptr = (nextUsed s l ptr, s) := by
  have hmine : ∀ k ∈ s.mem.locks, (k.lstack == l && k.kind == LockKind.scrub && k.held) = false := fun k hk => by
    refine Bool.eq_false_iff.mpr fun hmine => ?_
    simp only [Bool.and_eq_true, beq_iff_eq] at hmine
    obtain ⟨⟨hl, hkind⟩, hheld⟩ := hmine
    rw [hunheld k hk hl hkind] at hheld
    cases hheld
  have hnone : s.mem.locks.find? (fun k => k.lstack == l && k.kind == LockKind.scrub && k.held) = none :=
    List.find?_eq_none.mpr fun k hk => by rw [hmine k hk]; exact Bool.false_ne_true
  have hall : ∀ st, s.mem.locks.filter (fun k => !(k.lstack == l && k.kind == LockKind.scrub && k.held && k.stripe != st)) = s.mem.locks := fun st =>
    List.filter_eq_self.mpr fun k hk => by rw [hmine k hk]; rfl
  simp only [patrolStripe, hnone, hall]

theorem holdsLock_keepLock (s : State) (l stripe : Nat) (kind : LockKind) : holdsLock (keepLock s l stripe kind) l stripe kind = true := by
  refine List.any_eq_true.mpr ⟨_, List.mem_append_right _ (List.mem_singleton_self _), ?_⟩
  simp

/-- A lock that stands is still held. -/
theorem LocksStand.holdsLock {t : State} {kind : LockKind} (h : LocksStand s t) (hheld : holdsLock s l stripe kind = true) : holdsLock t l stripe kind = true := by
  obtain ⟨k, hk, hmine⟩ := List.any_eq_true.mp hheld
  exact List.any_eq_true.mpr ⟨k, h.locks hk, hmine⟩

/-- The patrol has passed a stripe, or keeps its lock for the rest of its chunks (06, R161, R163). -/
theorem scrubStripe_cases {p : Nat} (hmine : patrolHolds s l stripe = true ∨ patrolWaits s p l stripe 0 = false) (hfree : lockFree s l stripe .scrub = true) :
    (stackOf (scrubStripe l p stripe s) p).scrubPointer = stripe + 1 ∧ (stackOf (scrubStripe l p stripe s) p).scrubChunk = 0 ∨
    (stackOf (scrubStripe l p stripe s) p).scrubChunk < 17 ∧ holdsLock (scrubStripe l p stripe s) l stripe .scrub = true := by
  have hgoes : ¬((!patrolHolds s l stripe && patrolWaits s p l stripe 0) = true) := by
    rcases hmine with h | h <;> simp [h]
  unfold scrubStripe
  extract_lets mine begun scrubbed
  have hholds : holdsLock scrubbed l stripe .scrub = true := (scrubChunks_locksStand ..).holdsLock (holdsLock_keepLock ..)
  clear_value scrubbed
  rw [if_neg hgoes, hfree, Bool.not_true, if_neg Bool.false_ne_true]
  split
  next hleft => exact .inr ⟨hleft, hholds⟩
  next =>
    rw [stackOf_modStack_same]
    exact .inl ⟨rfl, rfl⟩

section
variable {p next : Nat} (hmapped : (stackOf s p).mapped = true) (hruns : stackRuns (stackOf s p) = true) (hl : (stackOf s p).logicalId = l)
  (hunheld : ∀ k ∈ s.mem.locks, k.lstack = l → k.kind = .scrub → k.held = false) (hroom : reservedRoom s (p / 5) 1 = true)
  (hnext : nextUsed s l (stackOf s p).scrubPointer = next)
include hmapped hruns hl hunheld hroom hnext

theorem exec_scrubStripe_next : exec (.scrubStripe p) s = .next (if next < 15790304 then scrubStripe l p next s else passDone s p) := by
  show execScrubStripe p s = _
  simp only [execScrubStripe, hl, patrolStripe_of_unheld hunheld, hnext, stripeCount]
  exact when_true (by rw [hmapped, hruns, hroom]; rfl)

/-- The patrol waits for other scrub work (06, R163). -/
theorem exec_scrubStripe_waits (hused : next < 15790304) (hwaits : patrolWaits s p l next 0 = true) : exec (.scrubStripe p) s = .next s := by
  rw [exec_scrubStripe_next hmapped hruns hl hunheld hroom hnext, if_pos hused]
  refine congrArg Host.Outcome.next (if_pos ?_)
  rw [patrolHolds_of_unheld hunheld, hwaits]
  rfl

end

/-- A pass that overruns its period is late (06, R162). -/
theorem exec_scrubPeriodEnd {p : Nat} (hmapped : (stackOf s p).mapped = true) (hlate : (stackOf s p).scrubStart + s.mem.scrubMin * 60 * 250000000 ≤ s.time.clock) :
    exec (.scrubPeriodEnd p) s = .next (modStack s p (fun x => { x with scrubLate := true })) := by
  have hsecond : second = 250000000 := rfl
  refine when_true ?_
  rw [hmapped, Bool.true_and, passed_iff, hsecond]
  exact hlate

end

end Sys2Proof.Machine

section
open Sys2Proof Sys2Proof.Machine

/-- Settles O26: the rewrite and the row repair by the state they leave, and the patrol by the stripe it takes next. -/
theorem storedDataUpkeep : Obligations.StoredDataUpkeep := by
  unfold Obligations.StoredDataUpkeep
  intro s p c l stripe pos place
  refine ⟨?rewrite, ?repair, ?scrub, ?period⟩
  case rewrite => exact fun r err hfound hread hzeroing hruns hwindow hfree => exec_correctiveRewrite hfound hread hzeroing hruns hwindow hfree.1 hfree.2
  case repair => exact fun hdue => ⟨exec_rowRepair_exhausted hdue, exec_rowRepair hdue⟩
  case scrub =>
    intro hmapped hruns hl hunheld hroom
    have hexec := exec_scrubStripe_next hmapped hruns hl hunheld hroom rfl
    refine ⟨exec_scrubStripe_waits hmapped hruns hl hunheld hroom rfl, fun hused hgoes hfree => ?stripe, fun hlast => ?pass⟩
    case stripe => exact ⟨_, hexec.trans (congrArg _ (if_pos hused)), rfl, scrubStripe_cases (.inr hgoes) hfree.1⟩
    case pass => exact hexec.trans (congrArg _ (if_neg (Nat.not_lt.mpr hlast)))
  case period => exact exec_scrubPeriodEnd

end

/-! A channel rejoins (06, R164). -/

namespace Sys2Proof.Machine

section
variable {s : State} {p c ptr : Nat} (hrejoin : (chanOf s p c).rejoin = some ptr)
include hrejoin

theorem exec_channelRejoinStep {next : Nat} (hmapped : (stackOf s p).mapped = true) (hruns : stackRuns (stackOf s p) = true)
    (hroom : reservedRoom s (p / 5) 1 = true) (hnext : nextUsed s (stackOf s p).logicalId ptr = next) (hused : next < 15790304) :
    exec (.channelRejoinStep p c) s = .next (
      if (posOfChan c next).isNone then modChan s p c (fun x => { x with rejoin := some (next + 1) })
      else underLock s (stackOf s p).logicalId next .rejoin (fun t =>
        modChan (rejoinStripe t p c (stackOf s p).logicalId next) p c (fun x => { x with rejoin := some (next + 1) }))) := by
  show execChannelRejoinStep p c s = _
  simp only [execChannelRejoinStep, hrejoin, hnext]
  exact when_true (by rw [hmapped, hruns, hroom]; exact decide_eq_true hused)

/-- After its last stripe the walk ends. -/
theorem exec_channelRejoined (hlast : 15790304 ≤ nextUsed s (stackOf s p).logicalId ptr) : exec (.channelRejoined p c) s = .next (rejoinDone s p c) := by
  show execChannelRejoined p c s = _
  simp only [execChannelRejoined, hrejoin]
  exact when_true (decide_eq_true hlast)

end

@[simp] theorem unitBack_mem (s : State) (hub : Bool) (region unit : Nat) : (unitBack s hub region unit).mem = s.mem := rfl

/-- The channel leaves CHANNELS_FENCED and serves, refreshed; the other fenced channels stay, and no byte changes. -/
theorem rejoinDone_spec (s : State) (p c : Nat) :
    (stackOf (rejoinDone s p c) p).fencedChans = (stackOf s p).fencedChans.filter (· != c) ∧
    chanOf (rejoinDone s p c) p c = { chanOf s p c with
      rejoin := none, rejoined := true, selfRefresh := false, lastActivity := s.time.clock, refreshBy := s.time.clock + refreshEvery (stackOf s p) } ∧
    (rejoinDone s p c).mem.bytes = s.mem.bytes := by
  unfold rejoinDone
  extract_lets served unfenced
  have hserved : chanOf served p c = { chanOf s p c with
      rejoin := none, rejoined := true, selfRefresh := false, lastActivity := s.time.clock, refreshBy := s.time.clock + refreshEvery (stackOf s p) } := by
    rw [chanOf_modChan_same, chanOf_refreshAll]
    rfl
  have hstack : stackOf served p = stackOf s p := rfl
  have hbytes : served.mem.bytes = s.mem.bytes := rfl
  clear_value served
  rw [stackOf, chanOf, unitBack_mem, noteR_mem, ← stackOf, ← chanOf, stackOf_modStack_same, chanOf_modStack, hstack, hserved]
  exact ⟨rfl, rfl, hbytes⟩

end Sys2Proof.Machine

/-! Evacuation to the spare stack (06, R165 to R168). -/

namespace Sys2Proof.Machine

/-! ### Both stacks (06, R166) -/

/-- Both stacks of an evacuation after an update of each. -/
theorem stackOf_modStack_both (s : State) {p q : Nat} (hne : p ≠ q) (f g : Stack → Stack) :
    stackOf (modStack (modStack s p f) q g) p = f (stackOf s p) ∧ stackOf (modStack (modStack s p f) q g) q = g (stackOf s q) ∧
    ∀ r, r ≠ p → r ≠ q → stackOf (modStack (modStack s p f) q g) r = stackOf s r := by
  simp only [stackOf_modStack, if_pos, if_neg hne, if_neg hne.symm]
  exact ⟨trivial, trivial, fun r hp hq => by rw [if_neg hq.symm, if_neg hp.symm]⟩

section
variable (s : State) (k : Nat) (e : Evac)

@[simp] theorem stackOf_setEvac (p : Nat) : stackOf (setEvac s k e) p = stackOf s p := rfl

theorem tget?_setEvac : tget? (setEvac s k e).mem.evacs k = some e := (tget?_tset ..).trans (if_pos rfl)

end

/-! ### The beginning (06, R165, R166) -/

/-- The channels of a stack take up timing sets; nothing else changes. -/
theorem loadTimings_eq (p : Nat) (l : List Nat) (s : State) :
    ∃ chans, l.foldl (fun s c => loadTiming s p c) s = { s with mem := { s.mem with chans := chans } } := by
  induction l generalizing s with
  | nil => exact ⟨_, rfl⟩
  | cons c l ih =>
    obtain ⟨chans, h⟩ := ih (loadTiming s p c)
    exact ⟨chans, h⟩

/-- Stacks of an evacuation that begins: the old one, and the spare at its rate. -/
def oldBegins (st : EvacState) (x : Stack) : Stack := { x with st := if x.st = .rateChange then x.st else .evacuating, evacState := st, evacPointer := 0 }
def spareBegins (st : EvacState) (rate : Nat) (x : Stack) : Stack := { x with st := .evacuating, evacState := st, evacPointer := 0, rate := rate }

/-- Both stacks of an evacuation have begun. -/
def stacksBegin (s : State) (e : Evac) (st : EvacState) : State :=
  modStack (modStack s e.old (oldBegins st)) e.spare (spareBegins st (stackOf s e.old).rate)

section
variable {s : State} {k : Nat} {e : Evac} (hne : e.old ≠ e.spare)

theorem oldBegins_of_serving {x : Stack} (h : x.st = .serving) (st : EvacState) : oldBegins st x = { x with st := .evacuating, evacState := st, evacPointer := 0 } := by
  rw [oldBegins, h]
  rfl

theorem exec_evacuationStart (hevac : tget? s.mem.evacs k = some e) (hstate : (stackOf s e.spare).evacState = .none) :
    exec (.evacuationStart k) s = .next (beginEvac s k e) := by
  show execEvacuationStart k s = _
  simp only [execEvacuationStart, hevac]
  exact when_true (by rw [evacBegun, hstate]; rfl)

/-- The rate of the old stack does not change as the evacuation begins. -/
theorem rate_oldBegins (st : EvacState) : (stackOf (modStack s e.old (oldBegins st)) e.old).rate = (stackOf s e.old).rate := by
  rw [stackOf_modStack_same]
  rfl

/-- A spare that a test has trained takes up the copy, on the timing set of its rate. -/
theorem beginEvac_of_tested (htested : (stackOf s e.spare).st = .serving) : ∃ chans,
    beginEvac s k e = setEvac { stacksBegin s e .copying with mem := { (stacksBegin s e .copying).mem with chans := chans } } k { e with copying := true } := by
  obtain ⟨chans, hloaded⟩ := loadTimings_eq e.spare (List.range 32) (stacksBegin s e .copying)
  refine ⟨chans, ?_⟩
  rw [← hloaded, stacksBegin, ← rate_oldBegins .copying]
  unfold beginEvac
  rw [htested]
  rfl

/-- Any other spare first trains. -/
theorem beginEvac_of_untested (hst : (stackOf s e.spare).st ≠ .serving) :
    beginEvac s k e = setEvac (stacksBegin s e .trainingSpare) k { e with copying := false } := by
  rw [stacksBegin, ← rate_oldBegins .trainingSpare]
  unfold beginEvac
  rw [beq_eq_false_iff_ne.mpr hst]
  rfl

/-! ### The spare has trained (05, R139; 06, R166) -/

theorem untrained_trainChans (p : Nat) (l : List Nat) (s : State) : untrained s (l.foldl (fun s c => trainChan s p c) s) = s := by
  induction l generalizing s with
  | nil => rfl
  | cons c l ih =>
    calc untrained s (l.foldl (fun s c => trainChan s p c) (trainChan s p c))
      _ = untrained s (untrained (trainChan s p c) (l.foldl (fun s c => trainChan s p c) (trainChan s p c))) := rfl
      _ = s := by rw [ih, untrained_trainChan]

/-- First passes touch self-test records alone (14, R346). -/
theorem firstPasses_eq (s : State) (p : Nat) : ∃ life, firstPasses s p = { s with life := life } := by
  unfold firstPasses
  split <;> exact ⟨_, rfl⟩

/-- Both stacks take up the copy at stripe 0, the spare at the rate of the old one. -/
def stacksCopy (s : State) (e : Evac) : State :=
  modStack (modStack s e.old (fun x => { x with evacState := .copying, evacPointer := 0 })) e.spare (spareBegins .copying (stackOf s e.old).rate)

theorem exec_spareTrained (hevac : tget? s.mem.evacs k = some e) (hbegun : (stackOf s e.spare).evacState ≠ .none) (hwaits : e.copying = false) :
    exec (.spareTrained k) s =
      .next (setEvac (firstPasses ((List.range 32).foldl (fun s c => trainChan s e.spare c) (stacksCopy s e)) e.spare) k { e with copying := true }) := by
  show execSpareTrained k s = _
  simp only [execSpareTrained, hevac]
  exact when_true (by rw [evacBegun, bne_iff_ne.mpr hbegun, hwaits]; rfl)

/-- What a trained spare leaves: the stacks that copy, and beside them only what training touches. -/
theorem spareTrained_spec : let t := setEvac (firstPasses ((List.range 32).foldl (fun s c => trainChan s e.spare c) (stacksCopy s e)) e.spare) k { e with copying := true }
    (∀ p, stackOf t p = stackOf (stacksCopy s e) p) ∧
    { t with time := s.time, life := s.life, mem := { t.mem with
      stackTab := s.mem.stackTab, evacs := s.mem.evacs, chans := s.mem.chans, pchans := s.mem.pchans, patterns := s.mem.patterns } } = s := by
  intro t
  have htrained := untrained_trainChans e.spare (List.range 32) (stacksCopy s e)
  obtain ⟨life, hpasses⟩ := firstPasses_eq ((List.range 32).foldl (fun s c => trainChan s e.spare c) (stacksCopy s e)) e.spare
  have ht : t = _ := congrArg (fun u => setEvac u k { e with copying := true }) hpasses
  rw [ht]
  generalize (List.range 32).foldl (fun s c => trainChan s e.spare c) (stacksCopy s e) = u at htrained
  have hstacks : ∀ p, stackOf (untrained (stacksCopy s e) u) p = stackOf (stacksCopy s e) p := fun p => by rw [htrained]
  have hframe := congrArg (fun v : State => { v with life := s.life, mem := { v.mem with stackTab := s.mem.stackTab, evacs := s.mem.evacs } }) htrained
  exact ⟨hstacks, hframe⟩

/-! ### The copy (06, R166, R167) -/

theorem exec_evacuationCopyStripe (hevac : tget? s.mem.evacs k = some e) (hcopying : e.copying = true) (hold : (stackOf s e.old).st ≠ .rateChange)
    (hspare : (stackOf s e.spare).st ≠ .rateChange) (hused : nextUsed s e.lstack e.pointer < 15790304) (hroom : reservedRoom s k 1 = true) :
    exec (.evacuationCopyStripe k) s = .next (copyStripe s k (nextUsed s e.lstack e.pointer) e) := by
  show execEvacuationCopyStripe k s = _
  simp only [execEvacuationCopyStripe, hevac]
  exact when_true (by rw [hcopying, bne_iff_ne.mpr hold, bne_iff_ne.mpr hspare, hroom]; exact decide_eq_true hused)

/-- The copy pointer passes the stripe copied, in the evacuation and on both stacks. -/
theorem copyStripe_spec {stripe : Nat} (hne : e.old ≠ e.spare) (hfree : lockFree s e.lstack stripe .copier = true) (hentry : sabAt s e.lstack stripe = none) :
    tget? (copyStripe s k stripe e).mem.evacs k = some { e with pointer := stripe + 1 } ∧
    (stackOf (copyStripe s k stripe e) e.old).evacPointer = stripe + 1 ∧ (stackOf (copyStripe s k stripe e) e.spare).evacPointer = stripe + 1 := by
  rw [copyStripe, underLock_of_free hfree hentry, stackOf_dropLock, stackOf_dropLock]
  extract_lets r stored oldPassed
  obtain ⟨hold, hspare, -⟩ := stackOf_modStack_both stored hne (fun x => { x with evacPointer := stripe + 1 }) (fun x => { x with evacPointer := stripe + 1 })
  rw [stackOf_setEvac, stackOf_setEvac, hold, hspare]
  exact ⟨tget?_setEvac .., rfl, rfl⟩

/-! ### Cutover (06, R168) -/

theorem exec_evacuationCutover (hevac : tget? s.mem.evacs k = some e) (hcopying : e.copying = true) (hold : (stackOf s e.old).st ≠ .rateChange)
    (hlast : 15790304 ≤ nextUsed s e.lstack e.pointer) : exec (.evacuationCutover k) s = .next (cutover s k e) := by
  show execEvacuationCutover k s = _
  simp only [execEvacuationCutover, hevac]
  exact when_true (by rw [hcopying, bne_iff_ne.mpr hold]; exact decide_eq_true hlast)

theorem replaced_mem (s : State) (hub : Bool) (region unit : Nat) : (replaced s hub region unit).mem = s.mem := by
  obtain ⟨_, _, hnote⟩ := note_eq (unitBack s hub region unit) hub region unit Cause.replacementDone unit
  rw [replaced, hnote]
  rfl

theorem stackReplaced_mem (s : State) (p : Nat) : (stackReplaced s p).mem = s.mem := by
  have hfold : ∀ (l : List OutUnit) (s : State), (l.foldl (fun s o => replaced s false o.region o.unit) s).mem = s.mem := by
    intro l
    induction l with
    | nil => exact fun _ => rfl
    | cons o l ih => exact fun s => (ih _).trans (replaced_mem ..)
  unfold stackReplaced
  extract_lets mine u
  split
  · exact replaced_mem ..
  · exact hfold ..

theorem stackOff_bytes (s : State) (p : Nat) : (stackOff s p).mem.bytes = s.mem.bytes := by
  have hanswered := answerLimits_sameStores (stackOf s p).limitWaits (modStack s p (fun x => { x with limitWaits := [], newLimit := none }))
  rw [stackOff, hanswered.mem]
  rfl

/-- At cutover the old stack is fenced and the spare serves the logical stack. -/
def stacksCutOver (s : State) (e : Evac) : State :=
  modStack (modStack s e.old (fun x => { x with mapped := false, st := .fenced, evacState := .done })) e.spare
    (fun x => { x with mapped := true, logicalId := e.lstack, st := .serving, evacState := .done, scrubPointer := 0, scrubStart := s.time.clock })

/-- The old stack is recorded as retired, its due repairs fall, and the evacuation ends. -/
def evacEnds (s : State) (k : Nat) (e : Evac) : State :=
  let s := stackFlags (recordRetired s e.old e.lstack e.cause) e.spare false true
  delEvac { s with mem := { s.mem with rowsDue := s.mem.rowsDue.filter (fun r => r.stack != e.old) } } k

theorem cutover_eq (s : State) (k : Nat) (e : Evac) : cutover s k e =
    e.waits.foldl (fun s h => finish s h Ord.evacuate Sts.success [BitVec.ofNat 8 EvacState.done.code])
      (evacEnds (stacksCutOver (stackOff (stackReplaced s e.old) e.old) e) k e) := rfl

theorem evacEnds_spec (s : State) (k : Nat) (e : Evac) :
    (∀ p, stackOf (evacEnds s k e) p = stackOf (modStack s e.old (fun x => { x with retired := true })) p) ∧
    tget? (evacEnds s k e).mem.evacs k = none ∧ (evacEnds s k e).mem.bytes = s.mem.bytes :=
  ⟨fun _ => rfl, tget?_tdel_same .., rfl⟩

/-- At cutover the spare alone serves the logical stack, and no byte changes; then the orders that waited are answered. -/
theorem cutover_spec (hne : e.old ≠ e.spare) : ∃ t, cutover s k e = e.waits.foldl (fun s h => finish s h Ord.evacuate Sts.success [BitVec.ofNat 8 EvacState.done.code]) t ∧
    tget? t.mem.evacs k = none ∧ (stackOf t e.old).mapped = false ∧ (stackOf t e.old).st = .fenced ∧ (stackOf t e.spare).mapped = true ∧
    (stackOf t e.spare).st = .serving ∧ (stackOf t e.spare).logicalId = e.lstack ∧ t.mem.bytes = s.mem.bytes := by
  have hoff : (stackOff (stackReplaced s e.old) e.old).mem.bytes = s.mem.bytes := by rw [stackOff_bytes, stackReplaced_mem]
  refine ⟨_, cutover_eq s k e, ?_⟩
  generalize stackOff (stackReplaced s e.old) e.old = u at hoff ⊢
  obtain ⟨hstacks, hevacs, hbytes⟩ := evacEnds_spec (stacksCutOver u e) k e
  have hcut : (stacksCutOver u e).mem.bytes = u.mem.bytes := rfl
  rw [hstacks, hstacks, hbytes, stackOf_modStack_same, stackOf_modStack, if_neg hne, stacksCutOver]
  obtain ⟨hold, hspare, -⟩ := stackOf_modStack_both u hne (fun x => { x with mapped := false, st := .fenced, evacState := .done })
    (fun x => { x with mapped := true, logicalId := e.lstack, st := .serving, evacState := .done, scrubPointer := 0, scrubStart := u.time.clock })
  rw [hold, hspare]
  exact ⟨hevacs, rfl, rfl, rfl, rfl, rfl, hcut.trans hoff⟩

/-! ### A spare that fails (06, R167) -/

theorem exec_evacuationAbandon (hevac : tget? s.mem.evacs k = some e) :
    exec (.evacuationAbandon k) s = .next (raiseR s k (unitId 0x02 (e.spare % 5)) Cause.spareFailed) := by
  show execEvacuationAbandon k s = _
  simp only [execEvacuationAbandon, hevac]
  rfl

end

end Sys2Proof.Machine

section
open Sys2Proof Sys2Proof.Machine

/-- Settles O27: the walk of a rejoin and of a copy by the stripe each passes, the beginning and the cutover by what they leave of both stacks. -/
theorem rejoinAndEvacuation : Obligations.RejoinAndEvacuation := by
  unfold Obligations.RejoinAndEvacuation
  refine ⟨?rejoin, ?evacuation⟩
  case rejoin =>
    intro s p c ptr hrejoin
    refine ⟨fun hmapped hruns hroom hused => ⟨fun hunused => ?passes, fun hposition hfree hentry => ?writes⟩, fun hlast => ?ends⟩
    case passes => rw [exec_channelRejoinStep hrejoin hmapped hruns hroom rfl hused, hunused]; rfl
    case writes =>
      rw [exec_channelRejoinStep hrejoin hmapped hruns hroom rfl hused, if_neg (by simp [Option.isSome_iff_ne_none.mp hposition]), underLock_of_free hfree hentry]
      refine ⟨_, rfl, rfl, ?_⟩
      rw [chanOf_dropLock, chanOf_modChan_same]
    case ends =>
      obtain ⟨hfenced, hchan, hbytes⟩ := rejoinDone_spec s p c
      refine ⟨_, exec_channelRejoined hrejoin hlast, ?_⟩
      rw [hfenced, hchan]
      exact ⟨by simp, fun d hd hmem => by simp [hd, hmem], rfl, hbytes⟩
  case evacuation =>
    intro s k e hevac hne
    refine ⟨fun hnone hspare hold => ?tested, fun hnone hspare hold => ?untested, fun hbegun hwaits => ?trained,
      fun hcopying hold => ⟨fun hspare hused hroom hfree hentry => ?copies, fun hlast => ?cutover⟩, exec_evacuationAbandon hevac⟩
    case tested =>
      obtain ⟨chans, hbegin⟩ := beginEvac_of_tested (k := k) hspare
      obtain ⟨hold', hspare', -⟩ := stackOf_modStack_both s hne (oldBegins .copying) (spareBegins .copying (stackOf s e.old).rate)
      rw [exec_evacuationStart hevac hnone, hbegin]
      exact ⟨_, rfl, hold'.trans (oldBegins_of_serving hold _), hspare', tget?_setEvac .., rfl⟩
    case untested =>
      obtain ⟨hold', hspare', hothers⟩ := stackOf_modStack_both s hne (oldBegins .trainingSpare) (spareBegins .trainingSpare (stackOf s e.old).rate)
      rw [exec_evacuationStart hevac hnone, beginEvac_of_untested hspare]
      exact ⟨_, rfl, hold'.trans (oldBegins_of_serving hold _), hspare', hothers, tget?_setEvac .., rfl⟩
    case trained =>
      obtain ⟨hstacks, hframe⟩ := spareTrained_spec (s := s) (k := k) (e := e)
      obtain ⟨hold, hspare, -⟩ := stackOf_modStack_both s hne (fun x => { x with evacState := .copying, evacPointer := 0 }) (spareBegins .copying (stackOf s e.old).rate)
      exact ⟨_, exec_spareTrained hevac hbegun hwaits, (hstacks e.old).trans hold, (hstacks e.spare).trans hspare, tget?_setEvac .., hframe⟩
    case copies => exact ⟨_, exec_evacuationCopyStripe hevac hcopying hold hspare hused hroom, copyStripe_spec hne hfree hentry⟩
    case cutover =>
      obtain ⟨t, hcutover, hdone⟩ := cutover_spec (s := s) (k := k) hne
      exact ⟨t, (exec_evacuationCutover hevac hcopying hold hlast).trans (congrArg _ hcutover), hdone⟩

end

/-! Scratch and a thread's own memory (07, R182, R183, R186; 08, R210 to R213): what an instruction of spaces 1 and 2 does. -/

namespace Sys2Proof.Machine

@[simp] theorem slice_length (l : List Byte) (start n : Nat) : (slice l start n).length = n := by
  have h : ((l.drop start).take n).length ≤ n := List.length_take_le ..
  simp only [slice, List.length_append, List.length_replicate]
  omega

/-! ### The two spaces -/

/-- Bytes of a thread's window in a space: its scratch, or its own 1 MiB. -/
def spaceBytes (th : Thread) (space : Nat) : Nat := if space = 1 then th.scratchBytes else 2 ^ 20

/-- What n bytes of a space read as. -/
def localBytes (s : State) (t : ThreadRef) (th : Thread) (space at_ n : Nat) : List Byte :=
  if space = 1 then readScratch s t.engine t.thread at_ n else readPriv s t.engine t.thread th.privValid at_ n

/-- The state and the thread after bytes of a space are written. -/
def localWritten (s : State) (t : ThreadRef) (th : Thread) (space at_ : Nat) (bs : List Byte) : State × Thread :=
  if space = 1 then (writeScratch s t.engine t.thread at_ bs, th) else writePriv s t.engine t.thread th at_ bs

theorem readLocal_eq (s : State) (t : ThreadRef) (th : Thread) (space at_ n : Nat) :
    readLocal s t th space at_ n = if at_ + n ≤ spaceBytes th space then some (localBytes s t th space at_ n) else none := by
  unfold readLocal spaceBytes localBytes
  by_cases h : space = 1 <;> simp [h]

theorem writeLocal_eq (s : State) (t : ThreadRef) (th : Thread) (space at_ : Nat) (bs : List Byte) :
    writeLocal s t th space at_ bs = if at_ + bs.length ≤ spaceBytes th space then some (localWritten s t th space at_ bs) else none := by
  unfold writeLocal spaceBytes localWritten
  by_cases h : space = 1 <;> simp [h]

theorem readLocal_scratch (s : State) (t : ThreadRef) (th : Thread) (at_ n : Nat) :
    readLocal s t th 1 at_ n = if at_ + n ≤ th.scratchBytes then some (readScratch s t.engine t.thread at_ n) else none := rfl

/-- Scratch never draws DATA_ERROR. -/
theorem localFails_scratch (s : State) (t : ThreadRef) (th : Thread) (at_ n : Nat) (write : Bool) : localFails s t th 1 at_ n write = false := rfl

/-! ### The step of an instruction -/

/-- A legal word of a ready thread has the effect it asks for, and the issue pointer passes its thread. -/
theorem exec_of_go {s s' : State} {t : ThreadRef} {op : Nat} {f : Fields} {regs : List Nat} {p : Spray} {th : Thread} {i : Instr} {legal : Bool}
    {act : Spray → Thread → Act} (r : Ready s t op f regs p th) (hexec : exec i s = issue s t op f legal regs act) (hlegal : legal = true)
    (hact : act p th = .go s') : exec i s = .next (passPointer s' t) := by
  rw [hexec, hlegal, issue_ready r, hact]

/-- A thread that goes on after an instruction, its pointer passed. -/
theorem passPointer_retire (s : State) (t : ThreadRef) (th : Thread) : passPointer (retire s t th) t = issued s t { th with pc := nextPc th } := rfl

/-- A load from a space: it changes its thread, or ends it, by the window and by what the metadata gives. -/
def LoadsLocal (s : State) (t : ThreadRef) (i : Instr) (th : Thread) (space at_ n : Nat) (done : Thread) : Prop :=
  (at_ + n ≤ spaceBytes th space → ¬localFails s t th space at_ n false = true → exec i s = .next (passPointer (retire s t done) t)) ∧
  (at_ + n ≤ spaceBytes th space → localFails s t th space at_ n false = true → exec i s = .next (passPointer (privError s t) t)) ∧
  (spaceBytes th space < at_ + n → exec i s = .next (passPointer (outOfRange s t) t))

/-- A store to a space: it writes its bytes and its thread goes on, or the thread ends. -/
def StoresLocal (s : State) (t : ThreadRef) (i : Instr) (th : Thread) (space at_ : Nat) (bs : List Byte) : Prop :=
  (at_ + bs.length ≤ spaceBytes th space → ¬localFails s t th space at_ bs.length true = true →
    exec i s = .next (passPointer (retire (localWritten s t th space at_ bs).1 t (localWritten s t th space at_ bs).2) t)) ∧
  (at_ + bs.length ≤ spaceBytes th space → localFails s t th space at_ bs.length true = true → exec i s = .next (passPointer (privError s t) t)) ∧
  (spaceBytes th space < at_ + bs.length → exec i s = .next (passPointer (outOfRange s t) t))

section
variable {s : State} {t : ThreadRef} {op : Nat} {f : Fields} {regs : List Nat} {p : Spray} {th : Thread} {i : Instr} {legal : Bool}
  {act : Spray → Thread → Act} {space at_ : Nat}

theorem loadsLocal_of_loadRow {n : Nat} {acquire : Bool} {use : TileUse} (r : Ready s t op f regs p th)
    (hexec : exec i s = issue s t op f legal regs act)
    (hlegal : legal = true) (hact : act p th = loadRow s t p th space at_ n acquire use) (hspace : space ≠ 0) (hheld : memHeld s t false false = false) :
    LoadsLocal s t i th space at_ n
      (applyUse th { threadTile t th p at_ 1 n 0 Op.readNoalloc use (List.replicate n 0) acquire with bytes := localBytes s t th space at_ n }) := by
  have hpool : (space == 0) = false := by simpa using hspace
  simp only [loadRow, hpool, hheld, readLocal_eq, if_neg hspace, Bool.false_eq_true, if_false] at hact
  refine ⟨fun hin hgood => ?_, fun hin hbad => ?_, fun hout => ?_⟩
  · exact exec_of_go r hexec hlegal (by simpa only [if_pos hin, if_neg hgood] using hact)
  · exact exec_of_go r hexec hlegal (by simpa only [if_pos hin, if_pos hbad] using hact)
  · exact exec_of_go r hexec hlegal (by simpa only [if_neg (Nat.not_le.mpr hout)] using hact)

theorem storesLocal_of_storeRow {bs : List Byte} {release : Bool} (r : Ready s t op f regs p th) (hexec : exec i s = issue s t op f legal regs act)
    (hlegal : legal = true) (hact : act p th = storeRow s t p th space at_ bs release) (hspace : space ≠ 0) (hheld : memHeld s t false false = false) :
    StoresLocal s t i th space at_ bs := by
  have hpool : (space == 0) = false := by simpa using hspace
  have hfree : memHeld s t false release = false := hheld
  simp only [storeRow, hpool, hfree, writeLocal_eq, if_neg hspace, Bool.false_eq_true, if_false] at hact
  refine ⟨fun hin hgood => ?_, fun hin hbad => ?_, fun hout => ?_⟩
  · exact exec_of_go r hexec hlegal (by simpa only [if_pos hin, if_neg hgood] using hact)
  · exact exec_of_go r hexec hlegal (by simpa only [if_pos hin, if_pos hbad] using hact)
  · exact exec_of_go r hexec hlegal (by simpa only [if_neg (Nat.not_le.mpr hout)] using hact)

/-- A store written out by its space. -/
theorem StoresLocal.by_space {bs : List Byte} (h : StoresLocal s t i th space at_ bs) (hin : at_ + bs.length ≤ spaceBytes th space)
    (hgood : ¬localFails s t th space at_ bs.length true = true) :
    (space = 1 → exec i s = .next (passPointer (retire (writeScratch s t.engine t.thread at_ bs) t th) t)) ∧
    (space = 2 → exec i s = .next (passPointer (retire (writePriv s t.engine t.thread th at_ bs).1 t (writePriv s t.engine t.thread th at_ bs).2) t)) := by
  constructor
  · rintro rfl
    exact h.1 hin hgood
  · rintro rfl
    exact h.1 hin hgood

end

/-! ### LD, ST, VLD and VST (08, R210) -/

section
variable {s : State} {t : ThreadRef} {f : Fields} {p : Spray} {th : Thread}

theorem bLow_eq (f : Fields) : bLow f = (f.b.toNat % 2 == 1) := by
  rw [bLow, BitVec.getLsbD, Nat.testBit_zero]
  rfl

/-- A space other than the pool that the B field names (08, Table 8.7). -/
theorem bSpace_local (h : bSpace f = 1 ∨ bSpace f = 2) : bSpace f ≠ 0 ∧ decide (bSpace f < 3) = true := by
  rw [decide_eq_true_iff]
  omega

theorem ld_local (hspace : bSpace f = 1 ∨ bSpace f = 2) (hheld : memHeld s t false false = false) (r : Ready s t 0x20 f [rS f.d, rS f.a] p th) :
    LoadsLocal s t (.ld t f) th (bSpace f) (memAddr th f / 2 ^ bSize f * 2 ^ bSize f) (2 ^ bSize f)
      { th with sregs := th.sregs.set f.d.toNat (extend (2 ^ bSize f) (f.b.toNat % 2 == 1)
        (ofLe (localBytes s t th (bSpace f) (memAddr th f / 2 ^ bSize f * 2 ^ bSize f) (2 ^ bSize f)))) } := by
  rw [← bLow_eq]
  exact loadsLocal_of_loadRow (i := .ld t f) (acquire := fnMark f) (use := .scalarLoad f.d.toNat (2 ^ bSize f) (bLow f)) r rfl (bSpace_local hspace).2 rfl
    (bSpace_local hspace).1 hheld

theorem st_local (hspace : bSpace f = 1 ∨ bSpace f = 2) (heven : f.b.toNat % 2 = 0) (hheld : memHeld s t false false = false)
    (r : Ready s t 0x21 f [rS f.d, rS f.a] p th) :
    StoresLocal s t (.st t f) th (bSpace f) (memAddr th f / 2 ^ bSize f * 2 ^ bSize f) (leBytes (2 ^ bSize f) (sreg th f.d.toNat).toNat) := by
  refine storesLocal_of_storeRow (release := fnMark f) r rfl ?_ rfl (bSpace_local hspace).1 hheld
  simp [(bSpace_local hspace).2, bLow_of_even heven]

theorem vld_local (hspace : bSpace f = 1 ∨ bSpace f = 2) (heven : f.b.toNat % 2 = 0) (hd : f.d.toNat < 16) (hheld : memHeld s t false false = false)
    (r : Ready s t 0x22 f [rV f.d, rS f.a] p th) :
    LoadsLocal s t (.vld t f) th (bSpace f) (memAddr th f) (lenBytes (bSize f))
      { th with vregs := th.vregs.set f.d.toNat (BitVec.ofNat 512 (ofLe (localBytes s t th (bSpace f) (memAddr th f) (lenBytes (bSize f))))) } := by
  refine loadsLocal_of_loadRow (i := .vld t f) (acquire := fnMark f) (use := .vectorLoad f.d.toNat (lenBytes (bSize f))) r rfl ?_ rfl
    (bSpace_local hspace).1 hheld
  simp [(bSpace_local hspace).2, bLow_of_even heven, isV, hd]

theorem vst_local (hspace : bSpace f = 1 ∨ bSpace f = 2) (heven : f.b.toNat % 2 = 0) (hd : f.d.toNat < 16) (hheld : memHeld s t false false = false)
    (r : Ready s t 0x23 f [rV f.d, rS f.a] p th) :
    StoresLocal s t (.vst t f) th (bSpace f) (memAddr th f) (leBytes (lenBytes (bSize f)) (vreg th f.d.toNat).toNat) := by
  refine storesLocal_of_storeRow (release := fnMark f) r rfl ?_ rfl (bSpace_local hspace).1 hheld
  simp [(bSpace_local hspace).2, bLow_of_even heven, isV, hd]

/-! ### Groups in scratch (08, R212) -/

theorem vldg_scratch (hspace : gSpace f = 1) (hd : f.d.toNat < 16) (hstride : (sreg th f.b.toNat).toNat < 2 ^ 32)
    (hheld : memHeld s t false false = false)
    (r : Ready s t 0x24 f [rV f.d, rS f.a, rS f.b] p th) :
    ((∀ l < 16, gBase th f + l * (sreg th f.b.toNat).toNat + gBytes f ≤ th.scratchBytes) →
      exec (.vldg t f) s = .next (passPointer (retire s t { th with vregs := th.vregs.set f.d.toNat (BitVec.ofNat 512 (ofLe
        ((List.range 16).flatMap (fun l => readScratch s t.engine t.thread (gBase th f + l * (sreg th f.b.toNat).toNat) (gBytes f))))) }) t)) ∧
    ((∃ l < 16, th.scratchBytes < gBase th f + l * (sreg th f.b.toNat).toNat + gBytes f) → exec (.vldg t f) s = .next (passPointer (outOfRange s t) t)) := by
  have hlegal : (decide (gSpace f < 3) && isV f.d) = true := by simp [hspace, isV, hd]
  have hfree : memHeld s t (1 == 0) false = false := hheld
  have hwide : ¬2 ^ 32 ≤ (sreg th f.b.toNat).toNat := Nat.not_le.mpr hstride
  constructor
  · intro hin
    have hread : ∀ l ∈ List.range 16, readLocal s t th 1 (gBase th f + l * (sreg th f.b.toNat).toNat) (gBytes f) =
        some (readScratch s t.engine t.thread (gBase th f + l * (sreg th f.b.toNat).toNat) (gBytes f)) := fun l hl => by
      rw [readLocal_scratch, if_pos (hin l (List.mem_range.mp hl))]
    refine exec_of_go r rfl hlegal ?_
    simp only [hwide, hfree, Nat.one_ne_zero, hspace, List.map_congr_left hread, localFails_scratch, if_false, Bool.false_eq_true]
    simp [List.flatMap_map, applyUse, threadTile]
  · rintro ⟨l, hl, hout⟩
    refine exec_of_go r rfl hlegal ?_
    have hall : ((List.range 16).map (fun l => readLocal s t th 1 (gBase th f + l * (sreg th f.b.toNat).toNat) (gBytes f))).all Option.isSome = false := by
      rw [List.all_eq_false]
      refine ⟨_, List.mem_map_of_mem (List.mem_range.mpr hl), ?_⟩
      rw [readLocal_scratch, if_neg (Nat.not_le.mpr hout)]
      decide
    simp only [hwide, hfree, Nat.one_ne_zero, hspace, hall, if_false, Bool.false_eq_true, Bool.false_and]

/-- Groups written one after another in the window. -/
theorem foldl_writeLocal_scratch {bs : List Byte} {base stride n : Nat} :
    ∀ {l : List Nat}, (∀ i ∈ l, base + i * stride + n ≤ th.scratchBytes) → ∀ s : State,
    l.foldl (fun (x : State × Thread) i => (writeLocal x.1 t x.2 1 (base + i * stride) (slice bs (i * n) n)).getD x) (s, th) =
      (l.foldl (fun s i => writeScratch s t.engine t.thread (base + i * stride) (slice bs (i * n) n)) s, th)
  | [], _, _ => rfl
  | i :: l, h, s => by
    have hi : base + i * stride + (slice bs (i * n) n).length ≤ spaceBytes th 1 := by
      rw [slice_length]
      exact h i List.mem_cons_self
    rw [List.foldl_cons, List.foldl_cons, writeLocal_eq, if_pos hi]
    exact foldl_writeLocal_scratch (fun j hj => h j (List.mem_cons_of_mem _ hj)) _

theorem vstg_scratch (hspace : gSpace f = 1) (hd : f.d.toNat < 16) (hstride : (sreg th f.b.toNat).toNat < 2 ^ 32)
    (hheld : memHeld s t false false = false)
    (r : Ready s t 0x25 f [rV f.d, rS f.a, rS f.b] p th) :
    ((∀ l < 16, gBase th f + l * (sreg th f.b.toNat).toNat + gBytes f ≤ th.scratchBytes) →
      exec (.vstg t f) s = .next (issued ((List.range 16).foldl (fun s l => writeScratch s t.engine t.thread (gBase th f + l * (sreg th f.b.toNat).toNat)
        (slice (leBytes (16 * gBytes f) (vreg th f.d.toNat).toNat) (l * gBytes f) (gBytes f))) s) t { th with pc := nextPc th })) ∧
    ((∃ l < 16, th.scratchBytes < gBase th f + l * (sreg th f.b.toNat).toNat + gBytes f) → exec (.vstg t f) s = .next (passPointer (outOfRange s t) t)) := by
  have hlegal : (decide (gSpace f < 3) && isV f.d) = true := by simp [hspace, isV, hd]
  have hfree : memHeld s t (1 == 0) (gMark f) = false := hheld
  have hwide : ¬2 ^ 32 ≤ (sreg th f.b.toNat).toNat := Nat.not_le.mpr hstride
  have hsome : ∀ l, (readLocal s t th 1 (gBase th f + l * (sreg th f.b.toNat).toNat) (gBytes f)).isSome =
      decide (gBase th f + l * (sreg th f.b.toNat).toNat + gBytes f ≤ th.scratchBytes) := fun l => by
    rw [readLocal_scratch]
    split <;> simp [*]
  constructor
  · intro hin
    have hall : ((List.range 16).all fun l => decide (gBase th f + l * (sreg th f.b.toNat).toNat + gBytes f ≤ th.scratchBytes)) = true := by
      simpa [List.all_eq_true] using hin
    rw [← passPointer_retire]
    refine exec_of_go r rfl hlegal ?_
    simp only [hwide, hfree, Nat.one_ne_zero, hspace, hsome, hall, localFails_scratch, if_false, if_true, Bool.false_eq_true]
    rw [foldl_writeLocal_scratch fun i hi => hin i (List.mem_range.mp hi)]
    rfl
  · rintro ⟨l, hl, hout⟩
    have hall : ((List.range 16).all fun l => decide (gBase th f + l * (sreg th f.b.toNat).toNat + gBytes f ≤ th.scratchBytes)) = false := by
      rw [List.all_eq_false]
      exact ⟨l, List.mem_range.mpr hl, by simpa using hout⟩
    refine exec_of_go r rfl hlegal ?_
    simp only [hwide, hfree, Nat.one_ne_zero, hspace, hsome, hall, if_false, Bool.false_eq_true]

/-! ### ATOM in scratch (08, R213; 07, R186) -/

theorem atom_scratch (hlow : f.fn.toNat % 16 = 0) (hspace : f.fn.toNat / 64 % 4 = 1) (hheld : memHeld s t false false = false)
    (r : Ready s t 0x26 f [rS f.d, rS f.a, rS f.b] p th) :
    let a := (sreg th f.a.toNat).toNat / 8 * 8
    let old := BitVec.ofNat 64 (ofLe (readScratch s t.engine t.thread a 8))
    (a + 8 ≤ th.scratchBytes → exec (.atom t f) s = .next (passPointer (retire (writeScratch s t.engine t.thread a
      (leBytes 8 (atomicResult (Op.atomicAdd + f.fn.toNat / 256) old (sreg th f.b.toNat) (sreg th f.d.toNat)).toNat)) t (setSreg th f.d.toNat old)) t)) ∧
    (th.scratchBytes < a + 8 → exec (.atom t f) s = .next (passPointer (outOfRange s t) t)) := by
  have hlegal : (decide (f.fn.toNat / 64 % 4 < 2) && f.fn.toNat % 16 == 0) = true := by simp [hlow, hspace]
  have hfree : memHeld s t (1 == 0) (f.fn.getLsbD 4) = false := hheld
  intro a old
  constructor
  · intro hin
    refine exec_of_go r rfl hlegal ?_
    simp only [hspace, hfree, Nat.one_ne_zero, readLocal_scratch, if_false, Bool.false_eq_true]
    rw [if_pos hin]
  · intro hout
    refine exec_of_go r rfl hlegal ?_
    simp only [hspace, hfree, Nat.one_ne_zero, readLocal_scratch, if_false, Bool.false_eq_true]
    rw [if_neg (Nat.not_le.mpr hout)]

end

end Sys2Proof.Machine

section
open Sys2Proof Sys2Proof.Machine

/-- Settles O32: a load or store by its window and its metadata, groups and atomics by the window alone. -/
theorem localLoadsStoresAndAtomics : Obligations.LocalLoadsStoresAndAtomics := by
  unfold Obligations.LocalLoadsStoresAndAtomics
  constructor
  case left =>
    intro s t f p th space hheld hspaceEq hspace size len low at_ al window got ends lost bad puts
    subst hspaceEq
    refine ⟨fun r => ld_local hspace hheld r, fun heven => ⟨fun r => ?st, fun hd => ⟨fun r => ?vld, fun r => ?vst⟩⟩⟩
    case st =>
      obtain ⟨-, hlost, hout⟩ := st_local hspace heven hheld r
      have hstored := (st_local hspace heven hheld r).by_space
      rw [leBytes_length] at hstored hlost hout
      exact ⟨hstored, hlost, hout⟩
    case vld =>
      obtain ⟨hdone, hlost, hout⟩ := vld_local hspace heven hd hheld r
      exact ⟨hlost, hdone, hout⟩
    case vst =>
      obtain ⟨-, hlost, hout⟩ := vst_local hspace heven hd hheld r
      have hstored := (vst_local hspace heven hd hheld r).by_space
      rw [leBytes_length] at hstored hlost hout
      exact ⟨hstored, hlost, hout⟩
  case right =>
    intro s t f p th hheld n stride base scratch group
    refine ⟨fun hd hspace hstride => ⟨fun r => ?_, fun r => ?_⟩, fun hlow hspace r => ?_⟩
    · exact vldg_scratch hspace hd hstride hheld r
    · exact vstg_scratch hspace hd hstride hheld r
    · obtain ⟨hin, hout⟩ := atom_scratch hlow hspace hheld r
      exact ⟨fun h => hin h, hout⟩

end

/-! Tiles of one line translated or at fault, and transfers performed (07, R192 to R194; 08, R214). -/

namespace Sys2Proof.Machine

/-! ### Translation (07, R192) -/

/-- A translation that joins the caches changes them and the free values spent alone. -/
theorem fillTlb_eq (s : State) (e asid : Nat) (x : Nat × Leaf) :
    ∃ time walkers tlb, fillTlb s e asid x = { s with time := time, eng := { s.eng with walkers := walkers, tlb := tlb } } := by
  unfold fillTlb fillWalker
  dsimp only
  split <;> exact ⟨_, _, _, rfl⟩

section
variable {s : State} {e asid u : Nat} (huncached : (tget s.eng.tlb e []).find? (fun c => c.covers asid u) = none)
include huncached

theorem translate_of_unmapped (hwalk : walk s asid u = none) : translate s e asid u = (none, s) := by
  unfold translate
  simp only [huncached, hwalk]

theorem translate_of_mapped {x : Nat × Leaf} (hwalk : walk s asid u = some x) : translate s e asid u = (some x, fillTlb s e asid x) := by
  unfold translate
  simp only [huncached, hwalk]

end

section
variable {s : State} {t : Tile} {q : Piece}

theorem translateTile_of_unmapped {u : State} (hpieces : t.pieces = [q]) (h : translate s t.engine t.asid (q.pva / 65536) = (none, u)) :
    translateTile s t = ({ units := [q.pva / 65536], faults := [(q.pva, false)] }, u) := by
  unfold translateTile
  simp [hpieces, h]

theorem translateTile_of_mapped {u : State} {l : Nat × Leaf} (hpieces : t.pieces = [q])
    (h : translate s t.engine t.asid (q.pva / 65536) = (some l, u)) :
    translateTile s t = if t.permitted l.2 then ({ units := [q.pva / 65536], leaves := tset [] (q.pva / 65536) l }, u)
      else ({ units := [q.pva / 65536], faults := [(q.pva, true)] }, u) := by
  unfold translateTile
  simp [hpieces, h]

/-! ### A fault (07, R193, R194) -/

/-- A tile of which one line faults waits, and has a record of one page. -/
def faultsOnce (s : State) (i : Nat) (t : Tile) (q : Piece) (since : Nat) (rights : Bool) : State :=
  addFault (setTile s i { t with st := .faulted none since rights q.pva }) (engRegion t.engine) (faultRec i t q.pva 1 rights)

theorem faultsOnce_spec (i since : Nat) (rights : Bool) : let u := faultsOnce s i t q since rights
    tileOf? u i = some { t with st := .faulted none since rights q.pva } ∧ u.eng.accesses = s.eng.accesses ∧
    ((collectOf s (t.engine / 128)).openRecs.length < 256 →
      (collectOf u (t.engine / 128)).openRecs = (collectOf s (t.engine / 128)).openRecs ++ [faultRec i t q.pva 1 rights]) := by
  refine ⟨(tget?_tset ..).trans (if_pos rfl), rfl, fun hroom => ?_⟩
  have hcollect : collectOf (setTile s i { t with st := .faulted none since rights q.pva }) (t.engine / 128) = collectOf s (t.engine / 128) := rfl
  rw [faultsOnce, addFault, engRegion, collectOf_modCollect, if_pos rfl, hcollect, if_pos hroom]

/-! ### The access of a line (07, R187, R193) -/

theorem makeAccesses_one {leaves : Tab (Nat × Leaf)} {x : Nat × Leaf} (i : Nat) (hdirect : t.direct = false) (hpieces : t.pieces = [q])
    (huse : ∀ u, t.use ≠ .zeroBlock u) (hleaf : tget? leaves (q.pva / 65536) = some x) : ∃ payload, makeAccesses s i t leaves =
      setTile { s with eng := { s.eng with
        accesses := tset s.eng.accesses s.eng.nextAccess { tile := i, ppa := leafPpa x q.pva, pva := q.pva, op := t.op, payload := payload, first := q.first, count := q.count }
        nextAccess := s.eng.nextAccess + 1 } } i { t with st := .issued, left := 1 } := by
  unfold makeAccesses
  extract_lets pieces made
  have hone : pieces = [q] := by
    unfold pieces
    split
    · exact absurd ‹_› (huse _)
    · exact hpieces
  have hppa : (if t.direct then selfId s * 2 ^ 40 + q.pva else match tget? leaves (q.pva / 65536) with | some x => leafPpa x q.pva | none => 0) = leafPpa x q.pva := by
    rw [hdirect, hleaf]
    rfl
  clear_value pieces
  subst hone
  rw [← hppa]
  exact ⟨_, rfl⟩

/-! ### A tile of one line -/

section
variable (i since : Nat) (hdirect : t.direct = false) (hpieces : t.pieces = [q])
  (huncached : (tget s.eng.tlb t.engine []).find? (fun c => c.covers t.asid (q.pva / 65536)) = none)
include hdirect hpieces huncached

theorem translateOrFault_of_unmapped (hwalk : walk s t.asid (q.pva / 65536) = none) :
    translateOrFault s i t since = faultsOnce s i t q since false := by
  rw [translateOrFault, if_neg (by simp [hdirect])]
  simp only [translateTile_of_unmapped hpieces (translate_of_unmapped huncached hwalk)]
  rfl

theorem translateOrFault_of_denied {first : Nat} {l : Leaf} (hwalk : walk s t.asid (q.pva / 65536) = some (first, l))
    (hrights : t.permitted l = false) :
    translateOrFault s i t since = faultsOnce (fillTlb s t.engine t.asid (first, l)) i t q since true := by
  rw [translateOrFault, if_neg (by simp [hdirect])]
  simp only [translateTile_of_mapped hpieces (translate_of_mapped huncached hwalk), hrights, Bool.false_eq_true, if_false]
  rfl

theorem translateOrFault_of_mapped {first : Nat} {l : Leaf} (hwalk : walk s t.asid (q.pva / 65536) = some (first, l))
    (hrights : t.permitted l = true) :
    translateOrFault s i t since = makeAccesses (fillTlb s t.engine t.asid (first, l)) i t (tset [] (q.pva / 65536) (first, l)) := by
  rw [translateOrFault, if_neg (by simp [hdirect])]
  simp only [translateTile_of_mapped hpieces (translate_of_mapped huncached hwalk), hrights, if_true]

end

end

/-! ### TILE_PERFORMED (08, R214) -/

theorem lt_of_threadOf? {s : State} {e h : Nat} {th : Thread} (hthread : threadOf? s e h = some th) : h < 64 := by
  unfold threadOf? at hthread
  split at hthread
  · assumption
  · cases hthread

/-- A resident thread after its update. -/
theorem threadOf?_setThread_same {s : State} {e h : Nat} (hh : h < 64) (th : Thread) : threadOf? (setThread s e h th) e h = some th := by
  rw [threadOf?, if_pos hh, setThread, tget?_tset, if_pos rfl]

theorem modThread_of_some {s : State} {e h : Nat} {th : Thread} (hthread : threadOf? s e h = some th) (f : Thread → Thread) :
    modThread s e h f = setThread s e h (f th) := by
  rw [modThread, hthread]

/-- A transfer leaves, and its thread counts one less. -/
def transferLeaves (s : State) (i : Nat) (x : Tile) (th : Thread) :
    State := setThread (delTile s i) x.engine x.thread { th with tiles := th.tiles - 1 }

theorem transferLeaves_spec {s : State} {i : Nat} {x : Tile} {th : Thread} (hthread : x.thread < 64) : tileOf? (transferLeaves s i x th) i = none ∧
    threadOf? (transferLeaves s i x th) x.engine x.thread = some { th with tiles := th.tiles - 1 } :=
  ⟨tget?_tdel_same .., threadOf?_setThread_same hthread _⟩

section
variable {s : State} {i : Nat} {x : Tile} {th : Thread} (htile : tileOf? s i = some x) (hissued : x.waitsOnFault = false) (hleft : x.left = 0)
  (hthread : threadOf? s x.engine x.thread = some th)
include htile hissued hleft hthread

theorem exec_tilePerformed_load {a : Nat} (huse : x.use = .tileLoad a) :
    exec (.tilePerformed i) s = .next (transferLeaves (writeScratch s x.engine x.thread a x.bytes) i x th) := by
  have hkept : threadOf? (delTile (writeScratch s x.engine x.thread a x.bytes) i) x.engine x.thread = some th := hthread
  change execTilePerformed i s = _
  simp only [execTilePerformed, htile, hissued, hleft, huse, modThread_of_some hkept, bne_self_eq_false, Bool.or_false, Bool.false_eq_true, if_false]
  rfl

theorem exec_tilePerformed_store (huse : x.use = .tileStore) : exec (.tilePerformed i) s = .next (transferLeaves s i x th) := by
  have hkept : threadOf? (delTile s i) x.engine x.thread = some th := hthread
  change execTilePerformed i s = _
  simp only [execTilePerformed, htile, hissued, hleft, huse, modThread_of_some hkept, bne_self_eq_false, Bool.or_false, Bool.false_eq_true, if_false]
  rfl

end

end Sys2Proof.Machine

section
open Sys2Proof Sys2Proof.Machine

/-- Settles O34: a tile of one line by what the walk answers, and TILE_PERFORMED by the direction of its transfer. -/
theorem tilesTranslateAndArePerformed : Obligations.TilesTranslateAndArePerformed := by
  unfold Obligations.TilesTranslateAndArePerformed
  refine ⟨?translated, ?performed⟩
  case translated =>
    intro s i since t q hdirect hpieces huse unit huncached u waits
    refine ⟨fun first l hwalk hrights => ?mapped, fun hwalk => ?unmapped, fun first l hwalk hrights => ?denied⟩
    case mapped =>
      obtain ⟨time, walkers, tlb, hfill⟩ := fillTlb_eq s t.engine t.asid (first, l)
      obtain ⟨payload, haccess⟩ := makeAccesses_one (s := fillTlb s t.engine t.asid (first, l)) i hdirect hpieces huse
        ((tget?_tset [] (q.pva / 65536) _ (first, l)).trans (if_pos rfl))
      have hu : u = _ := (translateOrFault_of_mapped i since hdirect hpieces huncached hwalk hrights).trans haccess
      rw [hu, hfill]
      exact ⟨_, (tget?_tset ..).trans (if_pos rfl), rfl, rfl, rfl, rfl, rfl, rfl, rfl, rfl, (tget?_tset ..).trans (if_pos rfl)⟩
    case unmapped =>
      have hu : u = _ := translateOrFault_of_unmapped i since hdirect hpieces huncached hwalk
      unfold waits
      rw [hu]
      exact faultsOnce_spec ..
    case denied =>
      obtain ⟨time, walkers, tlb, hfill⟩ := fillTlb_eq s t.engine t.asid (first, l)
      have hu : u = _ := translateOrFault_of_denied i since hdirect hpieces huncached hwalk hrights
      unfold waits
      rw [hu, hfill]
      exact faultsOnce_spec ..
  case performed =>
    intro s i x th htile hissued hleft hthread beyond
    have hlt := lt_of_threadOf? hthread
    constructor
    · intro a huse
      obtain ⟨hgone, hcount⟩ := transferLeaves_spec (s := writeScratch s x.engine x.thread a x.bytes) (i := i) (x := x) (th := th) hlt
      exact ⟨_, exec_tilePerformed_load htile hissued hleft hthread huse, hgone, hcount, rfl, rfl⟩
    · intro huse
      obtain ⟨hgone, hcount⟩ := transferLeaves_spec (s := s) (i := i) (x := x) (th := th) hlt
      exact ⟨_, exec_tilePerformed_store htile hissued hleft hthread huse, hgone, hcount, rfl, rfl⟩

end

/-! Accesses of this module's memory: the extent check, the engine queue of the line's region, and a whole block of ZERO (07, R187, R188; 09, R240). -/

namespace Sys2Proof.Machine

/-! ### The extent of an access and its home region -/

theorem extentAt_congr {s : State} {o p : Nat} (hline : p / 256 = o / 256) : extentAt s p = extentAt s o := by
  have hunit : p >>> 21 = o >>> 21 := by rw [Nat.shiftRight_eq_div_pow, Nat.shiftRight_eq_div_pow]; omega
  rw [extentAt, extentAt, hunit]

theorem homeRegion_congr {s : State} {o p : Nat} (hline : p / 256 = o / 256) : homeRegion s p = homeRegion s o := by
  have hblock (base : Nat) : (p - base * 2 ^ 21) >>> 12 = (o - base * 2 ^ 21) >>> 12 := by
    rw [Nat.shiftRight_eq_div_pow, Nat.shiftRight_eq_div_pow]; omega
  simp only [homeRegion, extentAt_congr hline, mapOffset, hblock]

/-- The rights that the opcodes of engine accesses need (02, Table 2.7). -/
theorem rightsNeeded_of_engineRow :
    ∀ row ∈ [(0x03, 1), (0x04, 2), (0x08, 2), (0x10, 3), (0x11, 3), (0x12, 3), (0x13, 3), (0x14, 3), (0x15, 3), (0x16, 3), (0x17, 3)],
    rightsNeeded row.1 = row.2 := by decide

/-- Steps 6 to 10 of 02, Table 2.6, let an access pass that asks the rights its opcode needs. -/
theorem extentRefusal_of_allowed {s : State} {n op offset source tenant : Nat} (h : Allowed s n op (rightsNeeded op) offset source tenant) :
    extentRefusal s op offset source tenant = none := by
  obtain ⟨hextent, hgranted, htenant, hrights, hcoherent, hslot⟩ := h
  have hmeets : (isAlloc op && !(extentOf s n).coherent) = false := by
    cases ha : isAlloc op
    · rfl
    · rw [hcoherent ha]; rfl
  have hbound : ((isAlloc op || isVc1 op) && (slotHeld s source (isVc1 op)).isNone) = false := by
    cases ha : (isAlloc op || isVc1 op)
    · rfl
    · rw [Bool.true_and, Option.isNone_eq_false_iff]; exact hslot (by simpa using ha)
  simp [extentRefusal, hextent, hgranted, htenant, hrights, hmeets, hbound]

/-! ### The ingress of the engines -/

section
variable {s : State} {id path : Nat} {r : Req}

theorem enterIngress_of_refused {st : Nat} (h : extentRefusal s r.op r.offset r.source r.tenant = some st) :
    ∃ v, enterIngress s id r path = deliver (logViolation s v) id { status := st } := by
  simp only [enterIngress, h]
  exact ⟨_, rfl⟩

/-- What an access that its extent lets pass becomes, in order of arrival at its region (07, R187). -/
def ingressReq (s : State) (r : Req) (path : Nat) : Req :=
  let n := (extentAt s r.offset).getD 0
  { r with ext := n, path := path, dir := (extentOf s n).coherent, counted := true, arrival := (regionOf s (homeRegion s r.offset)).arrivals }

/-- The extent counts the access in IN_FLIGHT, and the queue of its region takes it. -/
def ingressed (s : State) (r : Req) (path : Nat) : State :=
  let s1 := modExtent s ((extentAt s r.offset).getD 0) (fun e => { e with inFlight := e.inFlight + 1 })
  modRegion s1 (homeRegion s r.offset)
    (fun y => { y with arrivals := y.arrivals + 1, ingressPtr := (path + 1) % 12, engineQ := y.engineQ ++ [ingressReq s r path] })

/-- One region takes two changes as it takes both at once. -/
theorem modRegion_modRegion (s : State) (k : Nat) (f g : RegionSt → RegionSt) :
    modRegion (modRegion s k f) k g = modRegion s k (fun y => g (f y)) := by
  simp [modRegion, tmod, tset_tset]

theorem enterIngress_of_passed (h : extentRefusal s r.op r.offset r.source r.tenant = none) : enterIngress s id r path = ingressed s r path := by
  simp only [enterIngress, h, arrive, modExtent, extentOf_setExtent_same]
  exact modRegion_modRegion ..

theorem regionOf_ingressed (j : Nat) : regionOf (ingressed s r path) j = if homeRegion s r.offset = j then
    { regionOf s j with arrivals := (regionOf s j).arrivals + 1, ingressPtr := (path + 1) % 12, engineQ := (regionOf s j).engineQ ++ [ingressReq s r path] }
    else regionOf s j := by
  rw [ingressed, regionOf_modRegion]
  split
  · subst_vars; rfl
  · rfl

theorem extentOf_ingressed (m : Nat) : extentOf (ingressed s r path) m = if (extentAt s r.offset).getD 0 = m then
    { extentOf s m with inFlight := (extentOf s m).inFlight + 1 } else extentOf s m := by
  have hcounts (e : Extent) : ({ e with inFlight := e.inFlight + 1 } : Extent) ≠ {} := fun h => by
    have hfield := congrArg Extent.inFlight h
    simp at hfield
  rw [ingressed, modExtent, setExtent, if_neg (hcounts _), extentOf, modRegion, tget_tset]
  split
  · subst_vars; rfl
  · rfl

end

/-! ### ENGINE_LOCAL_ACCESS (07, R187, R188) -/

section
variable {s : State} {id : Nat} {x : Access} {t : Tile} {p : Spray} (haccess : accessOf? s id = some x) (htile : tileOf? s x.tile = some t)
  (hspray : sprayOf? s t.spray = some p)

include haccess htile hspray in
theorem accessParts_eq : accessParts s id = some (x, t, p) := by
  simp [accessParts, haccess, htile, hspray]

include haccess htile hspray in
theorem exec_engineLocalAccess (hwaiting : x.st = .waiting) (hlocal : x.ppa / 2 ^ 40 = selfId s) (hfault : t.waitsOnFault = false)
    (hfirst : mustFollow s id x t false = false) : exec (.engineLocalAccess id) s = .next (issueLocal s id x t p) := by
  change execEngineLocalAccess id s = _
  simp only [execEngineLocalAccess, accessParts_eq haccess htile hspray]
  exact when_true (by rw [localAccess, hwaiting, hlocal, hfault, hfirst, beq_self_eq_true, beq_self_eq_true]; rfl)

/-- The request of an access of this module, with the path by which it reaches its region. -/
def localReq (s : State) (id : Nat) (x : Access) (t : Tile) (p : Spray) : Req :=
  let k := homeRegion s (x.ppa % 2 ^ 40)
  { accessReq s id x t p with path := if k = engRegion t.engine then 11 else ringPath s (engRegion t.engine) k, counted := false }

/-- The offset of the request: its line where it is a ZERO_LINE, and else its first word (07, R187). -/
def reqOffset (x : Access) : Nat := if x.op = 0x08 then x.ppa % 2 ^ 40 / 256 * 256 else x.ppa % 2 ^ 40 / 8 * 8

theorem reqOffset_line (x : Access) : reqOffset x / 256 = x.ppa % 2 ^ 40 / 256 := by
  unfold reqOffset
  split <;> omega

theorem localReq_offset : (localReq s id x t p).offset = reqOffset x := by
  simp [localReq, accessReq, reqOffset]

theorem localReq_length : (localReq s id x t p).length = if x.op = 0x08 then 31 else (x.ppa % 256 + x.count - 1) / 8 - x.ppa % 256 / 8 := by
  simp [localReq, accessReq]

variable (huse : ∀ u, t.use ≠ .zeroBlock u)
include huse

theorem issueLocal_of_beyond (hbeyond : 896 * 2 ^ 30 ≤ x.ppa % 2 ^ 40) :
    issueLocal s id x t p = deliver (setAccess s id { x with st := .inModule }) id { status := 0x09 } := by
  unfold issueLocal
  split
  · exact absurd ‹_› (huse _)
  · exact if_pos hbeyond

theorem issueLocal_of_held (hwithin : x.ppa % 2 ^ 40 < 896 * 2 ^ 30)
    (hfull : 1024 ≤ (regionOf s (homeRegion s (x.ppa % 2 ^ 40))).engineQ.length ∨ (regionOf s (homeRegion s (x.ppa % 2 ^ 40))).engineHeld ≠ []) :
    issueLocal s id x t p = modRegion (setAccess s id { x with st := .inModule }) (homeRegion s (x.ppa % 2 ^ 40))
      (fun y => { y with engineHeld := y.engineHeld ++ [localReq s id x t p] }) := by
  unfold issueLocal
  split
  · exact absurd ‹_› (huse _)
  · refine (if_neg (Nat.not_le.mpr hwithin)).trans (if_neg fun hroom => ?_)
    obtain ⟨hlength, hnone⟩ := Bool.and_eq_true_iff.mp hroom
    exact hfull.elim (Nat.not_le.mpr (of_decide_eq_true hlength)) (fun h => h (List.isEmpty_iff.mp hnone))

theorem issueLocal_of_room (hwithin : x.ppa % 2 ^ 40 < 896 * 2 ^ 30) (hroom : (regionOf s (homeRegion s (x.ppa % 2 ^ 40))).engineQ.length < 1024)
    (hnone : (regionOf s (homeRegion s (x.ppa % 2 ^ 40))).engineHeld = []) :
    issueLocal s id x t p = enterIngress (setAccess s id { x with st := .inModule }) id (localReq s id x t p) (localReq s id x t p).path := by
  unfold issueLocal
  split
  · exact absurd ‹_› (huse _)
  · exact (if_neg (Nat.not_le.mpr hwithin)).trans (if_pos (Bool.and_eq_true_iff.mpr ⟨decide_eq_true hroom, List.isEmpty_iff.mpr hnone⟩))

end

/-! ### A whole block of ZERO (09, R240) -/

theorem zeroBlock_of_quiet {s : State} {id u n : Nat} {x : Access} {t : Tile} {p : Spray} (hwithin : x.ppa % 2 ^ 40 < 896 * 2 ^ 30)
    (hallowed : Allowed s n 0x08 2 (x.ppa % 2 ^ 40) p.source p.tenant) (hplain : (extentOf s n).coherent = false)
    (hquiet : ∀ i < 16, quietLine s (x.ppa % 2 ^ 40 + 256 * i) = true)
    (hclosed : sabAt s (mapOffset (extentOf s n) (x.ppa % 2 ^ 40)).lstack (mapOffset (extentOf s n) (x.ppa % 2 ^ 40)).stripe = none) :
    zeroBlock s id x t p u (fun o => !quietLine s o) = deliver ((List.range 16).foldl (fun s i => markUnit s t.spray (u + i))
      (cacheValid (setValidBlock s (x.ppa % 2 ^ 40) 0) (homeRegion s (x.ppa % 2 ^ 40)) (x.ppa % 2 ^ 40) true)) id {} := by
  have hpasses : (if offsetLimit ≤ x.ppa % 2 ^ 40 then some Sts.addressInvalid else extentRefusal s Op.zeroLine (x.ppa % 2 ^ 40) p.source p.tenant) = none :=
    (if_neg (Nat.not_le.mpr hwithin)).trans (extentRefusal_of_allowed hallowed)
  have hidle : ((List.range 16).any fun i => !quietLine s (x.ppa % 2 ^ 40 + 256 * i)) = false := by
    rw [List.any_eq_false]
    intro i hi
    rw [hquiet i (List.mem_range.mp hi)]
    exact Bool.false_ne_true
  unfold zeroBlock
  dsimp only
  rw [hpasses]
  simp only [hallowed.extent, Option.getD_some, hplain, Bool.false_eq_true, if_false, hidle, hclosed, Option.isSome_none, Bool.false_and]
  rfl

/-! ### ENGINE_QUEUE_ROOM (07, R188) -/

section
variable {s : State} {k : Nat} {r : Req} {rest : List Req} (hheld : (regionOf s k).engineHeld = r :: rest) (hroom : (regionOf s k).engineQ.length < 1024)
include hheld hroom

theorem exec_engineQueueRoom_access {id : Nat} (hid : r.access = some id) :
    exec (.engineQueueRoom k) s = .next (enterIngress (modRegion s k (fun y => { y with engineHeld := rest })) id r r.path) := by
  change execEngineQueueRoom k s = _
  simp only [execEngineQueueRoom, hheld, hid]
  exact when_true (decide_eq_true hroom)

theorem exec_engineQueueRoom_own (hid : r.access = none) : exec (.engineQueueRoom k) s = .next (modRegion s k (fun y =>
    { y with engineHeld := rest, arrivals := y.arrivals + 1, ingressPtr := (r.path + 1) % 12, engineQ := y.engineQ ++ [{ r with arrival := (regionOf s k).arrivals }] })) := by
  change execEngineQueueRoom k s = _
  simp only [execEngineQueueRoom, hheld, hid, arrive, modRegion_modRegion, regionOf_modRegion, if_true]
  exact when_true (decide_eq_true hroom)

end

end Sys2Proof.Machine

section
open Sys2Proof Sys2Proof.Machine

/-- Settles O42: an access by what its region's engine queue holds, a whole block of ZERO, and the oldest held access when there is room. -/
theorem engineAccessesEnterQueues : Obligations.EngineAccessesEnterQueues := by
  unfold Obligations.EngineAccessesEnterQueues
  refine ⟨?issued, ?room⟩
  case issued =>
    intro s id x t p haccess htile hspray hwaiting hlocal hfault hfirst o k y s1 b
    have hexec := exec_engineLocalAccess haccess htile hspray hwaiting hlocal hfault hfirst
    refine ⟨fun huse => ⟨fun hbeyond => ?beyond, fun hwithin hroom hnone => ?queue, fun hwithin hfull => ?held⟩,
      fun u n huse hwithin hextent hallowed hplain hquiet hclosed => ?zero⟩
    case beyond => rw [hexec, issueLocal_of_beyond huse hbeyond]
    case held => exact ⟨localReq s id x t p, by rw [hexec, issueLocal_of_held huse hwithin hfull], rfl, rfl, rfl⟩
    case queue =>
      have hissue := issueLocal_of_room (id := id) (p := p) huse hwithin hroom hnone
      have hoffset : (localReq s id x t p).offset = reqOffset x := localReq_offset
      have hlength : (localReq s id x t p).length = if x.op = 0x08 then 31 else (b + x.count - 1) / 8 - b / 8 := localReq_length
      refine ⟨fun st hst => ?refused, fun n need hneed hextent hallowed => ?passed⟩
      case refused =>
        obtain ⟨v, hv⟩ := enterIngress_of_refused (s := s1) (id := id) (path := (localReq s id x t p).path) (r := localReq s id x t p)
          ((congrArg (extentRefusal s x.op · p.source p.tenant) hoffset).trans hst)
        exact ⟨v, by rw [hexec, hissue, hv]⟩
      case passed =>
        have hrights : rightsNeeded x.op = need := rightsNeeded_of_engineRow _ hneed
        have hpasses : extentRefusal s1 (localReq s id x t p).op (localReq s id x t p).offset (localReq s id x t p).source (localReq s id x t p).tenant = none :=
          (congrArg (extentRefusal s x.op · p.source p.tenant) hoffset).trans (extentRefusal_of_allowed (hrights ▸ hallowed))
        have hhome : homeRegion s1 (localReq s id x t p).offset = k :=
          (congrArg (homeRegion s) hoffset).trans (homeRegion_congr (reqOffset_line x))
        have hn : extentAt s1 (localReq s id x t p).offset = some n := (congrArg (extentAt s) hoffset).trans hallowed.extent
        refine ⟨ingressed s1 (localReq s id x t p) _, ingressReq s1 (localReq s id x t p) (localReq s id x t p).path,
          by rw [hexec, hissue, enterIngress_of_passed hpasses], ?_, ?_, fun m hm => ?_, ?_, fun j hj => ?_, rfl, ?_, rfl, rfl, rfl, ?_, rfl, ?_,
          fun hop => ⟨?_, ?_⟩, fun hop => ⟨?_, ?_⟩⟩
        · exact (accessOf?_setAccess ..).trans (if_pos rfl)
        · rw [extentOf_ingressed, hn, Option.getD_some, if_pos rfl]; rfl
        · rw [extentOf_ingressed, hn, Option.getD_some, if_neg (Ne.symm hm)]; rfl
        · rw [regionOf_ingressed, if_pos hhome]; rfl
        · rw [regionOf_ingressed, hhome, if_neg (Ne.symm hj)]; rfl
        · simp only [ingressReq, hn, Option.getD_some]
        · simp only [ingressReq, hhome]; rfl
        · simp only [ingressReq, hn, Option.getD_some]; rfl
        · exact hoffset.trans (if_neg hop)
        · exact hlength.trans (if_neg hop)
        · exact hoffset.trans (if_pos hop)
        · exact hlength.trans (if_pos hop)
    case zero =>
      have hissue : issueLocal s id x t p = zeroBlock s id x t p u (fun o => !quietLine s o) := by
        simp only [issueLocal, huse]
      rw [hexec, hissue, zeroBlock_of_quiet hwithin hallowed hplain hquiet hclosed]
  case room =>
    intro s k r rest hheld hroom s1
    refine ⟨fun id hid => ⟨fun st hst => ?refused, fun hpasses hhome => ?passed⟩, fun hid => ?own⟩
    case refused =>
      obtain ⟨v, hv⟩ := enterIngress_of_refused (s := s1) (id := id) (path := r.path) (r := r) hst
      exact ⟨v, by rw [exec_engineQueueRoom_access hheld hroom hid, hv]⟩
    case passed =>
      refine ⟨ingressed s1 r r.path, (extentAt s1 r.offset).getD 0, (exec_engineQueueRoom_access hheld hroom hid).trans (congrArg Host.Outcome.next (enterIngress_of_passed hpasses)), ?_⟩
      have hregion : regionOf s1 k = { regionOf s k with engineHeld := rest } := (regionOf_modRegion ..).trans (if_pos rfl)
      have hhome1 : homeRegion s1 r.offset = k := hhome
      rw [regionOf_ingressed, if_pos hhome1]
      simp only [ingressReq, hhome1, hregion]
      rfl
    case own =>
      refine ⟨_, exec_engineQueueRoom_own hheld hroom hid, (regionOf_modRegion ..).trans (if_pos rfl), rfl⟩

end

/-! Accesses of other modules: tags, packets, resends, the timeout, responses and what an answer does to its thread (07, R187, R189 to R191). -/

namespace Sys2Proof.Machine

/-! ### Tags (07, R190) -/

theorem firstFree_spec {fuel n m : Nat} {ok : Nat → Bool} (h : firstFree fuel n ok = some m) : n ≤ m ∧ m < n + fuel ∧ ok m = true := by
  induction fuel generalizing n with
  | zero => cases h
  | succ fuel ih =>
    rw [firstFree] at h
    by_cases hok : ok n = true
    · obtain rfl : n = m := Option.some.inj ((if_pos hok).symm.trans h)
      exact ⟨Nat.le_refl n, by omega, hok⟩
    · obtain ⟨hle, hlt, hm⟩ := ih ((if_neg hok).symm.trans h)
      exact ⟨by omega, by omega, hm⟩

/-- A free tag is one of its region's, and no forwarding entry toward the endpoint has it. -/
theorem freeTag_spec {s : State} {k dest tag : Nat} (h : freeTag s k dest = some tag) :
    k * 2 ^ 14 ≤ tag ∧ tag < (k + 1) * 2 ^ 14 ∧ ∀ f ∈ s.eng.forwards, f.region = k → f.endpoint = dest → f.tag ≠ tag := by
  rw [freeTag, Option.map_eq_some_iff] at h
  obtain ⟨n, hn, rfl⟩ := h
  obtain ⟨-, hlt, hfree⟩ := firstFree_spec hn
  refine ⟨Nat.le_add_right .., by omega, fun f hf hregion hendpoint htag => ?_⟩
  rw [Bool.not_eq_true', List.any_eq_false] at hfree
  exact hfree f hf (by rw [hregion, hendpoint, htag]; simp only [beq_self_eq_true, Bool.and_self])

/-! ### Sends and the timeout (07, R189) -/

section
variable {s : State} {id : Nat} {x : Access} {t : Tile} {p : Spray} (haccess : accessOf? s id = some x) (htile : tileOf? s x.tile = some t)
  (hspray : sprayOf? s t.spray = some p)
include haccess htile hspray

theorem exec_remoteAccessSend (hwaiting : x.st = .waiting) (hremote : x.ppa / 2 ^ 40 ≠ selfId s) (hfault : t.waitsOnFault = false)
    (hfirst : mustFollow s id x t true = false) : exec (.remoteAccessSend id) s =
      .next (if unitTile t then failAccess s id { status := Sts.destRemote, pva := x.pva } else firstSend s id x t p) := by
  change execRemoteAccessSend id s = _
  simp only [execRemoteAccessSend, accessParts_eq haccess htile hspray]
  exact when_true (by rw [localAccess, beq_eq_false_iff_ne.mpr hremote, hwaiting, hfault, hfirst, beq_self_eq_true]; rfl)

theorem exec_remoteRetryBackoff {tag first until_ : Nat} (hst : x.st = .backoff tag first until_) (hover : until_ ≤ s.time.clock) :
    exec (.remoteRetryBackoff id) s = .next (sendRemote (setAccess s id { x with st := .remote tag first }) id { x with st := .remote tag first } t p tag) := by
  change execRemoteRetryBackoff id s = _
  simp only [execRemoteRetryBackoff, accessParts_eq haccess htile hspray, hst]
  exact when_true (decide_eq_true hover)

end

theorem exec_remoteTimeout {s : State} {id tag first : Nat} {x : Access} (haccess : accessOf? s id = some x) (hst : x.st = .remote tag first)
    (hlate : first + 12500000 ≤ s.time.clock) :
    exec (.remoteTimeout id) s = .next (failAccess (closeForwards s (fun f => f.access == id && !f.held)) id { status := Sts.remoteTimeout, pva := x.pva }) := by
  change execRemoteTimeout id s = _
  simp only [execRemoteTimeout, haccess, hst]
  exact when_true (passed_iff.mpr hlate)

/-- A destination of a pool operation is stored by a unit's tile. -/
theorem unitTile_iff (t : Tile) : unitTile t = true ↔ ∃ u, t.use = .itemUnit u ∨ t.use = .zeroBlock u := by
  unfold unitTile
  split <;> simp_all

/-! ### The packet of a remote access (07, R189) -/

/-- A request of whole words names all its bytes. -/
theorem accessReq_bytes {s : State} {id : Nat} {x : Access} {t : Tile} {p : Spray} (hfirst : x.ppa % 8 = 0) (hcount : x.count % 8 = 0) :
    (accessReq s id x t p).bytes = none := by
  have hword : x.ppa % 256 % 8 = 0 := by omega
  simp [accessReq, hword, hcount]

/-- Of the requests that an engine sends to another module, READ alone carries no payload. -/
theorem carriesPayload_iff : ∀ op ∈ [0x03, 0x04, 0x10, 0x11, 0x12, 0x13, 0x14, 0x15, 0x16, 0x17],
    (isAtomic op || (isPlainWrite op && op != Op.zeroLine)) = decide (op ≠ 0x03) := by decide

/-- The request of a remote access (07, R189; 03, Table 3.2). -/
def remotePacket (s : State) (x : Access) (t : Tile) (p : Spray) (ten : Tenant) (tag : Nat) : Packet :=
  { opcode := x.op, tag := tag, tenant := p.tenant, keyEpoch := ten.epoch % 2, source := selfId s, dest := x.ppa / 2 ^ 40, roleGen := (logEngOf s t.engine).gen,
    length := (x.ppa % 256 + x.count - 1) / 8 - x.ppa % 256 / 8, address := x.ppa / 2 ^ 40 * 2 ^ 40 + x.ppa % 2 ^ 40,
    msgCounter := (nextCounter s (t.engine / 128)).1, payload := if x.op = 0x03 then none else some x.payload }

theorem sendRemote_of_words {s : State} {id tag : Nat} {x : Access} {t : Tile} {p : Spray} {ten : Tenant} (htenant : tenantOf? s p.tenant = some ten)
    (hfirst : x.ppa % 8 = 0) (hcount : x.count % 8 = 0) (hop : x.op ∈ [0x03, 0x04, 0x10, 0x11, 0x12, 0x13, 0x14, 0x15, 0x16, 0x17]) :
    sendRemote s id x t p tag = setAccess (sendOn (outPort (nextCounter s (t.engine / 128)).2 (t.engine / 128)).2
      (outPort (nextCounter s (t.engine / 128)).2 (t.engine / 128)).1 (protect ten.key (remotePacket s x t p ten tag))) id
      { x with epoch := some ten.epoch, gen := (logEngOf s t.engine).gen } := by
  have hline : x.op ≠ 0x08 := fun h => by rw [h] at hop; revert hop; decide
  have hlength : (accessReq s id x t p).length = (x.ppa % 256 + x.count - 1) / 8 - x.ppa % 256 / 8 := by simp [accessReq, hline]
  have hoffset : (accessReq s id x t p).offset = x.ppa % 2 ^ 40 := by simp [accessReq, hline]; omega
  have hpayload : (if isAtomic x.op || (isPlainWrite x.op && x.op != Op.zeroLine) then some x.payload else none) = if x.op = 0x03 then none else some x.payload := by
    rw [carriesPayload_iff x.op hop]
    by_cases h : x.op = 0x03 <;> simp [h]
  unfold sendRemote remotePacket
  simp only [htenant, accessReq_bytes hfirst hcount, hlength, hoffset, hpayload, Option.isSome_none, Bool.false_eq_true, if_false, engRegion]

/-! ### Responses (07, R191) -/

/-- The three responses are taken alike. -/
theorem exec_response : ∀ row ∈ [(0x30, Instr.resp), (0x31, Instr.respData), (0x32, Instr.completion)], ∀ (via : Via) (p : Packet) (s : State),
    p.opcode = row.1 → exec (row.2 via p) s = .next (packetResponse s via p) := by
  intro row hrow via p s hop
  have htyped : exec (row.2 via p) s = typedResponse row.1 via p s := by
    simp only [List.mem_cons, List.not_mem_nil, or_false] at hrow
    rcases hrow with rfl | rfl | rfl <;> rfl
  rw [htyped]
  exact when_true (beq_iff_eq.mpr hop)

theorem packetResponse_darinlink {s : State} (p : Packet) (hruns : hubRuns s = true) : packetResponse s .darinlink p = countDiscard s := by
  simp [packetResponse, hruns]

theorem packetResponse_of_misrouted {s : State} {m : Nat} {p : Packet} (hdest : p.dest ≠ selfId s) : packetResponse s (.genura m) p = s := by
  simp [packetResponse, hdest]

section
variable {s : State} {m : Nat} {p : Packet} (hruns : hubRuns s = true) (hdest : p.dest = selfId s) (hvc : p.vc = 4)
  (hnew : (duplicate s p.source p.msgCounter).1 = false)
include hruns hdest hvc hnew

theorem packetResponse_of_unmatched (hnone : s.eng.forwards.find? (fun f => f.tag == p.tag && f.endpoint == p.source) = none) :
    packetResponse s (.genura m) p = countLate (duplicate s p.source p.msgCounter).2 := by
  simp [packetResponse, hruns, hdest, hvc, hnew, hnone]

variable {f : Forward} (hfound : s.eng.forwards.find? (fun f => f.tag == p.tag && f.endpoint == p.source) = some f)
include hfound

theorem packetResponse_of_closed (hheld : f.held = true) : packetResponse s (.genura m) p =
    countLate (failAccess (dropForward (duplicate s p.source p.msgCounter).2 f) f.access { status := Sts.remoteError }) := by
  simp [packetResponse, hruns, hdest, hvc, hnew, hfound, hheld]

variable (hopen : f.held = false)
include hopen

theorem packetResponse_of_staleGen (hgen : p.roleGen ≠ (logEngOf s f.engine).gen) :
    packetResponse s (.genura m) p = countLate (duplicate s p.source p.msgCounter).2 := by
  simp [packetResponse, hruns, hdest, hvc, hnew, hfound, hopen, hgen]

variable (hgen : p.roleGen = (logEngOf s f.engine).gen)
include hgen

theorem packetResponse_of_clear (hclear : p.encrypted = false) (hstatus : unprotectedStatus p.status = true) :
    packetResponse s (.genura m) p = takeResponse (duplicate s p.source p.msgCounter).2 f p := by
  simp [packetResponse, hruns, hdest, hvc, hnew, hfound, hopen, hgen, hclear, hstatus]

theorem packetResponse_of_opened {q : Packet} {e : Nat} (hsealed : p.encrypted = true) (hplain : openPacket s p = .plain q e) :
    packetResponse s (.genura m) p = takeResponse (duplicate s p.source p.msgCounter).2 f q := by
  simp [packetResponse, hruns, hdest, hvc, hnew, hfound, hopen, hgen, hsealed, hplain]

end

/-! ### What a response does to its access (07, R189) -/

section
variable {s : State} {f : Forward} {p : Packet} {x : Access} {tag first : Nat} (haccess : accessOf? s f.access = some x) (hst : x.st = .remote tag first)
include haccess

theorem takeResponse_of_reserved (h : reservedStatus p.status = true ∨ p.status = 0x01 ∧ 2 ≤ p.aux / 4096) : takeResponse s f p = countDiscard s := by
  have hdiscards : (reservedStatus p.status || (p.status == Sts.retry && decide (2 ≤ p.aux / 4096))) = true := by
    rcases h with h | ⟨hretry, haux⟩
    · rw [h, Bool.true_or]
    · rw [hretry, decide_eq_true haux, beq_self_eq_true, Bool.true_and, Bool.or_true]
  simp only [takeResponse, haccess, hdiscards, if_true]

theorem takeResponse_of_answer (hmeaning : reservedStatus p.status = false) (hretry : p.status ≠ 0x01) (hstale : p.status ≠ 0x17)
    (hdata : p.status = 0 → x.op = 0x04 ∨ p.payload.isSome = true) :
    takeResponse s f p = deliver (dropForward s f) f.access { status := p.status, data := p.payload } := by
  have hcomplete : (decide (p.status = 0) && (isAtomic x.op || !isPlainWrite x.op) && p.payload.isNone) = false := by
    by_cases hzero : p.status = 0
    · rcases hdata hzero with hop | hsome
      · have hcarries : (isAtomic 0x04 || !isPlainWrite 0x04) = false := rfl
        rw [hop, hcarries, Bool.and_false, Bool.false_and]
      · rw [Option.isNone_eq_false_iff.mpr hsome, Bool.and_false]
    · rw [decide_eq_false hzero, Bool.false_and, Bool.false_and]
  simp only [takeResponse, haccess, hmeaning, beq_eq_false_iff_ne.mpr hretry, Bool.false_and, Bool.or_false, Bool.false_eq_true, if_false, if_neg hretry, if_neg hstale]
  exact if_neg (ne_true_of_eq_false hcomplete)

include hst

theorem takeResponse_of_retry (hretry : p.status = 0x01) (haux : p.aux / 4096 < 2) :
    takeResponse s f p = setAccess s f.access { x with st := .backoff f.tag first (s.time.clock + p.aux % 4096 * 250) } := by
  have hmeaning : reservedStatus 0x01 = false := rfl
  simp only [takeResponse, haccess, hst, hretry, hmeaning, decide_eq_false (Nat.not_le.mpr haux), Bool.and_false, Bool.or_false, Bool.false_eq_true, if_false, if_true]
  rfl

theorem takeResponse_of_staleRole (hstale : p.status = 0x17) :
    takeResponse s f p = setAccess s f.access { x with st := .backoff f.tag first s.time.clock } := by
  have hmeaning : reservedStatus 0x17 = false := rfl
  simp only [takeResponse, haccess, hst, hstale, hmeaning]
  rfl

end

/-! ### What an answer does to its thread (07, R187; 08, R210, R215) -/

section
variable {s : State} {id : Nat} {x : Access} {t : Tile} (haccess : accessOf? s id = some x) (htile : tileOf? s x.tile = some t)
include haccess htile

theorem deliver_of_success {a : Answer} (hstatus : a.status = 0) :
    deliver s id a = tileDone (delAccess s id) x.tile (takeData { t with left := t.left - 1 } x (a.data.getD 0)) := by
  have hkept : tileOf? (delAccess s id) x.tile = some t := htile
  simp only [deliver, haccess, hkept, hstatus, bne_self_eq_false, Bool.false_eq_true, if_false]

theorem deliver_of_failure {a : Answer} (hstatus : a.status ≠ 0) (hplaced : t.direct = false) :
    deliver s id a = failThread (tileDone (delAccess s id) x.tile { t with left := t.left - 1, failed := true }) t.engine t.thread
      { status := accessFailure (decide (x.ppa / 2 ^ 40 ≠ selfId s)) a.status, detail := a.status, pva := x.pva } := by
  have hkept : tileOf? (delAccess s id) x.tile = some t := htile
  have hfar : (x.ppa / 2 ^ 40 != selfId (delAccess s id)) = decide (x.ppa / 2 ^ 40 ≠ selfId s) := by
    rw [Bool.eq_iff_iff, bne_iff_ne, decide_eq_true_iff]
    exact Iff.rfl
  simp only [deliver, haccess, hkept, bne_iff_ne.mpr hstatus, if_true, hplaced, Bool.false_eq_true, if_false, hfar]

end

/-- A load of one access, its bytes the whole tile, sets its register and leaves. -/
theorem tileDone_of_scalarLoad {s : State} {i : Nat} {t : Tile} {th : Thread} {rd size : Nat} {sg : Bool}
    (hthread : threadOf? s t.engine t.thread = some th)
    (hthere : t.thread ≠ 64) (huse : t.use = .scalarLoad rd size sg) (hleft : t.left = 0) (hfailed : t.failed = false) :
    tileDone s i t = setThread (delTile s i) t.engine t.thread { th with sregs := th.sregs.set rd (extend size sg (ofLe t.bytes)) } := by
  have hkept : threadOf? (delTile s i) t.engine t.thread = some th := hthread
  have happly : applyUse th t = { th with sregs := th.sregs.set rd (extend size sg (ofLe t.bytes)) } := by simp only [applyUse, huse]
  rw [tileDone, if_neg (not_not_intro hleft), if_neg hthere]
  simp only [huse, hfailed, Bool.false_eq_true, if_false, modThread_of_some hkept, happly]

/-- The data of a load of one access are the tile's bytes. -/
theorem takeData_of_whole {t : Tile} {x : Access} (d : Line) (hop : t.op = 0x03) (hfirst : x.first = 0) (hall : t.bytes.length = x.count) :
    takeData t x d = { t with bytes := slice (lineBytes d) (x.ppa % 256) x.count } := by
  have hatomic : isAtomic t.op = false := by rw [hop]; rfl
  have hloads : t.stores = false := by rw [Tile.stores, hop]; rfl
  simp only [takeData, hatomic, hloads, hfirst, Bool.false_eq_true, if_false, List.take_zero, List.nil_append, Nat.zero_add,
    List.drop_of_length_le (Nat.le_of_eq hall), List.append_nil]

/-- A tile that fails takes nothing of its thread but a count of transfers. -/
theorem tileDone_of_failed {s : State} {i : Nat} {t : Tile} {th : Thread} (hthread : threadOf? s t.engine t.thread = some th)
    (hfailed : t.failed = true) :
    ∃ n, threadOf? (tileDone s i t) t.engine t.thread = some { th with tiles := n } ∧ (tileDone s i t).eng.accesses = s.eng.accesses := by
  have hkept : threadOf? (delTile s i) t.engine t.thread = some th := hthread
  have hcounts := threadOf?_setThread_same (s := delTile s i) (e := t.engine) (lt_of_threadOf? hthread) { th with tiles := th.tiles - 1 }
  rw [tileDone]
  split
  · exact ⟨_, hthread, rfl⟩
  split
  · exact ⟨_, hthread, rfl⟩
  split
  · rw [modThread_of_some hkept]; exact ⟨_, hcounts, rfl⟩
  · rw [modThread_of_some hkept]; exact ⟨_, hcounts, rfl⟩
  · exact ⟨_, hthread, rfl⟩

/-- Tiles given up change the tiles and the fault records alone. -/
theorem dropFaulted_eq (s : State) (e h : Nat) :
    ∃ tiles collect, dropFaulted s e h = { s with eng := { s.eng with tiles := tiles, collect := collect } } := by
  unfold dropFaulted
  generalize (threadTiles s e h).filter _ = l
  induction l generalizing s with
  | nil => exact ⟨_, _, rfl⟩
  | cons t l ih =>
    obtain ⟨tiles, collect, hl⟩ := ih (modCollect (delTile s t.1) (engRegion e) (fun c => { c with waiting := c.waiting.filter (fun r => r.tile != t.1) }))
    exact ⟨tiles, collect, hl⟩

/-- The first failure of a thread stops its issue and leaves its registers. -/
theorem failThread_of_running {s : State} {e h : Nat} {th : Thread} (hthread : threadOf? s e h = some th) (hrunning : th.phase = .running)
    (f : Failure) :
    threadOf? (failThread s e h f) e h = some { th with phase := .failing f } ∧ (failThread s e h f).eng.accesses = s.eng.accesses := by
  have hset := threadOf?_setThread_same (s := s) (e := e) (lt_of_threadOf? hthread) { th with phase := .failing f }
  obtain ⟨tiles, collect, hdrop⟩ := dropFaulted_eq (setThread s e h { th with phase := .failing f }) e h
  simp only [failThread, hthread, hrunning, hdrop]
  exact ⟨hset, rfl⟩

end Sys2Proof.Machine

section
open Sys2Proof Sys2Proof.Machine

/-- Settles O43: sends, the timeout, responses, resends and answers, each by the state of its access. -/
theorem remoteAccessesAndAnswers : Obligations.RemoteAccessesAndAnswers := by
  unfold Obligations.RemoteAccessesAndAnswers
  refine ⟨?sent, ?received, ?taken, ?answered⟩
  case sent =>
    intro s id x t p haccess htile hspray k dest
    refine ⟨fun hwaiting hremote hfault hfirst => ?_, fun tag htag => freeTag_spec htag,
      fun tag first until_ hst hover => exec_remoteRetryBackoff haccess htile hspray hst hover,
      fun tag first hst hlate => exec_remoteTimeout haccess hst hlate,
      fun tag ten htenant hppa hcount _ => ?_⟩
    case refine_2 =>
      intro c gen q hop s1
      exact sendRemote_of_words htenant hppa hcount hop
    have hexec := exec_remoteAccessSend haccess htile hspray hwaiting hremote hfault hfirst
    refine ⟨fun hunit => by rw [hexec, if_pos ((unitTile_iff t).mpr hunit)], fun hplain => ?_⟩
    have hnounit : ¬ unitTile t = true := fun h => by
      obtain ⟨u, hu⟩ := (unitTile_iff t).mp h
      exact hu.elim (hplain u).1 (hplain u).2
    rw [hexec, if_neg hnounit]
    refine ⟨fun hnone => ?_, fun tag htag => ?_⟩
    · exact congrArg Host.Outcome.next (by rw [firstSend, engRegion]; simp only [show freeTag s (t.engine / 128) (x.ppa / 2 ^ 40) = none from hnone])
    · exact congrArg Host.Outcome.next (by rw [firstSend, engRegion]; simp only [show freeTag s (t.engine / 128) (x.ppa / 2 ^ 40) = some tag from htag]; rfl)
  case received =>
    intro row hrow s m p hop hruns go d
    have hgo : go = .next (packetResponse s (.genura m) p) := exec_response row hrow (.genura m) p s hop
    rw [exec_response row hrow .darinlink p s hop, packetResponse_darinlink p hruns, hgo]
    refine ⟨rfl, fun hdest => by rw [packetResponse_of_misrouted hdest], fun hdest hvc hnew =>
      ⟨fun hnone => by rw [packetResponse_of_unmatched hruns hdest hvc hnew hnone], fun f hfound =>
        ⟨fun hheld => by rw [packetResponse_of_closed hruns hdest hvc hnew hfound hheld],
          fun hopen hgen => by rw [packetResponse_of_staleGen hruns hdest hvc hnew hfound hopen hgen],
          fun hopen hgen => ⟨fun hclear hstatus => by rw [packetResponse_of_clear hruns hdest hvc hnew hfound hopen hgen hclear hstatus],
            fun q e hsealed hplain => by rw [packetResponse_of_opened hruns hdest hvc hnew hfound hopen hgen hsealed hplain]⟩⟩⟩⟩
  case taken =>
    intro s f p x tag first haccess hst
    exact ⟨takeResponse_of_retry haccess hst, takeResponse_of_staleRole haccess hst, takeResponse_of_reserved haccess, takeResponse_of_answer haccess⟩
  case answered =>
    intro s id x t th haccess htile hthread hthere
    have hkept : threadOf? (delAccess s id) t.engine t.thread = some th := hthread
    refine ⟨fun rd size sg d huse hop hleft hfailed hfirst hcount hall => ?loaded, fun st hst hrunning hplaced => ?failed⟩
    case loaded =>
      have htake := takeData_of_whole (t := { t with left := t.left - 1 }) (x := x) d hop hfirst (hall.trans hcount.symm)
      have hdone := tileDone_of_scalarLoad (i := x.tile) (t := { t with left := t.left - 1, bytes := slice (lineBytes d) (x.ppa % 256) x.count }) hkept hthere huse
        (by rw [hleft]) hfailed
      refine ⟨_, (deliver_of_success haccess htile rfl).trans ((congrArg _ htake).trans hdone), tget?_tdel_same .., tget?_tdel_same .., ?_, rfl⟩
      rw [hcount]
      exact threadOf?_setThread_same (lt_of_threadOf? hthread) _
    case failed =>
      obtain ⟨n, hcounted, haccesses⟩ := tileDone_of_failed (i := x.tile) (t := { t with left := t.left - 1, failed := true }) hkept rfl
      obtain ⟨hfails, hsame⟩ := failThread_of_running hcounted hrunning { status := accessFailure (decide (x.ppa / 2 ^ 40 ≠ selfId s)) st, detail := st, pva := x.pva }
      refine ⟨_, _, deliver_of_failure haccess htile hst hplaced, ?_, hfails, rfl, rfl, rfl, rfl⟩
      exact (congrArg (tget? · id) (hsame.trans haccesses)).trans (tget?_tdel_same ..)

end

/-! Fault batches, the fault ring, the fault timeout and invalidation (07, R194 to R200). -/

namespace Sys2Proof.Machine

/-! ### A batch closes (07, R194 to R196) -/

/-- The tile of record i of a batch names the record, where it still waits on its fault. -/
def nameRecord (recs : List FaultRec) (q : Nat) (s : State) (i : Nat) : State :=
  match recs[i]? with
  | none => s
  | some r => match tileOf? s r.tile with
    | some t => (match t.st with
      | .faulted _ since rights pva => setTile s r.tile { t with st := .faulted (some (q, i)) since rights pva }
      | _ => s)
    | none => s

/-- The tiles of the first n records of a batch name their records. -/
def nameRecords (recs : List FaultRec) (q n : Nat) (s : State) : State := (List.range n).foldl (nameRecord recs q) s

theorem nameRecords_succ (recs : List FaultRec) (q n : Nat) (s : State) :
    nameRecords recs q (n + 1) s = nameRecord recs q (nameRecords recs q n s) n := by
  simp only [nameRecords, List.range_succ, List.foldl_append, List.foldl_cons, List.foldl_nil]

theorem nameRecord_eq (recs : List FaultRec) (q : Nat) (s : State) (i : Nat) :
    ∃ tiles, nameRecord recs q s i = { s with eng := { s.eng with tiles := tiles } } := by
  unfold nameRecord setTile
  split
  · exact ⟨_, rfl⟩
  · split
    · split <;> exact ⟨_, rfl⟩
    · exact ⟨_, rfl⟩

theorem nameRecords_eq (recs : List FaultRec) (q n : Nat) (s : State) :
    ∃ tiles, nameRecords recs q n s = { s with eng := { s.eng with tiles := tiles } } := by
  induction n with
  | zero => exact ⟨_, rfl⟩
  | succ n ih =>
    obtain ⟨tiles, hn⟩ := ih
    rw [nameRecords_succ, hn]
    exact nameRecord_eq ..

/-- A tile with no record of that number keeps its state. -/
theorem tileOf?_nameRecord_other {recs : List FaultRec} {i j : Nat} (hother : ∀ r, recs[i]? = some r → r.tile ≠ j) (q : Nat) (s : State) :
    tileOf? (nameRecord recs q s i) j = tileOf? s j := by
  unfold nameRecord
  split
  · rfl
  next r hr =>
    split
    · split
      · rw [tileOf?_setTile, if_neg (hother r hr)]
      · rfl
    · rfl

theorem tileOf?_nameRecords_other {recs : List FaultRec} {n j : Nat} (hother : ∀ i < n, ∀ r, recs[i]? = some r → r.tile ≠ j) (q : Nat) (s : State) :
    tileOf? (nameRecords recs q n s) j = tileOf? s j := by
  induction n with
  | zero => rfl
  | succ n ih =>
    rw [nameRecords_succ, tileOf?_nameRecord_other (hother n (Nat.lt_succ_self n)), ih (fun i hi => hother i (Nat.lt_succ_of_lt hi))]

/-- The tile of a record waits on it, where it waits on a fault. -/
theorem tileOf?_nameRecord_same {recs : List FaultRec} {i since pva : Nat} {rights : Bool} {r : FaultRec} {x : Tile}
    {p : Option (Nat × Nat)} {s : State}
    (hr : recs[i]? = some r) (htile : tileOf? s r.tile = some x) (hst : x.st = .faulted p since rights pva) (q : Nat) :
    tileOf? (nameRecord recs q s i) r.tile = some { x with st := .faulted (some (q, i)) since rights pva } := by
  simp only [nameRecord, hr, htile, hst, tileOf?_setTile, if_true]

section
variable {recs : List FaultRec} (hdistinct : (recs.map (·.tile)).Nodup)
include hdistinct

/-- Two records of a batch stand for two tiles. -/
theorem index_eq_of_tile_eq {i j : Nat} {r r' : FaultRec} (hr : recs[i]? = some r) (hr' : recs[j]? = some r') (h : r.tile = r'.tile) : i = j := by
  have htile (k : Nat) (v : FaultRec) (hv : recs[k]? = some v) : (recs.map (·.tile))[k]? = some v.tile := by rw [List.getElem?_map, hv]; rfl
  obtain ⟨hlt, -⟩ := List.getElem?_eq_some_iff.mp (htile i r hr)
  exact (List.getElem?_inj hlt hdistinct).mp ((htile i r hr).trans (h ▸ (htile j r' hr').symm))

theorem tileOf?_nameRecords {n i since pva : Nat} {rights : Bool} {r : FaultRec} {x : Tile} {p : Option (Nat × Nat)} {s : State} (hi : i < n)
    (hr : recs[i]? = some r) (htile : tileOf? s r.tile = some x) (hst : x.st = .faulted p since rights pva) (q : Nat) :
    tileOf? (nameRecords recs q n s) r.tile = some { x with st := .faulted (some (q, i)) since rights pva } := by
  induction n with
  | zero => omega
  | succ n ih =>
    rw [nameRecords_succ]
    rcases Nat.lt_succ_iff_lt_or_eq.mp hi with hlt | rfl
    · rw [tileOf?_nameRecord_other fun r' hr' heq => Nat.ne_of_gt hlt (index_eq_of_tile_eq hdistinct hr' hr heq), ih hlt]
    · refine tileOf?_nameRecord_same hr ?_ hst q
      rw [tileOf?_nameRecords_other fun j hj r' hr' heq => Nat.ne_of_lt hj (index_eq_of_tile_eq hdistinct hr' hr heq), htile]

end

/-- The batch that a region closes (07, R194, R195). -/
def closedBatch (s : State) (k : Nat) : Batch :=
  { seq := s.eng.batchSeq, region := k, firstStamp := stamp s - (now s - (collectOf s k).openSince), recs := (collectOf s k).openRecs }

/-- The state in which a region has closed its batch and tiles name their records, those that wait without a place not yet in the open batch. -/
def batchClosed (s : State) (k : Nat) : State :=
  nameRecords (collectOf s k).openRecs s.eng.batchSeq (collectOf s k).openRecs.length
    { s with eng := { s.eng with batches := s.eng.batches ++ [closedBatch s k], batchSeq := (s.eng.batchSeq + 1) % 2 ^ 32 } }

theorem closeBatch_eq (s : State) (k : Nat) :
    closeBatch s k = fillWaiting (modCollect (batchClosed s k) k (fun c => { c with openRecs := [] })) k := rfl

theorem collectOf_batchClosed (s : State) (k : Nat) : collectOf (batchClosed s k) k = collectOf s k := by
  obtain ⟨tiles, h⟩ := nameRecords_eq (collectOf s k).openRecs s.eng.batchSeq (collectOf s k).openRecs.length
    { s with eng := { s.eng with batches := s.eng.batches ++ [closedBatch s k], batchSeq := (s.eng.batchSeq + 1) % 2 ^ 32 } }
  rw [batchClosed, h]
  rfl

theorem collectOf_closeBatch (s : State) (k : Nat) : (collectOf (closeBatch s k) k).openRecs = (collectOf s k).waiting.take 256 ∧
    (collectOf (closeBatch s k) k).waiting = (collectOf s k).waiting.drop 256 := by
  rw [closeBatch_eq, fillWaiting, collectOf_modCollect, if_pos rfl, collectOf_modCollect, if_pos rfl, collectOf_batchClosed]
  exact ⟨rfl, rfl⟩

/-- A batch that closes changes the batches, the collections and the tiles alone. -/
theorem closeBatch_frame (s : State) (k : Nat) : ∃ collect tiles, closeBatch s k =
    { s with eng := { s.eng with batches := s.eng.batches ++ [closedBatch s k], batchSeq := (s.eng.batchSeq + 1) % 2 ^ 32, collect := collect, tiles := tiles } } := by
  obtain ⟨tiles, h⟩ := nameRecords_eq (collectOf s k).openRecs s.eng.batchSeq (collectOf s k).openRecs.length
    { s with eng := { s.eng with batches := s.eng.batches ++ [closedBatch s k], batchSeq := (s.eng.batchSeq + 1) % 2 ^ 32 } }
  rw [closeBatch_eq, batchClosed, h]
  exact ⟨_, _, rfl⟩

theorem exec_faultBatchClose {s : State} {k : Nat} (hrecs : (collectOf s k).openRecs ≠ [])
    (hdue : 256 ≤ (collectOf s k).openRecs.length ∨ (collectOf s k).openSince + 5000 ≤ s.time.clock) (hwritten : ∀ b ∈ s.eng.batches, b.region = k → b.written = true) :
    exec (.faultBatchClose k) s = .next (closeBatch s k) := by
  have hsome : (collectOf s k).openRecs.isEmpty = false := by rwa [List.isEmpty_eq_false_iff]
  have htime : (decide (256 ≤ (collectOf s k).openRecs.length) || passed s (collectOf s k).openSince (us 20)) = true := by
    rw [Bool.or_eq_true, decide_eq_true_iff, passed_iff]
    exact hdue
  have hnone : holdsBatch s k = false := by
    rw [holdsBatch, List.any_eq_false]
    intro b hb
    by_cases hregion : b.region = k
    · simp [hwritten b hb hregion]
    · simp [hregion]
  refine when_true ?_
  rw [hsome, htime, hnone]
  rfl

/-! ### The ring (07, R195, R197) -/

section
variable {s : State} {k : Nat} {r : FaultRing} {b : Batch} (hring : s.eng.ring = some r) (hnext : nextBatch s = some b) (hregion : b.region = k)
  (hfree : ∀ x ∈ s.eng.batches, x.slot ≠ some r.head) (hquiet : ∀ l ∈ batchLines s b, quietLine s (r.offset + 16384 * r.head + l.1) = true)

include hregion hfree hquiet in
/-- The slot at the head is free, and nothing stands between the module and its lines. -/
theorem slotReady : (b.region == k && !s.eng.batches.any (fun x => x.slot == some r.head) &&
    (batchLines s b).all (fun l => quietLine s (r.offset + 16384 * r.head + l.1))) = true := by
  have hnone : s.eng.batches.any (fun x => x.slot == some r.head) = false := by
    rw [List.any_eq_false]
    intro x hx
    simp [hfree x hx]
  rw [hregion, hnone, List.all_eq_true.mpr hquiet, beq_self_eq_true]
  rfl

include hring hnext hregion hfree hquiet

theorem exec_faultBatchWrite_unmapped (hextent : extentAt s (r.offset + 16384 * r.head) = none) :
    exec (.faultBatchWrite k) s = .next (withdrawRing s b) := by
  change execFaultBatchWrite k s = _
  simp only [execFaultBatchWrite, hring, hnext, hextent]
  exact when_true (slotReady hregion hfree hquiet)

/-- The batch stands in the slot at the head, and the head moves on. -/
def batchWritten (s : State) (r : FaultRing) (b : Batch) : State :=
  { s with eng := { s.eng with ring := some { r with head := (r.head + 1) % r.slots },
                               batches := s.eng.batches.map (fun x => if x.seq = b.seq then { x with written := true, slot := some r.head } else x) } }

theorem exec_faultBatchWrite_granted {n : Nat} (hextent : extentAt s (r.offset + 16384 * r.head) = some n) (hgranted : (extentOf s n).st = .granted)
    (hrights : rightsOf (extentOf s n).access (fun _ => true) (selfId s) &&& 3 = 3) :
    let w := writeLines (r.offset + 16384 * r.head) k (extentOf s n).tenant (batchLines s b) s
    exec (.faultBatchWrite k) s = .next (if w.1 then batchWritten w.2 r b else withdrawRing w.2 b) := by
  have hallowed : (some n == some n && (extentOf s n).st == .granted && rightsOf (extentOf s n).access (fun _ => true) (selfId s) &&& 3 == 3) = true := by
    rw [hgranted, hrights]
    simp
  change execFaultBatchWrite k s = _
  simp only [execFaultBatchWrite, hring, hnext, hextent, Option.getD_some, hallowed]
  exact when_true (slotReady hregion hfree hquiet)

end

/-- A withdrawn ring gives back its batches, to be written again. -/
theorem withdrawRing_eng (s : State) (b : Batch) : (withdrawRing s b).eng = { s.eng with
    ring := none, ringWithdrawn := true, batches := s.eng.batches.map (fun x => if x.slot.isSome then { x with slot := none, reissued := true } else x) } := by
  obtain ⟨fault, life, h⟩ := note_eq { s with eng := { s.eng with
    ring := none, ringWithdrawn := true, batches := s.eng.batches.map (fun x => if x.slot.isSome then { x with slot := none, reissued := true } else x) } }
    false b.region 0 Cause.faultRingLost b.seq
  rw [withdrawRing, noteR, h]

/-! ### FAULT_TIMEOUT (07, R199) -/

theorem exec_faultTimeout {s : State} {i since pva : Nat} {x : Tile} {q : Option (Nat × Nat)} {rights : Bool} (htile : tileOf? s i = some x)
    (hst : x.st = .faulted q since rights pva) :
    exec (.faultTimeout i) s = when (passed s since (ms (timeoutAt s since))) s (failThread s x.engine x.thread { status := Sts.faultTimeout, pva := pva }) := by
  change execFaultTimeout i s = _
  simp only [execFaultTimeout, htile, hst]

/-! ### INVALIDATE_ACK (07, R200) -/

/-- The running invalidations, once an engine has acknowledged those it has drained. -/
def ackedBy (s : State) (e : Nat) :
    List Inval := s.eng.invals.map (fun v => if e ∉ v.acked ∧ drained s e v.id = true then { v with acked := v.acked ++ [e] } else v)

theorem exec_invalidateAck (s : State) (e : Nat) : exec (.invalidateAck e) s =
    .next (((ackedBy s e).filter (fun v => decide (512 ≤ v.acked.length))).foldl endInval { s with eng := { s.eng with invals := ackedBy s e } }) := by
  have hacked : s.eng.invals.map (fun v => if !v.acked.contains e && drained s e v.id then { v with acked := v.acked ++ [e] } else v) = ackedBy s e := by
    refine List.map_congr_left fun v _ => if_congr ?_ rfl rfl
    rw [Bool.and_eq_true, Bool.not_eq_true', List.contains_eq_mem, decide_eq_false_iff_not]
  change execInvalidateAck e s = _
  rw [execInvalidateAck, hacked]

end Sys2Proof.Machine

section
open Sys2Proof Sys2Proof.Machine

/-- Settles O44: the open batch, the ring, the fault timeout and the acknowledgements in turn. -/
theorem faultBatchesAndInvalidation : Obligations.FaultBatchesAndInvalidation := by
  unfold Obligations.FaultBatchesAndInvalidation
  intro s
  refine ⟨?closed, ?written, ?timeout, ?acknowledged, ?answered⟩
  case closed =>
    intro k c hrecs _ hdue hwritten hdistinct
    obtain ⟨collect, tiles, hframe⟩ := closeBatch_frame s k
    obtain ⟨hopen, hwaiting⟩ := collectOf_closeBatch s k
    refine ⟨closeBatch s k, closedBatch s k, exec_faultBatchClose hrecs hdue hwritten, by rw [hframe], rfl, rfl, rfl, rfl, rfl, by rw [hframe], hopen, hwaiting,
      fun i r x q since rights pva hr htile hst => ?_, by rw [hframe]⟩
    obtain ⟨hi, -⟩ := List.getElem?_eq_some_iff.mp hr
    exact tileOf?_nameRecords (s := { s with eng := { s.eng with batches := s.eng.batches ++ [closedBatch s k], batchSeq := (s.eng.batchSeq + 1) % 2 ^ 32 } })
      hdistinct hi hr htile hst s.eng.batchSeq
  case written =>
    intro k r b hring hnext hregion hfree base hquiet
    refine ⟨fun n hextent hgranted hrights => ?_, fun hnone => exec_faultBatchWrite_unmapped hring hnext hregion hfree hquiet hnone, _, rfl, ?_⟩
    · have hexec := exec_faultBatchWrite_granted hring hnext hregion hfree hquiet hextent hgranted hrights
      exact ⟨fun hw => hexec.trans (congrArg Host.Outcome.next (if_pos hw)), fun hw => hexec.trans (congrArg Host.Outcome.next (if_neg (ne_true_of_eq_false hw)))⟩
    · simp only [withdrawRing_eng, and_self]
  case timeout =>
    intro i x q since rights pva htile hst
    rw [exec_faultTimeout htile hst]
    exact ⟨fun hnone => by rw [timeoutAt, hnone]; rfl, fun hlate => when_true (passed_iff.mpr hlate), fun hearly => when_false (passed_eq_false_iff.mpr hearly)⟩
  case acknowledged =>
    intro e acked hunder
    have hnone : (ackedBy s e).filter (fun v => decide (512 ≤ v.acked.length)) = [] := by
      rw [List.filter_eq_nil_iff]
      intro v hv
      rw [decide_eq_true_iff, Nat.not_le]
      exact hunder v hv
    rw [exec_invalidateAck, hnone]
    rfl
  case answered =>
    intro e v h hinvals hnew hdrained hcount hwaits
    have hacked : ackedBy s e = [{ v with acked := v.acked ++ [e] }] := by simp [ackedBy, hinvals, hnew, hdrained]
    have hlast : (ackedBy s e).filter (fun v => decide (512 ≤ v.acked.length)) = [{ v with acked := v.acked ++ [e] }] := by simp [hacked, hcount]
    rw [exec_invalidateAck, hlast, hacked]
    simp only [List.foldl_cons, List.foldl_nil, endInval, hwaits, bne_self_eq_false, List.filter_cons, Bool.false_eq_true, if_false, List.filter_nil]

end

/-! Moves and losses of engines: spares, planned moves and the abrupt failure of an engine (07, R171, R202, R203; 14, R349). -/

namespace Sys2Proof.Machine

/-! ### What slices and replies leave of the engines -/

/-- Engines, threads and tiles stand. -/
structure SameEngines (s t : State) : Prop where
  logEng : t.eng.logEng = s.eng.logEng
  phys : t.eng.phys = s.eng.phys
  threads : t.eng.threads = s.eng.threads
  tiles : t.eng.tiles = s.eng.tiles

namespace SameEngines

theorem of_eq {s t : State} (heng : t.eng = s.eng) : SameEngines s t := by
  refine ⟨?_, ?_, ?_, ?_⟩ <;> rw [heng]

section
variable {s t : State} (h : SameEngines s t)
include h

theorem physOf (k i : Nat) : physOf t k i = Machine.physOf s k i := by rw [Machine.physOf, Machine.physOf, h.phys]
theorem logEngOf (e : Nat) : logEngOf t e = Machine.logEngOf s e := by rw [Machine.logEngOf, Machine.logEngOf, h.logEng]
theorem threadOf? (e n : Nat) : threadOf? t e n = Machine.threadOf? s e n := by rw [Machine.threadOf?, Machine.threadOf?, h.threads]

theorem engineThreads (e : Nat) : engineThreads t e = Machine.engineThreads s e := by
  simp only [Machine.engineThreads, h.threadOf?]

theorem spareFree (k : Nat) : spareFree t k = Machine.spareFree s k := by
  funext i
  rw [Machine.spareFree, Machine.spareFree, h.physOf]

theorem spareFor (k i : Nat) : spareFor t k i = Machine.spareFor s k i := by
  simp only [Machine.spareFor, h.spareFree]

theorem servedLogical (k i : Nat) : servedLogical t k i = Machine.servedLogical s k i := by
  simp only [Machine.servedLogical, h.logEngOf]

theorem adopterOf (e : Nat) : adopterOf t e = Machine.adopterOf s e := by
  simp only [Machine.adopterOf, h.logEngOf, h.physOf]

theorem modPhys (k i : Nat) (f : PhysEng → PhysEng) : SameEngines (modPhys s k i f) (Machine.modPhys t k i f) :=
  ⟨h.logEng, by simp only [Machine.modPhys, h.phys], h.threads, h.tiles⟩

theorem modLogEng (e : Nat) (f : LogEng → LogEng) : SameEngines (modLogEng s e f) (Machine.modLogEng t e f) :=
  ⟨by simp only [Machine.modLogEng, h.logEng], h.phys, h.threads, h.tiles⟩

end
end SameEngines

/-- Engines, threads, tiles and faults stand; packets and self-tests may have changed. -/
structure SameUnits (s t : State) : Prop extends SameEngines s t where
  fault : t.fault = s.fault

namespace SameUnits

theorem of_eq {s t : State} (heng : t.eng = s.eng) (hfault : t.fault = s.fault) : SameUnits s t := ⟨.of_eq heng, hfault⟩

theorem refl (s : State) : SameUnits s s := .of_eq rfl rfl

theorem trans {s t u : State} (h : SameUnits s t) (k : SameUnits t u) : SameUnits s u :=
  ⟨⟨k.logEng.trans h.logEng, k.phys.trans h.phys, k.threads.trans h.threads, k.tiles.trans h.tiles⟩, k.fault.trans h.fault⟩

theorem ite {s t u : State} {c : Prop} [Decidable c] (ht : SameUnits s t) (hu : SameUnits s u) : SameUnits s (if c then t else u) := by
  split <;> assumption

theorem foldl {α : Type} {f : State → α → State} (hf : ∀ s x, SameUnits s (f s x)) : ∀ (l : List α) (s : State), SameUnits s (l.foldl f s)
  | [], s => .refl s
  | x :: l, s => (hf s x).trans (foldl hf l (f s x))

section
variable {s t : State} (h : SameUnits s t)
include h

theorem regFault (k : Nat) : regFault t k = Machine.regFault s k := by rw [Machine.regFault, Machine.regFault, h.fault]

theorem modPhys (k i : Nat) (f : PhysEng → PhysEng) :
    SameUnits (modPhys s k i f) (Machine.modPhys t k i f) := ⟨h.toSameEngines.modPhys k i f, h.fault⟩

theorem modLogEng (e : Nat) (f : LogEng → LogEng) : SameUnits (modLogEng s e f) (Machine.modLogEng t e f) := ⟨h.toSameEngines.modLogEng e f, h.fault⟩

end
end SameUnits

theorem dlBefore_sameUnits (s : State) (n : Nat) : SameUnits s (dlBefore s n) := by
  unfold dlBefore
  exact .ite (.of_eq rfl rfl) (.of_eq rfl rfl)

theorem dlPump_sameUnits : ∀ (l kept : List Packet) (s : State), SameUnits s (dlPump s l kept)
  | [], _, _ => .of_eq rfl rfl
  | m :: rest, kept, s => by
    unfold dlPump
    extract_lets d c raw sent
    have hsent : SameUnits (dlBefore s 1) (emit sent (.message m raw)) := .of_eq rfl rfl
    exact .ite (((dlBefore_sameUnits s 1).trans hsent).trans (dlPump_sameUnits rest kept _)) (dlPump_sameUnits rest _ s)

theorem sendDl_sameUnits (s : State) (m : Packet) : SameUnits s (sendDl s m) := by
  unfold sendDl flushDl
  extract_lets d
  refine .ite (.of_eq rfl rfl) (SameUnits.trans ?_ (dlPump_sameUnits ..))
  exact .of_eq rfl rfl

theorem pump_sameUnits (n : Nat) : ∀ (l kept : List Packet) (s : State), SameUnits s (pump s n l kept)
  | [], _, _ => .of_eq rfl rfl
  | pk :: rest, kept, s => by
    unfold pump
    extract_lets p sent
    have hsent : SameUnits s (emit sent (.flit n p.nextSeq false [pk] (seqFlit sent n p.nextSeq [pk]))) := .of_eq rfl rfl
    exact .ite (hsent.trans (pump_sameUnits n rest kept _)) (pump_sameUnits n rest _ s)

theorem sendOn_sameUnits (s : State) (n : Nat) (pk : Packet) : SameUnits s (sendOn s n pk) :=
  SameUnits.trans (t := modPort s n _) (.of_eq rfl rfl) (pump_sameUnits ..)

theorem replyPort_sameUnits (s : State) (n : Nat) : SameUnits s (replyPort s n).2 := by
  unfold replyPort
  dsimp only
  repeat' split
  all_goals exact .of_eq rfl rfl

theorem replyParts_sameUnits (h : OrderHdr) (code status : Nat) (res : List Byte) (parts : Nat) :
    ∀ (l : List Nat) (s : State), SameUnits s (replyParts s h code status res parts l)
  | [], s => .refl s
  | i :: rest, s => by
    unfold replyParts
    refine SameUnits.trans ?_ (replyParts_sameUnits h code status res parts rest _)
    split
    · exact sendDl_sameUnits ..
    · have hcounter : SameUnits s (nextCounter s 4).2 := .of_eq rfl rfl
      exact (hcounter.trans (replyPort_sameUnits ..)).trans (sendOn_sameUnits ..)

theorem finish_sameUnits (s : State) (h : OrderHdr) (code status : Nat) (res : List Byte) : SameUnits s (finish s h code status res) := by
  refine SameUnits.trans (t := settleOrder s h) ?_ (replyParts_sameUnits ..)
  unfold settleOrder
  split <;> exact .of_eq rfl rfl

theorem answerWaits_sameUnits (s : State) : SameUnits s (answerWaits s) := by
  refine .foldl (fun s m => ?_) _ s
  split
  · exact SameUnits.trans (t := modMaster s m _) (.of_eq rfl rfl) (finish_sameUnits ..)
  · exact .refl s

theorem askWidth_sameUnits (s : State) (w : Nat) : SameUnits s (askWidth s w) := by
  unfold askWidth sendDlCtrl
  refine .ite ?_ (.refl s)
  exact SameUnits.trans (t := modDl s _) (.of_eq rfl rfl) ((dlBefore_sameUnits _ 1).trans (.of_eq rfl rfl))

theorem sliceEntry_sameUnits (s : State) (k : Nat) (x : SliceEntry) : SameUnits s (sliceEntry s k x) := by
  unfold sliceEntry
  exact .ite (.of_eq rfl rfl) (.of_eq rfl rfl)

/-! ### A slice that ends, and a spare that is held (07, R171; 14, R349) -/

/-- The unit of a slice is under test no longer, where it is an engine. -/
def testOver (s : State) (k u : Nat) : State := if u / 2048 = Kind.engine then modPhys s k (u % 2048) (fun p => { p with underTest := false }) else s

theorem SameUnits.testOver {s t : State} (h : SameUnits s t) (k u : Nat) : SameUnits (testOver s k u) (testOver t k u) := by
  unfold Machine.testOver
  split
  · exact h.modPhys ..
  · exact h

/-- The end of a slice touches of the engines the one under test alone. -/
theorem sliceOver_sameUnits {s : State} {k u seg since : Nat} {x : Nat} (outcome : Nat) (hcurrent : (bistOf s k).current = some (u, seg, since, x)) :
    SameUnits (testOver s k u) (sliceOver s k outcome) := by
  unfold sliceOver
  extract_lets b
  split
  next hnone => exact absurd (hnone.symm.trans hcurrent) (by simp)
  next u' seg' since' x' hfound =>
  obtain ⟨rfl, -, -, -⟩ : u = u' ∧ seg = seg' ∧ since = since' ∧ x = x' := by simpa using hcurrent.symm.trans hfound
  extract_lets closed counted freed awake asked
  have hclosed : SameUnits s closed := .of_eq rfl rfl
  have hcounted : SameUnits closed counted := .ite (.of_eq rfl rfl) (.ite (.of_eq rfl rfl) (.refl _))
  have hfreed : SameUnits (testOver s k u) freed := (hclosed.trans hcounted).testOver k u
  clear_value closed counted freed
  have hawake : SameUnits freed awake := by
    unfold awake
    split
    · refine .of_eq ?_ ?_
      · simp only [wakeChan, refreshAll, issueCmds, loadTiming, modChan_eng, modPchan_eng]
      · simp only [wakeChan, refreshAll, issueCmds, loadTiming, modChan_fault, modPchan_fault]
    · exact .refl _
  clear_value awake
  have hasked : SameUnits awake asked := .ite (askWidth_sameUnits _ 0) (.refl _)
  exact ((hfreed.trans hawake).trans hasked).trans (.ite (.of_eq rfl rfl) (sliceEntry_sameUnits ..))

/-- A free spare that a failure or a move has taken. -/
def PhysEng.held (p : PhysEng) : PhysEng := { p with active := true, underTest := false }

theorem modPhys_modPhys (s : State) (k i : Nat) (f g : PhysEng → PhysEng) : modPhys (modPhys s k i f) k i g = modPhys s k i (fun p => g (f p)) := by
  simp [modPhys, tmod, tset_tset]

theorem physOf_modPhys (s : State) (k i j : Nat) (f : PhysEng → PhysEng) :
    physOf (modPhys s k i f) k j = if i = j then f (physOf s k i) else physOf s k j := by
  simp only [physOf, modPhys, tmod, tget_tset]
  by_cases h : i = j
  · subst h
    rw [if_pos rfl, if_pos rfl]
  · rw [if_neg h, if_neg (by omega)]

/-- A spare is held, whether a slice on it was abandoned or not. -/
theorem holdSpare_sameUnits (s : State) (k j : Nat) : SameUnits (modPhys s k j PhysEng.held) (holdSpare s k j) := by
  have hyield : SameUnits s (yieldSlice s k (unitId Kind.engine j)) ∨ SameUnits (testOver s k (unitId Kind.engine j)) (yieldSlice s k (unitId Kind.engine j)) := by
    unfold yieldSlice
    split
    next u seg since x hcurrent =>
      split
      next hu => exact .inr (hu ▸ sliceOver_sameUnits _ hcurrent)
      · exact .inl (.refl s)
    · exact .inl (.refl s)
  have htested : SameUnits (modPhys s k j PhysEng.held) (modPhys (testOver s k (unitId Kind.engine j)) k j PhysEng.held) := by
    unfold testOver
    split
    next hkind =>
      have hj : unitId Kind.engine j % 2048 = j := by unfold unitId at hkind ⊢; omega
      rw [hj, modPhys_modPhys]
      exact .refl _
    · exact .refl _
  rcases hyield with h | h
  · exact h.modPhys k j _
  · exact htested.trans (h.modPhys k j _)

/-! ### The spare that R171 picks -/

/-- The spare found is free, and each number sought before it is not. -/
theorem find?_map_add {n base j : Nat} {p : Nat → Bool} (h : ((List.range n).map (base + ·)).find? p = some j) :
    p j = true ∧ base ≤ j ∧ j < base + n ∧ ∀ q, base ≤ q → q < j → p q = false := by
  obtain ⟨hp, i, hi, hij, hbefore⟩ := List.find?_eq_some_iff_getElem.mp h
  rw [List.length_map, List.length_range] at hi
  rw [List.getElem_map, List.getElem_range] at hij
  refine ⟨hp, by omega, by omega, fun q hbase hq => ?_⟩
  have hfails := hbefore (q - base) (by omega)
  rw [List.getElem_map, List.getElem_range, Nat.add_sub_cancel' hbase] at hfails
  exact Bool.not_eq_true' _ ▸ hfails

theorem spareFor_spec {s : State} {k i j : Nat} (h : spareFor s k i = some j) : (physOf s k j).fenced = false ∧ (physOf s k j).active = false ∧
    (j / 9 = i / 9 ∨ ∀ q < 9, spareFree s k (i / 9 * 9 + q) = false) ∧ ∀ q < j, j / 9 ≠ i / 9 ∨ i / 9 * 9 ≤ q → spareFree s k q = false := by
  have hfree (hj : spareFree s k j = true) : (physOf s k j).fenced = false ∧ (physOf s k j).active = false := by
    rw [spareFree, Bool.and_eq_true, Bool.not_eq_true', Bool.not_eq_true'] at hj
    exact hj
  unfold spareFor at h
  split at h
  next j' hfound =>
    obtain rfl := Option.some.inj h
    obtain ⟨hj, hle, hlt, hbefore⟩ := find?_map_add hfound
    have hcluster : j' / 9 = i / 9 := by omega
    exact ⟨(hfree hj).1, (hfree hj).2, .inl hcluster, fun q hq hor => hbefore q (hor.resolve_left (not_not_intro hcluster)) hq⟩
  next hnone =>
    have hrange : ((List.range 144).map (0 + ·)).find? (spareFree s k) = some j := by simpa using h
    obtain ⟨hj, -, -, hbefore⟩ := find?_map_add hrange
    refine ⟨(hfree hj).1, (hfree hj).2, .inr fun q hq => ?_, fun q hq _ => hbefore q (Nat.zero_le q) hq⟩
    exact Bool.eq_false_iff.mpr (List.find?_eq_none.mp hnone _ (List.mem_map.mpr ⟨q, List.mem_range.mpr hq, rfl⟩))

/-! ### Planned moves (07, R202; 14, R349) -/

/-- What lets the move of a logical engine begin: it runs on an engine in service and no record is pending, or an adopter runs it and its replacement is not withheld. -/
def mayMove (s : State) (e : Nat) : Bool :=
  if (logEngOf s e).adoptedBy.isSome then !moveWithheld s e else !(physOf s (e / 128) (logEngOf s e).phys).fenced && !recordPending s

theorem exec_plannedMoveStart_kept {s : State} {e : Nat} (h : mayMove s e = false) : exec (.plannedMoveStart e) s = .next s := by
  have hmay : (if (logEngOf s e).adoptedBy.isSome then !moveWithheld s e else !(physOf s (engRegion e) (logEngOf s e).phys).fenced && !recordPending s) = false := h
  change execPlannedMoveStart e s = _
  exact when_false (by simp only [hmay, Bool.and_false, Bool.false_and])

theorem exec_plannedMoveStart {s : State} {e : Nat} (hmove : (logEngOf s e).move = none) (hmay : mayMove s e = true)
    (hdie : (regFault s (e / 128)).fenced = false)
    (hrun : s.fault.halted = false) (hretry : moveRetry s e ≤ s.time.clock) : exec (.plannedMoveStart e) s = .next (beginMove s e).2 := by
  have hstarts : (if (logEngOf s e).adoptedBy.isSome then !moveWithheld s e else !(physOf s (engRegion e) (logEngOf s e).phys).fenced && !recordPending s) = true := hmay
  have hserves : (regFault s (engRegion e)).fenced = false := hdie
  change execPlannedMoveStart e s = _
  exact when_true (by simp only [hmove, hstarts, hserves, hrun, Option.isNone_none, Bool.not_false, Bool.and_self, Bool.true_and]; exact decide_eq_true hretry)

theorem beginMove_of_none {s : State} {e : Nat} (h : spareFor s (e / 128) (logEngOf s e).phys = none) : (beginMove s e).2 = s := by
  unfold beginMove engRegion
  simp only [h]

/-- A move that begins names its spare, which is held. -/
theorem beginMove_sameUnits {s : State} {e j : Nat} (h : spareFor s (e / 128) (logEngOf s e).phys = some j) :
    SameUnits (modLogEng (modPhys s (e / 128) j PhysEng.held) e (fun l => { l with move := some { spare := j, since := s.time.clock } })) (beginMove s e).2 := by
  unfold beginMove engRegion
  simp only [h]
  exact (holdSpare_sameUnits s (e / 128) j).modLogEng e _

section
variable {s : State} {e : Nat} {m : PlannedMove} (hmove : (logEngOf s e).move = some m)
include hmove

theorem exec_plannedMoveDone : exec (.plannedMoveDone e) s = when (movesafe s e) s (wakeResumed (moveDone s e m)) := by
  change execPlannedMoveDone e s = _
  simp only [execPlannedMoveDone, hmove]

theorem exec_plannedMoveAbandon (hlate : m.since + 12500 ≤ s.time.clock) (hunsafe : movesafe s e = false) :
    exec (.plannedMoveAbandon e) s = .next (wakeResumed (moveAbandoned s e m)) := by
  change execPlannedMoveAbandon e s = _
  simp only [execPlannedMoveAbandon, hmove]
  exact when_true (by rw [hunsafe, Bool.not_false, Bool.and_true]; exact passed_iff.mpr hlate)

end

/-- With no tile resumed none is translated again. -/
theorem wakeResumed_of_none {s : State} (h : ∀ x ∈ s.eng.tiles, ∀ since, x.2.st ≠ .resumed since) : wakeResumed s = s := by
  have hfold : ∀ (l : Tab Tile), (∀ x ∈ l, ∀ since, x.2.st ≠ .resumed since) → l.foldl (fun s x => match x.2.st with
      | .resumed since => if moving s x.2.engine x.2.thread then s else translateOrFault s x.1 x.2 since
      | _ => s) s = s := by
    intro l hl
    induction l with
    | nil => rfl
    | cons x l ih =>
      rw [List.foldl_cons]
      have hx := hl x (List.mem_cons_self ..)
      split
      next since hst => exact absurd hst (hx since)
      · exact ih fun y hy => hl y (List.mem_cons_of_mem _ hy)
  exact hfold _ h

/-- The engines of a move given up: the spare is free, the logical engine stays. -/
def moveGivenUp (s : State) (e : Nat) (m : PlannedMove) : State :=
  modLogEng (modPhys s (e / 128) m.spare (fun p => { p with active := false })) e (fun l => { l with move := none })

/-- The move may be tried again 10 ms later. -/
def moveRetried (s : State) (e : Nat) (m : PlannedMove) : State :=
  modBist (moveGivenUp s e m) (e / 128) (fun b => { b with retryAt := tset b.retryAt e (s.time.clock + 2500000) })

/-- The slice entry of a move made for self-test and given up (14, R349, Table 14.6). -/
def drainEntry (s : State) (e : Nat) (m : PlannedMove) : SliceEntry :=
  { timestamp := stamp s - (now s - m.since), unit := 0x2000 + (logEngOf s e).phys, segment := 0, outcome := Outcome.abandonedDrain,
    duration := min 0xFFFF ((now s - m.since) / 250), catchUp := 0 }

theorem moveAbandoned_of_adopted {s : State} {e : Nat} (m : PlannedMove) (h : (logEngOf s e).adoptedBy.isSome = true) :
    moveAbandoned s e m = moveRetried s e m :=
  if_pos h

theorem moveAbandoned_of_own {s : State} {e : Nat} (m : PlannedMove) (h : (logEngOf s e).adoptedBy = none) : moveAbandoned s e m =
    sliceEntry (modBist (moveRetried s e m) (e / 128) (fun b => { b with lastStamp := stamp s, run := satInc 32 b.run, abandoned := satInc 16 b.abandoned }))
      (e / 128) (drainEntry s e m) :=
  if_neg (by rw [h]; exact Bool.false_ne_true)

theorem bistOf_sliceEntry (s : State) (k : Nat) (x : SliceEntry) :
    bistOf (sliceEntry s k x) k = { bistOf s k with entries := (x :: (bistOf s k).entries).take 16 } := by
  have hrecord (t : State) (type : Nat) (body : List Byte) : bistOf (eventRec t type body) k = bistOf t k := rfl
  unfold sliceEntry
  dsimp only
  split
  · rw [bistOf_modBist, if_pos rfl]
  · rw [hrecord, bistOf_modBist, if_pos rfl]

theorem moveAbandoned_sameUnits (s : State) (e : Nat) (m : PlannedMove) : SameUnits (moveGivenUp s e m) (moveAbandoned s e m) := by
  have hretried : SameUnits (moveGivenUp s e m) (moveRetried s e m) := .of_eq rfl rfl
  cases hadopted : (logEngOf s e).adoptedBy with
  | some a =>
    rw [moveAbandoned_of_adopted m (by rw [hadopted]; rfl)]
    exact hretried
  | none =>
    rw [moveAbandoned_of_own m hadopted]
    have hcounted : SameUnits (moveRetried s e m) (modBist (moveRetried s e m) (e / 128)
        (fun b => { b with lastStamp := stamp s, run := satInc 32 b.run, abandoned := satInc 16 b.abandoned })) := .of_eq rfl rfl
    exact (hretried.trans hcounted).trans (sliceEntry_sameUnits ..)

theorem bistOf_moveRetried (s : State) (e : Nat) (m : PlannedMove) : bistOf (moveRetried s e m) (e / 128) =
    { bistOf s (e / 128) with retryAt := tset (bistOf s (e / 128)).retryAt e (s.time.clock + 2500000) } := by
  rw [moveRetried, bistOf_modBist, if_pos rfl]
  rfl

/-- A move made for self-test and given up is counted and entered as a slice that was abandoned. -/
theorem bistOf_moveAbandoned_of_own {s : State} {e : Nat} (m : PlannedMove) (h : (logEngOf s e).adoptedBy = none) : ∃ rest,
    bistOf (moveAbandoned s e m) (e / 128) = { bistOf (moveRetried s e m) (e / 128) with
      lastStamp := stamp s, run := satInc 32 (bistOf s (e / 128)).run, abandoned := satInc 16 (bistOf s (e / 128)).abandoned, entries := drainEntry s e m :: rest } := by
  rw [moveAbandoned_of_own m h, bistOf_sliceEntry, bistOf_modBist, if_pos rfl, bistOf_moveRetried]
  exact ⟨_, rfl⟩

theorem retryAt_moveAbandoned (s : State) (e : Nat) (m : PlannedMove) :
    tget? (bistOf (moveAbandoned s e m) (e / 128)).retryAt e = some (s.time.clock + 2500000) := by
  have hretry : (bistOf (moveAbandoned s e m) (e / 128)).retryAt = tset (bistOf s (e / 128)).retryAt e (s.time.clock + 2500000) := by
    cases hadopted : (logEngOf s e).adoptedBy with
    | some a => rw [moveAbandoned_of_adopted m (by rw [hadopted]; rfl), bistOf_moveRetried]
    | none =>
      obtain ⟨rest, hbist⟩ := bistOf_moveAbandoned_of_own m hadopted
      rw [hbist, bistOf_moveRetried]
  rw [hretry, tget?_tset, if_pos rfl]

/-! ### The abrupt failure of an engine (07, R203; 12, Table 12.10) -/

/-- The failure of an engine at its collector. -/
def engineFault (k i : Nat) : FaultIn := { region := k, unit := 0x2000 + i, cause := 0x47 }

/-- The record of an engine's failure, as it is latched. -/
def engineRecord (s : State) (k i : Nat) : FaultRecord :=
  { unit := 0x2000 + i, cause := 0x47, detail := 0, region := k, cls := 1, raised := 1, hub := false, seq := s.fault.nextSeq, timestamp := stamp s }

theorem eventRec_eq (s : State) (type : Nat) (body : List Byte) : ∃ life, eventRec s type body = { s with life := life } := by
  unfold eventRec lifeAdd
  exact ⟨_, rfl⟩

/-- The fault log after a record has taken the next number. -/
def faultLogged (s : State) (life : LifeSt) (log : List FaultRecord) : State :=
  { s with life := life, fault := { s.fault with log := log, nextSeq := (s.fault.nextSeq + 1) % 2 ^ 32 } }

/-- A fault that is logged has the next number, and the log and the lifetime record take it. -/
theorem logFault_eq (s : State) (r : FaultRecord) : ∃ life log,
    logFault s r = (faultLogged s life log, { r with seq := s.fault.nextSeq, timestamp := stamp s }) := by
  unfold logFault
  extract_lets r' log faults s'
  obtain ⟨life, hrecord⟩ := eventRec_eq s' 0x05 (r'.bytes true)
  rw [hrecord]
  exact ⟨_, _, rfl⟩

/-- With no FENCE pending in its region the failure is latched as its record. -/
theorem latch_engineFault {s : State} {k : Nat} (i : Nat) (hnone : (regFault s k).fence = none) : ∃ life log,
    latch s (engineFault k i) =
    { st := modRegFault (faultLogged s life log) k (fun x => { x with fence := some (engineRecord s k i) }),
      seq := s.fault.nextSeq, record := s.fault.nextSeq, escalated := false, halt := false } := by
  have hpending : pendingOf s 1 false k = none := hnone
  have hclass : causeClass 0x47 = 1 := rfl
  obtain ⟨life, log, hlog⟩ := logFault_eq s { detail := 0, unit := 0x2000 + i, cause := 0x47, region := k, cls := 1, raised := 1, hub := false }
  refine ⟨life, log, ?_⟩
  simp only [latch, engineFault, hclass, latchAt, hpending, Bool.false_eq_true, if_false, hlog, Bool.and_false, Bool.false_and]
  rfl

/-- A fenced engine, out of service. -/
def PhysEng.lost (p : PhysEng) : PhysEng := { p with fenced := true, active := false, underTest := false }

/-- A logical engine on the physical engine `j`, under its next generation. -/
def LogEng.movedTo (j : Nat) (l : LogEng) : LogEng := { l with phys := j, gen := (l.gen + 1) % 256 }

/-- Engine `e`'s translations are dropped. -/
def tlbDropped (s : State) (e : Nat) : State := { s with eng := { s.eng with tlb := tdel s.eng.tlb e } }

theorem tlbDropped_sameUnits (s : State) (e : Nat) : SameUnits s (tlbDropped s e) := ⟨⟨rfl, rfl, rfl, rfl⟩, rfl⟩

section
variable {s : State} {k i e : Nat} (hserved : servedLogical s k i = some e) (hmove : (logEngOf s e).move = none) (hidle : engineThreads s e = [])
include hserved hmove hidle

theorem loseEngine_of_spare {j : Nat} (hspare : spareFor (modPhys s k i PhysEng.lost) k i = some j) :
    (loseEngine s k i false).1 = some j ∧
      SameUnits (modLogEng (modPhys (modPhys s k i PhysEng.lost) k j PhysEng.held) e (LogEng.movedTo j)) (loseEngine s k i false).2 := by
  have hkept : (logEngOf (modPhys s k i (fun p => { p with fenced := true, active := false, underTest := false })) e).move = none := hmove
  have hfree : spareFor (modPhys s k i (fun p => { p with fenced := true, active := false, underTest := false })) k i = some j := hspare
  have htaken : SameUnits (modPhys (modPhys s k i PhysEng.lost) k j PhysEng.held) (takeSpareEngine (modPhys s k i PhysEng.lost) k j) :=
    (holdSpare_sameUnits ..).trans (.of_eq rfl rfl)
  have hmoved := htaken.modLogEng e (LogEng.movedTo j)
  have hempty : engineThreads (modLogEng (takeSpareEngine (modPhys s k i PhysEng.lost) k j) e (LogEng.movedTo j)) e = [] :=
    (hmoved.engineThreads e).trans hidle
  have hloses : loseEngine s k i false =
      (some j, tlbDropped (modLogEng (takeSpareEngine (modPhys s k i PhysEng.lost) k j) e (LogEng.movedTo j)) e) := by
    unfold loseEngine
    simp only [hserved, hkept, Bool.false_eq_true, if_false, hfree]
    exact congrArg (Prod.mk (some j)) (congrArg (List.foldl _ _) hempty)
  rw [hloses]
  exact ⟨rfl, hmoved.trans (tlbDropped_sameUnits ..)⟩

theorem loseEngine_of_adopter {a : Nat} (hspare : spareFor (modPhys s k i PhysEng.lost) k i = none)
    (hadopter : adopterOf (modPhys s k i PhysEng.lost) e = some a) :
    (loseEngine s k i false).1 = none ∧
      SameUnits (modLogEng (modPhys s k i PhysEng.lost) e (fun l => { l with adoptedBy := some a })) (loseEngine s k i false).2 := by
  have hkept : (logEngOf (modPhys s k i (fun p => { p with fenced := true, active := false, underTest := false })) e).move = none := hmove
  have hnone : spareFor (modPhys s k i (fun p => { p with fenced := true, active := false, underTest := false })) k i = none := hspare
  have hfound : adopterOf (modPhys s k i (fun p => { p with fenced := true, active := false, underTest := false })) e = some a := hadopter
  have hempty : engineThreads (modLogEng (modPhys s k i PhysEng.lost) e (fun l => { l with adoptedBy := some a })) e = [] := hidle
  have hloses : loseEngine s k i false =
      (none, tlbDropped (modLogEng (modPhys s k i PhysEng.lost) e (fun l => { l with adoptedBy := some a })) e) := by
    unfold loseEngine
    simp only [hserved, hkept, Bool.false_eq_true, if_false, hnone, hfound]
    exact congrArg (Prod.mk none) (congrArg (List.foldl _ _) hempty)
  rw [hloses]
  exact ⟨rfl, tlbDropped_sameUnits ..⟩

end

/-! ### The record and what is out of service (12, R315, R320) -/

theorem amend_eng (s : State) (f : FaultIn) (seq : Nat) (g : FaultRecord → FaultRecord) : (amend s f seq g).eng = s.eng := by
  have hput (t : State) (c : Nat) (r : Option FaultRecord) : (setPending t c f.hub f.region r).eng = t.eng := by
    unfold setPending
    repeat' split
    all_goals rfl
  simp only [amend, List.foldl_cons, List.foldl_nil, hput]
  rfl

/-- A record that is amended is amended where it is pending. -/
theorem fence_amend (s : State) (k i seq : Nat) (g : FaultRecord → FaultRecord) :
    (regFault (amend s (engineFault k i) seq g) k).fence = (regFault s k).fence.map (fun e => if e.seq = seq then g e else e) := by
  have hfence (t : State) (r : Option FaultRecord) : setPending t 1 (engineFault k i).hub (engineFault k i).region r = modRegFault t k (fun x => { x with fence := r }) := rfl
  have hothers (t : State) (r : Option FaultRecord) (c : Nat) (hc : c ≠ 1) : (regFault (setPending t c (engineFault k i).hub (engineFault k i).region r) k) = regFault t k := by
    rw [setPending, if_neg hc]
    split <;> rfl
  simp only [amend, List.foldl_cons, List.foldl_nil]
  rw [hothers _ _ 3 (by decide), hothers _ _ 2 (by decide), hfence, regFault_modRegFault, if_pos rfl]
  rfl

/-- An engine's failure that has been latched: the state its reaction starts from. -/
structure EngineLatched (s t : State) (k i : Nat) : Prop where
  eng : t.eng = s.eng
  fence : (regFault t k).fence = some (engineRecord s k i)

theorem exec_engineAbruptFail {s : State} {k i : Nat} (hi : i < 144) (hnone : (regFault s k).fence = none)
    (hin : (physOf s k i).fenced = false) {e : Nat}
    (hserved : servedLogical s k i = some e) : ∃ t, EngineLatched s t k i ∧ exec (.engineAbruptFail k i) s = .next (answerWaits (tagWithheld
      (outOrSpare (loseEngine t k i false).2 (engineFault k i) s.fault.nextSeq false ((loseEngine t k i false).1.map (unitId Kind.engine))) s.fault.nextSeq)) := by
  obtain ⟨life, log, hlatch⟩ := latch_engineFault i hnone
  have hstart : latched s (engineFault k i) = (latch s (engineFault k i)).st := by
    rw [latched, hlatch]
    rfl
  refine ⟨(latch s (engineFault k i)).st, ?_, ?_⟩
  · rw [hlatch]
    exact ⟨rfl, congrArg RegionFault.fence ((regFault_modRegFault _ k k _).trans (if_pos rfl))⟩
  have heng : (latch s (engineFault k i)).st.eng = s.eng := by rw [hlatch]; rfl
  have hin' : (physOf (latch s (engineFault k i)).st k i).fenced = false := (congrArg PhysEng.fenced ((SameEngines.of_eq heng).physOf k i)).trans hin
  have hserved' : servedLogical (latch s (engineFault k i)).st k i = some e := ((SameEngines.of_eq heng).servedLogical k i).trans hserved
  have hindex : (engineFault k i).unit % 2048 = i := by simp only [engineFault]; omega
  have hreaction : reaction (raiseN 4) (latch s (engineFault k i)).st (engineFault k i) s.fault.nextSeq false =
      engineReaction (latch s (engineFault k i)).st (engineFault k i) s.fault.nextSeq false := rfl
  have hlost : engineReaction (latch s (engineFault k i)).st (engineFault k i) s.fault.nextSeq false =
      outOrSpare (loseEngine (latch s (engineFault k i)).st k i false).2 (engineFault k i) s.fault.nextSeq false
        ((loseEngine (latch s (engineFault k i)).st k i false).1.map (unitId Kind.engine)) := by
    unfold engineReaction
    rw [hindex]
    simp only [show (engineFault k i).region = k from rfl, hin', Bool.false_eq_true, if_false, hserved', Option.isSome_some, if_true]
  have hraise : exec (.engineAbruptFail k i) s = .next (raise s (engineFault k i)) := rfl
  rw [hraise, raise_eq, hstart]
  rw [show (latch s (engineFault k i)).seq = s.fault.nextSeq by rw [hlatch], show (latch s (engineFault k i)).escalated = false by rw [hlatch],
    show (latch s (engineFault k i)).record = s.fault.nextSeq by rw [hlatch], hreaction, hlost]

theorem outOrSpare_eng (s : State) (f : FaultIn) (seq : Nat) (held : Bool) (spare : Option Nat) : (outOrSpare s f seq held spare).eng = s.eng := by
  cases spare with
  | none => rfl
  | some u => exact amend_eng ..

/-- The spare taken joins the record that is pending. -/
theorem fence_outOrSpare_some (s : State) (k i seq u : Nat) (held : Bool) : (regFault (outOrSpare s (engineFault k i) seq held (some u)) k).fence =
    (regFault s k).fence.map (fun e => if e.seq = seq then { e with spareUsed := some u } else e) :=
  fence_amend s k i seq (fun e => { e with spareUsed := some u })

/-- With no spare the engine is listed as out of service, its replacement not withheld. -/
theorem out_tagWithheld_none (s : State) (k i seq record : Nat) :
    ∃ x ∈ (tagWithheld (outOrSpare s (engineFault k i) seq false none) record).fault.out,
    x.hub = false ∧ x.region = k ∧ x.unit = 0x2000 + i ∧ x.withheld = false :=
  ⟨_, List.mem_map.mpr ⟨_, List.mem_append_right _ (List.mem_singleton_self _), rfl⟩, rfl, rfl, rfl, rfl⟩

/-- What the rest of the reaction leaves of the engines. -/
theorem raised_units (s : State) (f : FaultIn) (seq record : Nat) (held : Bool) (spare : Option Nat) :
    let t := answerWaits (tagWithheld (outOrSpare s f seq held spare) record)
    (∀ k i, physOf t k i = physOf s k i) ∧ (∀ e, logEngOf t e = logEngOf s e) ∧
      (∀ k, regFault t k = regFault (outOrSpare s f seq held spare) k) ∧ t.fault.out = (tagWithheld (outOrSpare s f seq held spare) record).fault.out := by
  have hwaits := answerWaits_sameUnits (tagWithheld (outOrSpare s f seq held spare) record)
  have heng : (tagWithheld (outOrSpare s f seq held spare) record).eng = s.eng := outOrSpare_eng ..
  refine ⟨fun k i => (hwaits.physOf k i).trans ?_, fun e => (hwaits.logEngOf e).trans ?_, fun k => hwaits.regFault k, congrArg FaultSt.out hwaits.fault⟩
  · rw [physOf, heng, physOf]
  · rw [logEngOf, heng, logEngOf]

end Sys2Proof.Machine

section
open Sys2Proof Sys2Proof.Machine

/-- Settles O45: the start of a planned move by what may move and the free spare, its end, and an abrupt failure with and without a free spare. -/
theorem enginesMoveAndFail : Obligations.EnginesMoveAndFail := by
  unfold Obligations.EnginesMoveAndFail
  refine ⟨?moves, ?fails⟩
  case moves =>
    intro s e k l
    refine ⟨fun hadopted hwithheld => exec_plannedMoveStart_kept ?_, fun hown hpending => exec_plannedMoveStart_kept ?_,
      fun hmove hmay hdie hrun hretry => ?starts, fun i j => spareFor_spec, fun m hmove => ⟨fun hsafe => ?done, fun hunsafe => ?stays, fun hlate hunsafe hresumed => ?abandoned⟩⟩
    · exact (if_pos hadopted).trans (by rw [hwithheld]; rfl)
    · exact (if_neg (by rw [show (logEngOf s e).adoptedBy = none from hown]; exact Bool.false_ne_true)).trans (by rw [hpending, Bool.not_true, Bool.and_false])
    case starts =>
      have hmoves : mayMove s e = true := by
        rcases hmay with ⟨hadopted, hwithheld⟩ | ⟨hown, hin, hpending⟩
        · exact (if_pos hadopted).trans (by rw [hwithheld]; rfl)
        · exact (if_neg (by rw [show (logEngOf s e).adoptedBy = none from hown]; exact Bool.false_ne_true)).trans
            (by rw [show (physOf s (e / 128) (logEngOf s e).phys).fenced = false from hin, hpending]; rfl)
      rw [exec_plannedMoveStart hmove hmoves hdie hrun hretry]
      refine ⟨fun hnone => congrArg Host.Outcome.next (beginMove_of_none hnone), fun j hj => ?_⟩
      have hbegun := beginMove_sameUnits hj
      refine ⟨_, rfl, ?_, ?_, fun d hd => ?_, hbegun.threads, hbegun.tiles⟩
      · rw [hbegun.logEngOf, logEngOf_modLogEng, if_pos rfl]
        rfl
      · exact (hbegun.physOf k j).trans ((physOf_modPhys ..).trans (if_pos rfl))
      · rw [hbegun.logEngOf, logEngOf_modLogEng, if_neg (Ne.symm hd)]
        rfl
    case done =>
      rw [exec_plannedMoveDone hmove, when_true hsafe]
      refine ⟨fun hown => ?_, fun hadopted => ?_⟩
      · simp only [moveDone, show (logEngOf s e).adoptedBy = none from hown]
        rfl
      · obtain ⟨a, ha⟩ := Option.isSome_iff_exists.mp hadopted
        simp only [moveDone, show (logEngOf s e).adoptedBy = some a from ha]
        rfl
    case stays => rw [exec_plannedMoveDone hmove, when_false hunsafe]
    case abandoned =>
      have hunits := moveAbandoned_sameUnits s e m
      rw [exec_plannedMoveAbandon hmove hlate hunsafe, wakeResumed_of_none (by rw [hunits.tiles]; exact hresumed)]
      refine ⟨_, rfl, ?_, ?_, retryAt_moveAbandoned s e m, hunits.threads, fun hown => ?_⟩
      · rw [hunits.logEngOf, moveGivenUp, logEngOf_modLogEng, if_pos rfl]
        rfl
      · have hspare : physOf (moveGivenUp s e m) k m.spare = { physOf s k m.spare with active := false } :=
          (physOf_modPhys s k m.spare m.spare (fun p => { p with active := false })).trans (if_pos rfl)
        exact congrArg PhysEng.active ((hunits.physOf k m.spare).trans hspare)
      · obtain ⟨rest, hbist⟩ := bistOf_moveAbandoned_of_own m hown
        exact ⟨congrArg Bist.abandoned hbist, _, _, congrArg Bist.entries hbist, rfl, rfl⟩
  case fails =>
    intro s k i e hi hin hserved hmove hnone hidle s1 l
    obtain ⟨t, ⟨heng, hfence⟩, hexec⟩ := exec_engineAbruptFail hi hnone hin hserved
    have hstands : SameEngines s t := .of_eq heng
    have hserved' : servedLogical t k i = some e := (hstands.servedLogical k i).trans hserved
    have hmove' : (logEngOf t e).move = none := (congrArg LogEng.move (hstands.logEngOf e)).trans hmove
    have hidle' : engineThreads t e = [] := (hstands.engineThreads e).trans hidle
    have hlost : SameEngines s1 (modPhys t k i PhysEng.lost) := hstands.modPhys k i PhysEng.lost
    have hgone : (physOf (modPhys t k i PhysEng.lost) k i).fenced = true := by rw [physOf_modPhys, if_pos rfl]; rfl
    refine ⟨fun j hj => ?spare, fun a hnospare hadopter => ?adopted⟩
    case spare =>
      obtain ⟨htaken, hunits⟩ := loseEngine_of_spare hserved' hmove' hidle' ((hlost.spareFor k i).trans hj)
      rw [htaken, Option.map_some] at hexec
      obtain ⟨hphys, hlog, hfault, -⟩ := raised_units (loseEngine t k i false).2 (engineFault k i) s.fault.nextSeq s.fault.nextSeq false (some (unitId Kind.engine j))
      have hheld (q : Nat) : physOf (loseEngine t k i false).2 k q = if j = q then (physOf (modPhys t k i PhysEng.lost) k j).held else physOf (modPhys t k i PhysEng.lost) k q :=
        (hunits.physOf k q).trans (physOf_modPhys ..)
      have hother : j ≠ i := fun h => by
        have hin' := (spareFor_spec hj).1
        rw [h, show physOf s1 k i = _ from (physOf_modPhys ..).trans (if_pos rfl)] at hin'
        exact Bool.noConfusion hin'
      refine ⟨_, { engineRecord s k i with spareUsed := some (0x2000 + j) }, hexec, ?_, ?_, ?_, (congrArg RegionFault.fence (hfault k)).trans ?_, rfl, rfl, rfl, rfl⟩
      · rw [hphys, hheld, if_neg hother, hgone]
      · rw [hphys, hheld, if_pos rfl]
        rfl
      · rw [hlog, hunits.logEngOf, logEngOf_modLogEng, if_pos rfl]
        exact congrArg (fun l : LogEng => { l with phys := j, gen := (l.gen + 1) % 256 }) (hstands.logEngOf e)
      · have hpending : (regFault (loseEngine t k i false).2 k).fence = some (engineRecord s k i) :=
          (congrArg RegionFault.fence (hunits.regFault k)).trans hfence
        rw [fence_outOrSpare_some, hpending, Option.map_some]
        exact congrArg some (if_pos rfl)
    case adopted =>
      obtain ⟨htaken, hunits⟩ := loseEngine_of_adopter hserved' hmove' hidle' ((hlost.spareFor k i).trans hnospare) ((hlost.adopterOf e).trans hadopter)
      rw [htaken, Option.map_none] at hexec
      obtain ⟨hphys, hlog, hfault, hout⟩ := raised_units (loseEngine t k i false).2 (engineFault k i) s.fault.nextSeq s.fault.nextSeq false none
      refine ⟨_, engineRecord s k i, hexec, ?_, ?_, (congrArg RegionFault.fence (hfault k)).trans ?_, rfl, rfl, rfl, ?_⟩
      · rw [hphys]
        exact (congrArg PhysEng.fenced (hunits.physOf k i)).trans hgone
      · rw [hlog, hunits.logEngOf, logEngOf_modLogEng, if_pos rfl]
        exact congrArg (fun l : LogEng => { l with adoptedBy := some a }) (hstands.logEngOf e)
      · exact (congrArg RegionFault.fence (hunits.regFault k)).trans hfence
      · rw [hout]
        exact out_tagWithheld_none ..

end

/-! The acceptance of launches (07, R173, R174, Table 7.4; 09, R232, Table 9.3). -/

namespace Sys2Proof.Machine

/-! ### SPRAY_LAUNCH (07, R173, R174) -/

section
variable {s : State} {r : Req} {via : Via} {q : Packet} (k : Nat) (horigin : r.origin = .packet via q)
include horigin

section
variable (hop : r.op = 0x20) (hown : 256 ≤ bits r.payload.toNat 23 8)
include hop hown

theorem launch_spray_of_refused {st : Nat} (hrefused : sprayRefusal s r.source r.tenant r.payload = some st) :
    launch s k r = answerPacket s k r { status := st } := by
  have hbuiltIn : decide (fld r.payload 23 8 < 256) = false := decide_eq_false (Nat.not_lt.mpr hown)
  have hpool : (r.op == Op.poolOpLaunch) = false := by rw [hop]; rfl
  simp only [launch, horigin, hpool, hbuiltIn, Bool.and_false, Bool.false_eq_true, if_false, hrefused]

theorem launch_spray_of_passed (hpassed : sprayRefusal s r.source r.tenant r.payload = none) :
    ∃ x, launch s k r = setSpray { s with eng := { s.eng with launches := s.eng.launches + 1 } } (s.eng.launches % 65536) x ∧
      x.id = s.eng.launches % 65536 ∧ x.desc = r.payload ∧ x.pool = false ∧ x.total = bits r.payload.toNat 63 40 + 1 ∧ x.source = r.source ∧ x.tenant = r.tenant ∧
      x.startStamp = s.time.timebase ∧ x.items = [] ∧ x.region = k := by
  have hbuiltIn : decide (fld r.payload 23 8 < 256) = false := decide_eq_false (Nat.not_lt.mpr hown)
  have hpool : (r.op == Op.poolOpLaunch) = false := by rw [hop]; rfl
  simp only [launch, horigin, hpool, hbuiltIn, Bool.and_false, Bool.false_eq_true, if_false, hpassed]
  exact ⟨_, rfl, rfl, rfl, rfl, rfl, rfl, rfl, rfl, rfl, rfl⟩

end

/-! ### POOL_OP_LAUNCH (09, R232) -/

theorem launch_pool_of_refused (hop : r.op = 0x21) {st : Nat} (hrefused : poolRefusal s r.source r.tenant r.payload = some st) :
    launch s k r = answerPacket s k r { status := st } := by
  have hpool : (r.op == Op.poolOpLaunch) = true := by rw [hop]; rfl
  simp only [launch, horigin, hpool, Bool.not_true, Bool.false_and, Bool.false_eq_true, if_false, if_true, hrefused]

theorem launch_pool_of_passed (hop : r.op = 0x21) (hpassed : poolRefusal s r.source r.tenant r.payload = none) :
    let size := digestSize s r.payload
    ∃ y, launch s k r = setSpray { s with eng := { s.eng with launches := s.eng.launches + 1, opPages := s.eng.opPages + poolPages r.payload size } }
        (s.eng.launches % 65536) y ∧
      y.id = s.eng.launches % 65536 ∧ y.desc = r.payload ∧ y.pool = true ∧ y.total = poolItems r.payload size ∧ y.pages = poolPages r.payload size ∧
      y.base = (extentOf s (dExt r.payload)).base * 2 ^ 21 ∧ y.source = r.source ∧ y.tenant = r.tenant ∧ y.startStamp = s.time.timebase ∧ y.items = [] ∧
      y.commits = [] ∧ y.work = {} ∧ y.region = k := by
  have hpool : (r.op == Op.poolOpLaunch) = true := by rw [hop]; rfl
  simp only [launch, horigin, hpool, Bool.not_true, Bool.false_and, Bool.false_eq_true, if_false, if_true, hpassed]
  exact ⟨_, rfl, rfl, rfl, rfl, rfl, rfl, rfl, rfl, rfl, rfl, rfl, rfl, rfl, rfl⟩

end

/-- The first refusal of a list of checks. -/
def firstOf (checks : List (Nat × Bool)) : Option Nat := (checks.find? Prod.snd).map Prod.fst

@[simp] theorem firstOf_nil : firstOf [] = none := rfl

@[simp] theorem firstOf_cons (st : Nat) (c : Bool) (l : List (Nat × Bool)) : firstOf ((st, c) :: l) = if c then some st else firstOf l := by
  cases c <;> rfl

/-- The address space refuses what the two rows of its check refuse, in their order (09, R232). -/
theorem asidRefusal_rows (s : State) (asid tenant : Nat) (dig : Bool) (l : List (Nat × Bool)) :
    (match (if dig then none else asidRefusal s asid tenant) with | some st => some st | none => firstOf l) =
    firstOf ((0x43, !dig && (match tget? s.eng.asids asid with | none => true | some a => a.destroying)) ::
      (0x44, !dig && (match tget? s.eng.asids asid with | none => false | some a => a.tenant != tenant)) :: l) := by
  cases dig with
  | true => rfl
  | false =>
    simp only [asidRefusal, firstOf_cons, Bool.not_false, Bool.true_and, Bool.false_eq_true, if_false]
    cases tget? s.eng.asids asid with
    | none => rfl
    | some a => cases ha : a.destroying <;> cases ht : (a.tenant != tenant) <;> simp [ha, ht]

/-- The refusals of R232 in their order. -/
def poolChecks (s : State) (source tenant : Nat) (d : Line) : List (Nat × Bool) :=
  let kind := bits d.toNat 7 0
  let x := extentOf s (bits d.toNat 207 192)
  let size := if kind = 0x19 then x.size else 0
  let aspace := tget? s.eng.asids (bits d.toNat 39 24)
  [(0x40, !descOk d), (0x43, decide (kind ≠ 0x19) && (match aspace with | none => true | some a => a.destroying)),
    (0x44, decide (kind ≠ 0x19) && (match aspace with | none => false | some a => a.tenant != tenant)), (0x60, !shapeOk d size), (0x61, overlaps d),
    (0x63, decide (kind = 0x19) && !x.measured),
    (0x64, decide (kind = 0x19) && (x.st != .granted || x.generation != bits d.toNat 215 208 || x.tenant != tenant || rightsOf x.access (fun _ => true) source % 2 == 0)),
    (0x46, bit d.toNat 40 && !arrayOk s source tenant (bits d.toNat 179 128) (poolItems d size)),
    (0x47, decide (1024 ≤ s.eng.sprays.length) || (sprayOf? s (s.eng.launches % 65536)).isSome),
    (0x62, decide (262144 < s.eng.opPages + poolPages d size))]

theorem poolRefusal_eq (s : State) (source tenant : Nat) (d : Line) : poolRefusal s source tenant d = firstOf (poolChecks s source tenant d) := by
  have hother : decide (bits d.toNat 7 0 ≠ 0x19) = !decide (bits d.toNat 7 0 = 0x19) := by simp
  have hspace (n : Nat) : (if decide (262144 < n) = true then some 0x62 else none) = if 262144 < n then some 0x62 else none := by simp only [decide_eq_true_eq]
  unfold poolRefusal poolChecks
  dsimp only
  rw [hother, firstOf_cons, ← asidRefusal_rows]
  simp only [firstOf_cons, firstOf_nil, hspace]
  rfl

end Sys2Proof.Machine

/-! What the descriptors of the pool operations must hold, and how their work is cut (09, R232, R234, R239, R241, Tables 9.3, 9.4). -/

namespace Sys2Proof.Machine

/-- Pages of the operation space: the commit map of some items, and a work area (09, R234). -/
def mapAndWork (items work : Nat) : Nat := ((items + 7) / 8 + 4095) / 4096 + (work + 4095) / 4096

/-- Two ranges of bytes meet where they have a byte in common. -/
theorem meets_iff {a n b m : Nat} (hn : 0 < n) (hm : 0 < m) : meets a n b m = true ↔ ∃ j, (a ≤ j ∧ j < a + n) ∧ (b ≤ j ∧ j < b + m) := by
  rw [meets, Bool.and_eq_true, decide_eq_true_iff, decide_eq_true_iff]
  constructor
  · rintro ⟨hab, hba⟩
    exact ⟨max a b, by omega, by omega⟩
  · rintro ⟨j, ⟨_, _⟩, _, _⟩
    exact ⟨by omega, by omega⟩

section
variable {d : Line}

theorem descOk_of_unknown (h : dKind d < 0x10 ∨ 0x19 < dKind d) : descOk d = false := by
  have hknown : (decide (PoolKind.fill ≤ dKind d) && decide (dKind d ≤ PoolKind.digest)) = false := by
    rw [Bool.and_eq_false_iff, decide_eq_false_iff_not, decide_eq_false_iff_not]
    exact h.imp Nat.not_le.mpr Nat.not_le.mpr
  simp only [descOk, hknown, Bool.false_and]

/-! ### FILL to SCATTER (09, R239, R241) -/

/-- The kinds that move lines: FILL, ZERO, COPY, COMPARE, REDUCE, GATHER and SCATTER. -/
def lineKinds : List Nat := [0x10, 0x11, 0x12, 0x13, 0x14, 0x15, 0x16]

section
variable (hkind : dKind d ∈ lineKinds)
include hkind

theorem poolItems_of_line (size : Nat) : poolItems d size = if dKind d = 0x15 ∨ dKind d = 0x16 then dCount d * dRow d else dCount d := by
  simp only [lineKinds, List.mem_cons, List.not_mem_nil, or_false] at hkind
  unfold poolItems
  rcases hkind with h | h | h | h | h | h | h <;> rw [h] <;> rfl

theorem poolUnits_of_line : poolUnits d = 1 := by
  rw [poolUnits, if_neg]
  intro h
  rw [h] at hkind
  exact absurd hkind (by decide)

theorem poolWork_of_line (size : Nat) : poolWork d size = if dKind d = 0x13 ∨ (dKind d = 0x14 ∧ dTotal d = true) then 64 else 0 := by
  simp only [lineKinds, List.mem_cons, List.not_mem_nil, or_false] at hkind
  unfold poolWork
  rcases hkind with h | h | h | h | h | h | h <;> rw [h] <;> simp

theorem poolPages_of_line (size : Nat) :
    poolPages d size = mapAndWork (poolItems d size) (if dKind d = 0x13 ∨ (dKind d = 0x14 ∧ dTotal d = true) then 64 else 0) := by
  rw [poolPages, mapBytes, poolUnits_of_line hkind, poolWork_of_line hkind, Nat.mul_one]
  rfl

end

/-- The counts of the line kinds never pass the commit map's limit. -/
theorem mapBytes_of_line (hkind : dKind d ∈ lineKinds) (hrows : dKind d = 0x15 ∨ dKind d = 0x16 → dCount d * dRow d ≤ 16777216)
    (size : Nat) : mapBytes d size ≤ 8388608 := by
  have hcount : dCount d ≤ 16777216 := by
    rw [dCount, fld, bits]
    omega
  rw [mapBytes, poolUnits_of_line hkind, poolItems_of_line hkind, Nat.mul_one, ceilDiv]
  split
  next h => have := hrows h; omega
  · omega

theorem shapeOk_of_line (hkind : dKind d ∈ lineKinds) (size : Nat) : shapeOk d size = true ↔ dDst d % 256 = 0 ∧ dSrc d % 256 = 0 ∧ dSrc2 d % 256 = 0 ∧
    (dKind d = 0x14 → dOp d < 3 ∧ dFormat d ∈ [6, 7, 8, 9]) ∧ (dKind d = 0x15 ∨ dKind d = 0x16 → dIndex d % 4 = 0 ∧ dCount d * dRow d ≤ 16777216) := by
  have hsearch : dKind d ≠ PoolKind.search := fun h => by rw [h] at hkind; exact absurd hkind (by decide)
  have hattend : dKind d ≠ PoolKind.attend := fun h => by rw [h] at hkind; exact absurd hkind (by decide)
  have hdigest : dKind d ≠ PoolKind.digest := fun h => by rw [h] at hkind; exact absurd hkind (by decide)
  rw [shapeOk, if_neg hsearch, if_neg hattend, if_neg hdigest]
  simp only [Bool.and_eq_true, beq_iff_eq, Bool.or_eq_true, Bool.not_eq_true', Bool.or_eq_false_iff, decide_eq_true_eq, List.contains_iff_mem, beq_eq_false_iff_ne]
  constructor
  · rintro ⟨⟨⟨⟨⟨hdst, hsrc⟩, hsrc2⟩, hreduce⟩, hrows⟩, -⟩
    exact ⟨hdst, hsrc, hsrc2, fun h => hreduce.resolve_left (not_not_intro h), fun h => hrows.resolve_left fun hn => h.elim hn.1 hn.2⟩
  · rintro ⟨hdst, hsrc, hsrc2, hreduce, hrows⟩
    refine ⟨⟨⟨⟨⟨hdst, hsrc⟩, hsrc2⟩, ?_⟩, ?_⟩, mapBytes_of_line hkind (fun h => (hrows h).2) size⟩
    · exact (Decidable.em (dKind d = 0x14)).elim (fun h => .inr (hreduce h)) .inl
    · exact (Decidable.em (dKind d = 0x15 ∨ dKind d = 0x16)).elim (fun h => .inr (hrows h)) fun h => .inl (not_or.mp h)

/-! ### SEARCH, ATTEND and DIGEST (09, Tables 9.8, 9.10, 9.12) -/

theorem poolItems_search (hkind : dKind d = 0x17) (size : Nat) : poolItems d size = (sRows d + 255) / 256 := by
  rw [poolItems, hkind]
  rfl

theorem poolPages_search (hkind : dKind d = 0x17) (size : Nat) : poolPages d size = mapAndWork (poolItems d size) (5 * sNq d * sK d * 8) := by
  have hunits : poolUnits d = 1 := by rw [poolUnits, hkind]; rfl
  have hwork : poolWork d size = 5 * sNq d * sK d * 8 := by rw [poolWork, hkind]; rfl
  rw [poolPages, mapBytes, hunits, hwork, Nat.mul_one]
  rfl

theorem poolItems_attend (hkind : dKind d = 0x18) (size : Nat) : poolItems d size = aSeqs d * aH d := by
  rw [poolItems, hkind]
  rfl

theorem poolItems_digest (hkind : dKind d = 0x19) (size : Nat) : poolItems d size = size := by
  rw [poolItems, hkind]
  rfl

theorem poolUnits_digest (hkind : dKind d = 0x19) : poolUnits d = 1 := by
  rw [poolUnits, hkind]
  rfl

theorem shapeOk_digest (hkind : dKind d = 0x19) (size : Nat) : shapeOk d size = true ↔ (size + 7) / 8 ≤ 8388608 := by
  have hmap : mapBytes d size = (size + 7) / 8 := by rw [mapBytes, poolUnits_digest hkind, poolItems_digest hkind, Nat.mul_one, ceilDiv]; rfl
  rw [shapeOk, hkind, hmap]
  exact decide_eq_true_iff

theorem poolPages_digest (hkind : dKind d = 0x19) (size : Nat) : poolPages d size = mapAndWork size (size * 48) := by
  have hwork : poolWork d size = size * 48 := by rw [poolWork, hkind]; rfl
  rw [poolPages, mapBytes, poolUnits_digest hkind, poolItems_digest hkind, hwork, Nat.mul_one]
  rfl

/-! ### Overlaps (09, R232, R241) -/

theorem overlaps_of_none (hkind : dKind d ∈ [0x10, 0x11, 0x13, 0x19]) : overlaps d = false := by
  simp only [List.mem_cons, List.not_mem_nil, or_false] at hkind
  unfold overlaps
  rcases hkind with h | h | h | h <;> rw [h] <;> rfl

theorem overlaps_copy (hkind : dKind d = 0x12) : overlaps d = meets (dDst d) (256 * dCount d) (dSrc d) (256 * dCount d) := by
  rw [overlaps, hkind]
  rfl

theorem overlaps_reduce (hkind : dKind d = 0x14) : overlaps d = (!dTotal d &&
    ((dDst d != dSrc d && meets (dDst d) (256 * dCount d) (dSrc d) (256 * dCount d)) || (dDst d != dSrc2 d && meets (dDst d) (256 * dCount d) (dSrc2 d) (256 * dCount d)))) := by
  rw [overlaps, hkind]
  rfl

theorem overlaps_gather (hkind : dKind d = 0x15) : overlaps d = meets (dDst d) (256 * dCount d * dRow d) (dIndex d) (4 * dCount d) := by
  rw [overlaps, hkind]
  rfl

theorem dCount_pos : 0 < dCount d := Nat.succ_pos _

theorem dRow_pos : 0 < dRow d := Nat.succ_pos _

end

end Sys2Proof.Machine

/-! The items of a launch: placement, start, end and watchdog (07, R175 to R179, R181, R183). -/

namespace Sys2Proof.Machine

/-! ### THREAD_PLACEMENT (07, R175, R176) -/

section
variable {s : State} {n i : Nat} {p : Spray} (hspray : sprayOf? s n = some p)
include hspray

theorem exec_threadPlacement (hi : i < p.total) (hfirst : tget? p.items i = none) (hbefore : ∀ j < i, (tget? p.items j).isSome = true) :
    exec (.threadPlacement n i) s = when (decide (placedAhead p (placeEngine s p i / 128) + (List.range (placedTogether s p i)).length ≤ 65536)) s
      (placeItem s n i (placeEngine s p i) p) := by
  have horder : placedInOrder s p i (engRegion (placeEngine s p i)) = true := by
    rw [placedInOrder, List.all_eq_true]
    intro j hj
    rw [hbefore j (List.mem_range.mp hj), Bool.true_or]
  change execThreadPlacement n i s = _
  simp only [execThreadPlacement, hspray, hi, hfirst, horder, Option.isNone_none, decide_true, Bool.and_self, Bool.true_and, List.length_range]
  rfl

end

theorem placeItem_of_fenced {s : State} {n i e : Nat} {p : Spray} (h : (regFault s (e / 128)).fenced = true) :
    placeItem s n i e p = (List.range (placedTogether s p i)).foldl (fun s j => endItem s n (i + j) (some { status := 0x80 })) s :=
  if_pos h

theorem placeItem_of_served {s : State} {n i e : Nat} {p : Spray} (h : (regFault s (e / 128)).fenced = false) :
    placeItem s n i e p = setSpray s n { p with items := (List.range (placedTogether s p i)).foldl (fun x j => tset x (i + j) (.placed e)) p.items } :=
  if_neg (ne_true_of_eq_false h)

/-! ### The engine of an item of a spray (07, R175, Table 7.3) -/

theorem engineAt_of_extent {s : State} {o x : Nat} (hextent : extentAt s o = some x) :
    engineAt s o = some ((mapOffset (extentOf s x) o).lstack * 32 + chanOfPos (mapOffset (extentOf s x) o).stripe (mapOffset (extentOf s x) o).index) := by
  simp only [engineAt, hextent]

theorem localOffset_of_self {s : State} {asid a ppa : Nat} (hppa : ppaOf s asid a = some ppa) (hself : ppa / 2 ^ 40 = selfId s) :
    localOffset s asid a = some (ppa % 2 ^ 40) := by
  simp only [localOffset, hppa, hself, beq_self_eq_true, if_true]

section
variable {s : State} {p : Spray} {i : Nat} (hspray : p.pool = false)
include hspray

theorem blockItems_of_spray : blockItems s p i = (i, 1) := by
  simp only [blockItems, zeroBlockOf, hspray, Bool.false_and, Bool.false_eq_true, if_false]

theorem placeEngine_of_region (hmode : p.field 122 121 = 3) : placeEngine s p i = p.field 124 123 * 128 + i % 128 := by
  rw [placeEngine, if_pos]
  rw [hspray, hmode]
  rfl

theorem placeEngine_of_spread (hmode : p.field 122 121 = 2) : placeEngine s p i = i % 512 := by
  simp [placeEngine, affinity, hspray, hmode, blockItems_of_spray hspray]

section
variable (hmode : p.field 122 121 = 0) {a : Nat} (haddress : (p.field 248 192 + i * p.field 287 256) % 2 ^ 64 = a)
include hmode haddress

/-- An item placed by its address goes where the chunk at the address is served. -/
theorem placeEngine_of_address : placeEngine s p i = ((if a < 2 ^ 57 then localOffset s p.asid a else none).bind (engineAt s)).getD (i % 512) := by
  have haffinity : affinity s p i = some a := by
    simp only [affinity, hspray, Bool.not_false, hmode, if_true, haddress]
  have hother : (!p.pool && decide (p.field 122 121 = 3)) = false := by rw [hmode]; exact Bool.and_false _
  have hdigest : (p.pool && decide (dKind p.desc = PoolKind.digest)) = false := by rw [hspray, Bool.false_and]
  simp only [placeEngine, hother, hdigest, Bool.false_eq_true, if_false, haffinity, Option.bind_some, blockItems_of_spray hspray]

theorem placeEngine_of_noncanonical (ha : 2 ^ 57 ≤ a) : placeEngine s p i = i % 512 := by
  rw [placeEngine_of_address hspray hmode haddress, if_neg (Nat.not_lt.mpr ha), Option.bind_none, Option.getD_none]

variable (ha : a < 2 ^ 57)
include ha

theorem placeEngine_of_unmapped (hnone : ppaOf s p.asid a = none) : placeEngine s p i = i % 512 := by
  have hlocal : localOffset s p.asid a = none := by simp only [localOffset, hnone]
  rw [placeEngine_of_address hspray hmode haddress, if_pos ha, hlocal, Option.bind_none, Option.getD_none]

theorem placeEngine_of_mapped {o x : Nat} (hlocal : localOffset s p.asid a = some o) (hextent : extentAt s o = some x) : placeEngine s p i =
    (mapOffset (extentOf s x) o).lstack * 32 + chanOfPos (mapOffset (extentOf s x) o).stripe (mapOffset (extentOf s x) o).index := by
  rw [placeEngine_of_address hspray hmode haddress, if_pos ha, hlocal, Option.bind_some, engineAt_of_extent hextent, Option.getD_some]

end
end

/-! ### THREAD_START (07, R176, R177, R183) -/

/-- A hardware thread that is free is one of 64. -/
theorem lt_of_freeThread {s : State} {e h : Nat} (hfree : freeThread s e = some h) : h < 64 :=
  List.mem_range.mp (List.mem_of_find?_eq_some hfree)

theorem exec_threadStart {s : State} {e h n i : Nat} {p : Spray} (hfree : freeThread s e = some h) (hnext : nextStart s e = some (n, p, i))
    (hruns : engineRuns s e = true)
    (hroom : scratchUsed s e + scratchNeed p ≤ 524288) : exec (.threadStart e) s = .next (startItem s e h n p i) := by
  have hfits : scratchRoom s e p = true := decide_eq_true hroom
  change execThreadStart e s = _
  simp only [execThreadStart, hfree, hnext]
  exact when_true (by rw [hruns, hfits]; rfl)

/-- Items that start together stand alike. -/
theorem tget?_foldl_tset {α : Type} (i : Nat) (v : α) :
    ∀ (g : Nat) (t : Tab α) (j : Nat), j < g → tget? ((List.range g).foldl (fun t j => tset t (i + j) v) t) (i + j) = some v
  | 0, _, _, hj => absurd hj (Nat.not_lt_zero _)
  | g + 1, t, j, hj => by
    rw [List.range_succ, List.foldl_append, List.foldl_cons, List.foldl_nil, tget?_tset]
    split
    · rfl
    · exact tget?_foldl_tset i v g t j (by omega)

theorem threadOf?_startItem {s : State} {e h n i : Nat} {p : Spray} (hh : h < 64) :
    threadOf? (startItem s e h n p i) e h = some (startThread s p n i (itemGroup s p i)) := by
  rw [threadOf?, if_pos hh]
  exact (tget?_tset ..).trans (if_pos rfl)

theorem threadOf?_startItem_other {s : State} {e h n i d : Nat} {p : Spray} (hd : h ≠ d) :
    threadOf? (startItem s e h n p i) e d = threadOf? s e d := by
  unfold threadOf?
  refine if_congr Iff.rfl ?_ rfl
  exact (tget?_tset ..).trans (if_neg (by omega))

theorem sprayOf?_startItem (s : State) (e h n i : Nat) (p : Spray) : sprayOf? (startItem s e h n p i) n =
    some { p with items := (List.range (itemGroup s p i)).foldl (fun t j => tset t (i + j) (ItemState.started e h)) p.items } :=
  (tget?_tset ..).trans (if_pos rfl)

/-- The window of a thread that starts reads as zero. -/
theorem readByte_startItem {s : State} {e h n i a : Nat} {p : Spray} (ha : a < 2 ^ 19) :
    readByte (startItem s e h n p i).eng.scratch ((e * 64 + h) * 2 ^ 19 + a) = 0 := by
  refine readByte_of_unlisted fun c hc hat => ?_
  have hkept := (List.mem_filter.mp hc).2
  rw [Bool.or_eq_true, decide_eq_true_iff, decide_eq_true_iff, hat, scratchAddr] at hkept
  omega

/-- The registers of a thread at its start (07, R177). -/
theorem startThread_sregs (s : State) (p : Spray) (n i items : Nat) : let x := startThread s p n i items
    x.sregs.length = 32 ∧ x.sregs.getD 0 0 = BitVec.ofNat 64 i ∧ (∀ a < 8, x.sregs.getD (a + 1) 0 = BitVec.ofNat 64 (p.field (575 + 64 * a) (512 + 64 * a))) ∧
      ∀ r, 9 ≤ r → x.sregs.getD r 0 = 0 := by
  refine ⟨?_, rfl, fun a ha => ?_, fun r hr => ?_⟩
  · simp [startThread]
  · rw [startThread, List.getD_cons_succ, List.getD_append _ _ _ _ (by simpa using ha), List.getD_eq_getElem _ _ (by simpa using ha)]
    simp
  · obtain ⟨q, rfl⟩ : ∃ q, r = q + 1 := ⟨r - 1, by omega⟩
    rw [startThread, List.getD_cons_succ, List.getD_append_right _ _ _ _ (by simp; omega)]
    rw [List.getD_eq_getElem?_getD, List.getElem?_getD_replicate_default_eq]

/-! ### THREAD_END and WATCHDOG_EXPIRY (07, R177, R181) -/

section
variable {s : State} {e h : Nat} {th : Thread} {p : Spray} (hthread : threadOf? s e h = some th) (hspray : sprayOf? s th.spray = some p)
include hthread hspray

theorem exec_threadEnd (hidle : threadTiles s e h = []) (hitems : th.items = 1) {f : Option Failure} (hends : threadOutcome p th = some f) :
    exec (.threadEnd { engine := e, thread := h }) s = .next (endItem (dropThread s e h) th.spray th.item f) := by
  change execThreadEnd { engine := e, thread := h } s = _
  simp only [execThreadEnd, hthread, hspray, hends, hidle, endThread, hitems]
  exact when_true rfl

theorem exec_watchdogExpiry (hpool : p.pool = false) {d : Nat} (hlimit : p.field 103 88 = d) (hd : 0 < d)
    (hlate : th.startAt + d * 250000 ≤ s.time.clock) (hrunning : th.phase = .running) :
    exec (.watchdogExpiry { engine := e, thread := h }) s = .next (dropFaulted (setThread s e h { th with phase := .failing { status := 0x92 } }) e h) := by
  have hexpired : (!p.pool && decide (0 < p.field 103 88) && passed s th.startAt (ms (p.field 103 88))) = true := by
    rw [hpool, hlimit, decide_eq_true hd]
    exact passed_iff.mpr hlate
  change execWatchdogExpiry { engine := e, thread := h } s = _
  simp only [execWatchdogExpiry, hthread, hspray, hexpired, stopThread, hrunning, failThread, if_true]
  rfl

end

theorem threadOutcome_of_ending {p : Spray} {th : Thread} (hpool : p.pool = false) (h : th.phase = .ending) : threadOutcome p th = some none := by
  simp [threadOutcome, hpool, h]

theorem threadOutcome_of_failing {p : Spray} {th : Thread} {f : Failure} (hpool : p.pool = false) (h : th.phase = .failing f) :
    threadOutcome p th = some (some f) := by
  simp [threadOutcome, hpool, h]

/-! ### The end of an item (07, R178, R179) -/

/-- The store of an item's status: its byte, or, of the last item, the rest of its word (07, R179). -/
def statusStored (s : State) (n i st : Nat) (p : Spray) : State :=
  let base := bits p.desc.toNat 179 128 % 2 ^ 40
  sprayStore s n 0 ((base + i) / 8 * 8) 0 (BitVec.ofNat 2048 st <<< (8 * ((base + i) % 256)))
    (some ((BitVec.allOnes 256 >>> (256 - (if i + 1 = p.total then 8 - (base + i) % 8 else 1))) <<< ((base + i) % 256)))

theorem writeStatus_of_spray {s : State} {n i st : Nat} {p : Spray} (hpool : p.pool = false) : writeStatus s n p i st = statusStored s n i st p := by
  simp only [writeStatus, statusArray, hpool, Bool.false_and, Bool.false_eq_true, if_false]
  rfl

/-- The launch of an item that has ended: counted, and of its failures the first kept (07, R178 to R180). -/
def itemEnded (s : State) (p : Spray) (i : Nat) (f : Option Failure) : Spray :=
  let sooner := match p.firstFail with | none => true | some x => p.firstFailAt == s.time.clock && decide (i < x.1)
  { p with items := tset p.items i (.ended ((f.map (·.status)).getD 0)), completed := p.completed + b2n f.isNone, failedCount := p.failedCount + b2n f.isSome,
           firstFail := if sooner && f.isSome then f.map (fun x => (i, x)) else p.firstFail,
           firstFailAt := if sooner && f.isSome then s.time.clock else p.firstFailAt, endStamp := s.time.timebase }

/-- The launch of an item that has completed. -/
def itemCompleted (s : State) (p : Spray) (i : Nat) : Spray :=
  { p with items := tset p.items i (.ended 0), completed := p.completed + 1, endStamp := s.time.timebase }

/-- The launch of an item that has failed: of failures reported at one time the lowest index is the first. -/
def itemFailed (s : State) (p : Spray) (i : Nat) (f : Failure) : Spray :=
  let sooner := match p.firstFail with | none => true | some x => p.firstFailAt == s.time.clock && decide (i < x.1)
  { p with items := tset p.items i (.ended f.status), failedCount := p.failedCount + 1, endStamp := s.time.timebase,
           firstFail := if sooner then some (i, f) else p.firstFail, firstFailAt := if sooner then s.time.clock else p.firstFailAt }

section
variable {s : State} {n i : Nat} {p : Spray} (hspray : sprayOf? s n = some p) (hopen : ∀ st, tget? p.items i ≠ some (.ended st)) (hpool : p.pool = false)
include hspray hopen

theorem endItem_of_open (f : Option Failure) :
    endItem s n i f = writeStatus (setSpray s n (itemEnded s p i f)) n (itemEnded s p i f) i ((f.map (·.status)).getD 0) := by
  unfold endItem
  simp only [hspray]
  cases hitem : tget? p.items i with
  | none => rfl
  | some x =>
    cases x with
    | ended st => exact absurd hitem (hopen st)
    | placed e => rfl
    | started e h => rfl

include hpool

theorem endItem_of_completed : endItem s n i none = statusStored (setSpray s n (itemCompleted s p i)) n i 0 p := by
  have hended : itemEnded s p i none = itemCompleted s p i := by
    simp only [itemEnded, Option.isSome_none, Bool.and_false, Bool.false_eq_true, if_false]
    rfl
  have hspraying : (itemCompleted s p i).pool = false := hpool
  rw [endItem_of_open hspray hopen, hended, writeStatus_of_spray hspraying]
  rfl

theorem endItem_of_failed (f : Failure) : endItem s n i (some f) = statusStored (setSpray s n (itemFailed s p i f)) n i f.status p := by
  have hended : itemEnded s p i (some f) = itemFailed s p i f := by
    simp only [itemEnded, Option.isSome_some, Bool.and_true]
    rfl
  have hspraying : (itemFailed s p i f).pool = false := hpool
  rw [endItem_of_open hspray hopen, hended, writeStatus_of_spray hspraying]
  rfl

end

end Sys2Proof.Machine

/-! The completion record of a launch and its COMPLETION (07, R178 to R180, Table 7.5; 09, R242 to R244, R246, Tables 9.7, 9.9, 9.11). -/

namespace Sys2Proof.Machine

/-! ### Fields of records -/

/-- A field of a record by its place in it. -/
theorem bits_packBits_field : ∀ {t : List (Nat × Nat)} (i : Nat) {w v hi lo : Nat}, t[i]? = some (w, v) → recWidth (t.drop (i + 1)) = lo → hi + 1 = w + lo →
    bits (packBits t) hi lo = v % 2 ^ w
  | [], i, _, _, _, _, h, _, _ => by simp at h
  | (w', v') :: t, 0, w, v, hi, lo, h, hlo, hhi => by
    obtain ⟨rfl, rfl⟩ : w' = w ∧ v' = v := by simpa using h
    exact bits_packBits_head hlo hhi
  | (w', v') :: t, i + 1, w, v, hi, lo, h, hlo, hhi => by
    have hfield : t[i]? = some (w, v) := h
    have hbelow : w + lo ≤ recWidth t := by
      obtain ⟨hi', hget⟩ := List.getElem?_eq_some_iff.mp hfield
      have hsplit := congrArg recWidth (List.take_append_drop i t)
      rw [List.drop_eq_getElem_cons hi', hget] at hsplit
      rw [← hsplit, ← hlo]
      simp only [recWidth, List.map_append, List.map_cons, List.sum_append, List.sum_cons]
      exact Nat.le_add_left ..
    by_cases hw : hi < recWidth t
    · rw [bits_packBits_tail hw]
      exact bits_packBits_field i hfield hlo hhi
    · obtain ⟨rfl, hzero⟩ : w = 0 ∧ recWidth t = lo := by omega
      have hwidth : hi + 1 - lo = 0 := by omega
      rw [bits, hwidth, Nat.pow_zero, Nat.mod_one, Nat.mod_one]

theorem toNat_ofNat_packBits {t : List (Nat × Nat)} {w : Nat} (h : recWidth t = w) : (BitVec.ofNat w (packBits t)).toNat = packBits t := by
  rw [BitVec.toNat_ofNat, Nat.mod_eq_of_lt (packBits_lt_of_recWidth h)]

/-- Above a number's width its bits are zero. -/
theorem bits_of_lt {n hi lo : Nat} (h : n < 2 ^ lo) : bits n hi lo = 0 := by
  rw [bits, Nat.shiftRight_eq_div_pow, Nat.div_eq_of_lt h, Nat.zero_mod]

theorem bits_bits {n hi lo hi' lo' : Nat} (h : lo + hi' ≤ hi) : bits (bits n hi lo) hi' lo' = bits n (lo + hi') (lo + lo') := by
  refine Nat.eq_of_testBit_eq fun j => ?_
  rw [testBit_bits, testBit_bits, testBit_bits, Nat.add_assoc lo lo' j]
  by_cases hj : j < hi' + 1 - lo'
  · have hin : lo' + j < hi + 1 - lo := by omega
    have hout : j < lo + hi' + 1 - (lo + lo') := by omega
    rw [decide_eq_true hj, decide_eq_true hin, decide_eq_true hout, Bool.true_and]
  · have hout : ¬ j < lo + hi' + 1 - (lo + lo') := by omega
    rw [decide_eq_false hj, decide_eq_false hout, Bool.false_and, Bool.false_and]

/-! ### Bytes of a number -/

theorem leBytes_mod (n v : Nat) : leBytes n (v % 2 ^ (8 * n)) = leBytes n v := by
  have hback := leBytes_ofLe (leBytes n v)
  rwa [leBytes_length, ofLe_leBytes] at hback

theorem drop_leBytes : ∀ (a m v : Nat), (leBytes (a + m) v).drop a = leBytes m (v >>> (8 * a))
  | 0, m, v => by rw [Nat.zero_add]; rfl
  | a + 1, m, v => by
    rw [Nat.add_right_comm, leBytes, List.drop_succ_cons, drop_leBytes a m, ← Nat.shiftRight_add, Nat.mul_succ, Nat.add_comm]

theorem take_leBytes : ∀ (b m v : Nat), (leBytes (b + m) v).take b = leBytes b v
  | 0, _, _ => rfl
  | b + 1, m, v => by
    rw [Nat.add_right_comm, leBytes, List.take_succ_cons, take_leBytes b m, leBytes]

theorem ofLe_replicate_zero : ∀ k : Nat, ofLe (List.replicate k 0) = 0
  | 0 => rfl
  | k + 1 => by rw [List.replicate_succ, ofLe, ofLe_replicate_zero k]; rfl

theorem ofLe_append_zeros (k : Nat) : ∀ l : List Byte, ofLe (l ++ List.replicate k 0) = ofLe l
  | [] => ofLe_replicate_zero k
  | b :: l => by rw [List.cons_append, ofLe, ofLe, ofLe_append_zeros k l]

/-- A line holds the bytes it is made from, and zeros after them. -/
theorem lineBytes_bytesLine_short {l : List Byte} (h : l.length ≤ 256) : lineBytes (bytesLine l) = l ++ List.replicate (256 - l.length) 0 := by
  have hfull : (l ++ List.replicate (256 - l.length) (0 : Byte)).length = 256 := by rw [List.length_append, List.length_replicate]; omega
  rw [← lineBytes_bytesLine hfull, bytesLine, bytesLine, List.take_of_length_le h, List.take_of_length_le (Nat.le_of_eq hfull), ofLe_append_zeros]

/-- Bytes of a line as the bits they stand for. -/
theorem slice_lineBytes (r : Line) {a n : Nat} (hn : 0 < n) (h : a + n ≤ 256) :
    slice (lineBytes r) a n = leBytes n (bits r.toNat (8 * (a + n) - 1) (8 * a)) := by
  obtain ⟨m, hm⟩ := Nat.exists_eq_add_of_le h
  have htaken : ((lineBytes r).drop a).take n = leBytes n (r.toNat >>> (8 * a)) := by
    rw [lineBytes, hm, Nat.add_assoc, drop_leBytes, take_leBytes]
  have hwidth : 8 * (a + n) - 1 + 1 - 8 * a = 8 * n := by omega
  rw [slice, htaken, leBytes_length, Nat.sub_self, List.replicate_zero, List.append_nil, bits, hwidth, leBytes_mod]

/-! ### The record (07, Table 7.5) -/

/-- What a pool operation adds to its record (09, Tables 9.7, 9.9, 9.11). -/
def recordResults (s : State) (p : Spray) : Nat :=
  if p.pool then poolResults p.desc (freeNo s) p.base p.total (dGen p.desc) (p.completed == p.total) p.work else 0

/-- The fields of the completion record, from high bits to low (07, Table 7.5). -/
def recordFields (s : State) (p : Spray) : List (Nat × Nat) :=
  let f := p.firstFail.getD (0, { status := 0 })
  [(1536, recordResults s p), (135, 0), (57, f.2.pva), (16, 0), (8, f.2.detail), (8, f.2.status), (32, f.1), (64, p.endStamp), (64, p.startStamp),
    (32, p.failedCount), (32, p.completed), (32, p.total), (16, p.id), (4, 0), (1, b2n p.cancelled), (1, b2n p.recordFailed), (1, b2n p.statusFailed),
    (1, b2n (decide (0 < p.failedCount))), (8, dKind p.desc)]

theorem recordOf_toNat (s : State) (p : Spray) : (recordOf s p).toNat = packBits (recordFields s p) := by
  have hwidth : recWidth (recordFields s p) = 2048 := by simp [recordFields]
  have hrecord : recordOf s p = BitVec.ofNat 2048 (packBits (recordFields s p)) := rfl
  rw [hrecord]
  exact toNat_ofNat_packBits hwidth

/-- A field of the record by its place in it. -/
theorem bits_recordOf {s : State} {p : Spray} (i : Nat) {w v hi lo : Nat} (hfield : (recordFields s p)[i]? = some (w, v))
    (hlo : recWidth ((recordFields s p).drop (i + 1)) = lo)
    (hhi : hi + 1 = w + lo) : bits (recordOf s p).toNat hi lo = v % 2 ^ w := by
  rw [recordOf_toNat]
  exact bits_packBits_field i hfield hlo hhi

/-- The part of the record that a pool operation adds. -/
theorem bits_recordOf_results {s : State} {p : Spray} {hi lo : Nat} (hhi : hi < 1536) :
    bits (recordOf s p).toNat (512 + hi) (512 + lo) = bits (recordResults s p) hi lo := by
  have hresults : bits (recordOf s p).toNat 2047 512 = bits (recordResults s p) 1535 0 := bits_recordOf 0 rfl (by simp [recordFields]) rfl
  have hbelow : bits (bits (recordResults s p) 1535 0) hi lo = bits (recordResults s p) hi lo := by
    rw [bits_bits (by omega), Nat.zero_add, Nat.zero_add]
  rw [← hbelow, ← hresults, bits_bits (by omega)]

/-! ### Results of pool operations -/

section
variable {d : Line} (no base size gen : Nat) (all : Bool) (w : PoolWork)

theorem poolResults_of_none (h : dKind d ∉ [0x13, 0x14, 0x17, 0x19] ∨ (dKind d = 0x14 ∧ dTotal d = false) ∨ (dKind d = 0x19 ∧ all = false)) :
    poolResults d no base size gen all w = 0 := by
  rcases h with h | ⟨hkind, htotal⟩ | ⟨hkind, rfl⟩
  · simp only [List.mem_cons, List.not_mem_nil, or_false, not_or] at h
    obtain ⟨hcompare, hreduce, hsearch, hdigest⟩ := h
    rw [poolResults, if_neg hcompare, if_neg hreduce, if_neg hsearch, if_neg hdigest]
  · rw [poolResults, hkind, htotal]
    rfl
  · rw [poolResults, hkind]
    rfl

theorem poolResults_compare (hkind : dKind d = 0x13) :
    poolResults d no base size gen all w = packBits [(32, w.minIndex.foldl min 0xFFFFFFFF), (32, w.mismatches.sum)] := by
  rw [poolResults, hkind]
  rfl

/-- The format a total is returned in: INT32 of integers, FP32 of floating point (09, R242). -/
def totalFmt (d : Line) : Fmt := if ((fmtOf (dFormat d)).getD fp32).int then (fmtOf 9).getD fp32 else fp32

theorem poolResults_total (hkind : dKind d = 0x14) (htotal : dTotal d = true) : poolResults d no base size gen all w =
    packBits [(32, encodeElem (totalFmt d) (w48Value (totalValue d no w)) false false), (64, (totalValue d no w).toNat), (64, 0)] := by
  rw [poolResults, hkind, htotal]
  rfl

theorem totalFmt_of_int (h : dFormat d ∈ [6, 9]) : totalFmt d = fmtD 9 := by
  simp only [List.mem_cons, List.not_mem_nil, or_false] at h
  unfold totalFmt
  rcases h with h | h <;> rw [h] <;> rfl

theorem totalFmt_of_float (h : dFormat d ∈ [7, 8]) : totalFmt d = fmtD 8 := by
  simp only [List.mem_cons, List.not_mem_nil, or_false] at h
  unfold totalFmt
  rcases h with h | h <;> rw [h] <;> rfl

theorem rotateList_perm {α : Type} (l : List α) (n : Nat) : (rotateList l n).Perm l := by
  refine List.perm_append_comm.trans ?_
  rw [List.take_append_drop]

theorem poolResults_search (hkind : dKind d = 0x17) : poolResults d no base size gen all w =
    packBits [(16, w.queryInvalid.toNat), (32, w.nanRows), (31, 0), (1, b2n w.resultFailed), (32, w.rowsScored)] := by
  rw [poolResults, hkind]
  rfl

theorem poolResults_digest (hkind : dKind d = 0x19) : poolResults d no base size gen true w =
    packBits [(1, 1), (384, ofLe (digestBytes (poolResults.poolDigest d base size gen w)))] := by
  rw [poolResults, hkind]
  rfl

theorem digestBytes_length (x : Digest) : (digestBytes x).length = 48 := by
  rw [digestBytes, beBytes, List.length_reverse, leBytes_length]

end

/-- The least of some numbers is at most the one the search starts from. -/
theorem foldl_min_le_start : ∀ (l : List Nat) (a : Nat), l.foldl min a ≤ a
  | [], _ => Nat.le_refl _
  | x :: l, a => (foldl_min_le_start l (min a x)).trans (Nat.min_le_left ..)

/-! ### SPRAY_COMPLETE (07, R178) -/

theorem exec_sprayComplete {s : State} {n : Nat} {p : Spray} (hspray : sprayOf? s n = some p) (hended : sprayEnded s n p = true) :
    exec (.sprayComplete n) s = .next (completeSpray s n) := by
  change execSprayComplete n s = _
  simp only [execSprayComplete, hspray]
  exact when_true hended

theorem stores_of_sprayEnded {s : State} {n : Nat} {p : Spray} (hended : sprayEnded s n p = true) : p.stores = 0 := by
  rw [sprayEnded, Bool.and_eq_true, Bool.and_eq_true, beq_iff_eq, beq_iff_eq] at hended
  exact hended.1.2

theorem modSpray_of_some {s : State} {n : Nat} {p : Spray} (hspray : sprayOf? s n = some p) (f : Spray → Spray) :
    modSpray s n f = setSpray s n (f p) := by
  simp only [modSpray, hspray]

/-- A launch whose result lists are written, or that has none. -/
def Spray.listsDone (p : Spray) : Spray := { p with work := { p.work with resultsWritten := true } }

theorem listsDone_of_written {p : Spray} (h : p.work.resultsWritten = true) : p.listsDone = p := by
  rw [Spray.listsDone, ← h]

/-- A launch with no result lists to write goes on at once. -/
def resultsPassed (s : State) (n : Nat) (p : Spray) : State := if p.work.resultsWritten then s else setSpray s n p.listsDone

/-- The state once the record of a launch has been made and stored. -/
def recorded (s : State) (n : Nat) (p : Spray) : State := writeRecord (resultsPassed s n p) n p.listsDone

section
variable {s : State} {n : Nat} {p : Spray} (hspray : sprayOf? s n = some p)
include hspray

theorem sprayOf?_resultsPassed : sprayOf? (resultsPassed s n p) n = some p.listsDone := by
  unfold resultsPassed
  split
  next h => rw [hspray, listsDone_of_written h]
  · exact (tget?_tset ..).trans (if_pos rfl)

theorem results_of_none (hnone : p.pool = false ∨ dKind p.desc ≠ 0x17 ∨ p.work.resultsWritten = true) :
    (if p.work.resultsWritten then s else writeResults s n p) = resultsPassed s n p := by
  unfold resultsPassed
  split
  · rfl
  next hwritten =>
    have hlists : (p.pool && dKind p.desc == PoolKind.search) = false := by
      rcases hnone with h | h | h
      · rw [h, Bool.false_and]
      · rw [beq_eq_false_iff_ne.mpr h, Bool.and_false]
      · exact absurd h hwritten
    simp only [writeResults, hlists, modSpray_of_some hspray, Bool.false_eq_true, if_false]
    rfl

theorem completeSpray_unrecorded (hnone : p.pool = false ∨ dKind p.desc ≠ 0x17 ∨ p.work.resultsWritten = true) (hstores : p.stores = 0)
    (hrecord : p.record = none)
    {x : Spray} (hx : sprayOf? (recorded s n p) n = some x) : completeSpray s n = if x.recordWritten then sendCompletion (recorded s n p) n x else recorded s n p := by
  have hstores' : (p.listsDone.stores != 0) = false := by rw [Spray.listsDone, hstores]; rfl
  have hrecord' : p.listsDone.record.isNone = true := by rw [Spray.listsDone, hrecord]; rfl
  have hrecorded : sprayOf? (writeRecord (resultsPassed s n p) n p.listsDone) n = some x := hx
  simp only [completeSpray, hspray, results_of_none hspray hnone, sprayOf?_resultsPassed hspray, hstores', hrecord', Bool.false_eq_true, if_false, if_true, hrecorded]
  rfl

theorem completeSpray_recorded {r : Line} (hwritten : p.work.resultsWritten = true) (hstores : p.stores = 0) (hrecord : p.record = some r)
    (hdone : p.recordWritten = true) :
    completeSpray s n = sendCompletion s n p := by
  simp only [completeSpray, hspray, hwritten, hstores, hrecord, hdone, if_true, bne_self_eq_false, Bool.false_eq_true, if_false, Option.isNone_some]

end

theorem sendCompletion_of_spray {s : State} {n : Nat} {p : Spray} {r : Line} (hpool : p.pool = false) (hrecord : p.record = some r)
    (hgood : p.recordFailed = false) (hopen : p.answered = false)
    (hwaits : p.cancelWaits = []) :
    let u := respond s p.region p.via p.pkt { data := some r, launch := true }
    let v := epochSub (modExtent u ((extentAt u (p.pkt.address % 2 ^ 40)).getD 0) (fun e => { e with inFlight := e.inFlight - 1 })) p.tenant p.epoch
    sendCompletion s n p = { v with eng := { v.eng with sprays := tdel v.eng.sprays n, opPages := v.eng.opPages - p.pages } } := by
  have hsame : r ||| (0 : Line) = r := BitVec.or_zero
  simp only [sendCompletion, hpool, hrecord, hgood, hopen, hwaits, Bool.false_and, Bool.false_eq_true, if_false, Option.getD_some, hsame, List.foldl_nil]

/-! ### The lists of SEARCH (09, R246) -/

/-- The lists of a SEARCH are stored, those of invalid queries left out. -/
def listsStored (s : State) (n : Nat) (p : Spray) : State :=
  (List.range (sNq p.desc)).foldl (fun s q => if p.work.queryInvalid.getLsbD q then s
    else storeAt s n p (sResult p.desc + q * sK p.desc * 8) (listBytes (sK p.desc) (mergedList p.desc p.work q)))
    (modSpray s n (fun p => { p with work := { p.work with resultsWritten := true } }))

theorem completeSpray_of_lists {s : State} {n : Nat} {p : Spray} (hspray : sprayOf? s n = some p) (hpool : p.pool = true)
    (hkind : dKind p.desc = 0x17) (hwritten : p.work.resultsWritten = false) {y : Spray}
    (hy : sprayOf? (listsStored s n p) n = some y) (hstores : y.stores ≠ 0) : completeSpray s n = listsStored s n p := by
  have hlists : writeResults s n p = listsStored s n p := by
    have hsearch : (p.pool && dKind p.desc == PoolKind.search) = true := by rw [hpool, hkind]; rfl
    simp only [writeResults, hsearch, if_true]
    rfl
  simp only [completeSpray, hspray, hwritten, hlists, hy, bne_iff_ne.mpr hstores, Bool.false_eq_true, if_false, if_true]

/-! ### A store of a launch within a line (09, R236, R246) -/

/-- The bytes of a store within a line, at their place. -/
def lineOfStore (o : Nat) (bs : List Byte) : Line := bytesLine (List.replicate (o % 256) 0 ++ bs)

/-- The mask of a store within a line. -/
def maskOfStore (o n : Nat) : BitVec 256 := ((BitVec.allOnes 256) >>> (256 - n)) <<< (o % 256)

theorem lineOfStore_get {bs : List Byte} {o : Nat} (hline : o % 256 + bs.length ≤ 256) {j : Nat} (hj : j < bs.length) :
    (lineBytes (lineOfStore o bs))[o % 256 + j]? = bs[j]? := by
  have hlength : (List.replicate (o % 256) (0 : Byte) ++ bs).length ≤ 256 := by rw [List.length_append, List.length_replicate]; exact hline
  rw [lineOfStore, lineBytes_bytesLine_short hlength, List.append_assoc, List.getElem?_append_right (by rw [List.length_replicate]; omega), List.length_replicate,
    Nat.add_sub_cancel_left, List.getElem?_append_left hj]

theorem maskOfStore_get {o n j : Nat} (hline : o % 256 + n ≤ 256) (hj : j < 256) :
    (maskOfStore o n).getLsbD j = (decide (o % 256 ≤ j) && decide (j < o % 256 + n)) := by
  rw [maskOfStore, BitVec.getLsbD_shiftLeft, BitVec.getLsbD_ushiftRight, BitVec.getLsbD_allOnes]
  simp only [hj, decide_true, Bool.true_and]
  rw [Bool.eq_iff_iff]
  simp only [Bool.and_eq_true, Bool.not_eq_true', decide_eq_true_eq, decide_eq_false_iff_not]
  omega

section
variable {s : State} {n a : Nat} {p : Spray} {bs : List Byte} (hsome : bs ≠ []) (hline : a % 256 + bs.length ≤ 256)
include hsome hline

theorem rowPieces_of_line : rowPieces 34 a 0 bs.length = [{ pva := a, first := 0, count := bs.length }] := by
  have hcount : min bs.length (256 - a % 256) = bs.length := by omega
  rw [rowPieces, if_neg (fun h => hsome (List.length_eq_zero_iff.mp h))]
  dsimp only
  rw [hcount, Nat.sub_self]
  rfl

theorem storeAt_of_unwritable (hnone : writableOffset s p.asid a = none) :
    storeAt s n p a bs = modSpray s n (fun p => { p with work := { p.work with resultFailed := true } }) := by
  have hfails : (fun p : Spray => noteStore p StoreOf.result Sts.addressInvalid) = fun p => { p with work := { p.work with resultFailed := true } } := by
    funext p
    have htrue : (p.work.resultFailed || Sts.addressInvalid != 0) = true := Bool.or_true _
    simp only [noteStore, htrue]
    rfl
  simp only [storeAt, rowPieces_of_line hsome hline, List.foldl_cons, List.foldl_nil, hnone, hfails]

theorem storeAt_of_writable {o : Nat} (ho : writableOffset s p.asid a = some o) :
    storeAt s n p a bs = sprayStore s n 2 (o / 8 * 8) ((o % 256 + bs.length - 1) / 8 - o % 256 / 8) (lineOfStore o bs) (some (maskOfStore o bs.length)) := by
  have hall : slice bs 0 bs.length = bs := by simp [slice]
  simp only [storeAt, rowPieces_of_line hsome hline, List.foldl_cons, List.foldl_nil, ho, hall]
  rfl

end

end Sys2Proof.Machine

/-! The results of pool operations in their completion records (09, R242 to R244, R246, Tables 9.7, 9.9, 9.11). -/

namespace Sys2Proof.Machine

/-! ### The fields that every record has (07, Table 7.5) -/

theorem recordOf_counts (s : State) (p : Spray) : let r := recordOf s p
    bits r.toNat 7 0 = p.desc.toNat % 256 ∧ bits r.toNat 8 8 = (if 0 < p.failedCount then 1 else 0) ∧ bits r.toNat 11 11 = (if p.cancelled then 1 else 0) ∧
      bits r.toNat 31 16 = p.id % 2 ^ 16 ∧ bits r.toNat 63 32 = p.total % 2 ^ 32 ∧ bits r.toNat 95 64 = p.completed % 2 ^ 32 ∧
      bits r.toNat 127 96 = p.failedCount % 2 ^ 32 ∧ bits r.toNat 191 128 = p.startStamp % 2 ^ 64 ∧ bits r.toNat 255 192 = p.endStamp % 2 ^ 64 := by
  have hkind : dKind p.desc % 2 ^ 8 = p.desc.toNat % 256 := Nat.mod_mod ..
  have hfailed : b2n (decide (0 < p.failedCount)) % 2 ^ 1 = if 0 < p.failedCount then 1 else 0 := by
    refine (b2n_mod_two _).trans ?_
    simp only [b2n, decide_eq_true_eq]
  exact ⟨(bits_recordOf (hi := 7) (lo := 0) 18 rfl (by simp [recordFields]) rfl).trans hkind,
    (bits_recordOf (hi := 8) (lo := 8) 17 rfl (by simp [recordFields]) rfl).trans hfailed,
    (bits_recordOf (hi := 11) (lo := 11) 14 rfl (by simp [recordFields]) rfl).trans (b2n_mod_two _),
    bits_recordOf 12 rfl (by simp [recordFields]) rfl, bits_recordOf 11 rfl (by simp [recordFields]) rfl, bits_recordOf 10 rfl (by simp [recordFields]) rfl,
    bits_recordOf 9 rfl (by simp [recordFields]) rfl, bits_recordOf 8 rfl (by simp [recordFields]) rfl, bits_recordOf 7 rfl (by simp [recordFields]) rfl⟩

theorem recordOf_firstFail (s : State) {p : Spray} {j : Nat} {f : Failure} (h : p.firstFail = some (j, f)) : let r := recordOf s p
    bits r.toNat 287 256 = j % 2 ^ 32 ∧ bits r.toNat 295 288 = f.status % 2 ^ 8 ∧ bits r.toNat 303 296 = f.detail % 2 ^ 8 ∧ bits r.toNat 376 320 = f.pva % 2 ^ 57 := by
  have hfirst : p.firstFail.getD (0, { status := 0 }) = (j, f) := by rw [h, Option.getD_some]
  exact ⟨bits_recordOf 6 (by simp [recordFields, hfirst]) (by simp [recordFields]) rfl, bits_recordOf 5 (by simp [recordFields, hfirst]) (by simp [recordFields]) rfl,
    bits_recordOf 4 (by simp [recordFields, hfirst]) (by simp [recordFields]) rfl, bits_recordOf 2 (by simp [recordFields, hfirst]) (by simp [recordFields]) rfl⟩

/-! ### Results -/

section
variable {s : State} {p : Spray}

theorem recordResults_of_pool (hpool : p.pool = true) :
    recordResults s p = poolResults p.desc (freeNo s) p.base p.total (dGen p.desc) (p.completed == p.total) p.work := by
  rw [recordResults, if_pos hpool]

/-- A field that a pool operation adds to its record, by its place among them. -/
theorem bits_recordOf_field {t : List (Nat × Nat)} (hresults : recordResults s p = packBits t) (i : Nat) {w v hi lo : Nat}
    (hfield : t[i]? = some (w, v))
    (hlo : 512 + recWidth (t.drop (i + 1)) = lo) (hhi : hi + 1 = w + lo) (hwithin : 512 ≤ hi ∧ hi < 2048) : bits (recordOf s p).toNat hi lo = v % 2 ^ w := by
  subst hlo
  obtain ⟨hi', rfl⟩ := Nat.exists_eq_add_of_le hwithin.1
  rw [bits_recordOf_results (by omega), hresults]
  exact bits_packBits_field i hfield rfl (by omega)

/-- Above its fields the part that a pool operation adds is zero. -/
theorem bits_recordOf_above {t : List (Nat × Nat)} (hresults : recordResults s p = packBits t) {lo : Nat} (hwidth : 512 + recWidth t = lo) :
    bits (recordOf s p).toNat 2047 lo = 0 := by
  subst hwidth
  refine (bits_recordOf_results (hi := 1535) (by decide)).trans ?_
  rw [hresults]
  exact bits_of_lt (packBits_lt t)

theorem recordOf_none (h : p.pool = false ∨ dKind p.desc ∉ [0x13, 0x14, 0x17, 0x19] ∨ (dKind p.desc = 0x14 ∧ dTotal p.desc = false) ∨ (dKind p.desc = 0x19 ∧ p.completed ≠ p.total)) :
    bits (recordOf s p).toNat 2047 512 = 0 := by
  have hresults : recordResults s p = packBits [] := by
    rw [recordResults]
    split
    next hpool =>
      refine poolResults_of_none _ _ _ _ _ _ ((h.resolve_left (by rw [hpool]; decide)).imp_right (Or.imp_right fun hd => ⟨hd.1, ?_⟩))
      exact beq_eq_false_iff_ne.mpr hd.2
    · rfl
  exact bits_recordOf_above hresults rfl

section
variable (hpool : p.pool = true)
include hpool

theorem recordOf_compare (hkind : dKind p.desc = 0x13) : bits (recordOf s p).toNat 543 512 = p.work.mismatches.sum % 2 ^ 32 ∧
    bits (recordOf s p).toNat 575 544 = p.work.minIndex.foldl min 0xFFFFFFFF ∧ bits (recordOf s p).toNat 2047 576 = 0 := by
  have hresults := (recordResults_of_pool (s := s) hpool).trans (poolResults_compare _ _ _ _ _ _ hkind)
  have hindex : p.work.minIndex.foldl min 0xFFFFFFFF % 2 ^ 32 = p.work.minIndex.foldl min 0xFFFFFFFF :=
    Nat.mod_eq_of_lt (Nat.lt_of_le_of_lt (foldl_min_le_start _ _) (by decide))
  exact ⟨bits_recordOf_field hresults 1 rfl (by simp) rfl (by decide), (bits_recordOf_field (hi := 575) (lo := 544) hresults 0 rfl (by simp) rfl (by decide)).trans hindex,
    bits_recordOf_above hresults (by simp)⟩

/-- A total stands in the record as its W48 value and as an element, in an order of combination that is open (09, R242; log entry 8). -/
theorem recordOf_total (hkind : dKind p.desc = 0x14) (htotal : dTotal p.desc = true) : ∃ vs : List Word,
    vs.Perm ((List.range 4).filterMap (fun k => if p.work.merged.getD k false then some (p.work.values.getD k 0) else none)) ∧
    let v := match vs with | [] => 0 | a :: more => more.foldl (totalOp (dOp p.desc)) a
    bits (recordOf s p).toNat 639 576 = v.toNat ∧ bits (recordOf s p).toNat 2047 672 = 0 ∧ bits (recordOf s p).toNat 575 512 = 0 ∧
      bits (recordOf s p).toNat 671 640 = encodeElem (totalFmt p.desc) (w48Value v) false false % 2 ^ 32 := by
  have hresults := (recordResults_of_pool (s := s) hpool).trans (poolResults_total _ _ _ _ _ _ hkind htotal)
  refine ⟨_, rotateList_perm _ (Config.freeBits 2 (freeNo s)).toNat, ?_⟩
  have hvalue : (totalValue p.desc (freeNo s) p.work).toNat % 2 ^ 64 = (totalValue p.desc (freeNo s) p.work).toNat := Nat.mod_eq_of_lt (BitVec.isLt _)
  exact ⟨(bits_recordOf_field (hi := 639) (lo := 576) hresults 1 rfl (by simp) rfl (by decide)).trans hvalue, bits_recordOf_above hresults (by simp),
    bits_recordOf_field hresults 2 rfl (by simp) rfl (by decide), bits_recordOf_field hresults 0 rfl (by simp) rfl (by decide)⟩

theorem recordOf_search (hkind : dKind p.desc = 0x17) : bits (recordOf s p).toNat 543 512 = p.work.rowsScored % 2 ^ 32 ∧
    bits (recordOf s p).toNat 544 544 = (if p.work.resultFailed then 1 else 0) ∧ bits (recordOf s p).toNat 575 545 = 0 ∧
    bits (recordOf s p).toNat 607 576 = p.work.nanRows % 2 ^ 32 ∧ bits (recordOf s p).toNat 623 608 = p.work.queryInvalid.toNat ∧ bits (recordOf s p).toNat 2047 624 = 0 := by
  have hresults := (recordResults_of_pool (s := s) hpool).trans (poolResults_search _ _ _ _ _ _ hkind)
  have hinvalid : p.work.queryInvalid.toNat % 2 ^ 16 = p.work.queryInvalid.toNat := Nat.mod_eq_of_lt (BitVec.isLt _)
  exact ⟨bits_recordOf_field hresults 4 rfl (by simp) rfl (by decide), (bits_recordOf_field (hi := 544) (lo := 544) hresults 3 rfl (by simp) rfl (by decide)).trans (b2n_mod_two _),
    bits_recordOf_field hresults 2 rfl (by simp) rfl (by decide), bits_recordOf_field hresults 1 rfl (by simp) rfl (by decide),
    (bits_recordOf_field (hi := 623) (lo := 608) hresults 0 rfl (by simp) rfl (by decide)).trans hinvalid, bits_recordOf_above hresults (by simp)⟩

theorem recordOf_digest (hkind : dKind p.desc = 0x19) (hall : p.completed = p.total) (hbase : p.base % 2 ^ 21 = 0) :
    bits (recordOf s p).toNat 896 896 = 1 ∧ bits (recordOf s p).toNat 2047 897 = 0 ∧
    slice (lineBytes (recordOf s p)) 64 48 = digestBytes (sha384 (leBytes 8 p.base ++ leBytes 4 p.total ++ leBytes 2 (dExt p.desc) ++ leBytes 1 (dGen p.desc) ++ [0] ++
      (List.range p.total).flatMap (fun j => digestBytes (tget p.work.leaves j 0)))) := by
  have hresults := recordResults_of_pool (s := s) hpool
  rw [hall, beq_self_eq_true, poolResults_digest _ _ _ _ _ hkind] at hresults
  have hdigest : poolResults.poolDigest p.desc p.base p.total (dGen p.desc) p.work =
      sha384 (leBytes 8 p.base ++ leBytes 4 p.total ++ leBytes 2 (dExt p.desc) ++ leBytes 1 (dGen p.desc) ++ [0] ++
        (List.range p.total).flatMap (fun j => digestBytes (tget p.work.leaves j 0))) := by
    rw [poolResults.poolDigest, digestHeader, Nat.div_mul_cancel (Nat.dvd_of_mod_eq_zero hbase)]
  refine ⟨bits_recordOf_field hresults 0 rfl (by simp) rfl (by decide), bits_recordOf_above hresults (by simp), ?_⟩
  rw [slice_lineBytes _ (by decide) (by decide), ← hdigest]
  have hbits : bits (recordOf s p).toNat 895 512 = ofLe (digestBytes (poolResults.poolDigest p.desc p.base p.total (dGen p.desc) p.work)) % 2 ^ (8 * 48) :=
    bits_recordOf_field hresults 1 rfl (by simp) rfl (by decide)
  have hbytes := leBytes_ofLe (digestBytes (poolResults.poolDigest p.desc p.base p.total (dGen p.desc) p.work))
  rw [digestBytes_length] at hbytes
  exact (congrArg (leBytes 48) hbits).trans ((leBytes_mod ..).trans hbytes)

end
end

end Sys2Proof.Machine

section
open Sys2Proof Sys2Proof.Machine

/-- Settles O40: acceptance, descriptors, placement, start and end of items, the record, the result lists and the COMPLETION in turn. -/
theorem launchesRunTheirItems : Obligations.LaunchesRunTheirItems := by
  unfold Obligations.LaunchesRunTheirItems
  intro s n i e h p th g
  refine ⟨?spray, ?pool, ?descriptors, ?placed, ?engine, ?started, ?ended, ?item, fun hspray hended => ⟨?record, ?lists, ?store, ?completion⟩⟩
  case spray =>
    intro k r via q horigin hop hown
    exact ⟨fun st hst => launch_spray_of_refused k horigin hop hown hst, fun hnone => launch_spray_of_passed k horigin hop hown hnone⟩
  case pool =>
    intro k r via q horigin hop d kind x size aspace refusal
    have hrefusal : poolRefusal s r.source r.tenant r.payload = refusal := poolRefusal_eq ..
    exact ⟨fun st hst => launch_pool_of_refused k horigin hop (hrefusal.trans hst), fun hnone => launch_pool_of_passed k horigin hop (hrefusal.trans hnone)⟩
  case descriptors =>
    intro d kind chunks r dst src src2 index meet pages
    refine ⟨fun hkind => descOk_of_unknown hkind, fun hkind size => ⟨shapeOk_of_line hkind size, poolItems_of_line hkind size, poolPages_of_line hkind size⟩,
      fun hkind size => ⟨poolItems_search hkind size, poolPages_search hkind size⟩, fun hkind size => poolItems_attend hkind size,
      fun hkind size => ⟨shapeOk_digest hkind size, overlaps_of_none ?_, poolItems_digest hkind size, poolPages_digest hkind size⟩,
      fun hkind => overlaps_of_none ?_, fun hkind => ?_, fun hkind => ?_, fun hkind => ?_⟩
    · rw [show dKind d = 0x19 from hkind]
      decide
    · simp only [List.mem_cons, List.not_mem_nil, or_false] at hkind ⊢
      exact hkind.imp_right (Or.imp_right .inl)
    · rw [overlaps_copy hkind]
      exact meets_iff (Nat.mul_pos (by decide) dCount_pos) (Nat.mul_pos (by decide) dCount_pos)
    · have hbytes : 0 < 256 * dCount d := Nat.mul_pos (by decide) dCount_pos
      rw [overlaps_reduce hkind, Bool.and_eq_true, Bool.not_eq_true', Bool.or_eq_true, Bool.and_eq_true, Bool.and_eq_true, bne_iff_ne, bne_iff_ne, meets_iff hbytes hbytes,
        meets_iff hbytes hbytes]
      rfl
    · rw [overlaps_gather hkind]
      exact meets_iff (Nat.mul_pos (Nat.mul_pos (by decide) dCount_pos) dRow_pos) (Nat.mul_pos (by decide) dCount_pos)
  case placed =>
    intro hspray hi hfirst hbefore to_ l
    have hexec := exec_threadPlacement hspray hi hfirst hbefore
    refine ⟨fun hroom => ⟨fun hserved => ?_, fun hfenced => ?_⟩, fun hfull => ?_⟩
    · rw [hexec, when_true (decide_eq_true hroom), placeItem_of_served hserved]
    · rw [hexec, when_true (decide_eq_true hroom), placeItem_of_fenced hfenced]
    · rw [hexec, when_false (decide_eq_false (Nat.not_le.mpr hfull))]
  case engine =>
    intro hpool
    refine ⟨placeEngine_of_region hpool, placeEngine_of_spread hpool, fun hmode => ⟨fun ha => placeEngine_of_noncanonical hpool hmode rfl ha, fun ha =>
      ⟨fun hnone => placeEngine_of_unmapped hpool hmode rfl ha hnone, fun ppa x hppa hself hextent => ?_⟩⟩⟩
    exact placeEngine_of_mapped hpool hmode rfl ha (localOffset_of_self hppa hself) hextent
  case started =>
    intro hfree hnext hruns hroom
    obtain ⟨hlength, hitem, hargs, hrest⟩ := startThread_sregs s p n i (itemGroup s p i)
    exact ⟨startItem s e h n p i, startThread s p n i (itemGroup s p i), exec_threadStart hfree hnext hruns hroom, threadOf?_startItem (lt_of_freeThread hfree),
      rfl, rfl, rfl, rfl, rfl, rfl, rfl, rfl, rfl, hlength, hitem, hargs, hrest, rfl, rfl, rfl, fun d hd => threadOf?_startItem_other hd, fun a ha => readByte_startItem ha,
      ⟨_, sprayOf?_startItem s e h n i p, rfl, fun j hj => tget?_foldl_tset i _ _ _ j hj⟩, rfl⟩
  case ended =>
    intro hthread hspray hpool hidle hitems
    exact ⟨fun hending => exec_threadEnd hthread hspray hidle hitems (threadOutcome_of_ending hpool hending),
      fun f hfailing => exec_threadEnd hthread hspray hidle hitems (threadOutcome_of_failing hpool hfailing),
      fun d hlimit hd hlate hrunning => exec_watchdogExpiry hthread hspray hpool hlimit hd hlate hrunning⟩
  case item =>
    intro hspray hopen hpool base put
    exact ⟨endItem_of_completed hspray hopen hpool, endItem_of_failed hspray hopen hpool⟩
  case record =>
    intro hnone hrecord hunwritten q s1
    have hstores := stores_of_sprayEnded hended
    refine ⟨recordOf (resultsPassed s n p) p.listsDone, recorded s n p, rfl,
      fun x hx => (exec_sprayComplete hspray hended).trans (congrArg Host.Outcome.next (completeSpray_unrecorded hspray hnone hstores hrecord hx)), ?_⟩
    obtain ⟨hkind, hfailed, hcancelled, hid, htotal, hcompleted, hfailures, hstart, hend⟩ := recordOf_counts (resultsPassed s n p) p.listsDone
    refine ⟨hkind, hfailed, hcancelled, hid, htotal, hcompleted, hfailures, hstart, hend, fun j f hf => recordOf_firstFail _ hf, fun hplain => recordOf_none hplain,
      fun hpool hcompare => recordOf_compare (p := p.listsDone) hpool hcompare, fun hpool hreduce hall => ?_,
      fun hpool hsearch => recordOf_search (p := p.listsDone) hpool hsearch, fun hpool hdigest hall hbase => recordOf_digest (p := p.listsDone) hpool hdigest hall hbase⟩
    obtain ⟨vs, hperm, hvalue, habove, hbelow, helement⟩ := recordOf_total (s := resultsPassed s n p) (p := p.listsDone) hpool hreduce hall
    refine ⟨vs, hperm, hvalue, habove, hbelow, fun hint => ?_, fun hfloat => ?_⟩
    · rw [← totalFmt_of_int hint]
      exact helement
    · rw [← totalFmt_of_float hfloat]
      exact helement
  case lists =>
    intro hpool hkind hwritten k t y hy hstores
    rw [exec_sprayComplete hspray hended, completeSpray_of_lists hspray hpool hkind hwritten hy hstores]
    rfl
  case store =>
    intro a bs hsome hline
    exact ⟨fun hnone => storeAt_of_unwritable hsome hline hnone, fun o ho hsame => ⟨lineOfStore o bs, maskOfStore o bs.length, storeAt_of_writable hsome hline ho,
      fun j hj => lineOfStore_get (by rw [hsame]; exact hline) hj, fun j hj => maskOfStore_get (by rw [hsame]; exact hline) hj⟩⟩
  case completion =>
    intro hpool r hresults hrecord hwritten hgood hopen hwaits u v
    rw [exec_sprayComplete hspray hended, completeSpray_recorded hspray hresults (stores_of_sprayEnded hended) hrecord hwritten]
    exact congrArg Host.Outcome.next (sendCompletion_of_spray hpool hrecord hgood hopen hwaits)

end

/-! Instructions that change their own thread alone (08, R205 to R209): the step of a legal word, and scalar instructions. -/

namespace Sys2Proof.Machine

section
variable {s : State} {t : ThreadRef} {op : Nat} {f : Fields} {regs : List Nat} {p : Spray} {th : Thread} {i : Instr} {legal : Bool}
  {act : Spray → Thread → Act} {g : Spray → Thread → Thread}

/-! ### The step of a legal word -/

/-- A legal word that only writes registers leaves its thread with them, at the next word. -/
theorem exec_of_regOp (r : Ready s t op f regs p th) (hexec : exec i s = regOp s t op f legal regs g) (hlegal : legal = true) :
    exec i s = .next (issued s t { g p th with pc := nextPc (g p th) }) := by
  rw [hexec, hlegal, regOp_ready r]

theorem exec_setsSreg {d : Nat} {v : Word} (r : Ready s t op f regs p th) (hexec : exec i s = regOp s t op f legal regs g)
    (hlegal : legal = true) (hg : g p th = setSreg th d v) :
    exec i s = .next (issued s t { th with sregs := th.sregs.set d v, pc := nextPc th }) := by
  rw [exec_of_regOp r hexec hlegal, hg]
  rfl

theorem exec_setsVreg {d : Nat} {v : VReg} (r : Ready s t op f regs p th) (hexec : exec i s = regOp s t op f legal regs g)
    (hlegal : legal = true) (hg : g p th = setVreg th d v) :
    exec i s = .next (issued s t { th with vregs := th.vregs.set d v, pc := nextPc th }) := by
  rw [exec_of_regOp r hexec hlegal, hg]
  rfl

theorem exec_setsAcc {d : Nat} {v : List Word} (r : Ready s t op f regs p th) (hexec : exec i s = regOp s t op f legal regs g)
    (hlegal : legal = true) (hg : g p th = setAcc th d v) :
    exec i s = .next (issued s t { th with accs := th.accs.set d v, pc := nextPc th }) := by
  rw [exec_of_regOp r hexec hlegal, hg]
  rfl

/-- A write to p0 changes no predicate (R205). -/
theorem exec_setsPred {d : Nat} {v : Word} (r : Ready s t op f regs p th) (hexec : exec i s = regOp s t op f legal regs g)
    (hlegal : legal = true) (hg : g p th = setPred th d v) :
    exec i s = .next (issued s t { th with preds := if d = 0 then th.preds else th.preds.set d v, pc := nextPc th }) := by
  rw [exec_of_regOp r hexec hlegal, hg]
  by_cases hd : d = 0 <;> simp [setPred, hd, nextPc]

/-! ### Fields that name a register (08, R206) -/

theorem isV_of_lt {x : BitVec 5} (h : x.toNat < 16) : isV x = true := decide_eq_true h
theorem isA_of_lt {x : BitVec 5} (h : x.toNat < 4) : isA x = true := decide_eq_true h
theorem isP_of_lt {x : BitVec 5} (h : x.toNat < 8) : isP x = true := decide_eq_true h

/-! ### Immediates (08, R207, Table 8.3) -/

/-- An immediate that uses every bit of FN. -/
theorem exec_immOp (h : Word → Word) (hb : f.b = 0) (hlegal : legal = true) (r : Ready s t op f [rS f.d, rS f.a] p th)
    (hexec : exec i s = immOp s t op f legal h) :
    exec i s = .next (issued s t { th with sregs := th.sregs.set f.d.toNat (h (sreg th f.a.toNat)), pc := nextPc th }) :=
  exec_setsSreg r hexec (by simp [hb, hlegal]) rfl

theorem exec_slti (hb : f.b = 0) (r : Ready s t 0x09 f [rS f.d, rS f.a] p th) :
    exec (.slti t f) s = .next (issued s t { th with
      sregs := th.sregs.set f.d.toNat (if (sreg th f.a.toNat).toInt < (imm11 f).toInt then 1 else 0), pc := nextPc th }) := by
  simpa only [BitVec.slt_iff_toInt_lt] using exec_immOp (i := .slti t f) (fun a => if a.slt (imm11 f) then 1 else 0) hb rfl r rfl

/-! ### POP (08, Table 8.6) -/

theorem execPop_fromScalar (h : f.fn = 0) : execPop t f s = regOp s t 0x0C f (isP f.d && f.b == 0) [rS f.a] (fun _ th => setPred th f.d.toNat (sreg th f.a.toNat)) := by
  unfold execPop; rw [h]; rfl

theorem execPop_toScalar (h : f.fn = 1) : execPop t f s = regOp s t 0x0C f (isP f.a && f.b == 0) [rS f.d] (fun _ th => setSreg th f.d.toNat (pred th f.a.toNat)) := by
  unfold execPop; rw [h]; rfl

theorem execPop_and (h : f.fn = 2) : execPop t f s =
    regOp s t 0x0C f (isP f.d && isP f.a && isP f.b) [] (fun _ th => setPred th f.d.toNat (pred th f.a.toNat &&& pred th f.b.toNat)) := by
  unfold execPop; rw [h]; rfl

theorem execPop_or (h : f.fn = 3) : execPop t f s =
    regOp s t 0x0C f (isP f.d && isP f.a && isP f.b) [] (fun _ th => setPred th f.d.toNat (pred th f.a.toNat ||| pred th f.b.toNat)) := by
  unfold execPop; rw [h]; rfl

theorem execPop_xor (h : f.fn = 4) : execPop t f s =
    regOp s t 0x0C f (isP f.d && isP f.a && isP f.b) [] (fun _ th => setPred th f.d.toNat (pred th f.a.toNat ^^^ pred th f.b.toNat)) := by
  unfold execPop; rw [h]; rfl

theorem execPop_not (h : f.fn = 5) : execPop t f s = regOp s t 0x0C f (isP f.d && isP f.a && f.b == 0) [] (fun _ th => setPred th f.d.toNat (~~~ pred th f.a.toNat)) := by
  unfold execPop; rw [h]; rfl

theorem execPop_lowOnes (h : f.fn = 6) : execPop t f s =
    regOp s t 0x0C f (isP f.d && f.b == 0) [rS f.a] (fun _ th => setPred th f.d.toNat (lowOnes (sreg th f.a.toNat).toNat)) := by
  unfold execPop; rw [h]; rfl

/-! ### RDS (08, Table 8.5) -/

theorem exec_rds {n : Nat} (ha : f.a = 0) (hb : f.b = 0) (r : Ready s t 0x0D f [rS f.d] p th) (hfn : f.fn.toNat = n) (hn : n < 8) :
    exec (.rds t f) s = .next (issued s t { th with sregs := th.sregs.set f.d.toNat (BitVec.ofNat 64 (specialValue s t p th n)), pc := nextPc th }) := by
  subst hfn
  exact exec_setsSreg r rfl (by simp [ha, hb, hn]) rfl

end

end Sys2Proof.Machine

section
open Sys2Proof Sys2Proof.Machine

/-- Settles O28: an immediate by the one rule of its form, POP and RDS by their function. -/
theorem scalarInstructions : Obligations.ScalarInstructions := by
  unfold Obligations.ScalarInstructions
  refine ⟨?immediates, ?predicates⟩
  case immediates =>
    intro s t f p th a imm imm21 gives da
    refine ⟨fun hb => ⟨fun r => ?addi, fun r => ?andi, fun r => ?ori, fun r => ?xori, fun r => exec_slti hb r, fun hfn => ⟨fun r => ?shli, fun r => ?shri, fun r => ?srai⟩⟩,
      fun r => ?li, fun r => ?lis⟩
    case addi => exact exec_immOp (· + imm11 f) hb rfl r rfl
    case andi => exact exec_immOp (· &&& imm11 f) hb rfl r rfl
    case ori => exact exec_immOp (· ||| imm11 f) hb rfl r rfl
    case xori => exact exec_immOp (· ^^^ imm11 f) hb rfl r rfl
    case shli => exact exec_immOp (· <<< f.fn.toNat) hb (decide_eq_true hfn) r rfl
    case shri => exact exec_immOp (· >>> f.fn.toNat) hb (decide_eq_true hfn) r rfl
    case srai => exact exec_immOp (·.sshiftRight f.fn.toNat) hb (decide_eq_true hfn) r rfl
    case li => exact exec_setsSreg r rfl rfl rfl
    case lis => exact exec_setsSreg r rfl rfl rfl
  case predicates =>
    intro s t f p th p0 toP toS sa
    refine ⟨fun hd hb r => ⟨fun hfn => ?fromScalar, fun hfn => ?lowOnes⟩, fun ha hb hfn r => ?toScalar,
      fun hd ha r => ⟨fun hb => ⟨fun hfn => ?and, fun hfn => ?or, fun hfn => ?xor⟩, fun hb hfn => ?not⟩, fun ha hb r => ?special⟩
    case fromScalar => exact exec_setsPred r (execPop_fromScalar hfn) (by simp [isP_of_lt hd, hb]) rfl
    case lowOnes => exact exec_setsPred r (execPop_lowOnes hfn) (by simp [isP_of_lt hd, hb]) rfl
    case toScalar => exact exec_setsSreg r (execPop_toScalar hfn) (by simp [isP_of_lt ha, hb]) rfl
    case and => exact exec_setsPred r (execPop_and hfn) (by simp [isP_of_lt hd, isP_of_lt ha, isP_of_lt hb]) rfl
    case or => exact exec_setsPred r (execPop_or hfn) (by simp [isP_of_lt hd, isP_of_lt ha, isP_of_lt hb]) rfl
    case xor => exact exec_setsPred r (execPop_xor hfn) (by simp [isP_of_lt hd, isP_of_lt ha, isP_of_lt hb]) rfl
    case not => exact exec_setsPred r (execPop_not hfn) (by simp [isP_of_lt hd, isP_of_lt ha, hb]) rfl
    case special =>
      have hrds := fun n hfn hn => exec_rds (n := n) ha hb r hfn hn
      exact ⟨fun h => hrds 0 (congrArg _ h) (by decide), fun h => hrds 1 (congrArg _ h) (by decide), fun h => hrds 2 (congrArg _ h) (by decide),
        fun h => hrds 3 (congrArg _ h) (by decide), fun h => hrds 4 (congrArg _ h) (by decide), fun h => hrds 5 (congrArg _ h) (by decide),
        fun h => hrds 6 (congrArg _ h) (by decide), fun h => hrds 7 (congrArg _ h) (by decide)⟩

end

/-! ALU (08, R208, Table 8.4): each function as exact arithmetic. -/

namespace Sys2Proof.Machine

/-- Table 8.4 gives the functions 0 to 18 a result for all operands. -/
theorem aluOp_isSome {fn : Nat} (h : fn ≤ 0x12) (a b : Word) : (aluOp fn a b).isSome = true := by
  interval_cases fn <;> rfl

/-- The others are reserved. -/
theorem aluOp_reserved {fn : Nat} (h : 0x12 < fn) (a b : Word) : aluOp fn a b = none := by
  unfold aluOp
  split
  case h_20 => rfl
  all_goals omega

theorem exec_alu {s : State} {t : ThreadRef} {f : Fields} {p : Spray} {th : Thread} (r : Ready s t 0x01 f [rS f.d, rS f.a, rS f.b] p th)
    (hfn : f.fn.toNat ≤ 0x12) :
    exec (.alu t f) s = .next (issued s t { th with
      sregs := th.sregs.set f.d.toNat ((aluOp f.fn.toNat (sreg th f.a.toNat) (sreg th f.b.toNat)).getD 0), pc := nextPc th }) :=
  exec_setsSreg r rfl (aluOp_isSome hfn 0 0) rfl

variable (a b : Word)

theorem toNat_shiftLeft_eq (n : Nat) : (a <<< n).toNat = a.toNat * 2 ^ n % 2 ^ 64 := by
  rw [BitVec.toNat_shiftLeft, Nat.shiftLeft_eq]

theorem toNat_shiftRight_eq (n : Nat) : (a >>> n).toNat = a.toNat / 2 ^ n := by
  rw [BitVec.toNat_ushiftRight, Nat.shiftRight_eq_div_pow]

theorem toInt_sshiftRight_eq (n : Nat) : (a.sshiftRight n).toInt = a.toInt / 2 ^ n := by
  rw [BitVec.toInt_sshiftRight, Int.shiftRight_eq_div_pow, Nat.cast_pow, Nat.cast_ofNat]

/-- The high half of an unsigned product fits a word. -/
theorem toNat_mulHigh : (BitVec.ofNat 64 (a.toNat * b.toNat / 2 ^ 64)).toNat = a.toNat * b.toNat / 2 ^ 64 := by
  have hprod : a.toNat * b.toNat < 2 ^ 64 * 2 ^ 64 := Nat.mul_lt_mul'' a.isLt b.isLt
  rw [BitVec.toNat_ofNat, Nat.mod_eq_of_lt (Nat.div_lt_of_lt_mul hprod)]

theorem word_toInt_bounds : -2 ^ 63 ≤ a.toInt ∧ a.toInt < 2 ^ 63 := ⟨BitVec.le_toInt a, BitVec.toInt_lt (x := a)⟩

/-- The high half of a signed product fits a word. -/
theorem toInt_mulHigh : (BitVec.ofInt 64 (a.toInt * b.toInt / (2 ^ 64 : Nat))).toInt = a.toInt * b.toInt / (2 ^ 64 : Nat) := by
  obtain ⟨ha, ha'⟩ := word_toInt_bounds a
  obtain ⟨hb, hb'⟩ := word_toInt_bounds b
  have habs : |a.toInt * b.toInt| ≤ 2 ^ 63 * 2 ^ 63 := by
    rw [abs_mul]
    exact mul_le_mul (abs_le.mpr ⟨ha, ha'.le⟩) (abs_le.mpr ⟨hb, hb'.le⟩) (abs_nonneg _) (by norm_num)
  obtain ⟨hlo, hhi⟩ := abs_le.mp habs
  exact BitVec.toInt_ofInt_eq_self (by decide) (by omega) (by omega)

theorem toInt_signedMin : (if b.slt a then b else a).toInt = min a.toInt b.toInt := by
  by_cases h : b.toInt < a.toInt
  · rw [if_pos (BitVec.slt_iff_toInt_lt.mpr h), min_eq_right h.le]
  · rw [if_neg (mt BitVec.slt_iff_toInt_lt.mp h), min_eq_left (not_lt.mp h)]

theorem toInt_signedMax : (if a.slt b then b else a).toInt = max a.toInt b.toInt := by
  by_cases h : a.toInt < b.toInt
  · rw [if_pos (BitVec.slt_iff_toInt_lt.mpr h), max_eq_right h.le]
  · rw [if_neg (mt BitVec.slt_iff_toInt_lt.mp h), max_eq_left (not_lt.mp h)]

theorem ult_iff_toNat_lt {a b : Word} : a.ult b = true ↔ a.toNat < b.toNat := by
  rw [BitVec.ult_eq_decide, decide_eq_true_iff]

theorem toNat_unsignedMin : (if b.ult a then b else a).toNat = min a.toNat b.toNat := by
  by_cases h : b.toNat < a.toNat
  · rw [if_pos (ult_iff_toNat_lt.mpr h), min_eq_right h.le]
  · rw [if_neg (mt ult_iff_toNat_lt.mp h), min_eq_left (not_lt.mp h)]

theorem toNat_unsignedMax : (if a.ult b then b else a).toNat = max a.toNat b.toNat := by
  by_cases h : a.toNat < b.toNat
  · rw [if_pos (ult_iff_toNat_lt.mpr h), max_eq_right h.le]
  · rw [if_neg (mt ult_iff_toNat_lt.mp h), max_eq_left (not_lt.mp h)]

theorem toNat_signedLess : (if a.slt b then 1 else 0 : Word).toNat = if a.toInt < b.toInt then 1 else 0 := by
  simp only [← BitVec.slt_iff_toInt_lt]
  split <;> rfl

theorem toNat_unsignedLess : (if a.ult b then 1 else 0 : Word).toNat = if a.toNat < b.toNat then 1 else 0 := by
  simp only [← ult_iff_toNat_lt]
  split <;> rfl

/-- A division by zero gives all ones (R208). -/
theorem toNat_quotient : (if b = 0 then BitVec.allOnes 64 else a / b).toNat = if b.toNat = 0 then 2 ^ 64 - 1 else a.toNat / b.toNat := by
  by_cases h : b = 0
  · subst h
    rfl
  · have hb : b.toNat ≠ 0 := fun hz => h (BitVec.eq_of_toNat_eq hz)
    rw [if_neg h, if_neg hb, BitVec.toNat_udiv]

/-- A remainder by zero is the dividend (R208). -/
theorem toNat_remainder : (if b = 0 then a else a % b).toNat = if b.toNat = 0 then a.toNat else a.toNat % b.toNat := by
  by_cases h : b = 0
  · subst h
    rfl
  · have hb : b.toNat ≠ 0 := fun hz => h (BitVec.eq_of_toNat_eq hz)
    rw [if_neg h, if_neg hb, BitVec.toNat_umod]

end Sys2Proof.Machine

section
open Sys2Proof Sys2Proof.Machine

/-- Settles O29: the step of ALU, and each function by its arithmetic. -/
theorem aluFunctions : Obligations.AluFunctions := by
  unfold Obligations.AluFunctions
  intro s t f p th r hfn a b m
  refine ⟨_, exec_alu r hfn, ?add, ?sub, ?and, ?or, ?xor, ?shl, ?shr, ?sra, ?mul, ?mulHigh, ?mulHighSigned, ?min, ?max, ?minUnsigned, ?maxUnsigned, ?lt, ?ltUnsigned,
    ?quotient, ?remainder⟩ <;> intro h <;> rw [h]
  case add => exact BitVec.toNat_add a b
  case sub => exact BitVec.toInt_sub
  case and => exact fun i _ => BitVec.getLsbD_and
  case or => exact fun i _ => BitVec.getLsbD_or
  case xor => exact fun i _ => BitVec.getLsbD_xor
  case shl => exact toNat_shiftLeft_eq a _
  case shr => exact toNat_shiftRight_eq a _
  case sra => exact toInt_sshiftRight_eq a _
  case mul => exact BitVec.toNat_mul a b
  case mulHigh => exact toNat_mulHigh a b
  case mulHighSigned => exact toInt_mulHigh a b
  case min => exact toInt_signedMin a b
  case max => exact toInt_signedMax a b
  case minUnsigned => exact toNat_unsignedMin a b
  case maxUnsigned => exact toNat_unsignedMax a b
  case lt => exact toNat_signedLess a b
  case ltUnsigned => exact toNat_unsignedLess a b
  case quotient => exact toNat_quotient a b
  case remainder => exact toNat_remainder a b

end

/-! Branches, jumps, ends and waits of a thread, and illegal words (08, R206, R209, R214, Table 8.3; 07, R184). -/

namespace Sys2Proof.Machine

section
variable {s : State} {t : ThreadRef} {op : Nat} {f : Fields} {regs : List Nat} {p : Spray} {th : Thread} {i : Instr} {legal : Bool}
  {act : Spray → Thread → Act}

/-! ### Branches and jumps -/

/-- The word at a distance from the one a thread stands at, modulo the 24 bits of PC. -/
def wordAt (th : Thread) (off : Int) : Nat := (((th.pc : Int) + off) % 2 ^ 24).toNat

theorem passPointer_branch (s : State) (t : ThreadRef) (th : Thread) (off : Int) :
    passPointer (branch s t th off) t = issued s t { th with pc := wordAt th off } := by
  simp only [branch, wordAt, Nat.cast_pow, Nat.cast_ofNat]
  rfl

/-- A word that branches where a condition holds. -/
theorem exec_branch {c : Bool} {C : Prop} [Decidable C] {off : Int} (r : Ready s t op f regs p th) (hexec : exec i s = issue s t op f legal regs act)
    (hlegal : legal = true) (hact : act p th = .go (if c then branch s t th off else retire s t th)) (hc : c = true ↔ C) :
    exec i s = .next (issued s t { th with pc := if C then wordAt th off else nextPc th }) := by
  rw [exec_of_go r hexec hlegal hact]
  by_cases h : C
  · rw [if_pos (hc.mpr h), if_pos h, passPointer_branch]
  · rw [if_neg (mt hc.mp h), if_neg h, passPointer_retire]

/-- A branch on a comparison of two scalars. -/
theorem exec_compareBranch {c : Word → Word → Bool} {C : Prop} [Decidable C] (hd : f.d = 0) (r : Ready s t op f [rS f.a, rS f.b] p th)
    (hexec : exec i s = compareBranch s t op f c) (hc : c (sreg th f.a.toNat) (sreg th f.b.toNat) = true ↔ C) :
    exec i s = .next (issued s t { th with pc := if C then wordAt th f.fn.toInt else nextPc th }) :=
  exec_branch r hexec (by simp [hd]) rfl hc

/-- An unconditional jump by a distance. -/
theorem exec_jump {th' : Thread} {off : Int} (r : Ready s t op f regs p th) (hexec : exec i s = issue s t op f legal regs act)
    (hlegal : legal = true) (hact : act p th = .go (branch s t th' off)) :
    exec i s = .next (issued s t { th' with pc := wordAt th' off }) := by
  rw [exec_of_go r hexec hlegal hact, passPointer_branch]

theorem not_slt_iff (a b : Word) : (!a.slt b) = true ↔ b.toInt ≤ a.toInt := by
  rw [BitVec.slt_eq_decide, Bool.not_eq_true', decide_eq_false_iff_not, not_lt]

theorem not_ult_iff (a b : Word) : (!a.ult b) = true ↔ b.toNat ≤ a.toNat := by
  rw [BitVec.ult_eq_decide, Bool.not_eq_true', decide_eq_false_iff_not, not_lt]

/-- BP branches by the condition that its high D bits name (Table 8.3). -/
theorem exec_bp {k : Nat} {C : Prop} [Decidable C] (r : Ready s t 0x16 f [] p th) (hk : f.d.toNat / 8 = k)
    (hc : predCond k (pred th (f.d.toNat % 8)) = true ↔ C) :
    exec (.bp t f) s = .next (issued s t { th with pc := if C then wordAt th (imm21 f).toInt else nextPc th }) := by
  subst hk
  exact exec_branch r (Eq.refl (execBp t f s)) rfl rfl hc

/-! ### Threads that end or wait -/

/-- A word that waits until a condition holds. -/
theorem exec_waits {C : Prop} [Decidable C] {D : Prop} [Decidable D] (r : Ready s t op f regs p th) (hexec : exec i s = issue s t op f legal regs act)
    (hlegal : legal = true) (hact : act p th = if D then .go (retire s t th) else .wait) (hc : D ↔ C) :
    exec i s = .next (if C then issued s t { th with pc := nextPc th } else s) := by
  by_cases h : C
  · rw [exec_of_go r hexec hlegal (hact.trans (if_pos (hc.mpr h))), if_pos h, passPointer_retire]
  · rw [hexec, hlegal, issue_ready r, hact, if_neg (mt hc.mp h), if_neg h]

/-- A thread that may issue runs. -/
theorem running_of_mayIssue (h : mayIssue s t th = true) : th.phase = .running := by
  simp only [mayIssue, Bool.and_eq_true, beq_iff_eq] at h
  obtain ⟨⟨⟨hrunning, -⟩, -⟩, -⟩ := h
  exact hrunning

theorem setThread_setThread (s : State) (e h : Nat) (v w : Thread) : setThread (setThread s e h v) e h w = setThread s e h w := by
  simp only [setThread, tset_tset]

/-- The first failure of a running thread. -/
theorem failThread_eq {e h : Nat} (hthread : threadOf? s e h = some th) (hrunning : th.phase = .running) (x : Failure) :
    failThread s e h x = dropFaulted (setThread s e h { th with phase := .failing x }) e h := by
  simp only [failThread, hthread, hrunning]

theorem exec_trap (hd : f.d = 0) (ha : f.a = 0) (hb : f.b = 0) (hfn : f.fn.toNat < 256) (r : Ready s t 0x1B f [] p th) :
    exec (.trap t f) s = .next (passPointer (dropFaulted (setThread s t.engine t.thread
      { th with pc := nextPc th, phase := .failing { status := Sts.threadTrap, detail := f.fn.toNat } }) t.engine t.thread) t) := by
  have hlegal : (f.d == 0 && f.a == 0 && f.b == 0 && decide (f.fn.toNat < 256)) = true := by simp [hd, ha, hb, hfn]
  have hthread := threadOf?_setThread_same (s := s) (e := t.engine) (lt_of_threadOf? r.thread) { th with pc := nextPc th }
  rw [exec_of_go (i := .trap t f) r (Eq.refl (execTrap t f s)) hlegal rfl]
  exact congrArg (fun s => Host.Outcome.next (passPointer s t))
    ((failThread_eq hthread (running_of_mayIssue r.issues) _).trans (by rw [setThread_setThread]))

/-! ### Illegal words (08, R206) -/

/-- The high part of a word of two. -/
theorem toNat_append_div {m n : Nat} (x : BitVec m) (y : BitVec n) : (x ++ y).toNat / 2 ^ n = x.toNat := by
  rw [BitVec.toNat_append, ← Nat.shiftLeft_add_eq_or_of_lt y.isLt, Nat.shiftLeft_eq, Nat.mul_comm, Nat.mul_add_div (Nat.two_pow_pos n), Nat.div_eq_of_lt y.isLt, Nat.add_zero]

/-- The opcode stands in the 6 high bits of a word (Table 8.2). -/
theorem wordOf_opcode (op : Nat) (f : Fields) : (wordOf op f).toNat / 2 ^ 26 = op % 64 := by
  have hsplit : 2 ^ 26 = 2 ^ (5 + (5 + 11)) * 2 ^ 5 := rfl
  rw [hsplit, ← Nat.div_div_eq_div_mul, wordOf, toNat_append_div, toNat_append_div, BitVec.toNat_ofNat]

/-- A command is the issue of a word. -/
def IssuesWord (i : Instr) (s : State) (t : ThreadRef) (op : Nat) (f : Fields) (legal : Bool) : Prop :=
  ∃ regs act, exec i s = issue s t op f legal regs act

theorem IssuesWord.of_issue (h : exec i s = issue s t op f legal regs act) : IssuesWord i s t op f legal := ⟨regs, act, h⟩

theorem IssuesWord.of_regOp {g : Spray → Thread → Thread} (h : exec i s = regOp s t op f legal regs g) : IssuesWord i s t op f legal := ⟨regs, _, h⟩

theorem nop_issuesWord : IssuesWord (.nop t f) s t 0x1D f (f.d == 0 && f.a == 0 && f.b == 0 && f.fn == 0) := .of_regOp (Eq.refl (execNop t f s))
theorem addi_issuesWord : IssuesWord (.addi t f) s t 0x02 f (f.b == 0 && true) := .of_regOp (Eq.refl (immOp s t 0x02 f true (· + imm11 f)))
theorem alu_issuesWord : IssuesWord (.alu t f) s t 0x01 f (aluOp f.fn.toNat 0 0).isSome := .of_regOp (Eq.refl (execAlu t f s))
theorem ld_issuesWord : ∃ legal, IssuesWord (.ld t f) s t 0x20 f legal := ⟨_, .of_issue (Eq.refl (execLd t f s))⟩
theorem vdot_issuesWord : ∃ legal, IssuesWord (.vdot t f) s t 0x39 f legal := ⟨_, .of_regOp (Eq.refl (dotInstr s t 0x39 f false))⟩

/-- A running thread after an illegal word. -/
theorem illegal_eq (hthread : threadOf? s t.engine t.thread = some th) (hrunning : th.phase = .running) :
    illegal s t = dropFaulted (setThread (passPointer s t) t.engine t.thread { th with phase := .failing { status := 0x8F } }) t.engine t.thread :=
  failThread_eq (s := passPointer s t) hthread hrunning _

section
variable (hthread : threadOf? s t.engine t.thread = some th) (hspray : sprayOf? s th.spray = some p) (hpool : p.pool = false)
  (hissues : mayIssue s t th = true)
include hthread hspray hpool hissues

/-- An index beyond the code ends the thread whichever instruction is asked for. -/
theorem exec_beyondCode (hi : IssuesWord i s t op f legal) (hword : fetchWord s p th = none) : exec i s = .next (illegal s t) := by
  obtain ⟨regs, act, hexec⟩ := hi
  simp [hexec, issue, hthread, hspray, hpool, hissues, hword]

/-- A word of no listed opcode ends the thread whichever instruction is asked for. -/
theorem exec_unlisted {w : BitVec 32} (hi : IssuesWord i s t op f legal) (hword : fetchWord s p th = some w) (hw : w.toNat / 2 ^ 26 ∉ listedOps) (hop : op % 64 ∈ listedOps) :
    exec i s = .next (illegal s t) := by
  obtain ⟨regs, act, hexec⟩ := hi
  have hne : w ≠ wordOf op f := fun h => hw (by rwa [h, wordOf_opcode])
  have hlisted : listedOps.contains (w.toNat / 2 ^ 26) = false := by simpa using hw
  simp only [hexec, issue, hthread, hspray, hpool, hissues, hword, if_neg hne, hlisted, Bool.not_true, Bool.or_false, Bool.false_eq_true, if_false]

/-- A word whose fields are not allowed ends its thread. -/
theorem exec_illegal (hi : IssuesWord i s t op f legal) (hword : fetchWord s p th = some (wordOf op f)) (hlegal : legal = false) :
    exec i s = .next (illegal s t) := by
  obtain ⟨regs, act, hexec⟩ := hi
  simp [hexec, issue, hthread, hspray, hpool, hissues, hword, hlegal]

end

end

end Sys2Proof.Machine

section
open Sys2Proof Sys2Proof.Machine

/-- Settles O30: branches by their condition, jumps by their distance. -/
theorem controlTransfers : Obligations.ControlTransfers := by
  unfold Obligations.ControlTransfers
  intro s t f p th a b imm at_ goes br pr
  refine ⟨fun hd => ⟨fun r => ?beq, fun r => ?bne, fun r => ?blt, fun r => ?bge, fun r => ?bltu, fun r => ?bgeu, fun r => ?jmp, fun hb hfn r => ?jr⟩, fun r => ?jal,
    fun r => ?bp⟩
  case beq => exact exec_compareBranch hd r (Eq.refl (execBeq t f s)) beq_iff_eq
  case bne => exact exec_compareBranch hd r (Eq.refl (execBne t f s)) bne_iff_ne
  case blt => exact exec_compareBranch hd r (Eq.refl (execBlt t f s)) decide_eq_true_iff
  case bge => exact exec_compareBranch hd r (Eq.refl (execBge t f s)) (not_slt_iff a b)
  case bltu => exact exec_compareBranch hd r (Eq.refl (execBltu t f s)) decide_eq_true_iff
  case bgeu => exact exec_compareBranch hd r (Eq.refl (execBgeu t f s)) (not_ult_iff a b)
  case jmp => exact exec_jump r (Eq.refl (execJmp t f s)) (by simp [hd]) rfl
  case jr => exact exec_of_go (i := .jr t f) r (Eq.refl (execJr t f s)) (by simp [hd, hb, hfn]) rfl
  case jal => exact exec_jump (i := .jal t f) r (Eq.refl (execJal t f s)) rfl rfl
  case bp =>
    exact ⟨fun hk => exec_bp r hk bne_iff_ne, fun hk => exec_bp r hk beq_iff_eq, fun hk => exec_bp r hk beq_iff_eq, fun hk => exec_bp r hk beq_iff_eq⟩

/-- Settles O31: ends and waits by what their words ask, and illegal words by where the issue of every instruction finds them. -/
theorem threadControlAndIllegalWords : Obligations.ThreadControlAndIllegalWords := by
  unfold Obligations.ThreadControlAndIllegalWords
  refine ⟨?control, ?illegal⟩
  case control =>
    intro s t f p th hd ha hb onward
    have hfields : f.fn = 0 → (f.d == 0 && f.a == 0 && f.b == 0 && f.fn == 0) = true := fun hfn => by simp [hd, ha, hb, hfn]
    refine ⟨fun hfn => ⟨fun r => ?nop, fun r => ?endInstr, fun r => ?fence⟩, fun hfn r => exec_trap hd ha hb hfn r, fun hfn r => ?twait⟩
    case nop => exact exec_of_regOp (i := .nop t f) r (Eq.refl (execNop t f s)) (hfields hfn)
    case endInstr => exact exec_of_go (i := .endInstr t f) r (Eq.refl (execEnd t f s)) (hfields hfn) rfl
    case fence => exact exec_waits r (Eq.refl (execFence t f s)) (hfields hfn) rfl List.isEmpty_iff
    case twait => exact exec_waits r (Eq.refl (execTwait t f s)) (by simp [hd, ha, hb, hfn]) rfl Iff.rfl
  case illegal =>
    intro s t f p th hthread hspray hpool hissues ends
    have hends : illegal s t = ends := illegal_eq hthread (running_of_mayIssue hissues)
    rw [← hends]
    obtain ⟨_, hld⟩ := ld_issuesWord (s := s) (t := t) (f := f)
    obtain ⟨_, hvdot⟩ := vdot_issuesWord (s := s) (t := t) (f := f)
    refine ⟨fun hword => ?beyondCode, fun w hword hw => ?unlisted, fun hword hset => ?nop, fun hword hb => ?addi, fun hword hfn => ?alu⟩
    case beyondCode =>
      have hall := fun {i op legal} (hi : IssuesWord i s t op f legal) => exec_beyondCode hthread hspray hpool hissues hi hword
      exact ⟨hall nop_issuesWord, hall hld, hall hvdot⟩
    case unlisted =>
      have hall := fun {i op legal} (hi : IssuesWord i s t op f legal) hop => exec_unlisted hthread hspray hpool hissues hi hword hw hop
      exact ⟨hall nop_issuesWord (by decide), hall hld (by decide), hall hvdot (by decide)⟩
    case nop =>
      refine exec_illegal hthread hspray hpool hissues nop_issuesWord hword (Bool.eq_false_iff.mpr fun h => hset ?_)
      simpa only [Bool.and_eq_true, beq_iff_eq, and_assoc] using h
    case addi => exact exec_illegal hthread hspray hpool hissues addi_issuesWord hword (by rw [beq_eq_false_iff_ne.mpr hb]; rfl)
    case alu => exact exec_illegal hthread hspray hpool hissues alu_issuesWord hword (by rw [aluOp_reserved hfn]; rfl)

end

/-! Elements of vectors (08, R216): what a vector holds after elements were replaced, and the formats' widths (Table 8.9). -/

namespace Sys2Proof.Machine

/-! ### One field of a word -/

/-- The bits of a word of which the w bits from s on were replaced. -/
theorem getLsbD_replaceField {n : Nat} (v : BitVec n) (w s b k : Nat) :
    ((v &&& ~~~(BitVec.ofNat n (2 ^ w - 1) <<< s)) ||| (BitVec.ofNat n (b % 2 ^ w) <<< s)).getLsbD k =
      if k < n ∧ s ≤ k ∧ k < s + w then b.testBit (k - s) else v.getLsbD k := by
  rw [BitVec.getLsbD_or, BitVec.getLsbD_and, BitVec.getLsbD_not, BitVec.getLsbD_shiftLeft, BitVec.getLsbD_shiftLeft, BitVec.getLsbD_ofNat, BitVec.getLsbD_ofNat,
    Nat.testBit_two_pow_sub_one, Nat.testBit_mod_two_pow]
  by_cases hk : k < n
  · by_cases hs : s ≤ k
    · have hin : k - s < n := by omega
      have hw : k - s < w ↔ k < s + w := by omega
      by_cases hfield : k < s + w <;> simp [hk, hs, hin, hw, hfield, Nat.not_lt.mpr hs]
    · simp [hk, hs, Nat.lt_of_not_le hs]
  · simp [hk, BitVec.getLsbD_of_ge v k (Nat.le_of_not_lt hk)]

theorem testBit_field {n : Nat} (v : BitVec n) (s w k : Nat) : (v.toNat / 2 ^ s % 2 ^ w).testBit k = (decide (k < w) && v.getLsbD (s + k)) := by
  rw [Nat.testBit_mod_two_pow, Nat.testBit_div_two_pow, Nat.add_comm, BitVec.getLsbD]

/-! ### Elements -/

theorem elem_lt (v : VReg) (w i : Nat) : elem v w i < 2 ^ w := Nat.mod_lt _ (Nat.two_pow_pos w)

@[simp] theorem elem_mod (v : VReg) (w i : Nat) : elem v w i % 2 ^ w = elem v w i := Nat.mod_eq_of_lt (elem_lt ..)

theorem testBit_elem (v : VReg) (w i k : Nat) : (elem v w i).testBit k = (decide (k < w) && v.getLsbD (w * i + k)) := by
  rw [elem, BitVec.toNat_ushiftRight, Nat.shiftRight_eq_div_pow, testBit_field]

theorem getLsbD_setElem (v : VReg) (w i b k : Nat) :
    (setElem v w i b).getLsbD k = if k < 512 ∧ w * i ≤ k ∧ k < w * i + w then b.testBit (k - w * i) else v.getLsbD k :=
  getLsbD_replaceField v w (w * i) b k

/-- Two elements have no bit in common. -/
theorem not_in_element {w i j k : Nat} (hne : j ≠ i) (hk : k < w) : ¬(w * i ≤ w * j + k ∧ w * j + k < w * i + w) := by
  rintro ⟨hlo, hhi⟩
  rcases Nat.lt_or_gt_of_ne hne with h | h
  · have := Nat.mul_le_mul_left w h
    rw [Nat.mul_succ] at this
    omega
  · have := Nat.mul_le_mul_left w h
    rw [Nat.mul_succ] at this
    omega

theorem elem_setElem_ne {i j : Nat} (v : VReg) (w b : Nat) (hne : j ≠ i) : elem (setElem v w i b) w j = elem v w j := by
  refine Nat.eq_of_testBit_eq fun k => ?_
  rw [testBit_elem, testBit_elem, getLsbD_setElem]
  by_cases hk : k < w
  · rw [if_neg fun h => not_in_element hne hk h.2]
  · simp [hk]

theorem elem_setElem_same {w i : Nat} (v : VReg) (b : Nat) (hin : w * (i + 1) ≤ 512) : elem (setElem v w i b) w i = b % 2 ^ w := by
  rw [Nat.mul_succ] at hin
  refine Nat.eq_of_testBit_eq fun k => ?_
  rw [testBit_elem, getLsbD_setElem, Nat.testBit_mod_two_pow]
  by_cases hk : k < w
  · rw [if_pos ⟨by omega, by omega, by omega⟩, Nat.add_sub_cancel_left]
  · simp [hk]

/-- An element after another or the same was replaced. -/
theorem elem_setElem {w i : Nat} (v : VReg) (b j : Nat) (hin : w * (i + 1) ≤ 512) : elem (setElem v w i b) w j = if j = i then b % 2 ^ w else elem v w j := by
  split
  next h => rw [h, elem_setElem_same v b hin]
  next h => exact elem_setElem_ne v w b h

/-! ### Many elements -/

/-- The elements of a vector of which those from a place on that a condition picks were replaced, one after another. -/
theorem elem_foldl_setElem {w : Nat} (v : VReg) (off : Nat) (pick : Nat → Bool) (g : Nat → Nat) (j : Nat) :
    ∀ {n : Nat}, w * (off + n) ≤ 512 →
      elem ((List.range n).foldl (fun v i => if pick i then setElem v w (off + i) (g i) else v) v) w j =
        if off ≤ j ∧ j < off + n ∧ pick (j - off) = true then g (j - off) % 2 ^ w else elem v w j
  | 0, _ => by
    have hnone : ¬(off ≤ j ∧ j < off + 0 ∧ pick (j - off) = true) := by omega
    rw [if_neg hnone]
    rfl
  | n + 1, hn => by
    have ih := elem_foldl_setElem v off pick g j (Nat.le_trans (Nat.mul_le_mul_left w (off + n).le_succ) hn)
    rw [List.range_succ, List.foldl_append, List.foldl_cons, List.foldl_nil]
    generalize (List.range n).foldl (fun v i => if pick i then setElem v w (off + i) (g i) else v) v = u at ih ⊢
    by_cases hp : pick n = true
    · rw [if_pos hp, elem_setElem (i := off + n) _ _ _ hn]
      rcases eq_or_ne j (off + n) with rfl | hj
      · rw [if_pos rfl, Nat.add_sub_cancel_left, if_pos ⟨by omega, by omega, hp⟩]
      · have hrange : j < off + (n + 1) ↔ j < off + n := by omega
        simp only [if_neg hj, ih, hrange]
    · have hrange : off ≤ j ∧ j < off + (n + 1) ∧ pick (j - off) = true ↔ off ≤ j ∧ j < off + n ∧ pick (j - off) = true := by
        refine ⟨fun ⟨hlo, hhi, hpick⟩ => ⟨hlo, ?_, hpick⟩, fun ⟨hlo, hhi, hpick⟩ => ⟨hlo, by omega, hpick⟩⟩
        have hne : j ≠ off + n := fun h => hp (by rwa [h, Nat.add_sub_cancel_left] at hpick)
        omega
      rw [if_neg hp, ih, if_congr hrange rfl rfl]

theorem elem_mapElems {w n : Nat} (v : VReg) (pick : Nat → Bool) (g : Nat → Nat) (j : Nat) (hn : w * n ≤ 512) :
    elem (mapElems v w n pick g) w j = if j < n ∧ pick j = true then g j % 2 ^ w else elem v w j := by
  simpa [mapElems] using elem_foldl_setElem v 0 pick g j (n := n) (by rwa [Nat.zero_add])

/-- The elements of a vector of which a run was replaced. -/
theorem elem_putElems {w off n : Nat} (v : VReg) (g : Nat → Nat) (j : Nat) (hn : w * (off + n) ≤ 512) :
    elem ((List.range n).foldl (fun v i => setElem v w (off + i) (g i)) v) w j = if off ≤ j ∧ j < off + n then g (j - off) % 2 ^ w else elem v w j := by
  simpa using elem_foldl_setElem v off (fun _ => true) g j hn

/-- An element of the run. -/
theorem elem_putElems_in {w off n i : Nat} (v : VReg) (g : Nat → Nat) (hn : w * (off + n) ≤ 512) (hi : i < n) :
    elem ((List.range n).foldl (fun v i => setElem v w (off + i) (g i)) v) w (off + i) = g i % 2 ^ w := by
  rw [elem_putElems v g _ hn, if_pos (by omega), Nat.add_sub_cancel_left]

/-- The vector whose first elements were replaced. -/
theorem elem_putFirst {w n i : Nat} (v : VReg) (g : Nat → Nat) (hn : w * n ≤ 512) (hi : i < n) :
    elem ((List.range n).foldl (fun v i => setElem v w i (g i)) v) w i = g i % 2 ^ w := by
  simpa using elem_putElems_in (off := 0) v g (by rwa [Nat.zero_add]) hi

/-! ### Formats (Table 8.9) -/

/-- The elements of a format lie in a vector. -/
theorem width_elemCount {c : Nat} (hc : c < 10) : (fmtD c).width * elemCount (fmtD c) ≤ 512 := by
  interval_cases c <;> decide

theorem elemCount_eq {c : Nat} (hc : c < 10) : elemCount (fmtD c) = 16 * partCount (fmtD c) := by
  interval_cases c <;> rfl

/-- A part of a format lies in a vector. -/
theorem part_in_vector {c part : Nat} (hc : c < 10) (hpart : part < elemCount (fmtD c) / 16) : (fmtD c).width * (16 * part + 16) ≤ 512 := by
  have hcount := elemCount_eq hc
  exact Nat.le_trans (Nat.mul_le_mul_left _ (by unfold partCount at hcount; omega)) (width_elemCount hc)

/-- A vector of which a part of 16 elements was written. -/
def putPart (c part : Nat) (old : VReg) (g : Nat → Nat) : VReg :=
  (List.range 16).foldl (fun v i => setElem v (fmtD c).width (16 * part + i) (g i)) old

section
variable {c part i : Nat} (hc : c < 10) (hpart : part < partCount (fmtD c))
include hc hpart

theorem elem_putPart_in (hi : i < 16) (old : VReg) (g : Nat → Nat) :
    elem (putPart c part old g) (fmtD c).width (16 * part + i) = g i % 2 ^ (fmtD c).width := by
  rw [putPart, elem_putElems_in _ _ (part_in_vector hc hpart) hi]

theorem elem_putPart_out (hi : i / 16 ≠ part) (old : VReg) (g : Nat → Nat) : elem (putPart c part old g) (fmtD c).width i = elem old (fmtD c).width i := by
  rw [putPart, elem_putElems _ _ i (part_in_vector hc hpart), if_neg (by omega)]

end

/-- In a format of 8 bits or more a predicate's bit i governs element i (08, R216). -/
theorem governs_of_wide {m : Fmt} (hm : m.width ≠ 4) (p : Word) (i : Nat) : governs m p i = p.getLsbD i := by
  rw [governs, if_neg hm]

end Sys2Proof.Machine

/-! VOP and VCMP (08, R216, R217, Table 8.9). -/

namespace Sys2Proof.Machine

/-! ### Integer elements: modulo 2^w -/

theorem ofNat_mod_two_pow (w a : Nat) : BitVec.ofNat w (a % 2 ^ w) = BitVec.ofNat w a := by
  refine BitVec.eq_of_toNat_eq ?_
  rw [BitVec.toNat_ofNat, BitVec.toNat_ofNat, Nat.mod_mod]

theorem ofNat_toNat_ofInt (w : Nat) (z : Int) : BitVec.ofNat w (BitVec.ofInt w z).toNat = BitVec.ofInt w z := by
  rw [BitVec.ofNat_toNat, BitVec.setWidth_eq]

/-- The magnitude of a two's-complement value, modulo 2^w. -/
theorem ofInt_natAbs_toInt {w : Nat} (x : BitVec w) : BitVec.ofInt w (x.toInt.natAbs : Int) = if x.toInt < 0 then -x else x := by
  by_cases h : x.toInt < 0
  · rw [if_pos h, Int.ofNat_natAbs_of_nonpos h.le, BitVec.ofInt_neg, BitVec.ofInt_toInt]
  · rw [if_neg h, Int.natAbs_of_nonneg (not_lt.mp h), BitVec.ofInt_toInt]

/-- Each function of VOP on the bits of an integer element. -/
theorem intOp_spec {w op x y : Nat} {r : BitVec w} (hr : r = BitVec.ofNat w ((intOp op w x y).getD 0)) :
    let a := BitVec.ofNat w x
    let b := BitVec.ofNat w y
    (op = 0 → r = a + b) ∧ (op = 1 → r = a - b) ∧ (op = 2 → r = a * b) ∧ (op = 3 → r.toInt = min a.toInt b.toInt) ∧
      (op = 4 → r.toInt = max a.toInt b.toInt) ∧ (op = 5 → r = a &&& b) ∧ (op = 6 → r = a ||| b) ∧ (op = 7 → r = a ^^^ b) ∧
      (op = 8 → r = if a.toInt < 0 then -a else a) ∧ (op = 9 → r = -a) := by
  intro a b
  subst hr
  refine ⟨?add, ?sub, ?mul, ?min, ?max, ?and, ?or, ?xor, ?abs, ?neg⟩ <;> rintro rfl
  case add => exact (ofNat_toNat_ofInt ..).trans (by rw [BitVec.ofInt_add, BitVec.ofInt_toInt, BitVec.ofInt_toInt])
  case sub => exact (ofNat_toNat_ofInt ..).trans (by rw [Int.sub_eq_add_neg, BitVec.ofInt_add, BitVec.ofInt_neg, BitVec.ofInt_toInt, BitVec.ofInt_toInt, BitVec.sub_eq_add_neg])
  case mul => exact (ofNat_toNat_ofInt ..).trans (by rw [BitVec.ofInt_mul, BitVec.ofInt_toInt, BitVec.ofInt_toInt])
  case min =>
    refine (congrArg BitVec.toInt (ofNat_toNat_ofInt ..)).trans ?_
    rcases min_choice a.toInt b.toInt with h | h <;> rw [h, BitVec.ofInt_toInt]
  case max =>
    refine (congrArg BitVec.toInt (ofNat_toNat_ofInt ..)).trans ?_
    rcases max_choice a.toInt b.toInt with h | h <;> rw [h, BitVec.ofInt_toInt]
  case and => exact BitVec.ofNat_and
  case or => exact BitVec.ofNat_or
  case xor => exact BitVec.ofNat_xor
  case abs => exact (ofNat_toNat_ofInt ..).trans (ofInt_natAbs_toInt a)
  case neg => exact (ofNat_toNat_ofInt ..).trans (by rw [BitVec.ofInt_neg, BitVec.ofInt_toInt])

/-! ### Comparisons -/

theorem cmp_values (x y : Num) : x.cmp y = none ∨ x.cmp y = some 0 ∨ x.cmp y = some (-1) ∨ x.cmp y = some 1 := by
  unfold Num.cmp
  split
  case h_1 | h_2 => exact .inl rfl
  case h_6 =>
    dsimp only
    split_ifs <;> simp
  all_goals split_ifs <;> simp

/-- The conditions of VCMP on what a comparison answers. -/
theorem compareOp_spec {op : Nat} {k : Option Int} (hk : k = none ∨ k = some 0 ∨ k = some (-1) ∨ k = some 1) :
    (op = 0 → compareOp op k = (k == some 0)) ∧ (op = 1 → compareOp op k = (k != some 0)) ∧ (op = 2 → compareOp op k = (k == some (-1))) ∧
      (op = 3 → compareOp op k = (k == some (-1) || k == some 0)) ∧ (op = 4 → compareOp op k = (k == some 1)) ∧
      (op = 5 → compareOp op k = (k == some 1 || k == some 0)) := by
  refine ⟨?_, ?_, ?_, ?_, ?_, ?_⟩ <;> rintro rfl <;> rcases hk with rfl | rfl | rfl | rfl <;> decide

/-- The bits of a number put together from powers of two that a condition picks. -/
theorem testBit_sum_two_pow (q : Nat → Bool) (j : Nat) : ∀ n : Nat,
    (List.range n).foldl (fun a i => if q i then a + 2 ^ i else a) 0 < 2 ^ n ∧
      ((List.range n).foldl (fun a i => if q i then a + 2 ^ i else a) 0).testBit j = (decide (j < n) && q j)
  | 0 => by simp
  | n + 1 => by
    obtain ⟨hlt, hbits⟩ := testBit_sum_two_pow q j n
    rw [List.range_succ, List.foldl_append, List.foldl_cons, List.foldl_nil]
    generalize (List.range n).foldl (fun a i => if q i then a + 2 ^ i else a) 0 = a at hlt hbits ⊢
    have hpow : a + 2 ^ n = 2 ^ n ||| a := by
      have hor := Nat.two_pow_add_eq_or_of_lt hlt 1
      rwa [Nat.mul_one, Nat.add_comm] at hor
    have hsucc : 2 ^ (n + 1) = 2 ^ n * 2 := Nat.pow_succ ..
    by_cases hq : q n = true
    · rw [if_pos hq]
      refine ⟨by omega, ?_⟩
      rw [hpow, Nat.testBit_or, Nat.testBit_two_pow, hbits]
      rcases Nat.lt_trichotomy j n with h | rfl | h
      · simp [h, h.ne', h.trans n.lt_succ_self]
      · simp [hq]
      · simp [h.ne, h.not_gt, Nat.not_lt.mpr h]
    · rw [if_neg hq]
      refine ⟨by omega, hbits.trans ?_⟩
      rcases eq_or_ne j n with rfl | h
      · simp [hq]
      · have hrange : j < n ↔ j < n + 1 := by omega
        simp only [hrange]

section
variable {s : State} {t : ThreadRef} {f : Fields} {p : Spray} {th : Thread}

/-- The vector that VOP writes: of a format, a function, a predicate, the vector before and the two sources. -/
def vopVector (c op : Nat) (p : Word) (old x y : VReg) : VReg :=
  mapElems old (fmtD c).width (elemCount (fmtD c)) (governs (fmtD c) p) (fun i => vopElem c op (elem x (fmtD c).width i) (elem y (fmtD c).width i))

/-- What VOP makes of its fields and its thread's registers. -/
def vopResult (f : Fields) (th : Thread) : VReg :=
  vopVector (vFmt f) (vOp f) (pred th (vPred f)) (vreg th f.d.toNat) (vreg th f.a.toNat) (vreg th f.b.toNat)

theorem exec_vop (hd : f.d.toNat < 16) (ha : f.a.toNat < 16) (hb : f.b.toNat < 16) (hfmt : arithFmt (vFmt f) = true) (hop : vOp f ≤ 9)
    (hbitwise : vOp f < 5 ∨ 7 < vOp f ∨ (fmtD (vFmt f)).int = true) (hunary : 8 ≤ vOp f → f.b = 0)
    (r : Ready s t 0x30 f [rV f.d, rV f.a, rV f.b] p th) :
    exec (.vop t f) s = .next (issued s t { th with vregs := th.vregs.set f.d.toNat (vopResult f th), pc := nextPc th }) := by
  refine exec_setsVreg (i := .vop t f) r (Eq.refl (execVop t f s)) ?_ rfl
  have hbits : (!(decide (vOp f ≥ 5) && decide (vOp f ≤ 7)) || (fmtD (vFmt f)).int) = true := by
    rcases hbitwise with h | h | h
    · simp [Nat.not_le.mpr h]
    · simp [Nat.not_le.mpr h]
    · simp [h]
  have hsource : (decide (vOp f < 8) || f.b == 0) = true := by
    by_cases h : vOp f < 8
    · simp [h]
    · simp [hunary (Nat.not_lt.mp h)]
  rw [isV_of_lt hd, isV_of_lt ha, isV_of_lt hb, hfmt, decide_eq_true hop, hbits, hsource]
  rfl

theorem intFmt {c : Nat} (hc : c = 6 ∨ c = 9) : arithFmt c = true ∧ (fmtD c).int = true := by
  rcases hc with rfl | rfl <;> decide

theorem floatFmt {c : Nat} (hc : c = 7 ∨ c = 8) : arithFmt c = true ∧ (fmtD c).int = false := by
  rcases hc with rfl | rfl <;> decide

/-- The predicate that VCMP writes, as a number: of a format, a condition, the governing predicate and the two sources. -/
def vcmpBits (c cond : Nat) (p : Word) (x y : VReg) : Nat :=
  (List.range (min 64 (elemCount (fmtD c)))).foldl (fun n i =>
    if governs (fmtD c) p i && compareOp cond ((decodeElem (fmtD c) (elem x (fmtD c).width i)).cmp (decodeElem (fmtD c) (elem y (fmtD c).width i))) then n + 2 ^ i else n) 0

/-- What VCMP makes of its fields and its thread's registers. -/
def vcmpResult (f : Fields) (th : Thread) : Word :=
  BitVec.ofNat 64 (vcmpBits (vFmt f) (vOp f) (pred th (vPred f)) (vreg th f.a.toNat) (vreg th f.b.toNat))

theorem exec_vcmp (hd : f.d.toNat < 8) (ha : f.a.toNat < 16) (hb : f.b.toNat < 16) (hfmt : arithFmt (vFmt f) = true) (hop : vOp f ≤ 5)
    (r : Ready s t 0x31 f [rV f.a, rV f.b] p th) :
    exec (.vcmp t f) s = .next (issued s t { th with
      preds := if f.d.toNat = 0 then th.preds else th.preds.set f.d.toNat (vcmpResult f th), pc := nextPc th }) := by
  refine exec_setsPred (i := .vcmp t f) r (Eq.refl (execVcmp t f s)) ?_ rfl
  rw [isP_of_lt hd, isV_of_lt ha, isV_of_lt hb, hfmt, decide_eq_true hop]
  rfl

end

section
variable {c op i : Nat} {p : Word} {old x y : VReg} (hfmt : arithFmt c = true)
include hfmt

theorem arithFmt_cases : c = 6 ∨ c = 7 ∨ c = 8 ∨ c = 9 := by
  simpa [arithFmt] using hfmt

theorem arithFmt_lt : c < 10 := by
  have hcases := arithFmt_cases hfmt
  omega

theorem arithFmt_width : (fmtD c).width ≠ 4 := by
  rcases arithFmt_cases hfmt with rfl | rfl | rfl | rfl <;> decide

theorem arithFmt_elemCount : elemCount (fmtD c) ≤ 64 := by
  rcases arithFmt_cases hfmt with rfl | rfl | rfl | rfl <;> decide

/-- Each element that the predicate governs takes the operation's result, every other keeps its value (R216). -/
theorem elem_vopVector (hi : i < elemCount (fmtD c)) : elem (vopVector c op p old x y) (fmtD c).width i =
    if p.getLsbD i = true then vopElem c op (elem x (fmtD c).width i) (elem y (fmtD c).width i) % 2 ^ (fmtD c).width else elem old (fmtD c).width i := by
  rw [vopVector, elem_mapElems _ _ _ _ (width_elemCount (arithFmt_lt hfmt)), governs_of_wide (arithFmt_width hfmt)]
  simp only [hi, true_and]

theorem elem_vopVector_ungoverned (hi : i < elemCount (fmtD c)) (hp : p.getLsbD i = false) :
    elem (vopVector c op p old x y) (fmtD c).width i = elem old (fmtD c).width i := by
  rw [elem_vopVector hfmt hi, if_neg (Bool.eq_false_iff.mp hp)]

theorem elem_vopVector_int (hint : (fmtD c).int = true) (hi : i < elemCount (fmtD c)) (hp : p.getLsbD i = true) :
    BitVec.ofNat (fmtD c).width (elem (vopVector c op p old x y) (fmtD c).width i) =
      BitVec.ofNat (fmtD c).width ((intOp op (fmtD c).width (elem x (fmtD c).width i) (elem y (fmtD c).width i)).getD 0) := by
  rw [elem_vopVector hfmt hi, if_pos hp, ofNat_mod_two_pow, vopElem, if_pos hint]

theorem elem_vopVector_float {k : Nat} (hint : (fmtD c).int = false) (hi : i < elemCount (fmtD c)) (hp : p.getLsbD i = true) (hop : op = k) :
    elem (vopVector c op p old x y) (fmtD c).width i =
      (floatOp (fmtD c) k (elem x (fmtD c).width i) (elem y (fmtD c).width i)).getD 0 % 2 ^ (fmtD c).width := by
  rw [elem_vopVector hfmt hi, if_pos hp, vopElem, if_neg (Bool.eq_false_iff.mp hint), hop]

/-- A bit of VCMP's predicate: the comparison of an element that the predicate governs, else clear. -/
theorem getLsbD_vcmpBits (hi : i < 64) : (BitVec.ofNat 64 (vcmpBits c op p x y)).getLsbD i =
    (decide (i < elemCount (fmtD c)) && (p.getLsbD i &&
      compareOp op ((decodeElem (fmtD c) (elem x (fmtD c).width i)).cmp (decodeElem (fmtD c) (elem y (fmtD c).width i))))) := by
  obtain ⟨-, hbits⟩ := testBit_sum_two_pow (fun i => governs (fmtD c) p i &&
    compareOp op ((decodeElem (fmtD c) (elem x (fmtD c).width i)).cmp (decodeElem (fmtD c) (elem y (fmtD c).width i)))) i (min 64 (elemCount (fmtD c)))
  rw [BitVec.getLsbD_ofNat, decide_eq_true hi, Bool.true_and, vcmpBits, hbits, governs_of_wide (arithFmt_width hfmt), Nat.min_eq_right (arithFmt_elemCount hfmt)]

theorem vcmpBits_cleared (hi : i < 64) (hout : elemCount (fmtD c) ≤ i ∨ p.getLsbD i = false) :
    (BitVec.ofNat 64 (vcmpBits c op p x y)).getLsbD i = false := by
  rw [getLsbD_vcmpBits hfmt hi]
  rcases hout with h | h
  · rw [decide_eq_false (Nat.not_lt.mpr h), Bool.false_and]
  · rw [h, Bool.false_and, Bool.and_false]

theorem vcmpBits_compared (hi : i < 64) (hin : i < elemCount (fmtD c)) (hp : p.getLsbD i = true) : (BitVec.ofNat 64 (vcmpBits c op p x y)).getLsbD i =
    compareOp op ((decodeElem (fmtD c) (elem x (fmtD c).width i)).cmp (decodeElem (fmtD c) (elem y (fmtD c).width i))) := by
  rw [getLsbD_vcmpBits hfmt hi, decide_eq_true hin, hp, Bool.true_and, Bool.true_and]

end

end Sys2Proof.Machine

section
open Sys2Proof Sys2Proof.Machine

/-- Settles O35: the vector of VOP by its elements, each by the function on its format, and the predicate of VCMP by its bits. -/
theorem vectorArithmetic : Obligations.VectorArithmetic := by
  unfold Obligations.VectorArithmetic
  intro s t f p th c op m w n x y old pn pr num ha hb
  refine ⟨fun hd r hunary => ⟨fun hc hop => ?int, fun hc hop => ?float⟩, fun hd hc hop r => ?compare⟩
  case int =>
    obtain ⟨hfmt, hint⟩ := intFmt hc
    exact ⟨_, exec_vop hd ha hb hfmt hop (.inr (.inr hint)) hunary r, fun i hi =>
      ⟨elem_vopVector_ungoverned hfmt hi, fun hp => intOp_spec (elem_vopVector_int hfmt hint hi hp)⟩⟩
  case float =>
    obtain ⟨hfmt, hint⟩ := floatFmt hc
    have hscope : op ≤ 9 ∧ (op < 5 ∨ 7 < op) := by
      simp only [List.mem_cons, List.not_mem_nil, or_false] at hop
      omega
    obtain ⟨hle, hnotBitwise⟩ := hscope
    refine ⟨_, exec_vop hd ha hb hfmt hle (hnotBitwise.imp_right .inl) hunary r, fun i hi => ⟨elem_vopVector_ungoverned hfmt hi, fun hp => ?_⟩⟩
    have hfn := fun k => elem_vopVector_float (op := op) (old := old) (x := x) (y := y) (k := k) hfmt hint hi hp
    exact ⟨hfn 0, hfn 1, hfn 2, hfn 3, hfn 4, hfn 9⟩
  case compare =>
    have hfmt : arithFmt c = true := List.contains_iff_mem.mpr hc
    refine ⟨_, exec_vcmp hd ha hb hfmt hop r, fun i hi => ⟨vcmpBits_cleared hfmt hi, fun hin hp => ?_⟩⟩
    rw [show (vcmpResult f th).getLsbD i = _ from vcmpBits_compared hfmt hi hin hp]
    exact compareOp_spec (cmp_values _ _)

end

/-! VSEL, VBCAST, VMOVS and VSFU (08, R216 to R218), and the extension of narrow values (08, R210). -/

namespace Sys2Proof.Machine

/-! ### Extension -/

theorem toNat_extend_unsigned {size : Nat} (h : 8 * size ≤ 64) (v : Nat) : (extend size false v).toNat = v % 2 ^ (8 * size) := by
  have hfits : v % 2 ^ (8 * size) < 2 ^ 64 := Nat.lt_of_lt_of_le (Nat.mod_lt _ (Nat.two_pow_pos _)) (Nat.pow_le_pow_right Nat.two_pos h)
  rw [extend, Bool.false_and, if_neg Bool.false_ne_true, BitVec.toNat_ofNat, Nat.mod_eq_of_lt hfits]

/-- The bytes read, as a two's-complement value. -/
theorem toInt_extend_signed {size : Nat} (h : 8 * size ≤ 64) (v : Nat) : (extend size true v).toInt = (BitVec.ofNat (8 * size) v).toInt := by
  have hsign : bit (v % 2 ^ (8 * size)) (8 * size - 1) = (BitVec.ofNat (8 * size) v).msb := by
    rw [BitVec.msb_eq_getLsbD_last, BitVec.getLsbD, BitVec.toNat_ofNat, bit]
  have hext : extend size true v = BitVec.ofInt 64 (BitVec.ofNat (8 * size) v).toInt := by
    rw [extend, Bool.true_and, hsign, BitVec.toInt_eq_msb_cond, BitVec.toNat_ofNat]
    split
    · rw [Nat.cast_pow, Nat.cast_ofNat]
    · rw [BitVec.ofInt_natCast]
  rw [hext, ← BitVec.signExtend, BitVec.toInt_signExtend_of_le h]

/-! ### Formats of 8 bits or more (R216) -/

theorem wideFmt_iff {c : Nat} : wideFmt c = true ↔ c = 0 ∨ c = 1 ∨ c = 6 ∨ c = 7 ∨ c = 8 ∨ c = 9 := by
  simp [wideFmt]

theorem wideFmt_lt {c : Nat} (hc : wideFmt c = true) : c < 10 := by
  rw [wideFmt_iff] at hc
  omega

/-- The 8-bit and wider formats of Table 8.9 other than INT8 and INT32. -/
theorem unsignedFmt {c : Nat} (hc : c ∈ [0, 1, 7, 8]) : (fmtD c).int = false := by
  simp only [List.mem_cons, List.not_mem_nil, or_false] at hc
  rcases hc with rfl | rfl | rfl | rfl <;> rfl

theorem wideFmt_width {c : Nat} (hc : wideFmt c = true) : 8 ≤ (fmtD c).width ∧ (fmtD c).width ≤ 64 ∧ 8 * ((fmtD c).width / 8) = (fmtD c).width := by
  rw [wideFmt_iff] at hc
  rcases hc with rfl | rfl | rfl | rfl | rfl | rfl <;> decide

section
variable {s : State} {t : ThreadRef} {f : Fields} {p : Spray} {th : Thread}

/-! ### VSEL, VBCAST and VMOVS -/

/-- The vector that VSEL writes: of a format, a predicate, the vector before and the two sources. -/
def vselVector (c : Nat) (p : Word) (old x y : VReg) : VReg :=
  mapElems old (fmtD c).width (elemCount (fmtD c)) (fun _ => true) (fun i => elem (if governs (fmtD c) p i then x else y) (fmtD c).width i)

theorem elem_vselVector {c i : Nat} (hfmt : wideFmt c = true) (hi : i < elemCount (fmtD c)) (p : Word) (old x y : VReg) :
    elem (vselVector c p old x y) (fmtD c).width i = elem (if p.getLsbD i then x else y) (fmtD c).width i := by
  obtain ⟨hwide, -, -⟩ := wideFmt_width hfmt
  rw [vselVector, elem_mapElems _ _ _ _ (width_elemCount (wideFmt_lt hfmt)), if_pos ⟨hi, rfl⟩, elem_mod, governs_of_wide (by omega)]

/-- The vector that VBCAST writes: of a format, the vector before and the scalar. -/
def vbcastVector (c : Nat) (old : VReg) (b : Nat) : VReg := mapElems old (fmtD c).width (elemCount (fmtD c)) (fun _ => true) (fun _ => b)

theorem elem_vbcastVector {c i : Nat} (hfmt : c < 10) (hi : i < elemCount (fmtD c)) (old : VReg) (b : Nat) :
    elem (vbcastVector c old b) (fmtD c).width i = b % 2 ^ (fmtD c).width := by
  rw [vbcastVector, elem_mapElems _ _ _ _ (width_elemCount hfmt), if_pos ⟨hi, rfl⟩]

/-- What VSEL makes of its fields and its thread's registers. -/
def vselResult (f : Fields) (th : Thread) : VReg :=
  vselVector (vFmt f) (pred th (vPred f)) (vreg th f.d.toNat) (vreg th f.a.toNat) (vreg th f.b.toNat)

theorem exec_vsel (hd : f.d.toNat < 16) (ha : f.a.toNat < 16) (hb : f.b.toNat < 16) (hfmt : wideFmt (vFmt f) = true) (hop : vOp f = 0)
    (r : Ready s t 0x32 f [rV f.d, rV f.a, rV f.b] p th) :
    exec (.vsel t f) s = .next (issued s t { th with vregs := th.vregs.set f.d.toNat (vselResult f th), pc := nextPc th }) := by
  refine exec_setsVreg (i := .vsel t f) r (Eq.refl (execVsel t f s)) ?_ rfl
  rw [isV_of_lt hd, isV_of_lt ha, isV_of_lt hb, hfmt, hop]
  rfl

/-- What VBCAST makes of its fields and its thread's registers. -/
def vbcastResult (f : Fields) (th : Thread) : VReg := vbcastVector (vFmt f) (vreg th f.d.toNat) (sreg th f.a.toNat).toNat

theorem exec_vbcast (hd : f.d.toNat < 16) (hb : f.b = 0) (hfmt : vFmt f < 10) (hlow : f.fn.toNat % 128 = 0)
    (r : Ready s t 0x33 f [rV f.d, rS f.a] p th) :
    exec (.vbcast t f) s = .next (issued s t { th with vregs := th.vregs.set f.d.toNat (vbcastResult f th), pc := nextPc th }) := by
  refine exec_setsVreg (i := .vbcast t f) r (Eq.refl (execVbcast t f s)) ?_ rfl
  rw [isV_of_lt hd, hb, decide_eq_true hfmt, hlow]
  rfl

theorem execVmovs_insert (h : f.fn.getLsbD 6 = true) : execVmovs t f s =
    regOp s t 0x34 f (wideFmt (vFmt f) && f.b == 0 && decide (f.fn.toNat % 64 < elemCount (fmtD (vFmt f))) && isV f.d) [rV f.d, rS f.a] (fun _ th =>
      setVreg th f.d.toNat (setElem (vreg th f.d.toNat) (fmtD (vFmt f)).width (f.fn.toNat % 64) (sreg th f.a.toNat).toNat)) := by
  simp only [execVmovs, h, if_true]

theorem execVmovs_extract (h : f.fn.getLsbD 6 = false) : execVmovs t f s =
    regOp s t 0x34 f (wideFmt (vFmt f) && f.b == 0 && decide (f.fn.toNat % 64 < elemCount (fmtD (vFmt f))) && isV f.a) [rS f.d, rV f.a] (fun _ th =>
      setSreg th f.d.toNat (extend ((fmtD (vFmt f)).width / 8) (fmtD (vFmt f)).int (elem (vreg th f.a.toNat) (fmtD (vFmt f)).width (f.fn.toNat % 64)))) := by
  simp only [execVmovs, h, Bool.false_eq_true, if_false]

/-- An element moved to a scalar, zero-extended. -/
theorem toNat_extend_elem {c : Nat} (hfmt : wideFmt c = true) (hint : (fmtD c).int = false) (v : VReg) (i : Nat) :
    (extend ((fmtD c).width / 8) (fmtD c).int (elem v (fmtD c).width i)).toNat = elem v (fmtD c).width i := by
  obtain ⟨-, hle, hbytes⟩ := wideFmt_width hfmt
  rw [hint, toNat_extend_unsigned (by omega), hbytes, elem_mod]

/-- An element moved to a scalar, sign-extended. -/
theorem toInt_extend_elem {c : Nat} (hfmt : wideFmt c = true) (hint : (fmtD c).int = true) (v : VReg) (i : Nat) :
    (extend ((fmtD c).width / 8) (fmtD c).int (elem v (fmtD c).width i)).toInt = (BitVec.ofNat (fmtD c).width (elem v (fmtD c).width i)).toInt := by
  obtain ⟨-, hle, hbytes⟩ := wideFmt_width hfmt
  rw [hint, toInt_extend_signed (by omega), hbytes]

/-! ### VSFU -/

/-- What VSFU makes of its field, its thread's registers and the free values. -/
def vsfuResult (s : State) (f : Fields) (th : Thread) : VReg :=
  (List.range 16).foldl (fun v i => setElem v 32 i (sfu f.fn.toNat (BitVec.ofNat 32 (elem (vreg th f.a.toNat) 32 i)) (freeNo s + i))) (vreg th f.d.toNat)

theorem execVsfu_eq : execVsfu t f s = issue s t 0x35 f (isV f.d && isV f.a && f.b == 0 && decide (f.fn.toNat < 5)) [rV f.d, rV f.a]
    (fun _ th => .go (retire (useFreeN s 16) t (setVreg th f.d.toNat (vsfuResult s f th)))) := rfl

theorem exec_vsfu (hd : f.d.toNat < 16) (ha : f.a.toNat < 16) (hb : f.b = 0) (hop : f.fn.toNat < 5) (r : Ready s t 0x35 f [rV f.d, rV f.a] p th) :
    exec (.vsfu t f) s = .next (issued (useFreeN s 16) t { th with vregs := th.vregs.set f.d.toNat (vsfuResult s f th), pc := nextPc th }) := by
  have hlegal : (isV f.d && isV f.a && f.b == 0 && decide (f.fn.toNat < 5)) = true := by
    rw [isV_of_lt hd, isV_of_lt ha, hb, decide_eq_true hop]
    rfl
  exact exec_of_go (i := .vsfu t f) r execVsfu_eq hlegal rfl

end

/-! ### Special results (R218; log entry 17) -/

/-- A result that is no finite number but zero is exact. -/
theorem sfu_of_value {op no : Nat} {x : BitVec 32} {v : Num} (h : sfuValue op (decodeElem fp32 x.toNat) = some v) (hv : ∀ neg m e, v ≠ .fin neg (m + 1) e) :
    sfu op x no = encodeFloat fp32 v false false := by
  simp only [sfu, h]

theorem sfuValue_nan (op : Nat) : sfuValue op .nan = some .nan := by
  rw [sfuValue]

/-- The fields of a code of FP32. -/
theorem decodeElem_fp32 (n : Nat) : decodeElem fp32 n =
    if n % 2 ^ 31 = 0x7F800000 then .inf (n.testBit 31)
    else if decide (0x7F800000 < n % 2 ^ 31) then .nan
    else if n % 2 ^ 31 / 2 ^ 23 = 0 then .fin (n.testBit 31) (n % 2 ^ 31 % 2 ^ 23) (-149)
    else .fin (n.testBit 31) (n % 2 ^ 31 % 2 ^ 23 + 2 ^ 23) ((n % 2 ^ 31 / 2 ^ 23 : Nat) - 127 - 23) := by
  simp only [decodeElem, fp32, Bool.false_eq_true, if_false, Option.some.injEq, Nat.shiftRight_eq_div_pow]
  rfl

theorem decodeElem_fp32_nan {n : Nat} (h : 0x7F800000 < n % 2 ^ 31) : decodeElem fp32 n = .nan := by
  rw [decodeElem_fp32, if_neg h.ne', if_pos (decide_eq_true h)]

/-- A code below −0 and not below −∞. -/
theorem decodeElem_fp32_negative {n : Nat} (hlo : 0x80000000 < n) (hhi : n ≤ 0xFF800000) :
    decodeElem fp32 n = .inf true ∨ ∃ m e, decodeElem fp32 n = .fin true (m + 1) e := by
  have hsign : n.testBit 31 = true := by
    rw [Nat.testBit_eq_decide_div_mod_eq, decide_eq_true_eq]
    omega
  rw [decodeElem_fp32, hsign]
  by_cases hinf : n % 2 ^ 31 = 0x7F800000
  · exact .inl (if_pos hinf)
  · right
    have hfinite : ¬ 0x7F800000 < n % 2 ^ 31 := by omega
    rw [if_neg hinf, if_neg (mt of_decide_eq_true hfinite)]
    by_cases hsub : n % 2 ^ 31 / 2 ^ 23 = 0
    · rw [if_pos hsub]
      exact ⟨n % 2 ^ 31 % 2 ^ 23 - 1, _, congrArg (Num.fin true · _) (by omega)⟩
    · rw [if_neg hsub]
      exact ⟨n % 2 ^ 31 % 2 ^ 23 + (2 ^ 23 - 1), _, rfl⟩

theorem sfuValue_negative {op : Nat} (hop : op ∈ [1, 3, 4]) {x : Num} (hx : x = .inf true ∨ ∃ m e, x = .fin true (m + 1) e) : sfuValue op x = some .nan := by
  simp only [List.mem_cons, List.not_mem_nil, or_false] at hop
  rcases hop with rfl | rfl | rfl <;> obtain rfl | ⟨m, e, rfl⟩ := hx <;> rfl

end Sys2Proof.Machine

section
open Sys2Proof Sys2Proof.Machine

/-- Settles O36: each move by the elements it writes, and the special results by the value that each function has there. -/
theorem vectorMovesAndSpecialFunctions : Obligations.VectorMovesAndSpecialFunctions := by
  unfold Obligations.VectorMovesAndSpecialFunctions
  refine ⟨?moves, ?vsfu, ?special⟩
  case moves =>
    intro s t f p th c m w n x old pn pr i toV
    refine ⟨fun hd ha hb hc hop r => ?vsel, fun hd hb hc hlow r => ?vbcast, fun hb hc hi => ⟨fun hdir hd r => ?insert, fun hdir ha r => ?extract⟩⟩
    case vsel =>
      have hfmt : wideFmt (vFmt f) = true := List.contains_iff_mem.mpr hc
      exact ⟨_, exec_vsel hd ha hb hfmt hop r, fun j hj => elem_vselVector hfmt hj ..⟩
    case vbcast => exact ⟨_, exec_vbcast hd hb hc hlow r, fun j hj => elem_vbcastVector hc hj ..⟩
    case insert =>
      have hfmt : wideFmt (vFmt f) = true := List.contains_iff_mem.mpr hc
      refine ⟨_, exec_setsVreg (i := .vmovs t f) r (execVmovs_insert hdir) ?_ rfl, fun j hj => ?_⟩
      · rw [hfmt, hb, isV_of_lt hd, decide_eq_true (p := f.fn.toNat % 64 < elemCount (fmtD (vFmt f))) hi]
        rfl
      · exact elem_setElem _ _ _ (Nat.le_trans (Nat.mul_le_mul_left _ hi) (width_elemCount (wideFmt_lt hfmt)))
    case extract =>
      have hfmt : wideFmt (vFmt f) = true := List.contains_iff_mem.mpr hc
      refine ⟨_, exec_setsSreg (i := .vmovs t f) r (execVmovs_extract hdir) ?_ rfl, fun hfloat => ?_, fun hint => ?_⟩
      · rw [hfmt, hb, isV_of_lt ha, decide_eq_true (p := f.fn.toNat % 64 < elemCount (fmtD (vFmt f))) hi]
        rfl
      · exact toNat_extend_elem hfmt (unsignedFmt hfloat) x i
      · exact toInt_extend_elem hfmt (intFmt hint).2 x i
  case vsfu =>
    intro s t f p th hd ha hb hop r
    exact ⟨_, exec_vsfu hd ha hb hop r, fun i hi => elem_putFirst _ _ (by decide) hi⟩
  case special =>
    intro no
    refine ⟨fun op hop x hx => ?nan, ?rcpZero, ?rcpNegZero, ?rcpInf, ?rcpNegInf, ?sqrtZero, ?sqrtNegZero, ?log2Zero, ?exp2Inf, ?exp2NegInf,
      fun op hop x hlo hhi => ?negative⟩
    case nan =>
      have hvalue : sfuValue op (decodeElem fp32 x.toNat) = some .nan := by rw [decodeElem_fp32_nan hx, sfuValue_nan]
      exact sfu_of_value hvalue (by simp)
    case negative =>
      exact sfu_of_value (sfuValue_negative hop (decodeElem_fp32_negative hlo hhi)) (by simp)
    case rcpZero => exact sfu_of_value (v := .inf false) rfl (by simp)
    case rcpNegZero => exact sfu_of_value (v := .inf true) rfl (by simp)
    case rcpInf => exact sfu_of_value (v := .fin false 0 0) rfl (by simp)
    case rcpNegInf => exact sfu_of_value (v := .fin true 0 0) rfl (by simp)
    case sqrtZero => exact sfu_of_value (v := .fin false 0 0) rfl (by simp)
    case sqrtNegZero => exact sfu_of_value (v := .fin true 0 0) rfl (by simp)
    case log2Zero => exact sfu_of_value (v := .inf true) rfl (by simp)
    case exp2Inf => exact sfu_of_value (v := .inf false) rfl (by simp)
    case exp2NegInf => exact sfu_of_value (v := .fin false 0 0) rfl (by simp)

end

/-! VCVT, VMXQ and VMXD (08, R220 to R222). -/

namespace Sys2Proof.Machine

/-! ### Scale bytes (R221, R222) -/

theorem getLsbD_setByte (x : Word) (j b k : Nat) :
    (setByte x j b).getLsbD k = if k < 64 ∧ 8 * j ≤ k ∧ k < 8 * j + 8 then b.testBit (k - 8 * j) else x.getLsbD k :=
  getLsbD_replaceField x 8 (8 * j) b k

/-- A byte of a scalar after one was replaced. -/
theorem byte_setByte {j : Nat} (x : Word) (b k : Nat) (hj : j < 8) :
    (setByte x j b).toNat / 2 ^ (8 * k) % 256 = if k = j then b % 256 else x.toNat / 2 ^ (8 * k) % 256 := by
  have hbyte : 256 = 2 ^ 8 := rfl
  rw [hbyte]
  refine Nat.eq_of_testBit_eq fun i => ?_
  rw [testBit_field, getLsbD_setByte]
  by_cases hi : i < 8
  · rcases eq_or_ne k j with rfl | hk
    · rw [if_pos rfl, if_pos ⟨by omega, by omega, by omega⟩, Nat.add_sub_cancel_left, Nat.testBit_mod_two_pow]
    · rw [if_neg hk, if_neg fun h => not_in_element hk hi h.2, testBit_field]
  · rw [decide_eq_false hi, Bool.false_and]
    split
    · rw [Nat.testBit_mod_two_pow, decide_eq_false hi, Bool.false_and]
    · rw [testBit_field, decide_eq_false hi, Bool.false_and]

theorem bits_byte (n j : Nat) : bits n (8 * j + 7) (8 * j) = n / 2 ^ (8 * j) % 256 := by
  have hwidth : 8 * j + 7 + 1 - 8 * j = 8 := by omega
  rw [bits, Nat.shiftRight_eq_div_pow, hwidth]
  rfl

/-- A NaN scale gives NaN (R222). -/
theorem mxExpand_nanScale (m : Fmt) (b : Nat) {scale : Nat} (h : scale = 255) : mxExpand m b scale = 0x7FC00000 := by
  subst h
  rfl

/-- The MX codes (Table 8.11): the blocks of each lie in a vector. -/
theorem mxFormat_fits {c code : Nat} {emax : Int} (h : mxFormat c = some (code, emax)) : c < 5 ∧ (fmtD code).width * (32 * mxBlocks c) ≤ 512 := by
  unfold mxFormat at h
  split at h <;> cases h <;> decide

section
variable {s : State} {t : ThreadRef} {f : Fields} {p : Spray} {th : Thread}

/-! ### VCVT -/

/-- What VCVT makes of its fields and its thread's registers. -/
def vcvtResult (f : Fields) (th : Thread) : VReg :=
  putPart (f.fn.toNat / 8 % 16) (f.fn.toNat % 8) (vreg th f.d.toNat) (fun i => encodeElem (fmtD (f.fn.toNat / 8 % 16))
    (decodeElem (fmtD (f.fn.toNat / 128)) (elem (vreg th f.a.toNat) (fmtD (f.fn.toNat / 128)).width (16 * bPart f + i))) (bRtz f) (bSat f))

theorem execVcvt_eq : execVcvt t f s = regOp s t 0x36 f (isV f.d && isV f.a && decide (f.fn.toNat / 128 < 10) && decide (f.fn.toNat / 8 % 16 < 10) &&
      decide (bPart f < partCount (fmtD (f.fn.toNat / 128))) && decide (f.fn.toNat % 8 < partCount (fmtD (f.fn.toNat / 8 % 16)))) [rV f.d, rV f.a]
    (fun _ th => setVreg th f.d.toNat (vcvtResult f th)) := rfl

theorem exec_vcvt (hd : f.d.toNat < 16) (ha : f.a.toNat < 16) (hsrc : f.fn.toNat / 128 < 10) (hdst : f.fn.toNat / 8 % 16 < 10)
    (hfrom : bPart f < partCount (fmtD (f.fn.toNat / 128))) (hpart : f.fn.toNat % 8 < partCount (fmtD (f.fn.toNat / 8 % 16)))
    (r : Ready s t 0x36 f [rV f.d, rV f.a] p th) :
    exec (.vcvt t f) s = .next (issued s t { th with vregs := th.vregs.set f.d.toNat (vcvtResult f th), pc := nextPc th }) := by
  refine exec_setsVreg (i := .vcvt t f) r execVcvt_eq ?_ rfl
  rw [isV_of_lt hd, isV_of_lt ha, decide_eq_true hsrc, decide_eq_true hdst, decide_eq_true hfrom, decide_eq_true hpart]
  rfl

/-! ### VMXQ and VMXD -/

/-- What VMXQ makes of its 32 values. -/
def vmxqBlock (m : Fmt) (emax : Int) (f : Fields) (th : Thread) : List Nat × Nat :=
  mxQuantize m emax ((List.range 16).map (fun i => decodeElem fp32 (elem (vreg th f.a.toNat) 32 i)) ++
    (List.range 16).map (fun i => decodeElem fp32 (elem (vreg th f.b.toNat) 32 i)))

/-- The vector that VMXQ writes. -/
def vmxqVector (m : Fmt) (emax : Int) (f : Fields) (th : Thread) : VReg :=
  (List.range 32).foldl (fun v i => setElem v m.width (32 * mxBlock f + i) ((vmxqBlock m emax f th).1.getD i 0)) (vreg th f.d.toNat)

/-- The vector that VMXD writes. -/
def vmxdVector (m : Fmt) (f : Fields) (th : Thread) : VReg :=
  (List.range 16).foldl (fun v i => setElem v 32 i (mxExpand m (elem (vreg th f.a.toNat) m.width (32 * mxBlock f + 16 * b2n (f.fn.getLsbD 3) + i))
    (bits (sreg th (mxScaleReg f)).toNat (8 * mxBlock f + 7) (8 * mxBlock f)))) (vreg th f.d.toNat)

section
variable {code : Nat} {emax : Int} (hcode : mxFormat (mxCode f) = some (code, emax))
include hcode

theorem execVmxq_eq : execVmxq t f s = regOp s t 0x37 f
    (isV f.d && isV f.a && isV f.b && decide (mxCode f < 5) && decide (mxBlock f < mxBlocks (mxCode f)) && !f.fn.getLsbD 3) [rV f.d, rV f.a, rV f.b, mxScaleReg f]
    (fun _ th => setSreg (setVreg th f.d.toNat (vmxqVector (fmtD code) emax f th)) (mxScaleReg f)
      (setByte (sreg th (mxScaleReg f)) (mxBlock f) (vmxqBlock (fmtD code) emax f th).2)) := by
  simp only [execVmxq, hcode]
  rfl

theorem execVmxd_eq : execVmxd t f s = regOp s t 0x38 f
    (isV f.d && isV f.a && f.b == 0 && decide (mxCode f < 5) && decide (mxBlock f < mxBlocks (mxCode f))) [rV f.d, rV f.a, mxScaleReg f]
    (fun _ th => setVreg th f.d.toNat (vmxdVector (fmtD code) f th)) := by
  simp only [execVmxd, hcode]
  rfl

theorem exec_vmxq (hd : f.d.toNat < 16) (ha : f.a.toNat < 16) (hb : f.b.toNat < 16) (hblock : mxBlock f < mxBlocks (mxCode f)) (hbit : f.fn.getLsbD 3 = false)
    (r : Ready s t 0x37 f [rV f.d, rV f.a, rV f.b, mxScaleReg f] p th) :
    exec (.vmxq t f) s = .next (issued s t { th with
      vregs := th.vregs.set f.d.toNat (vmxqVector (fmtD code) emax f th),
      sregs := th.sregs.set (mxScaleReg f) (setByte (sreg th (mxScaleReg f)) (mxBlock f) (vmxqBlock (fmtD code) emax f th).2), pc := nextPc th }) := by
  obtain ⟨hlt, -⟩ := mxFormat_fits hcode
  refine exec_of_regOp (i := .vmxq t f) r (execVmxq_eq hcode) ?_
  rw [isV_of_lt hd, isV_of_lt ha, isV_of_lt hb, decide_eq_true hlt, decide_eq_true hblock, hbit]
  rfl

theorem exec_vmxd (hd : f.d.toNat < 16) (ha : f.a.toNat < 16) (hb : f.b = 0) (hblock : mxBlock f < mxBlocks (mxCode f))
    (r : Ready s t 0x38 f [rV f.d, rV f.a, mxScaleReg f] p th) :
    exec (.vmxd t f) s = .next (issued s t { th with vregs := th.vregs.set f.d.toNat (vmxdVector (fmtD code) f th), pc := nextPc th }) := by
  obtain ⟨hlt, -⟩ := mxFormat_fits hcode
  refine exec_setsVreg (i := .vmxd t f) r (execVmxd_eq hcode) ?_ rfl
  rw [isV_of_lt hd, isV_of_lt ha, hb, decide_eq_true hlt, decide_eq_true hblock]
  rfl

theorem elem_vmxqVector {i : Nat} (hblock : mxBlock f < mxBlocks (mxCode f)) (hi : i < 32) :
    elem (vmxqVector (fmtD code) emax f th) (fmtD code).width (32 * mxBlock f + i) = (vmxqBlock (fmtD code) emax f th).1.getD i 0 % 2 ^ (fmtD code).width := by
  obtain ⟨-, hfits⟩ := mxFormat_fits hcode
  exact elem_putElems_in _ _ (Nat.le_trans (Nat.mul_le_mul_left _ (by omega)) hfits) hi

end

theorem elem_vmxdVector {m : Fmt} {i : Nat} (hi : i < 16) :
    elem (vmxdVector m f th) 32 i = mxExpand m (elem (vreg th f.a.toNat) m.width (32 * mxBlock f + (if f.fn.getLsbD 3 then 16 else 0) + i))
      ((sreg th (mxScaleReg f)).toNat / 2 ^ (8 * mxBlock f) % 256) % 2 ^ 32 := by
  have hhalf : 16 * b2n (f.fn.getLsbD 3) = if f.fn.getLsbD 3 then 16 else 0 := by cases f.fn.getLsbD 3 <;> rfl
  rw [vmxdVector, elem_putFirst _ _ (by decide) hi, hhalf, bits_byte]

end

end Sys2Proof.Machine

section
open Sys2Proof Sys2Proof.Machine

/-- Settles O37: the part that VCVT writes, and the block and the scale byte of VMXQ and VMXD. -/
theorem conversionsAndMxBlocks : Obligations.ConversionsAndMxBlocks := by
  unfold Obligations.ConversionsAndMxBlocks
  intro s t f p th hd ha x old num
  refine ⟨fun hsrc hdst r hfrom hpart => ?convert, fun code emax hcode hblock => ⟨fun hb hbit r => ?quantize, fun hb r => ?expand⟩⟩
  case convert =>
    exact ⟨_, exec_vcvt hd ha hsrc hdst hfrom hpart r, fun i hi => elem_putPart_in hdst hpart hi .., fun i _ hi => elem_putPart_out hdst hpart hi ..⟩
  case quantize =>
    have hblock8 : mxBlock f < 8 := Nat.lt_of_lt_of_le (Nat.mod_lt _ (by decide)) (by decide)
    exact ⟨_, _, exec_vmxq hcode hd ha hb hblock hbit r, fun i hi => elem_vmxqVector hcode hblock hi, fun k _ => byte_setByte _ _ k hblock8⟩
  case expand =>
    refine ⟨_, exec_vmxd hcode hd ha hb hblock r, fun i hi => ⟨elem_vmxdVector hi, fun hscale => ?_⟩⟩
    exact (elem_vmxdVector hi).trans (congrArg (· % 2 ^ 32) (mxExpand_nanScale _ _ hscale))

end

/-! Rounding (08, R217, R220, R224) and the W48 containers of exact values (08, R223, Table 8.12). -/

namespace Sys2Proof.Machine

/-! ### Rounding -/

/-- Rounding to a coarser multiple: up where the part discarded is more than half, or half and the multiple below odd. -/
theorem roundTo_coarser (m : Nat) (e : Int) {d : Nat} (hd : 0 < d) (rtz : Bool) :
    roundTo m e (e + d) rtz =
      (if (!rtz && (decide (2 ^ d < 2 * (m % 2 ^ d)) || (decide (2 * (m % 2 ^ d) = 2 ^ d) && m / 2 ^ d % 2 == 1))) = true then m / 2 ^ d + 1 else m / 2 ^ d,
        m % 2 ^ d != 0) := by
  have hcoarse : ¬ e + (d : Int) ≤ e := by omega
  have hdist : (e + (d : Int) - e).toNat = d := by omega
  have hrest : m - (m / 2 ^ d) <<< d = m % 2 ^ d := by rw [Nat.shiftLeft_eq, Nat.mod_eq_sub_div_mul]
  simp only [roundTo, if_neg hcoarse, hdist, Nat.shiftRight_eq_div_pow, hrest]

/-- Rounding to nearest takes the multiple below or above, whichever is nearer, and of two as near the even one. -/
theorem roundTo_nearest (m : Nat) (e : Int) {d : Nat} (hd : 0 < d) :
    ((roundTo m e (e + d) false).1 = m / 2 ^ d ∧ (2 * (m % 2 ^ d) < 2 ^ d ∨ 2 * (m % 2 ^ d) = 2 ^ d ∧ m / 2 ^ d % 2 = 0)) ∨
    ((roundTo m e (e + d) false).1 = m / 2 ^ d + 1 ∧ (2 ^ d < 2 * (m % 2 ^ d) ∨ 2 * (m % 2 ^ d) = 2 ^ d ∧ m / 2 ^ d % 2 = 1)) := by
  rw [roundTo_coarser m e hd]
  have hup : (!false && (decide (2 ^ d < 2 * (m % 2 ^ d)) || (decide (2 * (m % 2 ^ d) = 2 ^ d) && m / 2 ^ d % 2 == 1))) = true ↔
      2 ^ d < 2 * (m % 2 ^ d) ∨ 2 * (m % 2 ^ d) = 2 ^ d ∧ m / 2 ^ d % 2 = 1 := by simp
  by_cases h : 2 ^ d < 2 * (m % 2 ^ d) ∨ 2 * (m % 2 ^ d) = 2 ^ d ∧ m / 2 ^ d % 2 = 1
  · exact .inr ⟨if_pos (hup.mpr h), h⟩
  · exact .inl ⟨if_neg (mt hup.mp h), by omega⟩

/-- How far the multiple below lies from a value, and the one above. -/
theorem multiple_below (m d : Nat) : ((m / 2 ^ d : Nat) : Int) * 2 ^ d - m = -((m % 2 ^ d : Nat) : Int) := by
  have h : ((2 ^ d * (m / 2 ^ d) + m % 2 ^ d : Nat) : Int) = m := congrArg _ (Nat.div_add_mod ..)
  push_cast at h ⊢
  linarith

/-- To nearest: within half a multiple, and even where that far. -/
theorem roundTo_nearest_distance (m : Nat) (e : Int) {d : Nat} (hd : 0 < d) :
    2 * (((roundTo m e (e + d) false).1 : Int) * 2 ^ d - m).natAbs ≤ 2 ^ d ∧
      (2 * (((roundTo m e (e + d) false).1 : Int) * 2 ^ d - m).natAbs = 2 ^ d → (roundTo m e (e + d) false).1 % 2 = 0) := by
  have hbelow := multiple_below m d
  have hrest : m % 2 ^ d < 2 ^ d := Nat.mod_lt _ (Nat.two_pow_pos d)
  rcases roundTo_nearest m e hd with ⟨hr, hnear⟩ | ⟨hr, hnear⟩
  · rw [hr, hbelow, Int.natAbs_neg, Int.natAbs_natCast]
    omega
  · have habove : (((m / 2 ^ d + 1 : Nat) : Int) * 2 ^ d - m).natAbs = 2 ^ d - m % 2 ^ d := by
      have hcast : ((2 ^ d : Nat) : Int) = 2 ^ d := Nat.cast_pow ..
      rw [Nat.cast_add, Nat.cast_one, add_mul, one_mul]
      omega
    rw [hr, habove]
    omega

/-! ### W48 containers (Table 8.12) -/

section
variable (neg : Bool) (ex m flags : Nat)

theorem w48Pack_toNat : (w48Pack neg ex m flags).toNat = packBits [(1, b2n neg), (11, ex), (48, m), (4, flags)] := toNat_ofNat_packBits rfl

theorem w48Flags_w48Pack : w48Flags (w48Pack neg ex m flags) = flags % 16 := by
  have hfield : bits (packBits [(1, b2n neg), (11, ex), (48, m), (4, flags)]) 3 0 = flags % 2 ^ 4 := bits_packBits_field 3 rfl rfl rfl
  rw [w48Flags, w48Pack_toNat, hfield]
  rfl

theorem w48Pack_sign : bit (w48Pack neg ex m flags).toNat 63 = neg := by
  have hfield : bits (packBits [(1, b2n neg), (11, ex), (48, m), (4, flags)]) 63 63 = b2n neg % 2 ^ 1 := bits_packBits_field 0 rfl rfl rfl
  rw [bit_eq_bits, w48Pack_toNat, hfield]
  cases neg <;> rfl

theorem w48Pack_exponent : bits (w48Pack neg ex m flags).toNat 62 52 = ex % 2 ^ 11 := by
  rw [w48Pack_toNat]
  exact bits_packBits_field 1 rfl rfl rfl

theorem w48Pack_significand : bits (w48Pack neg ex m flags).toNat 51 4 = m % 2 ^ 48 := by
  rw [w48Pack_toNat]
  exact bits_packBits_field 2 rfl rfl rfl

/-- The container of a normalised significand and an exponent of W48 holds that value (R223). -/
theorem w48Value_w48Pack {neg : Bool} {ex m flags : Nat} (hlo : 1 ≤ ex) (hhi : ex ≤ 0x7FE) (hm : 2 ^ 47 ≤ m) (hm' : m < 2 ^ 48) :
    w48Value (w48Pack neg ex m flags) = .fin neg m ((ex : Int) - 1070) := by
  have hex : ex % 2 ^ 11 = ex := Nat.mod_eq_of_lt (by omega)
  have hbit : bit m 47 = true := by
    rw [bit, Nat.testBit_eq_decide_div_mod_eq, decide_eq_true_eq]
    omega
  simp only [w48Value, w48Pack_sign, w48Pack_exponent, w48Pack_significand, hex, Nat.mod_eq_of_lt hm']
  rw [if_neg (by omega), if_pos ⟨hlo, hhi, hbit⟩]

end

/-- Two finite numbers of one value compare equal. -/
theorem cmp_fin_of_scaledInt {a b : Bool} {m n : Nat} {e f : Int} (h : scaledInt a m e (min e f) = scaledInt b n f (min e f)) :
    (Num.fin a m e).cmp (.fin b n f) = some 0 := by
  simp only [Num.cmp, h, Int.sub_self]
  rfl

/-! ### Values of at most 48 significant bits -/

section
variable {neg : Bool} {m : Nat} {e : Int} (hpos : 0 < m) (hm : m < 2 ^ 48)
include hpos hm

theorem log2_lt_48 : Nat.log2 m < 48 := (Nat.log2_lt hpos.ne').mpr hm

/-- The significand moved up until its bit 47 is set. -/
theorem normalised_bounds : 2 ^ 47 ≤ m <<< (47 - Nat.log2 m) ∧ m <<< (47 - Nat.log2 m) < 2 ^ 48 := by
  have hlog := log2_lt_48 hpos hm
  have hlo : 2 ^ Nat.log2 m ≤ m := Nat.log2_self_le hpos.ne'
  have hhi : m < 2 ^ (Nat.log2 m + 1) := Nat.lt_log2_self
  have hlo' := Nat.mul_le_mul_right (2 ^ (47 - Nat.log2 m)) hlo
  have hhi' := Nat.mul_lt_mul_of_pos_right hhi (Nat.two_pow_pos (47 - Nat.log2 m))
  rw [← Nat.pow_add] at hlo' hhi'
  rw [Nat.shiftLeft_eq]
  exact ⟨by rwa [show Nat.log2 m + (47 - Nat.log2 m) = 47 by omega] at hlo', by rwa [show Nat.log2 m + 1 + (47 - Nat.log2 m) = 48 by omega] at hhi'⟩

/-- Moving a significand of at most 48 bits up discards nothing. -/
theorem roundTo_normalised : roundTo m e (topExp m e - 47) false = (m <<< (47 - Nat.log2 m), false) := by
  have hlog := log2_lt_48 hpos hm
  have hfiner : topExp m e - 47 ≤ e := by unfold topExp; omega
  have hdist : (e - (topExp m e - 47)).toNat = 47 - Nat.log2 m := by unfold topExp; omega
  rw [roundTo, if_pos hfiner, hdist]

/-- Such a value within the exponents of W48 is held exactly, without flags (R224). -/
theorem round48_exact (hlo : -1069 ≤ topExp m e - 47) (hhi : topExp m e - 47 ≤ 0x7FE - 1070) :
    round48 (.fin neg m e) = w48Pack neg (topExp m e - 47 + 1070).toNat (m <<< (47 - Nat.log2 m)) 0 := by
  obtain ⟨-, hlt⟩ := normalised_bounds hpos hm
  have hcarry : ¬ m <<< (47 - Nat.log2 m) = 2 ^ 48 := hlt.ne
  have hover : ¬ 0x7FE < topExp m e - 47 + 1070 := by omega
  have hunder : ¬ topExp m e - 47 + 1070 < 1 := by omega
  simp only [round48, if_neg hpos.ne', roundTo_normalised hpos hm, hcarry, if_false, hover, hunder, Bool.false_eq_true]

theorem round48_value (hlo : -1069 ≤ topExp m e - 47) (hhi : topExp m e - 47 ≤ 0x7FE - 1070) :
    w48Value (round48 (.fin neg m e)) = .fin neg (m <<< (47 - Nat.log2 m)) (topExp m e - 47) := by
  obtain ⟨hge, hlt⟩ := normalised_bounds hpos hm
  have hexp : ((topExp m e - 47 + 1070).toNat : Int) - 1070 = topExp m e - 47 := by omega
  rw [round48_exact hpos hm hlo hhi, w48Value_w48Pack (by omega) (by omega) hge hlt, hexp]

/-- Moving a significand up leaves the value. -/
theorem cmp_normalised : (Num.fin neg (m <<< (47 - Nat.log2 m)) (topExp m e - 47)).cmp (.fin neg m e) = some 0 := by
  have hlog := log2_lt_48 hpos hm
  have hmin : min (topExp m e - 47) e = topExp m e - 47 := by unfold topExp; omega
  have hdist : (e - (topExp m e - 47)).toNat = 47 - Nat.log2 m := by unfold topExp; omega
  refine cmp_fin_of_scaledInt ?_
  rw [hmin, scaledInt, scaledInt, hdist, Int.sub_self]
  rfl

end

end Sys2Proof.Machine

section
open Sys2Proof Sys2Proof.Machine

/-- Settles O38: the bytes read as a two's-complement value, the multiple below or above, and the normalised container. -/
theorem roundingAndExtension : Obligations.RoundingAndExtension := by
  unfold Obligations.RoundingAndExtension
  refine ⟨?extension, ?rounding, ?exact⟩
  case extension =>
    intro c v hc b
    have hb : 8 * 2 ^ c ≤ 64 := Nat.mul_le_mul_left 8 (Nat.pow_le_pow_right Nat.two_pos (Nat.le_of_lt_succ hc))
    have hpos : 0 < b := Nat.mul_pos (by decide) (Nat.two_pow_pos c)
    have hhalf : 2 ^ b = 2 * 2 ^ (b - 1) := by rw [← Nat.pow_succ', Nat.succ_eq_add_one, Nat.sub_add_cancel hpos]
    refine ⟨toNat_extend_unsigned hb v, (toInt_extend_signed hb v).trans ?_⟩
    rw [BitVec.toInt_eq_toNat_cond, BitVec.toNat_ofNat]
    refine if_congr ?_ rfl ?_
    · change 2 * (v % 2 ^ b) < 2 ^ b ↔ _
      omega
    · rw [Nat.cast_pow, Nat.cast_ofNat]
  case rounding =>
    intro m d e hd
    obtain ⟨hdistance, heven⟩ := roundTo_nearest_distance m e hd
    refine ⟨hdistance, heven, ?towardZero, ?discarded, ?same⟩
    case towardZero => rw [roundTo_coarser m e hd, Bool.not_true, Bool.false_and, if_neg Bool.false_ne_true]
    case discarded => rw [roundTo_coarser m e hd, Bool.eq_iff_iff, bne_iff_ne, decide_eq_true_iff]
    case same => rw [roundTo_coarser m e hd, roundTo_coarser m e hd]
  case exact =>
    intro neg m e hpos hm hlo hhi
    refine ⟨?flags, ?value⟩
    case flags => rw [round48_exact hpos hm hlo hhi, w48Flags_w48Pack]
    case value =>
      rw [round48_value hpos hm hlo hhi]
      exact cmp_normalised hpos hm

end

/-! VDOT and VDOTB (08, R221, R225), and the accumulator instructions AOP, AREAD and AMOVS (08, R224, R226 to R228). -/

namespace Sys2Proof.Machine

/-! ### Lanes -/

/-- Each lane that the predicate governs takes its result, every other keeps its container. -/
theorem getD_mapLanes {l : Nat} (hl : l < 16) (a : List Word) (p : Word) (g : Nat → Word) :
    (mapLanes a p g).getD l 0 = if p.getLsbD l then g l else a.getD l 0 := by
  simp [mapLanes, lane, hl]

section
variable {s : State} {t : ThreadRef} {op : Nat} {f : Fields} {regs : List Nat} {p : Spray} {th : Thread}

/-! ### The dot unit -/

theorem dotInstr_eq {d : DotFmt} (hd : dotFmt (vFmt f) = some d) (broadcast : Bool) : dotInstr s t op f broadcast =
    regOp s t op f (isV f.a && isV f.b && true && (d.mx || f.d.toNat / 4 == 0) && (broadcast || vOp f == 0))
      (rV f.a :: rV f.b :: (if d.mx then [24 + f.d.toNat / 4] else []))
      (fun _ th => setAcc th (f.d.toNat % 4) (mapLanes (acc th (f.d.toNat % 4)) (pred th (vPred f)) (fun l =>
        dotLane d (vreg th f.a.toNat) (vreg th f.b.toNat) (sreg th (24 + f.d.toNat / 4)) (lane (acc th (f.d.toNat % 4)) l) l (if broadcast then some (vOp f) else none)))) := by
  simp only [dotInstr, hd]
  rfl

/-- VDOT or VDOTB: the accumulator after it, by its lanes. -/
theorem exec_dot {d : DotFmt} {i : Instr} {broadcast : Bool} (hd : dotFmt (vFmt f) = some d) (ha : f.a.toNat < 16) (hb : f.b.toNat < 16)
    (hscale : d.mx = true ∨ f.d.toNat / 4 = 0) (hfn : broadcast = true ∨ vOp f = 0) (hexec : exec i s = dotInstr s t op f broadcast)
    (r : Ready s t op f (rV f.a :: rV f.b :: (if d.mx then [24 + f.d.toNat / 4] else [])) p th) :
    ∃ acc' : List Word, exec i s = .next (issued s t { th with accs := th.accs.set (f.d.toNat % 4) acc', pc := nextPc th }) ∧
      ∀ l < 16, acc'.getD l 0 = if (pred th (vPred f)).getLsbD l then
        dotLane d (vreg th f.a.toNat) (vreg th f.b.toNat) (sreg th (24 + f.d.toNat / 4)) ((acc th (f.d.toNat % 4)).getD l 0) l (if broadcast then some (vOp f) else none)
        else (acc th (f.d.toNat % 4)).getD l 0 := by
  refine ⟨_, exec_setsAcc r (hexec.trans (dotInstr_eq hd broadcast)) ?_ rfl, fun l hl => getD_mapLanes hl _ _ _⟩
  have hmx : (d.mx || f.d.toNat / 4 == 0) = true := by simpa using hscale
  have hlow : (broadcast || vOp f == 0) = true := by simpa using hfn
  rw [isV_of_lt ha, isV_of_lt hb, hmx, hlow]
  rfl

/-! ### AOP (Table 8.15) -/

section
variable (ad ab : List Word) (va : VReg) (p : Word)

theorem accOp_clear (fmt : Nat) : accOp 0 ad ab va fmt p = some (mapLanes ad p (fun _ => 0)) := rfl

theorem accOp_addVector {fmt : Nat} (h : fmt = 8 ∨ fmt = 9) : accOp 1 ad ab va fmt p = some (mapLanes ad p (fun l =>
    w48Write (Num.sum [w48Value (ad.getD l 0), decodeElem (fmtD fmt) (elem va 32 l)]) ((ad.getD l 0).toNat % 16))) := by
  rcases h with rfl | rfl <;> rfl

theorem accOp_mulVector {fmt : Nat} (h : fmt = 8) : accOp 2 ad ab va fmt p = some (mapLanes ad p (fun l =>
    w48Write ((w48Value (ad.getD l 0)).mul (decodeElem (fmtD fmt) (elem va 32 l))) ((ad.getD l 0).toNat % 16))) := by
  subst h
  rfl

theorem accOp_maxVector {fmt : Nat} (h : fmt = 8 ∨ fmt = 9) : accOp 3 ad ab va fmt p = some (mapLanes ad p (fun l =>
    w48Write (numMax (w48Value (ad.getD l 0)) (decodeElem (fmtD fmt) (elem va 32 l))) ((ad.getD l 0).toNat % 16))) := by
  rcases h with rfl | rfl <;> rfl

theorem accOp_copy (fmt : Nat) : accOp 4 ad ab va fmt p = some (mapLanes ad p (fun l => addFlags (ab.getD l 0) ((ad.getD l 0).toNat % 16))) := rfl

theorem accOp_add (fmt : Nat) : accOp 5 ad ab va fmt p = some (mapLanes ad p (fun l =>
    w48Write (Num.sum [w48Value (ad.getD l 0), w48Value (ab.getD l 0)]) ((ad.getD l 0).toNat % 16 ||| (ab.getD l 0).toNat % 16))) := rfl

theorem accOp_sum (fmt : Nat) : accOp 6 ad ab va fmt p = some (ad.set 0 (addFlags (pairSum 4 ((List.range 16).map (fun l =>
    if p.getLsbD l then ab.getD l 0 else 0))) ((ad.getD 0 0).toNat % 16))) := rfl

theorem accOp_broadcast (fmt : Nat) : accOp 8 ad ab va fmt p = some (mapLanes ad p (fun l => addFlags (ab.getD 0 0) ((ad.getD l 0).toNat % 16))) := rfl

end

theorem aopLegal_clear (hd : f.d.toNat < 4) (hb : f.b = 0) (hop : vOp f = 0) (ha : f.a = 0) (hfmt : vFmt f = 0) : aopLegal f = true := by
  simp [aopLegal, isA_of_lt hd, hb, hop, ha, hfmt]

theorem aopLegal_vector (hd : f.d.toNat < 4) (hb : f.b = 0) (hlo : 1 ≤ vOp f) (hhi : vOp f ≤ 3) (ha : f.a.toNat < 16)
    (hfmt : vFmt f = 8 ∨ vFmt f = 9 ∧ vOp f ≠ 2) : aopLegal f = true := by
  have hop : vOp f ≤ 8 := by omega
  simp [aopLegal, isA_of_lt hd, hb, hop, Nat.one_le_iff_ne_zero.mp hlo, hhi, isV_of_lt ha, hfmt]

theorem aopLegal_accumulator (hd : f.d.toNat < 4) (hb : f.b = 0) (hlo : 4 ≤ vOp f) (hhi : vOp f ≤ 8) (ha : f.a.toNat < 4) (hfmt : vFmt f = 0) :
    aopLegal f = true := by
  have hzero : vOp f ≠ 0 := by omega
  have hvector : ¬ vOp f ≤ 3 := by omega
  simp [aopLegal, isA_of_lt hd, hb, hzero, hvector, hhi, isA_of_lt ha, hfmt]

/-- An AOP whose fields are allowed leaves its accumulator as its function says. -/
theorem exec_aop {a : List Word} (hlegal : aopLegal f = true) (hregs : (if 1 ≤ vOp f ∧ vOp f ≤ 3 then [rV f.a] else []) = regs)
    (hacc : accOp (vOp f) (acc th f.d.toNat) (acc th (f.a.toNat % 4)) (vreg th f.a.toNat) (vFmt f) (pred th (vPred f)) = some a)
    (r : Ready s t 0x3B f regs p th) :
    exec (.aop t f) s = .next (issued s t { th with accs := th.accs.set f.d.toNat a, pc := nextPc th }) := by
  subst hregs
  refine exec_setsAcc (i := .aop t f) r (Eq.refl (execAop t f s)) hlegal ?_
  rw [hacc]
  rfl

/-- The functions that read a vector. -/
theorem exec_aop_vector {k : Nat} {a : List Word} (hop : vOp f = k) (hlo : 1 ≤ k) (hhi : k ≤ 3) (hd : f.d.toNat < 4) (hb : f.b = 0) (ha : f.a.toNat < 16)
    (hfmt : vFmt f = 8 ∨ vFmt f = 9 ∧ k ≠ 2) (r : Ready s t 0x3B f [rV f.a] p th)
    (hacc : accOp k (acc th f.d.toNat) (acc th (f.a.toNat % 4)) (vreg th f.a.toNat) (vFmt f) (pred th (vPred f)) = some a) :
    exec (.aop t f) s = .next (issued s t { th with accs := th.accs.set f.d.toNat a, pc := nextPc th }) := by
  subst hop
  exact exec_aop (aopLegal_vector hd hb hlo hhi ha hfmt) (if_pos ⟨hlo, hhi⟩) hacc r

/-- The functions that read an accumulator. -/
theorem exec_aop_accumulator {k : Nat} {a : List Word} (hop : vOp f = k) (hlo : 4 ≤ k) (hhi : k ≤ 8) (hd : f.d.toNat < 4) (hb : f.b = 0) (ha : f.a.toNat < 4)
    (hfmt : vFmt f = 0) (r : Ready s t 0x3B f [] p th)
    (hacc : accOp k (acc th f.d.toNat) (acc th f.a.toNat) (vreg th f.a.toNat) (vFmt f) (pred th (vPred f)) = some a) :
    exec (.aop t f) s = .next (issued s t { th with accs := th.accs.set f.d.toNat a, pc := nextPc th }) := by
  subst hop
  refine exec_aop (aopLegal_accumulator hd hb hlo hhi ha hfmt) (if_neg (by omega)) ?_ r
  rwa [Nat.mod_eq_of_lt ha]

/-- ACLR. -/
theorem exec_aop_clear (hop : vOp f = 0) (hd : f.d.toNat < 4) (hb : f.b = 0) (ha : f.a = 0) (hfmt : vFmt f = 0) (r : Ready s t 0x3B f [] p th) :
    exec (.aop t f) s = .next (issued s t { th with
      accs := th.accs.set f.d.toNat (mapLanes (acc th f.d.toNat) (pred th (vPred f)) (fun _ => 0)), pc := nextPc th }) := by
  refine exec_aop (aopLegal_clear hd hb hop ha hfmt) (if_neg (by omega)) ?_ r
  rw [hop, accOp_clear]

/-! ### AREAD and AMOVS -/

/-- What AREAD makes of its fields and its thread's registers: each lane times 2^k, rounded once into its part (R227). -/
def areadResult (f : Fields) (th : Thread) : VReg :=
  putPart (vFmt f) (bPart f) (vreg th f.d.toNat) (fun l =>
    readLane (fmtD (vFmt f)) (lane (acc th f.a.toNat) l) (f.fn.extractLsb' 0 5).toInt (bRtz f) (bSat f))

theorem execAread_eq : execAread t f s = regOp s t 0x3C f (isV f.d && isA f.a && wideFmt (vFmt f) && f.fn.toNat / 32 % 4 == 0 &&
    decide (bPart f < partCount (fmtD (vFmt f)))) [rV f.d] (fun _ th => setVreg th f.d.toNat (areadResult f th)) := rfl

theorem exec_aread (hd : f.d.toNat < 16) (ha : f.a.toNat < 4) (hfmt : wideFmt (vFmt f) = true) (hzero : f.fn.toNat / 32 % 4 = 0)
    (hpart : bPart f < partCount (fmtD (vFmt f))) (r : Ready s t 0x3C f [rV f.d] p th) :
    exec (.aread t f) s = .next (issued s t { th with vregs := th.vregs.set f.d.toNat (areadResult f th), pc := nextPc th }) := by
  refine exec_setsVreg (i := .aread t f) r execAread_eq ?_ rfl
  rw [isV_of_lt hd, isA_of_lt ha, hfmt, hzero, decide_eq_true hpart]
  rfl

theorem execAmovs_put (h : f.fn.getLsbD 4 = true) : execAmovs t f s = regOp s t 0x3D f (isA f.d && f.b == 0 && decide (f.fn.toNat < 32)) [rS f.a]
    (fun _ th => setAcc th f.d.toNat (laneSet (acc th f.d.toNat) (f.fn.toNat % 16) (sreg th f.a.toNat))) := by
  simp only [execAmovs, h, if_true]

theorem execAmovs_get (h : f.fn.getLsbD 4 = false) : execAmovs t f s = regOp s t 0x3D f (isA f.a && f.b == 0 && decide (f.fn.toNat < 32)) [rS f.d]
    (fun _ th => setSreg th f.d.toNat (lane (acc th f.a.toNat) (f.fn.toNat % 16))) := by
  simp only [execAmovs, h, Bool.false_eq_true, if_false]

/-- Bit 4 of a field below 32. -/
theorem getLsbD_four {x : BitVec 11} (h : x.toNat < 32) : x.getLsbD 4 = decide (16 ≤ x.toNat) := by
  rw [BitVec.getLsbD, Nat.testBit_eq_decide_div_mod_eq, decide_eq_decide]
  omega

end

end Sys2Proof.Machine

section
open Sys2Proof Sys2Proof.Machine

/-- Settles O39: dot products and AOP by their lanes, AREAD by its part, AMOVS by its direction. -/
theorem accumulatorInstructions : Obligations.AccumulatorInstructions := by
  unfold Obligations.AccumulatorInstructions
  refine ⟨?dot, ?accumulators⟩
  case dot =>
    intro s t f p th d hd ha hb hscale
    exact ⟨fun hfn r => exec_dot (i := .vdot t f) (broadcast := false) hd ha hb hscale (.inr hfn) rfl r,
      fun r => exec_dot (i := .vdotb t f) (broadcast := true) hd ha hb hscale (.inl rfl) rfl r⟩
  case accumulators =>
    intro s t f p th ad ab op fmt pn pr x el toA lanes own v
    refine ⟨fun hd hb => ⟨fun hop ha hfmt r => ?clear, fun ha hfmt r => ?vector, fun ha hfmt r => ?accumulator⟩, fun hd ha hc hzero hpart r => ?read,
      fun hb => ⟨fun hd hlo hhi r => ?put, fun ha hhi r => ?get⟩⟩
    case clear => exact ⟨_, exec_aop_clear hop hd hb ha hfmt r, fun l hl => getD_mapLanes hl _ _ _⟩
    case vector =>
      refine ⟨fun hop => ?add, fun hop hfp => ?mul, fun hop => ?max⟩
      case add => exact ⟨_, exec_aop_vector hop (by decide) (by decide) hd hb ha (hfmt.imp_right fun h => ⟨h, by decide⟩) r (accOp_addVector _ _ _ _ hfmt), fun l hl => getD_mapLanes hl _ _ _⟩
      case mul => exact ⟨_, exec_aop_vector hop (by decide) (by decide) hd hb ha (.inl hfp) r (accOp_mulVector _ _ _ _ hfp), fun l hl => getD_mapLanes hl _ _ _⟩
      case max => exact ⟨_, exec_aop_vector hop (by decide) (by decide) hd hb ha (hfmt.imp_right fun h => ⟨h, by decide⟩) r (accOp_maxVector _ _ _ _ hfmt), fun l hl => getD_mapLanes hl _ _ _⟩
    case accumulator =>
      refine ⟨fun hop => ?copy, fun hop => ?add, fun hop => ?sum, fun hop => ?broadcast⟩
      case copy => exact ⟨_, exec_aop_accumulator hop (by decide) (by decide) hd hb ha hfmt r (accOp_copy ..), fun l hl => getD_mapLanes hl _ _ _⟩
      case add => exact ⟨_, exec_aop_accumulator hop (by decide) (by decide) hd hb ha hfmt r (accOp_add ..), fun l hl => getD_mapLanes hl _ _ _⟩
      case sum => exact exec_aop_accumulator hop (by decide) (by decide) hd hb ha hfmt r (accOp_sum ..)
      case broadcast => exact ⟨_, exec_aop_accumulator hop (by decide) (by decide) hd hb ha hfmt r (accOp_broadcast ..), fun l hl => getD_mapLanes hl _ _ _⟩
    case read =>
      have hfmt : wideFmt (vFmt f) = true := List.contains_iff_mem.mpr hc
      exact ⟨_, exec_aread hd ha hfmt hzero hpart r, fun l hl => elem_putPart_in (wideFmt_lt hfmt) hpart hl ..,
        fun i _ hi => elem_putPart_out (wideFmt_lt hfmt) hpart hi ..⟩
    case put =>
      have hdir : f.fn.getLsbD 4 = true := (getLsbD_four hhi).trans (decide_eq_true hlo)
      exact exec_setsAcc (i := .amovs t f) r (execAmovs_put hdir) (by rw [isA_of_lt hd, hb, decide_eq_true hhi]; rfl) rfl
    case get =>
      have hdir : f.fn.getLsbD 4 = false := (getLsbD_four (by omega)).trans (decide_eq_false (Nat.not_le.mpr hhi))
      have hrange : f.fn.toNat < 32 := by omega
      exact exec_setsSreg (i := .amovs t f) r (execAmovs_get hdir) (by rw [isA_of_lt ha, hb, decide_eq_true hrange]; rfl) rfl

end

/-! Items of pool operations: the lines they lack are read as tiles (09, R233, R239). -/

namespace Sys2Proof.Machine

theorem leadingRun_cons (n a : Nat) (l : List Nat) : leadingRun (n + 1) (a :: l) = if l.head? = some (a + 1) then 1 + leadingRun n l else 1 := by
  cases l with
  | nil => rfl
  | cons b l => simp only [leadingRun, List.head?_cons, Option.some.injEq]

/-- A leading run is of consecutive numbers, and it ends at its bound or where the next number does not follow. -/
theorem leadingRun_spec : ∀ (n a : Nat) (l : List Nat), let k := leadingRun (n + 1) (a :: l)
    1 ≤ k ∧ k ≤ n + 1 ∧ (∀ j < k, (a :: l)[j]? = some (a + j)) ∧ (k < n + 1 → (a :: l)[k]? ≠ some (a + k))
  | n, a, [] => by simp [leadingRun]
  | 0, a, b :: l => by
    rw [leadingRun_cons, leadingRun]
    simp
  | n + 1, a, b :: l => by
    obtain ⟨hpos, hle, hin, hend⟩ := leadingRun_spec n b l
    rw [leadingRun_cons]
    by_cases hb : b = a + 1
    · subst hb
      rw [List.head?_cons, if_pos rfl]
      refine ⟨Nat.le_add_right .., by omega, fun j hj => ?_, fun hk => ?_⟩
      · cases j with
        | zero => rfl
        | succ j => rw [List.getElem?_cons_succ, hin j (by omega), Nat.add_assoc, Nat.add_comm 1]
      · rw [Nat.add_comm 1, List.getElem?_cons_succ, ← Nat.add_assoc, Nat.add_right_comm]
        exact hend (by omega)
    · rw [List.head?_cons, if_neg (by simpa using hb)]
      refine ⟨Nat.le_refl 1, by omega, fun j hj => ?_, fun _ => by simpa using hb⟩
      rw [Nat.lt_one_iff.mp hj]
      rfl

/-! ### Tiles of whole lines -/

/-- A tile whose rows are consecutive lines. -/
def Tile.lines (x : Tile) : Prop := x.base % 256 = 0 ∧ x.rowBytes = 256 ∧ x.stride = 256

theorem rowPieces_line {a : Nat} (h : a % 256 = 0) (first : Nat) : rowPieces 17 a first 256 = [{ pva := a, first := first, count := 256 }] := by
  simp [rowPieces, h]

theorem pieces_of_lines {x : Tile} (h : x.lines) :
    x.pieces = (List.range x.rows).map (fun r => { pva := x.base + r * 256, first := r * 256, count := 256 }) := by
  obtain ⟨hbase, hbytes, hstride⟩ := h
  have hrow (r : Nat) : rowPieces 17 (x.base + r * 256) (r * 256) 256 = [{ pva := x.base + r * 256, first := r * 256, count := 256 }] :=
    rowPieces_line (by omega) _
  simp only [Tile.pieces, hbytes, hstride, hrow]
  exact List.map_eq_flatMap.symm

/-- Lines are canonical where the last one is (01, R25). -/
theorem canonical_of_lines {x : Tile} (h : x.lines) (hrows : 0 < x.rows) : x.canonical = true ↔ x.base + 256 * x.rows ≤ 2 ^ 57 := by
  simp only [Tile.canonical, pieces_of_lines h, List.all_map, List.all_eq_true, List.mem_range, Function.comp_apply, decide_eq_true_iff]
  constructor
  · intro hall
    have := hall (x.rows - 1) (by omega)
    omega
  · intro hlast r hr
    omega

theorem badPva_of_line {x : Tile} (h : x.lines) (hrows : x.rows = 1) (hbad : 2 ^ 57 ≤ x.base) : x.badPva = x.base % 2 ^ 57 := by
  have hbeyond : decide (x.base + 256 ≤ 2 ^ 57) = false := decide_eq_false (by omega)
  simp only [Tile.badPva, pieces_of_lines h, hrows, List.range_one, List.map_cons, List.map_nil, Nat.zero_mul, Nat.add_zero, List.find?_cons, hbeyond, Bool.not_false,
    Option.map_some, Option.getD_some]

/-! ### A stage of an item (09, R233) -/

theorem issueItem_issued {s : State} {t : ThreadRef} {x : Tile} (h : x.direct = true ∨ x.canonical = true) : issueItem s t x = newTile s x :=
  if_pos (Bool.or_eq_true_iff.mpr h)

theorem issueItem_beyond {s : State} {t : ThreadRef} {x : Tile} (hdirect : x.direct = false) (h : x.canonical = false) :
    issueItem s t x = failThread s t.engine t.thread { status := 0x83, pva := x.badPva } :=
  if_neg (by rw [hdirect, h]; decide)

/-- The commands of the items, by DESC_KIND (09, Table 9.2). -/
def itemRows : List (Nat × (ThreadRef → Instr)) :=
  [(0x10, Instr.fill), (0x11, Instr.zero), (0x12, Instr.copy), (0x13, Instr.compare), (0x14, Instr.reduce), (0x15, Instr.gather), (0x16, Instr.scatter),
    (0x17, Instr.search), (0x18, Instr.attend), (0x19, Instr.digest)]

theorem exec_item {row : Nat × (ThreadRef → Instr)} (hrow : row ∈ itemRows) (t : ThreadRef) (s : State) : exec (row.2 t) s = .next (itemStep row.1 t s) := by
  simp only [itemRows, List.mem_cons, List.not_mem_nil, or_false] at hrow
  rcases hrow with rfl | rfl | rfl | rfl | rfl | rfl | rfl | rfl | rfl | rfl <;> rfl

section
variable {s : State} {t : ThreadRef} {p : Spray} {th : Thread} (hthread : threadOf? s t.engine t.thread = some th) (hspray : sprayOf? s th.spray = some p)
  (hpool : p.pool = true) (hissue : mayIssue s t th = true) (htiles : threadTiles s t.engine t.thread = [])
include hthread hspray hpool hissue htiles

theorem idleItem_of_idle : idleItem s t = some (th, p) := by
  simp only [idleItem, hthread, hspray, hpool, hissue, htiles, List.isEmpty_nil, Bool.and_self, if_true]

theorem exec_itemStage {row : Nat × (ThreadRef → Instr)} (hrow : row ∈ itemRows) (hcomputed : th.computed = false) (hkind : dKind p.desc = row.1) :
    exec (row.2 t) s = .next (itemStage s t th p) := by
  simp only [exec_item hrow, itemStep, idleItem_of_idle hthread hspray hpool hissue htiles, hkind, hcomputed, Bool.not_false, and_self, if_true]

theorem exec_unitCommit (hcomputed : th.computed = true) : exec (.poolItemUnitCommit t) s = .next (commitUnit s t th p) := by
  change execPoolItemUnitCommit t s = _
  simp only [execPoolItemUnitCommit, idleItem_of_idle hthread hspray hpool hissue htiles, when_true hcomputed]

end

section
variable {s : State} {t : ThreadRef} {p : Spray} {th : Thread}

theorem itemStage_outOfRange (h : itemOutOfRange p.desc th.item th.got = true) : itemStage s t th p = failThread s t.engine t.thread { status := 0xA1 } :=
  if_pos h

theorem itemStage_computes (h : itemOutOfRange p.desc th.item th.got = false) (hall : itemLacks p.desc p.base th.item th.got = []) :
    itemStage s t th p = setThread (useFree s) t.engine t.thread { th with computed := true, units := itemUnits p.desc s.time.free th.item th.got } := by
  simp only [itemStage, h, hall, Bool.false_eq_true, if_false]
  rfl

/-- The tile that reads the first lines an item lacks. -/
def readTile (t : ThreadRef) (th : Thread) (p : Spray) (l n : Nat) : Tile :=
  itemTile t th p (256 * l) n Op.readNoalloc .itemRead (List.replicate (256 * n) 0)

theorem itemStage_reads {l : Nat} {more : List Nat} (h : itemOutOfRange p.desc th.item th.got = false)
    (hlacks : itemLacks p.desc p.base th.item th.got = l :: more) : itemStage s t th p = issueItem s t (readTile t th p l (leadingRun 64 (l :: more))) := by
  simp only [itemStage, h, hlacks, Bool.false_eq_true, if_false]
  rfl

theorem itemTile_lines (p : Spray) {base : Nat} (h : base % 256 = 0) (rows op : Nat) (use : TileUse) (bytes : List Byte) :
    (itemTile t th p base rows op use bytes).lines := ⟨h, rfl, rfl⟩

theorem readTile_canonical (t : ThreadRef) (th : Thread) (p : Spray) (l : Nat) {n : Nat} (hn : 1 ≤ n) :
    (readTile t th p l n).canonical = true ↔ 256 * (l + n) ≤ 2 ^ 57 := by
  rw [readTile, canonical_of_lines (itemTile_lines p (Nat.mul_mod_right 256 l) ..) hn, Nat.mul_add]
  rfl

theorem issueItem_readTile {l n : Nat} (hn : 1 ≤ n) (h : dKind p.desc = 0x19 ∨ 256 * (l + n) ≤ 2 ^ 57) :
    issueItem s t (readTile t th p l n) = newTile s (readTile t th p l n) :=
  issueItem_issued (h.imp (fun h => decide_eq_true h) (readTile_canonical t th p l hn).mpr)

theorem issueItem_readTile_beyond {l n : Nat} (hn : 1 ≤ n) (hkind : dKind p.desc ≠ 0x19) (h : 2 ^ 57 < 256 * (l + n)) :
    issueItem s t (readTile t th p l n) = failThread s t.engine t.thread { status := 0x83, pva := (readTile t th p l n).badPva } :=
  issueItem_beyond (decide_eq_false hkind) (Bool.eq_false_iff.mpr fun hc => absurd ((readTile_canonical t th p l hn).mp hc) (Nat.not_le.mpr h))

end

end Sys2Proof.Machine

/-! What an item of a pool operation has read (09, R233), and the units of the kinds that move lines (09, R239, R242). -/

namespace Sys2Proof.Machine

/-! ### Lines and words read -/

section
variable {g : Tab Line} {a n : Nat}

/-- A range within one line is lacking while its line is. -/
theorem lacking_within (hn : 0 < n) (h : a % 256 + n ≤ 256) : lacking g a n = [] ↔ (tget? g (a / 256)).isSome = true := by
  have hlines : (a + n - 1) / 256 + 1 - a / 256 = 1 := by omega
  rw [lacking, if_neg (Nat.ne_of_gt hn), hlines]
  cases htget : tget? g (a / 256) <;> simp [htget]

theorem gotBytes_within (hn : 0 < n) (h : a % 256 + n ≤ 256) : gotBytes g a n = slice (lineBytes (tget g (a / 256) 0)) (a % 256) n := by
  have hlines : (a + n - 1) / 256 + 1 - a / 256 = 1 := by omega
  have hbytes : min 256 (a + n - 256 * (a / 256)) - a % 256 = n := by omega
  simp [gotBytes, hlines, hbytes]

theorem slice_all {l : List Byte} {k : Nat} (h : l.length = k) : slice l 0 k = l := by
  rw [slice, List.drop_zero, List.take_of_length_le (Nat.le_of_eq h), h, Nat.sub_self, List.replicate_zero, List.append_nil]

/-- A whole line that has been read. -/
theorem gotBytes_line (h : a % 256 = 0) : gotBytes g a 256 = lineBytes (tget g (a / 256) 0) := by
  rw [gotBytes_within (by decide) (by omega), h, slice_all (lineBytes_length _)]

theorem bits_lt (n hi lo : Nat) : bits n hi lo < 2 ^ (hi + 1 - lo) := Nat.mod_lt _ (Nat.two_pow_pos _)

/-- A 32-bit word of a line that has been read. -/
theorem gotWord_of_line {v : Line} (ha : a % 4 = 0) (hline : tget? g (a / 256) = some v) :
    gotWord g a = some (bits v.toNat (8 * (a % 256) + 31) (8 * (a % 256))) := by
  have hin : a % 256 + 4 ≤ 256 := by omega
  have hgot : lacking g a 4 = [] := (lacking_within (by decide) hin).mpr (by rw [hline]; rfl)
  have hline' : tget g (a / 256) 0 = v := by rw [tget, hline]; rfl
  have htop : 8 * (a % 256 + 4) - 1 = 8 * (a % 256) + 31 := by omega
  rw [gotWord, hgot, if_pos List.isEmpty_nil, gotBytes_within (by decide) hin, hline', slice_lineBytes v (by decide) hin, htop, ofLe_leBytes,
    Nat.mod_eq_of_lt (lt_of_lt_of_eq (bits_lt ..) (congrArg (2 ^ ·) (by omega)))]

theorem itemLacks_eq_nil_iff {d : Line} {base i : Nat} : itemLacks d base i g = [] ↔ ∀ r ∈ itemReads d base i g, lacking g r.1 r.2 = [] := by
  rw [itemLacks, ← List.flatMap_eq_nil_iff]
  constructor
  · intro h
    refine List.eq_nil_iff_forall_not_mem.mpr fun x hx => ?_
    have := List.mem_eraseDups.mpr hx
    rw [h] at this
    exact List.not_mem_nil this
  · intro h
    rw [h]
    rfl

end

/-! ### Lines made of equal blocks of bytes -/

/-- A block of a list of blocks of k bytes. -/
theorem slice_flatMap {α : Type} {f : α → List Byte} {k : Nat} (hf : ∀ x, (f x).length = k) :
    ∀ {l : List α} {j : Nat} {x : α}, l[j]? = some x → slice (l.flatMap f) (k * j) k = f x
  | y :: l, 0, x, h => by
    obtain rfl : y = x := by simpa using h
    rw [slice, Nat.mul_zero, List.drop_zero, List.flatMap_cons, List.take_left' (hf y), hf, Nat.sub_self, List.replicate_zero, List.append_nil]
  | y :: l, j + 1, x, h => by
    have hskip : k * (j + 1) = (f y).length + k * j := by rw [hf, Nat.mul_succ, Nat.add_comm]
    rw [← slice_flatMap hf (l := l) (j := j) (by simpa using h), slice, List.flatMap_cons, hskip, List.drop_length_add_append]
    rfl

theorem length_flatMap_leBytes (k : Nat) (l : List Nat) : (l.flatMap (leBytes k)).length = k * l.length := by
  rw [List.length_flatMap, List.map_congr_left (fun z _ => leBytes_length k z), List.map_const', List.sum_replicate, smul_eq_mul, Nat.mul_comm]

/-- Element j of a line made of numbers of k bytes. -/
theorem bits_bytesLine_elements {k j z : Nat} {l : List Nat} (hk : 0 < k) (hlen : k * l.length = 256) (hz : l[j]? = some z) :
    bits (bytesLine (l.flatMap (leBytes k))).toNat (8 * k * j + 8 * k - 1) (8 * k * j) = z % 2 ^ (8 * k) := by
  have hj : j < l.length := (List.getElem?_eq_some_iff.mp hz).1
  have hin : k * j + k ≤ 256 := by rw [← hlen, ← Nat.mul_succ]; exact Nat.mul_le_mul_left k hj
  have hblock := slice_flatMap (leBytes_length k) hz
  rw [← lineBytes_bytesLine ((length_flatMap_leBytes k l).trans hlen), slice_lineBytes _ hk hin] at hblock
  have htop : 8 * (k * j + k) - 1 = 8 * k * j + 8 * k - 1 := by rw [Nat.mul_add, Nat.mul_assoc]
  have hvalue := congrArg ofLe hblock
  rw [ofLe_leBytes, ofLe_leBytes, htop, ← Nat.mul_assoc] at hvalue
  rwa [Nat.mod_eq_of_lt (lt_of_lt_of_eq (bits_lt ..) (congrArg (2 ^ ·) (by omega)))] at hvalue

/-! ### FILL to SCATTER (09, R239, R242) -/

section
variable {d : Line} {no base i : Nat} {g : Tab Line}

theorem itemUnits_fill (hkind : dKind d = 0x10) :
    itemUnits d no i g = [(0, dDst d + 256 * i, bytesLine ((List.replicate 32 (dPattern d)).flatMap (leBytes 8)))] := by
  simp only [itemUnits, hkind, List.flatMap_replicate]
  rfl

/-- Every word of a FILL line is its pattern. -/
theorem lineWord_fill {w : Nat} (hw : w < 32) : (lineWord (bytesLine ((List.replicate 32 (dPattern d)).flatMap (leBytes 8))) w).toNat = dPattern d := by
  have hword := bits_bytesLine_elements (k := 8) (j := w) (l := List.replicate 32 (dPattern d)) (by decide) (by rw [List.length_replicate])
    (List.getElem?_replicate_of_lt hw)
  have hwidth : 8 * 8 * w + 8 * 8 - 1 + 1 - 8 * 8 * w = 64 := by omega
  rw [lineWord, BitVec.extractLsb'_toNat]
  rw [bits, hwidth] at hword
  exact hword.trans (Nat.mod_eq_of_lt (bits_lt ..))

theorem itemLacks_of_no_reads (h : itemReads d base i g = []) : itemLacks d base i g = [] := by
  rw [itemLacks, h]
  rfl

theorem itemReads_fill (hkind : dKind d = 0x10) : itemReads d base i g = [] := by
  rw [itemReads, hkind]
  rfl

theorem itemReads_zero (hkind : dKind d = 0x11) : itemReads d base i g = [] := by
  rw [itemReads, hkind]
  rfl

theorem itemUnits_zero (hkind : dKind d = 0x11) : itemUnits d no i g = [(0, dDst d + 256 * i, 0)] := by
  rw [itemUnits, hkind]
  rfl

theorem itemReads_copy (hkind : dKind d = 0x12) : itemReads d base i g = [(dSrc d + 256 * i, 256)] := by
  rw [itemReads, hkind]
  rfl

theorem itemUnits_copy (hkind : dKind d = 0x12) : itemUnits d no i g = [(0, dDst d + 256 * i, bytesLine (gotBytes g (dSrc d + 256 * i) 256))] := by
  rw [itemUnits, hkind]
  rfl

theorem itemReads_reduce (hkind : dKind d = 0x14) (htotal : dTotal d = false) :
    itemReads d base i g = [(dSrc d + 256 * i, 256), (dSrc2 d + 256 * i, 256)] := by
  simp only [itemReads, hkind, htotal]
  rfl

theorem itemUnits_reduce (hkind : dKind d = 0x14) (htotal : dTotal d = false) : itemUnits d no i g =
    [(0, dDst d + 256 * i, reduceLines d (bytesLine (gotBytes g (dSrc d + 256 * i) 256)) (bytesLine (gotBytes g (dSrc2 d + 256 * i) 256)))] := by
  simp only [itemUnits, hkind, htotal]
  rfl

theorem itemReads_gather (hkind : dKind d = 0x15) {n : Nat} (hindex : gotWord g (dIndex d + 4 * (i / dRow d)) = some n) :
    itemReads d base i g = [(dIndex d + 4 * (i / dRow d), 4), (dSrc d + 256 * (n * dRow d + i % dRow d), 256)] := by
  simp only [itemReads, hkind, hindex]
  rfl

theorem itemUnits_gather (hkind : dKind d = 0x15) {n : Nat} (hindex : gotWord g (dIndex d + 4 * (i / dRow d)) = some n) :
    itemUnits d no i g = [(0, dDst d + 256 * i, bytesLine (gotBytes g (dSrc d + 256 * (n * dRow d + i % dRow d)) 256))] := by
  simp only [itemUnits, hkind, hindex]
  rfl

theorem itemReads_scatter (hkind : dKind d = 0x16) : itemReads d base i g = [(dIndex d + 4 * (i / dRow d), 4), (dSrc d + 256 * i, 256)] := by
  rw [itemReads, hkind]
  rfl

theorem itemUnits_scatter (hkind : dKind d = 0x16) {n : Nat} (hindex : gotWord g (dIndex d + 4 * (i / dRow d)) = some n) :
    itemUnits d no i g = [(0, dDst d + 256 * (n * dRow d + i % dRow d), bytesLine (gotBytes g (dSrc d + 256 * i) 256))] := by
  simp only [itemUnits, hkind, hindex]
  rfl

/-- A line of a source is lacking while it has not been read. -/
theorem lacking_line {src : Nat} (h : src % 256 = 0) (j : Nat) : lacking g (src + 256 * j) 256 = [] ↔ (tget? g (src / 256 + j)).isSome = true := by
  rw [lacking_within (by decide) (by omega), Nat.add_mul_div_left _ _ (by decide)]

theorem gotBytes_of_line {src j : Nat} {v : Line} (h : src % 256 = 0) (hv : tget? g (src / 256 + j) = some v) : gotBytes g (src + 256 * j) 256 = lineBytes v := by
  rw [gotBytes_line (by omega), Nat.add_mul_div_left _ _ (by decide), tget, hv]
  rfl

theorem bytesLine_gotBytes_of_line {src j : Nat} {v : Line} (h : src % 256 = 0) (hv : tget? g (src / 256 + j) = some v) :
    bytesLine (gotBytes g (src + 256 * j) 256) = v := by
  rw [gotBytes_of_line h hv, bytesLine_lineBytes]

theorem lacking_of_line {src j : Nat} {v : Line} (h : src % 256 = 0) (hv : tget? g (src / 256 + j) = some v) : lacking g (src + 256 * j) 256 = [] :=
  (lacking_line h j).mpr (by rw [hv]; rfl)

/-- Two ranges that have been read. -/
theorem itemLacks_of_two {a b : Nat × Nat} (hreads : itemReads d base i g = [a, b]) (ha : lacking g a.1 a.2 = []) (hb : lacking g b.1 b.2 = []) :
    itemLacks d base i g = [] := by
  rw [itemLacks_eq_nil_iff, hreads, List.forall_mem_cons, List.forall_mem_singleton]
  exact ⟨ha, hb⟩

/-- The index of a row that has been read. -/
theorem lacking_index (hindex : dIndex d % 4 = 0) {v : Line} (hv : tget? g ((dIndex d + 4 * (i / dRow d)) / 256) = some v) :
    lacking g (dIndex d + 4 * (i / dRow d)) 4 = [] :=
  (lacking_within (by decide) (by omega)).mpr (by rw [hv]; rfl)

section
variable (hsrc : dSrc d % 256 = 0)
include hsrc

theorem itemLacks_copy (hkind : dKind d = 0x12) : itemLacks d base i g = [] ↔ (tget? g (dSrc d / 256 + i)).isSome = true := by
  rw [itemLacks_eq_nil_iff, itemReads_copy hkind, List.forall_mem_singleton]
  exact lacking_line hsrc i

theorem itemUnits_copy_of_line (hkind : dKind d = 0x12) {v : Line} (hv : tget? g (dSrc d / 256 + i) = some v) : itemUnits d no i g = [(0, dDst d + 256 * i, v)] := by
  rw [itemUnits_copy hkind, bytesLine_gotBytes_of_line hsrc hv]

section
variable (hindex : dIndex d % 4 = 0) {v u : Line} (hv : tget? g ((dIndex d + 4 * (i / dRow d)) / 256) = some v)
include hindex hv

theorem gather_of_lines (hkind : dKind d = 0x15) :
    let n := bits v.toNat (8 * ((dIndex d + 4 * (i / dRow d)) % 256) + 31) (8 * ((dIndex d + 4 * (i / dRow d)) % 256))
    tget? g (dSrc d / 256 + (n * dRow d + i % dRow d)) = some u → itemLacks d base i g = [] ∧ itemUnits d no i g = [(0, dDst d + 256 * i, u)] := by
  intro n hu
  have hn : gotWord g (dIndex d + 4 * (i / dRow d)) = some n := gotWord_of_line (by omega) hv
  exact ⟨itemLacks_of_two (itemReads_gather hkind hn) (lacking_index hindex hv) (lacking_of_line hsrc hu),
    by rw [itemUnits_gather hkind hn, bytesLine_gotBytes_of_line hsrc hu]⟩

theorem scatter_of_lines (hkind : dKind d = 0x16) (hu : tget? g (dSrc d / 256 + i) = some u) :
    let n := bits v.toNat (8 * ((dIndex d + 4 * (i / dRow d)) % 256) + 31) (8 * ((dIndex d + 4 * (i / dRow d)) % 256))
    itemLacks d base i g = [] ∧ itemUnits d no i g = [(0, dDst d + 256 * (n * dRow d + i % dRow d), u)] := by
  intro n
  have hn : gotWord g (dIndex d + 4 * (i / dRow d)) = some n := gotWord_of_line (by omega) hv
  exact ⟨itemLacks_of_two (itemReads_scatter hkind) (lacking_index hindex hv) (lacking_of_line hsrc hu),
    by rw [itemUnits_scatter hkind hn, bytesLine_gotBytes_of_line hsrc hu]⟩

end

theorem reduce_of_lines (hsrc2 : dSrc2 d % 256 = 0) (hkind : dKind d = 0x14) (htotal : dTotal d = false) {x y : Line}
    (hx : tget? g (dSrc d / 256 + i) = some x) (hy : tget? g (dSrc2 d / 256 + i) = some y) :
    itemLacks d base i g = [] ∧ itemUnits d no i g = [(0, dDst d + 256 * i, reduceLines d x y)] :=
  ⟨itemLacks_of_two (itemReads_reduce hkind htotal) (lacking_of_line hsrc hx) (lacking_of_line hsrc2 hy),
    by rw [itemUnits_reduce hkind htotal, bytesLine_gotBytes_of_line hsrc hx, bytesLine_gotBytes_of_line hsrc2 hy]⟩

end

end

/-! ### Elements of a REDUCE (09, R241, R242) -/

/-- The formats of REDUCE fill a line with whole bytes. -/
theorem reduceFmt {c : Nat} (hc : c ∈ [6, 7, 8, 9]) : fmtOf c = some (fmtD c) ∧ 0 < (fmtD c).width / 8 ∧ 8 * ((fmtD c).width / 8) = (fmtD c).width ∧
    (fmtD c).width / 8 * (2048 / (fmtD c).width) = 256 := by
  simp only [List.mem_cons, List.not_mem_nil, or_false] at hc
  rcases hc with rfl | rfl | rfl | rfl <;> exact ⟨rfl, by decide, rfl, rfl⟩

theorem reduceOp_eq (op : Nat) (x y : Num) :
    reduceOp op x y = if op = 0 then Num.sum [x, y] else if op = 1 then Num.pick true x y else Num.pick false x y := by
  by_cases h0 : op = 0
  · simp [reduceOp, h0]
  · rw [reduceOp, if_neg h0, if_neg h0]
    by_cases h1 : op = 1
    · rw [h1]
      rfl
    · rw [if_neg h1, beq_false_of_ne h1]

section
variable {d : Line} (hfmt : dFormat d ∈ [6, 7, 8, 9])
include hfmt

theorem lineElems_eq (x : Line) : lineElems (dFormat d) x = (List.range (2048 / (fmtD (dFormat d)).width)).map (fun j =>
    decodeElem (fmtD (dFormat d)) (bits x.toNat ((fmtD (dFormat d)).width * j + (fmtD (dFormat d)).width - 1) ((fmtD (dFormat d)).width * j))) := by
  simp only [lineElems, (reduceFmt hfmt).1]

/-- The codes of a REDUCE line. -/
def reduceCodes (d x y : Line) : List Nat :=
  (List.zipWith (reduceOp (dOp d)) (lineElems (dFormat d) x) (lineElems (dFormat d) y)).map (fun v => encodeElem (fmtD (dFormat d)) v false false)

theorem reduceLines_eq (x y : Line) : reduceLines d x y = bytesLine ((reduceCodes d x y).flatMap (leBytes ((fmtD (dFormat d)).width / 8))) := by
  simp only [reduceLines, (reduceFmt hfmt).1, reduceCodes, List.flatMap_map]

theorem reduceCodes_get (x y : Line) {j : Nat} (hj : j < 2048 / (fmtD (dFormat d)).width) :
    let w := (fmtD (dFormat d)).width
    let el := fun (l : Line) => decodeElem (fmtD (dFormat d)) (bits l.toNat (w * j + w - 1) (w * j))
    (reduceCodes d x y)[j]? = some (encodeElem (fmtD (dFormat d)) (reduceOp (dOp d) (el x) (el y)) false false) := by
  simp [reduceCodes, lineElems_eq hfmt, hj]

theorem bits_reduceLines (x y : Line) {j : Nat} (hj : j < 2048 / (fmtD (dFormat d)).width) :
    let w := (fmtD (dFormat d)).width
    let el := fun (l : Line) => decodeElem (fmtD (dFormat d)) (bits l.toNat (w * j + w - 1) (w * j))
    bits (reduceLines d x y).toNat (w * j + w - 1) (w * j) = encodeElem (fmtD (dFormat d)) (reduceOp (dOp d) (el x) (el y)) false false % 2 ^ w := by
  intro w el
  obtain ⟨-, hpos, hwidth, hfull⟩ := reduceFmt hfmt
  have hlen : (fmtD (dFormat d)).width / 8 * (reduceCodes d x y).length = 256 := by simp [reduceCodes, lineElems_eq hfmt, hfull]
  have helement := bits_bytesLine_elements hpos hlen (reduceCodes_get hfmt x y hj)
  rw [hwidth] at helement
  rw [reduceLines_eq hfmt]
  exact helement

end

end Sys2Proof.Machine

/-! Sums of products, quantized queries and scores (09, R245, R248), and the units of ATTEND (09, R247 to R249). -/

namespace Sys2Proof.Machine

/-! ### Sums of products (08, R225; 09, R245) -/

section
variable {α β : Type} {k : Nat}

theorem groups_flatten (hk : 0 < k) : ∀ (n : Nat) (l : List α), l.length ≤ n → (groups n k l).flatten = l
  | 0, l, h => by
    rw [List.length_eq_zero_iff.mp (Nat.le_zero.mp h)]
    rfl
  | n + 1, [], _ => rfl
  | n + 1, x :: l, h => by
    have hrest : ((x :: l).drop k).length ≤ n := by
      rw [List.length_drop, List.length_cons]
      rw [List.length_cons] at h
      omega
    rw [groups, List.isEmpty_cons, if_neg Bool.false_ne_true, List.flatten_cons, groups_flatten hk n _ hrest, List.take_append_drop]

theorem length_of_mem_groups : ∀ (n : Nat) (l : List α), ∀ z ∈ groups n k l, z.length ≤ k
  | 0, _, _, h => absurd h List.not_mem_nil
  | n + 1, [], _, h => absurd h List.not_mem_nil
  | n + 1, x :: l, z, h => by
    rw [groups, List.isEmpty_cons, if_neg Bool.false_ne_true] at h
    rcases List.mem_cons.mp h with rfl | hz
    · exact List.length_take_le ..
    · exact length_of_mem_groups n _ z hz

theorem groups_map (f : α → β) : ∀ (n : Nat) (l : List α), groups n k (l.map f) = (groups n k l).map (List.map f)
  | 0, _ => rfl
  | n + 1, [] => rfl
  | n + 1, x :: l => by
    simp only [groups, List.map_cons, List.isEmpty_cons, Bool.false_eq_true, if_false]
    rw [← List.map_cons, ← List.map_take, ← List.map_drop, groups_map f n]

end

/-- A W48 sum of products, k or fewer of them at each update, in an order that is open (08, R225, R229). -/
def DotSum (k : Nat) (prods : List Num) (v : Word) : Prop :=
  ∃ gs : List (List Num), gs.flatten.Perm prods ∧ (∀ z ∈ gs, z.length ≤ k) ∧ v = gs.foldl (fun a z => w48Write (Num.sum (w48Value a :: z)) (w48Flags a)) 0

theorem dotSum_spec {k : Nat} (hk : 0 < k) (no : Nat) (prods : List Num) : DotSum k prods (dotSum k no prods) := by
  have horder := rotateList_perm (groups prods.length k prods) (Config.freeBits 16 no).toNat
  refine ⟨_, ?_, fun z hz => length_of_mem_groups _ _ z (horder.mem_iff.mp hz), rfl⟩
  exact horder.flatten.trans (.of_eq (groups_flatten hk _ _ le_rfl))

/-! ### Queries (09, R245) -/

/-- A value is finite. -/
def Num.isFin (x : Num) : Prop := ∃ n m e, x = .fin n m e

theorem isFin_iff {x : Num} : (match x with | .fin _ _ _ => false | _ => true) = false ↔ x.isFin := by
  cases x <;> simp [Num.isFin]

theorem quantizeQuery_of_not_fin {fmt : Nat} {l : List Num} (h : ∃ x ∈ l, ¬ x.isFin) : quantizeQuery fmt l = none := by
  obtain ⟨x, hx, hfin⟩ := h
  exact if_pos (List.any_eq_true.mpr ⟨x, hx, Bool.of_not_eq_false fun hf => hfin (isFin_iff.mp hf)⟩)

/-- The scale exponent of finite values is −127 or more (08, R222). -/
theorem mxExponent_of_fin (emax : Int) {l : List Num} (h : ∀ x ∈ l, x.isFin) : ∃ x, mxExponent emax l = some x ∧ -127 ≤ x := by
  suffices hstep : ∀ a : Int, -127 ≤ a → ∃ x, l.foldl (fun acc x => match acc, x with
      | some a, .fin _ m e => some (if m = 0 then a else max a (max (-127) (min 127 (topExp m e - emax))))
      | _, _ => none) (some a) = some x ∧ -127 ≤ x by
    obtain ⟨x, hx, hle⟩ := hstep (-127) le_rfl
    exact ⟨x, hx, hle⟩
  induction l with
  | nil => exact fun a ha => ⟨a, rfl, ha⟩
  | cons y l ih =>
    intro a ha
    obtain ⟨n, m, e, rfl⟩ := h y List.mem_cons_self
    refine ih (fun x hx => h x (List.mem_cons_of_mem _ hx)) _ ?_
    split <;> omega

section
variable {l : List Num} (hfin : ∀ x ∈ l, x.isFin)
include hfin

theorem quantizeQuery_of_fin (fmt : Nat) : quantizeQuery fmt l = if fmt = 7 then some (l.map (fun x => decodeElem bf16 (encodeFloat bf16 x false false)), 0)
    else some ((mxQuantize e4m3 8 l).1.map (decodeElem e4m3), ((mxQuantize e4m3 8 l).2 : Int) - 127) :=
  if_neg (Bool.eq_false_iff.mp (List.any_eq_false.mpr fun x hx => Bool.eq_false_iff.mp (isFin_iff.mpr (hfin x hx))))

theorem quantizeQuery_bf16 : quantizeQuery 7 l = some (l.map (fun x => decodeElem bf16 (encodeFloat bf16 x false false)), 0) :=
  quantizeQuery_of_fin hfin 7

theorem quantizeQuery_mx {fmt : Nat} (hfmt : fmt ≠ 7) : ∃ x, mxExponent 8 l = some x ∧
    quantizeQuery fmt l = some (l.map (fun v => decodeElem e4m3 (encodeFloat e4m3 (v.shift (-x)) false true)), x) := by
  obtain ⟨x, hx, hle⟩ := mxExponent_of_fin 8 hfin
  have hscale : ((x + 127).toNat : Int) - 127 = x := by omega
  refine ⟨x, hx, ?_⟩
  simp only [quantizeQuery_of_fin hfin, hfmt, if_false, mxQuantize, hx, List.map_map, hscale]
  rfl

end

/-! ### Scores (09, R245) -/

theorem dotWidth_pos (fmt : Nat) : 0 < dotWidth fmt := by
  unfold dotWidth
  split <;> decide

section
variable (d : Line) (no : Nat) (q : List Num × Int) (x : List Num)

theorem searchScore_dot (h : sL2 d = false) :
    searchScore d no q x = encodeFloat fp32 ((w48Value (dotSum (dotWidth (sFmt d)) no (products q.1 x))).shift q.2) false false := by
  simp only [searchScore, h, Bool.false_eq_true, if_false]

theorem searchScore_l2 (h : sL2 d = true) : searchScore d no q x = encodeFloat fp32 (w48Value (round48 (Num.sum
    [(w48Value (dotSum (dotWidth (sFmt d)) no (products q.1 q.1))).shift (2 * q.2),
      ((w48Value (dotSum (dotWidth (sFmt d)) no (products q.1 x))).shift (q.2 + 1)).neg, w48Value (dotSum (dotWidth (sFmt d)) no (products x x))]))) false false := by
  simp only [searchScore, h, if_true]

end

/-! ### A block of tokens (09, R248) -/

/-- What scales the running values of a query head: 0 before the first block, and then EXP2 of the change of m. -/
def attendAlpha (no : Nat) (m mn : Num) : Num := if m = .inf true then .fin false 0 0 else exp2Of no (toFp32 (Num.sum [m, mn.neg]))

/-- The weights of the tokens of a block. -/
def attendWeights (no : Nat) (mn : Num) (scores : List Num) : List Num :=
  scores.map (fun x => decodeElem bf16 (encodeFloat bf16 (exp2Of no (toFp32 (Num.sum [x, mn.neg]))) false false))

/-- A running value scaled, with the terms of a block added. -/
def attendAdd (al : Num) (w : Word) (terms : List Num) : Word :=
  w48Write (Num.sum (w48Value (round48 ((w48Value w).mul al)) :: terms)) (w48Flags (round48 ((w48Value w).mul al)) ||| w48Flags w)

theorem attendBlock_eq (no : Nat) (scale : Num) (h : Head) (scores : List Num) (vals : List (List Num)) :
    let mn := scores.foldl (Num.pick false) h.m
    attendBlock no scale h scores vals =
      { m := mn, l := attendAdd (attendAlpha no h.m mn) h.l (attendWeights no mn scores)
        o := h.o.mapIdx (fun j w => attendAdd (attendAlpha no h.m mn) w
          (List.zipWith (fun x v => (x.mul (v.getD j (.fin false 0 0))).mul scale) (attendWeights no mn scores) vals)) } := by
  obtain ⟨m, l, o⟩ := h
  match m with
  | .nan => rfl
  | .inf true => rfl
  | .inf false => rfl
  | .fin _ _ _ => rfl

/-! ### A query head (09, R248, R249) -/

section
variable (d : Line) (no : Nat) {query : List Num} (keys vals : List (List Num))

/-- The output of a query head that a NaN reaches. -/
theorem attendHead_nan (h : quantizeQuery 0 query = none ∨ ∃ r ∈ keys ++ vals, Num.nan ∈ r) : attendHead d no query keys vals =
    { out := List.replicate (aDim d) (if aE d = 2 then 0x7FC0 else 0x7FC00000), m := 0x7FC00000, l := 0x7FC00000 } := by
  have hcode : (if aE d = 2 then bf16 else fp32).nan.getD 0 = if aE d = 2 then 0x7FC0 else 0x7FC00000 := by split <;> rfl
  cases hquery : quantizeQuery 0 query with
  | none => simp only [attendHead, hquery, hcode]
  | some y =>
    obtain ⟨r, hr, hnan⟩ := h.resolve_left (by rw [hquery]; exact Option.some_ne_none _)
    have hany : (keys ++ vals).any (fun r => r.any Num.isNan) = true := List.any_eq_true.mpr ⟨r, hr, List.any_eq_true.mpr ⟨_, hnan, rfl⟩⟩
    simp only [attendHead, hquery, hany, if_true, hcode]

/-- The score of a token for a quantized query (09, R248). -/
def attendScore (y : List Num × Int) (key : List Num) : Num :=
  toFp32 ((((w48Value (dotSum 4 no (products y.1 key))).shift y.2).mul (decodeElem fp32 (aKScale d))).mul
    (toFp32 ((decodeElem fp32 (aScale d)).mul (.fin false log2e (-120)))))

/-- The running values of a query head after all its blocks of 32 tokens. -/
def attendRun (y : List Num × Int) : Head :=
  (groups keys.length 32 ((keys.map (attendScore d no y)).zip vals)).foldl (fun h b => attendBlock no (decodeElem fp32 (aVScale d)) h (b.map Prod.fst) (b.map Prod.snd))
    { m := .inf true, l := 0, o := List.replicate (aDim d) 0 }

theorem isNan_iff {x : Num} : x.isNan = true ↔ x = .nan := by
  cases x <;> simp [Num.isNan]

section
variable (hnan : ∀ r ∈ keys ++ vals, Num.nan ∉ r)
include hnan

theorem no_nan_rows : (keys ++ vals).any (fun r => r.any Num.isNan) = false := by
  refine List.any_eq_false.mpr fun r hr => Bool.eq_false_iff.mp (List.any_eq_false.mpr fun x hx hx' => hnan r hr ?_)
  rwa [← isNan_iff.mp hx']

variable {y : List Num × Int} (hquery : quantizeQuery 0 query = some y)
include hquery

theorem attendHead_empty (h : keys = []) : attendHead d no query keys vals = { out := List.replicate (aDim d) 0, m := 0xFF800000, l := 0 } := by
  simp only [attendHead, hquery, no_nan_rows keys vals hnan, Bool.false_eq_true, if_false]
  rw [h]
  rfl

theorem attendHead_run (h : keys ≠ []) : attendHead d no query keys vals =
    { out := (attendRun d no keys vals y).o.map (fun w =>
        encodeFloat (if aE d = 2 then bf16 else fp32) ((w48Value w).mul (rcpOf no (toFp32 (w48Value (attendRun d no keys vals y).l)))) false false)
      m := encodeFloat fp32 (attendRun d no keys vals y).m false false
      l := encodeFloat fp32 (toFp32 (w48Value (attendRun d no keys vals y).l)) false false } := by
  have hsome : keys.isEmpty = false := Bool.eq_false_iff.mpr fun he => h (List.isEmpty_iff.mp he)
  have hrun : attendRun d no keys vals y = (groups keys.length 32 (keys.zip vals)).foldl
      (fun hd b => attendBlock no (decodeElem fp32 (aVScale d)) hd (b.map (fun kv => attendScore d no y kv.1)) (b.map Prod.snd))
      { m := .inf true, l := 0, o := List.replicate (aDim d) 0 } := by
    simp only [attendRun, List.zip_map_left, groups_map, List.foldl_map, List.map_map]
    rfl
  rw [hrun]
  simp only [attendHead, hquery, no_nan_rows keys vals hnan, Bool.false_eq_true, if_false, hsome]
  rfl

end

end

/-! ### The units of an item of ATTEND (09, R247) -/

/-- A row of the KV cache: the key (0) or the value (1) of a token. -/
def kvRow (d : Line) (i : Nat) (g : Tab Line) (value tok : Nat) : List Num :=
  rowValues (aFmt d) (aDim d) (gotBytes g (kvAddr d ((gotWord g (pageEntry d (i / aH d) tok)).getD 0) (i % aH d) tok value) (rowBytesOf (aFmt d) (aDim d)))

/-- The FP32 values of a query head of an item. -/
def headQuery (d : Line) (i : Nat) (g : Tab Line) (q : Nat) : List Num :=
  gotFloats g (aQ d + 4 * ((i / aH d * aH d + i % aH d) * aG d + q) * aDim d) (aDim d)

/-- A query head of an item. -/
def itemHead (d : Line) (no i : Nat) (g : Tab Line) (len q : Nat) : HeadOut :=
  attendHead d no (headQuery d i g q) ((List.range len).map (kvRow d i g 0)) ((List.range len).map (kvRow d i g 1))

def itemHeads (d : Line) (no i : Nat) (g : Tab Line) (len : Nat) : List HeadOut := (List.range (aG d)).map (itemHead d no i g len)

theorem nan_in_rows_iff {row : Nat → Nat → List Num} {len : Nat} :
    (∃ r ∈ (List.range len).map (row 0) ++ (List.range len).map (row 1), Num.nan ∈ r) ↔ ∃ tok < len, Num.nan ∈ row 0 tok ++ row 1 tok := by
  simp only [List.mem_append, List.mem_map, List.mem_range]
  constructor
  · rintro ⟨r, ⟨tok, htok, rfl⟩ | ⟨tok, htok, rfl⟩, hnan⟩
    · exact ⟨tok, htok, .inl hnan⟩
    · exact ⟨tok, htok, .inr hnan⟩
  · rintro ⟨tok, htok, hnan | hnan⟩
    · exact ⟨_, .inl ⟨tok, htok, rfl⟩, hnan⟩
    · exact ⟨_, .inr ⟨tok, htok, rfl⟩, hnan⟩

section
variable {d : Line} {no i : Nat} {g : Tab Line} {len q : Nat}

theorem itemHead_nan (h : quantizeQuery 0 (headQuery d i g q) = none ∨ ∃ tok < len, Num.nan ∈ kvRow d i g 0 tok ++ kvRow d i g 1 tok) : itemHead d no i g len q =
    { out := List.replicate (aDim d) (if aE d = 2 then 0x7FC0 else 0x7FC00000), m := 0x7FC00000, l := 0x7FC00000 } :=
  attendHead_nan d no _ _ (h.imp_right nan_in_rows_iff.mpr)

theorem itemHead_empty (hquery : quantizeQuery 0 (headQuery d i g q) ≠ none) : itemHead d no i g 0 q = { out := List.replicate (aDim d) 0, m := 0xFF800000, l := 0 } := by
  obtain ⟨y, hy⟩ := Option.ne_none_iff_exists'.mp hquery
  exact attendHead_empty d no _ _ (fun r hr => absurd hr List.not_mem_nil) hy rfl

/-- The scores of the tokens of an item for a quantized query. -/
def tokenScores (d : Line) (no i : Nat) (g : Tab Line) (len : Nat) (y : List Num × Int) : List Num :=
  (List.range len).map (fun tok => attendScore d no y (kvRow d i g 0 tok))

/-- The running values of a query head once all blocks of 32 tokens are in (09, R248). -/
def tokenRun (d : Line) (no i : Nat) (g : Tab Line) (len : Nat) (y : List Num × Int) : Head :=
  (groups len 32 ((tokenScores d no i g len y).zip ((List.range len).map (kvRow d i g 1)))).foldl
    (fun h b => attendBlock no (decodeElem fp32 (aVScale d)) h (b.map Prod.fst) (b.map Prod.snd)) { m := .inf true, l := 0, o := List.replicate (aDim d) 0 }

theorem tokenScores_get {tok : Nat} (htok : tok < len) (y : List Num × Int) : (tokenScores d no i g len y)[tok]? = some (attendScore d no y (kvRow d i g 0 tok)) := by
  rw [tokenScores, List.getElem?_map, List.getElem?_range htok]
  rfl

theorem itemHead_run {y : List Num × Int} (hquery : quantizeQuery 0 (headQuery d i g q) = some y) (hlen : 0 < len)
    (hnan : ∀ tok < len, Num.nan ∉ kvRow d i g 0 tok ++ kvRow d i g 1 tok) :
    let hd := tokenRun d no i g len y
    let l := encodeFloat fp32 (toFp32 (w48Value hd.l)) false false
    itemHead d no i g len q =
      { out := hd.o.map (fun w => encodeFloat (if aE d = 2 then bf16 else fp32) ((w48Value w).mul (decodeElem fp32 (sfu 2 (BitVec.ofNat 32 l) no))) false false)
        m := encodeFloat fp32 hd.m false false
        l := l } := by
  intro hd l
  have hrows : ∀ r ∈ (List.range len).map (kvRow d i g 0) ++ (List.range len).map (kvRow d i g 1), Num.nan ∉ r := by
    intro r hr hin
    obtain ⟨tok, htok, hin⟩ := nan_in_rows_iff.mp ⟨r, hr, hin⟩
    exact hnan tok htok hin
  have hsome : (List.range len).map (kvRow d i g 0) ≠ [] := fun h => by
    rw [List.map_eq_nil_iff, List.range_eq_nil] at h
    omega
  have hhd : attendRun d no ((List.range len).map (kvRow d i g 0)) ((List.range len).map (kvRow d i g 1)) y = hd := by
    rw [attendRun, List.length_map, List.length_range, List.map_map]
    rfl
  rw [itemHead, attendHead_run d no _ _ hrows hquery hsome, hhd]
  rfl

end

section
variable {d : Line} {no i : Nat} {g : Tab Line} (hkind : dKind d = 0x18)
include hkind

theorem poolUnits_attend : poolUnits d = (aG d * aDim d * aE d + 255) / 256 + 1 := by
  rw [poolUnits, if_pos hkind]
  rfl

theorem itemUnits_attend : itemUnits d no i g = (attendItem d no i g).mapIdx (fun u x => (u, x.1, x.2)) := by
  rw [itemUnits, hkind]
  rfl

variable {len : Nat} (hlen : gotWord g (aSeqLen d + 4 * (i / aH d)) = some len)
include hlen

theorem attendItem_eq : let c := (aG d * aDim d * aE d + 255) / 256
    attendItem d no i g = (List.range c).map (fun u => (aOut d + 256 * (c * i + u),
      bytesLine (slice ((itemHeads d no i g len).flatMap (fun x => x.out.flatMap (leBytes (aE d)))) (256 * u) 256))) ++
    [(aStats d + 256 * i, bytesLine ((itemHeads d no i g len).flatMap (fun x => leBytes 4 x.m ++ leBytes 4 x.l)))] := by
  intro c
  have hc : poolUnits d - 1 = c := by rw [poolUnits_attend hkind, Nat.add_sub_cancel]
  simp only [attendItem, hlen, hc]
  rfl

theorem itemUnits_attend_length : (itemUnits d no i g).length = (aG d * aDim d * aE d + 255) / 256 + 1 := by
  rw [itemUnits_attend hkind, attendItem_eq hkind hlen, List.length_mapIdx, List.length_append, List.length_map, List.length_range]
  rfl

theorem itemUnits_attend_out {u : Nat} (hu : u < (aG d * aDim d * aE d + 255) / 256) : (itemUnits d no i g)[u]? =
    some (u, aOut d + 256 * ((aG d * aDim d * aE d + 255) / 256 * i + u),
      bytesLine (slice ((itemHeads d no i g len).flatMap (fun x => x.out.flatMap (leBytes (aE d)))) (256 * u) 256)) := by
  rw [itemUnits_attend hkind, attendItem_eq hkind hlen, List.getElem?_mapIdx, List.getElem?_append_left (by simpa using hu), List.getElem?_map, List.getElem?_range hu]
  rfl

theorem itemUnits_attend_stats : (itemUnits d no i g)[(aG d * aDim d * aE d + 255) / 256]? =
    some ((aG d * aDim d * aE d + 255) / 256, aStats d + 256 * i, bytesLine ((itemHeads d no i g len).flatMap (fun x => leBytes 4 x.m ++ leBytes 4 x.l))) := by
  rw [itemUnits_attend hkind, attendItem_eq hkind hlen, List.getElem?_mapIdx, List.getElem?_append_right (by simp), List.length_map, List.length_range, Nat.sub_self]
  rfl

end

end Sys2Proof.Machine

/-! Rows in the order of their scores, and the best of them (09, R246). -/

namespace Sys2Proof.Machine

/-! ### The order of values -/

/-- A finite number or an infinity as an extended real; NaN has no place in the order, and its value here is never used. -/
noncomputable def Num.toEReal (x : Num) : EReal :=
  match x with
  | .nan => 0
  | .inf neg => if neg then ⊥ else ⊤
  | .fin neg m e => (((if neg then -1 else 1) * m * 2 ^ e : ℝ) : EReal)

theorem scaledInt_toReal (neg : Bool) (m : Nat) {e e0 : Int} (h : e0 ≤ e) :
    (scaledInt neg m e e0 : ℝ) = (if neg then -1 else 1) * m * 2 ^ e * 2 ^ (-e0) := by
  have hexp : ((2 : ℝ) ^ (e - e0).toNat) = 2 ^ e * 2 ^ (-e0) := by
    rw [← zpow_natCast, Int.toNat_of_nonneg (by omega), ← zpow_add₀ (by norm_num), Int.sub_eq_add_neg]
  rw [mul_assoc _ ((2 : ℝ) ^ e), ← hexp]
  cases neg <;> simp [scaledInt, Nat.shiftLeft_eq]

/-- The comparison of two numbers in a linear order. -/
theorem cmp_eq {x y : Num} (hx : x ≠ .nan) (hy : y ≠ .nan) :
    x.cmp y = some (if x.toEReal < y.toEReal then -1 else if x.toEReal = y.toEReal then 0 else 1) := by
  match x, y with
  | .nan, _ => exact absurd rfl hx
  | .inf _, .nan => exact absurd rfl hy
  | .fin _ _ _, .nan => exact absurd rfl hy
  | .inf a, .inf b => cases a <;> cases b <;> simp [Num.cmp, Num.toEReal]
  | .inf a, .fin b n f => cases a <;> simp [Num.cmp, Num.toEReal]
  | .fin a m e, .inf b => cases b <;> simp [Num.cmp, Num.toEReal]
  | .fin a m e, .fin b n f =>
    have hpos : (0 : ℝ) < 2 ^ (-min e f) := zpow_pos (by norm_num) _
    have hlt : scaledInt a m e (min e f) - scaledInt b n f (min e f) < 0 ↔ (Num.fin a m e).toEReal < (Num.fin b n f).toEReal := by
      rw [sub_neg, ← Int.cast_lt (R := ℝ), scaledInt_toReal a m (Int.min_le_left e f), scaledInt_toReal b n (Int.min_le_right e f), mul_lt_mul_iff_left₀ hpos]
      exact EReal.coe_lt_coe_iff.symm
    have heq : scaledInt a m e (min e f) - scaledInt b n f (min e f) = 0 ↔ (Num.fin a m e).toEReal = (Num.fin b n f).toEReal := by
      rw [sub_eq_zero, ← Int.cast_inj (α := ℝ), scaledInt_toReal a m (Int.min_le_left e f), scaledInt_toReal b n (Int.min_le_right e f), mul_left_inj' hpos.ne']
      exact EReal.coe_eq_coe_iff.symm
    simp only [Num.cmp, hlt, heq]

/-! ### Ranked rows (09, R246) -/

/-- A scored row ranks no later than another: the better score, then the lower row. -/
def Ranks (l2 : Bool) (x y : BitVec 32 × Nat) : Prop :=
  ∃ c, (decodeElem fp32 x.1.toNat).cmp (decodeElem fp32 y.1.toNat) = some c ∧ (c = 0 → x.2 ≤ y.2) ∧ (if l2 then c ≤ 0 else 0 ≤ c)

/-- The score of a row is NaN. -/
def nanRow (x : BitVec 32 × Nat) : Bool := decodeElem fp32 x.1.toNat == .nan

/-- What rows rank by, least first: a distance, or a likeness negated, and then the row. -/
noncomputable def rankKey (l2 : Bool) (x : BitVec 32 × Nat) : EReal ×ₗ Nat :=
  toLex (if l2 then (decodeElem fp32 x.1.toNat).toEReal else -(decodeElem fp32 x.1.toNat).toEReal, x.2)

section
variable {l2 : Bool} {x y : BitVec 32 × Nat} (hx : nanRow x = false) (hy : nanRow y = false)
include hx hy

theorem ranks_iff : Ranks l2 x y ↔ rankKey l2 x ≤ rankKey l2 y := by
  rw [Ranks, cmp_eq (beq_eq_false_iff_ne.mp hx) (beq_eq_false_iff_ne.mp hy), rankKey, rankKey, Prod.Lex.toLex_le_toLex]
  rcases lt_trichotomy (decodeElem fp32 x.1.toNat).toEReal (decodeElem fp32 y.1.toNat).toEReal with h | h | h
  · cases l2 <;> simp [h, h.not_gt, h.ne]
  · cases l2 <;> simp [h]
  · cases l2 <;> simp [h, h.not_gt, h.ne']

theorem ranksBefore_iff : ranksBefore l2 x y = true ↔ Ranks l2 x y := by
  rw [Ranks, ranksBefore]
  cases hc : (decodeElem fp32 x.1.toNat).cmp (decodeElem fp32 y.1.toNat) with
  | none => rw [cmp_eq (beq_eq_false_iff_ne.mp hx) (beq_eq_false_iff_ne.mp hy)] at hc; exact absurd hc (Option.some_ne_none _)
  | some c =>
    by_cases h0 : c = 0
    · cases l2 <;> simp [h0]
    · cases l2 <;> simp [h0] <;> omega

end

/-! ### The best rows of a list -/

section
variable {α β : Type} [LinearOrder β] {le : α → α → Bool} {f : α → β}

theorem insertBy_eq_of_key (x : α) : ∀ l : List α, (∀ y ∈ l, le x y = true ↔ f x ≤ f y) → insertBy le x l = l.orderedInsert (fun a b => f a ≤ f b) x
  | [], _ => rfl
  | y :: l, h => by
    rw [insertBy, List.orderedInsert_cons, insertBy_eq_of_key x l fun z hz => h z (List.mem_cons_of_mem _ hz)]
    exact if_congr (h y List.mem_cons_self) rfl rfl

/-- A list is put in the order of its keys. -/
theorem sortBy_eq_of_key : ∀ l : List α, (∀ x ∈ l, ∀ y ∈ l, le x y = true ↔ f x ≤ f y) → sortBy le l = l.insertionSort (fun a b => f a ≤ f b)
  | [], _ => rfl
  | x :: l, h => by
    have hrest := sortBy_eq_of_key l fun y hy z hz => h y (List.mem_cons_of_mem _ hy) z (List.mem_cons_of_mem _ hz)
    rw [List.insertionSort_cons, ← hrest]
    refine insertBy_eq_of_key x (sortBy le l) fun y hy => h x List.mem_cons_self y (List.mem_cons_of_mem _ ?_)
    rw [hrest] at hy
    exact (List.perm_insertionSort ..).mem_iff.mp hy

/-- The k best of a list, in their order. -/
def Best (r : α → α → Prop) (k : Nat) (got all : List α) : Prop :=
  ∃ rest, (got ++ rest).Perm all ∧ got.length = min k all.length ∧ got.Pairwise r ∧ ∀ x ∈ got, ∀ y ∈ rest, r x y

theorem best_take_insertionSort (k : Nat) (l : List α) : Best (fun a b => f a ≤ f b) k ((l.insertionSort (fun a b => f a ≤ f b)).take k) l := by
  have hsorted : (l.insertionSort (fun a b => f a ≤ f b)).Pairwise (fun a b => f a ≤ f b) := by
    have : Std.Total (fun a b : α => f a ≤ f b) := ⟨fun a b => le_total (f a) (f b)⟩
    have : IsTrans α (fun a b => f a ≤ f b) := ⟨fun a b c => le_trans⟩
    exact List.pairwise_insertionSort ..
  rw [← List.take_append_drop k (l.insertionSort (fun a b => f a ≤ f b)), List.pairwise_append] at hsorted
  obtain ⟨htaken, -, hbefore⟩ := hsorted
  refine ⟨_, (List.take_append_drop ..).symm ▸ List.perm_insertionSort .., ?_, htaken, hbefore⟩
  rw [List.length_take, List.length_insertionSort]

/-- The best of a list and of another's best are the best of both. -/
theorem best_append {k : Nat} {got old part new : List α} (hpart : Best (fun a b => f a ≤ f b) k part new)
    (hgot : Best (fun a b => f a ≤ f b) k got (old ++ part)) : Best (fun a b => f a ≤ f b) k got (old ++ new) := by
  obtain ⟨left, hleft, hlength, -, hbelow⟩ := hpart
  obtain ⟨rest, hrest, htaken, hsorted, hbefore⟩ := hgot
  have hnew : (got ++ (rest ++ left)).Perm (old ++ new) := by
    rw [← List.append_assoc]
    exact (hrest.append_right left).trans (by rw [List.append_assoc]; exact hleft.append_left old)
  have hcount := hleft.length_eq
  rw [List.length_append] at hcount htaken
  refine ⟨rest ++ left, hnew, ?_, hsorted, fun x hx y hy => ?_⟩
  · rw [List.length_append]
    omega
  rcases List.mem_append.mp hy with hy | hy
  · exact hbefore x hx y hy
  have hfull : part.length = k := by
    have := List.length_pos_of_mem hy
    omega
  by_cases hmeet : ∃ z ∈ part, z ∈ rest
  · obtain ⟨z, hz, hz'⟩ := hmeet
    exact (hbefore x hx z hz').trans (hbelow z hz y hy)
  · have hsame : part.Perm got := by
      classical
      refine (List.subperm_ext_iff.mpr fun z hz => ?_).perm_of_length_le (by omega)
      have hcounts := hrest.count_eq z
      rw [List.count_append, List.count_append, List.count_eq_zero.mpr fun hz' => hmeet ⟨z, hz, hz'⟩] at hcounts
      omega
    exact hbelow x (hsame.mem_iff.mpr hx) y hy

/-- What is best in the order of keys is best in any order that agrees with it on the list. -/
theorem best_congr {r : α → α → Prop} {k : Nat} {got all : List α} (h : ∀ x ∈ all, ∀ y ∈ all, r x y ↔ f x ≤ f y) (hbest : Best (fun a b => f a ≤ f b) k got all) :
    Best r k got all := by
  obtain ⟨rest, hperm, hlength, hsorted, hbefore⟩ := hbest
  have hgot (x) (hx : x ∈ got) : x ∈ all := hperm.mem_iff.mp (List.mem_append_left _ hx)
  exact ⟨rest, hperm, hlength, hsorted.imp_of_mem fun hx hy hle => (h _ (hgot _ hx) _ (hgot _ hy)).mpr hle,
    fun x hx y hy => (h x (hgot x hx) y (hperm.mem_iff.mp (List.mem_append_right _ hy))).mpr (hbefore x hx y hy)⟩

end

section
variable {l2 : Bool} {k : Nat} {l : List (BitVec 32 × Nat)} (hnan : ∀ x ∈ l, nanRow x = false)
include hnan

theorem bestRows_best_key : Best (fun a b => rankKey l2 a ≤ rankKey l2 b) k (bestRows l2 k l) l := by
  rw [bestRows, sortBy_eq_of_key l fun x hx y hy => (ranksBefore_iff (hnan x hx) (hnan y hy)).trans (ranks_iff (hnan x hx) (hnan y hy))]
  exact best_take_insertionSort k l

theorem best_ranks {got : List (BitVec 32 × Nat)} (h : Best (fun a b => rankKey l2 a ≤ rankKey l2 b) k got l) : Best (Ranks l2) k got l :=
  best_congr (fun x hx y hy => ranks_iff (hnan x hx) (hnan y hy)) h

theorem bestRows_best : Best (Ranks l2) k (bestRows l2 k l) l := best_ranks hnan (bestRows_best_key hnan)

end

/-- The best of the rows kept so far and of the best new ones are the best of all (09, R246). -/
theorem bestRows_merge_best {l2 : Bool} {k : Nat} {old new : List (BitVec 32 × Nat)} (hold : ∀ x ∈ old, nanRow x = false) (hnew : ∀ x ∈ new, nanRow x = false) :
    Best (Ranks l2) k (bestRows l2 k (old ++ bestRows l2 k new)) (old ++ new) := by
  have hpart : Best (fun a b => rankKey l2 a ≤ rankKey l2 b) k (bestRows l2 k new) new := bestRows_best_key hnew
  have hkept (x) (hx : x ∈ bestRows l2 k new) : nanRow x = false := by
    obtain ⟨rest, hperm, -⟩ := hpart
    exact hnew x (hperm.mem_iff.mp (List.mem_append_left _ hx))
  refine best_ranks (fun x hx => (List.mem_append.mp hx).elim (hold x) (hnew x)) (best_append hpart (bestRows_best_key fun x hx => ?_))
  exact (List.mem_append.mp hx).elim (hold x) (hkept x)

/-! ### Result lists as bytes (09, R246) -/

/-- An entry of a result list: a score and its row, or an empty entry. -/
def entryBytes (x : Option (BitVec 32 × Nat)) : List Byte :=
  match x with
  | some x => leBytes 4 x.1.toNat ++ leBytes 4 x.2
  | none => leBytes 4 0x7FC00000 ++ leBytes 4 0xFFFFFFFF

theorem entryBytes_length (x : Option (BitVec 32 × Nat)) : (entryBytes x).length = 8 := by
  cases x <;> rfl

theorem listBytes_entry {k j : Nat} (l : List (BitVec 32 × Nat)) (hj : j < k) : slice (listBytes k l) (8 * j) 8 = entryBytes l[j]? :=
  slice_flatMap (f := fun i => entryBytes l[i]?) (fun _ => entryBytes_length _) (List.getElem?_range hj)

end Sys2Proof.Machine

/-! POOL_ITEM_UNIT_COMMIT: units go to their home agents, and merging kinds merge (09, R233, R236, R239, R240, R242, R243, R246). -/

namespace Sys2Proof.Machine

section
variable {s : State} {t : ThreadRef} {p : Spray} {th : Thread}

/-! ### Units of the kinds that do not merge -/

section
variable (hmerges : mergesItems p.desc = false)
include hmerges

theorem commitUnit_none (h : unitsLeft p th = []) : commitUnit s t th p = s := by
  simp only [commitUnit, hmerges, h, Bool.false_eq_true, if_false]

variable {u a : Nat} {v : Line} {more : List (Nat × Nat × Line)} (h : unitsLeft p th = (u, a, v) :: more)
include h

theorem commitUnit_line (hblock : ¬(th.items = 16 ∧ more.length = 15)) : commitUnit s t th p =
    issueItem s t (itemTile t th p a 1 (if dKind p.desc = 0x11 then 0x08 else 0x04) (.itemUnit u) (lineBytes v)) := by
  simp only [commitUnit, hmerges, h, hblock, Bool.false_eq_true, if_false, beq_iff_eq]

theorem commitUnit_block (hitems : th.items = 16) (hmore : more.length = 15) : commitUnit s t th p =
    issueItem s t (itemTile t th p a 16 0x08 (.zeroBlock u) (List.replicate 4096 0)) := by
  simp only [commitUnit, hmerges, h, hitems, hmore, Bool.false_eq_true, if_false, and_self, if_true]

end

section
variable (hkind : dKind p.desc ≠ 0x19)
include hkind

theorem itemTile_not_direct (base rows op : Nat) (use : TileUse) (bytes : List Byte) : (itemTile t th p base rows op use bytes).direct = false :=
  beq_false_of_ne hkind

/-- Lines of an item whose addresses are canonical are written (01, R25). -/
theorem issueItem_lines {a rows : Nat} (ha : a % 256 = 0) (hrows : 0 < rows) (h : a + 256 * rows ≤ 2 ^ 57) (op : Nat) (use : TileUse) (bytes : List Byte) :
    issueItem s t (itemTile t th p a rows op use bytes) =
      newTile s { engine := t.engine, thread := t.thread, spray := th.spray, asid := p.asid, base := a, rows := rows, rowBytes := 256, stride := 256,
                  op := op, use := use, bytes := bytes } := by
  rw [issueItem_issued (.inr ((canonical_of_lines (itemTile_lines p ha ..) hrows).mpr h))]
  exact congrArg (newTile s) (by rw [itemTile, beq_false_of_ne hkind])

theorem issueItem_line_beyond {a : Nat} (ha : a % 256 = 0) (h : 2 ^ 57 ≤ a) (op : Nat) (use : TileUse) (bytes : List Byte) :
    issueItem s t (itemTile t th p a 1 op use bytes) = failThread s t.engine t.thread { status := 0x83, pva := a % 2 ^ 57 } := by
  have hlines := itemTile_lines (t := t) (th := th) p ha 1 op use bytes
  have hbad : (itemTile t th p a 1 op use bytes).canonical = false :=
    Bool.eq_false_iff.mpr fun hc => absurd ((canonical_of_lines hlines Nat.one_pos).mp hc) (by change ¬(a + 256 * 1 ≤ 2 ^ 57); omega)
  rw [issueItem_beyond (itemTile_not_direct hkind ..) hbad, badPva_of_line hlines rfl h]
  rfl

end

/-! ### Merges -/

theorem setSpray_setSpray (s : State) (n : Nat) (v w : Spray) : setSpray (setSpray s n v) n w = setSpray s n w := by
  simp only [setSpray, tset_tset]

/-- A launch with an item merged: the work and the commit bit change together (09, R233). -/
def Spray.merged (p : Spray) (i : Nat) (w : PoolWork) : Spray := { p with commits := i :: p.commits, work := w }

theorem commitUnit_merges (hspray : sprayOf? s th.spray = some p) (hmerges : mergesItems p.desc = true) (hnew : th.item ∉ p.commits) : commitUnit s t th p =
    setSpray (useFree s) th.spray (p.merged th.item (mergeItem p.desc s.time.free p.base th.item (t.engine / 128) th.got p.work)) := by
  have hunmarked : p.commits.contains th.item = false := Bool.eq_false_iff.mpr fun h => hnew (List.contains_iff_mem.mp h)
  have hfree : sprayOf? (useFree s) th.spray = some p := hspray
  simp only [commitUnit, hmerges, hunmarked, Bool.false_eq_true, if_false, if_true, mergeUnit, markUnit]
  rw [modSpray_of_some hfree, modSpray_of_some ((sprayOf?_setSpray ..).trans (if_pos rfl)), setSpray_setSpray]
  rfl

theorem commitUnit_merged (hmerges : mergesItems p.desc = true) (hdone : th.item ∈ p.commits) : commitUnit s t th p = s := by
  simp only [commitUnit, hmerges, List.contains_iff_mem.mpr hdone, if_true]

end

section
variable {d : Line} {no base i k : Nat} {g : Tab Line} {w : PoolWork}

/-! ### COMPARE, total REDUCE and DIGEST (09, R239, R242, R243) -/

theorem lineBytes_injective {x y : Line} (h : lineBytes x = lineBytes y) : x = y := by
  rw [← bytesLine_lineBytes x, h, bytesLine_lineBytes]

theorem mergeItem_compare (hkind : dKind d = 0x13) : mergeItem d no base i k g w =
    if gotBytes g (dSrc d + 256 * i) 256 = gotBytes g (dSrc2 d + 256 * i) 256 then w
    else { w with mismatches := w.mismatches.set k (w.mismatches.getD k 0 + 1), minIndex := w.minIndex.set k (min i (w.minIndex.getD k 0xFFFFFFFF)) } := by
  rw [mergeItem, hkind]
  rfl

/-- Two lines that are compared count as a mismatch where they differ (09, R239). -/
theorem mergeItem_compare_of_lines (hkind : dKind d = 0x13) (hsrc : dSrc d % 256 = 0) (hsrc2 : dSrc2 d % 256 = 0) {x y : Line}
    (hx : tget? g (dSrc d / 256 + i) = some x) (hy : tget? g (dSrc2 d / 256 + i) = some y) :
    (x = y → mergeItem d no base i k g w = w) ∧
    (x ≠ y → mergeItem d no base i k g w =
      { w with mismatches := w.mismatches.set k (w.mismatches.getD k 0 + 1), minIndex := w.minIndex.set k (min i (w.minIndex.getD k 0xFFFFFFFF)) }) := by
  rw [mergeItem_compare hkind, gotBytes_of_line hsrc hx, gotBytes_of_line hsrc2 hy]
  exact ⟨fun h => if_pos (congrArg lineBytes h), fun h => if_neg (mt lineBytes_injective h)⟩

/-- W48 values combined from the first on (09, R242). -/
def combined (op : Nat) (l : List Word) : Word :=
  match l with
  | [] => 0
  | a :: more => more.foldl (totalOp op) a

theorem totalItem_eq (no : Nat) (x : Line) : ∃ es : List Num, es.Perm (lineElems (dFormat d) x) ∧ totalItem d no x = combined (dOp d) (es.map round48) :=
  ⟨_, rotateList_perm _ _, rfl⟩

theorem mergeItem_reduce (hkind : dKind d = 0x14) (hsrc : dSrc d % 256 = 0) {x : Line} (hx : tget? g (dSrc d / 256 + i) = some x) :
    mergeItem d no base i k g w =
      { w with values := w.values.set k (if w.merged.getD k false then totalOp (dOp d) (w.values.getD k 0) (totalItem d no x) else totalItem d no x)
               merged := w.merged.set k true } := by
  rw [mergeItem, hkind, bytesLine_gotBytes_of_line hsrc hx]
  rfl

theorem mergeItem_digest (hkind : dKind d = 0x19) :
    mergeItem d no base i k g w = { w with leaves := tset w.leaves i (sha384 (gotBytes g (base + 2097152 * i) 2097152)) } := by
  rw [mergeItem, hkind]
  rfl

/-! ### SEARCH (09, R245, R246) -/

/-- A query of an item, quantized. -/
def itemQuery (d : Line) (g : Tab Line) (j : Nat) : Option (List Num × Int) := quantizeQuery (sFmt d) (gotFloats g (queryAddr d j) (sDim d))

/-- The elements of a row. -/
def rowElems (d : Line) (g : Tab Line) (r : Nat) : List Num :=
  rowValues (sFmt d) (sDim d) (gotBytes g (sTable d + r * sStride d) (rowBytesOf (sFmt d) (sDim d)))

/-- The score of a row for a quantized query. -/
def rowScore (d : Line) (no : Nat) (g : Tab Line) (y : List Num × Int) (r : Nat) : BitVec 32 := BitVec.ofNat 32 (searchScore d no y (rowElems d g r))

/-- The rows of an item with their scores for a query; none for an invalid query. -/
def scoredRows (d : Line) (no i : Nat) (g : Tab Line) (q : Option (List Num × Int)) : List (BitVec 32 × Nat) :=
  match q with
  | none => []
  | some y => ((searchRows d i).map (fun r => (r, rowElems d g r))).map (fun r => (BitVec.ofNat 32 (searchScore d no y r.2), r.1))

theorem scoredRows_some (y : List Num × Int) : scoredRows d no i g (some y) = (searchRows d i).map (fun r => (rowScore d no g y r, r)) := List.map_map

/-- The rows of an item that a query ranks: those whose score is not NaN. -/
def rankedRows (d : Line) (no i : Nat) (g : Tab Line) (q : Option (List Num × Int)) : List (BitVec 32 × Nat) :=
  match q with
  | none => []
  | some y => ((searchRows d i).map (fun r => (rowScore d no g y r, r))).filter (fun x => !nanRow x)

theorem filter_scoredRows (q : Option (List Num × Int)) : (scoredRows d no i g q).filter (fun x => !nanRow x) = rankedRows d no i g q := by
  cases q with
  | none => rfl
  | some y => exact congrArg (List.filter _) (scoredRows_some y)

theorem searchItem_eq : let all := ((List.range (sNq d)).map (itemQuery d g)).map (scoredRows d no i g)
    let good := all.map (List.filter (fun x => !nanRow x))
    let rows := (searchRows d i).map (fun r => (r, rowElems d g r))
    searchItem d no i g =
      { lists := good.map (bestRows (sL2 d) (sK d))
        invalid := (List.range (sNq d)).foldl (fun m q => if (((List.range (sNq d)).map (itemQuery d g)).getD q none).isNone then m ||| (1#16 <<< q) else m) 0
        nans := (rows.filter (fun r => all.any (fun l => l.any (fun x => x.2 == r.1 && nanRow x)))).length
        ranked := (rows.filter (fun r => good.any (fun l => l.any (fun x => x.2 == r.1)))).length } := rfl

theorem searchItem_lists {j : Nat} (hj : j < sNq d) : (searchItem d no i g).lists.getD j [] = bestRows (sL2 d) (sK d) (rankedRows d no i g (itemQuery d g j)) := by
  simp [searchItem_eq, hj, filter_scoredRows]

/-- A valid query gives a row a score that a test accepts. -/
def rowScored (d : Line) (no : Nat) (g : Tab Line) (test : BitVec 32 → Bool) (r : Nat) (q : Option (List Num × Int)) : Bool :=
  match q with
  | none => false
  | some y => test (rowScore d no g y r)

theorem scoredRows_any {r : Nat} (hr : r ∈ searchRows d i) (test : BitVec 32 → Bool) (q : Option (List Num × Int)) :
    (scoredRows d no i g q).any (fun x => x.2 == r && test x.1) = rowScored d no g test r q := by
  cases q with
  | none => rfl
  | some y =>
    rw [Bool.eq_iff_iff, scoredRows_some, List.any_map, List.any_eq_true]
    constructor
    · rintro ⟨r', -, hmeet⟩
      simp only [Function.comp_apply, Bool.and_eq_true, beq_iff_eq] at hmeet
      obtain ⟨rfl, htest⟩ := hmeet
      exact htest
    · exact fun htest => ⟨r, hr, by rw [Function.comp_apply, beq_self_eq_true, Bool.true_and]; exact htest⟩

/-- The code of a score is NaN. -/
def nanCode (c : BitVec 32) : Bool := decodeElem fp32 c.toNat == .nan

/-- Rows for which some valid query's score passes a test. -/
def rowsPassing (d : Line) (no i : Nat) (g : Tab Line) (test : BitVec 32 → Bool) : List Nat :=
  (searchRows d i).filter (fun r => (List.range (sNq d)).any (fun j => rowScored d no g test r (itemQuery d g j)))

theorem searchItem_nans : (searchItem d no i g).nans = (rowsPassing d no i g nanCode).length := by
  simp only [searchItem_eq, List.filter_map, List.length_map, List.any_map, rowsPassing]
  refine congrArg List.length (List.filter_congr fun r hr => List.any_congr rfl fun j => ?_)
  exact scoredRows_any hr nanCode (itemQuery d g j)

theorem searchItem_ranked : (searchItem d no i g).ranked = (rowsPassing d no i g (fun c => !nanCode c)).length := by
  simp only [searchItem_eq, List.filter_map, List.length_map, List.any_map, rowsPassing]
  refine congrArg List.length (List.filter_congr fun r hr => List.any_congr rfl fun j => ?_)
  rw [← scoredRows_any hr]
  simp only [Function.comp_apply, List.any_filter]
  exact List.any_congr rfl fun x => Bool.and_comm ..

theorem getLsbD_foldl_or (q : Nat → Bool) {j : Nat} (hj : j < 16) : ∀ n : Nat,
    ((List.range n).foldl (fun m k => if q k then m ||| (1#16 <<< k) else m) (0 : BitVec 16)).getLsbD j = (decide (j < n) && q j)
  | 0 => by simp
  | n + 1 => by
    have hbit : (1#16 <<< n).getLsbD j = decide (j = n) := by
      rw [BitVec.getLsbD_shiftLeft, BitVec.getLsbD_one, decide_eq_true hj, Bool.true_and, Bool.eq_iff_iff]
      simp only [Bool.and_eq_true, Bool.not_eq_true', decide_eq_false_iff_not, decide_eq_true_eq]
      omega
    rw [List.range_succ, List.foldl_append, List.foldl_cons, List.foldl_nil, apply_ite (fun m : BitVec 16 => m.getLsbD j), BitVec.getLsbD_or, getLsbD_foldl_or q hj n, hbit]
    by_cases hjn : j = n
    · cases hq : q n <;> simp [hjn, hq]
    · have hlt : j < n + 1 ↔ j < n := by omega
      simp [hjn, hlt]

theorem searchItem_invalid {j : Nat} (hj : j < 16) : (searchItem d no i g).invalid.getLsbD j = (decide (j < sNq d) && (itemQuery d g j).isNone) := by
  simp only [searchItem_eq]
  rw [getLsbD_foldl_or _ hj]
  by_cases hq : j < sNq d <;> simp [hq]

theorem tget?_foldl_tmod {α : Type} (a : Nat) (dflt : α) (f : Nat → α → α) (t : Tab α) (m : Nat) : ∀ n : Nat,
    tget? ((List.range n).foldl (fun t q => tmod t (a + q) dflt (f q)) t) m = if a ≤ m ∧ m < a + n then some (f (m - a) (tget t m dflt)) else tget? t m
  | 0 => by simp
  | n + 1 => by
    rw [List.range_succ, List.foldl_append, List.foldl_cons, List.foldl_nil, tmod, tget?_tset]
    by_cases hm : a + n = m
    · have hold : tget? ((List.range n).foldl (fun t q => tmod t (a + q) dflt (f q)) t) m = tget? t m := by
        rw [tget?_foldl_tmod a dflt f t m n, if_neg (by omega)]
      rw [if_pos hm, if_pos (by omega), hm, tget, hold, ← hm, Nat.add_sub_cancel_left]
      rfl
    · rw [if_neg hm, tget?_foldl_tmod a dflt f t m n]
      exact if_congr (by omega) rfl rfl

/-- What the merge of an item of SEARCH changes. -/
theorem mergeItem_search (hkind : dKind d = 0x17) : let q := searchItem d no i g
    mergeItem d no base i k g w =
      { w with
        lists := (List.range (sNq d)).foldl (fun t j => tmod t (k * 16 + j) [] (fun l => bestRows (sL2 d) (sK d) (l ++ q.lists.getD j []))) w.lists
        queryInvalid := w.queryInvalid ||| q.invalid
        nanRows := satAdd 32 w.nanRows q.nans
        rowsScored := satAdd 32 w.rowsScored q.ranked } := by
  rw [mergeItem, hkind]
  rfl

theorem mergeItem_search_list (hkind : dKind d = 0x17) {j : Nat} (hj : j < sNq d) : tget (mergeItem d no base i k g w).lists (k * 16 + j) [] =
    bestRows (sL2 d) (sK d) (tget w.lists (k * 16 + j) [] ++ bestRows (sL2 d) (sK d) (rankedRows d no i g (itemQuery d g j))) := by
  rw [mergeItem_search hkind, tget, tget?_foldl_tmod, if_pos (by omega), Nat.add_sub_cancel_left, Option.getD_some, searchItem_lists hj]

theorem mergeItem_search_others (hkind : dKind d = 0x17) {n : Nat} (hn : ∀ j < sNq d, n ≠ k * 16 + j) :
    tget? (mergeItem d no base i k g w).lists n = tget? w.lists n := by
  rw [mergeItem_search hkind, tget?_foldl_tmod, if_neg]
  rintro ⟨hlo, hhi⟩
  exact hn (n - k * 16) (by omega) (by omega)

theorem nanRow_of_ranked {q : Option (List Num × Int)} : ∀ x ∈ rankedRows d no i g q, nanRow x = false :=
  fun x hx => by
    rw [← filter_scoredRows] at hx
    simpa using (List.mem_filter.mp hx).2

/-- A list that an item of SEARCH merges keeps the best of its rows and of the item's (09, R246). -/
theorem mergeItem_search_best (hkind : dKind d = 0x17) {j : Nat} (hj : j < sNq d) (hold : ∀ x ∈ tget w.lists (k * 16 + j) [], nanRow x = false) :
    Best (Ranks (sL2 d)) (sK d) (tget (mergeItem d no base i k g w).lists (k * 16 + j) []) (tget w.lists (k * 16 + j) [] ++ rankedRows d no i g (itemQuery d g j)) := by
  rw [mergeItem_search_list hkind hj]
  exact bestRows_merge_best hold nanRow_of_ranked

end

end Sys2Proof.Machine

section
open Sys2Proof Sys2Proof.Machine

/-- Settles O41: an item's stages by the lines it lacks, its units by their kind, and a commit by whether the kind merges. -/
theorem poolItemsComputeAndCommit : Obligations.PoolItemsComputeAndCommit := by
  unfold Obligations.PoolItemsComputeAndCommit
  refine ⟨⟨?stage, ?units, ?block, ?query, ?score, ?total, ?list⟩, ?commit⟩
  case stage =>
    intro row hrow s t p th hthread hspray hpool hissue htiles hcomputed hkind base lacks
    rw [exec_itemStage hthread hspray hpool hissue htiles hrow hcomputed hkind]
    refine ⟨fun hout => congrArg _ (itemStage_outOfRange hout), fun hin => ⟨fun hall => congrArg _ (itemStage_computes hin hall), fun l more hlacks => ?_⟩⟩
    obtain ⟨hpos, hmax, hrun, hend⟩ := leadingRun_spec 63 l more
    refine ⟨_, hpos, hmax, fun j hj => (congrArg (·[j]?) hlacks).trans (hrun j hj), fun hlt => by rw [hlacks]; exact hend hlt, ?_⟩
    rw [itemStage_reads hin hlacks, ← hkind]
    exact ⟨fun h => congrArg _ (issueItem_readTile hpos h), fun hother h => congrArg _ (issueItem_readTile_beyond hpos hother h)⟩
  case units =>
    intro d no base i g dst src src2 index r units kind
    refine ⟨fun hkind => ?fill, fun hkind => ?zero, fun hkind hsrc => ?copy, fun hkind hsrc hindex v hv => ?gather,
      fun hkind hsrc hindex v hv => ?scatter, fun hkind htotal hfmt hsrc hsrc2 x y hx hy => ?reduce, fun hkind => ?attend⟩
    case fill => exact ⟨itemLacks_of_no_reads (itemReads_fill hkind), _, itemUnits_fill hkind, fun w hw => lineWord_fill hw⟩
    case zero => exact ⟨itemLacks_of_no_reads (itemReads_zero hkind), itemUnits_zero hkind⟩
    case copy => exact ⟨itemLacks_copy hsrc hkind, fun v hv => itemUnits_copy_of_line hsrc hkind hv⟩
    case gather => exact fun u hu => gather_of_lines hsrc hindex hv hkind hu
    case scatter => exact fun u hu => scatter_of_lines hsrc hindex hv hkind hu
    case reduce =>
      intro m w el
      have hall : dTotal d = false := by rw [dTotal, bit_eq_bits, htotal]; rfl
      obtain ⟨hlacks, hunits⟩ := reduce_of_lines hsrc hsrc2 hkind hall hx hy
      refine ⟨hlacks, _, hunits, fun j hj => ?_⟩
      rw [← reduceOp_eq]
      exact bits_reduceLines hfmt x y hj
    case attend =>
      intro nh ng dim e fmt page c rb row len hlen
      refine ⟨itemHeads d no i g len, ?_, itemUnits_attend_length hkind hlen, fun u hu => itemUnits_attend_out hkind hlen hu, itemUnits_attend_stats hkind hlen, fun q hq => ?_⟩
      · exact (List.length_map ..).trans List.length_range
      refine ⟨itemHead d no i g len q, ?_, ?_⟩
      · exact (List.getElem?_map ..).trans (congrArg _ (List.getElem?_range hq))
      refine ⟨fun hnan => ?_, fun hquery hempty => ?_, fun y hquery hlen hnan => ?_⟩
      · rw [itemHead_nan hnan]
        exact ⟨rfl, rfl, rfl⟩
      · rw [hempty, itemHead_empty hquery]
        exact ⟨rfl, rfl, rfl⟩
      · rw [itemHead_run hquery hlen hnan]
        refine ⟨tokenScores d no i g len y, (List.length_map ..).trans List.length_range, fun tok htok => ?_, rfl, rfl, rfl⟩
        obtain ⟨gs, hperm, hsmall, hsum⟩ := dotSum_spec (by decide : 0 < 4) no (products y.1 (kvRow d i g 0 tok))
        refine ⟨gs, hperm, hsmall, (tokenScores_get htok y).trans ?_⟩
        rw [attendScore, hsum]
        rfl
  case block =>
    intro no scale h scores vals mn e2 al ps add n
    have hn : n = _ := attendBlock_eq no scale h scores vals
    rw [hn]
    refine ⟨rfl, rfl, List.length_mapIdx, fun j w hw => ?_⟩
    rw [List.getElem?_mapIdx, hw]
    rfl
  case query =>
    intro fmt l
    refine ⟨fun ⟨x, hx, hfin⟩ => quantizeQuery_of_not_fin ⟨x, hx, fun ⟨n, m, e, h⟩ => hfin n m e h⟩, fun hfin => ⟨fun hfmt => ?_, fun hfmt => quantizeQuery_mx hfin hfmt⟩⟩
    rw [hfmt]
    exact quantizeQuery_bf16 hfin
  case score =>
    intro d no q x sumOf
    have hsum (ps : List Machine.Num) : sumOf ps (dotSum (dotWidth (sFmt d)) no ps) := dotSum_spec (dotWidth_pos _) no ps
    exact ⟨_, hsum _, fun hdot => searchScore_dot d no q x hdot, fun hl2 => ⟨_, _, hsum _, hsum _, searchScore_l2 d no q x hl2⟩⟩
  case total => exact fun op a b => rfl
  case list =>
    intro d w q l2 hl2 k all before hnan
    subst hl2
    obtain ⟨rest, hperm, hlength, hsorted, hbefore⟩ := bestRows_best (l2 := sL2 d) (k := k) (l := all) fun x hx => beq_eq_false_iff_ne.mpr (hnan x hx)
    exact ⟨⟨rest, hperm, hlength, hsorted, hbefore⟩, fun j hj => listBytes_entry (mergedList d w q) hj⟩
  case commit =>
    intro s t p th hthread hspray hpool hissue htiles hcomputed d kind units tile
    rw [exec_unitCommit hthread hspray hpool hissue htiles hcomputed]
    refine ⟨fun hmerges hdigest => ⟨fun hnone => ?none, fun u a v more hunits hline ha => ?line, fun u a v more hunits hitems hmore ha hin => ?block⟩,
      fun hmerges => ⟨fun hdone => ?merged, fun hnew => ?merges⟩⟩
    case none => rw [commitUnit_none hmerges hnone]
    case line =>
      rw [commitUnit_line hmerges hunits hline]
      exact ⟨fun h => congrArg _ (issueItem_lines hdigest ha Nat.one_pos (by omega) ..), fun h => congrArg _ (issueItem_line_beyond hdigest ha h ..)⟩
    case block =>
      rw [commitUnit_block hmerges hunits hitems hmore]
      exact congrArg _ (issueItem_lines hdigest (by omega) (by decide) hin ..)
    case merged => rw [commitUnit_merged hmerges hdone]
    case merges =>
      rw [commitUnit_merges hspray hmerges hnew]
      refine ⟨_, _, _, rfl, (sprayOf?_setSpray ..).trans (if_pos rfl), rfl, rfl, fun n hn => (sprayOf?_setSpray ..).trans (if_neg hn.symm),
        fun hkind hsrc hsrc2 x y hx hy => ?compare, fun hkind hfmt hsrc x hx => ?reduce, fun hkind => ?search, fun hkind => mergeItem_digest hkind⟩
      case compare => exact mergeItem_compare_of_lines hkind hsrc hsrc2 hx hy
      case reduce =>
        intro m k
        obtain ⟨es, hperm, htotal⟩ := totalItem_eq (d := d) s.time.free x
        rw [lineElems_eq hfmt] at hperm
        refine ⟨es, hperm, ?_⟩
        rw [mergeItem_reduce hkind hsrc hx, htotal]
        rfl
      case search =>
        intro fmt dim nq k l2 rows query score isNan before
        refine ⟨?_, fun j hj => ?_, ?_, ?_, fun n hn => mergeItem_search_others hkind hn, fun j hj => mergeItem_search_best hkind hj⟩
        · rw [mergeItem_search hkind]
        · rw [mergeItem_search hkind, BitVec.getLsbD_or, searchItem_invalid hj]
          rfl
        · rw [mergeItem_search hkind, searchItem_nans]
          rfl
        · rw [mergeItem_search hkind, searchItem_ranked]
          rfl

end
